-- ==== Sys2Proof/Word.lean ====
section
/-! DEFINITION. The words of the device and the plain shapes the rest of the model is written over: 32-bit registers
(R9), bytes, a field's bit range, and the sparse table that holds what a unit keeps for each of its indices. -/

namespace Sys2Proof

/-- A register's or an engine register's contents (R9). -/
abbrev Word := BitVec 32

/-- One byte of memory. -/
abbrev Byte := BitVec 8

/-- The bits hi down to lo of a register, as the register tables name a field. -/
structure Bits where
  hi : Nat
  lo : Nat
  deriving DecidableEq, Repr

/-- A sparse table by index. Its keys rise strictly and no entry holds what an unlisted index holds, so that equal
tables are equal lists. -/
abbrev Tab (α : Type) := List (Nat × α)

end Sys2Proof
end

