-- ==== Sys2Proof/Syntax.lean ====
section
/-! DEFINITION. The commands of the device, one constructor for each row of the table of operations and events. A
command names the units it concerns by the indices of R5 and carries what comes from outside the device: the value
written, the frame received, the level on a pin, the instant of an event within its nanosecond. -/

namespace Sys2Proof

/-- A privilege level of an engine (R192). -/
inductive Priv where
  | user
  | supervisor
  | monitor
  deriving DecidableEq, Repr

/-- A master of the spine that issues reads and writes (R36): an engine at a privilege level, or a Foreman core. -/
inductive Master where
  | engine (e : Fin 128) (priv : Priv)
  | foreman (core : Fin 3)
  deriving DecidableEq, Repr

/-- A supply threshold of R399: level 1 to 6 of VCORE, or level 6 of VAUX. -/
inductive Threshold where
  | vcore (level : Fin 6)
  | vaux
  deriving DecidableEq, Repr

/-- A supply input (R390). -/
inductive SupplyPin where
  | vcore
  | vio
  | vaux
  deriving DecidableEq, Repr

/-- A supply's fall (R391): the supply, the value that it stays below, mV, and for how long, ns. -/
structure Sag where
  supply : SupplyPin
  mv : BitVec 16
  ns : BitVec 32
  deriving DecidableEq, Repr

/-- What else the release of power-on reset needs (R391, R392): RESET_N's level, for how many nanoseconds the four
conditions have held together, and whether REFCLK meets its requirements by 0.5 ms. -/
structure Release where
  resetN : Bool
  ns : BitVec 32
  refclk : Bool
  deriving DecidableEq, Repr

/-- The measured values of VIO and VAUX, mV (R398). -/
structure IoSupplies where
  vio : BitVec 16
  vaux : BitVec 16
  deriving DecidableEq, Repr

/-- What the array shows at a word that a command reads: no new error, one more flipped bit, an uncorrectable pattern
that the re-read does not show, or an uncorrectable one that it does (R297, R376). (DESIGN CHOICE, log 89) -/
inductive Upset where
  | none
  | single
  | transient
  | double
  deriving DecidableEq, Repr

/-- The engine that stores, and what the array shows at the word whose read half the store needs (R299). -/
structure Storing where
  e : Fin 128
  u : Upset
  deriving DecidableEq, Repr

/-- The word that a master writes, and what the array shows at a word of memory whose read half the write needs
(R299). (DEDUCED, log 240) -/
structure WordWrite where
  v : BitVec 32
  u : Upset
  deriving DecidableEq, Repr

/-- The field that a fault has altered in a commit record, and what the array shows at the word whose read half the
record's first write to memory needs (R250, R299). (DEDUCED, log 240) -/
structure Comparing where
  kind : Fin 5
  u : Upset
  deriving DecidableEq, Repr

/-- A completed estimate of one slice (R129): offset in 1/16 LSB, gain in units of 2^-16, timing skew in 0.1 ps; signed,
and not bounded by the fields of AD_SCOR. -/
structure SliceEst where
  ofs : Int
  gain : Int
  skew : Int
  deriving DecidableEq, Repr

/-- An uplink frame as a phase port decodes it (R150, R152): whether its code groups are valid with the right running
disparity, whether they are a comma frame's ordered sets, and its four bytes. -/
structure Frame where
  valid : Bool
  comma : Bool
  tag : BitVec 8
  hi : BitVec 8
  lo : BitVec 8
  crc : BitVec 8
  deriving DecidableEq, Repr

/-- How a transaction of a stage bus ends: whether the stage answered, and the retries made (R160). -/
structure Reply where
  ok : Bool
  retries : Fin 16
  deriving DecidableEq, Repr

/-- What the read of IDSTAT and IDSEEN of the stage at temporary address t brings in a binding round: IDV and the word
(R167 step 4). -/
structure StageReport where
  t : Fin 16
  reply : Reply
  idv : Bool
  word : BitVec 16
  deriving DecidableEq, Repr

/-- A host transport that reaches the host address space (R316). -/
inductive Via where
  | i3c
  | smbus
  | spi
  deriving DecidableEq, Repr

/-- The packet error code of an SMBus transfer: not sent, right, or wrong (R318). -/
inductive Pec where
  | absent
  | good
  | bad
  deriving DecidableEq, Repr

/-- The transport that carries an MCTP message to the device, with the PEC of its packets on SMBus (R318, R320). -/
inductive MctpBus where
  | i3c
  | smbus (pec : Pec)
  deriving DecidableEq, Repr

/-- A report to the fault manager (R366, R369, R370), with what first-error capture takes of it: the 64-bit address, the
master, the access type, log2 of the size, and the cause (R374). -/
structure Report where
  src : BitVec 6
  event : BitVec 8
  cls : BitVec 2
  unit : BitVec 16
  detail : BitVec 32
  persist : BitVec 2
  addr : BitVec 64
  master : BitVec 8
  type : BitVec 3
  size : BitVec 2
  kind : BitVec 8
  deriving DecidableEq, Repr

/-- What RAIL_POLICY sets of a rail (R329): FLOOR, CEIL and PIN, the trust bounds of one partner entry (R90), or a
coefficient bank with its swap (R55). -/
inductive Policy where
  | counts (floor ceil : BitVec 7) (pinEn : Bool) (pin : BitVec 7)
  | trust (t : Fin 16) (tmin tmax : BitVec 8)
  | coef (words : List (BitVec 32)) (zero : Bool)
  deriving DecidableEq, Repr

/-- The commands. (DEDUCED, log 240; DESIGN CHOICE, log 44) -/
inductive Instr where

   /-- REG_WRITE (R7): A write to a register that has no row of its own: RW fields are set, RO and RH fields ignore
  it, W1C bits clear their flags, and RWL fields are frozen after SC_LOCK. -/
  | regWrite (m : Master) (a : BitVec 32) (v : WordWrite)
   /-- POWER_ON_RESET_RELEASE (R391): Once all supplies and RESET_N have held for 2 ms, power-on reset releases and
  the device enters BOOT and runs the boot ROM steps. -/
  | powerOnResetRelease (vcore : BitVec 16) (vio : BitVec 16) (vaux : BitVec 16) (release : Release)
   /-- BROWN_OUT (R391): VCORE or VAUX falls below its brown-out level for 1 µs, which acts as a hard reset and holds
  the device in power-on reset. -/
  | brownOut (sag : Sag)
   /-- RESET_N_FALL (R31): A RESET_N low that passes the glitch filter forces every downlink to both-off within 100
  ns and holds the device in reset. -/
  | resetNFall
  /-- RESET_N_RELEASE (R31): RESET_N rises after a low that acted, and the device enters BOOT. -/
  | resetNRelease (vcore : BitVec 16) (vio : BitVec 16) (vaux : BitVec 16)
   /-- WAKE (R393): WAKE is high for 10 µs in DORMANT, so the device restores its domains and starts a cold power-on
  reset. -/
  | wake
   /-- BOOT_COMPLETE (R392): All folios are verified and memories initialised, so the Foreman starts and the device
  enters STANDBY. -/
  | bootComplete
   /-- JTAG_FACTORY_REQUEST (R32): JTAG requests FACTORY, which is entered from BOOT or STANDBY while the factory
  fuse is unblown and is refused otherwise. -/
  | jtagFactoryRequest
   /-- REFCLK_LOSS (R24): REFCLK is declared lost, so the time base switches to holdover, records TB event 1 and sets
  HOLDOVER. -/
  | refclkLoss
   /-- REFCLK_RESTORED (R24): REFCLK has met its requirements for 100 µs, so the DLL relocks, the delay lines are
  recalibrated and the tick returns to REFCLK. -/
  | refclkRestored
  /-- HOURS_COMMIT (R19): Every 3,600 units of operating hours, the Foreman commits the lifetime counts to NVM. -/
  | hoursCommit
   /-- TB_QTICK_WRITE (R20): A write to TB_QTICK requests a new control tick period, which is refused while an
  enabled rail uses the quire. -/
  | tbQtickWrite (m : Master) (q : Fin 16) (v : BitVec 32)
   /-- QTICK_PERIOD_APPLY (R20): A requested tick period takes effect at the next multiple of 128 ns after the write.
  -/
  | qtickPeriodApply (q : Fin 16)
   /-- CONTROL_TICK (R56): At each control tick, the loop units run the ordered steps for each rail: ramp, setpoint,
  compensator, demand, phase count, distribution, per-phase law and staging. -/
  | controlTick (q : Fin 16)
  /-- PG_RISE (R48): |Vout − Vset| has stayed within WIN for DLY µs, so PG becomes 1. -/
  | pgRise (r : Fin 32)
   /-- PG_FALL (R48): At the eighth consecutive tick outside WIN, PG becomes 0, with a U-class fault if the rail is
  in ON. -/
  | pgFall (r : Fin 32)
  /-- PHASE_DROP (R61): The drop condition has held for DWELL ticks, so the active count falls by one. -/
  | phaseDrop (r : Fin 32)
   /-- ROTATION_TICK (R62): At the wear rotation interval, the lowest-scoring inactive member is swapped in for the
  highest-scoring active member. -/
  | rotationTick (r : Fin 32)
  /-- WEAR_INCREMENT (R62): After 1,024 active ticks, a member's wear count increases by one. -/
  | wearIncrement (r : Fin 32) (j : Fin 64)
   /-- ENGINE_DEADLINE_EXPIRY (R67): The deadline instant of index k passes with no accepted correction, so the
  hardware value is used and a miss is counted. -/
  | engineDeadlineExpiry (r : Fin 32)
   /-- EIL_FALLBACK (R68): After RUN consecutive misses, engine-in-loop mode ends and FALLBACK is set with a U-class
  fault. -/
  | eilFallback (r : Fin 32)
  /-- LU_LMB_TAG (R66): An engine submits LU_LMB_CORR as the correction for the written index. -/
  | luLmbTag (m : Master) (r : Fin 32) (v : BitVec 32)
  /-- LU_LMB_NOP (R66): An engine submits 'no correction' for the written index. -/
  | luLmbNop (m : Master) (r : Fin 32) (v : BitVec 32)
  /-- COEF_SWAP (R55): A write of LU_CSEL.SWAP requests a coefficient bank swap, optionally with zeroed states. -/
  | coefSwap (m : Master) (r : Fin 32) (v : BitVec 32)
  /-- COEF_SWAP_APPLY (R55): The pending bank swap applies at the next tick, and LU_CSIDX records that tick. -/
  | coefSwapApply (r : Fin 32)
  /-- RT_COMMIT (R44): The rail table checks and accepts or refuses a COMMIT of a rail's configuration. -/
  | rtCommit (m : Master) (r : Fin 32)
  /-- RT_ENABLE (R44): The rail table checks and accepts or refuses an ENABLE of a rail. -/
  | rtEnable (m : Master) (r : Fin 32)
  /-- RT_DISABLE (R44): The rail table checks and accepts a DISABLE, which starts SOFTSTOP at the applying index. -/
  | rtDisable (m : Master) (r : Fin 32)
  /-- RT_CLEAR (R44): CLEAR of a LATCHED rail returns it to OFF and clears its member channel latches. -/
  | rtClear (m : Master) (r : Fin 32)
  /-- RT_CLRCNT (R73): CLRCNT zeroes RT_MISS, RT_OPPOSE and RT_ILIMCNT of the rail. -/
  | rtClrcnt (m : Master) (r : Fin 32)
   /-- SUPPLY_MONITOR_CMD_TAKEN (R43): A waiting supply-monitor ENABLE or DISABLE is taken as soon as RT_CMDSTAT.BUSY
  clears. -/
  | supplyMonitorCmdTaken
   /-- RAIL_ENTRY_APPLY (R45): At the applying index, every quire of the span computes with the new entry; RT_APPLIED
  is written and BUSY clears. -/
  | railEntryApply (r : Fin 32)
  /-- BURST_SW_FIRE (R76): A write of LU_BURST_SW.FIRE requests a burst for the rail slot. -/
  | burstSwFire (m : Master) (r : Fin 32) (v : BitVec 32)
  /-- BURST_START (R79): At t_b, every burst-set member ends its period, takes the burst pulse and begins its walk. -/
  | burstStart (r : Fin 32)
  /-- BURST_HOLDOFF_END (R81): The burst holdoff expires, so later assertions can fire a new burst. -/
  | burstHoldoffEnd (r : Fin 32)
  /-- HINT_DELIVERY (R83): A good Varip hint reaches the intent mixer, which accepts it into a lane or discards it. -/
  | hintDelivery (v : Fin 16)
   /-- OUTCOME_RECORD (R89): At k_step + 8·OBS, the mixer writes the outcome records of the uncut hints and judges
  them WRONG or not. -/
  | outcomeRecord (r : Fin 32)
  /-- IM_TRUST_WRITE (R90): Firmware writes TRUST, which is clamped to TMIN–TMAX with HELD updated. -/
  | imTrustWrite (m : Master) (r : Fin 32) (t : Fin 16) (v : BitVec 32)
   /-- IM_PART_WRITE (R90): Policy writes a partner entry's bounds or VALID; new bounds clamp TRUST, TMIN > TMAX is
  refused, and VALID = 0 cuts the entry's lanes. -/
  | imPartWrite (m : Master) (r : Fin 32) (t : Fin 16) (v : BitVec 32)
  /-- IM_CTRL_WRITE (R87): A write to LU_IM_CTRL sets mixer settings, and EN = 0 cuts every lane. -/
  | imCtrlWrite (m : Master) (r : Fin 32) (v : BitVec 32)
  /-- IM_CLRCNT (R95): LU_IM_CLRCNT.IM zeroes LU_IM_CNT and LU_IM_OPPOSE. -/
  | imClrcnt (m : Master) (r : Fin 32)
  /-- BURST_CLRCNT (R95): LU_IM_CLRCNT.BURST zeroes LU_BURST_CNT and SUPP. -/
  | burstClrcnt (m : Master) (r : Fin 32)
   /-- LOADALL (R103): PW_LOADALL copies the staged values of the named channels into their load buffers, with the
  torn-load check. -/
  | loadall (m : Master) (q : Fin 16) (mask : BitVec 16)
   /-- IMMEDIATE_LOAD (R107): PW_LOADALL with IMM makes the load immediate and truncates the present period if
  needed. -/
  | immediateLoad (m : Master) (q : Fin 16) (mask : BitVec 16)
  /-- PER_STG_WRITE (R103): A write to PW_PER_STG stages a period and sets STGMASK.PER. -/
  | perStgWrite (m : Master) (n : Fin 256) (v : BitVec 32)
  /-- ON_STG_WRITE (R103): A write to PW_ON_STG stages an on-time and sets STGMASK.ON. -/
  | onStgWrite (m : Master) (n : Fin 256) (v : BitVec 32)
  /-- OFS_STG_WRITE (R103): A write to PW_OFS_STG stages an offset and sets STGMASK.OFS. -/
  | ofsStgWrite (m : Master) (n : Fin 256) (v : BitVec 32)
  /-- MODE_WRITE (R96): A write of PW_CFG.MODE starts, stops or changes how the channel drives its downlink. -/
  | modeWrite (m : Master) (n : Fin 256) (v : BitVec 32)
   /-- CHANNEL_FIRST_PERIOD (R100): A channel that starts switching begins its first period at the first lattice
  point 2 ns after the mode write or load. -/
  | channelFirstPeriod (n : Fin 256)
   /-- PWM_RELOAD (R98): The period count reaches zero, so the next period starts from the load buffer, with lattice
  length, pulse decisions, dead-time update, swaps and clears. -/
  | pwmReload (n : Fin 256)
   /-- GUARD_ON_EDGE (R108): An on-edge held by the shoot-through guard reaches the pins once DT has passed since the
  opposite off-edge. -/
  | guardOnEdge (n : Fin 256)
  /-- TLREF_COMMIT (R99): A write of PW_TLREF_LO commits the quire's software timeline reference. -/
  | tlrefCommit (m : Master) (q : Fin 16) (v : BitVec 32)
   /-- DTA_WRITE (R111): A write to PW_DTA sets the dead-time adaptation enable and bounds; DTMIN > DTMAX is refused
  with BADBND. -/
  | dtaWrite (m : Master) (n : Fin 256) (v : BitVec 32)
   /-- TRIP_ASSERT (R116): An enabled trip source asserts, so the latch sets and the channel is forced off or to
  LS-on at once. -/
  | tripAssert (n : Fin 256)
  /-- TRIP_CLEAR (R118): PW_TCLR.CLR clears the trip latch unless an enabled source asserts. -/
  | tripClear (m : Master) (n : Fin 256)
  /-- LOFF_CLEAR (R119): PW_TCLR.LOFF clears the latch-off, the latch and RCNT while no enabled source asserts. -/
  | loffClear (m : Master) (n : Fin 256)
  /-- RCNT_QUIET_RESET (R119): After QUIET × 64 quiet periods, RCNT returns to 0. -/
  | rcntQuietReset (n : Fin 256)
   /-- CAL_MAP_COMPLETE (R112): The calibrator finishes a shadow line's tap map, which is then ready to swap, or
  fails calibration. -/
  | calMapComplete (n : Fin 256) (g : Fin 2) (ok : Bool) (resid : BitVec 8)
  /-- DTOPP_CLEAR (R122): A write to PW_DTOPP clears the dead-time opposition counter. -/
  | dtoppClear (m : Master) (n : Fin 256)
  /-- TCNT_CLEAR (R122): A write to PW_TCNT clears the trip latch count. -/
  | tcntClear (m : Master) (n : Fin 256)
  /-- SEQ_COMMIT (R127): AD_SEQCMT.COMMIT checks the staged sequence tables and accepts or refuses them. -/
  | seqCommit (m : Master) (q : Fin 16)
  /-- SEQ_TABLE_ACTIVATE (R127): The committed tables become active at the first tick instant at least 64 ns later. -/
  | seqTableActivate (q : Fin 16)
  /-- FCFG_WRITE (R133): A write to AD_FCFG configures a filter unit and restarts it, or is refused. -/
  | fcfgWrite (m : Master) (q : Fin 16) (c : Fin 2) (f : Fin 4) (v : BitVec 32)
  /-- FILTER_SETTLE (R133): After N×D+M+3 stream samples, a restarted filter unit sets VALID = 1. -/
  | filterSettle (q : Fin 16) (c : Fin 2) (f : Fin 4)
  /-- SLICE_ESTIMATE_COMPLETE (R129): A block of 2^20 samples ends with a new set of slice estimates. -/
  | sliceEstimateComplete (q : Fin 16) (c : Fin 2) (e0 : SliceEst) (e1 : SliceEst) (e2 : SliceEst) (e3 : SliceEst)
   /-- SLICE_ESTIMATE_APPLY (R129): The new estimates apply at the first tick instant 1 µs after their block, and
  out-of-limit slices retire. -/
  | sliceEstimateApply (q : Fin 16) (c : Fin 2)
  /-- AD_SRET_WRITE (R130): A write to AD_SRET requests retirement of slices at the next tick instant. -/
  | adSretWrite (m : Master) (q : Fin 16) (c : Fin 2) (v : BitVec 32)
  /-- SLICE_RETIRE (R130): A slice retires, fewer positions are converted, and a U-class fault is recorded. -/
  | sliceRetire (q : Fin 16) (c : Fin 2)
  /-- CROSS_CHECK (R131): In a check cycle, both converters sample the check input and their results are compared. -/
  | crossCheck (q : Fin 16)
  /-- HOLDS_CLEAR (R144): A write to AD_HOLDS clears the repeat count. -/
  | holdsClear (m : Master) (q : Fin 16) (c : Fin 2)
   /-- WC_CFG_WRITE (R136): A write to WC_CFG enables, disables or reconfigures a comparator; invalid inputs are
  refused and EN = 0 clears the latches. -/
  | wcCfgWrite (m : Master) (q : Fin 16) (c : Fin 8) (v : BitVec 32)
   /-- WC_THRESHOLD_CROSS (R139): A comparator decision raises a side's raw state, which sets its latch and drives
  its trip output. -/
  | wcThresholdCross (q : Fin 16) (c : Fin 8) (x : BitVec 32)
  /-- WC_CLEAR_LO (R139): WC_CLR.LO clears the lower latch if its raw state is 0, and sets CLRREF otherwise. -/
  | wcClearLo (m : Master) (q : Fin 16) (c : Fin 8)
  /-- WC_CLEAR_HI (R139): WC_CLR.HI clears the upper latch if its raw state is 0, and sets CLRREF otherwise. -/
  | wcClearHi (m : Master) (q : Fin 16) (c : Fin 8)
  /-- WC_STUCK (R141): A raw state held at 1 for 2^(STK+9) ticks sets STUCK and records a U-class fault. -/
  | wcStuck (q : Fin 16) (c : Fin 8) (upper : Bool)
  /-- WC_IMPL (R141): PCNT consecutive disagreeing ticks set IMPL and record a U-class fault. -/
  | wcImpl (q : Fin 16) (c : Fin 8)
  /-- WC_BOUND_WRITE (R140): A write to the tracking bounds is taken, or ignored with BADBND when MIN > MAX. -/
  | wcBoundWrite (m : Master) (q : Fin 16) (c : Fin 8) (upper : Bool) (v : BitVec 32)
  /-- WC_TOPP_CLEAR (R145): A write to WC_TOPP clears the threshold opposition counter. -/
  | wcToppClear (m : Master) (q : Fin 16) (c : Fin 8)
  /-- WC_CNT_CLEAR (R145): A write to WC_CNT clears both latch-set counts. -/
  | wcCntClear (m : Master) (q : Fin 16) (c : Fin 8)
  /-- OCPSTAT_CLEAR (R145): A write to WC_OCPSTAT clears PEAK. -/
  | ocpstatClear (m : Master) (n : Fin 256)
  /-- OCPCNT_CLEAR (R145): A write to WC_OCPCNT clears the assertion count. -/
  | ocpcntClear (m : Master) (n : Fin 256)
   /-- UPLINK_FRAME (R154): An uplink frame is received, judged good or lost, and its sample, status or measurement
  is taken and tagged. -/
  | uplinkFrame (n : Fin 256) (w : BitVec 40)
   /-- UPLINK_DEADLINE (R156): The uplink deadline of index k passes with no good sample, so an extrapolated sample
  is supplied and a miss or slip is counted. -/
  | uplinkDeadline (n : Fin 256)
  /-- RESYNC_SUCCESS (R159): A resynchronisation attempt sees 32 good frames after a comma, so RSY clears. -/
  | resyncSuccess (n : Fin 256)
   /-- RESYNC_ATTEMPT_FAIL (R159): An attempt fails after two superframes; ULRST is written, or after RSMAX attempts
  the port is FAULTED. -/
  | resyncAttemptFail (n : Fin 256)
  /-- RESYNC_RETRY_START (R159): 1 ms after a ULRST, the next resynchronisation attempt starts. -/
  | resyncRetryStart (n : Fin 256)
   /-- PORT_VACATED (R168): A FAULTED port whose stage is gone is vacated once its trip latches clear, and it returns
  to IDENT. -/
  | portVacated (n : Fin 256)
  /-- ISOLATE (R168): PP_CMD ISOLATE puts the port in ISOLATED and writes PTEN = 0 to its stage. -/
  | isolate (m : Master) (n : Fin 256)
  /-- UNISOLATE (R165): PP_CMD UNISOLATE returns an ISOLATED port to IDENT. -/
  | unisolate (m : Master) (n : Fin 256)
  /-- RESYNC (R159): PP_CMD RESYNC starts a fresh set of resynchronisation attempts. -/
  | resync (m : Master) (n : Fin 256)
  /-- REBIND (R171): PP_CMD REBIND clears BOUND and puts the port in IDENT. -/
  | rebind (m : Master) (n : Fin 256)
  /-- PP_COUNTER_CLEAR (R171): A write to PP_ERR, PP_LOSS or PP_MISS clears that register. -/
  | ppCounterClear (m : Master) (n : Fin 256) (k : Fin 3)
  /-- HOT_JOIN (R167): A stage's Hot-Join starts ENTDAA, the binding round and the binding steps. ENTDAA brings the
  stage's provisioned ID, BCR and DCR, to which R160 gives no effect here. -/
  | hotJoin (q : Fin 16) (pid : BitVec 48) (bcr : BitVec 8) (dcr : BitVec 8)
  /-- BINDING_ROUND (R167): Every 10 ms while ports are in IDENT and stages unbound, a new identify round is run. -/
  | bindingRound (q : Fin 16) (reports : List StageReport)
   /-- STAGE_BIND_COMPLETE (R167): A status frame with PTEN = 1 completes the binding; BOUND is set and the port
  enters IDLE or SHED. -/
  | stageBindComplete (n : Fin 256)
  /-- BIND_ALIGN_TIMEOUT (R167): Step 7 fails to align within 4 ms, so the port enters FAULTED. -/
  | bindAlignTimeout (n : Fin 256)
  /-- STAGE_IBI (R162): A stage in-band interrupt is queued in SB_IBIQ and updates the management view. -/
  | stageIbi (q : Fin 16) (temp : Bool) (a : Fin 16) (cause : BitVec 8)
  /-- SB_XFER_READ (R172): SB_XCMD OP 1 starts a stage register read. -/
  | sbXferRead (m : Master) (q : Fin 16) (v : BitVec 32)
  /-- SB_XFER_WRITE (R172): SB_XCMD OP 2 starts a stage register write. -/
  | sbXferWrite (m : Master) (q : Fin 16) (v : BitVec 32)
  /-- SB_XFER_COMPLETE (R160): A stage-bus transfer completes, after retries, with its result. -/
  | sbXferComplete (q : Fin 16) (own : Bool) (ok : Bool) (retries : Fin 16) (d0 : BitVec 16) (d1 : BitVec 16)
    (d2 : BitVec 16) (d3 : BitVec 16)
  /-- SB_IBIQ_READ (R172): A read of SB_IBIQ returning VALID removes the oldest IBI entry. -/
  | sbIbiqRead (m : Master) (q : Fin 16)
  /-- SB_IBICNT_CLEAR (R172): A write to SB_IBICNT clears both IBI counts. -/
  | sbIbicntClear (m : Master) (q : Fin 16)
  /-- VARIP_CYCLE (R174): A Varip cycle starts and the beacon is sent, with its grant or revoke. -/
  | varipCycle (v : Fin 16)
   /-- HINT_SLOT (R180): A partner's 40-bit slot is classed empty, bad, refused or good, and a good hint is
  delivered. -/
  | hintSlot (v : Fin 16) (i : Fin 8) (w : BitVec 40)
  /-- JOIN_WORD (R182): A join word is received, and a good one is granted two cycles later. -/
  | joinWord (v : Fin 16) (w : BitVec 16)
  /-- VB_REOPEN (R181): VB_CMD REOPEN makes a CLOSED slot FREE. -/
  | vbReopen (m : Master) (v : Fin 16) (i : Fin 8)
  /-- VB_EVICT (R181): VB_CMD EVICT revokes a MEMBER or GRANTED slot and makes it CLOSED. -/
  | vbEvict (m : Master) (v : Fin 16) (i : Fin 8)
   /-- VB_CFG_WRITE (R181): A write to VB_CFG enables beacons, closes slots on EN = 0, disables slots by SLOTEN, and
  ignores PHASE while enabled. -/
  | vbCfgWrite (m : Master) (p : Fin 16) (v : BitVec 32)
  /-- VB_COUNTER_CLEAR (R186): A write to VB_ERR, VB_JCNT or VB_HINTS clears that register. -/
  | vbCounterClear (m : Master) (v : Fin 16) (k : Fin 3)
  /-- NOP (R207): No operation. -/
  | nop (e : Fin 128)
  /-- MOV (R207): d ← s. -/
  | mov (e : Fin 128)
  /-- NEG (R198): d ← −s, saturating. -/
  | neg (e : Fin 128)
  /-- ABS (R198): d ← |s|, saturating. -/
  | abs (e : Fin 128)
  /-- NOT (R207): d ← ~s. -/
  | not (e : Fin 128)
  /-- ADD (R198): Wrapping addition. -/
  | add (e : Fin 128)
  /-- ADDS (R198): Saturating addition. -/
  | adds (e : Fin 128)
  /-- SUB (R198): Wrapping subtraction. -/
  | sub (e : Fin 128)
  /-- SUBS (R198): Saturating subtraction. -/
  | subs (e : Fin 128)
  /-- AND (R207): Bitwise AND. -/
  | and (e : Fin 128)
  /-- OR (R207): Bitwise OR. -/
  | or (e : Fin 128)
  /-- XOR (R207): Bitwise XOR. -/
  | xor (e : Fin 128)
  /-- ANDN (R207): d ← d & ~s. -/
  | andn (e : Fin 128)
  /-- SHL (R198): Logical shift left. -/
  | shl (e : Fin 128)
  /-- SHR (R198): Logical shift right. -/
  | shr (e : Fin 128)
  /-- SAR (R198): Arithmetic shift right. -/
  | sar (e : Fin 128)
  /-- SHLS (R198): Saturating shift left. -/
  | shls (e : Fin 128)
  /-- ROR (R198): Rotate right by count modulo 32. -/
  | ror (e : Fin 128)
  /-- MIN (R207): Signed minimum. -/
  | min (e : Fin 128)
  /-- MAX (R207): Signed maximum. -/
  | max (e : Fin 128)
  /-- MINU (R207): Unsigned minimum. -/
  | minu (e : Fin 128)
  /-- MAXU (R207): Unsigned maximum. -/
  | maxu (e : Fin 128)
  /-- SLT (R208): d ← 1 if a < b signed, else 0. -/
  | slt (e : Fin 128)
  /-- SLTU (R208): d ← 1 if a < b unsigned, else 0. -/
  | sltu (e : Fin 128)
  /-- MULLO (R200): Low 32 bits of the signed product. -/
  | mullo (e : Fin 128)
  /-- CMP (R196): Sets the condition flags from d − s. -/
  | cmp (e : Fin 128)
  /-- TST (R196): Sets N and Z from d & s. -/
  | tst (e : Fin 128)
  /-- ADDI (R198): Add an immediate. -/
  | addi (e : Fin 128)
  /-- ANDI (R208): AND with an immediate. -/
  | andi (e : Fin 128)
  /-- ORI (R208): OR with an immediate. -/
  | ori (e : Fin 128)
  /-- XORI (R208): XOR with an immediate. -/
  | xori (e : Fin 128)
  /-- MOVI (R207): d ← imm6. -/
  | movi (e : Fin 128)
  /-- SHLI (R207): Shift left by an immediate. -/
  | shli (e : Fin 128)
  /-- SHRI (R207): Logical shift right by an immediate. -/
  | shri (e : Fin 128)
  /-- SARI (R207): Arithmetic shift right by an immediate. -/
  | sari (e : Fin 128)
  /-- CMPI (R196): Sets the condition flags from d − imm. -/
  | cmpi (e : Fin 128)
  /-- MOVL (R208): d ← imm21. -/
  | movl (e : Fin 128)
  /-- MOVH (R208): Sets the upper half of d. -/
  | movh (e : Fin 128)
  /-- SATS (R198): Clamps a to a signed n-bit range. -/
  | sats (e : Fin 128)
  /-- LDW (R207): Load a word. -/
  | ldw (e : Fin 128) (u : Upset)
  /-- LDH (R208): Load a sign-extended halfword. -/
  | ldh (e : Fin 128) (u : Upset)
  /-- LDHU (R208): Load a zero-extended halfword. -/
  | ldhu (e : Fin 128) (u : Upset)
  /-- LDB (R208): Load a sign-extended byte. -/
  | ldb (e : Fin 128) (u : Upset)
  /-- LDBU (R208): Load a zero-extended byte. -/
  | ldbu (e : Fin 128) (u : Upset)
  /-- STW (R207): Store a word. -/
  | stw (x : Storing)
  /-- STH (R208): Store a halfword. -/
  | sth (x : Storing)
  /-- STB (R208): Store a byte. -/
  | stb (x : Storing)
  /-- MUL (R200): PAx ← exact signed product. -/
  | mul (e : Fin 128)
  /-- MAC (R200): PAx ← PAx + signed product. -/
  | mac (e : Fin 128)
  /-- MSU (R200): PAx ← PAx − signed product. -/
  | msu (e : Fin 128)
  /-- MULU (R200): PAx ← unsigned product. -/
  | mulu (e : Fin 128)
  /-- MACU (R200): PAx ← PAx + unsigned product. -/
  | macu (e : Fin 128)
  /-- MFP (R201): Moves a shifted, rounded and saturated accumulator value to a register. -/
  | mfp (e : Fin 128)
  /-- MTP (R200): Loads an accumulator from a register, or clears it. -/
  | mtp (e : Fin 128)
  /-- DIVS (R199): Signed divide, in the long-operation unit. -/
  | divs (e : Fin 128)
  /-- DIVU (R199): Unsigned divide. -/
  | divu (e : Fin 128)
  /-- DIVQ (R199): Fractional divide. -/
  | divq (e : Fin 128)
  /-- REMS (R199): Signed remainder. -/
  | rems (e : Fin 128)
  /-- REMU (R199): Unsigned remainder. -/
  | remu (e : Fin 128)
  /-- SQRTU (R199): Unsigned integer square root. -/
  | sqrtu (e : Fin 128)
  /-- SQRTQ (R199): Q1.31 square root. -/
  | sqrtq (e : Fin 128)
  /-- LONG_OP_COMPLETE (R203): A divide or square root finishes and writes its result. -/
  | longOpComplete (e : Fin 128)
  /-- LOAD_DATA_RETURN (R202): The data of a load outside the engine's own memories returns and is written. -/
  | loadDataReturn (e : Fin 128)
  /-- STORE_ACK (R14): A spine write is acknowledged, which completes the store for its master. -/
  | storeAck (e : Fin 128)
  /-- B (R197): Branch if the condition holds. -/
  | b (e : Fin 128)
  /-- CALL (R208): Call with link in g15. -/
  | call (e : Fin 128)
  /-- CALLW (R193): Call with the register window advanced. -/
  | callw (e : Fin 128)
  /-- JR (R208): Jump to a register. -/
  | jr (e : Fin 128)
  /-- CALLR (R208): Call through a register. -/
  | callr (e : Fin 128)
  /-- RET (R208): Return to g15. -/
  | ret (e : Fin 128)
  /-- RETW (R193): Return with the register window moved back. -/
  | retw (e : Fin 128)
  /-- REP (R205): Repeats the next bundle n times with no interrupt. -/
  | rep (e : Fin 128)
  /-- REPI (R205): Repeats the next bundle n times, with interrupts allowed between repetitions. -/
  | repi (e : Fin 128)
  /-- MFS (R195): Reads a special register. -/
  | mfs (e : Fin 128)
  /-- MTS (R195): Writes a special register. -/
  | mts (e : Fin 128)
  /-- FENCE (R203): Stalls until every earlier load and store has completed. -/
  | fence (e : Fin 128)
  /-- FLUSH_I (R215): Writes pending code stores to instruction memory and refetches. -/
  | flushI (e : Fin 128)
  /-- WAIT (R236): Idles the engine until an enabled interrupt line pends. -/
  | wait (e : Fin 128)
  /-- WAIT_WAKE (R236): An enabled line pends, so the waiting engine resumes or takes the interrupt. -/
  | waitWake (e : Fin 128)
  /-- HALT (R241): Stops the engine and discards its code-write buffer. -/
  | halt (e : Fin 128)
  /-- TRAP (R208): Raises exception 16 + n. -/
  | trap (e : Fin 128)
  /-- RETX (R229): Returns from an exception by restoring the checked frame or the shadow. -/
  | retx (e : Fin 128)
  /-- SWITCH (R241): Makes task bank k current. -/
  | switch (e : Fin 128)
  /-- SAVECTX (R239): Saves the dirty context groups to an area. -/
  | savectx (e : Fin 128)
  /-- LOADCTX (R239): Loads the dirty context groups from an area. -/
  | loadctx (e : Fin 128)
   /-- INTERRUPT_TAKEN (R228): A recognised pending line is taken at the next bundle boundary, by fast or non-fast
  entry. -/
  | interruptTaken (e : Fin 128)
   /-- BD_RGN_WRITE (R221): A permitted write to a protection region takes effect for the next bundle after
  completion. -/
  | bdRgnWrite (m : Master) (e : Fin 128) (r : Fin 16) (w : Fin 2) (v : BitVec 32)
  /-- BD_ECTL_WRITE (R236): A write to BD_ECTL sets the interrupt level when the store completes. -/
  | bdEctlWrite (m : Master) (e : Fin 128) (v : BitVec 32)
  /-- BD_SIG_WRITE (R235): A write to BD_SIG sets a signalling interrupt line in the target engine. -/
  | bdSigWrite (m : Master) (e : Fin 128) (v : BitVec 32)
  /-- FORM (R265): BD_CMD FORM starts a binding or makes it a spare. -/
  | form (m : Master) (q : Fin 16) (b : Fin 8)
  /-- SPLIT (R266): BD_CMD SPLIT requests release of the last member at the next commit boundary. -/
  | split (m : Master) (q : Fin 16) (b : Fin 8)
  /-- JOIN (R267): BD_CMD JOIN adds a halted engine to a binding by state copy. -/
  | join (m : Master) (q : Fin 16) (b : Fin 8) (i : Fin 8)
  /-- HANDOVER (R269): BD_CMD HANDOVER hands a live binding's outputs to its shadow at commit boundaries. -/
  | handover (m : Master) (q : Fin 16) (b : Fin 8) (arg : Fin 8)
  /-- RELEASE (R265): BD_CMD RELEASE halts a binding's members at the next commit boundary and frees the slot. -/
  | release (m : Master) (q : Fin 16) (b : Fin 8)
  /-- BD_CLRCNT (R274): BD_CMD CLRCNT zeroes the slot's BD_BCNT. -/
  | bdClrcnt (m : Master) (q : Fin 16) (b : Fin 8)
   /-- COMMIT_BOUNDARY (R263): A binding reaches a commit boundary, and pending SPLIT, RELEASE, HANDOVER, copy,
  shedding or BINDEV actions take place. -/
  | commitBoundary (q : Fin 16) (b : Fin 6)
   /-- RECORD_COMPARE (R253): The binding controller compares the members' commit records for a bundle and commits or
  handles a mismatch. -/
  | recordCompare (q : Fin 16) (b : Fin 6) (d0 : Bool) (d1 : Bool) (d2 : Bool) (kind : Comparing)
   /-- STATE_COPY_PASS1_DONE (R259): Pass 1 of a state copy completes, and pass 2 waits for the next commit boundary.
  -/
  | stateCopyPass1Done (q : Fin 16) (b : Fin 6)
  /-- CHECKER_ALARM (R261): A checker unit alarms, so the binding moves to a free unit or runs unchecked. -/
  | checkerAlarm (q : Fin 16) (u : Fin 6)
  /-- REPLAY_PARITY_ERROR (R261): A replay-log or FIFO entry has a parity error, so the binding moves or goes OUT. -/
  | replayParityError (q : Fin 16) (b : Fin 6) (both : Bool)
  /-- CHECKER_UNIT_FREED (R262): A checker unit becomes free, so an unchecked binding is re-formed by JOIN. -/
  | checkerUnitFreed (q : Fin 16) (b : Fin 6)
  /-- BD_EVQ_READ (R274): A read of BD_EVQ returning VALID removes the oldest binding event. -/
  | bdEvqRead (m : Master) (q : Fin 16)
   /-- BD_CFG_WRITE (R244): A write to BD_CFG sets pair or triad configuration and spare reservation, or is ignored
  with WREF. -/
  | bdCfgWrite (m : Master) (q : Fin 16) (v : BitVec 32)
   /-- TIMER_ZERO (R276): The counter reaches zero, so the ZERO event occurs and a periodic timer reloads at the next
  source tick. -/
  | timerZero (q : Fin 16) (m : Fin 8)
   /-- TIMER_COMPARE (R277): The counter equals the live compare, so the CMP event occurs and the compare steps by
  INT. -/
  | timerCompare (q : Fin 16) (m : Fin 8)
  /-- TM_LOAD (R276): TM_CMD.LOAD sets the counter to RLD at the next source tick. -/
  | tmLoad (m : Master) (q : Fin 16) (t : Fin 8)
  /-- TM_CAPTURE (R278): TM_CMD.CAPTURE enqueues a software capture. -/
  | tmCapture (m : Master) (q : Fin 16) (t : Fin 8)
   /-- TM_CAPPOP_READ (R278): A read of TM_CAPPOP removes the oldest capture into the holding registers and clears
  DROP. -/
  | tmCappopRead (m : Master) (q : Fin 16) (t : Fin 8)
  /-- TM_CMPSET_COMMIT (R277): A write of TM_CMPSET_LO commits both words as the new live compare. -/
  | tmCmpsetCommit (m : Master) (q : Fin 16) (t : Fin 8) (v : BitVec 32)
  /-- TM_RLD_COMMIT (R279): A write of TM_RLD_LO commits both reload words. -/
  | tmRldCommit (m : Master) (q : Fin 16) (t : Fin 8) (v : BitVec 32)
  /-- EVT_PIN_TRANSITION (R282): An EVT pin transition is synchronised and passed to the resolver, or merged. -/
  | evtPinTransition (q : Fin 16) (x : Fin 32) (level : Bool)
   /-- EVT_RESOLVE_WINDOW_END (R282): At the end of the 4-tick resolver window, R takes a differing synchronised
  level. -/
  | evtResolveWindowEnd (q : Fin 16) (x : Fin 32)
  /-- EVT_ACCEPTED_EDGE (R282): R has held for MINPW ticks, so the filtered level changes. -/
  | evtAcceptedEdge (q : Fin 16) (x : Fin 32)
  /-- EVT_STUCK (R283): F has been held for 2^(STK+10) ns, so STUCK is set with a C-class event. -/
  | evtStuck (q : Fin 16) (x : Fin 32)
  /-- EVT_OUTPUT_CHANGE (R284): 4 ns after a timer event, a driven EVT pin pulses or toggles. -/
  | evtOutputChange (q : Fin 16) (o : Fin 2)
  /-- EVT_PULSE_END (R284): An EVT output pulse ends after WIDTH ns. -/
  | evtPulseEnd (q : Fin 16) (o : Fin 2)
  /-- EVTCNT_CLEAR (R294): A write to TM_EVTCNT clears the merge and reject counts. -/
  | evtcntClear (m : Master) (q : Fin 16) (x : Fin 32)
  /-- RECORDER_SAMPLE (R286): A recorder channel takes a sample and updates its histogram, extremes and excursions. -/
  | recorderSample (c : Fin 128) (t : BitVec 32)
  /-- ER_COMMIT (R291): ER_CMD COMMIT starts a commit of the recorder to NVM. -/
  | erCommit (m : Master)
  /-- ER_HCLR (R295): ER_CMD HCLR zeroes the histograms. -/
  | erHclr (m : Master)
  /-- ER_XTCLR (R288): ER_CMD XTCLR resets the extremes. -/
  | erXtclr (m : Master)
  /-- ER_LCLR (R295): ER_CMD LCLR sets NEXT to 0. -/
  | erLclr (m : Master)
  /-- ER_CLRCNT (R295): ER_CMD CLRCNT zeroes XDROP and ER_FRZMISS. -/
  | erClrcnt (m : Master)
   /-- RECORDER_AUTO_COMMIT (R291): Every CINT × 10 min, a recorder commit falls due, or is deferred at shed level 3.
  -/
  | recorderAutoCommit
  /-- RECORDER_COMMIT_DONE (R291): A recorder set is completed in NVM, and recording unfreezes. -/
  | recorderCommitDone
  /-- SCRUB_READ (R302): The scrubber reads the next word of a marked granule. -/
  | scrubRead (u : Upset)
  /-- MR_RETIRE (R304): MR_CMD RETIRE remaps a page to a spare page. -/
  | mrRetire (m : Master) (k : BitVec 8) (u : BitVec 10)
  /-- MR_ROWADD (R305): MR_CMD ROWADD queues a soft spare-row entry. -/
  | mrRowadd (m : Master) (k : BitVec 8) (u : BitVec 10)
  /-- MR_BRST (R306): MR_CMD BRST resets a bank, migrating it or discarding its contents. -/
  | mrBrst (m : Master) (k : BitVec 8) (mig : Bool)
  /-- PAGE_RETIRE_DONE (R304): The page copy completes, the mapping switches and accesses are released. -/
  | pageRetireDone
  /-- BANK_RESET_DONE (R306): A bank reset or migration completes and the bank is released. -/
  | bankResetDone
  /-- MR_ELOG_READ (R303): A read of MR_ELOG returning VALID removes the oldest error log entry. -/
  | mrElogRead (m : Master)
  /-- NV_APPEND (R310): NV_CMD APPEND programs codewords into a logical sector. -/
  | nvAppend (m : Master) (sect : BitVec 11)
  /-- NV_SECTOR (R310): NV_CMD SECTOR writes a fresh physical sector and remaps the logical sector. -/
  | nvSector (m : Master) (sect : BitVec 11)
  /-- NV_ERASE (R310): NV_CMD ERASE maps the logical sector to a fresh erased sector. -/
  | nvErase (m : Master) (sect : BitVec 11)
  /-- NV_APPEND_DONE (R310): An APPEND completes. -/
  | nvAppendDone (ok : Bool)
  /-- NV_SECTOR_DONE (R310): A SECTOR or ERASE completes and its journal record is written. -/
  | nvSectorDone (ok : Bool)
  /-- BACKGROUND_ERASE_DONE (R310): An unmapped physical sector finishes its background erase. -/
  | backgroundEraseDone (p : BitVec 11) (ok : Bool)
   /-- STATIC_WEAR_LEVEL (R311): The erase-count spread exceeds SWL, so the controller moves the least-worn mapped
  sector. -/
  | staticWearLevel
   /-- NVM_WINDOW_READ (R309): A read through the NVM window is corrected, or fails as an uncorrectable access error.
  -/
  | nvmWindowRead (m : Master) (a : BitVec 32) (flips : Fin 4)
  /-- NVM_REFRESH (R309): A sector that needed a 2-bit correction is rewritten in the background. -/
  | nvmRefresh (sect : BitVec 11)
  /-- NV_ECC_CLEAR (R315): A write to NV_ECC clears CORR and UNCORR. -/
  | nvEccClear (m : Master)
  /-- MB_DOORBELL (R323): The host rings a session's doorbell, which is taken if PHASE is IDLE. -/
  | mbDoorbell (v : Via) (ring : BitVec 16)
  /-- MB_FREQ_CLEAR (R342): The Foreman clears MB_FREQ bit s and takes the request into EXEC. -/
  | mbFreqClear (m : Master) (mask : BitVec 16)
  /-- MB_FPOST (R323): The Foreman posts a session's response, which sets MB_HRDY and PHASE RESP. -/
  | mbFpost (m : Master) (x : Fin 16)
  /-- MB_HRDY_CLEAR (R321): The host writes 1 to MB_HRDY bit s, which returns the session to IDLE. -/
  | mbHrdyClear (v : Via) (mask : BitVec 16)
  /-- GET_INFO (R329): Returns part, stepping, folio versions and IANA number. -/
  | getInfo (x : Fin 16)
  /-- GET_STATUS (R330): Returns mode, shed level and fault summary. -/
  | getStatus (x : Fin 16)
  /-- SET_MODE (R330): Commands all rails off or DORMANT. -/
  | setMode (x : Fin 16)
  /-- SESSION_OPEN (R322): Opens a session and binds it to its transport. -/
  | sessionOpen (x : Fin 16)
  /-- SESSION_CLOSE (R322): Returns the session to FREE. -/
  | sessionClose (x : Fin 16)
  /-- GET_NONCE (R326): Returns a 32-byte owner-claim nonce. -/
  | getNonce (x : Fin 16)
   /-- CLAIM_OWNER (R326): Takes one fragment of the owner signature; on PART 1 the signature is verified and
  ownership granted. -/
  | claimOwner (x : Fin 16)
  /-- SET_HOSTPOL (R329): Sets PMBW and the MB_HAEN defaults. -/
  | setHostpol (x : Fin 16) (pmbw : Bool) (haen : BitVec 32)
  /-- RAIL_GET (R330): Returns a rail's RT_ entry and RT_CMDSTAT. -/
  | railGet (x : Fin 16)
  /-- RAIL_SET (R330): Writes selected RT_ words and commits them if the rail is running. -/
  | railSet (x : Fin 16)
  /-- RAIL_ENABLE (R330): Enables a rail, through SEQUENCE START in STANDBY or RT_CMD otherwise. -/
  | railEnable (x : Fin 16)
  /-- RAIL_DISABLE (R330): Disables a rail. -/
  | railDisable (x : Fin 16)
  /-- RAIL_CLEAR (R329): Clears a LATCHED rail. -/
  | railClear (x : Fin 16)
  /-- RAIL_POLICY (R329): Sets FLOOR, CEIL, PIN, trust bounds or a coefficient load and swap. -/
  | railPolicy (x : Fin 16) (r : Fin 32) (y : Policy)
  /-- PHASE_GET (R329): Returns a phase's PP_ and LU_ state. -/
  | phaseGet (x : Fin 16) (n : Fin 256)
  /-- PHASE_CMD (R329): Issues a PP_CMD to a phase. -/
  | phaseCmd (x : Fin 16) (op : Fin 4) (n : Fin 256)
  /-- ENGINE_GET (R329): Returns BD_ESTAT and binding state. -/
  | engineGet (x : Fin 16) (e : Fin 128)
  /-- BINDING_CMD (R329): Issues a BD_CMD of a quire. -/
  | bindingCmd (x : Fin 16) (q : Fin 16) (op : Fin 8) (b : Fin 8) (i : Fin 8) (arg : Fin 8)
  /-- FOLIO_LOAD (R357): Copies folio bytes into the update buffer, opening the update at offset 0. -/
  | folioLoad (x : Fin 16)
  /-- FOLIO_VERIFY (R357): Verifies the buffered folio. -/
  | folioVerify (x : Fin 16)
  /-- FOLIO_INSTALL (R357): Writes the verified folio to the inactive slot, or acts on the OTP. -/
  | folioInstall (x : Fin 16) (ok : Bool)
  /-- FOLIO_ACTIVATE (R358): Activates the installed folio live or at the next boot. -/
  | folioActivate (x : Fin 16)
  /-- FOLIO_CONFIRM (R358): Confirms a TRIAL slot, optionally advancing ARB. -/
  | folioConfirm (x : Fin 16)
  /-- FOLIO_DIR (R357): Returns a directory record. -/
  | folioDir (x : Fin 16)
  /-- TELEM_READ (R329): Returns one snapshot of the selected quantities. -/
  | telemRead (x : Fin 16) (qs : List (BitVec 8 × BitVec 8)) (tj : List (BitVec 32))
  /-- TELEM_STREAM (R336): Starts telemetry streaming for up to 64 quantities. -/
  | telemStream (x : Fin 16) (qs : List (BitVec 8 × BitVec 8)) (us : BitVec 32)
  /-- TELEM_STREAM_RECORD (R336): At each stream period, the Foreman writes records into the ring. -/
  | telemStreamRecord (tj : List (BitVec 32))
  /-- REC_READ (R329): Returns recorder memory. -/
  | recRead (x : Fin 16) (off : BitVec 18) (n : BitVec 18)
  /-- REC_CMD (R329): Issues an ER_CMD. -/
  | recCmd (x : Fin 16) (op : Fin 8)
  /-- FAULT_LOG (R372): Returns fault log records from a given SEQ. -/
  | faultLog (x : Fin 16)
  /-- FAULT_CLEAR (R372): Erases the log, clears the capture and acknowledges FPEND. -/
  | faultClear (x : Fin 16)
  /-- ATTEST (R355): Builds and signs a measurement report, or returns a part of it. -/
  | attest (x : Fin 16)
  /-- GET_CERT (R354): Returns a part of the identity key and certificate. -/
  | getCert (x : Fin 16)
  /-- ABORT (R337): Firmware abort of a session command or of another target. -/
  | abort (x : Fin 16)
  /-- SESSION_IDLE_TIMEOUT (R322): A session receives no request for IDLE seconds and returns to FREE. -/
  | sessionIdleTimeout (x : Fin 16)
   /-- HWABORT_SESSION (R338): Hardware abort of a session's pending command, with an ABORTED response posted by the
  sequencer. -/
  | hwabortSession (v : Via) (i : BitVec 8) (arg : BitVec 8)
  /-- HWABORT_SUPERVISION (R337): Hardware abort clears EIL of a rail's slot. -/
  | hwabortSupervision (v : Via) (i : BitVec 8) (arg : BitVec 8)
  /-- HWABORT_ENGINE (R337): Hardware abort halts an engine. -/
  | hwabortEngine (v : Via) (i : BitVec 8) (arg : BitVec 8)
  /-- HWABORT_BINDING (R337): Hardware abort halts a binding's members and sets the slot to NONE. -/
  | hwabortBinding (v : Via) (i : BitVec 8) (arg : BitVec 8)
  /-- HWABORT_STAGE_BUS (R337): Hardware abort ends the stage-bus procedure with a STOP. -/
  | hwabortStageBus (v : Via) (i : BitVec 8) (arg : BitVec 8)
  /-- HWABORT_FOLIO (R363): Hardware abort cancels the folio update. -/
  | hwabortFolio (v : Via) (i : BitVec 8) (arg : BitVec 8)
  /-- HWABORT_FOREMAN (R337): Hardware abort holds F0–F2 in reset and restarts them. -/
  | hwabortForeman (v : Via) (i : BitVec 8) (arg : BitVec 8)
   /-- HW_ABORT_COMPLETE (R340): The sequencer completes an abort, sets DONE and RESULT, raises the alert and records
  a U-class fault. -/
  | hwAbortComplete
  /-- MB_CNT_CLEAR (R342): A write to MB_CNT clears its counts. -/
  | mbCntClear (m : Master)
  /-- I3C_PRIVATE_WRITE (R317): A host I3C private write sets the host address and writes data. -/
  | i3cPrivateWrite (bs : List (BitVec 8))
  /-- I3C_PRIVATE_READ (R317): A host I3C private read returns data from the host address. -/
  | i3cPrivateRead (n : BitVec 16)
  /-- CCC_ENTDAA (R317): Dynamic address assignment. -/
  | cccEntdaa (da : BitVec 7)
  /-- CCC_SETDASA (R317): Sets the dynamic address from the static address. -/
  | cccSetdasa (sa : BitVec 7) (da : BitVec 7)
  /-- CCC_SETNEWDA (R317): Changes the dynamic address. -/
  | cccSetnewda (da : BitVec 7) (new : BitVec 7)
  /-- CCC_RSTDAA (R317): Resets the dynamic address. -/
  | cccRstdaa
  /-- CCC_ENEC (R317): Enables target events. -/
  | cccEnec (bits : BitVec 8)
  /-- CCC_DISEC (R317): Disables target events. -/
  | cccDisec (bits : BitVec 8)
  /-- CCC_GETPID (R317): Returns the provisioned ID. -/
  | cccGetpid
  /-- CCC_GETBCR (R317): Returns the BCR. -/
  | cccGetbcr
  /-- CCC_GETDCR (R317): Returns the DCR. -/
  | cccGetdcr
  /-- CCC_GETSTATUS (R317): Returns target status. -/
  | cccGetstatus
  /-- CCC_SETMWL (R317): Sets the maximum write length. -/
  | cccSetmwl (n : BitVec 16)
  /-- CCC_SETMRL (R317): Sets the maximum read length. -/
  | cccSetmrl (n : BitVec 16)
  /-- CCC_GETMWL (R317): Returns the maximum write length. -/
  | cccGetmwl
  /-- CCC_GETMRL (R317): Returns the maximum read length. -/
  | cccGetmrl
  /-- CCC_GETMXDS (R317): Returns maximum data speed. -/
  | cccGetmxds
  /-- CCC_ENTHDR0 (R317): Enters HDR-DDR mode. -/
  | cccEnthdr0
  /-- CCC_UNSUPPORTED (R317): Any other CCC is NACKed. -/
  | cccUnsupported (code : BitVec 8)
  /-- MBX_ADDR (R318): SMBus block write that sets the host address. -/
  | mbxAddr (bs : List (BitVec 8)) (pec : Pec)
  /-- MBX_DATA_WRITE (R318): SMBus block write of 1–32 bytes at the host address. -/
  | mbxDataWrite (bs : List (BitVec 8)) (pec : Pec)
  /-- MBX_DATA_READ (R318): SMBus block read of 1–32 bytes at the host address. -/
  | mbxDataRead (n : BitVec 6)
  /-- ALERT_RESPONSE (R323): A read of the Alert Response Address returns ADDR and releases SMBALERT_N. -/
  | alertResponse
  /-- SPI_WRITE (R319): SPI opcode 0x02 single write. -/
  | spiWrite (a : BitVec 24) (bs : List (BitVec 8))
  /-- SPI_READ (R319): SPI opcode 0x0B single read. -/
  | spiRead (a : BitVec 24) (n : BitVec 16)
  /-- SPI_QUAD_WRITE (R319): SPI opcode 0x32 quad write. -/
  | spiQuadWrite (a : BitVec 24) (bs : List (BitVec 8))
  /-- SPI_QUAD_READ (R319): SPI opcode 0x6B quad read. -/
  | spiQuadRead (a : BitVec 24) (n : BitVec 16)
  /-- SPI_STATUS (R319): SPI opcode 0x05 returns the status byte. -/
  | spiStatus
  /-- SET_ENDPOINT_ID (R320): MCTP control message setting the endpoint ID. -/
  | setEndpointId (bus : MctpBus) (eid : BitVec 8)
  /-- GET_ENDPOINT_ID (R320): MCTP control message returning the endpoint ID. -/
  | getEndpointId (bus : MctpBus)
  /-- GET_MCTP_VERSION_SUPPORT (R320): MCTP control message returning version support. -/
  | getMctpVersionSupport (bus : MctpBus)
  /-- GET_MESSAGE_TYPE_SUPPORT (R320): MCTP control message returning message type support. -/
  | getMessageTypeSupport (bus : MctpBus)
  /-- GET_VENDOR_DEFINED_MESSAGE_SUPPORT (R320): MCTP control message returning vendor message support. -/
  | getVendorDefinedMessageSupport (bus : MctpBus)
  /-- MCTP_LYHEUF_MESSAGE (R320): A reassembled MCTP vendor message carries a Lyheuf request into its session. -/
  | mctpLyheufMessage (bus : MctpBus) (endpoint : BitVec 8) (bs : List (BitVec 8))
  /-- PAGE (R332): Selects the PMBus rail page. -/
  | page (w : Option (BitVec 8)) (pec : Pec)
  /-- OPERATION (R332): Enables or soft-stops the rail, or reads its on state. -/
  | operation (w : Option (BitVec 8)) (pec : Pec)
  /-- ON_OFF_CONFIG (R332): Returns 0x18. -/
  | onOffConfig
  /-- CLEAR_FAULTS (R332): Clears the page's PMBus status bits. -/
  | clearFaults (pec : Pec)
  /-- CAPABILITY (R332): Returns 0xD0. -/
  | capability
  /-- VOUT_MODE (R332): Returns 0x12. -/
  | voutMode
  /-- VOUT_COMMAND (R332): Reads TARGET, or writes it with RAIL_SET semantics. -/
  | voutCommand (w : Option (BitVec 16)) (pec : Pec)
  /-- STATUS_BYTE (R332): Returns the PMBus status byte. -/
  | statusByte
  /-- STATUS_WORD (R332): Returns the PMBus status word. -/
  | statusWord
  /-- STATUS_VOUT (R332): Returns STATUS_VOUT. -/
  | statusVout
  /-- STATUS_IOUT (R332): Returns STATUS_IOUT. -/
  | statusIout
  /-- STATUS_TEMPERATURE (R332): Returns STATUS_TEMPERATURE. -/
  | statusTemperature
  /-- STATUS_CML (R332): Returns STATUS_CML. -/
  | statusCml
  /-- READ_VIN (R332): Returns LU_VIN in LINEAR11. -/
  | readVin
  /-- READ_VOUT (R332): Returns Vout in ULINEAR16. -/
  | readVout
  /-- READ_IOUT (R332): Returns I_f in LINEAR11. -/
  | readIout
  /-- READ_TEMPERATURE_1 (R332): Returns the hottest member stage temperature. -/
  | readTemperature1
  /-- PMBUS_REVISION (R332): Returns 0x33. -/
  | pmbusRevision
  /-- MFR_ID (R332): Returns "KILKOR". -/
  | mfrId
  /-- MFR_MODEL (R332): Returns "ELN9256". -/
  | mfrModel
  /-- MFR_REVISION (R332): Returns "B1". -/
  | mfrRevision
  /-- PMBUS_INVALID_COMMAND (R331): An unsupported code or refused write sets STATUS_CML and may assert SMBALERT_N. -/
  | pmbusInvalidCommand (code : BitVec 8) (write : Bool) (pec : Pec)
  /-- SC_ARBSET (R365): SC_CMD ARBSET blows anti-rollback fuses up to ARG. -/
  | scArbset (m : Master) (arg : BitVec 8)
  /-- SC_REVOKE (R365): SC_CMD REVOKE blows a vendor slot's revocation fuse. -/
  | scRevoke (m : Master) (arg : BitVec 8)
  /-- SC_OWNERPROG (R365): SC_CMD OWNERPROG programs the owner slot from SC_DATA. -/
  | scOwnerprog (m : Master)
  /-- SC_FUSE_DONE (R365): A fuse blow completes with its result. -/
  | scFuseDone (ok : Bool)
  /-- SC_SHA3 (R351): SC_JOB starts a SHA3-512 job. -/
  | scSha3 (m : Master)
  /-- SC_VERIFY (R351): SC_JOB starts an ML-DSA verify. -/
  | scVerify (m : Master)
  /-- SC_SIGN (R351): SC_JOB starts a sign with the identity key. -/
  | scSign (m : Master)
  /-- SC_JOB_DONE (R351): A security job completes with its result. -/
  | scJobDone
  /-- SC_LOCK_WRITE (R365): A write of 1 to SC_LOCK freezes every RWL field until reset. -/
  | scLockWrite (m : Master)
  /-- TRIAL_EXPIRY (R358): TRIAL seconds pass unconfirmed, so the Foreman reverts to the previous slot. -/
  | trialExpiry (t : Fin 6) (i : Fin 32)
  /-- SHADOW_READY (R359): The shadow writes its ready word, so the Foreman issues HANDOVER. -/
  | shadowReady
   /-- SHADOW_READY_TIMEOUT (R359): RDYTMO passes without a ready word, so the shadow is released and ACTIVATE is
  refused. -/
  | shadowReadyTimeout
  /-- FOREMAN_UPDATE_DONE (R361): The new Foreman image accepts the snapshot and FBUSY clears. -/
  | foremanUpdateDone
   /-- FOREMAN_UPDATE_TIMEOUT (R361): FBUSY has not cleared 50 ms after the origin, so the boot ROM restarts the
  previous slot. -/
  | foremanUpdateTimeout
  /-- LOCKOUT_RESTART (R360): The Foreman reloads and restarts an engine in LOCKOUT. -/
  | lockoutRestart (e : Fin 128)
   /-- FAULT_REPORT (R366): A block reports a fault, which is classed, stamped, queued, counted and passed to the log
  buffer. -/
  | faultReport (x : Report)
  /-- FM_Q_READ (R371): A read of FM_Q removes the oldest record into FM_QREC. -/
  | fmQRead (m : Master)
  /-- FAULT_LOG_APPEND (R372): The Foreman drains a record from the log buffer and appends it to the NVM fault log. -/
  | faultLogAppend
  /-- FM_ACK (R373): FM_ACK.F clears FPEND and may release FAULT_N. -/
  | fmAck (m : Master)
  /-- FM_FEC_CLR (R374): A write to FM_FEC_CLR clears the capture and MORE. -/
  | fmFecClr (m : Master)
  /-- FM_QDROP_CLEAR (R389): A write to FM_QDROP clears it. -/
  | fmQdropClear (m : Master)
  /-- FM_LOGDROP_CLEAR (R389): A write to FM_LOGDROP clears it. -/
  | fmLogdropClear (m : Master)
  /-- FM_WDOG (R381): A write of KEY 0x5A restarts the watchdog interval. -/
  | fmWdog (m : Master)
   /-- WATCHDOG_EXPIRY (R381): The watchdog interval passes, so the Foreman is restarted, possibly on the next image.
  -/
  | watchdogExpiry
  /-- QUIET_PERIOD_END (R377): The quiet timer expires, so ALERT clears and the device may return to REGULATE. -/
  | quietPeriodEnd
  /-- RECONCILE_PASS (R384): Every 1 ms, the Foreman reconciles listed disagreements between views. -/
  | reconcilePass
  /-- FM_TRIP_GO (R368): FM_TRIP.GO latches a rail off by a trip-line pulse. -/
  | fmTripGo (m : Master) (r : Fin 32)
  /-- FM_RECCLR (R389): FM_CMD RECCLR zeroes FM_RECOVERIES. -/
  | fmRecclr (m : Master)
  /-- FM_AVCLR (R389): FM_CMD AVCLR zeroes FM_AVUN and sets every FM_AVCOND bit. -/
  | fmAvclr (m : Master)
  /-- FM_DISQ_READ (R389): A read of FM_DISQ removes the oldest disagreement entry. -/
  | fmDisqRead (m : Master)
   /-- FOREMAN_CORE_MISMATCH (R379): A Foreman core's write differs, so it is resynchronised, retired, or treated as
  a second core lost. -/
  | foremanCoreMismatch (c : Fin 3)
   /-- SHED_LEVEL_CHANGE (R399): A VCORE or VAUX threshold is crossed or recovered, so the shed level changes and its
  actions apply. -/
  | shedLevelChange (ths : List Threshold) (crossed : Bool) (vcore : BitVec 16) (io : IoSupplies)
  /-- SEQ_START (R395): SM_SEQCMD START enters SEQUENCE with the masked rails. -/
  | seqStart (m : Master)
  /-- SEQ_GROUP_START (R395): DELAY µs after the previous group's PG, a group's rails are enabled. -/
  | seqGroupStart
  /-- SEQ_PG_TIMEOUT (R395): A step misses PG within its timeout, so the sequence fails with SHUTDOWN cause 3. -/
  | seqPgTimeout (r : Fin 32)
  /-- SEQUENCE_END (R395): Every sequenced rail has PG, so the device enters REGULATE or DEGRADED. -/
  | sequenceEnd
  /-- SHUTDOWN_GROUP_DISABLE (R396): OFFDLY µs after the later group is OFF, a group's rails are disabled. -/
  | shutdownGroupDisable
   /-- SHUTDOWN_COMPLETE (R396): Every rail is OFF or LATCHED, so the device enters STANDBY, DORMANT or BOOT by
  cause. -/
  | shutdownComplete
   /-- SHED6_APPEND_TIMEOUT (R401): 1 ms after a cause-4 SHUTDOWN starts, DORMANT is entered even if the appends are
  incomplete. -/
  | shed6AppendTimeout
  /-- PWRGD_IN_RISE (R395): PWRGD_IN rises in STANDBY with AUTOSTART, so the sequence starts. -/
  | pwrgdInRise
  /-- PWRGD_IN_FALL (R397): PWRGD_IN falls, which causes SHUTDOWN with SHUTLOSS or counts a fall. -/
  | pwrgdInFall
  /-- SPEED_MEASURE (R403): Every 10 µs, the speed replica is measured and LOW may be set. -/
  | speedMeasure (u : Fin 17) (v : BitVec 12)
  /-- SM_SUPPLY_MIN_RESET (R405): A write to SM_VCORE, SM_VIO or SM_VAUX sets MIN to NOW. -/
  | smSupplyMinReset (m : Master) (supply : SupplyPin)
  /-- SM_PGIN_CLEAR (R405): A write to SM_PGIN clears FALLS. -/
  | smPginClear (m : Master)
   /-- AGGREGATE_SAMPLE (R125): At every even TB_NS each converter takes an aggregate sample that feeds its stream,
  filter unit, OVR flag, hold count and, for an AUX stream, the current window of an AUX-sensed port. -/
  | aggregateSample (q : Fin 16) (c : Fin 2) (code : BitVec 12)
   /-- RAW_STATE_FALL (R138): A comparator sampling tick lowers a side's raw state when the input leaves the
  threshold by more than the hysteresis. -/
  | rawStateFall (q : Fin 16) (c : Fin 8) (x : BitVec 32)
   /-- HS_OFF_EDGE (R98): The high side of a switching channel turns off at s + ON of its period, or at t_b + W_eff
  of a burst pulse, and the LS guard starts. -/
  | hsOffEdge (n : Fin 256)
   /-- PASS2_COMPLETE (R259): Pass 2 of a state copy finishes, the binding's hold ends and the target is released at
  its position. -/
  | pass2Complete (q : Fin 16) (b : Fin 6)
   /-- FOREMAN_SERVES_AGAIN (R340): After a hardware-path or watchdog restart, the Foreman serves again and
  MB_HSTAT.FBUSY clears. -/
  | foremanServesAgain
   /-- TRIP_LINE_PULSE_END (R368): The fault manager's 8–16 ns trip-line pulse to a rail's member channels ends, so
  clears of their latches are no longer refused. -/
  | tripLinePulseEnd (r : Fin 32)
  deriving DecidableEq, Repr

end Sys2Proof
end

