-- ==== Sys2Proof/Decode.lean ====
section
/-! DEFINITION. Decoding. The table of operations and events gives none of its rows any bits: the device takes its
commands as events and register accesses, not as words, so no word spells one. -/

namespace Sys2Proof

/-- The command that a word spells by the bits of the table: the table gives no row bits, so none. (DESIGN CHOICE, log
4) -/
def decodeTableWord (_nbits _w : Nat) : Option Instr := none

end Sys2Proof
end

