-- ==== Sys2Proof/Machine/Util.lean ====
section
/-! DEFINITION. Reading and writing sparse tables and bit fields, and the integer arithmetic that the rules use:
signed and unsigned readings of a word, saturation, roundings and the two check codes the spec names. -/

namespace Sys2Proof.Machine

/-! Sparse tables: d is what an unlisted index holds. -/

/-- What table t holds at index k. -/
def tget {α : Type} (d : Nat → α) : Tab α → Nat → α
  | [], k => d k
  | (i, v) :: t, k => if i = k then v else tget d t k

/-- Table t without an entry at index k. -/
def tdel {α : Type} : Tab α → Nat → Tab α
  | [], _ => []
  | (i, v) :: t, k => if i = k then tdel t k else (i, v) :: tdel t k

/-- Table t with an entry for index k put in its place. -/
def tins {α : Type} : Tab α → Nat → α → Tab α
  | [], k, x => [(k, x)]
  | (i, v) :: t, k, x => if k < i then (k, x) :: (i, v) :: t else (i, v) :: tins t k x

/-- Table t after index k is given x: the entry goes where x is what an unlisted index holds. -/
def tset {α : Type} [DecidableEq α] (d : Nat → α) (t : Tab α) (k : Nat) (x : α) : Tab α :=
  if x = d k then tdel t k else tins (tdel t k) k x

/-- The canonical form of a table. -/
def tcanon {α : Type} [DecidableEq α] (d : Nat → α) : Tab α → Bool
  | [] => true
  | (i, v) :: t => decide (v ≠ d i) && t.all (fun e => decide (i < e.1)) && tcanon d t

/-! Bit fields of a number. -/

/-- The field f of word w. -/
def getBits (w : Nat) (f : Bits) : Nat := w / 2 ^ f.lo % 2 ^ (f.hi - f.lo + 1)

/-- Word w with field f holding v (v cut to the field's width). -/
def putBits (w : Nat) (f : Bits) (v : Nat) : Nat :=
  w % 2 ^ f.lo + 2 ^ f.lo * (v % 2 ^ (f.hi - f.lo + 1)) + 2 ^ (f.hi + 1) * (w / 2 ^ (f.hi + 1))

/-- The largest value of field f. -/
def maxBits (f : Bits) : Nat := 2 ^ (f.hi - f.lo + 1) - 1

/-- Bit i of w. -/
def bitAt (w i : Nat) : Bool := w / 2 ^ i % 2 == 1

/-- The number 1 for true, 0 for false. -/
def b2n (b : Bool) : Nat := if b then 1 else 0

/-! Signed readings, saturation and rounding. -/

/-- The two's complement reading of the low n bits of w. -/
def sx (n w : Nat) : Int :=
  let v := w % 2 ^ n
  if v < 2 ^ (n - 1) then (v : Int) else (v : Int) - 2 ^ n

/-- The n-bit two's complement pattern of x. -/
def pat (n : Nat) (x : Int) : Nat := (x % 2 ^ n).toNat

/-- x held between lo and hi. -/
def clampI (lo hi x : Int) : Int := if x < lo then lo else if hi < x then hi else x

/-- x held between lo and hi. -/
def clampN (lo hi x : Nat) : Nat := if x < lo then lo else if hi < x then hi else x

/-- x held in the range of an n-bit signed number. -/
def satS (n : Nat) (x : Int) : Int := clampI (-(2 ^ (n - 1))) (2 ^ (n - 1) - 1) x

/-- x held in the range of an n-bit unsigned number. -/
def satU (n : Nat) (x : Int) : Int := clampI 0 (2 ^ n - 1) x

/-- n / d rounded towards negative infinity (d > 0). -/
def floorDiv (n d : Int) : Int := n.fdiv d

/-- n / d rounded to the nearest integer, a tie upwards (d > 0). -/
def roundUpDiv (n d : Int) : Int := (2 * n + d).fdiv (2 * d)

/-- n / d rounded to the nearest integer, a tie away from zero (d > 0). -/
def roundAwayDiv (n d : Int) : Int := if n < 0 then -(roundUpDiv (-n) d) else roundUpDiv n d

/-- n / d rounded to the nearest integer, a tie to the even one (d > 0). -/
def roundEvenDiv (n d : Int) : Int :=
  let q := n.fdiv d
  let r := n - q * d
  if 2 * r < d then q else if d < 2 * r then q + 1 else if q % 2 = 0 then q else q + 1

/-- The least integer at or above n / d (d > 0). -/
def ceilDiv (n d : Nat) : Nat := (n + d - 1) / d

/-- The least multiple of m strictly above n (m > 0). -/
def nextMultiple (n m : Nat) : Nat := (n / m + 1) * m

/-- Index a is later than index b as serial numbers (R23). -/
def serialAfter (a b : Nat) : Bool :=
  let d := (2 ^ 32 + a - b % 2 ^ 32) % 2 ^ 32
  decide (1 ≤ d ∧ d ≤ 2 ^ 31 - 1)

/-- How many of the low n bits of w are 1. -/
def popcount : Nat → Nat → Nat
  | 0, _ => 0
  | n + 1, w => w % 2 + popcount n (w / 2)

/-- The positions of the 1 bits among the low n bits of w, rising from position i. -/
def onesFrom : Nat → Nat → Nat → List Nat
  | 0, _, _ => []
  | n + 1, w, i => if w % 2 = 1 then i :: onesFrom n (w / 2) (i + 1) else onesFrom n (w / 2) (i + 1)

/-- The positions of the 1 bits among the low n bits of w, rising. -/
def ones (n w : Nat) : List Nat := onesFrom n w 0

/-- The number whose 32-bit words are ws, the first least significant. -/
def fromWords (ws : List Nat) : Nat := ws.foldr (fun w a => w % 2 ^ 32 + 2 ^ 32 * a) 0

/-- The n low 32-bit words of w, the least significant first. -/
def toWords : Nat → Nat → List Nat
  | 0, _ => []
  | n + 1, w => w % 2 ^ 32 :: toWords n (w / 2 ^ 32)

/-- The number whose bytes are bs, the first least significant (R9: little-endian). -/
def fromBytes (bs : List Nat) : Nat := bs.foldr (fun b a => b % 256 + 256 * a) 0

/-- The n low bytes of w, the least significant first. -/
def toBytes : Nat → Nat → List Nat
  | 0, _ => []
  | n + 1, w => w % 256 :: toBytes n (w / 256)

/-- The element at index i of a list, d beyond its end. -/
def nthD {α : Type} (d : α) : List α → Nat → α
  | [], _ => d
  | x :: _, 0 => x
  | _ :: xs, n + 1 => nthD d xs n

/-- The list with its element at index i replaced. -/
def setNth {α : Type} : List α → Nat → α → List α
  | [], _, _ => []
  | _ :: xs, 0, y => y :: xs
  | x :: xs, n + 1, y => x :: setNth xs n y

/-- The list cut or filled with d to n elements. -/
def padTo {α : Type} (d : α) (n : Nat) (xs : List α) : List α := xs.take n ++ List.replicate (n - xs.length) d

end Sys2Proof.Machine
end

