-- ==== Sys2Proof/Machine/Isa.lean ====
section
/-! DEFINITION. The bundles of the engines: their formats, the operations they spell, the pairing rules, and the
arithmetic of each operation (R187 to R208). Register contents stand as numbers below 2^32. -/

namespace Sys2Proof.Machine

/-- The two-operand operations and moves (R198, R207, R208). -/
inductive AluOp where
  | mov | neg | abs | not
  | add | adds | sub | subs
  | and | or | xor | andn
  | shl | shr | sar | shls
  | min | max | minu | maxu
  | slt | sltu | mullo | ror
  deriving DecidableEq, Repr

/-- An operand: a register or an immediate. -/
inductive Src where
  | reg (g : Nat)
  | imm (v : Nat)
  deriving DecidableEq, Repr

/-- What a load or store moves. -/
inductive Width where
  | word | half | halfU | byte | byteU
  deriving DecidableEq, Repr

/-- The rows of the operation table that a bundle can spell. -/
inductive Row where
  | nop | mov | neg | abs | not | add | adds | sub | subs | and | or | xor | andn | shl | shr | sar | shls | ror
  | min | max | minu | maxu | slt | sltu | mullo | cmp | tst | addi | andi | ori | xori | movi | shli | shri
  | sari | cmpi
  | movl | movh | sats | ldw | ldh | ldhu | ldb | ldbu | stw | sth | stb | mul | mac | msu | mulu | macu | mfp | mtp
  | divs | divu | divq | rems | remu | sqrtu | sqrtq | b | call | callw | jr | callr | ret | retw | rep | repi
  | mfs | mts | fence | flushI | wait | halt | trap | retx | switch | savectx | loadctx
  deriving DecidableEq, Repr

/-- One operation. row is the row of the table it belongs to. -/
inductive Op where
  | nop
  | alu (row : Row) (f : AluOp) (d : Nat) (x y : Src)
  | cmp (row : Row) (a : Nat) (y : Src)
  | tst (a b : Nat)
  | movh (d imm : Nat)
  | sats (d a n : Nat)
  | load (w : Width) (d a : Nat) (ofs post : Int)
  | store (w : Width) (d a : Nat) (ofs post : Int)
  | mul (kind x a b : Nat)
  | mfp (d x sh : Nat) (rnd sat : Bool)
  | mtp (x a sh : Nat) (clr : Bool)
  | div (kind d a b : Nat)
  | sqrt (kind d a : Nat)
  | br (cond : Nat) (ofs : Int)
  | call (ofs : Int)
  | callw (ofs : Int)
  | jr (a : Nat)
  | callr (a : Nat)
  | ret
  | retw
  | rep (interruptible : Bool) (n : Nat)
  | mfs (d num : Nat)
  | mts (num a : Nat)
  | fence
  | flushI
  | wait
  | halt
  | trap (n : Nat)
  | retx
  | switch (k : Nat)
  | savectx (a : Nat)
  | loadctx (a : Nat)
  deriving DecidableEq, Repr

/-- The row an operation belongs to. -/
def Op.row : Op → Row
  | .nop => .nop
  | .alu r .. => r
  | .cmp r .. => r
  | .tst .. => .tst
  | .movh .. => .movh
  | .sats .. => .sats
  | .load .word .. => .ldw
  | .load .half .. => .ldh
  | .load .halfU .. => .ldhu
  | .load .byte .. => .ldb
  | .load .byteU .. => .ldbu
  | .store .word .. => .stw
  | .store .half .. => .sth
  | .store .halfU .. => .sth
  | .store .byte .. => .stb
  | .store .byteU .. => .stb
  | .mul 0 .. => .mul
  | .mul 1 .. => .mac
  | .mul 2 .. => .msu
  | .mul 3 .. => .mulu
  | .mul _ .. => .macu
  | .mfp .. => .mfp
  | .mtp .. => .mtp
  | .div 0 .. => .divs
  | .div 1 .. => .divu
  | .div 2 .. => .divq
  | .div 3 .. => .rems
  | .div _ .. => .remu
  | .sqrt 0 .. => .sqrtu
  | .sqrt _ .. => .sqrtq
  | .br .. => .b
  | .call _ => .call
  | .callw _ => .callw
  | .jr _ => .jr
  | .callr _ => .callr
  | .ret => .ret
  | .retw => .retw
  | .rep false _ => .rep
  | .rep true _ => .repi
  | .mfs .. => .mfs
  | .mts .. => .mts
  | .fence => .fence
  | .flushI => .flushI
  | .wait => .wait
  | .halt => .halt
  | .trap _ => .trap
  | .retx => .retx
  | .switch _ => .switch
  | .savectx _ => .savectx
  | .loadctx _ => .loadctx

/-! ## Formats (R187 to R189) -/

/-- Bits hi down to lo of w. -/
def slice (w hi lo : Nat) : Nat := getBits w ⟨hi, lo⟩

/-- The 32-bit pattern of an n-bit signed immediate. -/
def simm (n w : Nat) : Nat := pat 32 (sx n w)

/-- The fourth of a group of four by its X field. -/
def pick {α : Type} (x : Nat) (a b c d : α) : α := if x = 0 then a else if x = 1 then b else if x = 2 then c else d

/-- An operation d <- d f s of a row. -/
def dds (r : Row) (f : AluOp) (d s : Nat) : Op := .alu r f d (.reg d) (.reg s)

/-- An operation d <- f s of a row. -/
def ds (r : Row) (f : AluOp) (d s : Nat) : Op := .alu r f d (.reg s) (.imm 0)

/-- The base offset and the update of a short memory form (R207). -/
def memOfs (x : Nat) : Int := if x = 3 then 4 else 0
def memPost (x : Nat) : Int := if x = 1 then 4 else if x = 2 then -4 else 0

/-- The short operation of a 15-bit slot (R189, R207); none where it is undefined. -/
def decodeShort (w : Nat) : Option Op :=
  let op := slice w 14 10
  let d := slice w 9 6
  let s := slice w 5 2
  let x := slice w 1 0
  let i := slice w 5 0
  match op with
  | 0x00 => if w = 0 then some .nop else none
  | 0x01 => some (pick x (ds .mov .mov d s) (ds .neg .neg d s) (ds .abs .abs d s) (ds .not .not d s))
  | 0x02 => some (pick x (dds .add .add d s) (dds .adds .adds d s) (dds .sub .sub d s) (dds .subs .subs d s))
  | 0x03 => some (pick x (dds .and .and d s) (dds .or .or d s) (dds .xor .xor d s) (dds .andn .andn d s))
  | 0x04 => some (pick x (dds .shl .shl d s) (dds .shr .shr d s) (dds .sar .sar d s) (dds .shls .shls d s))
  | 0x05 => some (pick x (dds .min .min d s) (dds .max .max d s) (dds .minu .minu d s) (dds .maxu .maxu d s))
  | 0x06 => if x = 0 then some (.cmp .cmp d (.reg s)) else if x = 1 then some (.tst d s) else none
  | 0x08 => some (.alu .addi .add d (.reg d) (.imm (simm 6 i)))
  | 0x09 => some (.alu .movi .mov d (.imm (simm 6 i)) (.imm 0))
  | 0x0A => if i < 32 then some (.alu .shli .shl d (.reg d) (.imm i)) else none
  | 0x0B => if i < 32 then some (.alu .shri .shr d (.reg d) (.imm i)) else none
  | 0x0C => if i < 32 then some (.alu .sari .sar d (.reg d) (.imm i)) else none
  | 0x0D => some (.cmp .cmpi d (.imm (simm 6 i)))
  | 0x10 => if d = s ∧ (x = 1 ∨ x = 2) then none else some (.load .word d s (memOfs x) (memPost x))
  | 0x11 => some (.store .word d s (memOfs x) (memPost x))
  | 0x14 => some (.mul 0 x d s)
  | 0x15 => some (.mul 1 x d s)
  | 0x16 => some (.mul 2 x d s)
  | 0x17 => if s = 0 then some (.mfp d x 31 true true) else none
  | 0x18 => if d = 15 then none else some (.br d (sx 6 i))
  | _ => none

/-- The three-register operations of OP 0x01 (R208). -/
def decodeRrr (fn d a b : Nat) : Option Op :=
  let f := fun r o => some (Op.alu r o d (.reg a) (.reg b))
  match fn with
  | 0x00 => f .add .add
  | 0x01 => f .adds .adds
  | 0x02 => f .sub .sub
  | 0x03 => f .subs .subs
  | 0x04 => f .and .and
  | 0x05 => f .or .or
  | 0x06 => f .xor .xor
  | 0x07 => f .andn .andn
  | 0x08 => f .shl .shl
  | 0x09 => f .shr .shr
  | 0x0A => f .sar .sar
  | 0x0B => f .shls .shls
  | 0x0C => f .min .min
  | 0x0D => f .max .max
  | 0x0E => f .minu .minu
  | 0x0F => f .maxu .maxu
  | 0x10 => f .slt .slt
  | 0x11 => f .sltu .sltu
  | 0x12 => f .mullo .mullo
  | 0x13 => if d = 0 then some (.cmp .cmp a (.reg b)) else none
  | _ => none

/-- A shift by an immediate of OP 0x06 (R208). -/
def decodeShift (kind d a n : Nat) : Option Op :=
  match kind with
  | 0 => some (.alu .shl .shl d (.reg a) (.imm n))
  | 1 => some (.alu .shr .shr d (.reg a) (.imm n))
  | 2 => some (.alu .sar .sar d (.reg a) (.imm n))
  | 3 => some (.alu .shls .shls d (.reg a) (.imm n))
  | 4 => some (.alu .ror .ror d (.reg a) (.imm n))
  | _ => none

/-- The SYS operations (R208); D and B are unused, and A is used by SAVECTX and LOADCTX only. -/
def decodeSys (op par d a b : Nat) : Option Op :=
  if d ≠ 0 ∨ b ≠ 0 ∨ (a ≠ 0 ∧ op ≠ 0x07 ∧ op ≠ 0x08) ∨ (par ≠ 0 ∧ op ≠ 0x04 ∧ op ≠ 0x06) then none
  else
    match op with
    | 0x00 => some .fence
    | 0x01 => some .flushI
    | 0x02 => some .wait
    | 0x03 => some .halt
    | 0x04 => if par < 16 then some (.trap par) else none
    | 0x05 => some .retx
    | 0x06 => if par < 4 then some (.switch par) else none
    | 0x07 => some (.savectx a)
    | 0x08 => some (.loadctx a)
    | _ => none

/-- The long operation of a word with bit 31 clear (R188, R208); none where it is undefined. -/
def decodeLong (w : Nat) : Option Op :=
  let d := slice w 24 21
  let a := slice w 20 17
  let b := slice w 16 13
  let fn := slice w 12 0
  let i := slice w 16 0
  let i21 := slice w 20 0
  match slice w 30 25 with
  | 0x00 => if w = 0 then some .nop else none
  | 0x01 => decodeRrr fn d a b
  | 0x02 => some (.alu .addi .add d (.reg a) (.imm (simm 17 i)))
  | 0x03 => some (.alu .andi .and d (.reg a) (.imm (simm 17 i)))
  | 0x04 => some (.alu .ori .or d (.reg a) (.imm (simm 17 i)))
  | 0x05 => some (.alu .xori .xor d (.reg a) (.imm (simm 17 i)))
  | 0x06 => if i < 256 then decodeShift (i / 32) d a (i % 32) else none
  | 0x07 => if d = 0 then some (.cmp .cmpi a (.imm (simm 17 i))) else none
  | 0x08 => some (.alu .movl .mov d (.imm (simm 21 i21)) (.imm 0))
  | 0x09 => if i21 < 65536 then some (.movh d i21) else none
  | 0x0A => if i < 32 then some (.sats d a i) else none
  | 0x10 => some (.load .word d a (sx 17 i) 0)
  | 0x11 => some (.load .half d a (sx 17 i) 0)
  | 0x12 => some (.load .halfU d a (sx 17 i) 0)
  | 0x13 => some (.load .byte d a (sx 17 i) 0)
  | 0x14 => some (.load .byteU d a (sx 17 i) 0)
  | 0x15 => some (.store .word d a (sx 17 i) 0)
  | 0x16 => some (.store .half d a (sx 17 i) 0)
  | 0x17 => some (.store .byte d a (sx 17 i) 0)
  | 0x18 => if d = 0 ∧ fn < 20 then some (.mul (fn / 4) (fn % 4) a b) else none
  | 0x19 =>
    if a = 0 ∧ i < 1024 then some (.mfp d (i % 4) (slice i 7 2) (bitAt i 8) (bitAt i 9)) else none
  | 0x1A => if d = 0 ∧ i < 512 then some (.mtp (i % 4) a (slice i 7 2) (bitAt i 8)) else none
  | 0x1C => if fn < 5 then some (.div fn d a b) else none
  | 0x1D => if b = 0 ∧ fn < 2 then some (.sqrt fn d a) else none
  | 0x20 => if d = 15 then none else some (.br d (sx 21 i21))
  | 0x21 => some (.call (sx 25 (slice w 24 0)))
  | 0x22 => some (.callw (sx 25 (slice w 24 0)))
  | 0x23 =>
    if d ≠ 0 ∨ b ≠ 0 then none
    else if fn = 0 then some (.jr a)
    else if fn = 1 then some (.callr a)
    else if fn = 2 ∧ a = 0 then some .ret
    else if fn = 3 ∧ a = 0 then some .retw
    else none
  | 0x28 => if d = 0 ∧ a = 0 ∧ i < 8192 then some (.rep (bitAt i 12) (i % 4096 + 1)) else none
  | 0x30 => if a = 0 ∧ i < 256 then some (.mfs d i) else none
  | 0x31 => if d = 0 ∧ i < 256 then some (.mts i a) else none
  | 0x38 => decodeSys (fn % 64) (fn / 64) d a b
  | _ => none

/-! ## Pairing (R190, R191) -/

/-- The pairing classes of R190. -/
inductive OpClass where
  | n | a | m | x | b
  deriving DecidableEq, Repr

/-- The class of a short operation. -/
def opClass : Op → OpClass
  | .nop => .n
  | .load .. => .m
  | .store .. => .m
  | .mul .. => .x
  | .mfp .. => .x
  | .br .. => .b
  | _ => .a

/-- The general registers an operand reads. -/
def srcRegs : Src → List Nat
  | .reg g => [g]
  | .imm _ => []

/-- What an operation reads: registers 0 to 15, accumulators 16 to 19, the condition flags 20 (R191). -/
def opReads : Op → List Nat
  | .alu _ _ _ x y => srcRegs x ++ srcRegs y
  | .cmp _ a y => a :: srcRegs y
  | .tst a b => [a, b]
  | .movh d _ => [d]
  | .sats _ a _ => [a]
  | .load _ _ a _ _ => [a]
  | .store _ d a _ _ => [d, a]
  | .mul k x a b => if k = 0 ∨ k = 3 then [a, b] else [a, b, 16 + x]
  | .mfp _ x _ _ _ => [16 + x]
  | .mtp _ a _ clr => if clr then [] else [a]
  | .div _ _ a b => [a, b]
  | .sqrt _ _ a => [a]
  | .br _ _ => [20]
  | .jr a => [a]
  | .callr a => [a]
  | .ret => [15]
  | .retw => [15]
  | .mts _ a => [a]
  | .savectx a => [a]
  | .loadctx a => [a]
  | _ => []

/-- What an operation writes, in the same numbering (R191). -/
def opWrites : Op → List Nat
  | .alu _ _ d _ _ => [d]
  | .cmp .. => [20]
  | .tst .. => [20]
  | .movh d _ => [d]
  | .sats d _ _ => [d]
  | .load _ d a _ post => if post = 0 then [d] else [d, a]
  | .store _ _ a _ post => if post = 0 then [] else [a]
  | .mul _ x _ _ => [16 + x]
  | .mfp d _ _ _ _ => [d]
  | .mtp x _ _ _ => [16 + x]
  | .div _ d _ _ => [d]
  | .sqrt _ d _ => [d]
  | .call _ => [15]
  | .callw _ => [15]
  | .callr _ => [15]
  | .mfs d _ => [d]
  | _ => []

/-- A paired bundle is legal (R190): its bit 0, its classes, and what its slots read and write. -/
def legalPair (bit0 : Nat) (x y : Op) : Bool :=
  bit0 == 0 && opClass x != .b && !(opClass x == .m && opClass y == .m) && !(opClass x == .x && opClass y == .x) &&
    (opWrites x).all (fun r => !(opWrites y).contains r) && (opWrites x).all (fun r => !(opReads y).contains r)

/-- What a word decodes to: its operations in program order, an undefined instruction, or an illegal bundle. -/
inductive Bundle where
  | ops (xs : List Op)
  | undef
  | illegal
  deriving DecidableEq, Repr

/-- A bundle (R187, R189, R190). -/
def decodeBundle (w : Nat) : Bundle :=
  if bitAt w 31 then
    match decodeShort (slice w 30 16), decodeShort (slice w 15 1) with
    | some x, some y => if legalPair (w % 2) x y then .ops [x, y] else .illegal
    | _, _ => .undef
  else
    match decodeLong w with
    | some x => .ops [x]
    | none => .undef

/-- An operation that the bundle after a REP must not hold (R206). -/
def notRepeatable : Op → Bool
  | .br .. => true
  | .call _ => true
  | .callw _ => true
  | .jr _ => true
  | .callr _ => true
  | .ret => true
  | .retw => true
  | .rep .. => true
  | .mfs .. => true
  | .mts .. => true
  | .fence => true
  | .flushI => true
  | .wait => true
  | .halt => true
  | .trap _ => true
  | .retx => true
  | .switch _ => true
  | .savectx _ => true
  | .loadctx _ => true
  | _ => false

/-- A bundle spells row r: one of its operations belongs to it, and NOP only where all of them are NOP. (DESIGN
CHOICE, log 56) -/
def spells (r : Row) (xs : List Op) : Bool :=
  if r = .nop then xs.all (fun x => x.row == .nop) else xs.any (fun x => x.row == r)

/-! ## Arithmetic (R198 to R201) -/

/-- A result held to the signed range, and whether that changed it. -/
def sat32 (x : Int) : Nat × Bool := (pat 32 (satS 32 x), satS 32 x != x)

/-- The two's complement reading of a register. -/
def s32 (a : Nat) : Int := sx 32 a

/-- A shift left with saturation (R198). -/
def shlSat (a n : Nat) : Nat × Bool :=
  if a = 0 then (0, false)
  else if 32 ≤ n then (if s32 a < 0 then 2 ^ 31 else 2 ^ 31 - 1, true)
  else sat32 (s32 a * 2 ^ n)

/-- The result of a two-operand operation and whether it sets SAT (R198). -/
def alu (f : AluOp) (a b : Nat) : Nat × Bool :=
  match f with
  | .mov => (a, false)
  | .neg => sat32 (-(s32 a))
  | .abs => sat32 (if s32 a < 0 then -(s32 a) else s32 a)
  | .not => (a ^^^ 0xFFFFFFFF, false)
  | .add => ((a + b) % 2 ^ 32, false)
  | .adds => sat32 (s32 a + s32 b)
  | .sub => ((2 ^ 32 + a - b) % 2 ^ 32, false)
  | .subs => sat32 (s32 a - s32 b)
  | .and => (a &&& b, false)
  | .or => (a ||| b, false)
  | .xor => (a ^^^ b, false)
  | .andn => (a &&& (b ^^^ 0xFFFFFFFF), false)
  | .shl => (if 32 ≤ b then 0 else a * 2 ^ b % 2 ^ 32, false)
  | .shr => (if 32 ≤ b then 0 else a / 2 ^ b, false)
  | .sar => (pat 32 (floorDiv (s32 a) (2 ^ min b 31)), false)
  | .shls => shlSat a b
  | .min => (if s32 a ≤ s32 b then a else b, false)
  | .max => (if s32 a ≤ s32 b then b else a, false)
  | .minu => (min a b, false)
  | .maxu => (max a b, false)
  | .slt => (b2n (s32 a < s32 b), false)
  | .sltu => (b2n (a < b), false)
  | .mullo => (pat 32 (s32 a * s32 b), false)
  | .ror => ((a * 2 ^ (32 - b % 32) + a / 2 ^ (b % 32)) % 2 ^ 32, false)

/-- FLAGS with the condition flags of a compare of a with b (R196). -/
def flagsCmp (flags a b : Nat) : Nat :=
  let r := (2 ^ 32 + a - b) % 2 ^ 32
  let v := decide (s32 a - s32 b < -(2 ^ 31)) || decide (2 ^ 31 ≤ s32 a - s32 b)
  flags / 16 % 2 * 16 + b2n v * 8 + b2n (b ≤ a) * 4 + b2n (r = 0) * 2 + b2n (2 ^ 31 ≤ r)

/-- FLAGS after TST: N and Z from the conjunction, C 0; V stays that of the last compare (R196, R207). -/
def flagsTst (flags a b : Nat) : Nat :=
  let r := a &&& b
  flags / 8 % 4 * 8 + b2n (r = 0) * 2 + b2n (2 ^ 31 ≤ r)

/-- A condition of R197 on FLAGS. -/
def condHolds (flags c : Nat) : Bool :=
  let n := bitAt flags 0
  let z := bitAt flags 1
  let cy := bitAt flags 2
  let v := bitAt flags 3
  let st := bitAt flags 4
  match c with
  | 0 => z
  | 1 => !z
  | 2 => n != v
  | 3 => n == v
  | 4 => !z && n == v
  | 5 => z || n != v
  | 6 => !cy
  | 7 => cy
  | 8 => n
  | 9 => !n
  | 10 => v
  | 11 => !v
  | 12 => st
  | 13 => !st
  | _ => true

/-- SATS: a held to the range of n (R198). -/
def satsTo (a n : Nat) : Nat × Bool :=
  let r := clampI (-(2 ^ n)) (2 ^ n - 1) (s32 a)
  (pat 32 r, r != s32 a)

/-- An accumulator held in 72 bits (R200). -/
def acc72 (x : Int) : Int := sx 72 (pat 72 x)

/-- The accumulator after MUL, MAC, MSU, MULU or MACU (R200). -/
def multiply (kind : Nat) (acc : Int) (a b : Nat) : Int :=
  match kind with
  | 0 => s32 a * s32 b
  | 1 => acc72 (acc + s32 a * s32 b)
  | 2 => acc72 (acc - s32 a * s32 b)
  | 3 => (a * b : Nat)
  | _ => acc72 (acc + (a * b : Nat))

/-- MFP (R201). -/
def moveFrom (acc : Int) (sh : Nat) (rnd sat : Bool) : Nat × Bool :=
  let v := if rnd then roundAwayDiv acc (2 ^ sh) else floorDiv acc (2 ^ sh)
  if sat then sat32 v else (pat 32 v, false)

/-- The quotient of a division by 0 (R199). -/
def byZero (a : Nat) : Nat × Bool := (if s32 a < 0 then 2 ^ 31 else 2 ^ 31 - 1, true)

/-- n / d rounded to the nearest, a tie away from zero, for any sign of d. -/
def roundQuot (n d : Int) : Int := if d < 0 then roundAwayDiv (-n) (-d) else roundAwayDiv n d

/-- The result of DIVS, DIVU, DIVQ, REMS or REMU (R199). -/
def divide (kind a b : Nat) : Nat × Bool :=
  match kind with
  | 0 => if b = 0 then byZero a else sat32 (Int.tdiv (s32 a) (s32 b))
  | 1 => if b = 0 then (2 ^ 32 - 1, true) else (a / b, false)
  | 2 => if b = 0 then byZero a else sat32 (roundQuot (s32 a * 2 ^ 31) (s32 b))
  | 3 => if b = 0 then (a, true) else (pat 32 (Int.tmod (s32 a) (s32 b)), false)
  | _ => if b = 0 then (a, true) else (a % b, false)

/-- floor of the square root of x, found bit by bit from bit n - 1 down. -/
def rootFrom : Nat → Nat → Nat → Nat
  | 0, _, r => r
  | n + 1, x, r => rootFrom n x (if (r + 2 ^ n) * (r + 2 ^ n) ≤ x then r + 2 ^ n else r)

/-- SQRTU or SQRTQ (R199). The square root of an integer is never halfway between two integers. -/
def squareRoot (kind a : Nat) : Nat × Bool :=
  if kind = 0 then (rootFrom 16 a 0, false)
  else if s32 a < 0 then (0, true)
  else
    let x := a * 2 ^ 31
    let r := rootFrom 32 x 0
    (if r * r + r < x then r + 1 else r, false)

end Sys2Proof.Machine
end

