-- ==== Sys2Proof/Config.lean ====
section
/-! DEFINITION. What the spec leaves to the device at hand or leaves open: trimmed and fused values, the results of the
cryptographic units, and the free values, each a constant with no body, so that nothing can be proved of its value. -/

namespace Sys2Proof.Config

/-- The free value taken n-th: a word the spec gives no value for. (DESIGN CHOICE, log 7) -/
opaque freeWord (n : Nat) : BitVec 32

/-- AD_CHKREF.EXP of quire q, set by trim (R144). (DESIGN CHOICE, log 7) -/
opaque trimRef (q : Nat) : BitVec 16

/-- Spare rows that manufacturing fuses assign in bank k (R305). (DESIGN CHOICE, log 7) -/
opaque fuseRows (k : Nat) : BitVec 4

/-- The codeword that holds a lifetime record of the given operating hours and power-cycle count (R19, R310): byte i.
(DEDUCED, log 97) -/
opaque lifetimeByte (hrs pcc i : Nat) : BitVec 8

/-- The codeword that holds an entry of the RAS table: a retired page, or a soft spare row, of a bank (R304, R305,
R312): byte i. (DEDUCED, log 97) -/
opaque rasByte (row : Bool) (bank unit i : Nat) : BitVec 8

/-- A record set of the given contents, sequence number and ER_LOG.NEXT (R291, R312): byte i. (DEDUCED, log 86, 97) -/
opaque setByte (cells : List (Nat × BitVec 8)) (seq next i : Nat) : BitVec 8

/-- The codeword that holds a change of the directory record of a target and instance, whose fields are given (R344):
byte i. (DEDUCED, log 97) -/
opaque dirByte (key : Nat) (fields : List Nat) (i : Nat) : BitVec 8

/-- SHA3-512 (R347): byte i of the digest of a message. (DESIGN CHOICE, log 134) -/
opaque sha3Byte (msg : List Nat) (i : Nat) : BitVec 8

/-- ML-DSA-87 verification, pure with an empty context string (R347): whether the signature verifies. (DESIGN CHOICE,
log 134) -/
opaque mldsaVerify (key msg sig : List Nat) : Bool

/-- The device secret of the OTP, 256 bits (R348): byte i. (DEDUCED, log 231) -/
opaque deviceSecret (i : Nat) : BitVec 8

/-- ML-DSA-87 KeyGen (R354): byte i of the public key that a seed gives. (DESIGN CHOICE, log 134) -/
opaque mldsaPublic (seed : List Nat) (i : Nat) : BitVec 8

/-- ML-DSA-87 signing, pure with an empty context string (R351, R355): byte i of the n-th signature, of a message, by
the key that a seed gives. (DESIGN CHOICE, log 134) -/
opaque mldsaSign (seed : List Nat) (n : Nat) (msg : List Nat) (i : Nat) : BitVec 8

/-- What manufacture wrote to the sectors of the golden image and of the certificate (R343): the byte at physical
sector x 4,096 + offset. (DEDUCED, log 231) -/
opaque factoryByte (o : Nat) : BitVec 8

/-- The vendor root-key digests (R348): byte i of slot k. (DESIGN CHOICE, log 134) -/
opaque rootByte (k i : Nat) : BitVec 8

/-- The enterprise number that the Foreman image of a digest sets (R320, R342). (DESIGN CHOICE, log 7) -/
opaque ianaOf (digest : List Nat) : BitVec 32

/-- The snapshot format that the Foreman image of a digest writes (R361). (DESIGN CHOICE, log 142) -/
opaque snapFormat (digest : List Nat) : BitVec 16

/-- The length and byte i of snapshot n, whose layout R361 does not give. (DESIGN CHOICE, log 142) -/
opaque snapLen (n : Nat) : BitVec 17
/-- DESIGN CHOICE, log 142. -/
opaque snapByte (n i : Nat) : BitVec 8

/-- A message's signature verifies under the owner key whose SHA3-512 digest the owner slot holds (R326, R348).
(DESIGN CHOICE, log 111) -/
opaque ownerVerify (digest msg sig : List Nat) : Bool

/-- Random bytes of the Foreman (R326): byte i of the n-th draw. (DESIGN CHOICE, log 134) -/
opaque randomByte (n i : Nat) : BitVec 8

/-- The payload of a response whose layout the spec does not give (R329): byte i of the packing of the stated values
for an opcode, and its length. (DESIGN CHOICE, log 108) -/
opaque packByte (op : Nat) (values : List Int) (i : Nat) : BitVec 8
/-- DESIGN CHOICE, log 108. -/
opaque packLen (op : Nat) (values : List Int) : BitVec 12

/-- The provisioned ID, 48 bits, and the two characteristics registers of the host I3C target (R317). (DESIGN CHOICE,
log 118) -/
opaque i3cPid : BitVec 48
/-- DESIGN CHOICE, log 118. -/
opaque i3cBcr : BitVec 8
/-- DESIGN CHOICE, log 118. -/
opaque i3cDcr : BitVec 8

/-- The maximum data speed bytes of the host I3C target (R317): byte i of two. (DESIGN CHOICE, log 118) -/
opaque i3cMxds (i : Nat) : BitVec 8

/-- The MCTP versions the endpoint supports, and the number its vendor set carries (R320): bytes i of four and of two.
(PRESUMED, log 124) -/
opaque mctpVersion (i : Nat) : BitVec 8
/-- PRESUMED, log 124. -/
opaque mctpVendorSet (i : Nat) : BitVec 8

end Sys2Proof.Config
end

