-- ==== Sys2Proof/Machine/RegMap.lean ====
section
/-! DEFINITION. The register map of the device, written from the register tables of the spec (R73, R74, R95, R122, R144,
R145, R171, R172, R186, R221, R236, R274, R294, R295, R314, R315, R342, R365, R389, R405, R406). Reg.<NAME> is the spine
address of a register (R33-R35), Fld.<NAME>_<FIELD> the bit range of one of its fields, and each row of a block's table
gives the reset value and the bits a write sets (RW), clears (W1C) or sets until SC_LOCK (RWL). -/

namespace Sys2Proof.Machine

/-- Spine address of block b (0 LU_ to 7 SB_, in the order of R34) of quire q. -/
def quireBlock (q b : Nat) : Nat := 0x10800000 + 0x10000 * b + 0x01000000 * q

namespace Reg

/-! TB_ registers. -/

/-- TB_NS_LO (R406). -/
def TB_NS_LO : Nat := 0x30000000
/-- TB_NS_HI (R406). -/
def TB_NS_HI : Nat := 0x30000004
/-- TB_HRS_LO (R406). -/
def TB_HRS_LO : Nat := 0x30000010
/-- TB_HRS_HI (R406). -/
def TB_HRS_HI : Nat := 0x30000014
/-- TB_PCC (R406). -/
def TB_PCC : Nat := 0x30000018
/-- TB_STAT (R406). -/
def TB_STAT : Nat := 0x30000008
/-- TB_QTICK (R406). -/
def TB_QTICK (a : Nat) : Nat := 0x30000100 + 0x4 * a
/-! FM_ registers. -/

/-- FM_CTRL (R389). -/
def FM_CTRL : Nat := 0x30010000
/-- FM_STAT (R389). -/
def FM_STAT : Nat := 0x30010004
/-- FM_DEGR (R389). -/
def FM_DEGR : Nat := 0x30010008
/-- FM_ACK (R389). -/
def FM_ACK : Nat := 0x3001000c
/-- FM_RECOVERIES (R389). -/
def FM_RECOVERIES : Nat := 0x30010010
/-- FM_CCNT (R389). -/
def FM_CCNT : Nat := 0x30010014
/-- FM_UCNT (R389). -/
def FM_UCNT : Nat := 0x30010018
/-- FM_FCNT (R389). -/
def FM_FCNT : Nat := 0x3001001c
/-- FM_Q (R389). -/
def FM_Q : Nat := 0x30010020
/-- FM_QDROP (R389). -/
def FM_QDROP : Nat := 0x30010024
/-- FM_LOGDROP (R389). -/
def FM_LOGDROP : Nat := 0x30010028
/-- FM_QREC (R389). -/
def FM_QREC (a : Nat) : Nat := 0x30010040 + 0x4 * a
/-- FM_FEC_ADDR_LO (R389). -/
def FM_FEC_ADDR_LO : Nat := 0x30010060
/-- FM_FEC_ADDR_HI (R389). -/
def FM_FEC_ADDR_HI : Nat := 0x30010064
/-- FM_FEC_TB_LO (R389). -/
def FM_FEC_TB_LO : Nat := 0x3001006c
/-- FM_FEC_TB_HI (R389). -/
def FM_FEC_TB_HI : Nat := 0x30010070
/-- FM_FEC_HRS_LO (R389). -/
def FM_FEC_HRS_LO : Nat := 0x30010074
/-- FM_FEC_HRS_HI (R389). -/
def FM_FEC_HRS_HI : Nat := 0x30010078
/-- FM_FEC_PCC (R389). -/
def FM_FEC_PCC : Nat := 0x3001007c
/-- FM_FEC_MORE (R389). -/
def FM_FEC_MORE : Nat := 0x30010080
/-- FM_FEC_INFO (R389). -/
def FM_FEC_INFO : Nat := 0x30010068
/-- FM_FEC_CLR (R389). -/
def FM_FEC_CLR : Nat := 0x30010084
/-- FM_WDOG (R389). -/
def FM_WDOG : Nat := 0x30010090
/-- FM_WDCFG (R389). -/
def FM_WDCFG : Nat := 0x30010094
/-- FM_LATCHOK (R389). -/
def FM_LATCHOK : Nat := 0x300100a0
/-- FM_TRIP (R389). -/
def FM_TRIP : Nat := 0x300100a4
/-- FM_DISQ (R389). -/
def FM_DISQ : Nat := 0x300100b0
/-- FM_SHUTCAUSE (R389). -/
def FM_SHUTCAUSE : Nat := 0x300100b4
/-- FM_CMD (R389). -/
def FM_CMD : Nat := 0x300100c0
/-- FM_AVCOND (R389). -/
def FM_AVCOND : Nat := 0x300100c4
/-- FM_AVUN (R389). -/
def FM_AVUN (a : Nat) : Nat := 0x30010100 + 0x4 * a
/-! ER_ registers. -/

/-- ER_CTRL (R295). -/
def ER_CTRL : Nat := 0x30020000
/-- ER_CMD (R295). -/
def ER_CMD : Nat := 0x30020004
/-- ER_STAT (R295). -/
def ER_STAT : Nat := 0x30020008
/-- ER_LOG (R295). -/
def ER_LOG : Nat := 0x3002000c
/-- ER_FRZMISS (R295). -/
def ER_FRZMISS : Nat := 0x30020010
/-- ER_CSEQ (R295). -/
def ER_CSEQ : Nat := 0x30020014
/-- ER_CH (R295). -/
def ER_CH (a : Nat) : Nat := 0x30020100 + 0x10 * a
/-- ER_BASE (R295). -/
def ER_BASE (a : Nat) : Nat := 0x30020104 + 0x10 * a
/-- ER_XLO (R295). -/
def ER_XLO (a : Nat) : Nat := 0x30020108 + 0x10 * a
/-- ER_XHI (R295). -/
def ER_XHI (a : Nat) : Nat := 0x3002010c + 0x10 * a
/-! SM_ registers. -/

/-- SM_MODE (R405). -/
def SM_MODE : Nat := 0x30030000
/-- SM_VCORE (R405). -/
def SM_VCORE : Nat := 0x30030004
/-- SM_VIO (R405). -/
def SM_VIO : Nat := 0x30030008
/-- SM_VAUX (R405). -/
def SM_VAUX : Nat := 0x3003000c
/-- SM_SHEDCFG (R405). -/
def SM_SHEDCFG : Nat := 0x30030010
/-- SM_SEQCMD (R405). -/
def SM_SEQCMD : Nat := 0x30030020
/-- SM_SEQMASK (R405). -/
def SM_SEQMASK : Nat := 0x30030024
/-- SM_SEQSTAT (R405). -/
def SM_SEQSTAT : Nat := 0x30030028
/-- SM_SEQHDR (R405). -/
def SM_SEQHDR : Nat := 0x30030030
/-- SM_PGIN (R405). -/
def SM_PGIN : Nat := 0x30030040
/-- SM_SPDCFG (R405). -/
def SM_SPDCFG : Nat := 0x30030050
/-- SM_SEQ0 (R405). -/
def SM_SEQ0 (a : Nat) : Nat := 0x30030100 + 0x8 * a
/-- SM_SEQ1 (R405). -/
def SM_SEQ1 (a : Nat) : Nat := 0x30030104 + 0x8 * a
/-- SM_SPD (R405). -/
def SM_SPD (a : Nat) : Nat := 0x30030200 + 0x4 * a
/-! VB_ registers. -/

/-- VB_EVT (R186). -/
def VB_EVT : Nat := 0x30040000
/-- VB_CFG (R186). -/
def VB_CFG (a : Nat) : Nat := 0x30040100 + 0x40 * a
/-- VB_RAILS (R186). -/
def VB_RAILS (a : Nat) : Nat := 0x30040104 + 0x40 * a
/-- VB_CMD (R186). -/
def VB_CMD (a : Nat) : Nat := 0x30040108 + 0x40 * a
/-- VB_STAT (R186). -/
def VB_STAT (a : Nat) : Nat := 0x3004010c + 0x40 * a
/-- VB_SLOT (R186). -/
def VB_SLOT (a b : Nat) : Nat := 0x30040110 + 0x40 * a + 0x4 * b
/-- VB_ERR (R186). -/
def VB_ERR (a : Nat) : Nat := 0x30040130 + 0x40 * a
/-- VB_JCNT (R186). -/
def VB_JCNT (a : Nat) : Nat := 0x30040134 + 0x40 * a
/-- VB_HINTS (R186). -/
def VB_HINTS (a : Nat) : Nat := 0x30040138 + 0x40 * a
/-! MB_ registers. -/

/-- MB_HDB (R342). -/
def MB_HDB : Nat := 0x30050000
/-- MB_HRDY (R342). -/
def MB_HRDY : Nat := 0x30050004
/-- MB_HAEN (R342). -/
def MB_HAEN : Nat := 0x30050008
/-- MB_HSTAT (R342). -/
def MB_HSTAT : Nat := 0x3005000c
/-- MB_HWABORT (R342). -/
def MB_HWABORT : Nat := 0x30050010
/-- MB_HWASTAT (R342). -/
def MB_HWASTAT : Nat := 0x30050014
/-- MB_STRWP (R342). -/
def MB_STRWP : Nat := 0x30050018
/-- MB_FPOST (R342). -/
def MB_FPOST : Nat := 0x30050020
/-- MB_FREQ (R342). -/
def MB_FREQ : Nat := 0x30050024
/-- MB_CFG (R342). -/
def MB_CFG : Nat := 0x30050028
/-- MB_SESS (R342). -/
def MB_SESS (a : Nat) : Nat := 0x30050100 + 0x4 * a
/-- MB_I3CCFG (R342). -/
def MB_I3CCFG : Nat := 0x30050200
/-- MB_SMBCFG (R342). -/
def MB_SMBCFG : Nat := 0x30050204
/-- MB_SPICFG (R342). -/
def MB_SPICFG : Nat := 0x30050208
/-- MB_MCTPCFG (R342). -/
def MB_MCTPCFG : Nat := 0x3005020c
/-- MB_MCTPEID (R342). -/
def MB_MCTPEID : Nat := 0x30050210
/-- MB_CNT (R342). -/
def MB_CNT : Nat := 0x30050214
/-! NV_ registers. -/

/-- NV_CMD (R315). -/
def NV_CMD : Nat := 0x30060000
/-- NV_SRC (R315). -/
def NV_SRC : Nat := 0x30060004
/-- NV_SPAN (R315). -/
def NV_SPAN : Nat := 0x30060008
/-- NV_CMDST (R315). -/
def NV_CMDST : Nat := 0x3006000c
/-- NV_STAT (R315). -/
def NV_STAT : Nat := 0x30060010
/-- NV_WMAX (R315). -/
def NV_WMAX : Nat := 0x30060014
/-- NV_WMIN (R315). -/
def NV_WMIN : Nat := 0x30060018
/-- NV_ECC (R315). -/
def NV_ECC : Nat := 0x3006001c
/-- NV_CFG (R315). -/
def NV_CFG : Nat := 0x30060020
/-! SC_ registers. -/

/-- SC_LOCK (R365). -/
def SC_LOCK : Nat := 0x30070000
/-- SC_POLICY (R365). -/
def SC_POLICY : Nat := 0x30070004
/-- SC_OTP (R365). -/
def SC_OTP : Nat := 0x30070008
/-- SC_CMD (R365). -/
def SC_CMD : Nat := 0x30070010
/-- SC_CMDST (R365). -/
def SC_CMDST : Nat := 0x30070014
/-- SC_JOB (R365). -/
def SC_JOB : Nat := 0x30070020
/-- SC_JSRC (R365). -/
def SC_JSRC : Nat := 0x30070024
/-- SC_JLEN (R365). -/
def SC_JLEN : Nat := 0x30070028
/-- SC_JKEY (R365). -/
def SC_JKEY : Nat := 0x3007002c
/-- SC_JSIG (R365). -/
def SC_JSIG : Nat := 0x30070030
/-- SC_JDST (R365). -/
def SC_JDST : Nat := 0x30070034
/-- SC_ROOT (R365). -/
def SC_ROOT (a b : Nat) : Nat := 0x30070100 + 0x40 * a + 0x4 * b
/-- SC_OWNER (R365). -/
def SC_OWNER (a : Nat) : Nat := 0x30070200 + 0x4 * a
/-- SC_DATA (R365). -/
def SC_DATA (a : Nat) : Nat := 0x30070240 + 0x4 * a
/-- SC_FMMEAS (R365). -/
def SC_FMMEAS (a : Nat) : Nat := 0x30070280 + 0x4 * a
/-! MR_ registers. -/

/-- MR_CTRL (R314). -/
def MR_CTRL : Nat := 0x30080000
/-- MR_SCSTAT (R314). -/
def MR_SCSTAT : Nat := 0x30080004
/-- MR_ELOG (R314). -/
def MR_ELOG : Nat := 0x30080010
/-- MR_ELOGA (R314). -/
def MR_ELOGA : Nat := 0x30080014
/-- MR_CMD (R314). -/
def MR_CMD : Nat := 0x30080020
/-- MR_CMDST (R314). -/
def MR_CMDST : Nat := 0x30080024
/-- MR_MIGADDR (R314). -/
def MR_MIGADDR : Nat := 0x30080028
/-- MR_BSTAT (R314). -/
def MR_BSTAT (a : Nat) : Nat := 0x30080100 + 0x4 * a
/-- MR_GRAN (R314). -/
def MR_GRAN (a : Nat) : Nat := 0x30080400 + 0x4 * a
/-! RT_ registers. -/

/-- RT_CMD (R73). -/
def RT_CMD : Nat := 0x30090000
/-- RT_CMDSTAT (R73). -/
def RT_CMDSTAT : Nat := 0x30090004
/-- RT_CFG (R73). -/
def RT_CFG (a : Nat) : Nat := 0x30091000 + 0x100 * a
/-- RT_MEMB (R73). -/
def RT_MEMB (a b : Nat) : Nat := 0x30091010 + 0x100 * a + 0x4 * b
/-- RT_VREF (R73). -/
def RT_VREF (a : Nat) : Nat := 0x30091020 + 0x100 * a
/-- RT_LL (R73). -/
def RT_LL (a : Nat) : Nat := 0x30091024 + 0x100 * a
/-- RT_PERIOD (R73). -/
def RT_PERIOD (a : Nat) : Nat := 0x30091028 + 0x100 * a
/-- RT_ILIM (R73). -/
def RT_ILIM (a : Nat) : Nat := 0x3009102c + 0x100 * a
/-- RT_PHLIM (R73). -/
def RT_PHLIM (a : Nat) : Nat := 0x30091030 + 0x100 * a
/-- RT_NPH (R73). -/
def RT_NPH (a : Nat) : Nat := 0x30091034 + 0x100 * a
/-- RT_ADAPT (R73). -/
def RT_ADAPT (a : Nat) : Nat := 0x30091038 + 0x100 * a
/-- RT_PGOOD (R73). -/
def RT_PGOOD (a : Nat) : Nat := 0x3009103c + 0x100 * a
/-- RT_STATE (R73). -/
def RT_STATE (a : Nat) : Nat := 0x30091080 + 0x100 * a
/-- RT_APPLIED (R73). -/
def RT_APPLIED (a : Nat) : Nat := 0x30091084 + 0x100 * a
/-- RT_MISS (R73). -/
def RT_MISS (a : Nat) : Nat := 0x30091088 + 0x100 * a
/-- RT_OPPOSE (R73). -/
def RT_OPPOSE (a : Nat) : Nat := 0x3009108c + 0x100 * a
/-- RT_ILIMCNT (R73). -/
def RT_ILIMCNT (a : Nat) : Nat := 0x30091090 + 0x100 * a
/-! LU_ registers. -/

/-- LU_CTRL (R74). -/
def LU_CTRL (q : Nat) : Nat := 0x0 + quireBlock q 0
/-- LU_DEADLINE (R74). -/
def LU_DEADLINE (q : Nat) : Nat := 0x8 + quireBlock q 0
/-- LU_VINCAL (R74). -/
def LU_VINCAL (q : Nat) : Nat := 0xc + quireBlock q 0
/-- LU_VIN (R74). -/
def LU_VIN (q : Nat) : Nat := 0x10 + quireBlock q 0
/-- LU_RCTRL (R74). -/
def LU_RCTRL (q a : Nat) : Nat := 0x100 + 0x100 * a + quireBlock q 0
/-- LU_RSTAT (R74). -/
def LU_RSTAT (q a : Nat) : Nat := 0x104 + 0x100 * a + quireBlock q 0
/-- LU_CERR (R74). -/
def LU_CERR (q a : Nat) : Nat := 0x108 + 0x100 * a + quireBlock q 0
/-- LU_IFS (R74). -/
def LU_IFS (q a : Nat) : Nat := 0x110 + 0x100 * a + quireBlock q 0
/-- LU_IHI (R74). -/
def LU_IHI (q a : Nat) : Nat := 0x118 + 0x100 * a + quireBlock q 0
/-- LU_ILO (R74). -/
def LU_ILO (q a : Nat) : Nat := 0x11c + 0x100 * a + quireBlock q 0
/-- LU_CSEL (R74). -/
def LU_CSEL (q a : Nat) : Nat := 0x120 + 0x100 * a + quireBlock q 0
/-- LU_CSIDX (R74). -/
def LU_CSIDX (q a : Nat) : Nat := 0x124 + 0x100 * a + quireBlock q 0
/-- LU_COEF (R74). -/
def LU_COEF (q a b c : Nat) : Nat := 0x400 + 0x100 * a + 0x40 * b + 0x4 * c + quireBlock q 0
/-- LU_LMB_NEW (R74). -/
def LU_LMB_NEW (q a : Nat) : Nat := 0x600 + 0x100 * a + quireBlock q 0
/-- LU_LMB_IDX (R74). -/
def LU_LMB_IDX (q a b : Nat) : Nat := 0x620 + 0x100 * a + 0x20 * b + quireBlock q 0
/-- LU_LMB_ERR (R74). -/
def LU_LMB_ERR (q a b : Nat) : Nat := 0x624 + 0x100 * a + 0x20 * b + quireBlock q 0
/-- LU_LMB_U (R74). -/
def LU_LMB_U (q a b : Nat) : Nat := 0x628 + 0x100 * a + 0x20 * b + quireBlock q 0
/-- LU_LMB_IFF (R74). -/
def LU_LMB_IFF (q a b : Nat) : Nat := 0x62c + 0x100 * a + 0x20 * b + quireBlock q 0
/-- LU_LMB_ITOT (R74). -/
def LU_LMB_ITOT (q a b : Nat) : Nat := 0x630 + 0x100 * a + 0x20 * b + quireBlock q 0
/-- LU_LMB_CORR (R74). -/
def LU_LMB_CORR (q a : Nat) : Nat := 0x6a0 + 0x100 * a + quireBlock q 0
/-- LU_LMB_TAG (R74). -/
def LU_LMB_TAG (q a : Nat) : Nat := 0x6a4 + 0x100 * a + quireBlock q 0
/-- LU_LMB_NOP (R74). -/
def LU_LMB_NOP (q a : Nat) : Nat := 0x6a8 + 0x100 * a + quireBlock q 0
/-- LU_MBR_CFG (R74). -/
def LU_MBR_CFG (q a b : Nat) : Nat := 0x1000 + 0x400 * a + 0x10 * b + quireBlock q 0
/-- LU_MBR_WEAR (R74). -/
def LU_MBR_WEAR (q a b : Nat) : Nat := 0x1004 + 0x400 * a + 0x10 * b + quireBlock q 0
/-- LU_MBR_STAT (R74). -/
def LU_MBR_STAT (q a b : Nat) : Nat := 0x1008 + 0x400 * a + 0x10 * b + quireBlock q 0
/-- LU_PH_L (R74). -/
def LU_PH_L (q a : Nat) : Nat := 0x2000 + 0x10 * a + quireBlock q 0
/-- LU_PH_ONLIM (R74). -/
def LU_PH_ONLIM (q a : Nat) : Nat := 0x2004 + 0x10 * a + quireBlock q 0
/-- LU_PH_STAT (R74). -/
def LU_PH_STAT (q a : Nat) : Nat := 0x2008 + 0x10 * a + quireBlock q 0
/-- LU_PH_ON (R74). -/
def LU_PH_ON (q a : Nat) : Nat := 0x200c + 0x10 * a + quireBlock q 0
/-- LU_BURST (R95). -/
def LU_BURST (q a : Nat) : Nat := 0x180 + 0x100 * a + quireBlock q 0
/-- LU_BURST_SW (R95). -/
def LU_BURST_SW (q a : Nat) : Nat := 0x184 + 0x100 * a + quireBlock q 0
/-- LU_BURST_STAT (R95). -/
def LU_BURST_STAT (q a : Nat) : Nat := 0x188 + 0x100 * a + quireBlock q 0
/-- LU_BURST_CNT (R95). -/
def LU_BURST_CNT (q a : Nat) : Nat := 0x18c + 0x100 * a + quireBlock q 0
/-- LU_BURST_IDX (R95). -/
def LU_BURST_IDX (q a : Nat) : Nat := 0x190 + 0x100 * a + quireBlock q 0
/-- LU_BURST_TB (R95). -/
def LU_BURST_TB (q a : Nat) : Nat := 0x194 + 0x100 * a + quireBlock q 0
/-- LU_IM_CTRL (R95). -/
def LU_IM_CTRL (q a : Nat) : Nat := 0x800 + 0x200 * a + quireBlock q 0
/-- LU_IM_LIMIT (R95). -/
def LU_IM_LIMIT (q a : Nat) : Nat := 0x804 + 0x200 * a + quireBlock q 0
/-- LU_IM_STAT (R95). -/
def LU_IM_STAT (q a : Nat) : Nat := 0x808 + 0x200 * a + quireBlock q 0
/-- LU_IM_CNT (R95). -/
def LU_IM_CNT (q a : Nat) : Nat := 0x80c + 0x200 * a + quireBlock q 0
/-- LU_IM_OPPOSE (R95). -/
def LU_IM_OPPOSE (q a : Nat) : Nat := 0x810 + 0x200 * a + quireBlock q 0
/-- LU_IM_IFF (R95). -/
def LU_IM_IFF (q a : Nat) : Nat := 0x814 + 0x200 * a + quireBlock q 0
/-- LU_IM_OUTNEW (R95). -/
def LU_IM_OUTNEW (q a : Nat) : Nat := 0x818 + 0x200 * a + quireBlock q 0
/-- LU_IM_CLRCNT (R95). -/
def LU_IM_CLRCNT (q a : Nat) : Nat := 0x81c + 0x200 * a + quireBlock q 0
/-- LU_IM_PART (R95). -/
def LU_IM_PART (q a b : Nat) : Nat := 0x840 + 0x200 * a + 0x4 * b + quireBlock q 0
/-- LU_IM_TRUST (R95). -/
def LU_IM_TRUST (q a b : Nat) : Nat := 0x880 + 0x200 * a + 0x4 * b + quireBlock q 0
/-- LU_IM_OUT_SEQ (R95). -/
def LU_IM_OUT_SEQ (q a b : Nat) : Nat := 0x900 + 0x200 * a + 0x10 * b + quireBlock q 0
/-- LU_IM_OUT_FLAGS (R95). -/
def LU_IM_OUT_FLAGS (q a b : Nat) : Nat := 0x904 + 0x200 * a + 0x10 * b + quireBlock q 0
/-- LU_IM_OUT_STEP (R95). -/
def LU_IM_OUT_STEP (q a b : Nat) : Nat := 0x908 + 0x200 * a + 0x10 * b + quireBlock q 0
/-- LU_IM_OUT_KSTEP (R95). -/
def LU_IM_OUT_KSTEP (q a b : Nat) : Nat := 0x90c + 0x200 * a + 0x10 * b + quireBlock q 0
/-! PW_ registers. -/

/-- PW_LOADALL (R122). -/
def PW_LOADALL (q : Nat) : Nat := 0x0 + quireBlock q 1
/-- PW_CTRL (R122). -/
def PW_CTRL (q : Nat) : Nat := 0x4 + quireBlock q 1
/-- PW_TORN (R122). -/
def PW_TORN (q : Nat) : Nat := 0x8 + quireBlock q 1
/-- PW_EVTSEL (R122). -/
def PW_EVTSEL (q : Nat) : Nat := 0xc + quireBlock q 1
/-- PW_TLREF_LO (R122). -/
def PW_TLREF_LO (q : Nat) : Nat := 0x10 + quireBlock q 1
/-- PW_TLREF_HI (R122). -/
def PW_TLREF_HI (q : Nat) : Nat := 0x14 + quireBlock q 1
/-- PW_CAL (R122). -/
def PW_CAL (q : Nat) : Nat := 0x18 + quireBlock q 1
/-- PW_CALSWAP (R122). -/
def PW_CALSWAP (q : Nat) : Nat := 0x1c + quireBlock q 1
/-- PW_CFG (R122). -/
def PW_CFG (q a : Nat) : Nat := 0x100 + 0x80 * a + quireBlock q 1
/-- PW_PER_STG (R122). -/
def PW_PER_STG (q a : Nat) : Nat := 0x104 + 0x80 * a + quireBlock q 1
/-- PW_ON_STG (R122). -/
def PW_ON_STG (q a : Nat) : Nat := 0x108 + 0x80 * a + quireBlock q 1
/-- PW_OFS_STG (R122). -/
def PW_OFS_STG (q a : Nat) : Nat := 0x10c + 0x80 * a + quireBlock q 1
/-- PW_STGMASK (R122). -/
def PW_STGMASK (q a : Nat) : Nat := 0x110 + 0x80 * a + quireBlock q 1
/-- PW_PER (R122). -/
def PW_PER (q a : Nat) : Nat := 0x114 + 0x80 * a + quireBlock q 1
/-- PW_ON (R122). -/
def PW_ON (q a : Nat) : Nat := 0x118 + 0x80 * a + quireBlock q 1
/-- PW_OFS (R122). -/
def PW_OFS (q a : Nat) : Nat := 0x11c + 0x80 * a + quireBlock q 1
/-- PW_CNT (R122). -/
def PW_CNT (q a : Nat) : Nat := 0x120 + 0x80 * a + quireBlock q 1
/-- PW_REF_LO (R122). -/
def PW_REF_LO (q a : Nat) : Nat := 0x124 + 0x80 * a + quireBlock q 1
/-- PW_REF_HI (R122). -/
def PW_REF_HI (q a : Nat) : Nat := 0x128 + 0x80 * a + quireBlock q 1
/-- PW_DT (R122). -/
def PW_DT (q a : Nat) : Nat := 0x12c + 0x80 * a + quireBlock q 1
/-- PW_DTA (R122). -/
def PW_DTA (q a : Nat) : Nat := 0x130 + 0x80 * a + quireBlock q 1
/-- PW_DTCUR (R122). -/
def PW_DTCUR (q a : Nat) : Nat := 0x134 + 0x80 * a + quireBlock q 1
/-- PW_DTOPP (R122). -/
def PW_DTOPP (q a : Nat) : Nat := 0x138 + 0x80 * a + quireBlock q 1
/-- PW_TRIP (R122). -/
def PW_TRIP (q a : Nat) : Nat := 0x13c + 0x80 * a + quireBlock q 1
/-- PW_TCLR (R122). -/
def PW_TCLR (q a : Nat) : Nat := 0x140 + 0x80 * a + quireBlock q 1
/-- PW_TSTAT (R122). -/
def PW_TSTAT (q a : Nat) : Nat := 0x144 + 0x80 * a + quireBlock q 1
/-- PW_TSRC (R122). -/
def PW_TSRC (q a : Nat) : Nat := 0x148 + 0x80 * a + quireBlock q 1
/-- PW_TCNT (R122). -/
def PW_TCNT (q a : Nat) : Nat := 0x14c + 0x80 * a + quireBlock q 1
/-! AD_ registers. -/

/-- AD_CTRL (R144). -/
def AD_CTRL (q : Nat) : Nat := 0x0 + quireBlock q 2
/-- AD_SEQCMT (R144). -/
def AD_SEQCMT (q : Nat) : Nat := 0x4 + quireBlock q 2
/-- AD_SEQST (R144). -/
def AD_SEQST (q : Nat) : Nat := 0x8 + quireBlock q 2
/-- AD_CHK (R144). -/
def AD_CHK (q : Nat) : Nat := 0x10 + quireBlock q 2
/-- AD_CHKSTAT (R144). -/
def AD_CHKSTAT (q : Nat) : Nat := 0x14 + quireBlock q 2
/-- AD_CHKREF (R144). -/
def AD_CHKREF (q : Nat) : Nat := 0x18 + quireBlock q 2
/-- AD_SLIM (R144). -/
def AD_SLIM (q : Nat) : Nat := 0x1c + quireBlock q 2
/-- AD_AUXMAP (R144). -/
def AD_AUXMAP (q a : Nat) : Nat := 0x40 + 0x4 * a + quireBlock q 2
/-- AD_STAT (R144). -/
def AD_STAT (q a : Nat) : Nat := 0x100 + 0x100 * a + quireBlock q 2
/-- AD_HOLDS (R144). -/
def AD_HOLDS (q a : Nat) : Nat := 0x104 + 0x100 * a + quireBlock q 2
/-- AD_LEN (R144). -/
def AD_LEN (q a : Nat) : Nat := 0x108 + 0x100 * a + quireBlock q 2
/-- AD_SRET (R144). -/
def AD_SRET (q a : Nat) : Nat := 0x10c + 0x100 * a + quireBlock q 2
/-- AD_FCFG (R144). -/
def AD_FCFG (q a b : Nat) : Nat := 0x110 + 0x100 * a + 0x4 * b + quireBlock q 2
/-- AD_FOUT (R144). -/
def AD_FOUT (q a b : Nat) : Nat := 0x120 + 0x100 * a + 0x4 * b + quireBlock q 2
/-- AD_SEQ_STG (R144). -/
def AD_SEQ_STG (q a b : Nat) : Nat := 0x140 + 0x100 * a + 0x4 * b + quireBlock q 2
/-- AD_SEQ (R144). -/
def AD_SEQ (q a b : Nat) : Nat := 0x180 + 0x100 * a + 0x4 * b + quireBlock q 2
/-- AD_SCOR (R144). -/
def AD_SCOR (q a b : Nat) : Nat := 0x1c0 + 0x100 * a + 0x4 * b + quireBlock q 2
/-! WC_ registers. -/

/-- WC_CFG (R145). -/
def WC_CFG (q a : Nat) : Nat := 0x100 + 0x40 * a + quireBlock q 3
/-- WC_THR (R145). -/
def WC_THR (q a : Nat) : Nat := 0x104 + 0x40 * a + quireBlock q 3
/-- WC_CUR (R145). -/
def WC_CUR (q a : Nat) : Nat := 0x108 + 0x40 * a + quireBlock q 3
/-- WC_STAT (R145). -/
def WC_STAT (q a : Nat) : Nat := 0x10c + 0x40 * a + quireBlock q 3
/-- WC_CLR (R145). -/
def WC_CLR (q a : Nat) : Nat := 0x110 + 0x40 * a + quireBlock q 3
/-- WC_TRK (R145). -/
def WC_TRK (q a : Nat) : Nat := 0x114 + 0x40 * a + quireBlock q 3
/-- WC_TBND (R145). -/
def WC_TBND (q a : Nat) : Nat := 0x118 + 0x40 * a + quireBlock q 3
/-- WC_TBNDH (R145). -/
def WC_TBNDH (q a : Nat) : Nat := 0x11c + 0x40 * a + quireBlock q 3
/-- WC_TOPP (R145). -/
def WC_TOPP (q a : Nat) : Nat := 0x120 + 0x40 * a + quireBlock q 3
/-- WC_CNT (R145). -/
def WC_CNT (q a : Nat) : Nat := 0x124 + 0x40 * a + quireBlock q 3
/-- WC_PLAUS (R145). -/
def WC_PLAUS (q a : Nat) : Nat := 0x128 + 0x40 * a + quireBlock q 3
/-- WC_OCPCFG (R145). -/
def WC_OCPCFG (q a : Nat) : Nat := 0x800 + 0x20 * a + quireBlock q 3
/-- WC_OCPLIM (R145). -/
def WC_OCPLIM (q a : Nat) : Nat := 0x804 + 0x20 * a + quireBlock q 3
/-- WC_OCPSTAT (R145). -/
def WC_OCPSTAT (q a : Nat) : Nat := 0x808 + 0x20 * a + quireBlock q 3
/-- WC_OCPCNT (R145). -/
def WC_OCPCNT (q a : Nat) : Nat := 0x80c + 0x20 * a + quireBlock q 3
/-! PP_ registers. -/

/-- PP_CTRL (R171). -/
def PP_CTRL (q : Nat) : Nat := 0x0 + quireBlock q 4
/-- PP_NONCE (R171). -/
def PP_NONCE (q : Nat) : Nat := 0x4 + quireBlock q 4
/-- PP_CMD (R171). -/
def PP_CMD (q : Nat) : Nat := 0x8 + quireBlock q 4
/-- PP_CMDST (R171). -/
def PP_CMDST (q : Nat) : Nat := 0xc + quireBlock q 4
/-- PP_CFG (R171). -/
def PP_CFG (q a : Nat) : Nat := 0x100 + 0x40 * a + quireBlock q 4
/-- PP_STAT (R171). -/
def PP_STAT (q a : Nat) : Nat := 0x104 + 0x40 * a + quireBlock q 4
/-- PP_CUR (R171). -/
def PP_CUR (q a : Nat) : Nat := 0x108 + 0x40 * a + quireBlock q 4
/-- PP_TEMP (R171). -/
def PP_TEMP (q a : Nat) : Nat := 0x10c + 0x40 * a + quireBlock q 4
/-- PP_VIN (R171). -/
def PP_VIN (q a : Nat) : Nat := 0x110 + 0x40 * a + quireBlock q 4
/-- PP_SSTAT (R171). -/
def PP_SSTAT (q a : Nat) : Nat := 0x114 + 0x40 * a + quireBlock q 4
/-- PP_ERR (R171). -/
def PP_ERR (q a : Nat) : Nat := 0x118 + 0x40 * a + quireBlock q 4
/-- PP_LOSS (R171). -/
def PP_LOSS (q a : Nat) : Nat := 0x11c + 0x40 * a + quireBlock q 4
/-- PP_MISS (R171). -/
def PP_MISS (q a : Nat) : Nat := 0x120 + 0x40 * a + quireBlock q 4
/-! TM_ registers. -/

/-- TM_EVTF (R294). -/
def TM_EVTF (q a : Nat) : Nat := 0x0 + 0x4 * a + quireBlock q 5
/-- TM_EVTST (R294). -/
def TM_EVTST (q a : Nat) : Nat := 0x80 + 0x4 * a + quireBlock q 5
/-- TM_EVTCNT (R294). -/
def TM_EVTCNT (q a : Nat) : Nat := 0x100 + 0x4 * a + quireBlock q 5
/-- TM_OUTCFG (R294). -/
def TM_OUTCFG (q a : Nat) : Nat := 0x180 + 0x4 * a + quireBlock q 5
/-- TM_CFG (R294). -/
def TM_CFG (q a : Nat) : Nat := 0x200 + 0x80 * a + quireBlock q 5
/-- TM_IEN (R294). -/
def TM_IEN (q a : Nat) : Nat := 0x204 + 0x80 * a + quireBlock q 5
/-- TM_STAT (R294). -/
def TM_STAT (q a : Nat) : Nat := 0x208 + 0x80 * a + quireBlock q 5
/-- TM_CMD (R294). -/
def TM_CMD (q a : Nat) : Nat := 0x20c + 0x80 * a + quireBlock q 5
/-- TM_CNT_LO (R294). -/
def TM_CNT_LO (q a : Nat) : Nat := 0x210 + 0x80 * a + quireBlock q 5
/-- TM_CNT_HI (R294). -/
def TM_CNT_HI (q a : Nat) : Nat := 0x214 + 0x80 * a + quireBlock q 5
/-- TM_RLD_LO (R294). -/
def TM_RLD_LO (q a : Nat) : Nat := 0x218 + 0x80 * a + quireBlock q 5
/-- TM_RLD_HI (R294). -/
def TM_RLD_HI (q a : Nat) : Nat := 0x21c + 0x80 * a + quireBlock q 5
/-- TM_CMPSET_LO (R294). -/
def TM_CMPSET_LO (q a : Nat) : Nat := 0x220 + 0x80 * a + quireBlock q 5
/-- TM_CMPSET_HI (R294). -/
def TM_CMPSET_HI (q a : Nat) : Nat := 0x224 + 0x80 * a + quireBlock q 5
/-- TM_CMPCUR_LO (R294). -/
def TM_CMPCUR_LO (q a : Nat) : Nat := 0x228 + 0x80 * a + quireBlock q 5
/-- TM_CMPCUR_HI (R294). -/
def TM_CMPCUR_HI (q a : Nat) : Nat := 0x22c + 0x80 * a + quireBlock q 5
/-- TM_INT (R294). -/
def TM_INT (q a : Nat) : Nat := 0x230 + 0x80 * a + quireBlock q 5
/-- TM_CAPPOP (R294). -/
def TM_CAPPOP (q a : Nat) : Nat := 0x234 + 0x80 * a + quireBlock q 5
/-- TM_CAPV_LO (R294). -/
def TM_CAPV_LO (q a : Nat) : Nat := 0x238 + 0x80 * a + quireBlock q 5
/-- TM_CAPV_HI (R294). -/
def TM_CAPV_HI (q a : Nat) : Nat := 0x23c + 0x80 * a + quireBlock q 5
/-- TM_CAPE (R294). -/
def TM_CAPE (q a : Nat) : Nat := 0x240 + 0x80 * a + quireBlock q 5
/-! BD_ registers. -/

/-- BD_ESTAT (R221). -/
def BD_ESTAT (q a : Nat) : Nat := 0x4000 + 0x100 * a + quireBlock q 6
/-- BD_ECTL (R221). -/
def BD_ECTL (q a : Nat) : Nat := 0x4004 + 0x100 * a + quireBlock q 6
/-- BD_EPC (R221). -/
def BD_EPC (q a : Nat) : Nat := 0x4008 + 0x100 * a + quireBlock q 6
/-- BD_RGN_BASE (R221). -/
def BD_RGN_BASE (q a b : Nat) : Nat := 0x4040 + 0x100 * a + 0x8 * b + quireBlock q 6
/-- BD_RGN_ATTR (R221). -/
def BD_RGN_ATTR (q a b : Nat) : Nat := 0x4044 + 0x100 * a + 0x8 * b + quireBlock q 6
/-- BD_IEN (R236). -/
def BD_IEN (q a : Nat) : Nat := 0x400c + 0x100 * a + quireBlock q 6
/-- BD_IPEND (R236). -/
def BD_IPEND (q a : Nat) : Nat := 0x4010 + 0x100 * a + quireBlock q 6
/-- BD_SIG (R236). -/
def BD_SIG (q a : Nat) : Nat := 0x4014 + 0x100 * a + quireBlock q 6
/-- BD_CFG (R274). -/
def BD_CFG (q : Nat) : Nat := 0x0 + quireBlock q 6
/-- BD_CMD (R274). -/
def BD_CMD (q : Nat) : Nat := 0x4 + quireBlock q 6
/-- BD_CMDST (R274). -/
def BD_CMDST (q : Nat) : Nat := 0x8 + quireBlock q 6
/-- BD_EVQ (R274). -/
def BD_EVQ (q : Nat) : Nat := 0x10 + quireBlock q 6
/-- BD_CK (R274). -/
def BD_CK (q : Nat) : Nat := 0x18 + quireBlock q 6
/-- BD_BCTL (R274). -/
def BD_BCTL (q a : Nat) : Nat := 0x100 + 0x40 * a + quireBlock q 6
/-- BD_BSTAT (R274). -/
def BD_BSTAT (q a : Nat) : Nat := 0x104 + 0x40 * a + quireBlock q 6
/-- BD_BCNT (R274). -/
def BD_BCNT (q a : Nat) : Nat := 0x108 + 0x40 * a + quireBlock q 6
/-- BD_BLAST (R274). -/
def BD_BLAST (q a : Nat) : Nat := 0x10c + 0x40 * a + quireBlock q 6
/-- BD_BODD (R274). -/
def BD_BODD (q a : Nat) : Nat := 0x110 + 0x40 * a + quireBlock q 6
/-! SB_ registers. -/

/-- SB_CTRL (R172). -/
def SB_CTRL (q : Nat) : Nat := 0x0 + quireBlock q 7
/-- SB_STAT (R172). -/
def SB_STAT (q : Nat) : Nat := 0x4 + quireBlock q 7
/-- SB_XCMD (R172). -/
def SB_XCMD (q : Nat) : Nat := 0x10 + quireBlock q 7
/-- SB_XDATA (R172). -/
def SB_XDATA (q a : Nat) : Nat := 0x14 + 0x4 * a + quireBlock q 7
/-- SB_XSTAT (R172). -/
def SB_XSTAT (q : Nat) : Nat := 0x1c + quireBlock q 7
/-- SB_IBIQ (R172). -/
def SB_IBIQ (q : Nat) : Nat := 0x20 + quireBlock q 7
/-- SB_IBICNT (R172). -/
def SB_IBICNT (q : Nat) : Nat := 0x24 + quireBlock q 7

end Reg

namespace Fld

def RT_CMD_OP : Bits := ⟨10, 8⟩
def RT_CMD_RAIL : Bits := ⟨4, 0⟩
def RT_CMDSTAT_BUSY : Bits := ⟨31, 31⟩
def RT_CMDSTAT_RAIL : Bits := ⟨28, 24⟩
def RT_CMDSTAT_RESULT : Bits := ⟨19, 16⟩
def RT_CFG_SUPV : Bits := ⟨14, 12⟩
def RT_CFG_SPAN_FIRST : Bits := ⟨11, 8⟩
def RT_CFG_SPAN_LEN : Bits := ⟨5, 4⟩
def RT_MEMB_MASK : Bits := ⟨15, 0⟩
def RT_VREF_SLEW : Bits := ⟨24, 16⟩
def RT_VREF_TARGET : Bits := ⟨15, 0⟩
def RT_LL_LLSH : Bits := ⟨18, 16⟩
def RT_LL_LL : Bits := ⟨10, 0⟩
def RT_PERIOD_PERIOD : Bits := ⟨27, 0⟩
def RT_ILIM_TOTAL : Bits := ⟨28, 16⟩
def RT_ILIM_NEG : Bits := ⟨12, 0⟩
def RT_PHLIM_IPH_MAX : Bits := ⟨25, 16⟩
def RT_PHLIM_ROT_MS : Bits := ⟨15, 0⟩
def RT_NPH_PIN_EN : Bits := ⟨31, 31⟩
def RT_NPH_PIN : Bits := ⟨30, 24⟩
def RT_NPH_FLOOR : Bits := ⟨22, 16⟩
def RT_NPH_CEIL : Bits := ⟨14, 8⟩
def RT_ADAPT_IADD : Bits := ⟨29, 20⟩
def RT_ADAPT_IDROP : Bits := ⟨17, 8⟩
def RT_ADAPT_DWELL : Bits := ⟨7, 0⟩
def RT_PGOOD_WIN : Bits := ⟨23, 16⟩
def RT_PGOOD_DLY : Bits := ⟨15, 0⟩
def RT_STATE_NAVAIL : Bits := ⟨22, 16⟩
def RT_STATE_NACT : Bits := ⟨14, 8⟩
def RT_STATE_EIL : Bits := ⟨7, 7⟩
def RT_STATE_VHEAD : Bits := ⟨6, 6⟩
def RT_STATE_UNDERFLOOR : Bits := ⟨5, 5⟩
def RT_STATE_ILIM : Bits := ⟨4, 4⟩
def RT_STATE_PG : Bits := ⟨3, 3⟩
def RT_STATE_STATE : Bits := ⟨2, 0⟩
def LU_CTRL_DETERM : Bits := ⟨0, 0⟩
def LU_DEADLINE_RUN : Bits := ⟨23, 16⟩
def LU_DEADLINE_TICKS : Bits := ⟨4, 0⟩
def LU_VIN_VIN : Bits := ⟨15, 0⟩
def LU_RCTRL_EIL : Bits := ⟨16, 16⟩
def LU_RCTRL_CMODE : Bits := ⟨8, 8⟩
def LU_RCTRL_KDI : Bits := ⟨7, 0⟩
def LU_RSTAT_CWACT : Bits := ⟨4, 4⟩
def LU_RSTAT_EIL_ACT : Bits := ⟨3, 3⟩
def LU_RSTAT_FALLBACK : Bits := ⟨2, 2⟩
def LU_RSTAT_SAT : Bits := ⟨1, 1⟩
def LU_RSTAT_IWIND : Bits := ⟨0, 0⟩
def LU_CERR_LATE : Bits := ⟨31, 16⟩
def LU_CERR_BADTAG : Bits := ⟨15, 0⟩
def LU_IFS_IFS : Bits := ⟨12, 0⟩
def LU_CSEL_ZERO : Bits := ⟨9, 9⟩
def LU_CSEL_SWAP : Bits := ⟨8, 8⟩
def LU_CSEL_PEND : Bits := ⟨1, 1⟩
def LU_CSEL_ACTIVE : Bits := ⟨0, 0⟩
def LU_MBR_CFG_VALID : Bits := ⟨31, 31⟩
def LU_MBR_CFG_PORT : Bits := ⟨23, 16⟩
def LU_MBR_CFG_WBIAS : Bits := ⟨15, 8⟩
def LU_MBR_CFG_WEIGHT : Bits := ⟨7, 0⟩
def LU_MBR_STAT_ACTIVE : Bits := ⟨31, 31⟩
def LU_MBR_STAT_AVAIL : Bits := ⟨30, 30⟩
def LU_MBR_STAT_DEMAND : Bits := ⟨15, 0⟩
def LU_PH_L_L : Bits := ⟨15, 0⟩
def LU_PH_ONLIM_ON_MIN : Bits := ⟨29, 16⟩
def LU_PH_ONLIM_OFF_MIN : Bits := ⟨13, 0⟩
def LU_PH_STAT_ACTIVE : Bits := ⟨31, 31⟩
def LU_PH_STAT_RAIL : Bits := ⟨28, 24⟩
def LU_PH_ON_ON : Bits := ⟨27, 0⟩
def LU_BURST_EN : Bits := ⟨31, 31⟩
def LU_BURST_WC : Bits := ⟨30, 28⟩
def LU_BURST_WALK : Bits := ⟨27, 24⟩
def LU_BURST_HOLDOFF : Bits := ⟨23, 16⟩
def LU_BURST_WIDTH : Bits := ⟨15, 0⟩
def LU_BURST_SW_FIRE : Bits := ⟨0, 0⟩
def LU_BURST_STAT_WALKING : Bits := ⟨31, 31⟩
def LU_BURST_STAT_HELD : Bits := ⟨30, 30⟩
def LU_BURST_STAT_SUPP : Bits := ⟨15, 0⟩
def LU_IM_CTRL_EN : Bits := ⟨31, 31⟩
def LU_IM_CTRL_PRE : Bits := ⟨29, 24⟩
def LU_IM_CTRL_HOLD : Bits := ⟨23, 16⟩
def LU_IM_CTRL_DSH : Bits := ⟨15, 12⟩
def LU_IM_CTRL_OBS : Bits := ⟨7, 0⟩
def LU_IM_LIMIT_IMAX : Bits := ⟨28, 16⟩
def LU_IM_LIMIT_TOLA : Bits := ⟨15, 8⟩
def LU_IM_STAT_LANES : Bits := ⟨15, 8⟩
def LU_IM_STAT_CLAMP : Bits := ⟨7, 7⟩
def LU_IM_STAT_BADBND : Bits := ⟨6, 6⟩
def LU_IM_STAT_LATEDLV : Bits := ⟨5, 5⟩
def LU_IM_STAT_FULL : Bits := ⟨4, 4⟩
def LU_IM_STAT_NOPERM : Bits := ⟨3, 3⟩
def LU_IM_CNT_ACCEPT : Bits := ⟨31, 16⟩
def LU_IM_CNT_DROP : Bits := ⟨15, 0⟩
def LU_IM_CLRCNT_BURST : Bits := ⟨1, 1⟩
def LU_IM_CLRCNT_IM : Bits := ⟨0, 0⟩
def LU_IM_PART_VALID : Bits := ⟨31, 31⟩
def LU_IM_PART_PARTNER : Bits := ⟨30, 24⟩
def LU_IM_PART_TMIN : Bits := ⟨15, 8⟩
def LU_IM_PART_TMAX : Bits := ⟨7, 0⟩
def LU_IM_TRUST_HELD : Bits := ⟨8, 8⟩
def LU_IM_TRUST_TRUST : Bits := ⟨7, 0⟩
def PW_LOADALL_IMM : Bits := ⟨16, 16⟩
def PW_LOADALL_MASK : Bits := ⟨15, 0⟩
def PW_CTRL_STRICT : Bits := ⟨0, 0⟩
def PW_TORN_WARN : Bits := ⟨31, 16⟩
def PW_TORN_REFUSED : Bits := ⟨15, 0⟩
def PW_CAL_FROZEN : Bits := ⟨31, 31⟩
def PW_CAL_CALERR : Bits := ⟨30, 30⟩
def PW_CAL_CHAN : Bits := ⟨19, 16⟩
def PW_CAL_RESID : Bits := ⟨7, 0⟩
def PW_CFG_OWNED : Bits := ⟨31, 31⟩
def PW_CFG_WREF : Bits := ⟨30, 30⟩
def PW_CFG_TLSEL : Bits := ⟨5, 5⟩
def PW_CFG_LSEN : Bits := ⟨4, 4⟩
def PW_CFG_MODE : Bits := ⟨1, 0⟩
def PW_PER_STG_FREE : Bits := ⟨31, 31⟩
def PW_PER_STG_PERIOD : Bits := ⟨27, 0⟩
def PW_ON_STG_PARK : Bits := ⟨31, 31⟩
def PW_ON_STG_ON : Bits := ⟨27, 0⟩
def PW_OFS_STG_OFS : Bits := ⟨27, 0⟩
def PW_STGMASK_OFS : Bits := ⟨2, 2⟩
def PW_STGMASK_ON : Bits := ⟨1, 1⟩
def PW_STGMASK_PER : Bits := ⟨0, 0⟩
def PW_DT_STEP : Bits := ⟨31, 24⟩
def PW_DT_MINPW : Bits := ⟨23, 16⟩
def PW_DT_DT : Bits := ⟨13, 0⟩
def PW_DTA_EN : Bits := ⟨31, 31⟩
def PW_DTA_BADBND : Bits := ⟨30, 30⟩
def PW_DTA_DTMAX : Bits := ⟨29, 16⟩
def PW_DTA_DTMIN : Bits := ⟨13, 0⟩
def PW_DTCUR_HELD : Bits := ⟨16, 16⟩
def PW_DTCUR_OBS : Bits := ⟨15, 14⟩
def PW_DTCUR_DT : Bits := ⟨13, 0⟩
def PW_TRIP_WCEN : Bits := ⟨31, 24⟩
def PW_TRIP_EVTEN : Bits := ⟨23, 20⟩
def PW_TRIP_OCPEN : Bits := ⟨19, 19⟩
def PW_TRIP_ACT : Bits := ⟨18, 18⟩
def PW_TRIP_CMODE : Bits := ⟨17, 17⟩
def PW_TRIP_SCOPE : Bits := ⟨16, 16⟩
def PW_TRIP_RETRY : Bits := ⟨15, 12⟩
def PW_TRIP_HICCUP : Bits := ⟨11, 8⟩
def PW_TRIP_QUIET : Bits := ⟨7, 0⟩
def PW_TCLR_LOFF : Bits := ⟨1, 1⟩
def PW_TCLR_CLR : Bits := ⟨0, 0⟩
def PW_TSTAT_LATCHED : Bits := ⟨31, 31⟩
def PW_TSTAT_LOFF : Bits := ⟨30, 30⟩
def PW_TSTAT_CLRREF : Bits := ⟨29, 29⟩
def PW_TSTAT_RCNT : Bits := ⟨27, 24⟩
def PW_TSTAT_FIRST : Bits := ⟨13, 0⟩
def PW_TSRC_ACTIVE : Bits := ⟨13, 0⟩
def AD_CTRL_VINC : Bits := ⟨0, 0⟩
def AD_SEQCMT_COMMIT : Bits := ⟨0, 0⟩
def AD_SEQST_BUSY : Bits := ⟨31, 31⟩
def AD_SEQST_RESULT : Bits := ⟨19, 16⟩
def AD_CHK_EN : Bits := ⟨31, 31⟩
def AD_CHK_PER : Bits := ⟨19, 16⟩
def AD_CHK_PCNT : Bits := ⟨15, 12⟩
def AD_CHK_INPUT : Bits := ⟨11, 8⟩
def AD_CHK_THR : Bits := ⟨7, 0⟩
def AD_CHKSTAT_MISM : Bits := ⟨31, 31⟩
def AD_CHKSTAT_ATTR : Bits := ⟨30, 29⟩
def AD_CHKSTAT_STOP : Bits := ⟨28, 28⟩
def AD_CHKSTAT_DIFF : Bits := ⟨11, 0⟩
def AD_CHKREF_EXP : Bits := ⟨31, 16⟩
def AD_CHKREF_RTHR : Bits := ⟨7, 0⟩
def AD_SLIM_SKEW : Bits := ⟨31, 24⟩
def AD_SLIM_GAIN : Bits := ⟨23, 16⟩
def AD_SLIM_OFS : Bits := ⟨7, 0⟩
def AD_AUXMAP_EN : Bits := ⟨31, 31⟩
def AD_AUXMAP_CONV : Bits := ⟨30, 30⟩
def AD_AUXMAP_AUX : Bits := ⟨29, 28⟩
def AD_AUXMAP_OFS : Bits := ⟨27, 16⟩
def AD_AUXMAP_GAIN : Bits := ⟨15, 0⟩
def AD_STAT_FAILED : Bits := ⟨31, 31⟩
def AD_STAT_SLICES : Bits := ⟨29, 28⟩
def AD_STAT_SUSPECT : Bits := ⟨27, 27⟩
def AD_STAT_SHORT : Bits := ⟨26, 26⟩
def AD_STAT_OVR : Bits := ⟨25, 25⟩
def AD_STAT_FROZEN : Bits := ⟨24, 24⟩
def AD_STAT_WREF : Bits := ⟨23, 23⟩
def AD_STAT_RETIRED : Bits := ⟨3, 0⟩
def AD_LEN_ACTIVE : Bits := ⟨6, 4⟩
def AD_LEN_STAGED : Bits := ⟨2, 0⟩
def AD_SRET_RETIRE : Bits := ⟨3, 0⟩
def AD_FCFG_M : Bits := ⟨15, 8⟩
def AD_FCFG_NEN : Bits := ⟨7, 7⟩
def AD_FCFG_LOG2D : Bits := ⟨6, 4⟩
def AD_FCFG_N : Bits := ⟨2, 0⟩
def AD_FOUT_VALID : Bits := ⟨31, 31⟩
def AD_FOUT_VALUE : Bits := ⟨23, 0⟩
def AD_SEQ_STG_FILT : Bits := ⟨7, 6⟩
def AD_SEQ_FILT : Bits := ⟨7, 6⟩
def AD_SEQ_STG_WIDE : Bits := ⟨5, 5⟩
def AD_SEQ_WIDE : Bits := ⟨5, 5⟩
def AD_SEQ_STG_INPUT : Bits := ⟨3, 0⟩
def AD_SEQ_INPUT : Bits := ⟨3, 0⟩
def AD_SCOR_OFS : Bits := ⟨31, 20⟩
def AD_SCOR_GAIN : Bits := ⟨19, 8⟩
def AD_SCOR_SKEW : Bits := ⟨7, 0⟩
def WC_CFG_EN : Bits := ⟨31, 31⟩
def WC_CFG_INPUT : Bits := ⟨26, 24⟩
def WC_CFG_MODE : Bits := ⟨21, 21⟩
def WC_CFG_CLRM : Bits := ⟨20, 20⟩
def WC_CFG_PCH : Bits := ⟨19, 16⟩
def WC_CFG_LOEN : Bits := ⟨13, 13⟩
def WC_CFG_HIEN : Bits := ⟨12, 12⟩
def WC_CFG_DIV : Bits := ⟨5, 0⟩
def WC_THR_HI : Bits := ⟨29, 20⟩
def WC_CUR_HI : Bits := ⟨29, 20⟩
def WC_THR_HYS : Bits := ⟨19, 16⟩
def WC_CUR_HYS : Bits := ⟨19, 16⟩
def WC_THR_LO : Bits := ⟨9, 0⟩
def WC_CUR_LO : Bits := ⟨9, 0⟩
def WC_STAT_LOLAT : Bits := ⟨31, 31⟩
def WC_STAT_HILAT : Bits := ⟨30, 30⟩
def WC_STAT_LORAW : Bits := ⟨29, 29⟩
def WC_STAT_HIRAW : Bits := ⟨28, 28⟩
def WC_STAT_CLRREF : Bits := ⟨27, 27⟩
def WC_STAT_STUCK : Bits := ⟨26, 26⟩
def WC_STAT_IMPL : Bits := ⟨25, 25⟩
def WC_STAT_HELD : Bits := ⟨24, 24⟩
def WC_STAT_BADBND : Bits := ⟨23, 23⟩
def WC_STAT_WREF : Bits := ⟨22, 22⟩
def WC_CLR_HI : Bits := ⟨1, 1⟩
def WC_CLR_LO : Bits := ⟨0, 0⟩
def WC_TRK_EN : Bits := ⟨31, 31⟩
def WC_TRK_TDSH : Bits := ⟨11, 8⟩
def WC_TRK_TMARG : Bits := ⟨7, 0⟩
def WC_TBND_MAX : Bits := ⟨25, 16⟩
def WC_TBNDH_MAX : Bits := ⟨25, 16⟩
def WC_TBND_MIN : Bits := ⟨9, 0⟩
def WC_TBNDH_MIN : Bits := ⟨9, 0⟩
def WC_CNT_LO : Bits := ⟨31, 16⟩
def WC_CNT_HI : Bits := ⟨15, 0⟩
def WC_PLAUS_PEN : Bits := ⟨31, 31⟩
def WC_PLAUS_STK : Bits := ⟨19, 16⟩
def WC_PLAUS_PCNT : Bits := ⟨15, 12⟩
def WC_PLAUS_GB : Bits := ⟨7, 0⟩
def WC_OCPCFG_EN : Bits := ⟨31, 31⟩
def WC_OCPCFG_CNT : Bits := ⟨27, 24⟩
def WC_OCPCFG_HYS : Bits := ⟨23, 16⟩
def WC_OCPLIM_HI : Bits := ⟨31, 16⟩
def WC_OCPLIM_LO : Bits := ⟨15, 0⟩
def WC_OCPSTAT_ASSERT : Bits := ⟨31, 31⟩
def WC_OCPSTAT_SIDE : Bits := ⟨30, 30⟩
def WC_OCPSTAT_PEAK : Bits := ⟨15, 0⟩
def PP_CTRL_UPDL : Bits := ⟨15, 8⟩
def PP_CTRL_RSMAX : Bits := ⟨3, 0⟩
def PP_NONCE_NONCE : Bits := ⟨7, 0⟩
def PP_CMD_OP : Bits := ⟨10, 8⟩
def PP_CMD_PORT : Bits := ⟨3, 0⟩
def PP_CMDST_RESULT : Bits := ⟨19, 16⟩
def PP_CFG_EN : Bits := ⟨31, 31⟩
def PP_CFG_KIND : Bits := ⟨30, 30⟩
def PP_CFG_RATE : Bits := ⟨29, 29⟩
def PP_CFG_DLY : Bits := ⟨5, 0⟩
def PP_STAT_RSY : Bits := ⟨31, 31⟩
def PP_STAT_ALIGNED : Bits := ⟨30, 30⟩
def PP_STAT_BOUND : Bits := ⟨29, 29⟩
def PP_STAT_DIS : Bits := ⟨28, 28⟩
def PP_STAT_IDBLK : Bits := ⟨27, 27⟩
def PP_STAT_MGMT : Bits := ⟨26, 24⟩
def PP_STAT_STATE : Bits := ⟨18, 16⟩
def PP_STAT_SLOT : Bits := ⟨15, 8⟩
def PP_CUR_EXT : Bits := ⟨31, 31⟩
def PP_TEMP_EXT : Bits := ⟨31, 31⟩
def PP_VIN_EXT : Bits := ⟨31, 31⟩
def PP_SSTAT_EXT : Bits := ⟨31, 31⟩
def PP_CUR_VALUE : Bits := ⟨15, 0⟩
def PP_TEMP_VALUE : Bits := ⟨15, 0⟩
def PP_VIN_VALUE : Bits := ⟨15, 0⟩
def PP_SSTAT_VALUE : Bits := ⟨15, 0⟩
def SB_CTRL_EN : Bits := ⟨31, 31⟩
def SB_CTRL_HJEN : Bits := ⟨30, 30⟩
def SB_CTRL_RETRY : Bits := ⟨11, 8⟩
def SB_CTRL_SPEED : Bits := ⟨1, 0⟩
def SB_STAT_BUSY : Bits := ⟨31, 31⟩
def SB_STAT_POOL : Bits := ⟨30, 30⟩
def SB_STAT_DUP : Bits := ⟨29, 29⟩
def SB_STAT_MISWIRE : Bits := ⟨28, 28⟩
def SB_STAT_FOREIGN : Bits := ⟨27, 27⟩
def SB_STAT_NTEMP : Bits := ⟨20, 16⟩
def SB_STAT_NBOUND : Bits := ⟨4, 0⟩
def SB_XCMD_OP : Bits := ⟨29, 28⟩
def SB_XCMD_COUNT : Bits := ⟨25, 24⟩
def SB_XCMD_REG : Bits := ⟨23, 16⟩
def SB_XCMD_TEMP : Bits := ⟨4, 4⟩
def SB_XCMD_PORT : Bits := ⟨3, 0⟩
def SB_XDATA_ODD : Bits := ⟨31, 16⟩
def SB_XDATA_EVEN : Bits := ⟨15, 0⟩
def SB_XSTAT_BUSY : Bits := ⟨31, 31⟩
def SB_XSTAT_RESULT : Bits := ⟨19, 16⟩
def SB_XSTAT_TRIES : Bits := ⟨3, 0⟩
def SB_IBIQ_VALID : Bits := ⟨31, 31⟩
def SB_IBIQ_DA : Bits := ⟨23, 16⟩
def SB_IBIQ_CAUSE : Bits := ⟨15, 8⟩
def SB_IBIQ_TEMP : Bits := ⟨4, 4⟩
def SB_IBIQ_PORT : Bits := ⟨3, 0⟩
def SB_IBICNT_RECV : Bits := ⟨31, 16⟩
def SB_IBICNT_DROP : Bits := ⟨15, 0⟩
def VB_EVT_DROP : Bits := ⟨31, 16⟩
def VB_EVT_JOIN : Bits := ⟨15, 0⟩
def VB_CFG_EN : Bits := ⟨31, 31⟩
def VB_CFG_TERM : Bits := ⟨30, 30⟩
def VB_CFG_JOIN : Bits := ⟨29, 29⟩
def VB_CFG_SLOTEN : Bits := ⟨23, 16⟩
def VB_CFG_PHASE : Bits := ⟨10, 0⟩
def VB_CMD_OP : Bits := ⟨9, 8⟩
def VB_CMD_SLOT : Bits := ⟨2, 0⟩
def VB_STAT_WREF : Bits := ⟨31, 31⟩
def VB_STAT_CMDREF : Bits := ⟨30, 30⟩
def VB_STAT_NMEMB : Bits := ⟨19, 16⟩
def VB_STAT_CYC : Bits := ⟨7, 0⟩
def VB_SLOT_TICKET : Bits := ⟨31, 24⟩
def VB_SLOT_RAIL : Bits := ⟨20, 16⟩
def VB_SLOT_MISSRUN : Bits := ⟨11, 8⟩
def VB_SLOT_STATE : Bits := ⟨2, 0⟩
def BD_ESTAT_CAUSE : Bits := ⟨21, 16⟩
def BD_ESTAT_DF : Bits := ⟨14, 14⟩
def BD_ESTAT_IPL : Bits := ⟨13, 12⟩
def BD_ESTAT_BANK : Bits := ⟨10, 8⟩
def BD_ESTAT_PRIV : Bits := ⟨5, 4⟩
def BD_ESTAT_STATE : Bits := ⟨2, 0⟩
def BD_ECTL_IPL : Bits := ⟨1, 0⟩
def BD_EPC_PC : Bits := ⟨14, 0⟩
def BD_RGN_BASE_BASE : Bits := ⟨31, 5⟩
def BD_RGN_ATTR_EN : Bits := ⟨31, 31⟩
def BD_RGN_ATTR_SIZE : Bits := ⟨20, 16⟩
def BD_RGN_ATTR_MON : Bits := ⟨10, 8⟩
def BD_RGN_ATTR_SUP : Bits := ⟨6, 4⟩
def BD_RGN_ATTR_USR : Bits := ⟨2, 0⟩
def BD_CFG_WREF : Bits := ⟨31, 31⟩
def BD_CFG_S1 : Bits := ⟨3, 3⟩
def BD_CFG_S0 : Bits := ⟨2, 2⟩
def BD_CFG_H1 : Bits := ⟨1, 1⟩
def BD_CFG_H0 : Bits := ⟨0, 0⟩
def BD_CMD_ARG : Bits := ⟨14, 12⟩
def BD_CMD_OP : Bits := ⟨10, 8⟩
def BD_CMD_ENG : Bits := ⟨6, 4⟩
def BD_CMD_SLOT : Bits := ⟨2, 0⟩
def BD_CMDST_BUSY : Bits := ⟨31, 31⟩
def BD_CMDST_RESULT : Bits := ⟨19, 16⟩
def BD_EVQ_VALID : Bits := ⟨31, 31⟩
def BD_EVQ_CODE : Bits := ⟨27, 24⟩
def BD_EVQ_SLOT : Bits := ⟨18, 16⟩
def BD_EVQ_ENG : Bits := ⟨14, 12⟩
def BD_EVQ_DROP : Bits := ⟨11, 0⟩
def BD_CK_FAILED : Bits := ⟨13, 8⟩
def BD_CK_INUSE : Bits := ⟨5, 0⟩
def BD_BCTL_EVX : Bits := ⟨28, 28⟩
def BD_BCTL_MUTE : Bits := ⟨27, 27⟩
def BD_BCTL_SPARE : Bits := ⟨26, 24⟩
def BD_BCTL_ROLE : Bits := ⟨16, 16⟩
def BD_BCTL_SDESC : Bits := ⟨15, 0⟩
def BD_BSTAT_HOME : Bits := ⟨30, 28⟩
def BD_BSTAT_CK : Bits := ⟨26, 24⟩
def BD_BSTAT_NMEM : Bits := ⟨21, 20⟩
def BD_BSTAT_M2 : Bits := ⟨18, 16⟩
def BD_BSTAT_M1 : Bits := ⟨14, 12⟩
def BD_BSTAT_M0 : Bits := ⟨10, 8⟩
def BD_BSTAT_STATE : Bits := ⟨2, 0⟩
def BD_BCNT_MISM : Bits := ⟨31, 24⟩
def BD_BCNT_RESYNC : Bits := ⟨23, 16⟩
def BD_BCNT_MUTED : Bits := ⟨15, 0⟩
def BD_BLAST_KIND : Bits := ⟨31, 28⟩
def BD_BLAST_MEMBER : Bits := ⟨26, 24⟩
def BD_BLAST_PC : Bits := ⟨14, 0⟩
def BD_BODD_M2 : Bits := ⟨23, 16⟩
def BD_BODD_M1 : Bits := ⟨15, 8⟩
def BD_BODD_M0 : Bits := ⟨7, 0⟩
def TM_EVTF_STK : Bits := ⟨19, 16⟩
def TM_EVTF_MINPW : Bits := ⟨7, 0⟩
def TM_EVTST_LEVEL : Bits := ⟨31, 31⟩
def TM_EVTST_STUCK : Bits := ⟨30, 30⟩
def TM_EVTCNT_MERGE : Bits := ⟨31, 16⟩
def TM_EVTCNT_REJ : Bits := ⟨15, 0⟩
def TM_OUTCFG_EN : Bits := ⟨31, 31⟩
def TM_OUTCFG_FEN : Bits := ⟨30, 30⟩
def TM_OUTCFG_FLVL : Bits := ⟨29, 29⟩
def TM_OUTCFG_ACT : Bits := ⟨27, 26⟩
def TM_OUTCFG_POL : Bits := ⟨25, 25⟩
def TM_OUTCFG_TIMER : Bits := ⟨18, 16⟩
def TM_OUTCFG_WIDTH : Bits := ⟨15, 0⟩
def TM_CFG_EN : Bits := ⟨31, 31⟩
def TM_CFG_ONESHOT : Bits := ⟨30, 30⟩
def TM_CFG_GATE : Bits := ⟨29, 28⟩
def TM_CFG_CEDGE : Bits := ⟨25, 24⟩
def TM_CFG_CSEL : Bits := ⟨20, 16⟩
def TM_CFG_GSEL : Bits := ⟨12, 8⟩
def TM_CFG_PRE : Bits := ⟨3, 0⟩
def TM_STAT_RUN : Bits := ⟨31, 31⟩
def TM_STAT_QCNT : Bits := ⟨10, 8⟩
def TM_CMD_CAPTURE : Bits := ⟨1, 1⟩
def TM_CMD_LOAD : Bits := ⟨0, 0⟩
def TM_CAPPOP_VALID : Bits := ⟨31, 31⟩
def TM_CAPPOP_COUNT : Bits := ⟨18, 16⟩
def TM_CAPPOP_DROP : Bits := ⟨15, 0⟩
def ER_CTRL_EN : Bits := ⟨31, 31⟩
def ER_CTRL_FREEZE : Bits := ⟨30, 30⟩
def ER_CTRL_CINT : Bits := ⟨7, 0⟩
def ER_CMD_OP : Bits := ⟨2, 0⟩
def ER_STAT_BUSY : Bits := ⟨31, 31⟩
def ER_STAT_NVSKIP : Bits := ⟨30, 30⟩
def ER_STAT_RESTORED : Bits := ⟨29, 29⟩
def ER_LOG_XDROP : Bits := ⟨31, 16⟩
def ER_LOG_NEXT : Bits := ⟨13, 0⟩
def ER_FRZMISS_SAMP : Bits := ⟨31, 16⟩
def ER_FRZMISS_XENT : Bits := ⟨15, 0⟩
def ER_CH_EN : Bits := ⟨31, 31⟩
def ER_CH_XEN : Bits := ⟨30, 30⟩
def ER_CH_SRC : Bits := ⟨27, 24⟩
def ER_CH_IDX : Bits := ⟨23, 16⟩
def ER_CH_DIV : Bits := ⟨12, 8⟩
def ER_CH_SHIFT : Bits := ⟨4, 0⟩
def MR_CTRL_SCEN : Bits := ⟨31, 31⟩
def MR_CTRL_CETHR : Bits := ⟨23, 16⟩
def MR_CTRL_RATE : Bits := ⟨7, 0⟩
def MR_SCSTAT_PAUSED : Bits := ⟨31, 31⟩
def MR_SCSTAT_UNWR : Bits := ⟨30, 16⟩
def MR_SCSTAT_PASSES : Bits := ⟨15, 0⟩
def MR_ELOG_VALID : Bits := ⟨31, 31⟩
def MR_ELOGA_VALID : Bits := ⟨31, 31⟩
def MR_ELOG_KIND : Bits := ⟨30, 29⟩
def MR_ELOGA_KIND : Bits := ⟨30, 29⟩
def MR_ELOG_SCRUB : Bits := ⟨28, 28⟩
def MR_ELOGA_SCRUB : Bits := ⟨28, 28⟩
def MR_ELOG_HARD : Bits := ⟨27, 27⟩
def MR_ELOGA_HARD : Bits := ⟨27, 27⟩
def MR_ELOG_BANK : Bits := ⟨23, 16⟩
def MR_ELOGA_BANK : Bits := ⟨23, 16⟩
def MR_ELOG_SYN : Bits := ⟨15, 8⟩
def MR_ELOGA_SYN : Bits := ⟨15, 8⟩
def MR_ELOG_DROP : Bits := ⟨7, 0⟩
def MR_ELOGA_DROP : Bits := ⟨7, 0⟩
def MR_CMD_BANK : Bits := ⟨31, 24⟩
def MR_CMD_MIG : Bits := ⟨23, 23⟩
def MR_CMD_OP : Bits := ⟨18, 16⟩
def MR_CMD_UNIT : Bits := ⟨9, 0⟩
def MR_CMDST_BUSY : Bits := ⟨31, 31⟩
def MR_CMDST_RESULT : Bits := ⟨19, 16⟩
def MR_BSTAT_CE : Bits := ⟨31, 24⟩
def MR_BSTAT_SPAGE : Bits := ⟨23, 20⟩
def MR_BSTAT_SROW : Bits := ⟨19, 16⟩
def MR_BSTAT_PEND : Bits := ⟨15, 12⟩
def MR_BSTAT_HOLD : Bits := ⟨8, 8⟩
def NV_CMD_OP : Bits := ⟨18, 16⟩
def NV_CMD_SECT : Bits := ⟨10, 0⟩
def NV_SRC_FIRST : Bits := ⟨14, 8⟩
def NV_SPAN_FIRST : Bits := ⟨14, 8⟩
def NV_SRC_NM1 : Bits := ⟨6, 0⟩
def NV_SPAN_NM1 : Bits := ⟨6, 0⟩
def NV_CMDST_BUSY : Bits := ⟨31, 31⟩
def NV_CMDST_RESULT : Bits := ⟨19, 16⟩
def NV_STAT_SPARES : Bits := ⟨31, 24⟩
def NV_STAT_RETIRED : Bits := ⟨23, 16⟩
def NV_STAT_REFRESH : Bits := ⟨15, 0⟩
def NV_CFG_SWL : Bits := ⟨15, 0⟩
def MB_HDB_RING : Bits := ⟨15, 0⟩
def MB_HRDY_RDY : Bits := ⟨15, 0⟩
def MB_HAEN_ROUTE : Bits := ⟨19, 18⟩
def MB_HAEN_HWA : Bits := ⟨16, 16⟩
def MB_HAEN_SESS : Bits := ⟨15, 0⟩
def MB_HSTAT_FBUSY : Bits := ⟨30, 30⟩
def MB_HSTAT_DBREF : Bits := ⟨29, 29⟩
def MB_HSTAT_WINREF : Bits := ⟨28, 28⟩
def MB_HSTAT_ACCERR : Bits := ⟨27, 27⟩
def MB_HSTAT_SHED : Bits := ⟨18, 16⟩
def MB_HSTAT_MODE : Bits := ⟨2, 0⟩
def MB_HWABORT_KEY : Bits := ⟨31, 24⟩
def MB_HWABORT_TARGET : Bits := ⟨19, 16⟩
def MB_HWABORT_INDEX : Bits := ⟨15, 8⟩
def MB_HWABORT_ARG : Bits := ⟨7, 0⟩
def MB_HWASTAT_BUSY : Bits := ⟨31, 31⟩
def MB_HWASTAT_DONE : Bits := ⟨30, 30⟩
def MB_HWASTAT_REF : Bits := ⟨29, 29⟩
def MB_HWASTAT_TARGET : Bits := ⟨19, 16⟩
def MB_HWASTAT_RESULT : Bits := ⟨3, 0⟩
def MB_STRWP_WP : Bits := ⟨15, 0⟩
def MB_FPOST_SESSION : Bits := ⟨3, 0⟩
def MB_FREQ_REQ : Bits := ⟨15, 0⟩
def MB_CFG_IDLE : Bits := ⟨15, 0⟩
def MB_SESS_SEQ : Bits := ⟨31, 16⟩
def MB_SESS_XPORT : Bits := ⟨10, 8⟩
def MB_SESS_PHASE : Bits := ⟨5, 4⟩
def MB_SESS_STATE : Bits := ⟨1, 0⟩
def MB_I3CCFG_DIS : Bits := ⟨31, 31⟩
def MB_I3CCFG_DA : Bits := ⟨14, 8⟩
def MB_I3CCFG_SA : Bits := ⟨6, 0⟩
def MB_SMBCFG_DIS : Bits := ⟨31, 31⟩
def MB_SMBCFG_PMBW : Bits := ⟨30, 30⟩
def MB_SMBCFG_PECREQ : Bits := ⟨29, 29⟩
def MB_SMBCFG_PMBALERT : Bits := ⟨28, 28⟩
def MB_SMBCFG_ADDR : Bits := ⟨6, 0⟩
def MB_SPICFG_DIS : Bits := ⟨31, 31⟩
def MB_MCTPEID_EIDS : Bits := ⟨15, 8⟩
def MB_MCTPEID_EIDI : Bits := ⟨7, 0⟩
def MB_CNT_AUTHF : Bits := ⟨31, 24⟩
def MB_CNT_BADKEY : Bits := ⟨23, 16⟩
def MB_CNT_LATEDROP : Bits := ⟨15, 0⟩
def SC_LOCK_LOCK : Bits := ⟨0, 0⟩
def SC_POLICY_OWNTGT : Bits := ⟨7, 0⟩
def SC_OTP_ARB : Bits := ⟨22, 16⟩
def SC_OTP_REV : Bits := ⟨11, 8⟩
def SC_OTP_OWNER : Bits := ⟨1, 1⟩
def SC_OTP_FACTORY : Bits := ⟨0, 0⟩
def SC_CMD_OP : Bits := ⟨18, 16⟩
def SC_CMD_ARG : Bits := ⟨6, 0⟩
def SC_CMDST_BUSY : Bits := ⟨31, 31⟩
def SC_CMDST_RESULT : Bits := ⟨19, 16⟩
def SC_JOB_BUSY : Bits := ⟨31, 31⟩
def SC_JOB_OP : Bits := ⟨18, 16⟩
def SC_JOB_RESULT : Bits := ⟨3, 0⟩
def FM_CTRL_FNU : Bits := ⟨20, 20⟩
def FM_CTRL_DTRY : Bits := ⟨19, 16⟩
def FM_CTRL_QUIET : Bits := ⟨15, 0⟩
def FM_STAT_ALERT : Bits := ⟨31, 31⟩
def FM_STAT_FPEND : Bits := ⟨30, 30⟩
def FM_DEGR_COND : Bits := ⟨7, 0⟩
def FM_ACK_F : Bits := ⟨0, 0⟩
def FM_FEC_INFO_VALID : Bits := ⟨31, 31⟩
def FM_FEC_INFO_TYPE : Bits := ⟨30, 28⟩
def FM_FEC_INFO_SIZE : Bits := ⟨27, 26⟩
def FM_FEC_INFO_CLASS : Bits := ⟨25, 24⟩
def FM_FEC_INFO_MASTER : Bits := ⟨23, 16⟩
def FM_FEC_INFO_SRC : Bits := ⟨13, 8⟩
def FM_FEC_INFO_KIND : Bits := ⟨7, 0⟩
def FM_WDOG_EN : Bits := ⟨31, 31⟩
def FM_WDCFG_EN : Bits := ⟨31, 31⟩
def FM_WDOG_RST : Bits := ⟨30, 24⟩
def FM_WDCFG_RST : Bits := ⟨30, 24⟩
def FM_WDOG_MS : Bits := ⟨15, 0⟩
def FM_WDCFG_MS : Bits := ⟨15, 0⟩
def FM_WDOG_KEY : Bits := ⟨7, 0⟩
def FM_WDCFG_KEY : Bits := ⟨7, 0⟩
def FM_TRIP_GO : Bits := ⟨31, 31⟩
def FM_TRIP_RAIL : Bits := ⟨4, 0⟩
def FM_DISQ_VALID : Bits := ⟨31, 31⟩
def FM_DISQ_KIND : Bits := ⟨30, 28⟩
def FM_DISQ_DATA : Bits := ⟨23, 20⟩
def FM_DISQ_MGMT : Bits := ⟨19, 16⟩
def FM_DISQ_UNIT : Bits := ⟨15, 0⟩
def FM_SHUTCAUSE_CAUSE : Bits := ⟨3, 0⟩
def FM_CMD_RECCLR : Bits := ⟨1, 1⟩
def FM_CMD_AVCLR : Bits := ⟨0, 0⟩
def SM_MODE_SHED : Bits := ⟨18, 16⟩
def SM_MODE_MODE : Bits := ⟨2, 0⟩
def SM_VCORE_MIN : Bits := ⟨31, 16⟩
def SM_VIO_MIN : Bits := ⟨31, 16⟩
def SM_VAUX_MIN : Bits := ⟨31, 16⟩
def SM_VCORE_NOW : Bits := ⟨15, 0⟩
def SM_VIO_NOW : Bits := ⟨15, 0⟩
def SM_VAUX_NOW : Bits := ⟨15, 0⟩
def SM_SHEDCFG_CAP5 : Bits := ⟨6, 0⟩
def SM_SEQCMD_START : Bits := ⟨0, 0⟩
def SM_SEQSTAT_BUSY : Bits := ⟨31, 31⟩
def SM_SEQSTAT_DOWN : Bits := ⟨30, 30⟩
def SM_SEQSTAT_RESULT : Bits := ⟨19, 16⟩
def SM_SEQSTAT_STEP : Bits := ⟨12, 8⟩
def SM_SEQSTAT_RAIL : Bits := ⟨4, 0⟩
def SM_SEQHDR_DEFTMO : Bits := ⟨31, 16⟩
def SM_SEQHDR_NSTEP : Bits := ⟨13, 8⟩
def SM_SEQHDR_AUTOSTART : Bits := ⟨1, 1⟩
def SM_SEQHDR_SHUTLOSS : Bits := ⟨0, 0⟩
def SM_PGIN_LEVEL : Bits := ⟨31, 31⟩
def SM_PGIN_FALLS : Bits := ⟨15, 0⟩
def SM_SPDCFG_THR : Bits := ⟨11, 0⟩
def SM_SEQ0_VALID : Bits := ⟨31, 31⟩
def SM_SEQ1_VALID : Bits := ⟨31, 31⟩
def SM_SEQ0_WITHPREV : Bits := ⟨30, 30⟩
def SM_SEQ1_WITHPREV : Bits := ⟨30, 30⟩
def SM_SEQ0_RAIL : Bits := ⟨28, 24⟩
def SM_SEQ1_RAIL : Bits := ⟨28, 24⟩
def SM_SEQ0_DELAY : Bits := ⟨15, 0⟩
def SM_SEQ1_DELAY : Bits := ⟨15, 0⟩
def SM_SEQ0_PGTMO : Bits := ⟨31, 16⟩
def SM_SEQ1_PGTMO : Bits := ⟨31, 16⟩
def SM_SEQ0_OFFDLY : Bits := ⟨15, 0⟩
def SM_SEQ1_OFFDLY : Bits := ⟨15, 0⟩
def SM_SPD_LOW : Bits := ⟨31, 31⟩
def SM_SPD_MIN : Bits := ⟨27, 16⟩
def SM_SPD_NOW : Bits := ⟨11, 0⟩
def TB_STAT_LOCK : Bits := ⟨31, 31⟩
def TB_STAT_HOLD : Bits := ⟨30, 30⟩
def TB_STAT_LOSSES : Bits := ⟨15, 0⟩
def TB_QTICK_REFUSED : Bits := ⟨31, 31⟩
def TB_QTICK_ACTIVE : Bits := ⟨5, 4⟩
def TB_QTICK_PERIOD : Bits := ⟨1, 0⟩
def LU_IM_OUT_WRONG : Bits := ⟨31, 31⟩
def LU_IM_OUT_LATE : Bits := ⟨30, 30⟩
def LU_IM_OUT_CUT : Bits := ⟨29, 29⟩
def LU_IM_OUT_ENTRY : Bits := ⟨27, 24⟩
def LU_IM_OUT_PARTNER : Bits := ⟨22, 16⟩
def LU_IM_OUT_PRED : Bits := ⟨11, 0⟩
def LU_IM_OUT_SUMPRED : Bits := ⟨31, 16⟩
def LU_IM_OUT_OBS : Bits := ⟨15, 0⟩
def PP_ERR_CRC : Bits := ⟨31, 16⟩
def PP_ERR_CODE : Bits := ⟨15, 0⟩
def PP_LOSS_SLOST : Bits := ⟨31, 24⟩
def PP_LOSS_RSOK1 : Bits := ⟨23, 16⟩
def PP_LOSS_RSLATE : Bits := ⟨15, 8⟩
def PP_LOSS_RSFAIL : Bits := ⟨7, 0⟩
def PP_MISS_MISS : Bits := ⟨31, 16⟩
def PP_MISS_SLIP : Bits := ⟨15, 0⟩
def VB_ERR_CRC : Bits := ⟨31, 16⟩
def VB_ERR_TAG : Bits := ⟨15, 0⟩
def VB_JCNT_JOINS : Bits := ⟨31, 24⟩
def VB_JCNT_DROPS : Bits := ⟨23, 16⟩
def VB_JCNT_JBAD : Bits := ⟨15, 0⟩
def NV_ECC_CORR : Bits := ⟨31, 16⟩
def NV_ECC_UNCORR : Bits := ⟨15, 0⟩
def TM_STAT_CAPOVF : Bits := ⟨3, 3⟩
def TM_STAT_CAP : Bits := ⟨2, 2⟩
def TM_STAT_CMP : Bits := ⟨1, 1⟩
def TM_STAT_ZERO : Bits := ⟨0, 0⟩
def PW_PER_FREE : Bits := ⟨31, 31⟩
def PW_PER_LEN : Bits := ⟨27, 0⟩
def PW_ON_PARK : Bits := ⟨31, 31⟩
def PW_ON_ON : Bits := ⟨27, 0⟩
def PW_REF_HI_INT : Bits := ⟨31, 8⟩
def PW_REF_HI_FRAC : Bits := ⟨7, 0⟩

end Fld

/-- One row of a block's register table: offset of the first instance in the block, the index ranges with their
strides (outermost first), and the reset value and write masks every instance shares. -/
structure RegRow where
  off : Nat
  dims : List (Nat × Nat)
  reset : Nat
  rw : Nat
  w1c : Nat
  rwl : Nat
  deriving DecidableEq, Repr

/-- The indices that lead from a row's first instance to the offset o, if o is one of its instances. -/
def RegRow.indices : List (Nat × Nat) → Nat → Option (List Nat)
  | [], o => if o = 0 then some [] else none
  | (n, st) :: ds, o => if o / st < n then (RegRow.indices ds (o % st)).map (o / st :: ·) else none

/-- The indices of the instance of row r at block offset o. -/
def RegRow.at? (r : RegRow) (o : Nat) : Option (List Nat) :=
  if r.off ≤ o then RegRow.indices r.dims (o - r.off) else none

/-- The TB_ register table. -/
def rowsTB : List RegRow := [
  ⟨0x0, [], 0x0, 0x0, 0x0, 0x0⟩,
  ⟨0x4, [], 0x0, 0x0, 0x0, 0x0⟩,
  ⟨0x10, [], 0x0, 0x0, 0x0, 0x0⟩,
  ⟨0x14, [], 0x0, 0x0, 0x0, 0x0⟩,
  ⟨0x18, [], 0x0, 0x0, 0x0, 0x0⟩,
  ⟨0x8, [], 0x0, 0x0, 0x0, 0x0⟩,
  ⟨0x100, [(16, 0x4)], 0x0, 0x3, 0x80000000, 0x0⟩]

/-- The FM_ register table. -/
def rowsFM : List RegRow := [
  ⟨0x0, [], 0x303e8, 0x1fffff, 0x0, 0x0⟩,
  ⟨0x4, [], 0x0, 0x0, 0x0, 0x0⟩,
  ⟨0x8, [], 0x0, 0x0, 0x0, 0x0⟩,
  ⟨0xc, [], 0x0, 0x0, 0x0, 0x0⟩,
  ⟨0x10, [], 0x0, 0x0, 0x0, 0x0⟩,
  ⟨0x14, [], 0x0, 0x0, 0x0, 0x0⟩,
  ⟨0x18, [], 0x0, 0x0, 0x0, 0x0⟩,
  ⟨0x1c, [], 0x0, 0x0, 0x0, 0x0⟩,
  ⟨0x20, [], 0x0, 0x0, 0x0, 0x0⟩,
  ⟨0x24, [], 0x0, 0x0, 0x0, 0x0⟩,
  ⟨0x28, [], 0x0, 0x0, 0x0, 0x0⟩,
  ⟨0x40, [(8, 0x4)], 0x0, 0x0, 0x0, 0x0⟩,
  ⟨0x60, [], 0x0, 0x0, 0x0, 0x0⟩,
  ⟨0x64, [], 0x0, 0x0, 0x0, 0x0⟩,
  ⟨0x6c, [], 0x0, 0x0, 0x0, 0x0⟩,
  ⟨0x70, [], 0x0, 0x0, 0x0, 0x0⟩,
  ⟨0x74, [], 0x0, 0x0, 0x0, 0x0⟩,
  ⟨0x78, [], 0x0, 0x0, 0x0, 0x0⟩,
  ⟨0x7c, [], 0x0, 0x0, 0x0, 0x0⟩,
  ⟨0x80, [], 0x0, 0x0, 0x0, 0x0⟩,
  ⟨0x68, [], 0x0, 0x0, 0x0, 0x0⟩,
  ⟨0x84, [], 0x0, 0x0, 0x0, 0x0⟩,
  ⟨0x90, [], 0x0, 0x0, 0x0, 0x0⟩,
  ⟨0x94, [], 0x80000064, 0x8000ffff, 0x0, 0x0⟩,
  ⟨0xa0, [], 0x0, 0xffffffff, 0x0, 0x0⟩,
  ⟨0xa4, [], 0x0, 0x0, 0x0, 0x0⟩,
  ⟨0xb0, [], 0x0, 0x0, 0x0, 0x0⟩,
  ⟨0xb4, [], 0x0, 0x0, 0x0, 0x0⟩,
  ⟨0xc0, [], 0x0, 0x0, 0x0, 0x0⟩,
  ⟨0xc4, [], 0xffffffff, 0x0, 0xffffffff, 0x0⟩,
  ⟨0x100, [(32, 0x4)], 0x0, 0x0, 0x0, 0x0⟩]

/-- The ER_ register table. -/
def rowsER : List RegRow := [
  ⟨0x0, [], 0x80000006, 0xc00000ff, 0x0, 0x0⟩,
  ⟨0x4, [], 0x0, 0x0, 0x0, 0x0⟩,
  ⟨0x8, [], 0x0, 0x0, 0x40000000, 0x0⟩,
  ⟨0xc, [], 0x0, 0x0, 0x0, 0x0⟩,
  ⟨0x10, [], 0x0, 0x0, 0x0, 0x0⟩,
  ⟨0x14, [], 0x0, 0x0, 0x0, 0x0⟩,
  ⟨0x100, [(128, 0x10)], 0x0, 0xcfff1f1f, 0x0, 0x0⟩,
  ⟨0x104, [(128, 0x10)], 0x0, 0xffffffff, 0x0, 0x0⟩,
  ⟨0x108, [(128, 0x10)], 0x0, 0xffffffff, 0x0, 0x0⟩,
  ⟨0x10c, [(128, 0x10)], 0x0, 0xffffffff, 0x0, 0x0⟩]

/-- The SM_ register table. -/
def rowsSM : List RegRow := [
  ⟨0x0, [], 0x1, 0x0, 0x0, 0x0⟩,
  ⟨0x4, [], 0x0, 0x0, 0x0, 0x0⟩,
  ⟨0x8, [], 0x0, 0x0, 0x0, 0x0⟩,
  ⟨0xc, [], 0x0, 0x0, 0x0, 0x0⟩,
  ⟨0x10, [], 0x8, 0x7f, 0x0, 0x0⟩,
  ⟨0x20, [], 0x0, 0x0, 0x0, 0x0⟩,
  ⟨0x24, [], 0xffffffff, 0xffffffff, 0x0, 0x0⟩,
  ⟨0x28, [], 0x0, 0x0, 0x0, 0x0⟩,
  ⟨0x30, [], 0x0, 0xffff3f03, 0x0, 0x0⟩,
  ⟨0x40, [], 0x0, 0x0, 0x0, 0x0⟩,
  ⟨0x50, [], 0x258, 0xfff, 0x0, 0x0⟩,
  ⟨0x100, [(32, 0x8)], 0x0, 0xdf00ffff, 0x0, 0x0⟩,
  ⟨0x104, [(32, 0x8)], 0x0, 0xffffffff, 0x0, 0x0⟩,
  ⟨0x200, [(17, 0x4)], 0x0, 0x0, 0x80000000, 0x0⟩]

/-- The VB_ register table. -/
def rowsVB : List RegRow := [
  ⟨0x0, [], 0x0, 0x0, 0xffffffff, 0x0⟩,
  ⟨0x100, [(16, 0x40)], 0x60ff0000, 0xe0ff07ff, 0x0, 0x0⟩,
  ⟨0x104, [(16, 0x40)], 0xffffffff, 0xffffffff, 0x0, 0x0⟩,
  ⟨0x108, [(16, 0x40)], 0x0, 0x0, 0x0, 0x0⟩,
  ⟨0x10c, [(16, 0x40)], 0x0, 0x0, 0xc0000000, 0x0⟩,
  ⟨0x110, [(16, 0x40), (8, 0x4)], 0x0, 0x0, 0x0, 0x0⟩,
  ⟨0x130, [(16, 0x40)], 0x0, 0x0, 0x0, 0x0⟩,
  ⟨0x134, [(16, 0x40)], 0x0, 0x0, 0x0, 0x0⟩,
  ⟨0x138, [(16, 0x40)], 0x0, 0x0, 0x0, 0x0⟩]

/-- The MB_ register table. -/
def rowsMB : List RegRow := [
  ⟨0x0, [], 0x0, 0x0, 0x0, 0x0⟩,
  ⟨0x4, [], 0x0, 0x0, 0xffff, 0x0⟩,
  ⟨0x8, [], 0x10000, 0xdffff, 0x0, 0x0⟩,
  ⟨0xc, [], 0x40000001, 0x0, 0x38000000, 0x0⟩,
  ⟨0x10, [], 0x0, 0x0, 0x0, 0x0⟩,
  ⟨0x14, [], 0x0, 0x0, 0x60000000, 0x0⟩,
  ⟨0x18, [], 0x0, 0x0, 0x0, 0x0⟩,
  ⟨0x20, [], 0x0, 0x0, 0x0, 0x0⟩,
  ⟨0x24, [], 0x0, 0x0, 0xffff, 0x0⟩,
  ⟨0x28, [], 0x3c, 0xffff, 0x0, 0x0⟩,
  ⟨0x100, [(16, 0x4)], 0x0, 0x0, 0x0, 0x0⟩,
  ⟨0x200, [], 0x4c, 0x8000007f, 0x0, 0x0⟩,
  ⟨0x204, [], 0x40, 0xf000007f, 0x0, 0x0⟩,
  ⟨0x208, [], 0x0, 0x80000000, 0x0, 0x0⟩,
  ⟨0x20c, [], 0x0, 0x0, 0x0, 0x0⟩,
  ⟨0x210, [], 0x0, 0x0, 0x0, 0x0⟩,
  ⟨0x214, [], 0x0, 0x0, 0x0, 0x0⟩]

/-- The NV_ register table. -/
def rowsNV : List RegRow := [
  ⟨0x0, [], 0x0, 0x0, 0x0, 0x0⟩,
  ⟨0x4, [], 0x0, 0xffffffff, 0x0, 0x0⟩,
  ⟨0x8, [], 0x0, 0x7f7f, 0x0, 0x0⟩,
  ⟨0xc, [], 0x0, 0x0, 0x0, 0x0⟩,
  ⟨0x10, [], 0x40000000, 0x0, 0x0, 0x0⟩,
  ⟨0x14, [], 0x0, 0x0, 0x0, 0x0⟩,
  ⟨0x18, [], 0x0, 0x0, 0x0, 0x0⟩,
  ⟨0x1c, [], 0x0, 0x0, 0x0, 0x0⟩,
  ⟨0x20, [], 0x3e8, 0xffff, 0x0, 0x0⟩]

/-- The SC_ register table. -/
def rowsSC : List RegRow := [
  ⟨0x0, [], 0x0, 0x1, 0x0, 0x0⟩,
  ⟨0x4, [], 0x3a, 0x0, 0x0, 0xff⟩,
  ⟨0x8, [], 0x0, 0x0, 0x0, 0x0⟩,
  ⟨0x10, [], 0x0, 0x0, 0x0, 0x0⟩,
  ⟨0x14, [], 0x0, 0x0, 0x0, 0x0⟩,
  ⟨0x20, [], 0x0, 0x0, 0x0, 0x0⟩,
  ⟨0x24, [], 0x0, 0xffffffff, 0x0, 0x0⟩,
  ⟨0x28, [], 0x0, 0xffffffff, 0x0, 0x0⟩,
  ⟨0x2c, [], 0x0, 0xffffffff, 0x0, 0x0⟩,
  ⟨0x30, [], 0x0, 0xffffffff, 0x0, 0x0⟩,
  ⟨0x34, [], 0x0, 0xffffffff, 0x0, 0x0⟩,
  ⟨0x100, [(4, 0x40), (16, 0x4)], 0x0, 0x0, 0x0, 0x0⟩,
  ⟨0x200, [(16, 0x4)], 0x0, 0x0, 0x0, 0x0⟩,
  ⟨0x240, [(16, 0x4)], 0x0, 0xffffffff, 0x0, 0x0⟩,
  ⟨0x280, [(16, 0x4)], 0x0, 0x0, 0x0, 0x0⟩]

/-- The MR_ register table. -/
def rowsMR : List RegRow := [
  ⟨0x0, [], 0x8004000f, 0x80ff00ff, 0x0, 0x0⟩,
  ⟨0x4, [], 0x0, 0x0, 0x0, 0x0⟩,
  ⟨0x10, [], 0x0, 0x0, 0x0, 0x0⟩,
  ⟨0x14, [], 0x0, 0x0, 0x0, 0x0⟩,
  ⟨0x20, [], 0x0, 0x0, 0x0, 0x0⟩,
  ⟨0x24, [], 0x0, 0x0, 0x0, 0x0⟩,
  ⟨0x28, [], 0x40000000, 0xffffffff, 0x0, 0x0⟩,
  ⟨0x100, [(169, 0x4)], 0x0, 0x0, 0x0, 0x0⟩,
  ⟨0x400, [(36, 0x4)], 0x0, 0xffffffff, 0x0, 0x0⟩,
  ⟨0x490, [], 0x0, 0xffff, 0x0, 0x0⟩]

/-- The RT_ register table. -/
def rowsRT : List RegRow := [
  ⟨0x0, [], 0x0, 0x0, 0x0, 0x0⟩,
  ⟨0x4, [], 0x0, 0x0, 0x0, 0x0⟩,
  ⟨0x1000, [(32, 0x100)], 0x0, 0x7f30, 0x0, 0x0⟩,
  ⟨0x1010, [(32, 0x100), (4, 0x4)], 0x0, 0xffff, 0x0, 0x0⟩,
  ⟨0x1020, [(32, 0x100)], 0x0, 0x1ffffff, 0x0, 0x0⟩,
  ⟨0x1024, [(32, 0x100)], 0x0, 0x707ff, 0x0, 0x0⟩,
  ⟨0x1028, [(32, 0x100)], 0x0, 0xfffffff, 0x0, 0x0⟩,
  ⟨0x102c, [(32, 0x100)], 0x0, 0x1fff1fff, 0x0, 0x0⟩,
  ⟨0x1030, [(32, 0x100)], 0x0, 0x3ffffff, 0x0, 0x0⟩,
  ⟨0x1034, [(32, 0x100)], 0x0, 0xff7f7f00, 0x0, 0x0⟩,
  ⟨0x1038, [(32, 0x100)], 0x40, 0x3ff3ffff, 0x0, 0x0⟩,
  ⟨0x103c, [(32, 0x100)], 0x280032, 0xffffff, 0x0, 0x0⟩,
  ⟨0x1080, [(32, 0x100)], 0x0, 0x0, 0x0, 0x0⟩,
  ⟨0x1084, [(32, 0x100)], 0x0, 0x0, 0x0, 0x0⟩,
  ⟨0x1088, [(32, 0x100)], 0x0, 0x0, 0x0, 0x0⟩,
  ⟨0x108c, [(32, 0x100)], 0x0, 0x0, 0x0, 0x0⟩,
  ⟨0x1090, [(32, 0x100)], 0x0, 0x0, 0x0, 0x0⟩]

/-- The LU_ register table. -/
def rowsLU : List RegRow := [
  ⟨0x0, [], 0x1, 0x1, 0x0, 0x0⟩,
  ⟨0x8, [], 0x400006, 0xff001f, 0x0, 0x0⟩,
  ⟨0xc, [], 0x0, 0xffffffff, 0x0, 0x0⟩,
  ⟨0x10, [], 0x0, 0x0, 0x0, 0x0⟩,
  ⟨0x100, [(2, 0x100)], 0x80, 0x101ff, 0x0, 0x0⟩,
  ⟨0x104, [(2, 0x100)], 0x0, 0x0, 0x14, 0x0⟩,
  ⟨0x108, [(2, 0x100)], 0x0, 0x0, 0x0, 0x0⟩,
  ⟨0x110, [(2, 0x100)], 0x0, 0x1fff, 0x0, 0x0⟩,
  ⟨0x118, [(2, 0x100)], 0x7fffffff, 0xffffffff, 0x0, 0x0⟩,
  ⟨0x11c, [(2, 0x100)], 0x80000000, 0xffffffff, 0x0, 0x0⟩,
  ⟨0x120, [(2, 0x100)], 0x0, 0x0, 0x0, 0x0⟩,
  ⟨0x124, [(2, 0x100)], 0x0, 0x0, 0x0, 0x0⟩,
  ⟨0x400, [(2, 0x100), (2, 0x40), (11, 0x4)], 0x0, 0xffffffff, 0x0, 0x0⟩,
  ⟨0x600, [(2, 0x100)], 0x0, 0x0, 0x0, 0x0⟩,
  ⟨0x620, [(2, 0x100), (4, 0x20)], 0x0, 0x0, 0x0, 0x0⟩,
  ⟨0x624, [(2, 0x100), (4, 0x20)], 0x0, 0x0, 0x0, 0x0⟩,
  ⟨0x628, [(2, 0x100), (4, 0x20)], 0x0, 0x0, 0x0, 0x0⟩,
  ⟨0x62c, [(2, 0x100), (4, 0x20)], 0x0, 0x0, 0x0, 0x0⟩,
  ⟨0x630, [(2, 0x100), (4, 0x20)], 0x0, 0x0, 0x0, 0x0⟩,
  ⟨0x6a0, [(2, 0x100)], 0x0, 0xffffffff, 0x0, 0x0⟩,
  ⟨0x6a4, [(2, 0x100)], 0x0, 0x0, 0x0, 0x0⟩,
  ⟨0x6a8, [(2, 0x100)], 0x0, 0x0, 0x0, 0x0⟩,
  ⟨0x1000, [(2, 0x400), (64, 0x10)], 0x80, 0xffff, 0x0, 0x0⟩,
  ⟨0x1004, [(2, 0x400), (64, 0x10)], 0x0, 0x0, 0x0, 0x0⟩,
  ⟨0x1008, [(2, 0x400), (64, 0x10)], 0x0, 0x0, 0x0, 0x0⟩,
  ⟨0x2000, [(16, 0x10)], 0x320, 0xffff, 0x0, 0x0⟩,
  ⟨0x2004, [(16, 0x10)], 0xa00, 0x3fff3fff, 0x0, 0x0⟩,
  ⟨0x2008, [(16, 0x10)], 0x0, 0x0, 0x0, 0x0⟩,
  ⟨0x200c, [(16, 0x10)], 0x0, 0x0, 0x0, 0x0⟩,
  ⟨0x180, [(2, 0x100)], 0x4102000, 0xffffffff, 0x0, 0x0⟩,
  ⟨0x184, [(2, 0x100)], 0x0, 0x0, 0x0, 0x0⟩,
  ⟨0x188, [(2, 0x100)], 0x0, 0x0, 0x0, 0x0⟩,
  ⟨0x18c, [(2, 0x100)], 0x0, 0x0, 0x0, 0x0⟩,
  ⟨0x190, [(2, 0x100)], 0x0, 0x0, 0x0, 0x0⟩,
  ⟨0x194, [(2, 0x100)], 0x0, 0x0, 0x0, 0x0⟩,
  ⟨0x800, [(2, 0x200)], 0x20105010, 0xbffff0ff, 0x0, 0x0⟩,
  ⟨0x804, [(2, 0x200)], 0x1000, 0x1fffff00, 0x0, 0x0⟩,
  ⟨0x808, [(2, 0x200)], 0x0, 0x0, 0x78, 0x0⟩,
  ⟨0x80c, [(2, 0x200)], 0x0, 0x0, 0x0, 0x0⟩,
  ⟨0x810, [(2, 0x200)], 0x0, 0x0, 0x0, 0x0⟩,
  ⟨0x814, [(2, 0x200)], 0x0, 0x0, 0x0, 0x0⟩,
  ⟨0x818, [(2, 0x200)], 0x0, 0x0, 0x0, 0x0⟩,
  ⟨0x81c, [(2, 0x200)], 0x0, 0x0, 0x0, 0x0⟩,
  ⟨0x840, [(2, 0x200), (16, 0x4)], 0xff, 0xff00ffff, 0x0, 0x0⟩,
  ⟨0x880, [(2, 0x200), (16, 0x4)], 0x0, 0xff, 0x0, 0x0⟩,
  ⟨0x900, [(2, 0x200), (16, 0x10)], 0x0, 0x0, 0x0, 0x0⟩,
  ⟨0x904, [(2, 0x200), (16, 0x10)], 0x0, 0x0, 0x0, 0x0⟩,
  ⟨0x908, [(2, 0x200), (16, 0x10)], 0x0, 0x0, 0x0, 0x0⟩,
  ⟨0x90c, [(2, 0x200), (16, 0x10)], 0x0, 0x0, 0x0, 0x0⟩]

/-- The PW_ register table. -/
def rowsPW : List RegRow := [
  ⟨0x0, [], 0x0, 0x0, 0x0, 0x0⟩,
  ⟨0x4, [], 0x1, 0x1, 0x0, 0x0⟩,
  ⟨0x8, [], 0x0, 0x0, 0xffffffff, 0x0⟩,
  ⟨0xc, [], 0x0, 0x3f3f3f3f, 0x0, 0x0⟩,
  ⟨0x10, [], 0x0, 0xffffffff, 0x0, 0x0⟩,
  ⟨0x14, [], 0x0, 0xffffffff, 0x0, 0x0⟩,
  ⟨0x18, [], 0x0, 0x0, 0x40000000, 0x0⟩,
  ⟨0x1c, [], 0x0, 0x0, 0x0, 0x0⟩,
  ⟨0x100, [(16, 0x80)], 0x10, 0x33, 0x40000000, 0x0⟩,
  ⟨0x104, [(16, 0x80)], 0x0, 0x8fffffff, 0x0, 0x0⟩,
  ⟨0x108, [(16, 0x80)], 0x0, 0x8fffffff, 0x0, 0x0⟩,
  ⟨0x10c, [(16, 0x80)], 0x0, 0xfffffff, 0x0, 0x0⟩,
  ⟨0x110, [(16, 0x80)], 0x0, 0x0, 0x0, 0x0⟩,
  ⟨0x114, [(16, 0x80)], 0x0, 0x0, 0x0, 0x0⟩,
  ⟨0x118, [(16, 0x80)], 0x0, 0x0, 0x0, 0x0⟩,
  ⟨0x11c, [(16, 0x80)], 0x0, 0x0, 0x0, 0x0⟩,
  ⟨0x120, [(16, 0x80)], 0x0, 0x0, 0x0, 0x0⟩,
  ⟨0x124, [(16, 0x80)], 0x0, 0x0, 0x0, 0x0⟩,
  ⟨0x128, [(16, 0x80)], 0x0, 0x0, 0x0, 0x0⟩,
  ⟨0x12c, [(16, 0x80)], 0x10080800, 0xffff3fff, 0x0, 0x0⟩,
  ⟨0x130, [(16, 0x80)], 0x10000200, 0xbfff3fff, 0x40000000, 0x0⟩,
  ⟨0x134, [(16, 0x80)], 0x800, 0x0, 0x0, 0x0⟩,
  ⟨0x138, [(16, 0x80)], 0x0, 0x0, 0x0, 0x0⟩,
  ⟨0x13c, [(16, 0x80)], 0x4f010, 0xffffffff, 0x0, 0x0⟩,
  ⟨0x140, [(16, 0x80)], 0x0, 0x0, 0x0, 0x0⟩,
  ⟨0x144, [(16, 0x80)], 0x0, 0x0, 0x20000000, 0x0⟩,
  ⟨0x148, [(16, 0x80)], 0x0, 0x0, 0x0, 0x0⟩,
  ⟨0x14c, [(16, 0x80)], 0x0, 0x0, 0x0, 0x0⟩]

/-- The AD_ register table. -/
def rowsAD : List RegRow := [
  ⟨0x0, [], 0x0, 0x1, 0x0, 0x0⟩,
  ⟨0x4, [], 0x0, 0x0, 0x0, 0x0⟩,
  ⟨0x8, [], 0x0, 0x0, 0x0, 0x0⟩,
  ⟨0x10, [], 0x80043210, 0x800fffff, 0x0, 0x0⟩,
  ⟨0x14, [], 0x0, 0x0, 0x80000000, 0x0⟩,
  ⟨0x18, [], 0x10, 0xff, 0x0, 0x0⟩,
  ⟨0x1c, [], 0xa1e0020, 0xffff00ff, 0x0, 0x0⟩,
  ⟨0x40, [(16, 0x4)], 0x0, 0xffffffff, 0x0, 0x0⟩,
  ⟨0x100, [(2, 0x100)], 0x30000000, 0x0, 0x2800000, 0x0⟩,
  ⟨0x104, [(2, 0x100)], 0x0, 0x0, 0x0, 0x0⟩,
  ⟨0x108, [(2, 0x100)], 0x33, 0x7, 0x0, 0x0⟩,
  ⟨0x10c, [(2, 0x100)], 0x0, 0x0, 0x0, 0x0⟩,
  ⟨0x110, [(2, 0x100), (4, 0x4)], 0x1, 0xfff7, 0x0, 0x0⟩,
  ⟨0x120, [(2, 0x100), (4, 0x4)], 0x0, 0x0, 0x0, 0x0⟩,
  ⟨0x140, [(2, 0x100), (16, 0x4)], 0x0, 0xef, 0x0, 0x0⟩,
  ⟨0x180, [(2, 0x100), (16, 0x4)], 0x0, 0x0, 0x0, 0x0⟩,
  ⟨0x1c0, [(2, 0x100), (4, 0x4)], 0x0, 0x0, 0x0, 0x0⟩]

/-- The WC_ register table. -/
def rowsWC : List RegRow := [
  ⟨0x100, [(8, 0x40)], 0x3001, 0x873f303f, 0x0, 0x0⟩,
  ⟨0x104, [(8, 0x40)], 0x0, 0x3fff03ff, 0x0, 0x0⟩,
  ⟨0x108, [(8, 0x40)], 0x0, 0x0, 0x0, 0x0⟩,
  ⟨0x10c, [(8, 0x40)], 0x0, 0x0, 0xec00000, 0x0⟩,
  ⟨0x110, [(8, 0x40)], 0x0, 0x0, 0x0, 0x0⟩,
  ⟨0x114, [(8, 0x40)], 0x620, 0x80000fff, 0x0, 0x0⟩,
  ⟨0x118, [(8, 0x40)], 0x1ff0200, 0x3ff03ff, 0x0, 0x0⟩,
  ⟨0x11c, [(8, 0x40)], 0x1ff0200, 0x3ff03ff, 0x0, 0x0⟩,
  ⟨0x120, [(8, 0x40)], 0x0, 0x0, 0x0, 0x0⟩,
  ⟨0x124, [(8, 0x40)], 0x0, 0x0, 0x0, 0x0⟩,
  ⟨0x128, [(8, 0x40)], 0x8010, 0x800ff0ff, 0x0, 0x0⟩,
  ⟨0x800, [(16, 0x20)], 0x1000000, 0x8fff0000, 0x0, 0x0⟩,
  ⟨0x804, [(16, 0x20)], 0x7fff8000, 0xffffffff, 0x0, 0x0⟩,
  ⟨0x808, [(16, 0x20)], 0x0, 0x0, 0x0, 0x0⟩,
  ⟨0x80c, [(16, 0x20)], 0x0, 0x0, 0x0, 0x0⟩]

/-- The PP_ register table. -/
def rowsPP : List RegRow := [
  ⟨0x0, [], 0x1e04, 0xff0f, 0x0, 0x0⟩,
  ⟨0x4, [], 0x0, 0x0, 0x0, 0x0⟩,
  ⟨0x8, [], 0x0, 0x0, 0x0, 0x0⟩,
  ⟨0xc, [], 0x0, 0x0, 0x0, 0x0⟩,
  ⟨0x100, [(16, 0x40)], 0x80000014, 0xe000003f, 0x0, 0x0⟩,
  ⟨0x104, [(16, 0x40)], 0x0, 0x0, 0x10000000, 0x0⟩,
  ⟨0x108, [(16, 0x40)], 0x0, 0x0, 0x0, 0x0⟩,
  ⟨0x10c, [(16, 0x40)], 0x0, 0x0, 0x0, 0x0⟩,
  ⟨0x110, [(16, 0x40)], 0x0, 0x0, 0x0, 0x0⟩,
  ⟨0x114, [(16, 0x40)], 0x0, 0x0, 0x0, 0x0⟩,
  ⟨0x118, [(16, 0x40)], 0x0, 0x0, 0x0, 0x0⟩,
  ⟨0x11c, [(16, 0x40)], 0x0, 0x0, 0x0, 0x0⟩,
  ⟨0x120, [(16, 0x40)], 0x0, 0x0, 0x0, 0x0⟩]

/-- The TM_ register table. -/
def rowsTM : List RegRow := [
  ⟨0x0, [(32, 0x4)], 0x1, 0xf00ff, 0x0, 0x0⟩,
  ⟨0x80, [(32, 0x4)], 0x0, 0x0, 0x40000000, 0x0⟩,
  ⟨0x100, [(32, 0x4)], 0x0, 0x0, 0x0, 0x0⟩,
  ⟨0x180, [(2, 0x4)], 0x1, 0xee07ffff, 0x0, 0x0⟩,
  ⟨0x200, [(8, 0x80)], 0x0, 0xf31f1f0f, 0x0, 0x0⟩,
  ⟨0x204, [(8, 0x80)], 0x0, 0xf, 0x0, 0x0⟩,
  ⟨0x208, [(8, 0x80)], 0x0, 0x0, 0xf, 0x0⟩,
  ⟨0x20c, [(8, 0x80)], 0x0, 0x0, 0x0, 0x0⟩,
  ⟨0x210, [(8, 0x80)], 0x0, 0x0, 0x0, 0x0⟩,
  ⟨0x214, [(8, 0x80)], 0x0, 0x0, 0x0, 0x0⟩,
  ⟨0x218, [(8, 0x80)], 0x0, 0xffffffff, 0x0, 0x0⟩,
  ⟨0x21c, [(8, 0x80)], 0x0, 0xffffffff, 0x0, 0x0⟩,
  ⟨0x220, [(8, 0x80)], 0x0, 0xffffffff, 0x0, 0x0⟩,
  ⟨0x224, [(8, 0x80)], 0x0, 0xffffffff, 0x0, 0x0⟩,
  ⟨0x228, [(8, 0x80)], 0x0, 0x0, 0x0, 0x0⟩,
  ⟨0x22c, [(8, 0x80)], 0x0, 0x0, 0x0, 0x0⟩,
  ⟨0x230, [(8, 0x80)], 0x0, 0xffffffff, 0x0, 0x0⟩,
  ⟨0x234, [(8, 0x80)], 0x0, 0x0, 0x0, 0x0⟩,
  ⟨0x238, [(8, 0x80)], 0x0, 0x0, 0x0, 0x0⟩,
  ⟨0x23c, [(8, 0x80)], 0x0, 0x0, 0x0, 0x0⟩,
  ⟨0x240, [(8, 0x80)], 0x0, 0x0, 0x0, 0x0⟩]

/-- The BD_ register table. -/
def rowsBD : List RegRow := [
  ⟨0x4000, [(8, 0x100)], 0x4, 0x0, 0x0, 0x0⟩,
  ⟨0x4004, [(8, 0x100)], 0x0, 0x3, 0x0, 0x0⟩,
  ⟨0x4008, [(8, 0x100)], 0x0, 0x0, 0x0, 0x0⟩,
  ⟨0x4040, [(8, 0x100), (16, 0x8)], 0x0, 0xffffffe0, 0x0, 0x0⟩,
  ⟨0x4044, [(8, 0x100), (16, 0x8)], 0x0, 0x801f0777, 0x0, 0x0⟩,
  ⟨0x400c, [(8, 0x100)], 0x0, 0xffffffff, 0x0, 0x0⟩,
  ⟨0x4010, [(8, 0x100)], 0x0, 0x0, 0xffffffff, 0x0⟩,
  ⟨0x4014, [(8, 0x100)], 0x0, 0x0, 0x0, 0x0⟩,
  ⟨0x0, [], 0x0, 0xf, 0x80000000, 0x0⟩,
  ⟨0x4, [], 0x0, 0x0, 0x0, 0x0⟩,
  ⟨0x8, [], 0x0, 0x0, 0x0, 0x0⟩,
  ⟨0x10, [], 0x0, 0x0, 0x0, 0x0⟩,
  ⟨0x18, [], 0x0, 0x0, 0x0, 0x0⟩,
  ⟨0x100, [(6, 0x40)], 0x7008000, 0x1f01ffff, 0x0, 0x0⟩,
  ⟨0x104, [(6, 0x40)], 0x0, 0x0, 0x0, 0x0⟩,
  ⟨0x108, [(6, 0x40)], 0x0, 0x0, 0x0, 0x0⟩,
  ⟨0x10c, [(6, 0x40)], 0x0, 0x0, 0x0, 0x0⟩,
  ⟨0x110, [(6, 0x40)], 0x0, 0x0, 0x0, 0x0⟩]

/-- The SB_ register table. -/
def rowsSB : List RegRow := [
  ⟨0x0, [], 0xc0000300, 0xc0000f03, 0x0, 0x0⟩,
  ⟨0x4, [], 0x0, 0x0, 0x78000000, 0x0⟩,
  ⟨0x10, [], 0x0, 0x33ff001f, 0x0, 0x0⟩,
  ⟨0x14, [(2, 0x4)], 0x0, 0xffffffff, 0x0, 0x0⟩,
  ⟨0x1c, [], 0x0, 0x0, 0x0, 0x0⟩,
  ⟨0x20, [], 0x0, 0x0, 0x0, 0x0⟩,
  ⟨0x24, [], 0x0, 0x0, 0x0, 0x0⟩]

/-- The table of the register block that holds spine address a, with the address's offset in the block (R34, R35). -/
def blockOf (a : Nat) : Option (List RegRow × Nat) :=
  if 0x30000000 ≤ a ∧ a < 0x300A0000 then
    let o := a % 0x10000
    match a % 0x100000 / 0x10000 with
    | 0 => some (rowsTB, o) | 1 => some (rowsFM, o) | 2 => some (rowsER, o) | 3 => some (rowsSM, o)
    | 4 => some (rowsVB, o) | 5 => some (rowsMB, o) | 6 => some (rowsNV, o) | 7 => some (rowsSC, o)
    | 8 => some (rowsMR, o) | _ => some (rowsRT, o)
  else if 0x10000000 ≤ a ∧ a < 0x20000000 then
    let o := a % 0x10000
    match a % 0x01000000 / 0x10000 with
    | 0x80 => some (rowsLU, o) | 0x81 => some (rowsPW, o) | 0x82 => some (rowsAD, o) | 0x83 => some (rowsWC, o)
    | 0x84 => some (rowsPP, o) | 0x85 => some (rowsTM, o) | 0x86 => some (rowsBD, o) | 0x87 => some (rowsSB, o)
    | _ => none
  else none

/-- The row of the register at spine address a. -/
def regRow (a : Nat) : Option RegRow := do
  let (rows, o) ← blockOf a
  rows.find? fun r => (r.at? o).isSome

/-- Reset image of entry e of the sequence tables of converter c (R128): CHECK entries carry WIDE = 1. -/
def adSeqReset (c e : Nat) : Nat :=
  match c, e with
  | 0, 1 => 0x62 | 0, 3 => 0x26 | 0, 5 => 0x28 | 0, 7 => 0x21
  | 0, _ => 0x00
  | _, 1 => 0x63 | _, 3 => 0xA4 | _, 5 => 0x28 | _, 7 => 0x20
  | _, _ => 0x01

/-- What the register at spine address a reads after reset: its row's value, but for the two arrays whose reset value
depends on the index, LU_COEF (R74) and the sequence tables (R128), and for AD_CHKREF, whose EXP trim sets (R144). -/
def regReset (a : Nat) : BitVec 32 :=
  let q := 0x10000000 ≤ a ∧ a < 0x20000000
  let blk := a % 0x01000000 / 0x10000
  let o := a % 0x10000
  if q ∧ blk = 0x80 ∧ 0x400 ≤ o ∧ o < 0x600 then
    let m := o % 0x40 / 4
    BitVec.ofNat 32 (if m = 0 ∨ m = 5 then 0x40000000 else 0)
  else if q ∧ blk = 0x82 ∧ 0x140 ≤ o ∧ o < 0x300 ∧ 0x40 ≤ o % 0x100 ∧ o % 0x100 < 0xC0 then
    BitVec.ofNat 32 (adSeqReset (o / 0x100 - 1) (o % 0x40 / 4))
  else if q ∧ blk = 0x82 ∧ o = 0x18 then
    Config.trimRef (a / 0x01000000 % 16) ++ 0x0010#16
  else
    BitVec.ofNat 32 ((regRow a).elim 0 RegRow.reset)

end Sys2Proof.Machine
end

