-- ==== Sys2Proof/Machine/State.lean ====
section
/-! DEFINITION. The state of the device as plain data: the registers of the spine (R33 to R35), the state of each unit
that no register shows, the memories, and the queue of the commands that are waiting. -/

namespace Sys2Proof.Machine

/-- The reasons a command could stop the machine. The spec gives every command an effect, so there is none: no
constructor, and no meaning answers with a fault. -/
inductive Fault where
  deriving DecidableEq, Repr

/-- The reasons a command could be refused. -/
inductive Refusal where
  /-- The command has no meaning in the model yet. Raised only by an arm of exec that rejects by name; safe: nothing
  can be proved of a next state. -/
  | notModelled (mnemonic : String)
  deriving DecidableEq, Repr

/-! ## Time base (R18 to R24) -/

/-- What holds the device in reset, if anything does. -/
inductive Hold where
  /-- The device is out of reset. -/
  | none
  /-- Power-on reset is asserted (R391). -/
  | por
  /-- RESET_N is low after a low that acted (R31). -/
  | resetN
  deriving DecidableEq, Repr

/-- The instructions of the JTAG port (R418). -/
inductive TapInstr where
  | bypass
  | idcode
  | samplePreload
  | extest
  deriving DecidableEq, Repr

/-- The time base and the lifetime counts (R18, R19, R20, R21). (PRESUMED, log 202) -/
structure TimeBase where
  /-- TB_NS, 64 bits (R18); 0. -/
  ns : Nat
  /-- What holds the device in reset (R31, R391); power-on reset. -/
  hold : Hold
  /-- Nanoseconds accrued towards the next 0.1 s unit of operating hours (R19); 0. -/
  part : Nat
  /-- The running count of operating hours, 40 bits (R19); 0. -/
  hrs : Nat
  /-- The power-cycle count, 32 bits (R19); 0. -/
  pcc : Nat
  /-- The newest committed operating hours in NVM, 40 bits (R19); 0. -/
  nvHrs : Nat
  /-- The lifetime records in NVM, newest first: codeword of the lifetime sectors, operating hours, power-cycle count
(R19, R310, R312); empty. -/
  lives : List (Nat × Nat × Nat)
  /-- The codeword of the lifetime sectors that the next lifetime record takes (R312); 0. -/
  nvPos : Nat
  /-- By quire: TB_NS of the last write of TB_QTICK that changed PERIOD (R20); 0. -/
  qwrite : Tab Nat
  /-- By quire: the instant from which the period in force counts its ticks (R21); 0. -/
  qbaseNs : Tab Nat
  /-- By quire: the sample index at that instant, 32 bits (R21); 0. -/
  qbaseIdx : Tab Nat
  /-- By quire: the code of the period that was in force before that instant (R20); 0. -/
  qold : Tab Nat
  /-- By quire: one more than TB_NS of the last control tick taken, 0 for none (R21); 0. -/
  qtaken : Tab Nat
  /-- The instruction that the JTAG port holds (R418); IDCODE, as IEEE 1149.1 has it. -/
  tap : TapInstr
  /-- JTAG status: a FACTORY request was refused (R32); false. -/
  jtagRefused : Bool
  /-- The OTP factory fuse is blown (R30); false. -/
  factoryBlown : Bool
  deriving DecidableEq, Repr

/-- PRESUMED, log 6. -/
def TimeBase.init : TimeBase :=
  { ns := 0, hold := .por, part := 0, hrs := 0, pcc := 0, nvHrs := 0, lives := [], nvPos := 0, qwrite := [],
    qbaseNs := [], qbaseIdx := [], qold := [], qtaken := [], tap := .idcode, jtagRefused := false,
    factoryBlown := false }

/-! ## Fault manager (R366 to R389) -/

/-- One fault record (R369). -/
structure FaultRec where
  cls : Nat
  src : Nat
  event : Nat
  unit : Nat
  seq : Nat
  ns : Nat
  hrs : Nat
  persist : Nat
  device : Bool
  fec : Bool
  pcc : Nat
  detail : Nat
  deriving DecidableEq, Repr

/-- A disagreement between the two views of a unit (R383, R389). -/
structure Disagree where
  kind : Nat
  data : Nat
  mgmt : Nat
  unit : Nat
  deriving DecidableEq, Repr

/-- An entry of the Foreman's list of disagreements: the passes it has been through, and that they were too many, so
that it holds DISAGREE until it is removed (R384). -/
structure Listed where
  what : Disagree
  passes : Nat
  unresolved : Bool
  deriving DecidableEq, Repr

/-- The fault manager's state beside its registers. -/
structure FaultMgr where
  /-- The queue that FM_Q reads, oldest first, at most 64 records (R371); empty. -/
  q : List FaultRec
  /-- The log buffer to the Foreman, oldest first, at most 256 records (R372); empty. -/
  logbuf : List FaultRec
  /-- Records formed since BOOT (R369); 0. -/
  seq : Nat
  /-- The fault log in NVM, oldest first, at most 4,096 records (R372); empty. -/
  log : List FaultRec
  /-- The codeword of the fault log ring that the next record takes (R372); 0. -/
  logPos : Nat
  /-- TB_NS at which the quiet timer runs out (R377); 0. -/
  quietAt : Nat
  /-- TB_NS at which the present watchdog interval began (R381); 0. -/
  wdogAt : Nat
  /-- TB_NS of the watchdog restarts of the last 600 s, newest first (R381); empty. -/
  wdogTimes : List Nat
  /-- The entries that FM_DISQ reads, oldest first, at most 16 (R389); empty. -/
  disq : List Disagree
  /-- The Foreman's list of disagreements, each with the passes it has stood (R384); empty. -/
  dlist : List Listed
  /-- By rail: 1 while the fault manager's trip line pulses to the rail's members (R368); 0. -/
  pulse : Tab Nat
  /-- By rail: 1 + the instant, in ns, at which the trip-line pulse began (R368); 0. -/
  pulseAt : Tab Nat
  /-- By rail: the ports to which that pulse goes (R115, R368); none. -/
  pulseTo : Tab (List Nat)
  /-- By Foreman core: TB_NS of its last odd events, newest first (R379); empty. -/
  odd : Tab (List Nat)
  /-- Foreman cores that are retired, bit i for core i (R379); 0. -/
  retired : Nat
  /-- By rail: the management view, 0 OFF, 1 ON (R383); 0. -/
  railView : Tab Nat
  /-- By engine: the management view of R383 (0 RUN, 1 WAIT, 2 HALT, 3 LOCKOUT); HALT. -/
  engView : Tab Nat
  /-- By rail: 1 while the rail is expected on (R385); 0. -/
  expected : Tab Nat
  /-- By rail: 1 once the rail has reached PG = 1 since that ENABLE (R385); 0. -/
  reached : Tab Nat
  /-- By rail: nanoseconds of unavailable time below one microsecond (R385); 0. -/
  unavail : Tab Nat
  /-- TB_NS of the last reconciliation pass (R384); 0. -/
  passAt : Nat
  deriving DecidableEq, Repr

def FaultMgr.init : FaultMgr :=
  { q := [], logbuf := [], seq := 0, log := [], logPos := 0, quietAt := 0, wdogAt := 0, wdogTimes := [], disq := [],
    dlist := [], pulse := [], pulseAt := [], pulseTo := [], odd := [], retired := 0, railView := [], engView := [],
    expected := [], reached := [], unavail := [], passAt := 0 }

/-! ## Memory reliability and NVM (R296 to R315) -/

/-- One entry of the RAS error log (R303, R314). -/
structure ElogEntry where
  kind : Nat
  scrub : Bool
  hard : Bool
  bank : Nat
  syn : Nat
  addr : Nat
  deriving DecidableEq, Repr

/-- The command of the memory RAS controller in progress (R307). -/
inductive RasOp where
  | none
  /-- A page copy of bank k, page u (R304). -/
  | retire (k u : Nat)
  /-- A bank reset of bank k; the migration's buffer if MIG = 1 (R306). -/
  | brst (k : Nat) (mig : Option Nat)
  deriving DecidableEq, Repr

/-- The memory RAS controller's state beside its registers. -/
structure Ras where
  /-- Granules whose every word counts as written unless its flip says otherwise (R298, R301); none. -/
  filled : Tab Bool
  /-- By 64-bit word (address / 8): its written flag differs from its granule's entry in filled (R298); none. -/
  flips : Tab Bool
  /-- By 64-bit word: 1 one flipped bit, 2 an uncorrectable error (R297); 0. -/
  upset : Tab Nat
  /-- The error log that MR_ELOG reads, oldest first, at most 16 entries (R303); empty. -/
  elog : List ElogEntry
  /-- Entries dropped since the last read of MR_ELOG, 8 bits (R303); 0. -/
  elogDrop : Nat
  /-- By page (bank x 1,024 + page): its correction count (R300); 0. -/
  ce : Tab Nat
  /-- The command in progress (R307); none. -/
  op : RasOp
  /-- Soft spare-row entries awaiting the reset of their bank, as (bank, row) (R305); empty. -/
  softRows : List (Nat × Nat)
  /-- The entries of the RAS table in NVM, oldest first, as (a soft spare row and not a page, bank, row or page) (R304,
R305, R312); empty. -/
  table : List (Bool × Nat × Nat)
  /-- The address the scrubber has reached (R302); 0. -/
  scrub : Nat
  /-- TB_NS from which the scrubber may read its next word (R302); 0. -/
  scrubAt : Nat
  deriving DecidableEq, Repr

def Ras.init : Ras :=
  { filled := [], flips := [], upset := [], elog := [], elogDrop := 0, ce := [], op := .none, softRows := [],
    table := [], scrub := 0, scrubAt := 0 }

/-- The command of the NVM controller in progress (R310). -/
inductive NvOp where
  | none
  /-- Command op for logical sector s, codeword first, whose n source bytes are held (R304, R310). -/
  | fetch (op s first n : Nat)
  /-- Codewords going into logical sector s from codeword first on; data in bytes. -/
  | append (s first : Nat) (data : List Nat)
  /-- Data going into fresh physical sector p for logical sector s. -/
  | sector (s p : Nat) (data : List Nat)
  /-- Logical sector s going to fresh physical sector p. -/
  | erase (s p : Nat)
  deriving DecidableEq, Repr

/-- The NVM: its cells, its mapping and its controller's state beside the registers. -/
structure Nvm where
  /-- By byte (physical sector x 4,096 + offset): its contents (R309); 0xFF, erased. -/
  cells : Tab Byte
  /-- By codeword (physical sector x 128 + codeword): flipped bits it holds, 3 meaning uncorrectable (R309); 0. -/
  flips : Tab Nat
  /-- By codeword: it has been programmed since its sector's erase (R310); false. -/
  used : Tab Bool
  /-- By logical sector: the physical sector it maps to (R308); the sector of the same number. -/
  map : Tab Nat
  /-- By physical sector: its erase count (R311); 0. -/
  wear : Tab Nat
  /-- By physical sector: unmapped and not yet erased (R310); false. -/
  dirty : Tab Bool
  /-- By physical sector: retired (R311); false. -/
  gone : Tab Bool
  /-- The command in progress (R310); none. -/
  op : NvOp
  /-- By logical sector: a 2-bit correction asks for a background rewrite (R309); false. -/
  refresh : Tab Bool
  deriving DecidableEq, Repr

def Nvm.init : Nvm :=
  { cells := [], flips := [], used := [], map := [], wear := [], dirty := [], gone := [], op := .none, refresh := [] }

/-! ## Supply monitor (R390 to R405) -/

/-- What the supply monitor's order is doing (R395, R396). A step stands as (rail, delay in microseconds, step). -/
structure SeqRun where
  /-- Steps of the group in progress that have not started. -/
  todo : List (Nat × Nat × Nat)
  /-- Rails of the group in progress that have been enabled or disabled. -/
  rails : List Nat
  /-- The groups still to come. -/
  groups : List (List (Nat × Nat × Nat))
  /-- Commands that wait in the rail table because one is in progress, as (command, rail) (R43). -/
  waiting : List (Nat × Nat)
  /-- The final group of R395 has been formed. -/
  final : Bool
  /-- Rails the host disabled during SEQUENCE (R404). -/
  hostOff : List Nat
  /-- Rails of the sequence that have reached PG = 1 (R395). -/
  reached : List Nat
  /-- Every rail the sequence has enabled, with its step or 32 for the final group (R395). -/
  started : List (Nat × Nat)
  /-- By rail: 1 + TB_NS of its applying index, 0 before it (R395). -/
  applied : Tab Nat
  /-- TB_NS at which the group in progress was done, from which the next group's delays count. -/
  doneAt : Nat
  /-- The group in progress is done. -/
  done : Bool
  deriving DecidableEq, Repr

def SeqRun.init : SeqRun :=
  { todo := [], rails := [], groups := [], waiting := [], final := false, hostOff := [], reached := [], started := [],
    applied := [], doneAt := 0, done := false }

/-- The supply monitor's state beside its registers. -/
structure Supply where
  /-- Thresholds that stand crossed: bits 1 to 6 VCORE levels 1 to 6, bit 7 VAUX level 6 (R399); 0. -/
  crossed : Nat
  /-- The order in progress (R395, R396). -/
  run : SeqRun
  /-- TB_NS at which the present SHUTDOWN began (R396, R401); 0. -/
  shutAt : Nat
  /-- NVM appends a SHUTDOWN with cause 4 still waits for (R401), bit 0 the lifetime record, bit 1 FM event 3; 0. -/
  appends : Nat
  /-- By speed monitor: it has been measured since BOOT (R403, R405); false. -/
  measured : Tab Bool
  /-- What VCORE, VIO and VAUX measure, mV (R398); 0. -/
  vcore : Nat
  vio : Nat
  vaux : Nat
  /-- By threshold, with the numbers of crossed: the consecutive samples below it, up to 2, and those at or above it
plus 15 mV, up to 64 (R398); 0. -/
  below : Tab Nat
  above : Tab Nat
  /-- TB_NS of the last exit from shed level 5, 0 for none (R402); 0. -/
  left5 : Nat
  deriving DecidableEq, Repr

def Supply.init : Supply :=
  { crossed := 0, run := SeqRun.init, shutAt := 0, appends := 0, measured := [], vcore := 0, vio := 0,
    vaux := 0, below := [], above := [], left5 := 0 }

/-! ## Rails and the voltage loop (R39 to R74) -/

/-- A rail's entry: the per-rail words of the rail table that a COMMIT or ENABLE carries (R43, R73). -/
structure RailEntry where
  cfg : Nat
  m0 : Nat
  m1 : Nat
  m2 : Nat
  m3 : Nat
  vref : Nat
  ll : Nat
  period : Nat
  ilim : Nat
  phlim : Nat
  nph : Nat
  adapt : Nat
  pgood : Nat
  deriving DecidableEq, Repr

def RailEntry.init : RailEntry :=
  { cfg := 0, m0 := 0, m1 := 0, m2 := 0, m3 := 0, vref := 0, ll := 0, period := 0, ilim := 0, phlim := 0, nph := 0,
    adapt := 0, pgood := 0 }

/-- A lane of the intent mixer (R86). -/
structure Lane where
  busy : Bool
  partner : Nat
  entry : Nat
  dI : Int
  step : Int
  c : Int
  c0 : Int
  kh : Nat
  kstart : Nat
  kstep : Nat
  n : Nat
  late : Bool
  base : Int
  /-- I_tot at the tick of the outcome, and whether that tick has come (R89). -/
  endI : Int
  ended : Bool
  recorded : Bool
  deriving DecidableEq, Repr

def Lane.init : Lane :=
  { busy := false, partner := 0, entry := 0, dI := 0, step := 0, c := 0, c0 := 0, kh := 0, kstart := 0, kstep := 0,
    n := 1, late := false, base := 0, endI := 0, ended := false, recorded := false }

/-- A hint the mixer accepted and whose lane was not cut, kept for the groups of R89: its step index, its step, its
partner entry, and its lane, 8 once another hint has taken that. -/
structure Hint where
  kstep : Nat
  dI : Int
  entry : Nat
  lane : Nat
  deriving DecidableEq, Repr

/-- What is in force for one member at an index (R26, R51, R57, R58, R62): its weight, the words of LU_PH_L and
LU_PH_ONLIM of its port, the Vin sample of its quire in mV, its phase sample and its wear score. -/
structure MemberCfg where
  port : Nat
  weight : Nat
  ind : Nat
  lim : Nat
  vin : Nat
  /-- Its phase sample for the index (R51), and its wear score (R62). -/
  sample : Int
  score : Nat
  deriving DecidableEq, Repr

def MemberCfg.init : MemberCfg :=
  { port := 0, weight := 0, ind := 0, lim := 0, vin := 0, sample := 0, score := 0 }

/-- The configuration in force at an index and its Vin samples (R26, R51, step 1 of R56): the entry, IFS, KDI and CMODE
of the slot, and the members by member slot. -/
structure TickCfg where
  entry : RailEntry
  ifs : Nat
  kdi : Nat
  cmode : Bool
  mem : List MemberCfg
  deriving DecidableEq, Repr

def TickCfg.init : TickCfg := { entry := RailEntry.init, ifs := 0, kdi := 0, cmode := false, mem := [] }

/-- An index that engine-in-loop mode has presented and not yet settled (R66, R67). -/
structure Waiting where
  k : Nat
  /-- TB_NS of the tick instant of k. -/
  at_ : Nat
  /-- I_c[k] in units of 2.5 mA / 2^31. -/
  ic : Int
  /-- Vout[k] in 25/1024 uV. -/
  vout : Int
  /-- The submission accepted for k: none yet, some none a NOP, some (some c) the correction c, Q1.31. -/
  sub : Option (Option Int)
  /-- The deadline instant of k, ns, and whether it has passed without a submission (R67). -/
  due : Nat
  missed : Bool
  /-- What is in force at k (R26, R51). -/
  cfg : TickCfg
  deriving DecidableEq, Repr

/-- A rail's loop state beside its registers. (DEDUCED, log 18; DESIGN CHOICE, log 3) -/
structure Rail where
  /-- The entry in force (R45); all zero. -/
  entry : RailEntry
  /-- The command the rail table has accepted and not yet applied: 0 none, 1 COMMIT, 2 ENABLE, 3 DISABLE (R45); 0. -/
  cmd : Nat
  /-- The entry that command carries (R43). -/
  next : RailEntry
  /-- The supply monitor issued that command (R43); false. -/
  bySeq : Bool
  /-- Vramp, unsigned 16.16, 50 uV units (R49); 0. -/
  vramp : Nat
  /-- I_f as a numerator over 2^ifSh, 2.5 mA units (R50); 0. -/
  ifNum : Int
  ifSh : Nat
  /-- I_tot at the last tick, 2.5 mA units (R50); 0. -/
  itot : Int
  /-- Vout and Vset at the last tick, in 25/1024 uV (R50); 0. -/
  vout : Int
  vset : Int
  /-- e[k-1] and e[k-2], Q1.31 (R52); 0. -/
  e1 : Int
  e2 : Int
  /-- ya[k-1], ya[k-2], yb[k-1], yb[k-2], Q1.31 (R52); 0. -/
  ya1 : Int
  ya2 : Int
  yb1 : Int
  yb2 : Int
  /-- i[k-1] and u[k-1], Q1.31 (R52); 0. -/
  i : Int
  u : Int
  /-- The saturation of u at the last tick: 1 at its upper end, -1 at its lower end, 0 none (R54); 0. -/
  usat : Int
  /-- The clamp of the last settled demand by TOTAL (1) or NEG (-1), 0 none (R54); 0. -/
  clamp : Int
  /-- What was in force at the last settled index, and RT_ILIMCNT before it counted (R26, R56); none, 0. -/
  cfgAt : TickCfg
  ilimWas : Nat
  /-- I_d of the last settled index, 2.5 mA units (R57); 0. -/
  demand : Int
  /-- The tick instant, ns, the index and Vout of that index; 0. -/
  demandAt : Nat
  demandK : Nat
  demandV : Int
  /-- The tick instant of the last tick computed, ns, plus 1; 0 for none (R48). -/
  tickAt : Nat
  /-- The tick instant, plus 1, of the last add or drop (R62); 0. -/
  changedAt : Nat
  /-- The DAC code computed last and the tick instant from which it is in force, and the code before it (R50); 0. -/
  dac : Nat
  dacAt : Nat
  dacOld : Nat
  /-- The dwell count of the drop condition (R61); 0. -/
  dwell : Nat
  /-- A rotation tick is due or deferred (R62); false. -/
  rotate : Bool
  /-- By member slot: ticks active towards the next wear count (R62); 0. -/
  wearTicks : Tab Nat
  /-- The active count at the entry to SOFTSTOP, which N keeps there (R61); 0. -/
  stopN : Nat
  /-- TB_NS + 1 of the first tick of the present stay inside WIN, 0 outside it (R48); 0. -/
  pgFrom : Nat
  /-- Consecutive ticks outside WIN (R48); 0. -/
  pgBad : Nat
  /-- REF of the rail's timeline, 1/256 ns (R100); 0. -/
  ref : Nat
  /-- Burst sets by the instant from which each is in force, in ns, newest first (R75); empty. -/
  sets : List (Nat × List Nat)
  /-- The sampling tick of a burst that has fired and not started, plus 1; 0 for none (R76, R77); 0. -/
  fired : Nat
  /-- Those of the bursts that fired after it and have not started, plus 1, oldest first (R76); empty. -/
  more : List Nat
  /-- The start of the last burst, 1/256 ns (R77); 0. -/
  tb : Nat
  /-- The end of its holdoff, 1/256 ns (R81); 0. -/
  holdEnd : Nat
  /-- Members of the last burst whose first tick has not come, plus 1; 0 for none (R81); 0. -/
  nb : Nat
  /-- Bursts started whose registers no tick has written (R81); 0. -/
  newBursts : Nat
  /-- A walk of the rail ended and the offsets await their restaging (R81); false. -/
  walked : Bool
  /-- The active set by member slot as it stood at the last staging (R59); empty. -/
  staged : List Nat
  /-- Indices presented in engine-in-loop mode and not settled, oldest first (R66); empty. -/
  wait : List Waiting
  /-- Submissions accepted for indices already settled are discarded: the newest settled index plus 1 (R67); 0. -/
  settled : Nat
  /-- Consecutive missed indices, in index order (R68); 0. -/
  missRun : Nat
  /-- RUN of them have been missed: engine-in-loop mode is to end (R68); false. -/
  fell : Bool
  /-- TB_NS, plus 1, of a latch-off that came while the rail was OFF with an ENABLE accepted (R72); 0. -/
  latchAt : Nat
  /-- Shed level 6 in SEQUENCE stopped the ramp (R32); false. -/
  holdRamp : Bool
  /-- A pending bank swap also zeroes the compensator states (R55); false. -/
  swapZero : Bool
  /-- The rail takes Vout from the other converter of its home quire (R368); false. -/
  fallback : Bool
  /-- The eight lanes of the intent mixer (R86); free. -/
  lanes : List Lane
  /-- Accepted hints that a group of R89 can still hold, newest first; empty. -/
  hints : List Hint
  /-- Outcome records written (R89); 0. -/
  outcomes : Nat
  deriving DecidableEq, Repr

def Rail.init : Rail :=
  { entry := RailEntry.init, cmd := 0, next := RailEntry.init, bySeq := false, vramp := 0, ifNum := 0, ifSh := 0,
    itot := 0, vout := 0, vset := 0, e1 := 0, e2 := 0, ya1 := 0, ya2 := 0, yb1 := 0, yb2 := 0, i := 0, u := 0,
    usat := 0, clamp := 0, cfgAt := TickCfg.init, ilimWas := 0, demand := 0, demandAt := 0, demandK := 0, demandV := 0,
    tickAt := 0, changedAt := 0, dac := 0, dacAt := 0, dacOld := 0, dwell := 0, rotate := false,
    wearTicks := [], stopN := 0, pgFrom := 0, pgBad := 0, ref := 0, sets := [], fired := 0, more := [], tb := 0,
    holdEnd := 0, nb := 0, newBursts := 0, walked := false, staged := [], wait := [], settled := 0, missRun := 0,
    fell := false, latchAt := 0, holdRamp := false, swapZero := false,
    fallback := false, lanes := List.replicate 8 Lane.init, hints := [], outcomes := 0 }

/-! ## PWM channels (R96 to R122) -/

/-- What a trip forces on a channel's pins (R116). -/
inductive Forced where
  | none
  | bothOff
  | lsOn
  deriving DecidableEq, Repr

/-- A PWM channel's state beside its registers; instants and lengths in 1/256 ns. (DESIGN CHOICE, log 3) -/
structure Chan where
  /-- The load buffer, as the words of PW_PER_STG, PW_ON_STG and PW_OFS_STG (R103); 0. -/
  bufPer : Nat
  bufOn : Nat
  bufOfs : Nat
  /-- The buffer holds a load that no reload has taken, and the tick it was taken on, ns (R103); false, 0. -/
  bufNew : Bool
  bufNs : Nat
  /-- The active values in the same form (R98, R99, R101); 0. -/
  actPer : Nat
  actOn : Nat
  actOfs : Nat
  /-- The period chain runs (R98); false. -/
  live : Bool
  /-- The instant at which the first period starts, plus 1; 0 for none (R100); 0. -/
  first : Nat
  /-- Start and length of the present period (R98); 0. -/
  s : Nat
  len : Nat
  /-- The on-time of the present period (R98, R79); 0. -/
  on : Nat
  /-- The pins command HS-on or LS-on (R98); both-off. -/
  hs : Bool
  ls : Bool
  /-- The last off-edges (R108); 0. -/
  hsOff : Nat
  lsOff : Nat
  /-- On-edges the guard holds, by their instants, plus 1; 0 for none (R108); 0. -/
  pendHs : Nat
  pendLs : Nat
  /-- The HS off-edge of the present period, plus 1; 0 for none (R98); 0. -/
  endHs : Nat
  /-- The LS pulse of the present period is not suppressed (R109); false. -/
  lsNext : Bool
  /-- What a trip forces (R116); none. -/
  forced : Forced
  /-- The latch has been cleared by software and normal periods resume at the next reload (R118); false. -/
  release : Bool
  /-- Reloads since the latch (R118); 0. -/
  hiccup : Nat
  /-- Consecutive quiet periods (R119); 0. -/
  quiet : Nat
  /-- A latch stood in the present period (R119); false. -/
  dirty : Bool
  /-- The walk period in progress, 0 for none (R80, R106); 0. -/
  walk : Nat
  /-- The walk's period count K, its nominal period, its total change and the offset it leads to (R80); 0. -/
  walkK : Nat
  walkT : Nat
  walkD : Int
  walkU : Nat
  /-- REF in use (R99, R100); 0. -/
  ref : Nat
  /-- The dead time that applies from the next reload, plus 1; 0 for none (R111); 0. -/
  dtNext : Nat
  /-- Shadow lines whose map is complete: bit 0 HS, bit 1 LS (R112); 0. -/
  shadow : Nat
  /-- Shadow lines that have failed calibration once, in the same form (R114); 0. -/
  calRetry : Nat
  deriving DecidableEq, Repr

def Chan.init : Chan :=
  { bufPer := 0, bufOn := 0, bufOfs := 0, bufNew := false, bufNs := 0, actPer := 0, actOn := 0, actOfs := 0,
    live := false, first := 0, s := 0, len := 0, on := 0, hs := false, ls := false, hsOff := 0, lsOff := 0,
    pendHs := 0, pendLs := 0, endHs := 0, lsNext := false, forced := .none, release := false, hiccup := 0, quiet := 0,
    dirty := false,
    walk := 0, walkK := 0, walkT := 0, walkD := 0, walkU := 0, ref := 0, dtNext := 0, shadow := 0,
    calRetry := 0 }

/-! ## Sensing (R123 to R145) -/

/-- A filter unit (R133). Samples in units of the code LSB / 655,360,000, newest first. -/
structure Filter where
  hist : List Int
  /-- Stream samples taken since the restart, saturating at 1,024. -/
  count : Nat
  /-- The settled output, 1/256 LSB: of an error-range stream a voltage in 1/256 of 31.25 uV less the DAC code. -/
  out : Int
  /-- The last output that had VALID = 1. -/
  held : Int
  /-- The DAC code in force at the instant of the settled output (R133). -/
  outDac : Nat
  deriving DecidableEq, Repr

def Filter.init : Filter := { hist := [], count := 0, out := 0, held := 0, outDac := 0 }

/-- What a converter's outputs were at a tick instant (R135): the instant, F0 as a voltage in 25/1024 uV, the
error-range sample of that instant in 1/256 LSB, the newest output of each stream and the DAC code it is taken less of,
and the smallest and largest error-range sample since the tick before (R140); oa, olo and ohi are those of the other
slot's VSENSE (R368). -/
structure TickSnap where
  ns : Nat
  f0 : Int
  a : Int
  outs : Tab Int
  dacs : Tab Nat
  lo : Int
  hi : Int
  oa : Int
  olo : Int
  ohi : Int
  deriving DecidableEq, Repr

/-- A converter's state beside its registers. -/
structure Conv where
  /-- One more than TB_NS of the last aggregate sample, 0 for none (R125); 0. -/
  taken : Nat
  /-- By stream (2 x input + WIDE): the previous sample's code plus 4,096, 0 for none (R129). -/
  prev : Tab Nat
  /-- By stream: the newest corrected sample, in LSB / 655,360,000 (R129). -/
  newest : Tab Int
  /-- By error-range stream: the DAC code tagged on that sample (R50). -/
  tagDac : Tab Nat
  /-- By stream: the newest output an unfiltered or filtered consumer takes, 1/256 LSB (R135). -/
  output : Tab Int
  /-- By error-range stream: the DAC code that its newest output is taken less of (R133). -/
  outDac : Tab Nat
  /-- The filter units F0 to F3 (R133). -/
  units : Tab Filter
  /-- The newest corrected REF sample, 1/256 LSB plus 2^20, 0 for none since BOOT (R132). -/
  refNew : Nat
  /-- The newest corrected check result and 1 + its cycle number, 0 for none (R131). -/
  chk : Int
  chkCycle : Nat
  /-- TB_NS from which a completed set of estimates applies, plus 1; 0 for none (R129). -/
  estAt : Nat
  /-- Those estimates by slice (R129). -/
  est : List SliceEst
  /-- The instant, ns, at which the block of samples in progress began (R129). -/
  blockAt : Nat
  /-- Slices AD_SRET has asked to retire (R130). -/
  retire : Nat
  /-- Smallest and largest error-range sample since the last tick, in 1/256 LSB; none before the first (R140). -/
  lo : Option Int
  hi : Option Int
  /-- The same of the error-range samples of the other slot's VSENSE (R140, R368). -/
  olo : Option Int
  ohi : Option Int
  /-- The outputs at the last tick instants, newest first, at most 32 (R135). -/
  snaps : List TickSnap
  deriving DecidableEq, Repr

def Conv.init : Conv :=
  { taken := 0, prev := [], newest := [], tagDac := [], output := [], outDac := [], units := [], refNew := 0, chk := 0,
    chkCycle := 0, estAt := 0, est := [], blockAt := 0, retire := 0, lo := none, hi := none, olo := none, ohi := none,
    snaps := [] }

/-- What the two converters of a quire share beside their registers. -/
structure Sense where
  /-- TB_NS at which committed tables become active, plus 1; 0 for none (R127). -/
  commitAt : Nat
  /-- The committed tables, A's entries and then B's, and the log2 of their lengths (R127). -/
  committed : List Nat
  lenA : Nat
  lenB : Nat
  /-- Consecutive failed checks and consecutive passed checks (R132). -/
  fails : Nat
  passes : Nat
  /-- 1 + the cycle whose check has been made (R131). -/
  checked : Nat
  deriving DecidableEq, Repr

def Sense.init : Sense :=
  { commitAt := 0, committed := [], lenA := 0, lenB := 0, fails := 0, passes := 0, checked := 0 }

/-- A window comparator's state beside its registers. (DESIGN CHOICE, log 3) -/
structure Comp where
  /-- TB_NS of the first evaluation after reset or the last enable (R138). -/
  firstAt : Nat
  /-- TB_NS from which each raw state's sampling ticks at 1 count at the present DIV, and those counted before
  (R141). -/
  loAt : Nat
  hiAt : Nat
  loN : Nat
  hiN : Nat
  /-- By side: TB_NS of the last software clear taken, plus 1, 0 for none, and what the latch held before it (R143). -/
  loClr : Nat
  hiClr : Nat
  loHad : Bool
  hiHad : Bool
  /-- TB_NS from which WC_TOPP has not counted the sampling ticks held at a bound (R140). -/
  heldFrom : Nat
  /-- STUCK has been recorded for the present assertion of each side (R141). -/
  loStuck : Bool
  hiStuck : Bool
  /-- Consecutive disagreeing control ticks (R141). -/
  impl : Nat
  /-- The envelopes and the targets of tracking (R140). -/
  eLo : Nat
  eHi : Nat
  tLo : Int
  tHi : Int
  /-- Thresholds that come into use at the instant useAt (ns), 0 for none waiting (R140). -/
  nLo : Int
  nHi : Int
  useAt : Nat
  /-- One more than TB_NS of the last control tick taken, 0 for none (R140, R141). -/
  taken : Nat
  deriving DecidableEq, Repr

def Comp.init : Comp :=
  { firstAt := 0, loAt := 0, hiAt := 0, loN := 0, hiN := 0, loClr := 0, hiClr := 0, loHad := false, hiHad := false,
    heldFrom := 0, loStuck := false, hiStuck := false, impl := 0, eLo := 0, eHi := 0, tLo := 0,
    tHi := 0, nLo := 0, nHi := 0, useAt := 0, taken := 0 }

/-- A digital current window's state beside its registers (R142). -/
structure Window where
  count : Nat
  side : Bool
  deriving DecidableEq, Repr

def Window.init : Window := { count := 0, side := false }

/-! ## Phase ports and stage buses (R146 to R172) -/

/-- A phase port's state beside its registers. (DEDUCED, log 197; PRESUMED, log 193) -/
structure Port where
  /-- The data-path state, by the codes of R165; ABSENT. -/
  dp : Nat
  /-- Consecutive lost frames (R158). -/
  lost : Nat
  /-- The frame slot that comes next, counted across superframes from the alignment (R150, R156). -/
  slot : Nat
  /-- TB_NS at which the port last aligned (R156). -/
  alignAt : Nat
  /-- Good current samples since the port aligned, at most 2 (R156). -/
  good : Nat
  /-- The last two good current samples and their slots (R156). -/
  x1 : Int
  j1 : Nat
  x2 : Int
  j2 : Nat
  /-- The sample instant of x1, ns, from which the t_f of any slot follows (R156). -/
  tf1 : Nat
  /-- The newest sample instant, plus 1; 0 for none (R156). -/
  newTf : Nat
  /-- Samples by tag, newest first, of indices that its rail has still to compute; at most 32 at a port without a rail
(R155). -/
  tagged : List (Nat × Int)
  /-- Samples supplied for indices whose deadline has passed, newest first, of the same indices (R156). -/
  supplied : List (Nat × Int)
  /-- The resynchronisation attempt in progress, 0 for none (R159). -/
  attempt : Nat
  /-- Good frames seen since a comma in the attempt (R159). -/
  seen : Nat
  /-- TB_NS at which the next attempt starts, plus 1; 0 for none (R159). -/
  retryAt : Nat
  /-- TB_NS at which the attempt in progress started (R159). -/
  tryAt : Nat
  /-- Resynchronisation is exhausted (R159, R168). -/
  exhausted : Bool
  /-- Step 7 of binding failed to align (R167). -/
  alignFail : Bool
  /-- The last status frame had FLT = 1 (R165). -/
  flt : Bool
  /-- What binding waits for: 0 nothing, 5 the transactions of steps 5 and 6, 7 a status frame with PTEN = 0, 8 one with
  PTEN = 1, 9 its completion (R167). -/
  binding : Nat
  /-- TB_NS by which step 7 must align (R167). -/
  bindBy : Nat
  /-- The temporary address of the stage that binding takes, as t (R167). -/
  bindTemp : Nat
  /-- The running disparity of the received code groups is positive (R150). -/
  rd : Bool
  /-- RSY clears at the next control tick (R159). -/
  rsyOff : Bool
  /-- The identify word that the downlink repeats on its common mode; 0 for none (R148). -/
  ident : Nat
  /-- VENDOR and PART of the stage that binding takes, as the bus read them (R163, R346). -/
  vendor : Nat
  part : Nat
  /-- PTEN and RATE as the bus last gave them to the stage, in the places of its CTRL (R163). -/
  ctrl : Nat
  deriving DecidableEq, Repr

def Port.init : Port :=
  { dp := 0, lost := 0, slot := 0, alignAt := 0, good := 0, x1 := 0, j1 := 0, x2 := 0, j2 := 0, tf1 := 0, newTf := 0,
    tagged := [], supplied := [], attempt := 0, seen := 0, retryAt := 0, tryAt := 0, exhausted := false,
    alignFail := false, flt := false, binding := 0, bindBy := 0, bindTemp := 0, rd := false, rsyOff := false,
    ident := 0, vendor := 0, part := 0, ctrl := 0 }

/-- A transaction of the stage bus that is its own: the local port or temporary address, what it is, and the bytes of
its private write (R162). What is 1 ULRST (R159), 2 PTEN = 0 (R168), 3 a read of FSTAT (R168), 4 a write of the stage
profile (R167, R362), 5 a read that confirms a disagreement (R384), 8 SETNEWDA, 9 the clear of IDSTAT, 10 ENEC, 11
PTEN = 1 (R167), of a port; 6 a read of DRID, VENDOR and PART and 7 DISEC (R167), of a temporary address; and 12 ENTDAA
for the stages that wait (R161). -/
structure BusJob where
  a : Nat
  what : Nat
  bytes : List Nat
  deriving DecidableEq, Repr

/-- One entry of SB_IBIQ (R172). -/
structure IbiEntry where
  da : Nat
  cause : Nat
  temp : Bool
  port : Nat
  deriving DecidableEq, Repr

/-- A stage bus's state beside its registers. -/
structure Sbus where
  /-- Temporary addresses in use, as t (R161). -/
  temps : List Nat
  /-- Those of foreign profile, or whose DRID has not been read, which binding passes over (R167). -/
  foreign : List Nat
  /-- The stages that wait for a temporary address (R161). -/
  waiting : Nat
  /-- VENDOR and PART of the stages at temporary addresses, by t (R163). -/
  makers : List (Nat × Nat × Nat)
  /-- TB_NS of the last binding round (R167). -/
  roundAt : Nat
  /-- A stage that joined awaits the round of its own Hot-Join (R167). -/
  roundAsk : Bool
  /-- The transfer in progress, as the word of SB_XCMD plus 1; 0 for none (R172). -/
  xfer : Nat
  /-- The queue that SB_IBIQ reads, oldest first, at most 16 (R172). -/
  ibiq : List IbiEntry
  /-- The bytes that the last transfer of SB_XCMD wrote to its stage, in their order (R162). -/
  sent : List Nat
  /-- The bus's own transactions still to run, the one in progress first (R160). -/
  todo : List BusJob
  deriving DecidableEq, Repr

def Sbus.init : Sbus :=
  { temps := [], foreign := [], waiting := 0, makers := [], roundAt := 0, roundAsk := false, xfer := 0, ibiq := [],
    sent := [], todo := [] }

/-! ## Varip ports (R173 to R186) -/

/-- A good hint on its way to an intent mixer (R180, R84). -/
structure HintWord where
  rail : Nat
  partner : Nat
  dI : Int
  lead : Nat
  conf : Nat
  tEnd : Nat
  deriving DecidableEq, Repr

/-- A Varip port's state beside its registers. -/
structure Varip where
  /-- 1 + the instant, ns, at which the cycle in progress started; 0 for none (R174). -/
  start : Nat
  /-- The beacon of that cycle, 40 bits (R177). -/
  beacon : Nat
  /-- Slots of that cycle that have been classed (R180). -/
  seen : List Nat
  /-- The join window of that cycle is open and has taken no word (R181, R182). -/
  open_ : Bool
  /-- Good join words received: the ticket and the instant their cycle started (R182). -/
  joins : List (Nat × Nat)
  /-- Slots whose revoke a beacon has still to carry, oldest first (R183). -/
  revokes : List Nat
  /-- Good hints on their way, oldest first (R84). -/
  flight : List HintWord
  deriving DecidableEq, Repr

def Varip.init : Varip :=
  { start := 0, beacon := 0, seen := [], open_ := false, joins := [], revokes := [], flight := [] }

/-! ## Engines and bindings (R187 to R274) -/

/-- The fast-entry shadow of R233. -/
structure Shadow where
  pc : Nat
  flags : Nat
  priv : Nat
  ipl : Nat
  bank : Nat
  rpc : Nat
  rkind : Nat
  en : Bool
  glb : Bool
  wbank : Nat
  win : Nat
  deriving DecidableEq, Repr

def Shadow.init : Shadow :=
  { pc := 0, flags := 0, priv := 0, ipl := 0, bank := 0, rpc := 0, rkind := 0, en := false, glb := false, wbank := 0,
    win := 0 }

/-- One entry of the pending code-write buffer: word address, data and byte mask (R214). -/
structure CodeWrite where
  addr : Nat
  data : Nat
  mask : Nat
  deriving DecidableEq, Repr

/-- An engine's architected state: what R259 copies, and the pending code-write buffer. -/
structure Arch where
  /-- The address of the next bundle (R187). -/
  pc : Nat
  /-- Every register by its place: 64 k + i is P[i] of task bank k, 256 + 4 k + j is g(12 + j) of bank k, 272 + i is
  register i of the FIB, 288 + k is the wsp of bank k (R193, R194, R195). -/
  regs : Tab Word
  /-- By task bank: WIX (R193); 0. -/
  wix : Tab Nat
  /-- By task bank: LIVE (R234); 1. -/
  live : Tab Nat
  /-- PA0 to PA3, 72 bits, signed (R200). -/
  acc : Tab Int
  /-- FLAGS (R196). -/
  flags : Nat
  /-- RPC, and the repeat kind: 0 none, 1 REP, 2 REPI (R205, R225). -/
  rpc : Nat
  rkind : Nat
  /-- Privilege 0 to 2, interrupt level, ceiling (R219, R236, R227). -/
  priv : Nat
  ipl : Nat
  eceil : Nat
  /-- The current bank: 0 to 3, or 4 for the FIB (R194, R195). -/
  bank : Nat
  /-- EFP: the frame address with bit 0 set when valid (R227). -/
  efp : Nat
  /-- Frames that were pushed while the FIB was current (R230). -/
  fibFrames : List Nat
  df : Bool
  /-- DTBASE as last written (R224). -/
  dtbase : Nat
  /-- BANKWIN's selector fields (R237). -/
  en : Bool
  glb : Bool
  wbank : Nat
  win : Nat
  /-- By task bank: dirty bits 9:0 of CTXDIRTY (R238); all set. -/
  dirty : Tab Nat
  /-- Dirty bits 15:12 of CTXDIRTY (R238); all set. -/
  edirty : Nat
  /-- By task bank, and 4 for the engine: the tag of R239 plus 1, 0 for invalid. -/
  tags : Tab Nat
  shadow : Shadow
  /-- The pending code-write buffer, oldest first, at most 8 (R214). -/
  cwb : List CodeWrite
  deriving DecidableEq, Repr

/-- The state of R209 and R241. -/
def Arch.init : Arch :=
  { pc := 0, regs := [], wix := [], live := [], acc := [], flags := 0, rpc := 0, rkind := 0, priv := 0, ipl := 0,
    eceil := 0, bank := 0, efp := 0, fibFrames := [], df := false, dtbase := 0xFC00, en := false, glb := false,
    wbank := 0, win := 0, dirty := [], edirty := 15, tags := [], shadow := Shadow.init, cwb := [] }

/-- An input that the leader of a binding takes once (R248). -/
inductive Input where
  /-- A value loaded, or TBLO or TBHI read. -/
  | data (v : Nat)
  /-- A failed access: FADDR, and the FINFO of its frame with the BUS cause. -/
  | fault (addr info : Nat)
  /-- Interrupt line m, taken at the boundary before bundle n. -/
  | irq (m n : Nat)
  /-- The leader left WAIT at the boundary before bundle n. -/
  | wake (n : Nat)
  /-- Exception num, with the FADDR and FINFO of its frame, taken at the boundary before bundle n. -/
  | exc (num addr info n : Nat)
  deriving DecidableEq, Repr

/-- A write on its way to memory or the spine: the spine address, the data and the size in bytes; code marks what
FLUSH.I writes to instruction memory. -/
structure MemOp where
  addr : Nat
  data : Nat
  size : Nat
  code : Bool
  deriving DecidableEq, Repr

/-- A commit record (R250): the bundle, the architected state after it, its writes in program order, the exception it
raised plus 1, and the stop it made (1 WAIT, 2 HALT, 3 LOCKOUT). -/
structure Rec where
  pc : Nat
  post : Arch
  ops : List MemOp
  exc : Nat
  stop : Nat
  /-- For LOCKOUT: the number of the last original exception (R232). -/
  cause : Nat
  /-- Its interrupt line plus 1, whose pending bit the entry clears (R227). -/
  irq : Nat
  /-- Writes that the spine refuses, as (address, log2 of the size); they are recorded when the record commits (R38,
  R251). -/
  refused : List (Nat × Nat)
  deriving DecidableEq, Repr

/-- An engine's state beside its registers. -/
structure Engine where
  /-- The architected state as the engine's own next bundle sees it. -/
  arch : Arch
  /-- The architected state that has been committed (R253); a single engine's is arch. -/
  base : Arch
  /-- The retire buffer, oldest first, at most 6 (R251). -/
  buf : List Rec
  /-- A follower's delay FIFO; a leader's inputs to replay (R248, R254). -/
  fifo : List Input
  /-- Bundles retired as a member (R247). -/
  cnt : Nat
  /-- Stopped at W by the compare buffer (R247, R251). -/
  stuck : Bool
  /-- Stopped by the binding controller (R256). -/
  held : Bool
  /-- Loads outside the engine's own memories whose data is on its way: (register place, value), oldest first (R202). -/
  loads : List (Nat × Nat)
  /-- Spine stores not yet acknowledged (R14). -/
  stores : Nat
  /-- The long operation in progress: register place, result, and whether SAT sets (R203). -/
  long : Option (Nat × Nat × Bool)
  /-- TB_NS of the last odd events, newest first, at most 3 (R257). -/
  odd : List Nat
  /-- Retired from bindings until a FORM or JOIN names it (R257). -/
  retired : Bool
  /-- The image the engine holds, plus 1; 0 for none; the slot it came from, 0 A and 1 B (R344); its ENTRY and PRIV
  (R209, R346, R347). -/
  image : Nat
  slot : Nat
  entry : Nat
  epriv : Nat
  /-- An exception that the engine takes at its next bundle boundary for a write of its own that has failed since: its
  number, FADDR and FINFO (R38, R214, R218). -/
  due : Option (Nat × Nat × Nat)
  deriving DecidableEq, Repr

def Engine.init : Engine :=
  { arch := Arch.init, base := Arch.init, buf := [], fifo := [], cnt := 0, stuck := false, held := false, loads := [],
    stores := 0, long := none, odd := [], retired := false, image := 0, slot := 0, entry := 0, epriv := 0,
    due := none }

/-- A binding slot's state beside its registers. -/
structure Binding where
  /-- The replay log: inputs with the number of the bundle that took them, oldest first, at most 8 (R248). -/
  log : List (Nat × Input)
  /-- Bundles committed (R253). -/
  done : Nat
  /-- Majority records that a triad has committed before its last member retired the bundle, oldest first (R253). -/
  past : List Rec
  /-- The retry succeeds when this many bundles have committed, plus 1; 0 for no retry (R254). -/
  retryTo : Nat
  /-- The command of BD_CMD that waits for a commit boundary: its OP, 0 for none, and ARG or ENG (R263). -/
  cmd : Nat
  arg : Nat
  /-- The engine a state copy goes to, plus 1; 0 for none; the event it ends with; pass 1 is complete (R259, R272). -/
  copyTo : Nat
  copyEvent : Nat
  pass1 : Bool
  /-- The binding is held at a commit boundary (R259, R269). -/
  hold : Bool
  /-- The state under PARKED (R270). -/
  parked : Nat
  /-- BINDEV is due at the next commit boundary (R272). -/
  bindev : Bool
  /-- The member that shedding released, plus 1; 0 for none (R270). -/
  shedOut : Nat
  /-- The followers of a binding that runs unchecked (R262). -/
  former : List Nat
  /-- The members that SPLIT has released and no JOIN has brought back (R266, R272). -/
  splitOut : List Nat
  deriving DecidableEq, Repr

def Binding.init : Binding :=
  { log := [], done := 0, past := [], retryTo := 0, cmd := 0, arg := 0, copyTo := 0, copyEvent := 0, pass1 := false,
    hold := false,
    parked := 0, bindev := false, shedOut := 0, former := [], splitOut := [] }

/-- A binding controller's event queue (R274): its entries, oldest first, at most 16, and the events lost. -/
structure EventQueue where
  entries : List Nat
  drop : Nat
  deriving DecidableEq, Repr

def EventQueue.init : EventQueue := { entries := [], drop := 0 }

/-! ## Timers and EVT pins (R275 to R285) -/

/-- A timer unit's state beside its registers. -/
structure Timer where
  /-- The counter as it stood at TB_NS at_ (R276); 0. -/
  base : Nat
  at_ : Nat
  /-- The ZERO and CMP events of that value have been taken, or cannot occur (R276). -/
  zeroTaken : Bool
  cmpTaken : Bool
  /-- LOAD is due at the next source tick (R276). -/
  load : Bool
  /-- TM_RLD and TM_CMPSET as committed, and the live compare C (R277, R279); 0. -/
  rld : Nat
  cmpset : Nat
  c : Nat
  /-- HI words that wait for their LO write (R279); 0. -/
  rldHi : Nat
  cmpHi : Nat
  /-- The capture queue, oldest first, at most 4: counter and EDGE (R278). -/
  queue : List (Nat × Nat)
  /-- Captures dropped since the last read, saturating (R278). -/
  drop : Nat
  /-- TB_NS of the last capture, plus 1 (R278). -/
  capAt : Nat
  /-- A capture of the present tick that found the queue full and that a read of this tick can still let in (R278). -/
  late : Option (Nat × Nat)
  deriving DecidableEq, Repr

def Timer.init : Timer :=
  { base := 0, at_ := 0, zeroTaken := true, cmpTaken := true, load := false, rld := 0, cmpset := 0, c := 0, rldHi := 0,
    cmpHi := 0, queue := [], drop := 0, capAt := 0, late := none }

/-- The filter of one EVT input in one quire (R282, R283). -/
structure EvtIn where
  /-- The synchronised level, the resolved level R and the filtered level F. -/
  sync : Bool
  r : Bool
  f : Bool
  /-- TB_NS of the last change of R, plus 1; 0 for none. -/
  rAt : Nat
  /-- TB_NS of the last change of F. -/
  fAt : Nat
  /-- The present hold of F has been recorded as stuck. -/
  stuck : Bool
  /-- Changes of a pin the device drives that are still to be synchronised, as TB_NS and level, oldest first (R17,
  R284); empty. -/
  coming : List (Nat × Bool)
  deriving DecidableEq, Repr

def EvtIn.init : EvtIn := { sync := false, r := false, f := false, rAt := 0, fAt := 0, stuck := false, coming := [] }

/-- One EVT output (R284): the instants of the pin changes that events have asked for, oldest first, the end of the
pulse in progress plus 1, and the level before POL. -/
structure EvtOut where
  due : List Nat
  pulseEnd : Nat
  level : Bool
  deriving DecidableEq, Repr

def EvtOut.init : EvtOut := { due := [], pulseEnd := 0, level := false }

/-! ## Event recorder (R286 to R295) -/

/-- The excursion of a channel (R289): side 1 low, 2 high, 0 none. -/
structure Excursion where
  run : Bool
  side : Nat
  n : Nat
  peak : Int
  hrs : Nat
  pcc : Nat
  deriving DecidableEq, Repr

def Excursion.init : Excursion := { run := false, side := 0, n := 0, peak := 0, hrs := 0, pcc := 0 }

/-- A record set: its sequence number, the recorder memory it holds, and NEXT (R291). (DEDUCED, log 86) -/
structure RecSet where
  /-- Which of the 8 sets of the recorder area it takes (R312). -/
  place : Nat
  seq : Nat
  cells : List Host.Cell
  next : Nat
  deriving DecidableEq, Repr

/-- Work of the recorder on its memory, which waits while that memory is held (R304). (DEDUCED, log 213) -/
inductive ErWork where
  /-- A sample v of channel c, whose bin stands at address a, with the stamps of its instant (R287, R288). -/
  | sample (c a : Nat) (v : Int) (pcc hrs : Nat)
  /-- Words from address a on: a log entry (R289). -/
  | put (a : Nat) (ws : List Nat)
  /-- HCLR (R295). -/
  | clearHist
  /-- XTCLR (R288). -/
  | clearExt
  /-- The copy that a commit takes (R291). -/
  | copy
  deriving DecidableEq, Repr

/-- The recorder's state beside its registers. -/
structure Recorder where
  /-- By channel: TB_NS of the last sample instant taken, plus 1 (R286). -/
  taken : Tab Nat
  /-- By channel (R289). -/
  exc : Tab Excursion
  /-- The set a commit in progress is writing (R291). -/
  commit : Option RecSet
  /-- A commit waits for the shed level to fall below 3 (R291). -/
  waiting : Bool
  /-- TB_NS at which the last automatic commit fell due (R291). -/
  autoAt : Nat
  /-- The complete record sets in NVM, newest first, at most 8 (R291). -/
  sets : List RecSet
  /-- Work on held memory, oldest first (R304); empty. -/
  todo : List ErWork
  deriving DecidableEq, Repr

def Recorder.init : Recorder :=
  { taken := [], exc := [], commit := none, waiting := false, autoAt := 0, sets := [], todo := [] }

/-! ## Sessions, host transports and streaming (R316 to R342) -/

/-- A Lyheuf request that the Foreman has taken (R323, R324). -/
structure Request where
  /-- Its SESSION, which the response copies (R324). -/
  session : Nat
  seq : Nat
  op : Nat
  payload : List Nat
  deriving DecidableEq, Repr

/-- A Lyheuf response that is not yet posted (R323, R324). -/
structure Response where
  /-- SESSION, SEQ and OPCODE of its request (R324). -/
  session : Nat
  seq : Nat
  op : Nat
  flags : Nat
  status : Nat
  payload : List Nat
  /-- It completes its SEQ (R327). -/
  done : Bool
  /-- A rail command's response: the rail plus 1, whose RT_APPLIED and RT_CMDSTAT it takes when posted (R330); or the
  rail plus 33, whose LU_CSIDX it takes (R362). -/
  rail : Nat
  deriving DecidableEq, Repr

/-- A session's state beside MB_SESS. -/
structure Session where
  /-- The MCTP endpoint the session is bound to (R322). -/
  endpoint : Nat
  /-- The transport and endpoint of the request in its window, coded as XPORT (R322). -/
  via : Nat
  viaEnd : Nat
  /-- SEQ has a base (R327). -/
  based : Bool
  /-- The opcode of the last completed request, and the message posted for it (R327). -/
  lastOp : Nat
  stored : List Nat
  /-- The request in EXEC (R321). -/
  req : Option Request
  /-- The response to that request, before its post (R323). -/
  ready : Option Response
  /-- The nonce, 32 bytes, empty for none, and TB_NS at which it was given (R326). -/
  nonce : List Nat
  nonceAt : Nat
  /-- The PART 0 fragment held, empty for none, its TAKE and its SEQ (R326). -/
  frag : List Nat
  fragTake : Nat
  fragSeq : Nat
  /-- TB_NS of the last request received (R322). -/
  reqAt : Nat
  /-- The session goes to FREE when its response is posted (R341). -/
  lapse : Bool
  /-- A hardware abort has answered, and the Foreman's own response is still to come (R340). -/
  late : Bool
  /-- The hardware sequencer owes the doorbell its BUSY while the windows' memory is held (R304, R334); false. -/
  busyDue : Bool
  deriving DecidableEq, Repr

def Session.init : Session :=
  { endpoint := 0, via := 0, viaEnd := 0, based := false, lastOp := 0, stored := [], req := none, ready := none,
    nonce := [], nonceAt := 0, frag := [], fragTake := 0, fragSeq := 0, reqAt := 0, lapse := false, late := false,
    busyDue := false }

/-- What the target of a host transport answered: whether it acknowledged, and the bytes it sent, with the PEC that
follows them on SMBus (R317 to R320, R332). -/
structure Answer where
  ack : Bool
  data : List Nat
  pec : Option Nat
  deriving DecidableEq, Repr

/-- A PMBus write that the Foreman carries out as a rail command, with its page (R331, R332). -/
inductive PmbJob where
  /-- OPERATION 0x80, and 0x40 or 0x00. -/
  | enable (r : Nat)
  | disable (r : Nat)
  /-- VOUT_COMMAND, with the TARGET it gives. -/
  | vout (r target : Nat)
  /-- CLEAR_FAULTS of a LATCHED rail. -/
  | clear (r : Nat)
  deriving DecidableEq, Repr

/-- The host transports' state beside the MB_ registers, and the telemetry stream. -/
structure HostSide where
  /-- The host address a transfer of I3C (1) or SMBus (2) goes on from (R317, R318). -/
  addr : Tab Nat
  /-- The maximum write and read lengths of the I3C target (R317). -/
  mwl : Nat
  mrl : Nat
  /-- In-band interrupts are enabled (R317). -/
  events : Bool
  /-- The I3C bus is in HDR-DDR (R317). -/
  ddr : Bool
  /-- The data byte of the in-band interrupt raised and not yet taken, plus 1; 0 for none (R323). -/
  ibi : Nat
  /-- The alert as it last settled, and SMBALERT_N released until its next rise (R323). -/
  alert : Bool
  released : Bool
  /-- A PMBus fault asserts SMBALERT_N (R331). -/
  pmbAlert : Bool
  /-- PAGE (R331). -/
  page : Nat
  /-- By rail: STATUS_CML, and bit 7 of STATUS_IOUT (R331, R332). -/
  cml : Tab Nat
  iout : Tab Nat
  /-- The answer to the last host transfer. -/
  answer : Answer
  /-- The telemetry stream ring (R336): by offset. -/
  ring : Tab Byte
  /-- Bytes of the ring the host has not read (R319). -/
  unread : Nat
  /-- The quantities streamed, as (source, index), the period, ns, 0 for no stream, the session that started it, the
  next record's sequence number and the instant of the last period taken, plus 1 (R336). -/
  stream : List (Nat × Nat)
  streamNs : Nat
  streamOwner : Nat
  streamSeq : Nat
  streamAt : Nat
  /-- PMBus writes that the Foreman has still to carry out, oldest first (R331); empty. -/
  pmb : List PmbJob
  /-- The session that the round robin comes to next (R333); 0. -/
  turn : Nat
  /-- What the hardware abort in progress will report: its RESULT and target (R340). -/
  abort : Nat
  abortTarget : Nat
  deriving DecidableEq, Repr

def HostSide.init : HostSide :=
  { addr := [], mwl := 4100, mrl := 4100, events := true, ddr := false, ibi := 0, alert := false, released := false,
    pmbAlert := false, page := 0, cml := [], iout := [], answer := { ack := false, data := [], pec := none },
    ring := [], unread := 0, stream := [], streamNs := 0, streamOwner := 0, streamSeq := 0, streamAt := 0, pmb := [],
    turn := 0, abort := 0, abortTarget := 0 }

/-! ## Folios, secure boot and the Foreman (R343 to R365, R379 to R381) -/

/-- What the directory records of one slot (R344). -/
structure SlotRec where
  valid : Bool
  version : Nat
  svn : Nat
  keyslot : Nat
  digest : List Nat
  deriving DecidableEq, Repr

def SlotRec.init : SlotRec := { valid := false, version := 0, svn := 0, keyslot := 0, digest := [] }

/-- A directory record (R344): the active slot (0 A, 1 B), the state (0 EMPTY, 1 ACTIVE, 2 TRIAL, 3 PENDING), the
seconds of TRIAL asked for (R357) and the two slots. (DESIGN CHOICE, log 135) -/
structure DirRec where
  active : Nat
  state : Nat
  secs : Nat
  a : SlotRec
  b : SlotRec
  deriving DecidableEq, Repr

def DirRec.init : DirRec := { active := 0, state := 0, secs := 0, a := SlotRec.init, b := SlotRec.init }

/-- The fuses (R348). -/
structure Otp where
  /-- Fuses blown of the anti-rollback counter, 0 to 64. -/
  arb : Nat
  /-- Bit i: vendor slot i is revoked. -/
  rev : Nat
  /-- The owner slot is programmed, and its digest, 64 bytes. -/
  owner : Bool
  ownerDigest : List Nat
  /-- The fuse command in progress: its OP of SC_CMD, 0 for none, and ARG (R365). -/
  op : Nat
  arg : Nat
  deriving DecidableEq, Repr

/-- PRESUMED, log 6. -/
def Otp.init : Otp := { arb := 0, rev := 0, owner := false, ownerDigest := [], op := 0, arg := 0 }

/-- The update of R356: its phase (0 IDLE, 1 LOADING, 2 VERIFIED, 3 INSTALLED), its session, what was verified, and the
slot written. -/
structure Update where
  phase : Nat
  session : Nat
  target : Nat
  inst : Nat
  len : Nat
  slot : Nat
  recd : SlotRec
  deriving DecidableEq, Repr

def Update.init : Update :=
  { phase := 0, session := 0, target := 0, inst := 0, len := 0, slot := 0, recd := SlotRec.init }

/-- An ACTIVATE LIVE in progress (R359, R361, R362): kind 0 none, 1 an engine image, 2 a Foreman image, which waits for
its origin while since is 0, 5 a rail table. -/
structure Activation where
  kind : Nat
  /-- Of an engine image: 0 the next binding is to get its shadow, 1 its shadow runs, 2 its HANDOVER is in progress. -/
  stage : Nat
  /-- It was aborted and ends with the HANDOVER in progress (R363). -/
  stop : Bool
  session : Nat
  /-- The image, and the binding slots still to be handed over (8q + b); of a rail table, the rails still to receive
  COMMIT. -/
  image : Nat
  todo : List Nat
  /-- The slot being replaced and its shadow. -/
  old : Nat
  shadow : Nat
  /-- TB_NS of the shadow's FORM, or of the origin of R361, plus 1. -/
  since : Nat
  /-- The shadow's ready word: its address and its timeout, ns (R345). -/
  ready : Nat
  limit : Nat
  /-- The slot that becomes active. -/
  slot : Nat
  /-- Bindings handed over. -/
  handed : Nat
  /-- Seconds of TRIAL (R358). -/
  trial : Nat
  /-- It reverts a trial (R358): no response is owed. -/
  revert : Bool
  deriving DecidableEq, Repr

def Activation.init : Activation :=
  { kind := 0, stage := 0, stop := false, session := 0, image := 0, todo := [], old := 0, shadow := 0, since := 0,
    ready := 0, limit := 0, slot := 0, handed := 0, trial := 0, revert := false }

/-- The Foreman and what it keeps: the directory, the update, the report. (DESIGN CHOICE, log 187) -/
structure Foreman where
  /-- By target x 64 + instance (R344). -/
  dir : Tab DirRec
  /-- The changes of the directory that its sectors hold, newest first, at most 512: codeword, target x 64 + instance,
and the record (R310, R344); empty. -/
  dirLog : List (Nat × Nat × DirRec)
  /-- The codeword of the directory's sectors that the next change takes (R312); 0. -/
  dirPos : Nat
  /-- The records that the boot ROM has changed and the Foreman has still to write, by target x 64 + instance (R344);
empty. -/
  dirDue : List Nat
  /-- By target x 64 + instance: TB_NS at which its TRIAL ends, plus 1; 0 for none (R358). -/
  trials : Tab Nat
  update : Update
  act : Activation
  /-- The Foreman image that runs: 0 slot A, 1 slot B, 2 golden, 3 none (R353). -/
  image : Nat
  /-- Its VERSION, and the snapshot formats it takes (R345, R361). -/
  version : Nat
  snapLo : Nat
  snapHi : Nat
  /-- The boot ROM serves recovery (R353). -/
  recovery : Bool
  /-- F0 to F2 are restarting by the hardware path (R334, R340). -/
  restarting : Bool
  /-- Their image is still to be loaded, while Foreman memory is held (R304); false. -/
  reload : Bool
  /-- The last entry to reset cut an update short (R32); false, kept until the reset ends. -/
  incomplete : Bool
  /-- The engine plan, 256 bytes, as commands since BOOT have adjusted it (R346, R383). -/
  plan : List Nat
  /-- The body of the stage profile in force, empty for none (R346, R352). -/
  profile : List Nat
  /-- The attestation report and its signature, and TB_NS at which it was built (R355). -/
  report : List Nat
  reportAt : Nat
  /-- The security job in progress: its OP of SC_JOB, 0 for none, and where it will write, what, and its answer
  (R351). -/
  job : Nat
  /-- The job waits for memory that is held (R304); false. -/
  jobWait : Bool
  jobDst : Nat
  jobOut : List Nat
  jobResult : Nat
  deriving DecidableEq, Repr

def Foreman.init : Foreman :=
  { dir := [], dirLog := [], dirPos := 0, dirDue := [], trials := [], update := Update.init, act := Activation.init,
    image := 3, version := 0, snapLo := 0, snapHi := 0, recovery := false, restarting := false, reload := false,
    incomplete := false, plan := [], profile := [], report := [], reportAt := 0, job := 0, jobWait := false,
    jobDst := 0, jobOut := [], jobResult := 0 }

/-! ## The whole device -/

/-- The state of the device. (DESIGN CHOICE, log 7, 175) -/
structure State where
  /-- The spine's registers, by address; an unlisted one holds its reset value (R7, R33 to R35). -/
  regs : Tab Word
  tb : TimeBase
  fm : FaultMgr
  ras : Ras
  nv : Nvm
  sup : Supply
  /-- By rail (R39). -/
  rails : Tab Rail
  /-- By global phase port (R96). -/
  chans : Tab Chan
  /-- By quire: the software timeline committed last, ns (R122). -/
  tlrefs : Tab Nat
  /-- By global converter 2q + c (R125). -/
  convs : Tab Conv
  /-- By quire (R127, R131). -/
  senses : Tab Sense
  /-- By comparator w (R136). -/
  comps : Tab Comp
  /-- By global phase port (R142). -/
  wins : Tab Window
  /-- By global phase port (R165). -/
  ports : Tab Port
  /-- By quire (R160). -/
  sbus : Tab Sbus
  /-- By Varip port (R173). -/
  varips : Tab Varip
  /-- By engine e (R5, R187). -/
  engines : Tab Engine
  /-- By binding slot 8q + b (R243, R370). -/
  binds : Tab Binding
  /-- By quire (R274). -/
  evqs : Tab EventQueue
  /-- By timer unit 8q + m (R275). -/
  timers : Tab Timer
  /-- By EVT input 32q + x (R282, R370). -/
  evtIns : Tab EvtIn
  /-- By EVT output 2q + o (R284). -/
  evtOuts : Tab EvtOut
  /-- The event recorder (R286). -/
  er : Recorder
  /-- By session (R321). -/
  sess : Tab Session
  /-- The host transports and the stream (R316, R336). -/
  host : HostSide
  /-- The fuses (R348). -/
  otp : Otp
  /-- The Foreman (R343, R379). -/
  frm : Foreman
  /-- The memories behind the spine, by spine address, bytes that are not 0 (R33, R34, R296). -/
  mem : List Host.Cell
  /-- By register address: the flags that hardware has set on the present 1 ns tick (R10); none. -/
  raised : Tab Nat
  /-- The model's own counter of the free values taken so far. -/
  fresh : Nat
  /-- The commands that are waiting, first in, first out. -/
  pending : List Instr
  deriving DecidableEq, Repr

/-- The device right after power is applied: every register at its reset value, the NVM erased, and power-on reset
asserted until its release conditions hold (R391). (DESIGN CHOICE, log 4, 5, 88) -/
def State.reset : State :=
  { regs := [], tb := TimeBase.init, fm := FaultMgr.init, ras := Ras.init, nv := Nvm.init, sup := Supply.init,
    rails := [], chans := [], tlrefs := [], convs := [], senses := [], comps := [], wins := [], ports := [], sbus := [],
    varips := [], engines := [], binds := [], evqs := [], timers := [], evtIns := [],
    evtOuts := [], er := Recorder.init, sess := [], host := HostSide.init, otp := Otp.init, frm := Foreman.init,
    mem := [], raised := [], fresh := 0, pending := [] }

end Sys2Proof.Machine
end

