-- ==== Sys2Proof/Machine/Ops.lean ====
section
/-! DEFINITION. The named operations over the state that every family of commands shares: reading and writing
registers and the units' tables, time and the sample index, interrupt lines, the fault manager's records and standing
conditions, and the operating mode. -/

namespace Sys2Proof.Machine

/-- What a command answers. -/
abbrev Out := Host.Outcome State Fault Refusal

/-- The answer of a command whose occurrence condition is g: its effect t where g holds, no change otherwise. (DESIGN
CHOICE, log 1) -/
def act (g : Bool) (s t : State) : Out := .next (if g then t else s)

/-! ## Registers (R7) -/

/-- The value held at register address a. -/
def rd (s : State) (a : Nat) : Nat := (tget regReset s.regs a).toNat

/-- The state with v held at register address a. -/
def wr (a v : Nat) (s : State) : State := { s with regs := tset regReset s.regs a (BitVec.ofNat 32 v) }

/-- Field f of the register at a. -/
def fld (s : State) (a : Nat) (f : Bits) : Nat := getBits (rd s a) f

/-- The state with v in field f of the register at a. -/
def setFld (a : Nat) (f : Bits) (v : Nat) (s : State) : State := wr a (putBits (rd s a) f v) s

/-- A one-bit field read as a truth value. -/
def flag (s : State) (a : Nat) (f : Bits) : Bool := fld s a f != 0

/-- The state with a one-bit field set to b. -/
def setFlag (a : Nat) (f : Bits) (b : Bool) (s : State) : State := setFld a f (b2n b) s

/-- The state with field f counted up by n, saturating. -/
def addFld (a : Nat) (f : Bits) (n : Nat) (s : State) : State := setFld a f (min (fld s a f + n) (maxBits f)) s

/-- The state with field f counted up by one, saturating. -/
def incFld (a : Nat) (f : Bits) (s : State) : State := addFld a f 1 s

/-- A register's whole word as a field. -/
def wordBits : Bits := ⟨31, 0⟩

/-- Bits of m set in the register at a. -/
def orWord (a m : Nat) (s : State) : State := wr a (rd s a ||| m) s

/-- Bits of m cleared in the register at a. -/
def clrWord (a m : Nat) (s : State) : State := wr a (rd s a &&& (0xFFFFFFFF ^^^ m)) s

/-- The flags of the register at a that hardware has set on the present 1 ns tick: they outlast a clear of that tick
(R10, R235). (DEDUCED, log 226) -/
def raisedIn (s : State) (a : Nat) : Nat := tget (fun _ => 0) s.raised a

/-- Hardware sets the flags of mask m in the register at a (R10). (DEDUCED, log 226) -/
def raiseWord (a m : Nat) (s : State) : State :=
  orWord a m { s with raised := tset (fun _ => 0) s.raised a (raisedIn s a ||| m) }

/-- Hardware sets the one-bit flag f of the register at a (R10). -/
def raiseFlag (a : Nat) (f : Bits) (s : State) : State := raiseWord a (2 ^ f.lo) s

/-- The flags of mask m clear in the register at a, but for those that hardware sets on this tick (R10, R235).
(DEDUCED, log 226) -/
def lowerWord (a m : Nat) (s : State) : State := clrWord a (m &&& (0xFFFFFFFF ^^^ raisedIn s a)) s

/-- The word a register holds after a write of v: RW bits take v, W1C bits at 1 in v clear unless hardware sets them on
this tick (held), and RWL bits take v until SC_LOCK is set (R7, R10). -/
def written (row : RegRow) (locked : Bool) (held old v : Nat) : Nat :=
  let rw := if locked then row.rw else row.rw ||| row.rwl
  ((old &&& (0xFFFFFFFF ^^^ rw)) ||| (v &&& rw)) &&& (0xFFFFFFFF ^^^ (row.w1c &&& v &&& (0xFFFFFFFF ^^^ held)))

/-- The plain effect of a write of v to the register at a (R7, R10). (DEDUCED, log 226) -/
def plainWrite (a v : Nat) (s : State) : State :=
  match regRow a with
  | some row => wr a (written row (flag s Reg.SC_LOCK Fld.SC_LOCK_LOCK) (raisedIn s a) (rd s a) v) s
  | none => s

/-! ## Units -/

/-- The state of rail r. -/
def railOf (s : State) (r : Nat) : Rail := tget (fun _ => Rail.init) s.rails r
def setRail (r : Nat) (x : Rail) (s : State) : State := { s with rails := tset (fun _ => Rail.init) s.rails r x }
def updRail (r : Nat) (f : Rail → Rail) (s : State) : State := setRail r (f (railOf s r)) s

/-- The state of the PWM channel of port n. -/
def chanOf (s : State) (n : Nat) : Chan := tget (fun _ => Chan.init) s.chans n
def setChan (n : Nat) (x : Chan) (s : State) : State := { s with chans := tset (fun _ => Chan.init) s.chans n x }
def updChan (n : Nat) (f : Chan → Chan) (s : State) : State := setChan n (f (chanOf s n)) s

/-- The state of converter c. -/
def convOf (s : State) (c : Nat) : Conv := tget (fun _ => Conv.init) s.convs c
def setConv (c : Nat) (x : Conv) (s : State) : State := { s with convs := tset (fun _ => Conv.init) s.convs c x }
def updConv (c : Nat) (f : Conv → Conv) (s : State) : State := setConv c (f (convOf s c)) s

/-- What the converters of quire q share. -/
def senseOf (s : State) (q : Nat) : Sense := tget (fun _ => Sense.init) s.senses q
def updSense (q : Nat) (f : Sense → Sense) (s : State) : State :=
  { s with senses := tset (fun _ => Sense.init) s.senses q (f (senseOf s q)) }

/-- The state of comparator w. -/
def compOf (s : State) (w : Nat) : Comp := tget (fun _ => Comp.init) s.comps w
def updComp (w : Nat) (f : Comp → Comp) (s : State) : State :=
  { s with comps := tset (fun _ => Comp.init) s.comps w (f (compOf s w)) }

/-- The state of current window n. -/
def winOf (s : State) (n : Nat) : Window := tget (fun _ => Window.init) s.wins n
def updWin (n : Nat) (f : Window → Window) (s : State) : State :=
  { s with wins := tset (fun _ => Window.init) s.wins n (f (winOf s n)) }

/-- The state of phase port n. -/
def portOf (s : State) (n : Nat) : Port := tget (fun _ => Port.init) s.ports n
def updPort (n : Nat) (f : Port → Port) (s : State) : State :=
  { s with ports := tset (fun _ => Port.init) s.ports n (f (portOf s n)) }

/-- The state of the stage bus of quire q. -/
def sbusOf (s : State) (q : Nat) : Sbus := tget (fun _ => Sbus.init) s.sbus q
def updSbus (q : Nat) (f : Sbus → Sbus) (s : State) : State :=
  { s with sbus := tset (fun _ => Sbus.init) s.sbus q (f (sbusOf s q)) }

/-- The state of Varip port v. -/
def varipOf (s : State) (v : Nat) : Varip := tget (fun _ => Varip.init) s.varips v
def updVarip (v : Nat) (f : Varip → Varip) (s : State) : State :=
  { s with varips := tset (fun _ => Varip.init) s.varips v (f (varipOf s v)) }

/-- The state of engine e. -/
def engOf (s : State) (e : Nat) : Engine := tget (fun _ => Engine.init) s.engines e
def updEng (e : Nat) (f : Engine → Engine) (s : State) : State :=
  { s with engines := tset (fun _ => Engine.init) s.engines e (f (engOf s e)) }

/-- The state of binding slot b of quire q. -/
def bindOf (s : State) (q b : Nat) : Binding := tget (fun _ => Binding.init) s.binds (8 * q + b)
def updBind (q b : Nat) (f : Binding → Binding) (s : State) : State :=
  { s with binds := tset (fun _ => Binding.init) s.binds (8 * q + b) (f (bindOf s q b)) }

/-- The state of timer m of quire q. -/
def timerOf (s : State) (q m : Nat) : Timer := tget (fun _ => Timer.init) s.timers (8 * q + m)
def updTimer (q m : Nat) (f : Timer → Timer) (s : State) : State :=
  { s with timers := tset (fun _ => Timer.init) s.timers (8 * q + m) (f (timerOf s q m)) }

/-- The filter of EVT input x in quire q. -/
def evtInOf (s : State) (q x : Nat) : EvtIn := tget (fun _ => EvtIn.init) s.evtIns (32 * q + x)
def updEvtIn (q x : Nat) (f : EvtIn → EvtIn) (s : State) : State :=
  { s with evtIns := tset (fun _ => EvtIn.init) s.evtIns (32 * q + x) (f (evtInOf s q x)) }

/-- EVT output o of quire q. -/
def evtOutOf (s : State) (q o : Nat) : EvtOut := tget (fun _ => EvtOut.init) s.evtOuts (2 * q + o)
def updEvtOut (q o : Nat) (f : EvtOut → EvtOut) (s : State) : State :=
  { s with evtOuts := tset (fun _ => EvtOut.init) s.evtOuts (2 * q + o) (f (evtOutOf s q o)) }

def updEr (f : Recorder → Recorder) (s : State) : State := { s with er := f s.er }

def updTb (f : TimeBase → TimeBase) (s : State) : State := { s with tb := f s.tb }
def updFm (f : FaultMgr → FaultMgr) (s : State) : State := { s with fm := f s.fm }
def updSup (f : Supply → Supply) (s : State) : State := { s with sup := f s.sup }
def updRas (f : Ras → Ras) (s : State) : State := { s with ras := f s.ras }
def updNv (f : Nvm → Nvm) (s : State) : State := { s with nv := f s.nv }
def updHost (f : HostSide → HostSide) (s : State) : State := { s with host := f s.host }
def updOtp (f : Otp → Otp) (s : State) : State := { s with otp := f s.otp }
def updFrm (f : Foreman → Foreman) (s : State) : State := { s with frm := f s.frm }

/-- The state of session x. -/
def sessOf (s : State) (x : Nat) : Session := tget (fun _ => Session.init) s.sess x
def updSess (x : Nat) (f : Session → Session) (s : State) : State :=
  { s with sess := tset (fun _ => Session.init) s.sess x (f (sessOf s x)) }

/-- The effects of f at every element of a list, in its order. -/
def forAll {α : Type} (xs : List α) (f : α → State → State) (s : State) : State := xs.foldl (fun s x => f x s) s

/-! ## Free values -/

/-- The state after one free value has been taken. (DESIGN CHOICE, log 7) -/
def spend (s : State) : State := { s with fresh := s.fresh + 1 }

/-! ## Modes, time and the sample index -/

/-- The operating mode (R29). -/
def mode (s : State) : Nat := fld s Reg.SM_MODE Fld.SM_MODE_MODE

/-- The device enters mode m, which SM_MODE and MB_HSTAT show (R29, R342). -/
def enterMode (m : Nat) (s : State) : State :=
  setFld Reg.MB_HSTAT Fld.MB_HSTAT_MODE m (setFld Reg.SM_MODE Fld.SM_MODE_MODE m s)

/-- The shed level (R399). -/
def shed (s : State) : Nat := fld s Reg.SM_MODE Fld.SM_MODE_SHED

/-- The device is powered and out of reset: not held (R31, R391) and not in DORMANT (R29). -/
def alive (s : State) : Bool := s.tb.hold == .none && mode s != 0

/-- The answer of a command that acts only on a device out of reset, where g holds. (DESIGN CHOICE, log 1) -/
def live (g : Bool) (s t : State) : Out := act (alive s && g) s t

/-- TB_NS (R18). (DESIGN CHOICE, log 3) -/
def now (s : State) : Nat := s.tb.ns

/-- The present instant in 1/256 ns. (DESIGN CHOICE, log 3) -/
def fine (s : State) : Nat := s.tb.ns * 256

/-- The control tick period of quire q, ns (R20). -/
def tickNs (s : State) (q : Nat) : Nat := 16 * 2 ^ fld s (Reg.TB_QTICK q) Fld.TB_QTICK_ACTIVE

/-- The instant from which quire q's period in force counts its ticks (R20). -/
def tickBase (s : State) (q : Nat) : Nat := tget (fun _ => 0) s.tb.qbaseNs q

/-- The control tick period of quire q in force at the instant ns: that before the last change, up to the change
(R20). -/
def tickNsAt (s : State) (q ns : Nat) : Nat :=
  if ns < tickBase s q then 16 * 2 ^ tget (fun _ => 0) s.tb.qold q else tickNs s q

/-- The first tick instant of quire q strictly after instant x, by the period in force at each instant (R20). -/
def tickAfter (s : State) (q x : Nat) : Nat :=
  let y := nextMultiple x (tickNsAt s q x)
  if x < tickBase s q then min y (tickBase s q) else y

/-- The sample index of quire q at the instant ns: that of its newest control tick at or before it, by the period in
force then (R20, R21). -/
def indexAt (s : State) (q ns : Nat) : Nat :=
  let base := tickBase s q
  let k := tget (fun _ => 0) s.tb.qbaseIdx q
  if ns < base then (2 ^ 32 + k - ceilDiv (base - ns) (tickNsAt s q ns) % 2 ^ 32) % 2 ^ 32
  else (k + (ns - base) / tickNs s q) % 2 ^ 32

/-- The sample index of quire q now. -/
def index (s : State) (q : Nat) : Nat := indexAt s q s.tb.ns

/-- The present instant is a tick instant of quire q whose control tick has not been taken (R20, R21). -/
def tickDue (s : State) (q : Nat) : Bool :=
  now s % tickNs s q == 0 && tget (fun _ => 0) s.tb.qtaken q != now s + 1

/-- The Foreman serves: the device is past BOOT and MB_HSTAT.FBUSY is 0 (R334). -/
def foremanServes (s : State) : Bool := alive s && decide (2 ≤ mode s) && !flag s Reg.MB_HSTAT Fld.MB_HSTAT_FBUSY

/-! ## Interrupt lines (R235, R246) -/

/-- The number of members binding slot b of quire q has, and their engines by position. -/
def slotMembers (s : State) (q b : Nat) : List Nat :=
  let a := Reg.BD_BSTAT q b
  [fld s a Fld.BD_BSTAT_M0, fld s a Fld.BD_BSTAT_M1, fld s a Fld.BD_BSTAT_M2].take (fld s a Fld.BD_BSTAT_NMEM)

/-- Binding slot b of quire q holds running members: its state is RUN, RETRY, COPY, UNCHECKED or PARKED (R274). -/
def slotFormed (s : State) (q b : Nat) : Bool :=
  let st := fld s (Reg.BD_BSTAT q b) Fld.BD_BSTAT_STATE
  st == 2 || st == 3 || st == 4 || st == 5 || st == 7

/-- The binding slot of quire q that engine i is a running member of. -/
def slotOfEngine (s : State) (q i : Nat) : Option Nat :=
  (List.range 6).find? fun b => slotFormed s q b && (slotMembers s q b).contains i

/-- Engine i of quire q is a member of a formed binding other than its home engine, whose engine registers the binding
controller ignores (R246). -/
def isFollower (s : State) (q i : Nat) : Bool :=
  (List.range 6).any fun b => slotFormed s q b && (slotMembers s q b).contains i &&
    fld s (Reg.BD_BSTAT q b) Fld.BD_BSTAT_HOME != i

/-- Bit m of BD_IPEND of engine i of quire q sets (R235). -/
def setLineOf (q i m : Nat) (s : State) : State := raiseWord (Reg.BD_IPEND q i) (2 ^ m) s

/-- An event on line m of every engine of quire q that is not a follower (R235). -/
def setLine (q m : Nat) (s : State) : State :=
  forAll (List.range 8) (fun i s => if isFollower s q i then s else setLineOf q i m s) s

/-! ## Fault manager (R366 to R378) -/

/-- What first-error capture takes of a report (R374): address, master, access type, log2 of the size, and cause. -/
structure FecInfo where
  addr : Nat
  master : Nat
  type : Nat
  size : Nat
  kind : Nat
  deriving DecidableEq, Repr

/-- A report to the fault manager (R366, R369, R370). -/
structure Rep where
  src : Nat
  event : Nat
  cls : Nat
  unit : Nat
  detail : Nat := 0
  persist : Nat := 0
  device : Bool := false
  fec : Option FecInfo := none
  deriving DecidableEq, Repr

/-- The quires a report concerns (R373). -/
def noticeQuires (x : Rep) : List Nat :=
  match x.src with
  | 0x10 => [x.unit / 2]
  | 0x11 => [x.unit / 16]
  | 0x12 => [x.unit / 2]
  | 0x13 => [x.unit / 8]
  | 0x14 => [x.unit / 16]
  | 0x15 => [x.unit / 32]
  | 0x16 => [x.unit / 8]
  | 0x17 => [if x.unit < 0x100 then x.unit / 16 else (x.unit - 0x100) / 16]
  | 0x18 => [x.unit / 8]
  | 0x1A => if x.unit < 128 then [x.unit / 8] else List.range 16
  | _ => List.range 16

/-- The fault state and the mode settle: REGULATE goes to DEGRADED while a standing condition holds, and DEGRADED to
REGULATE when none holds and ALERT is 0 (R378). -/
def settleMode (s : State) : State :=
  if mode s = 4 ∧ rd s Reg.FM_DEGR ≠ 0 then enterMode 5 s
  else if mode s = 5 ∧ rd s Reg.FM_DEGR = 0 ∧ flag s Reg.FM_STAT Fld.FM_STAT_ALERT = false then enterMode 4 s
  else s

/-- Standing condition i holds or not (R378). -/
def setCond (i : Nat) (b : Bool) (s : State) : State :=
  settleMode (if b then orWord Reg.FM_DEGR (2 ^ i) s else clrWord Reg.FM_DEGR (2 ^ i) s)

/-- The queue of FM_Q after a record arrives, and how many records were dropped (R371). (DEDUCED, log 147) -/
def queueRecord (q : List FaultRec) (x : FaultRec) : List FaultRec × Nat :=
  if q.length < 64 then (q ++ [x], 0)
  else if x.cls = 1 then (q, 1)
  else
    match q.reverse.findIdx? (fun y => y.cls = 1) with
    | some i => ((q.reverse.eraseIdx i).reverse ++ [x], 1)
    | none => (q, 1)

/-- The capture takes a report, or counts it (R374). -/
def capture (x : Rep) (f : FecInfo) (s : State) : State :=
  if flag s Reg.FM_FEC_INFO Fld.FM_FEC_INFO_VALID then incFld Reg.FM_FEC_MORE wordBits s
  else
    let info := 2 ^ 31 + f.type * 2 ^ 28 + f.size * 2 ^ 26 + x.cls * 2 ^ 24 + f.master * 2 ^ 16 + x.src * 2 ^ 8 + f.kind
    s |> wr Reg.FM_FEC_ADDR_LO (f.addr % 2 ^ 32) |> wr Reg.FM_FEC_ADDR_HI (f.addr / 2 ^ 32)
      |> wr Reg.FM_FEC_TB_LO (s.tb.ns % 2 ^ 32) |> wr Reg.FM_FEC_TB_HI (s.tb.ns / 2 ^ 32)
      |> wr Reg.FM_FEC_HRS_LO (s.tb.hrs % 2 ^ 32) |> wr Reg.FM_FEC_HRS_HI (s.tb.hrs / 2 ^ 32)
      |> wr Reg.FM_FEC_PCC s.tb.pcc |> wr Reg.FM_FEC_INFO info

/-- The counter of a record's class (R366). -/
def countClass (cls : Nat) (s : State) : State :=
  match cls with
  | 1 => incFld Reg.FM_CCNT wordBits s
  | 2 => incFld Reg.FM_UCNT wordBits s
  | 3 => incFld Reg.FM_FCNT wordBits s
  | _ => s

/-- A record of class U or F sets ALERT and restarts the quiet timer (R377). -/
def raiseAlert (s : State) : State :=
  setFlag Reg.FM_STAT Fld.FM_STAT_ALERT true
    (updFm (fun f => { f with quietAt := s.tb.ns + max 1 (fld s Reg.FM_CTRL Fld.FM_CTRL_QUIET) * 1000000 }) s)

/-- The record a report forms (R369). -/
def recordOf (s : State) (x : Rep) : FaultRec :=
  { cls := x.cls, src := x.src, event := x.event, unit := x.unit, seq := s.fm.seq + 1, ns := s.tb.ns, hrs := s.tb.hrs,
    persist := x.persist, device := x.device,
    fec := x.fec.isSome && !flag s Reg.FM_FEC_INFO Fld.FM_FEC_INFO_VALID, pcc := s.tb.pcc, detail := x.detail }

/-- The record goes to the queue of FM_Q and, but for class C, to the log buffer (R371, R372). -/
def fileRecord (rc : FaultRec) (s : State) : State :=
  let (q, d) := queueRecord s.fm.q rc
  let s := addFld Reg.FM_QDROP wordBits d (updFm (fun f => { f with q := q, seq := rc.seq }) s)
  if rc.cls = 1 then s
  else if s.fm.logbuf.length < 256 then updFm (fun f => { f with logbuf := f.logbuf ++ [rc] }) s
  else incFld Reg.FM_LOGDROP wordBits s

/-- A report to the fault manager: it is stamped, queued, counted, captured where R374 says so, and escalated
(R366 to R374, R377). What a device-fatal report starts is the SHUTDOWN of R382, which its callers start. -/
def report (x : Rep) (s : State) : State :=
  let s := countClass x.cls (fileRecord (recordOf s x) s)
  let s := match x.fec with
    | some f => capture x f s
    | none => s
  if x.cls < 2 then s
  else
    let s := raiseAlert s
    let s := forAll (noticeQuires x) (fun q s => setLine q 19 s) s
    if x.cls = 3 then setFlag Reg.FM_STAT Fld.FM_STAT_FPEND true s else s

/-- FAULT_N is driven low (R373). -/
def faultN (s : State) : Bool :=
  s.tb.hold == .none && mode s != 0 && mode s != 1 && mode s != 7 &&
    (flag s Reg.FM_STAT Fld.FM_STAT_FPEND ||
      (flag s Reg.FM_STAT Fld.FM_STAT_ALERT && flag s Reg.FM_CTRL Fld.FM_CTRL_FNU))

/-! ## Masters and access errors (R36, R38, R375) -/

/-- The code of a master (R375). -/
def masterCode : Master → Nat
  | .engine e _ => e.val
  | .foreman c => 128 + c.val

/-- The code under which the accesses of master m are recorded: a member of a binding's is its home engine's (R246,
R375). -/
def masterOf (s : State) (m : Master) : Nat :=
  match m with
  | .engine e _ =>
    match slotOfEngine s (e.val / 8) (e.val % 8) with
    | some b => 8 * (e.val / 8) + (fld s (Reg.BD_BSTAT (e.val / 8) b) Fld.BD_BSTAT_HOME)
    | none => masterCode m
  | .foreman _ => masterCode m

/-- What a refused or failed spine access records: access type 0 read, 1 write, 2 fetch, 3 read-modify-write,
log2 of its size, and the BUS cause (R38, R374). -/
def accessError (m addr type size kind : Nat) (s : State) : State :=
  report { src := 0x1A, event := 1, cls := 2, unit := m, detail := addr,
           fec := some { addr := addr, master := m, type := type, size := size, kind := kind } } s

/-- The engine that takes engine e's inputs: the leader of its binding, else e itself (R248). (DEDUCED, log 199) -/
def takerOf (s : State) (e : Nat) : Nat :=
  match slotOfEngine s (e / 8) (e % 8) with
  | some b => e / 8 * 8 + nthD 0 (slotMembers s (e / 8) b) 0
  | none => e

/-- An exception that is no bundle's, with the FADDR and FINFO of its frame, waits for the next bundle boundary of
engine e; one waits at a time. (DEDUCED, log 199) -/
def raiseDue (e num addr info : Nat) (s : State) : State :=
  updEng (takerOf s e) (fun y => if y.due.isSome then y else { y with due := some (num, addr, info) }) s

/-- The bus error that an engine takes at its next bundle boundary for an access of four bytes at its address a that
is refused or fails with a BUS cause, where the access is a command of its own and no bundle's (R38, R225). (DEDUCED,
log 199) -/
def busError (m : Master) (a : Nat) (write : Bool) (cause : Nat) (s : State) : State :=
  match m with
  | .foreman _ => s
  | .engine e _ => raiseDue e.val 9 a (2 ^ 31 + b2n write * 2 ^ 30 + 2 * 2 ^ 24 + cause) s

/-- The spine refuses an access of four bytes at a to master m: the record, and an engine's bus error (R38). -/
def refuseAccess (m : Master) (a : Nat) (write : Bool) (s : State) : State :=
  busError m a write 1 (accessError (masterOf s m) a (b2n write) 2 1 s)

/-- Master m may read (write false) or write (write true) the system block of index b, in the order of R35 (R36). -/
def systemAllows (m : Master) (b : Nat) (write : Bool) : Bool :=
  match m with
  | .foreman _ => true
  | .engine _ .user => false
  | .engine _ .supervisor => !write && b != 5 && b != 7
  | .engine _ .monitor => b != 5 && b != 7 && (!write || b == 1 || b == 2)

/-- Master m may reach the register at address a, which lies in a block of R34 or R35 (R36). -/
def mayReach (m : Master) (a : Nat) (write : Bool) : Bool :=
  if 0x30000000 ≤ a ∧ a < 0x300A0000 then systemAllows m (a % 0x100000 / 0x10000) write
  else if 0x10000000 ≤ a ∧ a < 0x20000000 then
    match m with
    | .foreman _ => true
    | .engine e _ => !write || e.val / 8 == a / 0x1000000 % 16
  else false

/-- The answer of a register write by master m to address a whose effect is t: an access error where R36 forbids it.
(DEDUCED, log 9) -/
def regWriteBy (m : Master) (a : Nat) (s t : State) : Out :=
  live true s (if mayReach m a true then t else refuseAccess m a true s)

/-- The answer of a register read by master m of address a whose effect is t (R36). -/
def regReadBy (m : Master) (a : Nat) (s t : State) : Out :=
  live true s (if mayReach m a false then t else refuseAccess m a false s)

end Sys2Proof.Machine
end

