-- ==== Sys2Proof/Machine/Memory.lean ====
section
/-! DEFINITION. The SRAM behind the spine: banks, granules and pages, words with their written flags and errors, the
reads and writes that every master shares, the error log and the scrubber (R296 to R303). Addresses are spine addresses;
an engine's own windows stand as their quire windows. -/

namespace Sys2Proof.Machine

/-! ## Banks, granules and pages (R296, R304) -/

/-- The address at which bank k starts (R33, R34, R296). -/
def bankBase (k : Nat) : Nat :=
  if k < 128 then 0x10100000 + k / 8 * 0x1000000 + k % 8 * 0x10000
  else if k < 144 then 0x10000000 + (k - 128) * 0x1000000
  else if k < 152 then 0x20000000 + (k - 144) * 0x40000
  else if k < 168 then 0x40000000 + (k - 152) * 0x40000
  else 0x50000000

/-- The size of bank k in bytes (R296). -/
def bankSize (k : Nat) : Nat := if k < 128 then 0x10000 else 0x40000

/-- The bank that holds address a, if a names SRAM (R33, R34, R296). -/
def bankOf (a : Nat) : Option Nat :=
  if 0x10000000 ≤ a ∧ a < 0x20000000 then
    let o := a % 0x1000000
    if o < 0x40000 then some (128 + a / 0x1000000 % 16)
    else if 0x100000 ≤ o ∧ o < 0x180000 then some (a / 0x1000000 % 16 * 8 + o / 0x10000 % 16)
    else none
  else if 0x20000000 ≤ a ∧ a < 0x20200000 then some (144 + a % 0x200000 / 0x40000)
  else if 0x40000000 ≤ a ∧ a < 0x40400000 then some (152 + a % 0x400000 / 0x40000)
  else if 0x50000000 ≤ a ∧ a < 0x50040000 then some 168
  else none

/-- The first granule of bank k (R296). -/
def bankGranule (k : Nat) : Nat :=
  if k < 128 then 4 * k else 512 + 16 * (k - 128)

/-- The granule of address a in bank k. -/
def granuleOf (k a : Nat) : Nat := bankGranule k + (a - bankBase k) / 0x4000

/-- The address at which granule g starts. -/
def granuleBase (g : Nat) : Nat :=
  let k := if g < 512 then g / 4 else 128 + (g - 512) / 16
  bankBase k + (g - bankGranule k) * 0x4000

/-- The granules in ascending address order (R302). -/
def granulesByAddress : List Nat :=
  ((List.range 16).map fun q =>
    (List.range 16).map (512 + 16 * q + ·) ++ (List.range 32).map (32 * q + ·)).flatten
    ++ (List.range 400).map (768 + ·)

/-- The granules of bank k. -/
def granulesOf (k : Nat) : List Nat := (List.range (bankSize k / 0x4000)).map (bankGranule k + ·)

/-- Bit g of MR_GRAN (R301). -/
def marked (s : State) (g : Nat) : Bool := bitAt (rd s (Reg.MR_GRAN (g / 32))) (g % 32)

/-- Bit g of MR_GRAN is given b (R301). -/
def setMark (g : Nat) (b : Bool) (s : State) : State :=
  (if b then orWord else clrWord) (Reg.MR_GRAN (g / 32)) (2 ^ (g % 32)) s

/-- The pages and rows of bank k, and its spare pages and rows (R304, R305). -/
def bankPages (k : Nat) : Nat := bankSize k / 1024
def bankRows (k : Nat) : Nat := bankSize k / 256
def sparePages (k : Nat) : Nat := if k < 128 then 2 else 4
def spareRows (k : Nat) : Nat := if k < 128 then 4 else 8

/-- The page of address a in bank k, numbered over all banks. -/
def pageOf (k a : Nat) : Nat := k * 1024 + (a - bankBase k) / 1024

/-! ## Words (R297, R298) -/

/-- The byte at address a. -/
def memByte (s : State) (a : Nat) : Nat := (tget (fun _ => 0#8) s.mem a).toNat

/-- The state with byte b at address a. -/
def setByte (a b : Nat) (s : State) : State := { s with mem := tset (fun _ => 0#8) s.mem a (BitVec.ofNat 8 b) }

/-- The n bytes from address a as a number, little-endian (R9). -/
def memValue (s : State) (a n : Nat) : Nat := fromBytes ((List.range n).map fun i => memByte s (a + i))

/-- The state with the n low bytes of v from address a on. -/
def setValue (a n v : Nat) (s : State) : State :=
  forAll ((List.range n).zip (toBytes n v)) (fun x s => setByte (a + x.1) x.2 s) s

/-- The written flag of the 64-bit word that holds address a of bank k (R298). -/
def wordWritten (s : State) (k a : Nat) : Bool :=
  tget (fun _ => false) s.ras.filled (granuleOf k a) != tget (fun _ => false) s.ras.flips (a / 8)

/-- The written flag of that word is given b. -/
def setWritten (k a : Nat) (b : Bool) (s : State) : State :=
  updRas (fun x => { x with flips := tset (fun _ => false) x.flips (a / 8)
                                       (b != tget (fun _ => false) x.filled (granuleOf k a)) }) s

/-- The error the array holds at that word: 0 none, 1 one flipped bit, 2 an uncorrectable one. -/
def wordUpset (s : State) (a : Nat) : Nat := tget (fun _ => 0) s.ras.upset (a / 8)

def setUpset (a v : Nat) (s : State) : State :=
  updRas (fun x => { x with upset := tset (fun _ => 0) x.upset (a / 8) v }) s

/-- The error log takes an entry, or counts one dropped (R303). -/
def logError (x : ElogEntry) (s : State) : State :=
  updRas (fun r => if r.elog.length < 16 then { r with elog := r.elog ++ [x] }
    else { r with elogDrop := min 255 (r.elogDrop + 1) }) s

/-- What first-error capture takes of an SRAM error: the bank stands in bits 47:32 of the address (R374). -/
def sramFec (m k a type size kind : Nat) : FecInfo :=
  { addr := k * 2 ^ 32 + a, master := m, type := type, size := size, kind := kind }

/-- A correction of the word at a: it is written back, logged and counted in its page and bank; the one after the
page's count has reached CETHR is logged HARD and is a U-class fault (R300). The rules give no check matrix, so the
syndrome is a free value. (DEDUCED, log 90; DESIGN CHOICE, log 89) -/
def correctWord (k a : Nat) (scrub : Bool) (s : State) : State :=
  let n := tget (fun _ => 0) s.ras.ce (pageOf k a)
  let hard := n == max 1 (fld s Reg.MR_CTRL Fld.MR_CTRL_CETHR)
  let syn := (Config.freeWord s.fresh).toNat % 256
  let s := s |> spend |> setUpset a 0
    |> logError { kind := 1, scrub := scrub, hard := hard, bank := k, syn := syn, addr := a / 8 * 8 }
    |> updRas (fun x => { x with ce := tset (fun _ => 0) x.ce (pageOf k a) (n + 1) })
    |> incFld (Reg.MR_BSTAT k) Fld.MR_BSTAT_CE
    |> report { src := 8, event := 1, cls := 1, unit := k, detail := a }
  if hard then report { src := 8, event := 4, cls := 2, unit := k, detail := a } s else s

/-- What a read of a word found. -/
inductive Found where
  /-- Data that is right: good, or corrected. -/
  | good
  /-- An uncorrectable word (R297). -/
  | bad
  /-- A word whose written flag is clear (R298). -/
  | unwritten
  deriving DecidableEq, Repr

/-- The array shows a new error at the word that holds a, or none. The result tells an uncorrectable first reading
whose re-read is good (R376). (DESIGN CHOICE, log 89) -/
def strikeWord (a : Nat) (u : Upset) (s : State) : State × Bool :=
  let old := wordUpset s a
  match u with
  | .none => (s, false)
  | .single => (setUpset a (min 2 (old + 1)) s, false)
  | .double => (setUpset a 2 s, false)
  | .transient => (s, old != 2)

/-- A read of the word that holds address a of bank k, by master m with the given access type and log2 of its size:
its errors are corrected, logged, recorded and captured (R297, R298, R300, R303, R374, R376). (DEDUCED, log 91) -/
def touchWord (m k a type size : Nat) (scrub : Bool) (u : Upset) (s : State) : State × Found :=
  if !wordWritten s k a then
    let s := logError { kind := 3, scrub := scrub, hard := false, bank := k, syn := 0, addr := a / 8 * 8 } s
    if scrub then (incFld Reg.MR_SCSTAT Fld.MR_SCSTAT_UNWR s, .unwritten)
    else (report { src := 8, event := 3, cls := 2, unit := k, detail := a,
                   fec := some (sramFec m k a type size 3) } s, .unwritten)
  else
    let (s, again) := strikeWord a u s
    let s := if again then report { src := 8, event := 1, cls := 1, unit := k, detail := a, persist := 1 } s else s
    match wordUpset s a with
    | 0 => (s, .good)
    | 1 => (correctWord k a scrub s, .good)
    | _ =>
      let syn := (Config.freeWord s.fresh).toNat % 256
      (s |> spend |> logError { kind := 2, scrub := scrub, hard := false, bank := k, syn := syn, addr := a / 8 * 8 }
        |> report { src := 8, event := 2, cls := 2, unit := k, detail := a, persist := 2,
                    fec := some (sramFec m k a type size 2) }, .bad)

/-- A write of the n low bytes of v at address a of bank k, all in one 64-bit word, by master m: the whole word, or a
read-modify-write of it; an uncorrectable word aborts it (R298, R299). u is what the arrays show the read half. -/
def storeWord (m k a n v size : Nat) (u : Upset) (s : State) : State × Found :=
  if n = 8 then (s |> setValue a 8 v |> setWritten k a true |> setUpset a 0, .good)
  else if wordWritten s k a then
    let (s, f) := touchWord m k a 3 size false u s
    if f = .good then (setValue a n v s, .good) else (s, .bad)
  else (s |> setValue (a / 8 * 8) 8 0 |> setUpset a 0 |> setValue a n v |> setWritten k a true, .good)

/-- The memory RAS controller holds accesses to address a of bank k (R304, R306). (DEDUCED, log 93) -/
def accessHeld (s : State) (k a : Nat) : Bool :=
  match s.ras.op with
  | .none => false
  | .retire b u => b == k && (a - bankBase k) / 1024 == u
  | .brst b _ => b == k

/-- Some of the n bytes from address a on are held (R304, R306). (DEDUCED, log 93) -/
def rangeHeld (s : State) (a n : Nat) : Bool :=
  let meets := fun b w => n != 0 && decide (a < b + w) && decide (b < a + n)
  match s.ras.op with
  | .none => false
  | .retire k u => meets (bankBase k + u * 1024) 1024
  | .brst k _ => meets (bankBase k) (bankSize k)

/-! ## Runs of bytes -/

/-- A run of bytes is written at address a by master m, one 64-bit word after another (R298, R299). -/
def storeBytes (m a : Nat) (bytes : List Nat) (s : State) : State :=
  let n := bytes.length
  forAll (List.range ((a % 8 + n + 7) / 8)) (fun i s =>
    let lo := max a ((a / 8 + i) * 8)
    let hi := min (a + n) ((a / 8 + i + 1) * 8)
    match bankOf lo with
    | some k => (storeWord m k lo (hi - lo) (fromBytes ((bytes.drop (lo - a)).take (hi - lo))) 3 .none s).1
    | none => s) s

/-- A run of n bytes is read at address a by master m; a word that does not read good reads 0 (R297, R298). The last
result tells whether every word was good. (DEDUCED, log 116) -/
def loadBytes (m a n : Nat) (s : State) : State × List Nat × Bool :=
  (List.range ((a % 8 + n + 7) / 8)).foldl (fun (x : State × List Nat × Bool) i =>
    let (s, bs, ok) := x
    let lo := max a ((a / 8 + i) * 8)
    let hi := min (a + n) ((a / 8 + i + 1) * 8)
    match bankOf lo with
    | some k =>
      let (s, f) := touchWord m k lo 0 3 false .none s
      let good := f == .good
      (s, bs ++ (List.range (hi - lo)).map (fun j => if good then memByte s (lo + j) else 0), ok && good)
    | none => (s, bs ++ List.replicate (hi - lo) 0, false)) (s, [], true)

/-! ## The scrubber (R302) -/

/-- The address the scrubber reads: the first one at or after its place in a marked granule, and whether it wrapped. -/
def scrubTarget (s : State) : Option (Nat × Bool) :=
  let ms := granulesByAddress.filter (marked s)
  match ms.find? (fun g => decide (s.ras.scrub < granuleBase g + 0x4000)), ms with
  | some g, _ => some (max s.ras.scrub (granuleBase g), false)
  | none, g :: _ => some (granuleBase g, true)
  | none, [] => none

/-- The scrubber runs: enabled, below shed level 2, its interval has passed, and the word it reads is not held (R302,
R313). -/
def scrubDue (s : State) : Bool :=
  flag s Reg.MR_CTRL Fld.MR_CTRL_SCEN && decide (shed s < 2) && decide (s.ras.scrubAt ≤ now s) &&
    match scrubTarget s with
    | some (a, _) => !rangeHeld s a 8
    | none => false

/-- The scrubber reads its next word (R302). -/
def scrubRead (u : Upset) (s : State) : State :=
  match scrubTarget s with
  | some (a, wrapped) =>
    let s := if wrapped then incFld Reg.MR_SCSTAT Fld.MR_SCSTAT_PASSES s else s
    let s := updRas (fun x => { x with
      scrub := a + 8, scrubAt := s.tb.ns + (fld s Reg.MR_CTRL Fld.MR_CTRL_RATE + 1) * 16 }) s
    match bankOf a with
    | some k => (touchWord 131 k a 4 3 true u s).1
    | none => s
  | none => s

/-- SCRUB_READ (R302). -/
def execScrubRead (u : Upset) (s : State) : Out := live (scrubDue s) s (scrubRead u s)

/-! ## The error log (R303) -/

/-- The word of MR_ELOG for an entry. -/
def elogWord (x : ElogEntry) (drop : Nat) : Nat :=
  2 ^ 31 + x.kind * 2 ^ 29 + b2n x.scrub * 2 ^ 28 + b2n x.hard * 2 ^ 27 + x.bank * 2 ^ 16 + x.syn * 2 ^ 8 + drop

/-- A read of MR_ELOG: the oldest entry leaves the log, and the drop count clears (R303, R314). -/
def elogRead (s : State) : State :=
  match s.ras.elog with
  | x :: rest =>
    s |> wr Reg.MR_ELOG (elogWord x s.ras.elogDrop) |> wr Reg.MR_ELOGA x.addr
      |> updRas (fun r => { r with elog := rest, elogDrop := 0 })
  | [] => s |> wr Reg.MR_ELOG s.ras.elogDrop |> updRas (fun r => { r with elogDrop := 0 })

/-- MR_ELOG_READ (R303). -/
def execMrElogRead (m : Master) (s : State) : Out := regReadBy m Reg.MR_ELOG s (elogRead s)

end Sys2Proof.Machine
end

