-- ==== Sys2Proof/Machine/Engine.lean ====
section
/-! DEFINITION. The engines: their registers, windows and special registers, restart, what BD_ESTAT shows, memory
protection, descriptors, and the writes to an engine's control registers (R192 to R197, R209, R219 to R241). -/

namespace Sys2Proof.Machine

/-! ## Members and homes (R246) -/

/-- The home engine of engine e: that of its binding, or itself. -/
def homeEngine (s : State) (e : Nat) : Nat :=
  match slotOfEngine s (e / 8) (e % 8) with
  | some b => e / 8 * 8 + fld s (Reg.BD_BSTAT (e / 8) b) Fld.BD_BSTAT_HOME
  | none => e

/-- The STATE of engine e: 0 RUN, 1 WAIT, 2 HALT, 3 LOCKOUT, 4 RESET (R221). -/
def engState (s : State) (e : Nat) : Nat := fld s (Reg.BD_ESTAT (e / 8) (e % 8)) Fld.BD_ESTAT_STATE

/-- Engine e's STATE is given st. -/
def setEngState (e st : Nat) (s : State) : State :=
  setFld (Reg.BD_ESTAT (e / 8) (e % 8)) Fld.BD_ESTAT_STATE st s

/-- BD_ESTAT of engine e shows its architected state (R221). -/
def showEngine (e : Nat) (s : State) : State :=
  let a := Reg.BD_ESTAT (e / 8) (e % 8)
  let x := (engOf s e).arch
  s |> setFlag a Fld.BD_ESTAT_DF x.df |> setFld a Fld.BD_ESTAT_IPL x.ipl |> setFld a Fld.BD_ESTAT_BANK x.bank
    |> setFld a Fld.BD_ESTAT_PRIV x.priv

/-- BD_EPC of engine e names the last retired bundle (R221). (DEDUCED, log 78) -/
def showEpc (e pc : Nat) (s : State) : State := setFld (Reg.BD_EPC (e / 8) (e % 8)) Fld.BD_EPC_PC pc s

/-! ## Registers and windows (R192 to R194, R237, R238) -/

namespace Arch

def wixOf (x : Arch) (k : Nat) : Nat := tget (fun _ => 0) x.wix k
def liveOf (x : Arch) (k : Nat) : Nat := tget (fun _ => 1) x.live k
def dirtyOf (x : Arch) (k : Nat) : Nat := tget (fun _ => 0x3FF) x.dirty k
def tagOf (x : Arch) (k : Nat) : Nat := tget (fun _ => 0) x.tags k
def accOf (x : Arch) (k : Nat) : Int := tget (fun _ => 0) x.acc k

/-- The place of register g under the present bank and window, without BANKWIN (R193, R194). -/
def homePlace (x : Arch) (g : Nat) : Nat :=
  if x.bank = 4 then 272 + g
  else if g < 12 then 64 * x.bank + (8 * x.wixOf x.bank + g) % 64
  else 256 + 4 * x.bank + (g - 12)

/-- The place of register g: BANKWIN remaps g0 to g7, or g0 to g3 (R237). -/
def place (x : Arch) (g : Nat) : Nat :=
  if x.en && decide (1 ≤ x.priv) && decide (g < 8) then
    if x.glb then (if g < 4 then 256 + 4 * x.wbank + g else x.homePlace g)
    else 64 * x.wbank + (8 * x.win + g) % 64
  else x.homePlace g

/-- Group bits m of bank k are dirty (R238). -/
def soil (x : Arch) (k m : Nat) : Arch := { x with dirty := tset (fun _ => 0x3FF) x.dirty k (x.dirtyOf k ||| m) }

/-- Engine-wide groups: bit 0 the FIB, 1 the accumulators, 2 the repeat state, 3 FLAGS (R238). -/
def soilWide (x : Arch) (m : Nat) : Arch := { x with edirty := x.edirty ||| m }

/-- The contents of a place. -/
def getAt (x : Arch) (p : Nat) : Nat := (tget (fun _ => 0#32) x.regs p).toNat

/-- A place is written, and its group is dirty (R238). -/
def setAt (x : Arch) (p v : Nat) : Arch :=
  let y := { x with regs := tset (fun _ => 0#32) x.regs p (BitVec.ofNat 32 v) }
  if p < 256 then y.soil (p / 64) (2 ^ (p % 64 / 8))
  else if p < 272 then y.soil ((p - 256) / 4) 0x100
  else if p < 288 then y.soilWide 1
  else y.soil (p - 288) 0x200

/-- Register g as an operation names it. -/
def getReg (x : Arch) (g : Nat) : Nat := x.getAt (x.place g)

/-- The accumulator k is written. -/
def setAcc (x : Arch) (k : Nat) (v : Int) : Arch := { x with acc := tset (fun _ => 0) x.acc k v }.soilWide 2

/-- FLAGS is written. -/
def setFlags (x : Arch) (v : Nat) : Arch := { x with flags := v % 32 }.soilWide 8

/-- The sticky flag SAT sets where b holds (R196). -/
def satIf (x : Arch) (b : Bool) : Arch := if b then x.setFlags (x.flags ||| 16) else x

/-- The repeat state is written. -/
def setRep (x : Arch) (rpc kind : Nat) : Arch := { x with rpc := rpc, rkind := kind }.soilWide 4

/-- WIX of bank k is written. -/
def setWix (x : Arch) (k v : Nat) : Arch := { x with wix := tset (fun _ => 0) x.wix k (v % 8) }.soil k 0x200

/-- LIVE of bank k is written; 0 acts as 1 (R237). -/
def setLive (x : Arch) (k v : Nat) : Arch :=
  { x with live := tset (fun _ => 1) x.live k (if v % 8 = 0 then 1 else v % 8) }.soil k 0x200

/-- The word of BANKWIN (R237). -/
def bankwin (x : Arch) : Nat :=
  b2n x.en * 2 ^ 15 + b2n x.glb * 2 ^ 14 + x.wbank * 2 ^ 12 + x.win * 2 ^ 8 + x.liveOf x.wbank * 2 ^ 4
    + x.wixOf x.wbank

/-- BANKWIN's selector fields of a word (R225, R237). -/
def setSelector (x : Arch) (v : Nat) : Arch :=
  { x with en := bitAt v 15, glb := bitAt v 14, wbank := v / 2 ^ 12 % 4, win := v / 2 ^ 8 % 8 }

/-- The selector fields as the frame's BWIN holds them (R225). -/
def selector (x : Arch) : Nat := b2n x.en * 2 ^ 15 + b2n x.glb * 2 ^ 14 + x.wbank * 2 ^ 12 + x.win * 2 ^ 8

/-- The word of CTXDIRTY (R238). -/
def ctxdirty (x : Arch) : Nat := x.edirty * 2 ^ 12 + x.dirtyOf x.wbank

/-- CTXDIRTY is written. -/
def setCtxdirty (x : Arch) (v : Nat) : Arch :=
  { x with edirty := v / 2 ^ 12 % 16, dirty := tset (fun _ => 0x3FF) x.dirty x.wbank (v % 0x400) }

/-- The place of wsp that WSP reaches (R234). -/
def wspPlace (x : Arch) : Nat := 288 + (if x.bank = 4 then x.wbank else x.bank)

/-- DTBASE (R224). -/
def dtAddr (x : Arch) : Nat := 0x8000 + x.dtbase / 0x400 % 0x20 * 0x400

end Arch

/-- The lowest privilege that may read (write false) or write special register n; none where n is not listed (R195). A
register that no level may write gives 3. -/
def sregLevel (n : Nat) (write : Bool) : Option Nat :=
  match n with
  | 0x00 => some 0
  | 0x01 => some (if write then 1 else 0)
  | 0x02 => some (if write then 3 else 0)
  | 0x03 => some 1
  | 0x04 => some (if write then 3 else 0)
  | 0x05 => some 1
  | 0x06 => some 1
  | 0x07 => some (if write then 2 else 1)
  | 0x08 => some (if write then 2 else 1)
  | 0x09 => some (if write then 3 else 0)
  | 0x0A => some (if write then 3 else 0)
  | 0x0C => some (if write then 3 else 0)
  | 0x0D => some (if write then 3 else 0)
  | _ => none

/-- The value of a special register that is not asynchronous (R195). -/
def sregRead (home : Nat) (x : Arch) (n : Nat) : Nat :=
  match n with
  | 0x00 => x.flags
  | 0x01 => x.rpc
  | 0x02 => if x.bank = 4 then 0 else x.wixOf x.bank
  | 0x03 => x.getAt x.wspPlace
  | 0x04 => x.bank
  | 0x05 => x.bankwin
  | 0x06 => x.ctxdirty
  | 0x07 => x.dtAddr
  | 0x08 => x.eceil
  | 0x09 => x.priv
  | _ => home

/-- A special register is written (R195). -/
def sregWrite (n v : Nat) (x : Arch) : Arch :=
  match n with
  | 0x00 => x.setFlags v
  | 0x01 => x.setRep v x.rkind
  | 0x03 => x.setAt x.wspPlace v
  | 0x05 =>
    let y := x.setSelector v
    (y.setLive y.wbank (v / 16 % 8)).setWix y.wbank (v % 8)
  | 0x06 => x.setCtxdirty v
  | 0x07 => { x with dtbase := v }
  | 0x08 => { x with eceil := v % 4 }
  | _ => x

/-! ## Restart and stops (R209, R216, R241) -/

/-- Engine e restarts at ENTRY and PRIV of the image that engine h holds (R209, R241, R265). (DEDUCED, log 230) -/
def restartFrom (h e : Nat) (s : State) : State :=
  let home := engOf s h
  let x := { Arch.init with pc := home.entry, priv := home.epriv, eceil := home.epriv }
  s |> updEng e (fun y => { y with arch := x, base := x, buf := [], fifo := [], cnt := 0, stuck := false, held := false,
                                   loads := [], stores := 0, long := none, due := none })
    |> setEngState e 0 |> showEngine e

/-- Engine e restarts at ENTRY and PRIV of the image it holds (R209, R241). -/
def restartEngine (e : Nat) (s : State) : State := restartFrom e e s

/-- Engine e stops in state st, and its pending code stores are discarded (R216, R232, R241). -/
def stopEngine (e st : Nat) (s : State) : State :=
  s |> updEng e (fun y => { y with arch := { y.arch with cwb := [] }, base := { y.base with cwb := [] }, buf := [],
                                   fifo := [], stuck := false, held := false, loads := [], long := none,
                                   due := none })
    |> setEngState e st |> showEngine e

/-! ## Memory protection and the spine map (R36, R37, R217, R220, R221) -/

/-- The protection region that governs address a for engine e: the highest-numbered enabled one that covers it
(R220). -/
def governingRegion (s : State) (e a : Nat) : Option Nat :=
  (List.range 16).reverse.find? fun r =>
    let attr := rd s (Reg.BD_RGN_ATTR (e / 8) (e % 8) r)
    let n := 2 ^ max 5 (getBits attr Fld.BD_RGN_ATTR_SIZE)
    getBits attr Fld.BD_RGN_ATTR_EN != 0 && rd s (Reg.BD_RGN_BASE (e / 8) (e % 8) r) / n == a / n

/-- Engine e's regions grant right (2 R, 1 W, 0 X) at address a to the given privilege (R220). -/
def granted (s : State) (e a priv right : Nat) : Bool :=
  match governingRegion s e a with
  | some r =>
    let attr := rd s (Reg.BD_RGN_ATTR (e / 8) (e % 8) r)
    bitAt attr (4 * priv + right)
  | none => priv == 2

/-- The privilege of a number. -/
def privOf (n : Nat) : Priv := if n = 0 then .user else if n = 1 then .supervisor else .monitor

/-- The address that home engine e's packets carry: its own windows stand as its quire windows (R33, R34). -/
def spineAddr (e a : Nat) : Nat := if a < 0x10000 then bankBase e + a else a

/-- Address a lies in a register block (R34, R35). -/
def isRegister (a : Nat) : Bool :=
  (decide (0x30000000 ≤ a) && decide (a < 0x300A0000)) ||
    (decide (0x10000000 ≤ a) && decide (a < 0x20000000) && decide (0x800000 ≤ a % 0x1000000) &&
      decide (a % 0x1000000 < 0x880000))

/-- A write to the engine control registers is narrowed as R221 says. -/
def ectlAllows (m : Master) (a : Nat) : Bool :=
  let o := a % 0x1000000
  if 0x864000 ≤ o ∧ o < 0x864800 then
    let e := a / 0x1000000 % 16 * 8 + o % 0x1000 / 0x100
    let r := o % 0x100
    match m with
    | .foreman _ => true
    | .engine x p =>
      if 0x40 ≤ r then x.val == e && p == .monitor
      else if r = 0x04 ∨ r = 0x0C ∨ r = 0x10 then x.val == e && p != .user
      else true
  else true

/-- Engine e issues nothing, so that others may write its instruction memory (R37, R246). -/
def issuesNothing (s : State) (e : Nat) : Bool :=
  let st := engState s e
  st == 2 || st == 3 || st == 4 || isFollower s (e / 8) (e % 8)

/-- Master m may access the given bytes: the address is mapped, R36 and R37 allow it, and R9 holds. -/
def spineAllows (s : State) (m : Master) (a size : Nat) (write : Bool) : Bool :=
  if isRegister a then
    a % 4 == 0 && size == 4 && mayReach m a write && (!write || ectlAllows m a)
  else if 0x60000000 ≤ a ∧ a < 0x60800000 then
    !write &&
      (match m with
        | .foreman _ => true
        | .engine _ p => p == .monitor)
  else
    match bankOf a, m with
    | some k, .foreman _ => !write || decide (128 ≤ k) || decide (0x8000 ≤ (a - bankBase k)) || issuesNothing s k
    | some k, .engine e p =>
      if k < 128 then
        !write || (k / 8 == e.val / 8 && (k == e.val || decide (0x8000 ≤ (a - bankBase k)) || issuesNothing s k))
      else if k < 144 then true
      else k == 168 && !write && p != .user
    | none, _ => false

/-! ## Descriptors (R224) -/

/-- A descriptor's fields. -/
structure Descriptor where
  handler : Nat
  sp : Nat
  v : Bool
  fast : Bool
  newpriv : Nat
  pri : Nat
  bank : Nat
  deriving DecidableEq, Repr

/-- The descriptor of three words. -/
def descOf (w0 w1 w2 : Nat) : Descriptor :=
  { handler := w0, sp := w1, v := bitAt w2 31, fast := bitAt w2 30, newpriv := slice w2 27 26, pri := slice w2 25 24,
    bank := slice w2 18 16 }

/-- A descriptor is invalid (R224); x is its number. -/
def descInvalid (x : Nat) (d : Descriptor) : Bool :=
  !d.v || d.newpriv == 0 || d.newpriv == 3 || (decide (4 ≤ d.bank) && decide (d.bank ≤ 6)) ||
    decide (0x8000 ≤ d.handler) || d.sp % 8 != 0 || (x == 0 && d.bank == 7)

/-! ## Writes to an engine's control registers (R221, R235, R236) -/

/-- The engines that engine e's control registers act for: the members of the binding whose home engine e is, whether
e is still one of them or not, none where e is a member of another's, or e alone (R246). -/
def sharers (s : State) (e : Nat) : List Nat :=
  let q := e / 8
  match (List.range 6).find? fun b => slotFormed s q b && fld s (Reg.BD_BSTAT q b) Fld.BD_BSTAT_HOME == e % 8 with
  | some b => (slotMembers s q b).map (q * 8 + ·)
  | none => if (slotOfEngine s q (e % 8)).isSome then [] else [e]

/-- f changes every state that the engine keeps: its own, the committed one, and those of its records. -/
def eachArch (f : Arch → Arch) (x : Engine) : Engine :=
  { x with arch := f x.arch, base := f x.base, buf := x.buf.map fun r => { r with post := f r.post } }

/-- The interrupt level is set in every state the engine keeps (R236). -/
def setIpl (v : Nat) (x : Engine) : Engine := eachArch (fun y => { y with ipl := v }) x

/-! ## Code stores (R214) -/

/-- The value v of the n bytes at a with the bytes of a write over it. -/
def overlay (a n : Nat) (v : Nat) (o : MemOp) : Nat :=
  (List.range o.size).foldl (fun v i =>
    if a ≤ o.addr + i ∧ o.addr + i < a + n then
      putBits v ⟨8 * (o.addr + i - a) + 7, 8 * (o.addr + i - a)⟩ (o.data / 2 ^ (8 * i))
    else v) v

/-- The buffer after a code store within one word: merged into its entry, or a new entry; none for a ninth (R214). -/
def addCode (o : MemOp) (cwb : List CodeWrite) : Option (List CodeWrite) :=
  let a := o.addr / 4 * 4
  let m := (2 ^ o.size - 1) * 2 ^ (o.addr % 4)
  let put := fun (c : CodeWrite) =>
    { c with data := overlay a 4 c.data o, mask := c.mask ||| m }
  if cwb.any (·.addr == a) then some (cwb.map fun c => if c.addr = a then put c else c)
  else if cwb.length < 8 then some (cwb ++ [put ⟨a, 0, 0⟩])
  else none

/-- A store of engine e to its own instruction memory that is a command and no bundle's enters its code-write buffer;
a ninth word is the code-write overflow (R37, R214). (DEDUCED, log 199) -/
def ownCodeStore (e : Nat) (o : MemOp) (s : State) : State :=
  if (sharers s e).any fun i => (addCode o (engOf s i).arch.cwb).isNone then raiseDue e 10 0 0 s
  else forAll (sharers s e) (fun i => updEng i (eachArch fun x => { x with cwb := (addCode o x.cwb).getD x.cwb })) s

/-- A write to BD_ECTL of engine e completes (R236). -/
def ectlWrite (e v : Nat) (s : State) : State :=
  forAll (sharers s e) (fun i s => showEngine i (updEng i (setIpl (v % 4)) s))
    (plainWrite (Reg.BD_ECTL (e / 8) (e % 8)) v s)

/-- The answer of a write by master m to an engine control register at address a whose effect is t (R36, R221). -/
def ectlBy (m : Master) (a : Nat) (s t : State) : Out :=
  live true s (if mayReach m a true && ectlAllows m a then t else refuseAccess m a true s)

/-- BD_RGN_WRITE (R221): word 0 is BASE, word 1 ATTR. -/
def execBdRgnWrite (m : Master) (e : Fin 128) (r : Fin 16) (w : Fin 2) (v : BitVec 32) (s : State) : Out :=
  let a := if w = 0 then Reg.BD_RGN_BASE (e.val / 8) (e.val % 8) r.val
    else Reg.BD_RGN_ATTR (e.val / 8) (e.val % 8) r.val
  ectlBy m a s (plainWrite a v.toNat s)

/-- BD_ECTL_WRITE (R236). -/
def execBdEctlWrite (m : Master) (e : Fin 128) (v : BitVec 32) (s : State) : Out :=
  ectlBy m (Reg.BD_ECTL (e.val / 8) (e.val % 8)) s (ectlWrite e.val v.toNat s)

/-- A write to BD_SIG of engine e by master m: line 24 + j for engine j of the quire, line 23 for a Foreman core (R235,
R236). The engine registers of a follower are ignored (R246). -/
def sigWrite (m : Master) (e v : Nat) (s : State) : State :=
  let line := match m with
    | .foreman _ => some 23
    | .engine x _ => if x.val / 8 = e / 8 then some (24 + x.val % 8) else none
  match line with
  | some l => if v % 2 = 1 && !isFollower s (e / 8) (e % 8) then setLineOf (e / 8) (e % 8) l s else s
  | none => s

/-- BD_SIG_WRITE (R235). -/
def execBdSigWrite (m : Master) (e : Fin 128) (v : BitVec 32) (s : State) : Out :=
  ectlBy m (Reg.BD_SIG (e.val / 8) (e.val % 8)) s (sigWrite m e.val v.toNat s)

end Sys2Proof.Machine
end

