-- ==== Sys2Proof/Machine/Bindings.lean ====
section
/-! DEFINITION. Bindings: membership, events, checker units, forming, state copy, retry and takeover, and the commands
of BD_CMD, BD_CFG and BD_EVQ (R243 to R274). Engines of a quire stand by their local index. -/

namespace Sys2Proof.Machine

/-! ## Slots (R243, R244, R274) -/

/-- The engines that slot b is formed from, the leader first (R243). -/
def slotEngines (b : Nat) : List Nat :=
  match b with
  | 0 => [0, 1]
  | 1 => [2, 3]
  | 2 => [4, 5]
  | 3 => [6, 7]
  | 4 => [0, 1, 2]
  | _ => [4, 5, 6]

/-- The half of the quire that slot b lies in, and whether it is a triad (R243). -/
def slotHalf (b : Nat) : Nat := if b = 0 ∨ b = 1 ∨ b = 4 then 0 else 1
def slotTriad (b : Nat) : Bool := decide (4 ≤ b)

/-- The STATE of slot b of quire q (R274). -/
def bindState (s : State) (q b : Nat) : Nat := fld s (Reg.BD_BSTAT q b) Fld.BD_BSTAT_STATE
def setBindState (q b st : Nat) (s : State) : State := setFld (Reg.BD_BSTAT q b) Fld.BD_BSTAT_STATE st s

/-- The global index of local engine i of quire q. -/
def eng (q i : Nat) : Nat := 8 * q + i

/-- The management view of engines of quire q becomes v: a command has said so (R383). -/
def manage (q : Nat) (is : List Nat) (v : Nat) (s : State) : State :=
  forAll is (fun i s => updFm (fun f => { f with engView := tset (fun _ => 2) f.engView (eng q i) v }) s) s

/-- The members of slot b by position are ms. -/
def setMembers (q b : Nat) (ms : List Nat) (s : State) : State :=
  let a := Reg.BD_BSTAT q b
  s |> setFld a Fld.BD_BSTAT_NMEM ms.length |> setFld a Fld.BD_BSTAT_M0 (nthD 0 ms 0)
    |> setFld a Fld.BD_BSTAT_M1 (nthD 0 ms 1) |> setFld a Fld.BD_BSTAT_M2 (nthD 0 ms 2)

/-- Half h of quire q is in triad configuration, and its spare engine is reserved (R244, R245). -/
def halfTriad (s : State) (q h : Nat) : Bool := bitAt (rd s (Reg.BD_CFG q)) h
def spareReserved (s : State) (q h : Nat) : Bool := bitAt (rd s (Reg.BD_CFG q)) (2 + h)

/-- Engine i of quire q belongs to a slot that is neither NONE nor OUT, or a state copy goes to it. (DEDUCED, log 81)
-/
def bound (s : State) (q i : Nat) : Bool :=
  (List.range 6).any fun b =>
    let st := bindState s q b
    st != 0 && st != 6 && ((slotMembers s q b).contains i || (bindOf s q b).copyTo == i + 1)

/-- Engine i of quire q is reserved as a spare (R245). -/
def reserved (s : State) (q i : Nat) : Bool := (i == 3 && spareReserved s q 0) || (i == 7 && spareReserved s q 1)

/-- Engine i of quire q is halted and free (R264). -/
def engineFree (s : State) (q i : Nat) : Bool := engState s (eng q i) == 2 && !bound s q i && !reserved s q i

/-! ## Standing conditions (R272, R378) -/

/-- Binding b has fewer members than its slot, other than by SPLIT or shedding, or is OUT (R272, R378). (DEDUCED, log
81) -/
def slotReduced (s : State) (q b : Nat) : Bool :=
  let st := bindState s q b
  let y := bindOf s q b
  st == 6 || (st != 0 && decide
    ((slotMembers s q b).length + y.splitOut.length + b2n (y.shedOut != 0) < (slotEngines b).length))

/-- Binding b runs unchecked, or is parked and did (R262, R270). (DEDUCED, log 81) -/
def slotUnchecked (s : State) (q b : Nat) : Bool :=
  bindState s q b == 5 || (bindState s q b == 7 && (bindOf s q b).parked == 5)

/-- The conditions BINDING and UNCHECKED follow the bindings (R262, R272, R378). (DEDUCED, log 81) -/
def settleBindings (s : State) : State :=
  let slots := (List.range 16).flatMap fun q => (List.range 6).map fun b => (q, b)
  s |> setCond 3 (slots.any fun x => slotReduced s x.1 x.2) |> setCond 4 (slots.any fun x => slotUnchecked s x.1 x.2)

/-! ## Events (R272) -/

/-- The class of an event (R272). -/
def eventClass (code : Nat) : Nat :=
  match code with
  | 1 => 1
  | 4 => 1
  | 3 => 3
  | 10 => 0
  | 11 => 0
  | 12 => 0
  | 13 => 0
  | _ => 2

/-- An event of slot b about engine i: it is queued, line 20 tells the engines, BINDEV falls due with EVX, and the fault
manager hears of it in its class (R272, R376). -/
def bindEvent (q b code i : Nat) (s : State) : State :=
  let x := tget (fun _ => EventQueue.init) s.evqs q
  let x := if x.entries.length < 16 then
      { x with entries := x.entries ++ [code * 2 ^ 24 + b * 2 ^ 16 + i * 2 ^ 12] }
    else { x with drop := min 0xFFF (x.drop + 1) }
  let s := setLine q 20 { s with evqs := tset (fun _ => EventQueue.init) s.evqs q x }
  let s := if flag s (Reg.BD_BCTL q b) Fld.BD_BCTL_EVX then updBind q b (fun y => { y with bindev := true }) s else s
  let cls := eventClass code
  if cls = 0 then s
  else
    report { src := 0x16, event := code, cls := cls, unit := 8 * q + b, detail := rd s (Reg.BD_BLAST q b),
             persist := if cls = 1 then 1 else if code = 2 ∨ code = 3 ∨ code = 5 ∨ code = 6 then 2 else 0 } s

/-- BD_BLAST of slot b shows a mismatch (R274). (DEDUCED, log 82) -/
def showLast (q b kind member pc : Nat) (s : State) : State :=
  wr (Reg.BD_BLAST q b) (kind * 2 ^ 28 + member * 2 ^ 24 + pc % 2 ^ 15) s

/-- BD_BODD of slot b shows its members' odd events of the last 10 s (R257, R274). -/
def oddWord (s : State) (q b : Nat) : Nat :=
  let n := fun i => ((engOf s (eng q i)).odd.filter fun t => decide (s.tb.ns - t ≤ 10000000000)).length
  match slotMembers s q b with
  | [i] => n i
  | [i, j] => n i + n j * 2 ^ 8
  | [i, j, k] => n i + n j * 2 ^ 8 + n k * 2 ^ 16
  | _ => 0

/-! ## Checker units (R260) -/

/-- A free checker unit of quire q. -/
def freeUnit (s : State) (q : Nat) : Option Nat :=
  (List.range 6).find? fun u => !bitAt (rd s (Reg.BD_CK q)) u && !bitAt (rd s (Reg.BD_CK q)) (8 + u)

/-- The unit of slot b, if it holds one. -/
def unitOf (s : State) (q b : Nat) : Option Nat :=
  let u := fld s (Reg.BD_BSTAT q b) Fld.BD_BSTAT_CK
  if u < 6 ∧ bitAt (rd s (Reg.BD_CK q)) u then some u else none

/-- Slot b gives up its unit. -/
def dropUnit (q b : Nat) (s : State) : State :=
  match unitOf s q b with
  | some u => s |> clrWord (Reg.BD_CK q) (2 ^ u) |> setFld (Reg.BD_BSTAT q b) Fld.BD_BSTAT_CK 7
  | none => setFld (Reg.BD_BSTAT q b) Fld.BD_BSTAT_CK 7 s

/-- Slot b takes unit u. -/
def takeUnit (q b u : Nat) (s : State) : State :=
  s |> orWord (Reg.BD_CK q) (2 ^ u) |> setFld (Reg.BD_BSTAT q b) Fld.BD_BSTAT_CK u

/-! ## Discarding and replaying (R251, R254, R261) -/

/-- A member that has not retired bundles which the others have committed takes their committed state (R253, R254).
(DESIGN CHOICE, log 200) -/
def catchUp (q b : Nat) (s : State) : State :=
  match (bindOf s q b).past, slotMembers s q b with
  | _ :: _, [i, _, k] =>
    let x := (engOf s (eng q i)).base
    s |> updBind q b (fun y => { y with past := [] }) |> updEng (eng q k) (fun z => { z with base := x })
      |> setEngState (eng q k) (engState s (eng q i))
  | _, _ => s

/-- Every member's uncommitted bundles are discarded; the leader takes its inputs again from the log (R254, R261). -/
def replayBinding (q b : Nat) (s : State) : State :=
  let s := catchUp q b s
  let y := bindOf s q b
  let ms := slotMembers s q b
  forAll ((List.range ms.length).zip ms) (fun m s =>
    updEng (eng q m.2) (fun x => { x with
      arch := x.base, buf := [], cnt := y.done, stuck := false,
      fifo := if m.1 = 0 then y.log.map (·.2) else [] }) s) s

/-- The command in progress is finished or abandoned (R264). -/
def bindCmdEnd (q b : Nat) (s : State) : State :=
  if (bindOf s q b).cmd = 0 then s
  else s |> updBind q b (fun y => { y with cmd := 0, arg := 0 }) |> setFlag (Reg.BD_CMDST q) Fld.BD_CMDST_BUSY false

/-- Members of slot b are halted (R255, R262, R265). -/
def haltMembers (q : Nat) (ms : List Nat) (s : State) : State := forAll ms (fun i s => stopEngine (eng q i) 2 s) s

/-- A state copy in progress is given up; its target halts. -/
def dropCopy (q b : Nat) (s : State) : State :=
  let y := bindOf s q b
  if y.copyTo = 0 then s
  else updBind q b (fun y => { y with copyTo := 0, pass1 := false, hold := false }) (haltMembers q [y.copyTo - 1] s)

/-- Slot b leaves the HANDOVER it takes part in: the shadow that its own command has held goes on, and a command that
waits for slot b as its shadow is abandoned (R264, R269). -/
def dropHandover (q b : Nat) (s : State) : State :=
  let y := bindOf s q b
  let s := if y.cmd = 4 then updBind q y.arg (fun z => { z with hold := false }) s else s
  forAll ((List.range 6).filter fun a => (bindOf s q a).cmd == 4 && (bindOf s q a).arg == b) (bindCmdEnd q) s

/-- Binding b enters OUT: its members halt (R255, R261). -/
def bindOut (q b : Nat) (s : State) : State :=
  let ms := slotMembers s q b
  let leader := nthD 7 ms 0
  s |> dropCopy q b |> haltMembers q ms |> dropUnit q b |> setBindState q b 6 |> dropHandover q b |> bindCmdEnd q b
    |> updBind q b (fun y => { y with log := [], past := [], retryTo := 0, hold := false })
    |> bindEvent q b 3 leader |> settleBindings

/-- The spare slot that takes over from binding b, if it can (R255). -/
def spareSlot (s : State) (q b : Nat) : Option Nat :=
  let t := fld s (Reg.BD_BCTL q b) Fld.BD_BCTL_SPARE
  if slotTriad b = false ∧ t < 4 ∧ bindState s q t = 1 then some t else none

/-- A lasting mismatch: the spare binding takes over, or the binding is out (R255, R258). -/
def lastingMismatch (q b : Nat) (s : State) : State :=
  match spareSlot s q b with
  | none => bindOut q b s
  | some t =>
    let ms := slotMembers s q b
    let fresh := slotMembers s q t
    let src := (engOf s (eng q (nthD 0 ms 0))).base
    let y := bindOf s q b
    let s := s |> dropCopy q b |> haltMembers q ms |> setBindState q t 0 |> setMembers q t [] |> setMembers q b fresh
    let s := forAll fresh (fun i s =>
      let e := eng q i
      s |> updEng e (fun x => { x with arch := src, base := src, buf := [], fifo := [], cnt := y.done, stuck := false,
                                       held := false, loads := [], stores := 0, long := none, due := none })
        |> setEngState e 0 |> showEngine e) s
    s |> updBind q b (fun y => { y with retryTo := 0 }) |> replayBinding q b |> setBindState q b 2
      |> bindEvent q b 2 (nthD 0 fresh 0) |> settleBindings

/-- The pair rules of R254: a retry, or in a retry already a lasting mismatch. -/
def pairMismatch (q b : Nat) (s : State) : State :=
  let y := bindOf s q b
  if y.retryTo ≠ 0 then lastingMismatch q b s
  else
    let top := (engOf s (eng q (nthD 0 (slotMembers s q b) 0))).cnt
    s |> setBindState q b 3 |> updBind q b (fun y => { y with retryTo := top + 1, pass1 := false, hold := false })
      |> replayBinding q b

/-! ## State copy (R259) -/

/-- A state copy to engine i starts; the event code stands for its completion (R256, R257, R267). A binding that runs
unchecked does so until the copy is complete (R262). -/
def startCopy (q b i code : Nat) (s : State) : State :=
  s |> updBind q b (fun y => { y with copyTo := i + 1, copyEvent := code, pass1 := false, hold := false })
    |> updEng (eng q i) (fun x => { x with held := true }) |> setBindState q b (if bindState s q b = 5 then 5 else 4)

/-- STATE_COPY_PASS1_DONE (R259). -/
def execStateCopyPass1Done (q : Fin 16) (b : Fin 6) (s : State) : Out :=
  live ((bindOf s q b).copyTo != 0 && !(bindOf s q b).pass1) s (updBind q b (fun y => { y with pass1 := true }) s)

/-- The engine joins at the last free position with the leader's committed state and an empty code-write buffer
(R247, R259). -/
def joinMember (q b i : Nat) (s : State) : State :=
  let ms := slotMembers s q b
  let src := (engOf s (eng q (nthD 0 ms 0))).base
  let x := { src with cwb := [] }
  let n := (bindOf s q b).done
  let e := eng q i
  s |> updEng e (fun y => { y with arch := x, base := x, buf := [], fifo := [], cnt := n, stuck := false, held := false,
                                   retired := false, loads := [], stores := 0, long := none, due := none })
    |> setEngState e (engState s (eng q (nthD 0 ms 0))) |> showEngine e |> setMembers q b (ms ++ [i]) |> manage q [i] 0
    |> updBind q b (fun y => { y with
         shedOut := if y.shedOut = i + 1 ∨ (slotEngines b).length ≤ ms.length + 1 then 0 else y.shedOut,
         splitOut := if (slotEngines b).length ≤ ms.length + 1 then [] else y.splitOut.filter (· != i) })

/-- The former followers of an unchecked binding that are halted and not retired (R262). -/
def formerReady (s : State) (q b : Nat) : List Nat :=
  (bindOf s q b).former.filter fun i => engineFree s q i && !(engOf s (eng q i)).retired

/-- JOIN of former follower i of a binding that ran unchecked (R262). -/
def rejoinFormer (q b i : Nat) (s : State) : State :=
  startCopy q b i 10 (updBind q b (fun y => { y with former := y.former.filter (· != i) }) s)

/-- Pass 2 completes: the hold ends and the target is released at its position (R259, R267). A former follower of a
binding that ran unchecked is next (R262). -/
def pass2Done (q b : Nat) (s : State) : State :=
  let y := bindOf s q b
  let i := y.copyTo - 1
  let s := joinMember q b i s
  let s := s |> updBind q b (fun y => { y with copyTo := 0, copyEvent := 0, pass1 := false, hold := false })
    |> setBindState q b 2
  let s := if y.cmd = 3 then bindCmdEnd q b s else s
  let s := if y.copyEvent = 4 then incFld (Reg.BD_BCNT q b) Fld.BD_BCNT_RESYNC s else s
  let s := if y.copyEvent = 0 then s else bindEvent q b y.copyEvent i s
  let s :=
    match formerReady s q b with
    | j :: _ => rejoinFormer q b j s
    | [] => s
  settleBindings s

/-- PASS2_COMPLETE (R259): the binding is held and pass 1 is complete. -/
def execPass2Complete (q : Fin 16) (b : Fin 6) (s : State) : Out :=
  let y := bindOf s q b
  live (y.copyTo != 0 && y.pass1 && y.hold) s (pass2Done q b s)

/-! ## Odd members (R256, R257) -/

/-- Member i differs from the majority: it stops; the third time within 10 s it is retired (R256, R257). The new leader
takes what the old one had logged, so the entries it has still to take leave the other's FIFO until it passes them
on. -/
def oddMember (q b i : Nat) (s : State) : State :=
  let ms := slotMembers s q b
  let rest := ms.filter (· != i)
  let e := eng q i
  let was := ((engOf s e).odd.filter fun t => decide (s.tb.ns - t ≤ 10000000000)).length
  let h := slotHalf b
  let pending := (engOf s (eng q (nthD 0 rest 0))).fifo.length
  let s :=
    if nthD 7 ms 0 = i then
      match rest with
      | [_, j] => updEng (eng q j) (fun x => { x with fifo := x.fifo.take (x.fifo.length - pending) }) s
      | _ => s
    else s
  let s := s |> setMembers q b rest |> updBind q b (fun y => { y with past := [] })
    |> updEng e (fun x => { x with held := true, buf := [], fifo := [], odd := (s.tb.ns :: x.odd).take 3 })
  if was < 2 then settleBindings (startCopy q b i 4 s)
  else
    let s := s |> stopEngine e 2 |> updEng e (fun x => { x with retired := true, odd := [] })
    let spare := if h = 0 then 3 else 7
    if spareReserved s q h && engState s (eng q spare) == 2 then
      s |> clrWord (Reg.BD_CFG q) (2 ^ (2 + h)) |> bindEvent q b 5 spare |> startCopy q b spare 0 |> settleBindings
    else settleBindings (bindEvent q b 6 i s)

/-! ## The commands of BD_CMD (R264 to R269) -/

/-- The descriptor at BD_BCTL.SDESC in the home data memory of slot b, where its words read good (R224, R266). -/
def splitDescriptor (s : State) (q b : Nat) : Option Descriptor :=
  let k := eng q (fld s (Reg.BD_BSTAT q b) Fld.BD_BSTAT_HOME)
  let a := 0x8000 + bankBase k + fld s (Reg.BD_BCTL q b) Fld.BD_BCTL_SDESC / 16 * 16 % 0x8000
  if wordWritten s k a && wordWritten s k (a + 8) && wordUpset s a != 2 && wordUpset s (a + 8) != 2 then
    some (descOf (memValue s a 4) (memValue s (a + 4) 4) (memValue s (a + 8) 4))
  else none

/-- The state of slot b allows the command (R265 to R269). (DEDUCED, log 80) -/
def bindStateAllows (s : State) (q op b arg : Nat) : Bool :=
  let st := bindState s q b
  let n := (slotMembers s q b).length
  match op with
  | 1 => st == 0
  | 2 => st == 2 && decide (2 ≤ n)
  | 3 => (st == 2 || (st == 5 && (freeUnit s q).isSome && (bindOf s q b).copyTo == 0)) &&
    decide (n < (slotEngines b).length)
  | 4 => st == 2 && decide (arg < 6) && arg != b && bindState s q arg == 2 &&
      flag s (Reg.BD_BCTL q arg) Fld.BD_BCTL_MUTE
  | 5 => st == 2 || st == 5 || st == 1
  | _ => true

/-- The engines the command names are halted and free and lie in the half, and the slot matches BD_CFG (R264). -/
def bindMembersAllow (s : State) (q op b i : Nat) : Bool :=
  halfTriad s q (slotHalf b) == slotTriad b &&
    match op with
    | 1 => (slotEngines b).all (engineFree s q)
    | 3 => engineFree s q i && i / 4 == slotHalf b
    | _ => true

/-- The command needs a checker unit, and none is free (R264). -/
def noCheckUnit (s : State) (q op b : Nat) : Bool :=
  (freeUnit s q).isNone &&
    ((op == 1 && !flag s (Reg.BD_BCTL q b) Fld.BD_BCTL_ROLE) || (op == 3 && (unitOf s q b).isNone))

/-- The descriptor that SPLIT needs is invalid (R264). -/
def badSplit (s : State) (q b : Nat) : Bool :=
  match splitDescriptor s q b with
  | some d => descInvalid 1 d
  | none => true

/-- The result of the checks of R264, in their order. -/
def bdCheck (s : State) (q op b i arg : Nat) : Nat :=
  if op = 0 ∨ op = 7 ∨ 5 < b then 1
  else if flag s (Reg.BD_CMDST q) Fld.BD_CMDST_BUSY then 2
  else if !bindStateAllows s q op b arg then 3
  else if !bindMembersAllow s q op b i then 4
  else if noCheckUnit s q op b then 5
  else if op == 2 && badSplit s q b then 6
  else 0

/-- FORM: a spare, or a running binding whose members restart together (R265). (DEDUCED, log 230) -/
def bindForm (q b : Nat) (s : State) : State :=
  let es := slotEngines b
  let home := nthD 0 es 0
  let s := s |> setMembers q b es |> setFld (Reg.BD_BSTAT q b) Fld.BD_BSTAT_HOME home
    |> (fun s => { s with binds := tset (fun _ => Binding.init) s.binds (8 * q + b) Binding.init })
  let s := forAll es (fun i s => updEng (eng q i) (fun x => { x with retired := false }) s) s
  let s :=
    if flag s (Reg.BD_BCTL q b) Fld.BD_BCTL_ROLE then setBindState q b 1 (setFld (Reg.BD_BSTAT q b) Fld.BD_BSTAT_CK 7 s)
    else
      let s := match freeUnit s q with
        | some u => takeUnit q b u s
        | none => s
      let s := forAll es (fun i s => restartFrom (eng q home) (eng q i) s) s
      manage q es 0 (setBindState q b 2 s)
  settleBindings s

/-- RELEASE takes place: the members halt, the unit is free, the slot is NONE (R265). -/
def bindRelease (q b : Nat) (s : State) : State :=
  let ms := slotMembers s q b
  s |> dropCopy q b |> haltMembers q ms |> manage q ms 2 |> dropUnit q b |> setMembers q b [] |> setBindState q b 0
    |> dropHandover q b |> bindCmdEnd q b
    |> (fun s => { s with binds := tset (fun _ => Binding.init) s.binds (8 * q + b) Binding.init }) |> settleBindings

/-- JOIN of engine i: a state copy starts (R267). -/
def bindJoin (q b i : Nat) (s : State) : State :=
  let s := match unitOf s q b, freeUnit s q with
    | none, some u => takeUnit q b u s
    | _, _ => s
  settleBindings (startCopy q b i 10 (updBind q b (fun y => { y with former := y.former.filter (· != i) }) s))

/-- BD_CMD takes a command: refused by R264, acting at once, or BUSY until it has acted. -/
def bdCommand (q op b i arg : Nat) (s : State) : State :=
  let r := bdCheck s q op b i arg
  let s := setFld (Reg.BD_CMDST q) Fld.BD_CMDST_RESULT r s
  if r != 0 then s
  else if op = 1 then bindForm q b s
  else if op = 6 then wr (Reg.BD_BCNT q b) 0 s
  else if op = 5 ∧ bindState s q b = 1 then bindRelease q b s
  else
    let s := s |> updBind q b (fun y => { y with cmd := op, arg := if op = 3 then i else arg })
      |> setFlag (Reg.BD_CMDST q) Fld.BD_CMDST_BUSY true
    if op = 3 then bindJoin q b i s else s

/-- FORM (R265). -/
def execForm (m : Master) (q : Fin 16) (b : Fin 8) (s : State) : Out :=
  regWriteBy m (Reg.BD_CMD q) s (bdCommand q 1 b 0 0 s)
/-- SPLIT (R266). -/
def execSplit (m : Master) (q : Fin 16) (b : Fin 8) (s : State) : Out :=
  regWriteBy m (Reg.BD_CMD q) s (bdCommand q 2 b 0 0 s)
/-- JOIN (R267). -/
def execJoin (m : Master) (q : Fin 16) (b : Fin 8) (i : Fin 8) (s : State) : Out :=
  regWriteBy m (Reg.BD_CMD q) s (bdCommand q 3 b i 0 s)
/-- HANDOVER (R269). -/
def execHandover (m : Master) (q : Fin 16) (b : Fin 8) (arg : Fin 8) (s : State) : Out :=
  regWriteBy m (Reg.BD_CMD q) s (bdCommand q 4 b 0 arg s)
/-- RELEASE (R265). -/
def execRelease (m : Master) (q : Fin 16) (b : Fin 8) (s : State) : Out :=
  regWriteBy m (Reg.BD_CMD q) s (bdCommand q 5 b 0 0 s)
/-- BD_CLRCNT (R274). -/
def execBdClrcnt (m : Master) (q : Fin 16) (b : Fin 8) (s : State) : Out :=
  regWriteBy m (Reg.BD_CMD q) s (bdCommand q 6 b 0 0 s)

/-! ## Alarms and parity (R261, R262) -/

/-- The binding moves to a free unit and re-executes, or runs unchecked with its leader alone (R261, R262). -/
def moveCheck (q b : Nat) (s : State) : State :=
  let ms := slotMembers s q b
  let leader := nthD 0 ms 0
  let next := freeUnit s q
  let y := bindOf s q b
  let s := s |> dropUnit q b |> replayBinding q b
  match next with
  | some u => bindEvent q b 8 leader (takeUnit q b u s)
  | none =>
    let target := if y.copyTo = 0 then [] else [y.copyTo - 1]
    let s := if y.cmd = 3 then bindCmdEnd q b s else s
    let s := s |> dropCopy q b |> haltMembers q (ms.drop 1) |> setMembers q b [leader] |> setBindState q b 5
      |> updBind q b (fun y => { y with former := ms.drop 1 ++ target ++ y.former, retryTo := 0 })
    settleBindings (bindEvent q b 9 leader s)

/-- A checker unit alarms: it is failed until BOOT, and the binding it holds moves (R260, R261). -/
def checkerAlarm (q u : Nat) (s : State) : State :=
  let s := orWord (Reg.BD_CK q) (2 ^ (8 + u)) s
  match (List.range 6).find? (fun b => slotFormed s q b && unitOf s q b == some u) with
  | some b => moveCheck q b s
  | none => s

/-- CHECKER_ALARM (R261). -/
def execCheckerAlarm (q : Fin 16) (u : Fin 6) (s : State) : Out := live true s (checkerAlarm q u s)

/-- The replay log or a delay FIFO of slot b holds an input: one that the log has given up can still stand in the FIFO
of a triad's last member (R248, R253). -/
def inputsHeld (s : State) (q b : Nat) : Bool :=
  !(bindOf s q b).log.isEmpty || ((slotMembers s q b).drop 1).any fun i => !(engOf s (eng q i)).fifo.isEmpty

/-- REPLAY_PARITY_ERROR (R261): one copy of an input fails, or both the log's and a FIFO's. -/
def execReplayParityError (q : Fin 16) (b : Fin 6) (both : Bool) (s : State) : Out :=
  live (slotFormed s q b && (unitOf s q b).isSome && inputsHeld s q b) s
    (if both && !(bindOf s q b).log.isEmpty then bindOut q b s else moveCheck q b s)

/-- An unchecked binding is re-formed by JOIN of its former followers (R262). -/
def reformBinding (q b : Nat) (s : State) : State :=
  match formerReady s q b, freeUnit s q with
  | i :: _, some u => settleBindings (rejoinFormer q b i (takeUnit q b u s))
  | _, _ => s

/-- CHECKER_UNIT_FREED (R262). -/
def execCheckerUnitFreed (q : Fin 16) (b : Fin 6) (s : State) : Out :=
  live (bindState s q b == 5 && (bindOf s q b).cmd == 0 && (bindOf s q b).copyTo == 0) s (reformBinding q b s)

/-! ## BD_CFG and BD_EVQ (R244, R245, R274) -/

/-- A write to BD_CFG (R244, R245). -/
def bdCfgWrite (q v : Nat) (s : State) : State :=
  let a := Reg.BD_CFG q
  let old := rd s a
  let halfHeld := fun h => (List.range 4).any fun i => bound s q (4 * h + i) || reserved s q (4 * h + i)
  let s := if bitAt v 31 then clrWord a (2 ^ 31) s else s
  if (List.range 2).any (fun h => bitAt v h != bitAt old h && halfHeld h) then raiseFlag a Fld.BD_CFG_WREF s
  else
    let setS := fun h =>
      if bitAt v (2 + h) then
        if bitAt old (2 + h) then (true, false)
        else if bitAt v h && engState s (eng q (4 * h + 3)) == 2 && !bound s q (4 * h + 3) then (true, false)
        else (false, true)
      else (false, false)
    let s0 := setS 0
    let s1 := setS 1
    let s := s |> setFld a ⟨1, 0⟩ (v % 4) |> setFlag a Fld.BD_CFG_S0 s0.1 |> setFlag a Fld.BD_CFG_S1 s1.1
    if s0.2 || s1.2 then raiseFlag a Fld.BD_CFG_WREF s else s

/-- BD_CFG_WRITE (R244). -/
def execBdCfgWrite (m : Master) (q : Fin 16) (v : BitVec 32) (s : State) : Out :=
  regWriteBy m (Reg.BD_CFG q) s (bdCfgWrite q v.toNat s)

/-- A read of BD_EVQ: the oldest event leaves the queue, and the lost count starts again (R274). -/
def evqRead (q : Nat) (s : State) : State :=
  let x := tget (fun _ => EventQueue.init) s.evqs q
  let put := fun y => tset (fun _ => EventQueue.init) s.evqs q y
  match x.entries with
  | w :: rest => wr (Reg.BD_EVQ q) (2 ^ 31 + w + x.drop) { s with evqs := put { entries := rest, drop := 0 } }
  | [] => wr (Reg.BD_EVQ q) x.drop { s with evqs := put { x with drop := 0 } }

/-- BD_EVQ_READ (R274). -/
def execBdEvqRead (m : Master) (q : Fin 16) (s : State) : Out := regReadBy m (Reg.BD_EVQ q) s (evqRead q s)

end Sys2Proof.Machine
end

