-- ==== Sys2Proof/Machine/Codes.lean ====
section
/-! DEFINITION. The codes the spec names: the CRC-8 of R153, the reflected CRC-32 of frames and images, the identify
word of R148, and the 8b/10b code groups of the uplink (R150). -/

namespace Sys2Proof.Machine

/-- One bit of the CRC-8: polynomial 0x07, most significant bit first (R153). -/
def crc8Bit (c : Nat) : Nat := if c < 128 then c * 2 else (c * 2) % 256 ^^^ 0x07

/-- The CRC-8 after one byte (R153). -/
def crc8Byte (c b : Nat) : Nat := (List.range 8).foldl (fun c _ => crc8Bit c) (c ^^^ b % 256)

/-- The CRC-8 of bytes from an initial value, no reflection and no final inversion (R153). -/
def crc8 (init : Nat) (bs : List Nat) : Nat := bs.foldl crc8Byte init

/-- One bit of the reflected CRC-32: polynomial 0x04C11DB7, reflected 0xEDB88320. -/
def crc32Bit (c : Nat) : Nat := if c % 2 = 1 then (c / 2) ^^^ 0xEDB88320 else c / 2

/-- The CRC-32 register after one byte. -/
def crc32Byte (c b : Nat) : Nat := (List.range 8).foldl (fun c _ => crc32Bit c) (c ^^^ b % 256)

/-- The CRC-32 of bytes: initial value all ones, reflected, inverted at the end. -/
def crc32 (bs : List Nat) : Nat := (bs.foldl crc32Byte 0xFFFFFFFF) ^^^ 0xFFFFFFFF

/-- The identify word of port n under a nonce: preamble, port, nonce and their CRC-8 (R148). -/
def identifyWord (n nonce : Nat) : Nat := 0xCA000000 + n * 2 ^ 16 + nonce * 2 ^ 8 + crc8 0xFF [n, nonce]

/-! ## 8b/10b (R150)

Sub-blocks are numbers whose most significant bit is sent first. A running disparity is true where it is positive. The
tables are IEEE 802.3 Clause 36's, which R150 names. -/

/-- The number of ones of an n-bit number. -/
def onesOf (n w : Nat) : Nat := ((List.range n).filter fun i => bitAt w i).length

/-- The 6-bit sub-blocks of D0 to D31 at negative running disparity. (PRESUMED, log 193) -/
def blocks6 : List Nat :=
  [0b100111, 0b011101, 0b101101, 0b110001, 0b110101, 0b101001, 0b011001, 0b111000,
   0b111001, 0b100101, 0b010101, 0b110100, 0b001101, 0b101100, 0b011100, 0b010111,
   0b011011, 0b100011, 0b010011, 0b110010, 0b001011, 0b101010, 0b011010, 0b111010,
   0b110011, 0b100110, 0b010110, 0b110110, 0b001110, 0b101110, 0b011110, 0b101011]

/-- The 4-bit sub-blocks of .0 to .7 at negative running disparity. (PRESUMED, log 193) -/
def blocks4 : List Nat := [0b1011, 0b1001, 0b0101, 0b1100, 0b1101, 0b1010, 0b0110, 0b1110]

/-- A sub-block of 2 h bits in its form for the running disparity: an unbalanced one, 111000 and 1100 are inverted at
positive disparity. -/
def blockAt (rd : Bool) (h w : Nat) : Nat :=
  if rd && (onesOf (2 * h) w != h || w == 2 ^ (2 * h) - 2 ^ h) then 2 ^ (2 * h) - 1 - w else w

/-- The 6-bit sub-block of Dx. -/
def block6 (rd : Bool) (x : Nat) : Nat := blockAt rd 3 (nthD 0 blocks6 x)

/-- The 4-bit sub-block of Dx.y: .7 has its alternative form after the sub-blocks of D17, D18 and D20 at negative
disparity, and of D11, D13 and D14 at positive. -/
def block4 (rd : Bool) (x y : Nat) : Nat :=
  if y = 7 ∧ (if rd then x = 11 ∨ x = 13 ∨ x = 14 else x = 17 ∨ x = 18 ∨ x = 20) then (if rd then 0b1000 else 0b0111)
  else blockAt rd 2 (nthD 0 blocks4 y)

/-- The running disparity after a sub-block of 2 h bits, valid or not. -/
def blockRd (h w : Nat) (rd : Bool) : Bool :=
  let k := onesOf (2 * h) w
  if k = h then (if w = 2 ^ h - 1 then true else if w = 2 ^ (2 * h) - 2 ^ h then false else rd) else decide (h < k)

/-- The running disparity after a code group. -/
def groupRd (rd : Bool) (g : Nat) : Bool := blockRd 2 (g % 16) (blockRd 3 (g / 16) rd)

/-- The byte of a valid data group at a running disparity, if it is one. -/
def groupByte (rd : Bool) (g : Nat) : Option Nat :=
  match (List.range 32).find? fun x => block6 rd x == g / 16 with
  | some x => ((List.range 8).find? fun y => block4 (blockRd 3 (g / 16) rd) x y == g % 16).map fun y => 32 * y + x
  | none => none

/-- Code group i of a frame slot's 40 bits, the first sent in the most significant bit (R150). -/
def groupOf (w i : Nat) : Nat := w / 2 ^ (30 - 10 * i) % 1024

/-- The running disparity after i groups of a frame slot. -/
def slotRd (rd : Bool) (w i : Nat) : Bool := (List.range i).foldl (fun r k => groupRd r (groupOf w k)) rd

/-- K28.5 at negative and at positive running disparity. -/
def commaNeg : Nat := 0b0011111010
def commaPos : Nat := 0b1100000101

/-- The 40 bits are a comma frame (R151): /I1/, which is K28.5 D5.6, after positive disparity, or /I2/, which is
K28.5 D16.2, after negative, and then /I2/. -/
def commaFrame (w : Nat) : Bool :=
  let i2 := groupOf w 2 == commaNeg && groupOf w 3 == 0b1001000101
  i2 && ((groupOf w 0 == commaPos && groupOf w 1 == 0b1010010110) ||
    (groupOf w 0 == commaNeg && groupOf w 1 == 0b1001000101))

/-- A frame slot's 40 bits as the port decodes them from a running disparity (R150, R151, R154). (PRESUMED, log 193)
-/
def received (rd : Bool) (w : Nat) : Frame :=
  let b (i : Nat) : Option Nat := groupByte (slotRd rd w i) (groupOf w i)
  let byte (i : Nat) : BitVec 8 := BitVec.ofNat 8 ((b i).getD 0)
  { valid := if commaFrame w then (groupOf w 0 == commaPos) == rd else (List.range 4).all fun i => (b i).isSome
    comma := commaFrame w, tag := byte 0, hi := byte 1, lo := byte 2, crc := byte 3 }

end Sys2Proof.Machine
end

