-- ==== Sys2Proof/Machine/Channel.lean ====
section
/-! DEFINITION. Shared operations of the PWM channels: the loads, the timeline and its lattice, the pulses of a
period, the guard, the trip sources and the forced states (R96 to R119). Channels are named by global port n. -/

namespace Sys2Proof.Machine

/-- The quire and the local port of global port n (R5). -/
def quireOf (n : Nat) : Nat := n / 16
def localOf (n : Nat) : Nat := n % 16

/-- The port mode of channel n (R96). -/
def pwmMode (s : State) (n : Nat) : Nat := fld s (Reg.PW_CFG (quireOf n) (localOf n)) Fld.PW_CFG_MODE

/-- Channel n is a member of a rail that is not OFF (R105). -/
def owned (s : State) (n : Nat) : Bool := flag s (Reg.PW_CFG (quireOf n) (localOf n)) Fld.PW_CFG_OWNED

/-- The rail that port n belongs to, if it is owned. -/
def portRail (s : State) (n : Nat) : Option Nat :=
  if owned s n then some (fld s (Reg.LU_PH_STAT (quireOf n) (localOf n)) Fld.LU_PH_STAT_RAIL) else none

/-- PW_CFG.WREF of channel n sets (R96, R102, R105). -/
def pwmWref (n : Nat) (s : State) : State := raiseFlag (Reg.PW_CFG (quireOf n) (localOf n)) Fld.PW_CFG_WREF s

/-- The dead time in use, 1/256 ns (R108). -/
def deadTime (s : State) (n : Nat) : Nat := fld s (Reg.PW_DTCUR (quireOf n) (localOf n)) Fld.PW_DTCUR_DT

/-- W_min of R109, 1/256 ns: MINPW has two fraction bits. -/
def minPulse (s : State) (n : Nat) : Nat := max (fld s (Reg.PW_DT (quireOf n) (localOf n)) Fld.PW_DT_MINPW * 64) 1

/-- PW_CFG.LSEN of channel n (R97). -/
def lsEnabled (s : State) (n : Nat) : Bool := flag s (Reg.PW_CFG (quireOf n) (localOf n)) Fld.PW_CFG_LSEN

/-- Period, on-time, offset, FREE and PARK of staged or active words (R122). -/
def perOf (w : Nat) : Nat := getBits w Fld.PW_PER_STG_PERIOD
def freeOf (w : Nat) : Bool := getBits w Fld.PW_PER_STG_FREE != 0
def onOf (w : Nat) : Nat := getBits w Fld.PW_ON_STG_ON
def parkOf (w : Nat) : Bool := getBits w Fld.PW_ON_STG_PARK != 0
def ofsOf (w : Nat) : Nat := getBits w Fld.PW_OFS_STG_OFS

/-- The reference instant of channel n's timeline, 1/256 ns: the rail's for TLSEL = 1 or an owned channel, else the
quire's software timeline (R99). (DESIGN CHOICE, log 222) -/
def chanRef (s : State) (n : Nat) : Nat :=
  let q := quireOf n
  if owned s n || flag s (Reg.PW_CFG q (localOf n)) Fld.PW_CFG_TLSEL then
    (railOf s (fld s (Reg.LU_PH_STAT q (localOf n)) Fld.LU_PH_STAT_RAIL)).ref
  else tget (fun _ => 0) s.tlrefs q * 256

/-- The first lattice point at or after x: ref + ofs + m per, for any integer m (R99, R100). -/
def latticeFrom (ref ofs per x : Nat) : Nat :=
  let d := ((ref : Int) + (ofs % per : Nat) - (x : Int)) % (per : Int)
  x + d.toNat

/-- The length of the period that starts at r: the distance to the lattice point nearest to r + per, a tie to the later
one (R99). -/
def latticeLen (ref ofs per r : Nat) : Nat :=
  let up := latticeFrom ref ofs per (r + per)
  let d := up - (r + per)
  if d = 0 then per
  else if 2 * d ≤ per then per + d
  else d

/-- HS turns off at x, if it is on. -/
def hsOffAt (x : Nat) (c : Chan) : Chan := if c.hs then { c with hs := false, hsOff := x } else c

/-- LS turns off at x, if it is on. -/
def lsOffAt (x : Nat) (c : Chan) : Chan := if c.ls then { c with ls := false, lsOff := x } else c

/-- Both sides turn off at x and pending on-edges are cancelled. -/
def bothOffAt (x : Nat) (c : Chan) : Chan :=
  { hsOffAt x (lsOffAt x c) with pendHs := 0, pendLs := 0, endHs := 0, lsNext := false }

/-- The time the guard still requires before an HS-on at x: dt if LS is on, less if it turned off less than dt before
(R109). -/
def hsGuard (c : Chan) (dt x : Nat) : Nat := if c.ls then dt else (c.lsOff + dt) - x

/-- The pulses of a period that starts at x with length len and on-time on, where an HS-on must wait for g: dead time
dt, shortest pulse wmin, synchronous operation lsen (R98, R108, R109). -/
def pulsesWith (g dt wmin : Nat) (lsen : Bool) (x len on : Nat) (c : Chan) : Chan :=
  let c := { c with s := x, len := len, on := on, pendHs := 0, pendLs := 0, endHs := 0, lsNext := false }
  if on < g + wmin then
    let c := hsOffAt x c
    if c.ls || !lsen then c
    else
      let t := max x (c.hsOff + dt)
      if t + wmin ≤ x + len then (if t = x then { c with ls := true } else { c with pendLs := t + 1 }) else c
  else
    let c := lsOffAt x c
    let c := if c.hs then c else if g = 0 then { c with hs := true } else { c with pendHs := x + g + 1 }
    if on < len then { c with endHs := x + on + 1, lsNext := lsen && decide (on + dt + wmin ≤ len) } else c

/-- The pulses of a period under the guard of R109. -/
def decidePulses (dt wmin : Nat) (lsen : Bool) (x len on : Nat) (c : Chan) : Chan :=
  pulsesWith (hsGuard c dt x) dt wmin lsen x len on c

/-- Channel n's trip latch, and its latch-off (R115, R119). -/
def latched (s : State) (n : Nat) : Bool := flag s (Reg.PW_TSTAT (quireOf n) (localOf n)) Fld.PW_TSTAT_LATCHED
def latchOff (s : State) (n : Nat) : Bool := flag s (Reg.PW_TSTAT (quireOf n) (localOf n)) Fld.PW_TSTAT_LOFF

/-- The governing state of port n (R165, R169). -/
def portState (s : State) (n : Nat) : Nat := fld s (Reg.PP_STAT (quireOf n) (localOf n)) Fld.PP_STAT_STATE

/-- The downlink of port n is both-off whatever its channel does: in every mode before SEQUENCE (R29), and in every port
state but ACTIVE and SHED, save FAULTED while a trip's latch drives LS-on (R165). -/
def blockedOff (s : State) (n : Nat) : Bool :=
  decide (mode s < 3) ||
    match portState s n with
    | 3 => false
    | 4 => false
    | 5 => !(latched s n && (chanOf s n).forced == .lsOn)
    | _ => true

/-- Port n's downlink goes both-off if its state or the mode forces it (R29, R165). -/
def blockPins (n : Nat) (s : State) : State := if blockedOff s n then updChan n (bothOffAt (fine s)) s else s

/-- A channel whose period chain runs and which is not parked (R165). -/
def switching (s : State) (n : Nat) : Bool :=
  let c := chanOf s n
  pwmMode s n != 0 && c.live && !parkOf c.actOn && perOf c.actPer != 0

/-- The channel's pins show no period: it is in MODE 0, parked, holds PERIOD 0, a trip forces it, or its downlink is
held both-off (R29, R98, R101, R116, R165). -/
def quietPins (s : State) (n : Nat) (c : Chan) : Bool :=
  pwmMode s n == 0 || parkOf c.actOn || perOf c.actPer == 0 || c.forced != .none || blockedOff s n

/-- A period starts at x with length len and on-time on: a channel whose pins show no period keeps its outputs and
runs its timeline only, and a parked one goes both-off (R101, R116). A burst may ask the guard for gx more (R94).
(DESIGN CHOICE, log 220) -/
def startPeriod (n x len on gx : Nat) (s : State) : State :=
  let c := { chanOf s n with dirty := latched s n || latchOff s n }
  let c' :=
    if c.forced != .none then { c with s := x, len := len, on := on, endHs := 0, lsNext := false }
    else if quietPins s n c then { bothOffAt x c with s := x, len := len, on := on }
    else
      let dt := deadTime s n
      pulsesWith (max (hsGuard c dt x) gx) dt (minPulse s n) (lsEnabled s n) x len on c
  let q := quireOf n
  let p := localOf n
  setChan n c' s
    |> wr (Reg.PW_PER q p) (len % 2 ^ 28 + b2n (freeOf c.actPer) * 2 ^ 31)
    |> wr (Reg.PW_ON q p) (onOf c.actOn + b2n (parkOf c.actOn) * 2 ^ 31)
    |> wr (Reg.PW_OFS q p) (ofsOf c.actOfs)

/-- A period of channel n starts at a reload (R98, R109). -/
def beginPeriod (n x len on : Nat) (s : State) : State := startPeriod n x len on 0 s

/-- PW_REF of channel n shows ref (R100, R122). -/
def showRef (n ref : Nat) (s : State) : State :=
  let ns := ref / 256
  s |> wr (Reg.PW_REF_LO (quireOf n) (localOf n)) (ns % 2 ^ 32)
    |> wr (Reg.PW_REF_HI (quireOf n) (localOf n)) (ns / 2 ^ 32 % 2 ^ 24 * 256 + ref % 256)
    |> updChan n (fun c => { c with ref := ref })

/-- The load buffer becomes the channel's active values at the reload at x, if it was taken at least 2 ns before
(R103). -/
def takeBuffer (n x : Nat) (s : State) : State :=
  updChan n (fun c => if c.bufNew && decide (c.bufNs * 256 + 512 ≤ x) then
    { c with actPer := c.bufPer, actOn := c.bufOn, actOfs := c.bufOfs, bufNew := false } else c) s

/-- Channel n's first period is set for the first lattice point at least 2 ns from now, if the channel is in MODE 1 or
2, runs no period chain and has a PERIOD to take; one that is already set stands, since R100 counts from the mode
write or the first valid load (R100). (DEDUCED, log 186) -/
def armFirst (n : Nat) (s : State) : State :=
  let c := chanOf s n
  let per := if c.bufNew then c.bufPer else c.actPer
  let ofs := if c.bufNew then c.bufOfs else c.actOfs
  if pwmMode s n = 0 ∨ c.live = true ∨ perOf per = 0 ∨ c.first ≠ 0 then s
  else updChan n (fun c => { c with
    first := latticeFrom (chanRef s n) (ofsOf ofs) (perOf per) (fine s + 512) + 1 }) s

/-- A snapshot of three staged words enters channel n's load buffer, unless its PERIOD is below 125 ns (R102, R103).
A snapshot that is taken clears STGMASK. -/
def loadBuffer (n per on ofs : Nat) (s : State) : State :=
  if perOf per < 32000 then pwmWref n s
  else
    let s := updChan n (fun c => { c with
      bufPer := per, bufOn := on, bufOfs := ofs, bufNew := true, bufNs := now s }) s
    armFirst n (wr (Reg.PW_STGMASK (quireOf n) (localOf n)) 0 s)

/-- The loop unit writes period, on-time and offset of channel n and issues its load-all for it (R105). -/
def loopLoad (n per on ofs : Nat) (s : State) : State :=
  let q := quireOf n
  let p := localOf n
  s |> wr (Reg.PW_PER_STG q p) per |> wr (Reg.PW_ON_STG q p) on |> wr (Reg.PW_OFS_STG q p) ofs
    |> wr (Reg.PW_STGMASK q p) 7 |> loadBuffer n per on ofs

/-- The loop unit parks channel n: its period, offset and on-time 0 with PARK (R101). -/
def parkWord : Nat := 2 ^ 31

/-- Channel n stops: both-off at once, no timeline (R121). -/
def stopChan (n : Nat) (s : State) : State :=
  updChan n (fun c => { bothOffAt (fine s) c with
    live := false, first := 0, len := 0, s := 0, walk := 0, walkK := 0 }) s

/-- The length of walk period i of a walk: each of the first K-1 changes by floor(d / K), the last by the rest (R80). -/
def walkLen (c : Chan) (i : Nat) : Nat :=
  let d := c.walkD.natAbs / c.walkK
  let m := if i < c.walkK then d else c.walkD.natAbs - (c.walkK - 1) * d
  if c.walkD < 0 then c.walkT - m else c.walkT + m

/-- PW_CNT: the time left to the end of the present period, 20.8 ns (R98). -/
def pwmCount (s : State) (n : Nat) : Nat :=
  let c := chanOf s n
  if c.live then (c.s + c.len - fine s) % 2 ^ 28 else 0

/-! ## Trip sources (R115) -/

/-- A comparator's lower and upper trip outputs (R139). -/
def lowerTrip (s : State) (q c : Nat) : Bool :=
  flag s (Reg.WC_STAT q c) Fld.WC_STAT_LOLAT && flag s (Reg.WC_CFG q c) Fld.WC_CFG_LOEN
def upperTrip (s : State) (q c : Nat) : Bool :=
  flag s (Reg.WC_STAT q c) Fld.WC_STAT_HILAT && flag s (Reg.WC_CFG q c) Fld.WC_CFG_HIEN

/-- EVT route m of quire q asserts: its input's filtered level, by its polarity (R115, R122). -/
def evtRoute (s : State) (q m : Nat) : Bool :=
  let w := rd s (Reg.PW_EVTSEL q) / 2 ^ (8 * m)
  let low := bitAt w 5
  flag s (Reg.TM_EVTST q (w % 32)) Fld.TM_EVTST_LEVEL != low

/-- The fault manager's trip line to port n pulses: the pulse goes to the members that a rail had at its start (R115,
R368). (DEDUCED, log 229) -/
def fmLine (s : State) (n : Nat) : Bool := s.fm.pulseTo.any fun x => x.2.contains n

/-- The enabled sources of channel n that assert now, in the bit order of PW_TSTAT.FIRST (R115, R122). -/
def tripSources (s : State) (n : Nat) : Nat :=
  let q := quireOf n
  let p := localOf n
  let t := Reg.PW_TRIP q p
  let wc := (List.range 8).foldl (fun a c =>
    a + b2n (bitAt (fld s t Fld.PW_TRIP_WCEN) c && (lowerTrip s q c || upperTrip s q c)) * 2 ^ c) 0
  let ev := (List.range 4).foldl (fun a m =>
    a + b2n (bitAt (fld s t Fld.PW_TRIP_EVTEN) m && evtRoute s q m) * 2 ^ (8 + m)) 0
  wc + ev + b2n (flag s t Fld.PW_TRIP_OCPEN && flag s (Reg.WC_OCPSTAT q p) Fld.WC_OCPSTAT_ASSERT) * 2 ^ 12
    + b2n (fmLine s n) * 2 ^ 13

/-- The pins after a trip at the present instant: HS off, and LS off or on by ACT, on a channel that switches or walks
and whose port does not force both-off; both-off on any other. The trip ends the member's walk and its offset (R94,
R106, R116, R165). (DEDUCED, log 30) -/
def forcePins (n : Nat) (s : State) : State :=
  let act := flag s (Reg.PW_TRIP (quireOf n) (localOf n)) Fld.PW_TRIP_ACT
  let x := fine s
  let st := portState s n
  let drives := switching s n && decide (3 ≤ mode s) && (st == 3 || st == 4 || st == 5)
  updChan n (fun c =>
    if act || !drives then
      { bothOffAt x c with forced := .bothOff, release := false, hiccup := 0, walk := 0, walkK := 0 }
    else
      let c := { hsOffAt x c with pendHs := 0, endHs := 0, lsNext := false, forced := .lsOn, release := false,
                                  hiccup := 0, walk := 0, walkK := 0 }
      if c.ls then { c with pendLs := 0 }
      else if c.hsOff + deadTime s n ≤ x then { c with ls := true, pendLs := 0 }
      else { c with pendLs := c.hsOff + deadTime s n + 1 }) s

/-- Sources src set channel n's latch: FIRST, the counts, the report and line 14 (R115, R119). -/
def latchTrip (n src : Nat) (s : State) : State :=
  let q := quireOf n
  let t := Reg.PW_TSTAT q (localOf n)
  s |> setFlag t Fld.PW_TSTAT_LATCHED true |> setFld t Fld.PW_TSTAT_FIRST src |> incFld t Fld.PW_TSTAT_RCNT
    |> incFld (Reg.PW_TCNT q (localOf n)) wordBits |> forcePins n
    |> updChan n (fun c => { c with quiet := 0, dirty := true })
    |> report { src := 0x11, event := 1, cls := 1, unit := n } |> setLine q 14

/-- The latch that has just set exceeds RETRY: it is a latch-off (R119). -/
def overRetry (s : State) (n : Nat) : Bool :=
  let q := quireOf n
  let p := localOf n
  let r := fld s (Reg.PW_TRIP q p) Fld.PW_TRIP_RETRY
  r != 15 && decide (r < fld s (Reg.PW_TSTAT q p) Fld.PW_TSTAT_RCNT)

/-- Channel n's latch clears: by software the forced state holds to the next reload, at a reload it ends at once
(R118). -/
def unlatch (n : Nat) (atReload : Bool) (s : State) : State :=
  setFlag (Reg.PW_TSTAT (quireOf n) (localOf n)) Fld.PW_TSTAT_LATCHED false
    (updChan n (fun c => if atReload || !c.live then { c with forced := .none, release := false }
      else { c with release := true }) s)

/-- A clear of latch-off, latch and RCNT together (R119). -/
def clearLatchOff (n : Nat) (s : State) : State :=
  let t := Reg.PW_TSTAT (quireOf n) (localOf n)
  s |> setFlag t Fld.PW_TSTAT_LOFF false |> setFld t Fld.PW_TSTAT_RCNT 0 |> unlatch n false

end Sys2Proof.Machine
end

