-- ==== Sys2Proof/Machine/PortOps.lean ====
section
/-! DEFINITION. Shared operations of the phase ports: the data-path state, the governing state, disagreements with the
management view, and the samples a port supplies (R60, R156, R165, R168, R169, R383). -/

namespace Sys2Proof.Machine

/-- PP_CFG.KIND of port n is 1: a discrete driver (R165). (DEDUCED, log 43) -/
def discrete (s : State) (n : Nat) : Bool := flag s (Reg.PP_CFG (quireOf n) (localOf n)) Fld.PP_CFG_KIND

/-- Port n is awaiting resynchronisation (R158). -/
def resyncing (s : State) (n : Nat) : Bool := flag s (Reg.PP_STAT (quireOf n) (localOf n)) Fld.PP_STAT_RSY

/-- Port n is available to its rail (R60). -/
def available (s : State) (n : Nat) : Bool :=
  let st := portState s n
  (st == 2 || st == 3 || st == 4) && !resyncing s n

/-- How restrictive a state is, ISOLATED most (R169). -/
def restrictRank : Nat → Nat
  | 6 => 6
  | 5 => 5
  | 0 => 4
  | 1 => 3
  | 2 => 2
  | 4 => 1
  | _ => 0

/-- The state a management view names, if it names one (R169). -/
def mgmtState : Nat → Option Nat
  | 1 => some 0
  | 2 => some 5
  | 3 => some 6
  | _ => none

/-- The more restrictive of the data-path state and the management view (R169). -/
def governing (dp mgmt : Nat) : Nat :=
  match mgmtState mgmt with
  | some m => if restrictRank dp < restrictRank m then m else dp
  | none => dp

/-- The two views of port n differ (R169). -/
def viewsDiffer (s : State) (n : Nat) : Bool :=
  match mgmtState (fld s (Reg.PP_STAT (quireOf n) (localOf n)) Fld.PP_STAT_MGMT) with
  | some m => m != (portOf s n).dp
  | none => false

/-- Something holds port n in FAULTED: its channel's latch or latch-off, a status frame with FLT = 1, or exhausted
resynchronisation or a binding that failed to align (R120, R165, R167). -/
def faultCause (s : State) (n : Nat) : Bool :=
  latched s n || latchOff s n || (portOf s n).flt || (portOf s n).exhausted || (portOf s n).alignFail

/-- The state of a port that works: ACTIVE or SHED for a member of a rail that is not OFF, ACTIVE or IDLE for any other
(R165). -/
def workingState (s : State) (n : Nat) : Nat :=
  if owned s n then
    if flag s (Reg.LU_PH_STAT (quireOf n) (localOf n)) Fld.LU_PH_STAT_ACTIVE then 3 else 4
  else if switching s n then 3 else 2

/-- The data-path state of port n that its causes give it (R120, R165). A port leaves FAULTED by itself only as a
discrete driver, or unbound; a bound stage's status frame ends it otherwise. -/
def dataPath (s : State) (n : Nat) : Nat :=
  let q := quireOf n
  let p := localOf n
  let dp := (portOf s n).dp
  let en := flag s (Reg.PP_CFG q p) Fld.PP_CFG_EN
  let up := decide (2 ≤ mode s)
  if dp = 6 then 6
  else if faultCause s n && up then 5
  else if dp = 0 then if en && up then (if discrete s n then 2 else 1) else 0
  else if dp = 1 then if en then 1 else 0
  else if dp = 5 then
    if discrete s n then workingState s n
    else if flag s (Reg.PP_STAT q p) Fld.PP_STAT_BOUND then 5 else 1
  else workingState s n

/-- A disagreement enters FM_DISQ and the Foreman's list, unless the list holds it (R383). -/
def disagree (d : Disagree) (s : State) : State :=
  if s.fm.dlist.any (fun x => x.what.kind == d.kind && x.what.unit == d.unit) then s
  else updFm (fun f => { f with
    disq := if f.disq.length < 16 then f.disq ++ [d] else f.disq, dlist := f.dlist ++ [⟨d, 0, false⟩] }) s

/-- Port n's downlink repeats the identify word under the present nonce while the port is in IDENT and its channel in
MODE 0, and none otherwise (R148). (DEDUCED, log 197) -/
def sendIdent (n : Nat) (s : State) : State :=
  let word := if (portOf s n).dp == 1 && pwmMode s n == 0 then
    identifyWord n (fld s (Reg.PP_NONCE (quireOf n)) Fld.PP_NONCE_NONCE) else 0
  updPort n (fun p => { p with ident := word }) s

/-- PP_CUR of a port with no aligned uplink: 0, extrapolated (R156). -/
def noCurrent (n : Nat) (s : State) : State := wr (Reg.PP_CUR (quireOf n) (localOf n)) (2 ^ 31) s

/-- A record of port n's, with PP_LOSS in DETAIL (R369, R370, R376). -/
def portReport (n event cls persist : Nat) (s : State) : State :=
  report { src := 0x14, event := event, cls := cls, unit := n, persist := persist,
           detail := rd s (Reg.PP_LOSS (quireOf n) (localOf n)) } s

/-- The effect f, after which port n's data-path state, governing state and disagreement follow: line 18 for a change of
the governing state, the identify word, the current of a port in IDENT, which has no stage, and the pins where the new
state holds them both-off (R148, R156, R165, R169, R235). -/
def withPort (n : Nat) (f : State → State) (s : State) : State :=
  let a := Reg.PP_STAT (quireOf n) (localOf n)
  let before := portState s n
  let differed := viewsDiffer s n
  let s := f s
  let s := updPort n (fun p => { p with dp := dataPath s n }) s
  let dp := (portOf s n).dp
  let g := governing dp (fld s a Fld.PP_STAT_MGMT)
  let s := s |> setFld a Fld.PP_STAT_STATE g |> setFlag a Fld.PP_STAT_IDBLK (dp == 1 && pwmMode s n != 0)
    |> sendIdent n
  let s := if dp = 1 then noCurrent n s else s
  let s := blockPins n (if g = before then s else setLine (quireOf n) 18 s)
  if viewsDiffer s n && !differed then
    s |> raiseFlag a Fld.PP_STAT_DIS |> portReport n 7 1 0
      |> disagree { kind := 1, data := dp, mgmt := fld s a Fld.PP_STAT_MGMT, unit := n }
  else s

/-- Port n's states follow its causes. -/
def settlePort (n : Nat) (s : State) : State := withPort n id s

/-! ## Samples (R135, R155, R156) -/

/-- A sample kept for index k. -/
def findTag (k : Nat) : List (Nat × Int) → Option Int
  | [] => none
  | (i, v) :: t => if i = k then some v else findTag k t

/-- The converter outputs that the loop takes at tick instant t: those of its snapshot, or the newest (R135). -/
def outsAt (s : State) (c t : Nat) : Tab Int :=
  match (convOf s c).snaps.find? (fun x => x.ns == t) with
  | some x => x.outs
  | none => (convOf s c).output

/-- The sample of AUX-sensed port n for tick instant t: round((code - OFS) GAIN) in 2.5 mA units, 16 bits (R135). -/
def auxSample (s : State) (n t : Nat) : Int :=
  let q := quireOf n
  let a := Reg.AD_AUXMAP q (localOf n)
  if flag s a Fld.AD_AUXMAP_EN then
    let c := 2 * q + fld s a Fld.AD_AUXMAP_CONV
    let code := tget (fun _ => 0) (outsAt s c t) (2 * (3 + fld s a Fld.AD_AUXMAP_AUX) + 1)
    let ofs : Int := fld s a Fld.AD_AUXMAP_OFS
    satS 16 (roundAwayDiv ((code - ofs * 256) * sx 16 (fld s a Fld.AD_AUXMAP_GAIN)) 65536)
  else 0

/-- Port n has an aligned uplink from which samples come (R156). -/
def uplinkUp (s : State) (n : Nat) : Bool :=
  flag s (Reg.PP_STAT (quireOf n) (localOf n)) Fld.PP_STAT_ALIGNED &&
    flag s (Reg.PP_STAT (quireOf n) (localOf n)) Fld.PP_STAT_BOUND && !(portOf s n).exhausted

/-- Port n supplies a sample of its stage for the index of tick instant t: its uplink is aligned, and was so before t
(R156). (DEDUCED, log 227) -/
def linkedAt (s : State) (n t : Nat) : Bool := uplinkUp s n && decide ((portOf s n).alignAt < t)

/-- Port n's samples are awaited by their tags (R28, R156). -/
def awaited (s : State) (n : Nat) : Bool :=
  !discrete s n && uplinkUp s n && flag s (Reg.LU_CTRL (quireOf n)) Fld.LU_CTRL_DETERM

/-- A frame slot of port n, ns (R150). -/
def slotNs (s : State) (n : Nat) : Nat := if flag s (Reg.PP_CFG (quireOf n) (localOf n)) Fld.PP_CFG_RATE then 32 else 16

/-- The uplink deadline of port n after a tick instant, ns (R156). -/
def uplinkWait (s : State) (n : Nat) : Nat := fld s (Reg.PP_CTRL (quireOf n)) Fld.PP_CTRL_UPDL

/-- The phase sample that port n supplies for index k, whose tick instant is t (R50, R135, R156); in non-deterministic
mode the newest sample whatever its index (R28). (DEDUCED, log 43) -/
def phaseSample (s : State) (n k t : Nat) : Int :=
  if discrete s n then auxSample s n t
  else if !linkedAt s n t then 0
  else
    let p := portOf s n
    if flag s (Reg.LU_CTRL (quireOf n)) Fld.LU_CTRL_DETERM then
      match findTag k p.supplied with
      | some v => v
      | none => (findTag k p.tagged).getD 0
    else if p.good = 0 then 0 else p.x1

/-- Port n holds a sample for index k, tagged or supplied (R155, R156). -/
def sampleHeld (s : State) (n k : Nat) : Bool :=
  (findTag k (portOf s n).supplied).isSome || (findTag k (portOf s n).tagged).isSome

/-- No later sample of port n can replace the one tagged with the index of tick instant t: one sampled after t has
come, the next slot's would be, or the deadline has passed (R155, R156). (DEDUCED, log 227) -/
def sampleFinal (s : State) (n t : Nat) : Bool :=
  let p := portOf s n
  decide (t + 1 < p.newTf) || decide (t < p.tf1 + slotNs s n) || decide (t + uplinkWait s n ≤ now s)

/-- The phase sample of port n for index k, tick instant t, is present and stays (R25, R56 step 10, R155). (DEDUCED,
log 227) -/
def sampleReady (s : State) (n k t : Nat) : Bool :=
  !awaited s n || !linkedAt s n t || (findTag k (portOf s n).supplied).isSome ||
    ((findTag k (portOf s n).tagged).isSome && sampleFinal s n t)

end Sys2Proof.Machine
end

