-- ==== Sys2Proof/Machine/Rail.lean ====
section
/-! DEFINITION. Shared operations of the rails: entries and members, the intent mixer's lanes and outcome records, the
latch-off, and the commands of the rail table (R39 to R47, R72, R73, R86 to R90, R368). -/

namespace Sys2Proof.Machine

/-! ## Entries and members -/

/-- The home quire and the slot of rail r (R39). -/
def homeOf (r : Nat) : Nat := r / 2
def slotOf (r : Nat) : Nat := r % 2

/-- The entry that the rail table's registers hold for rail r (R73). -/
def readEntry (s : State) (r : Nat) : RailEntry :=
  { cfg := rd s (Reg.RT_CFG r), m0 := rd s (Reg.RT_MEMB r 0), m1 := rd s (Reg.RT_MEMB r 1),
    m2 := rd s (Reg.RT_MEMB r 2), m3 := rd s (Reg.RT_MEMB r 3), vref := rd s (Reg.RT_VREF r), ll := rd s (Reg.RT_LL r),
    period := rd s (Reg.RT_PERIOD r), ilim := rd s (Reg.RT_ILIM r), phlim := rd s (Reg.RT_PHLIM r),
    nph := rd s (Reg.RT_NPH r), adapt := rd s (Reg.RT_ADAPT r), pgood := rd s (Reg.RT_PGOOD r) }

namespace RailEntry
def spanFirst (e : RailEntry) : Nat := getBits e.cfg Fld.RT_CFG_SPAN_FIRST
def spanLen (e : RailEntry) : Nat := getBits e.cfg Fld.RT_CFG_SPAN_LEN
def slew (e : RailEntry) : Nat := getBits e.vref Fld.RT_VREF_SLEW
def target (e : RailEntry) : Nat := getBits e.vref Fld.RT_VREF_TARGET
def llsh (e : RailEntry) : Nat := getBits e.ll Fld.RT_LL_LLSH
def loadLine (e : RailEntry) : Nat := getBits e.ll Fld.RT_LL_LL
def per (e : RailEntry) : Nat := getBits e.period Fld.RT_PERIOD_PERIOD
def total (e : RailEntry) : Nat := getBits e.ilim Fld.RT_ILIM_TOTAL
def neg (e : RailEntry) : Nat := getBits e.ilim Fld.RT_ILIM_NEG
def iphMax (e : RailEntry) : Nat := getBits e.phlim Fld.RT_PHLIM_IPH_MAX
def rotMs (e : RailEntry) : Nat := getBits e.phlim Fld.RT_PHLIM_ROT_MS
def pinEn (e : RailEntry) : Bool := getBits e.nph Fld.RT_NPH_PIN_EN != 0
def pin (e : RailEntry) : Nat := getBits e.nph Fld.RT_NPH_PIN
def floor (e : RailEntry) : Nat := getBits e.nph Fld.RT_NPH_FLOOR
def ceil (e : RailEntry) : Nat := getBits e.nph Fld.RT_NPH_CEIL
def iadd (e : RailEntry) : Nat := getBits e.adapt Fld.RT_ADAPT_IADD
def idrop (e : RailEntry) : Nat := getBits e.adapt Fld.RT_ADAPT_IDROP
def dwellTicks (e : RailEntry) : Nat := getBits e.adapt Fld.RT_ADAPT_DWELL
def win (e : RailEntry) : Nat := getBits e.pgood Fld.RT_PGOOD_WIN
def dly (e : RailEntry) : Nat := getBits e.pgood Fld.RT_PGOOD_DLY

/-- The membership masks of the span's quires, in order (R40). -/
def masks (e : RailEntry) : List Nat := [e.m0, e.m1, e.m2, e.m3].map (· % 65536)

/-- The quires of the span (R40). -/
def span (e : RailEntry) : List Nat := (List.range (e.spanLen + 1)).map (e.spanFirst + ·)

/-- The member ports in ascending order of global index: member slot j holds the j-th (R40, R41). -/
def ports (e : RailEntry) : List Nat :=
  ((List.range (e.spanLen + 1)).map fun m =>
    (ones 16 (nthD 0 e.masks m)).map fun p => 16 * (e.spanFirst + m) + p).flatten
end RailEntry

/-- The state of rail r (R47). -/
def railState (s : State) (r : Nat) : Nat := fld s (Reg.RT_STATE r) Fld.RT_STATE_STATE

/-- Rail r regulates: SOFTSTART or ON (R47). -/
def regulating (s : State) (r : Nat) : Bool := railState s r == 1 || railState s r == 2

/-- Rail r is enabled in the sense of R20: from the acceptance of its ENABLE until it next reaches OFF. -/
def enabled (s : State) (r : Nat) : Bool := railState s r != 0 || (railOf s r).cmd == 2

/-- The ports of rail r's entry in force, or of the entry an accepted ENABLE carries (R20). -/
def enabledPorts (s : State) (r : Nat) : List Nat :=
  let x := railOf s r
  (if railState s r != 0 then x.entry.ports else []) ++ (if x.cmd == 1 || x.cmd == 2 then x.next.ports else [])

/-- The members of rail r in force, each with its member slot. -/
def members (s : State) (r : Nat) : List (Nat × Nat) :=
  let ps := (railOf s r).entry.ports
  (List.range ps.length).zip ps

/-- The address of a member table register of rail r's slot. -/
def mbrCfg (r j : Nat) : Nat := Reg.LU_MBR_CFG (homeOf r) (slotOf r) j
def mbrWear (r j : Nat) : Nat := Reg.LU_MBR_WEAR (homeOf r) (slotOf r) j
def mbrStat (r j : Nat) : Nat := Reg.LU_MBR_STAT (homeOf r) (slotOf r) j

/-- Member slot j of rail r is active (R60). -/
def memberActive (s : State) (r j : Nat) : Bool := flag s (mbrStat r j) Fld.LU_MBR_STAT_ACTIVE

/-- Member slot j of rail r, port n, becomes active or inactive (R60); the port's state follows (R165). -/
def setActive (r j n : Nat) (b : Bool) (s : State) : State :=
  settlePort n (s |> setFlag (mbrStat r j) Fld.LU_MBR_STAT_ACTIVE b
    |> setFlag (Reg.LU_PH_STAT (quireOf n) (localOf n)) Fld.LU_PH_STAT_ACTIVE b)

/-- Port n becomes a member of rail r that is not OFF, or stops being one (R105). -/
def setOwned (n r : Nat) (b : Bool) (s : State) : State :=
  let q := quireOf n
  let p := localOf n
  let s := setFlag (Reg.PW_CFG q p) Fld.PW_CFG_OWNED b s
  let s := if b then setFld (Reg.LU_PH_STAT q p) Fld.LU_PH_STAT_RAIL r s
    else setFlag (Reg.LU_PH_STAT q p) Fld.LU_PH_STAT_ACTIVE false s
  settlePort n s

/-- The loop unit parks port n: it stages both-off and finishes the present period; a member still walking gets its
walk period and the offset it leads to (R101, R106). (DESIGN CHOICE, log 218) -/
def parkPort (r n : Nat) (s : State) : State :=
  let x := railOf s r
  let c := chanOf s n
  if c.walk != 0 then loopLoad n (walkLen c c.walk + 2 ^ 31) parkWord c.walkU s
  else loopLoad n x.entry.per parkWord (if x.walked && c.walkK != 0 then c.walkU else 0) s

/-! ## Intent mixer: lanes and outcome records (R86 to R89) -/

/-- The address of a mixer register of rail r's slot. -/
def imStat (r : Nat) : Nat := Reg.LU_IM_STAT (homeOf r) (slotOf r)

/-- LU_IM_STAT.LANES shows the busy lanes (R95). -/
def showLanes (r : Nat) (s : State) : State :=
  let ls := (railOf s r).lanes
  setFld (imStat r) Fld.LU_IM_STAT_LANES
    (((List.range 8).zip ls).foldl (fun a x => a + b2n x.2.busy * 2 ^ x.1) 0) s

/-- An outcome record of rail r enters the ring: its FLAGS and STEP words and its step index; SEQ is written last, and
lines 10 and 11 tell the engines (R89, R95, R235). (DEDUCED, log 28) -/
def putOutcome (r flags step kstep : Nat) (s : State) : State :=
  let q := homeOf r
  let l := slotOf r
  let n := ((railOf s r).outcomes + 1) % 2 ^ 32
  let e := n % 16
  s |> wr (Reg.LU_IM_OUT_FLAGS q l e) flags |> wr (Reg.LU_IM_OUT_STEP q l e) step
    |> wr (Reg.LU_IM_OUT_KSTEP q l e) kstep |> wr (Reg.LU_IM_OUT_SEQ q l e) n |> wr (Reg.LU_IM_OUTNEW q l) n
    |> updRail r (fun x => { x with outcomes := n }) |> setLine q (10 + l)

/-- The FLAGS word of a record for a lane (R95). -/
def outcomeFlags (x : Lane) (wrong cut : Bool) : Nat :=
  b2n wrong * 2 ^ 31 + b2n x.late * 2 ^ 30 + b2n cut * 2 ^ 29 + x.entry % 16 * 2 ^ 24 + x.partner % 128 * 2 ^ 16
    + pat 12 x.dI

/-- The record of a lane that is cut or superseded is written at once with CUT = 1 (R86, R87). The rule gives such a
record no OBS and no SUMPRED: that word is a free value. (DEDUCED, log 21) -/
def putCut (r : Nat) (x : Lane) (s : State) : State :=
  spend (putOutcome r (outcomeFlags x false true) (Config.freeWord s.fresh).toNat x.kstep s)

/-- The hint of lane j, which is cut, counts in no group (R89). -/
def cutHints (j : Nat) (x : Rail) : Rail := { x with hints := x.hints.filter fun h => h.lane != j }

/-- Lane j of rail r is cut: its contribution becomes 0 and it is free, with a record marked CUT (R87). -/
def cutLane (r j : Nat) (s : State) : State :=
  let x := nthD Lane.init (railOf s r).lanes j
  if x.busy then
    let s := updRail r (cutHints j) (putCut r x s)
    showLanes r (updRail r (fun y => { y with lanes := setNth y.lanes j Lane.init }) s)
  else s

/-- Every lane of rail r is cut (R87). -/
def cutLanes (r : Nat) (s : State) : State := forAll (List.range 8) (cutLane r) s

/-! ## Leaving regulation -/

/-- Rail r leaves regulation for state st, OFF or LATCHED: its members are parked and inactive, PG and the flags of
the tick are 0, its lanes are cut, and engine-in-loop mode has nothing to present; NAVAIL and the members' AVAIL keep
the values of its last tick (R47, R73, R87, R101). (DEDUCED, log 22; DESIGN CHOICE, log 180, 215) -/
def stopRail (r st : Nat) (s : State) : State :=
  let ms := members s r
  let s := forAll ms (fun x s => setActive r x.1 x.2 false (parkPort r x.2 s)) s
  let a := Reg.RT_STATE r
  let s := s |> setFld a Fld.RT_STATE_STATE st |> setFlag a Fld.RT_STATE_PG false |> setFld a Fld.RT_STATE_NACT 0
    |> setFlag a Fld.RT_STATE_ILIM false |> setFlag a Fld.RT_STATE_VHEAD false
    |> setFlag a Fld.RT_STATE_UNDERFLOOR false |> setFlag a Fld.RT_STATE_EIL false
    |> setFlag (Reg.LU_RSTAT (homeOf r) (slotOf r)) Fld.LU_RSTAT_EIL_ACT false
    |> setFlag (Reg.LU_BURST_STAT (homeOf r) (slotOf r)) Fld.LU_BURST_STAT_WALKING false
  let s := updRail r (fun x => { x with
    pgFrom := 0, pgBad := 0, dwell := 0, fired := 0, more := [], nb := 0, walked := false, wait := [], missRun := 0,
    fell := false, holdRamp := false, usat := 0, clamp := 0, demand := 0, staged := [], fallback := false }) s
  cutLanes r s

/-- The standing condition UNDERFLOOR holds while a rail has it (R378). -/
def settleUnderfloor (s : State) : State :=
  setCond 6 ((List.range 32).any fun r => flag s (Reg.RT_STATE r) Fld.RT_STATE_UNDERFLOOR) s

/-- A converter of quire pair index c has a retired slice, or a rail runs on a fallback stream (R378). -/
def settleConverter (s : State) : State :=
  setCond 5 ((List.range 32).any fun c =>
    fld s (Reg.AD_STAT (c / 2) (c % 2)) Fld.AD_STAT_RETIRED != 0 || (railOf s c).fallback) s

/-- A rail of the supply monitor's order has done its part: OFF or LATCHED on the way down (R396), PG = 1 reached or
disabled by the host on the way up (R395, R404). -/
def seqRailDone (s : State) (r : Nat) : Bool :=
  if flag s Reg.SM_SEQSTAT Fld.SM_SEQSTAT_DOWN then railState s r == 0 || railState s r == 4
  else s.sup.run.reached.contains r || s.sup.run.hostOff.contains r

/-- The group in progress is marked done at the instant its last rail is (R395, R396). -/
def seqMark (s : State) : State :=
  let x := s.sup.run
  if flag s Reg.SM_SEQSTAT Fld.SM_SEQSTAT_BUSY && !x.done && x.todo.isEmpty && x.waiting.isEmpty &&
      x.rails.all (seqRailDone s) then
    updSup (fun y => { y with run := { y.run with done := true, doneAt := s.tb.ns } }) s
  else s

/-- Rail r is latched off: in any state but OFF it enters LATCHED (R47). One that is OFF with an ENABLE accepted keeps
the instant, for R72's latch-off in the tick of k_a. -/
def latchRail (r : Nat) (s : State) : State :=
  if railState s r = 0 ∨ railState s r = 4 then
    if (railOf s r).cmd = 2 then updRail r (fun x => { x with latchAt := s.tb.ns + 1 }) s else s
  else seqMark (settleConverter (settleUnderfloor (stopRail r 4 s)))

/-- Rail r reaches OFF: its ports leave it (R47, R105). -/
def railOff (r : Nat) (s : State) : State :=
  let ms := members s r
  let s := stopRail r 0 s
  seqMark (settleConverter (settleUnderfloor (forAll ms (fun x s => setOwned x.2 r false s) s)))

/-- A latch of channel n sets by sources src, and becomes a latch-off where R119 says so: the phase is held, or with
SCOPE = 1 the owned channel's rail enters LATCHED. The rail's STATUS_IOUT shows it (R332), and the port follows (R119,
R120). (DESIGN CHOICE, log 35) -/
def tripChan (n src : Nat) (s : State) : State :=
  let q := quireOf n
  let p := localOf n
  let s := latchTrip n src s
  let s :=
    if overRetry s n then
      let s := s |> setFlag (Reg.PW_TSTAT q p) Fld.PW_TSTAT_LOFF true
        |> report { src := 0x11, event := 2, cls := 2, unit := n, persist := 2 }
      match portRail s n with
      | some r =>
        let s := updHost (fun h => { h with iout := tset (fun _ => 0) h.iout r 0x80 }) s
        if flag s (Reg.PW_TRIP q p) Fld.PW_TRIP_SCOPE then latchRail r s else s
      | none => s
    else s
  settlePort n s

/-- The fault manager's trip line pulses to every member channel of rail r: each latch that is clear sets, and the
rail enters LATCHED (R115, R368). (DEDUCED, log 229; DESIGN CHOICE, log 35) -/
def pulseRail (r : Nat) (s : State) : State :=
  let ports := (railOf s r).entry.ports
  let s := updFm (fun f => { f with pulse := tset (fun _ => 0) f.pulse r 1,
                                    pulseAt := tset (fun _ => 0) f.pulseAt r (s.tb.ns + 1),
                                    pulseTo := tset (fun _ => []) f.pulseTo r ports }) s
  let s := forAll ports (fun n s =>
    if latched s n then s else tripChan n (tripSources s n) s) s
  latchRail r s

/-! ## Commands of the rail table (R43 to R45) -/

/-- An active table of the two converters of quire q holds input i in the given range (R44, R126). -/
def tableHolds (s : State) (q c i wide : Nat) : Bool :=
  (List.range (2 ^ fld s (Reg.AD_LEN q c) Fld.AD_LEN_ACTIVE)).any fun e =>
    fld s (Reg.AD_SEQ q c e) Fld.AD_SEQ_INPUT == i && fld s (Reg.AD_SEQ q c e) Fld.AD_SEQ_WIDE == wide

/-- An AUX channel is assigned to port n (R41, R135). -/
def auxAssigned (s : State) (n : Nat) : Bool :=
  let q := quireOf n
  let a := Reg.AD_AUXMAP q (localOf n)
  flag s a Fld.AD_AUXMAP_EN &&
    tableHolds s q (fld s a Fld.AD_AUXMAP_CONV) (3 + fld s a Fld.AD_AUXMAP_AUX) 1

/-- R40 is broken by entry e of rail r. -/
def spanBroken (r : Nat) (e : RailEntry) : Bool :=
  decide (e.spanFirst + e.spanLen > 15) || decide (homeOf r < e.spanFirst) ||
    decide (e.spanFirst + e.spanLen < homeOf r) || (e.masks.drop (e.spanLen + 1)).any (· != 0)

/-- Check 4, SPAN (R44). -/
def badSpan (s : State) (r : Nat) (e : RailEntry) : Bool :=
  spanBroken r e || (railState s r != 0 &&
    (railOf s r).entry.ports.any fun n => !e.span.contains (quireOf n))

/-- Check 5, TICK, by the periods in force, also while a requested one waits for its 128 ns instant (R22, R44).
(DEDUCED, log 178) -/
def badTick (s : State) (r : Nat) (e : RailEntry) : Bool :=
  e.span.any (fun q => tickNs s q != tickNs s (homeOf r)) ||
    e.ports.any fun n =>
      flag s (Reg.PP_CFG (quireOf n) (localOf n)) Fld.PP_CFG_RATE && tickNs s (quireOf n) == 16

/-- Check 6, MEMBER (R41, R44). -/
def badMember (s : State) (r : Nat) (e : RailEntry) : Bool :=
  e.ports.any fun n =>
    (match portRail s n with
      | some r' => r' != r
      | none => false) ||
    (pwmMode s n != 1 && pwmMode s n != 2) || (pwmMode s n == 2 && !auxAssigned s n)

/-- Check 7, COUNT (R44). -/
def badCount (s : State) (op : Nat) (e : RailEntry) : Bool :=
  let n := e.ports.length
  n == 0 || decide (64 < n) || e.floor == 0 || decide (e.ceil < e.floor) || decide (n < e.ceil) ||
    (e.pinEn && (decide (e.pin < e.floor) || decide (e.ceil < e.pin))) ||
    (op == 1 && decide ((e.ports.filter (available s)).length < e.floor))

/-- Check 8, VALUE (R44). -/
def badValue (e : RailEntry) : Bool :=
  decide (e.target < 4000) || decide (65534 < e.target) || e.slew == 0 || decide (500 < e.slew) ||
    decide (2000 < e.loadLine) || decide (e.per < 125 * 256) || decide (5000 * 256 < e.per) || e.total == 0 ||
    decide (5120 < e.total) || decide (e.total < e.neg) || e.iphMax == 0 || decide (800 < e.iphMax) ||
    decide (e.iadd ≤ e.idrop) || e.dwellTicks == 0 || e.win == 0

/-- Check 9, COMP (R44). -/
def badComp (s : State) (r op : Nat) : Bool :=
  let q := homeOf r
  let l := slotOf r
  fld s (Reg.LU_IFS q l) Fld.LU_IFS_IFS == 0 ||
    decide (sx 32 (rd s (Reg.LU_IHI q l)) < sx 32 (rd s (Reg.LU_ILO q l))) ||
    (op == 2 && !tableHolds s q 0 l 1 && !tableHolds s q 1 l 1)

/-- Check 3, STATE (R44). -/
def badState (s : State) (r op : Nat) : Bool :=
  let st := railState s r
  match op with
  | 1 => st == 0 || st == 4
  | 2 => st != 0 || !(mode s == 3 || mode s == 4 || mode s == 5)
  | 3 => st == 0 || st == 4
  | 4 => st != 4
  | _ => false

/-- RT_CMD is not free: a command is in progress, or, for a Foreman core, one of the supply monitor's waits, which is
taken ahead of any Foreman write (R43). -/
def rtBusy (s : State) (bySeq : Bool) : Bool :=
  flag s Reg.RT_CMDSTAT Fld.RT_CMDSTAT_BUSY || (!bySeq && !s.sup.run.waiting.isEmpty)

/-- The result of the checks of R44, in their order, of command op for rail r. -/
def rtCheck (s : State) (op r : Nat) (bySeq : Bool) : Nat :=
  let e := readEntry s r
  if op = 0 ∨ 5 < op then 1
  else if rtBusy s bySeq then 2
  else if badState s r op then 3
  else if 2 < op then 0
  else if badSpan s r e then 4
  else if badTick s r e then 5
  else if badMember s r e then 6
  else if badCount s op e then 7
  else if badValue e then 8
  else if badComp s r op then 9
  else 0

/-- RT_CMDSTAT shows the result of the last command and its rail (R73). -/
def rtResult (r result : Nat) (s : State) : State :=
  s |> setFld Reg.RT_CMDSTAT Fld.RT_CMDSTAT_RAIL r |> setFld Reg.RT_CMDSTAT Fld.RT_CMDSTAT_RESULT result

/-- CLEAR of a LATCHED rail: OFF, and each member channel whose enabled sources are inactive is cleared (R47, R119). -/
def rtClear (r : Nat) (s : State) : State :=
  let ps := (railOf s r).entry.ports
  let s := forAll ps (fun n s => if tripSources s n = 0 then settlePort n (clearLatchOff n s) else s) s
  railOff r s

/-- CLRCNT zeroes the rail's three counts (R73). -/
def rtClrcnt (r : Nat) (s : State) : State :=
  updRail r (fun x => { x with ilimWas := 0 }) s |> wr (Reg.RT_MISS r) 0 |> wr (Reg.RT_OPPOSE r) 0
    |> wr (Reg.RT_ILIMCNT r) 0

/-- RT_CMD takes command op for rail r, from the supply monitor or a Foreman core: refused by R44, or accepted. COMMIT,
ENABLE and DISABLE stay BUSY until their applying index; CLEAR and CLRCNT act at once (R43 to R45). A rail that the host
disables during SEQUENCE counts as reached (R404). -/
def rtCommand (op r : Nat) (bySeq : Bool) (s : State) : State :=
  let res := rtCheck s op r bySeq
  let s := rtResult r res s
  if res != 0 then s
  else if op = 4 then rtClear r s
  else if op = 5 then rtClrcnt r s
  else
    let s := if op = 3 ∧ !bySeq ∧ mode s = 3 then
      updSup (fun y => { y with run := { y.run with hostOff := r :: y.run.hostOff.filter (· != r) } }) s else s
    setFlag Reg.RT_CMDSTAT Fld.RT_CMDSTAT_BUSY true
      (updRail r (fun x => { x with cmd := op, next := readEntry s r, bySeq := bySeq, latchAt := 0 }) s)

end Sys2Proof.Machine
end

