-- ==== Sys2Proof/Machine/Sequence.lean ====
section
/-! DEFINITION. Shared operations of the supply monitor's orders: the groups of the sequencing table, the start of
SHUTDOWN, and the settling of an unsafe rail (R43, R368, R382, R394 to R396). -/

namespace Sys2Proof.Machine

/-- Words 0 and 1 of step j of the sequencing table (R394). -/
def step0 (s : State) (j : Nat) : Nat := rd s (Reg.SM_SEQ0 j)
def step1 (s : State) (j : Nat) : Nat := rd s (Reg.SM_SEQ1 j)
def stepValid (s : State) (j : Nat) : Bool := getBits (step0 s j) Fld.SM_SEQ0_VALID != 0
def stepWithPrev (s : State) (j : Nat) : Bool := getBits (step0 s j) Fld.SM_SEQ0_WITHPREV != 0
def stepRail (s : State) (j : Nat) : Nat := getBits (step0 s j) Fld.SM_SEQ0_RAIL
def stepDelay (s : State) (j : Nat) : Nat := getBits (step0 s j) Fld.SM_SEQ0_DELAY
def stepPgTmo (s : State) (j : Nat) : Nat := max 1 (getBits (step1 s j) Fld.SM_SEQ1_PGTMO)
def stepOffDelay (s : State) (j : Nat) : Nat := getBits (step1 s j) Fld.SM_SEQ1_OFFDLY

/-- The number of steps in the table. -/
def stepCount (s : State) : Nat := fld s Reg.SM_SEQHDR Fld.SM_SEQHDR_NSTEP

/-- The valid steps of the table, in order (R394). -/
def validSteps (s : State) : List Nat := (List.range (min 32 (stepCount s))).filter (stepValid s)

/-- The rails that valid steps name. -/
def namedRails (s : State) : List Nat := (validSteps s).map (stepRail s)

/-- The table is invalid (R394). -/
def tableInvalid (s : State) : Bool :=
  decide (32 < stepCount s) || !(namedRails s).Nodup ||
    (decide (0 < stepCount s) && stepWithPrev s 0)

/-- Steps put into groups: one with WITHPREV = 1 joins the group of the step before it that takes part, and opens the
first group if there is none (R395). -/
def groupSteps (s : State) (steps : List Nat) : List (List Nat) :=
  steps.foldl (fun gs j =>
    match gs.reverse with
    | g :: rest => if stepWithPrev s j then (rest.reverse) ++ [g ++ [j]] else gs ++ [[j]]
    | [] => [[j]]) []

/-- A command of the supply monitor for rail r: it waits while a command is in progress, and is taken otherwise (R43).
-/
def seqIssue (op r : Nat) (s : State) : State :=
  if flag s Reg.RT_CMDSTAT Fld.RT_CMDSTAT_BUSY || !s.sup.run.waiting.isEmpty then
    updSup (fun y => { y with run := { y.run with waiting := y.run.waiting ++ [(op, r)] } }) s
  else rtCommand op r true s

/-- The groups of the way down: every valid step takes part, in reverse table order, each group OFFDLY of its first
step after the group that follows it in the table (R396). -/
def downGroups (s : State) : List (List (Nat × Nat × Nat)) :=
  ((groupSteps s (validSteps s)).map fun g =>
    let d := match g with
      | j :: _ => stepOffDelay s j
      | [] => 0
    g.map fun j => (stepRail s j, d, j)).reverse

/-- Shed level 6 in SEQUENCE stops the ramp of rail r if it is on its way up or has an ENABLE still to act: Vramp stays
where it is, or starts and stays, until the rail's DISABLE (R32). -/
def stopRamp (r : Nat) (s : State) : State :=
  if railState s r = 1 ∨ (railOf s r).cmd = 2 then updRail r (fun x => { x with holdRamp := true }) s else s

/-- SHUTDOWN starts with the given cause: the cause is written and recorded, the mode becomes SHUTDOWN, the rails that
no valid step names are disabled, and the order of the way down is formed; shed level 6 in SEQUENCE stops the ramps
(R30, R32, R382, R396). It starts from SEQUENCE, REGULATE and DEGRADED, and with cause 4 or 6 from STANDBY; the first
cause stands. -/
def startShutdown (cause : Nat) (s : State) : State :=
  let m := mode s
  if (m = 2 ∧ (cause = 4 ∨ cause = 6)) ∨ m = 3 ∨ m = 4 ∨ m = 5 then
    let s := s |> wr Reg.FM_SHUTCAUSE cause
      |> report { src := 0x01, event := 3, cls := 0, unit := 0, detail := cause } |> enterMode 6
      |> setFlag Reg.SM_SEQSTAT Fld.SM_SEQSTAT_BUSY true |> setFlag Reg.SM_SEQSTAT Fld.SM_SEQSTAT_DOWN true
    let first := (List.range 32).filter fun r =>
      enabled s r && railState s r != 4 && !(namedRails s).contains r
    let waiting := s.sup.run.waiting.filter (·.1 = 3)
    let run := { SeqRun.init with rails := first, groups := downGroups s, waiting := waiting }
    let s := updSup (fun y => { y with run := run, shutAt := s.tb.ns, appends := if cause = 4 then 3 else 0 }) s
    let s := if cause = 4 ∧ m = 3 then forAll (List.range 32) stopRamp s else s
    seqMark (forAll first (seqIssue 3) s)
  else s

/-- The sequence fails at rail r: its step is shown and SHUTDOWN starts with cause 3 (R395). -/
def seqFail (r : Nat) (s : State) : State :=
  startShutdown 3 (setFld Reg.SM_SEQSTAT Fld.SM_SEQSTAT_RAIL r s)

/-- ENABLE of rail r for the sequence; a refused one fails it (R395). -/
def seqEnable (r : Nat) (s : State) : State :=
  let s := seqIssue 2 r s
  if s.sup.run.waiting.any (fun x => x.2 == r) then s
  else if fld s Reg.RT_CMDSTAT Fld.RT_CMDSTAT_RESULT != 0 then seqFail r s else s

/-- The other converter of the home quire can serve rail r: it has not FAILED and holds the rail's VSENSE input in the
error range (R368). -/
def fallbackExists (s : State) (r : Nat) : Bool :=
  let q := homeOf r
  let c := 1 - slotOf r
  !flag s (Reg.AD_STAT q c) Fld.AD_STAT_FAILED && tableHolds s q c (slotOf r) 0

/-- Rail r is latched off with no fallback stream: the trip line pulses, FM event 2 is class F, and without leave to
latch the report is fatal to the device, which starts SHUTDOWN with cause 7 (R367, R368, R382). -/
def unsafeLatch (r : Nat) (s : State) : State :=
  let ok := bitAt (rd s Reg.FM_LATCHOK) r
  let s := pulseRail r s
  let s := report { src := 0x01, event := 2, cls := 3, unit := r, device := !ok } s
  if ok then s else startShutdown 7 s

/-- An unsafe rail report for a failed converter: the other converter's stream serves the rail, or the rail latches
off (R130, R368). (DEDUCED, log 235) -/
def unsafeConverter (r : Nat) (s : State) : State :=
  if fallbackExists s r && !(railOf s r).fallback then
    settleConverter (report { src := 0x01, event := 2, cls := 2, unit := r }
      (updRail r (fun x => { x with fallback := true }) s))
  else unsafeLatch r s

end Sys2Proof.Machine
end

