-- ==== Sys2Proof/Machine/SenseOps.lean ====
section
/-! DEFINITION. Shared operations of the window comparators: thresholds in use, raw states and latches, threshold
tracking and plausibility (R136 to R141). Voltages are in 25/1024 uV: a DAC code is 2,048 of them, an error-range LSB
1,280, and a threshold LSB 81,920 in absolute and 5,120 in relative mode. -/

namespace Sys2Proof.Machine

/-- The DAC code of slot l of quire q in force at instant ns (R50). -/
def dacCode (s : State) (q l ns : Nat) : Nat :=
  let x := railOf s (2 * q + l)
  if x.dacAt ≤ ns then x.dac else x.dacOld

/-- Comparator c of quire q is in relative mode (R137). -/
def relative (s : State) (q c : Nat) : Bool := flag s (Reg.WC_CFG q c) Fld.WC_CFG_MODE

/-- A 10-bit threshold field read by the comparator's mode (R137). -/
def thrValue (s : State) (q c v : Nat) : Int := if relative s q c then sx 10 v else v

/-- A threshold LSB (R137). -/
def thrLsb (s : State) (q c : Nat) : Int := if relative s q c then 5120 else 81920

/-- Threshold tracking runs: EN = 1 in relative mode (R140). -/
def tracking (s : State) (q c : Nat) : Bool := flag s (Reg.WC_TRK q c) Fld.WC_TRK_EN && relative s q c

/-- The thresholds and the hysteresis in use, which WC_CUR shows: LO, HI, HYS in threshold LSB (R137, R140). -/
def thresholds (s : State) (q c : Nat) : Int × Int × Int :=
  let w := rd s (Reg.WC_CUR q c)
  (thrValue s q c (getBits w Fld.WC_CUR_LO), thrValue s q c (getBits w Fld.WC_CUR_HI), getBits w Fld.WC_CUR_HYS)

/-- WC_CUR shows the thresholds in use (R137). (DESIGN CHOICE, log 224) -/
def showCur (q c : Nat) (lo hi : Int) (s : State) : State :=
  let hys := fld s (Reg.WC_THR q c) Fld.WC_THR_HYS
  wr (Reg.WC_CUR q c) (pat 10 hi * 2 ^ 20 + hys * 2 ^ 16 + pat 10 lo) s

/-- The sampling interval of comparator c, ns (R136). -/
def wcDiv (s : State) (q c : Nat) : Nat := clampN 1 40 (fld s (Reg.WC_CFG q c) Fld.WC_CFG_DIV)

/-- The present instant is a sampling tick of an enabled comparator (R136). -/
def wcTick (s : State) (q c : Nat) : Bool :=
  flag s (Reg.WC_CFG q c) Fld.WC_CFG_EN && now s % wcDiv s q c == 0

/-- The first sampling tick at or after instant t, for an interval of d ns (R136). -/
def wcTickFrom (d t : Nat) : Nat := ceilDiv t d * d

/-- The evaluation at the present tick is the first after reset or an enable (R138). (DEDUCED, log 192) -/
def firstEval (s : State) (q c : Nat) : Bool := decide (now s ≤ (compOf s (8 * q + c)).firstAt)

/-- The comparator's trip outputs, lower and upper, rise with these latches (R139). -/
def latchSide (q c : Nat) (upper : Bool) (s : State) : State :=
  let a := Reg.WC_STAT q c
  let f := if upper then Fld.WC_STAT_HILAT else Fld.WC_STAT_LOLAT
  if flag s a f then s
  else s |> setFlag a f true |> incFld (Reg.WC_CNT q c) (if upper then Fld.WC_CNT_HI else Fld.WC_CNT_LO)
    |> report { src := 0x13, event := 1, cls := 1, unit := 8 * q + c } |> setLine q 15

/-- An assertion at the present tick fires a burst of rail r: its slot is enabled, the rail in SOFTSTART or ON and out
of holdoff; an assertion in holdoff is counted, and assertions on one 1 ns tick fire one burst (R76, R81). -/
def burstFire (r : Nat) (s : State) : State :=
  let q := homeOf r
  let l := slotOf r
  let x := railOf s r
  if !flag s (Reg.LU_BURST q l) Fld.LU_BURST_EN || !regulating s r then s
  else if decide (fine s < x.holdEnd) then incFld (Reg.LU_BURST_STAT q l) Fld.LU_BURST_STAT_SUPP s
  else if x.fired = s.tb.ns + 1 ∨ x.more.contains (s.tb.ns + 1) then s
  else
    let t := s.tb.ns + 1
    setLine q (12 + l)
      (updRail r (fun y => if y.fired = 0 then { y with fired := t } else { y with more := y.more ++ [t] }) s)

/-- The lower trip output of comparator c of quire q has risen: it is the rise that R76 names. -/
def burstFrom (q c : Nat) (s : State) : State :=
  forAll [0, 1] (fun l s =>
    if fld s (Reg.LU_BURST q l) Fld.LU_BURST_WC = c then burstFire (2 * q + l) s else s) s

/-- A latch of comparator c clears if its raw state is 0 (R139). -/
def clearSide (q c : Nat) (upper : Bool) (s : State) : State :=
  let a := Reg.WC_STAT q c
  if flag s a (if upper then Fld.WC_STAT_HIRAW else Fld.WC_STAT_LORAW) then s
  else setFlag a (if upper then Fld.WC_STAT_HILAT else Fld.WC_STAT_LOLAT) false s

/-- At a reload of channel p, latches of the comparators with CLRM = 1 and PCH = p clear where their raw state is 0
(R139). (DEDUCED, log 34) -/
def periodClear (q p : Nat) (s : State) : State :=
  forAll (List.range 8) (fun c s =>
    if flag s (Reg.WC_CFG q c) Fld.WC_CFG_CLRM && fld s (Reg.WC_CFG q c) Fld.WC_CFG_PCH == p then
      clearSide q c true (clearSide q c false s) else s) s

/-- The bounds of tracking, LOMIN, LOMAX, HIMIN, HIMAX (R140). -/
def trackBounds (s : State) (q c : Nat) : Int × Int × Int × Int :=
  (sx 10 (fld s (Reg.WC_TBND q c) Fld.WC_TBND_MIN), sx 10 (fld s (Reg.WC_TBND q c) Fld.WC_TBND_MAX),
   sx 10 (fld s (Reg.WC_TBNDH q c) Fld.WC_TBNDH_MIN), sx 10 (fld s (Reg.WC_TBNDH q c) Fld.WC_TBNDH_MAX))

/-- An envelope after a tick whose largest excursion is m, in 1/256 LSB: it decays by its 2^sh-th part, in whole LSB
(R140). (DEDUCED, log 42) -/
def envelope (m : Int) (e sh : Nat) : Nat := max m.toNat (e - e / (256 * 2 ^ sh) * 256)

/-- The number of sampling ticks of interval d at or after instant a and before instant b. -/
def ticksBetween (d a b : Nat) : Nat := ceilDiv b d - ceilDiv a d

/-- The sampling ticks up to instant t at which comparator c has been held at a bound and WC_TOPP has not counted
(R140). (DEDUCED, log 192) -/
def heldTicks (s : State) (q c t : Nat) : Nat :=
  if flag s (Reg.WC_STAT q c) Fld.WC_STAT_HELD && flag s (Reg.WC_CFG q c) Fld.WC_CFG_EN then
    ticksBetween (wcDiv s q c) (compOf s (8 * q + c)).heldFrom t
  else 0

/-- WC_TOPP counts the sampling ticks before instant t at which a threshold was held at its bound (R140). -/
def countHeld (q c t : Nat) (s : State) : State :=
  updComp (8 * q + c) (fun x => { x with heldFrom := max x.heldFrom t })
    (addFld (Reg.WC_TOPP q c) wordBits (heldTicks s q c t) s)

/-- Tracking starts: the thresholds of WC_THR limited to the bounds, with the envelopes at 0 (R140). -/
def startTracking (q c : Nat) (s : State) : State :=
  let (l0, l1, h0, h1) := trackBounds s q c
  let lo := clampI l0 l1 (sx 10 (fld s (Reg.WC_THR q c) Fld.WC_THR_LO))
  let hi := clampI h0 h1 (sx 10 (fld s (Reg.WC_THR q c) Fld.WC_THR_HI))
  showCur q c lo hi (updComp (8 * q + c) (fun x => { x with
    eLo := 0, eHi := 0, tLo := lo, tHi := hi, nLo := lo, nHi := hi, useAt := 0 }) s)

/-- Without tracking the thresholds in use are those of WC_THR, and none is held at a bound (R137, R140). -/
def plainThresholds (q c : Nat) (s : State) : State :=
  setFlag (Reg.WC_STAT q c) Fld.WC_STAT_HELD false (wr (Reg.WC_CUR q c) (rd s (Reg.WC_THR q c)) s)

/-- The thresholds that tracking decided at the tick before come into use, where their instant has come by t: from it
on, the sampling ticks count as held at a bound by these thresholds and their targets (R140). -/
def adoptThresholds (q c t : Nat) (s : State) : State :=
  let w := 8 * q + c
  let x := compOf s w
  if tracking s q c && x.useAt != 0 && decide (x.useAt ≤ t) then
    let (l0, l1, h0, h1) := trackBounds s q c
    let lo := clampI l0 l1 x.nLo
    let hi := clampI h0 h1 x.nHi
    let s := showCur q c lo hi (countHeld q c x.useAt s)
    let held := (lo == l0 && decide (x.tLo < l0)) || (lo == l1 && decide (l1 < x.tLo)) ||
      (hi == h0 && decide (x.tHi < h0)) || (hi == h1 && decide (h1 < x.tHi))
    setFlag (Reg.WC_STAT q c) Fld.WC_STAT_HELD (held && flag s (Reg.WC_CFG q c) Fld.WC_CFG_EN)
      (updComp w (fun y => { y with useAt := 0 }) s)
  else s

/-- Tracking at the control tick at instant t: the thresholds that follow from the envelope of the samples lo to hi
(1/256 LSB) wait for the next tick instant (R140). -/
def trackTick (q c t : Nat) (lo hi : Int) (s : State) : State :=
  let (l0, l1, h0, h1) := trackBounds s q c
  let sh := fld s (Reg.WC_TRK q c) Fld.WC_TRK_TDSH
  let mg : Int := fld s (Reg.WC_TRK q c) Fld.WC_TRK_TMARG
  let x := compOf s (8 * q + c)
  let eLo := envelope (-lo) x.eLo sh
  let eHi := envelope hi x.eHi sh
  let tLo : Int := -((ceilDiv eLo 1024 : Nat) + mg)
  let tHi : Int := (ceilDiv eHi 1024 : Nat) + mg
  updComp (8 * q + c) (fun y => { y with eLo := eLo, eHi := eHi, tLo := tLo, tHi := tHi, nLo := clampI l0 l1 tLo,
                                         nHi := clampI h0 h1 tHi, useAt := tickAfter s q t }) s

/-- The raw states disagree with the error-range sample a (1/256 LSB) of the tick instant (R141). -/
def implausible (s : State) (q c : Nat) (a : Int) : Bool :=
  let (lo, hi, hys) := thresholds s q c
  let gb : Int := fld s (Reg.WC_PLAUS q c) Fld.WC_PLAUS_GB
  let lr := flag s (Reg.WC_STAT q c) Fld.WC_STAT_LORAW
  let hr := flag s (Reg.WC_STAT q c) Fld.WC_STAT_HIRAW
  -- a threshold LSB is four error-range LSB, 1,024 of the units of a
  (decide (a < (lo - gb) * 1024) && !lr) || (decide ((lo + hys + gb) * 1024 < a) && lr) ||
    (decide ((hi + gb) * 1024 < a) && !hr) || (decide (a < (hi - hys - gb) * 1024) && hr)

/-- The plausibility count of comparator c at a control tick (R141). (DESIGN CHOICE, log 223) -/
def plausTick (q c : Nat) (a : Int) (s : State) : State :=
  if flag s (Reg.WC_PLAUS q c) Fld.WC_PLAUS_PEN && relative s q c && flag s (Reg.WC_CFG q c) Fld.WC_CFG_EN then
    let bad := implausible s q c a
    updComp (8 * q + c) (fun x => { x with impl := if bad then x.impl + 1 else 0 }) s
  else s

/-- What the converter that serves rail slot l kept at its tick instants, newest first (R135, R368). -/
def servedSnaps (s : State) (q l : Nat) : List TickSnap :=
  (convOf s (2 * q + (if (railOf s (2 * q + l)).fallback then 1 - l else l))).snaps

/-- The error-range samples of VSENSEl that snapshot x holds: the sample of its instant, and the smallest and the
largest since the tick before (R140, R141, R368). -/
def servedSamples (s : State) (q l : Nat) (x : TickSnap) : Int × Int × Int :=
  if (railOf s (2 * q + l)).fallback then (x.oa, x.olo, x.ohi) else (x.a, x.lo, x.hi)

/-- Comparator c of quire q at the control tick of snapshot x (R140, R141). -/
def comparatorTick (q c : Nat) (x : TickSnap) (s : State) : State :=
  let (a, lo, hi) := servedSamples s q (fld s (Reg.WC_CFG q c) Fld.WC_CFG_INPUT % 2) x
  let s := adoptThresholds q c x.ns s
  let s := if tracking s q c then trackTick q c x.ns lo hi s else s
  updComp (8 * q + c) (fun y => { y with taken := x.ns + 1 }) (plausTick q c a s)

/-- Comparator c of quire q takes the control ticks before instant t that it has not taken, and the thresholds whose
instant has come: its raw states are still those of its latest sampling tick at or before each (R140, R141). -/
def takeTicks (q c t : Nat) (s : State) : State :=
  let l := fld s (Reg.WC_CFG q c) Fld.WC_CFG_INPUT % 2
  let due := (servedSnaps s q l).filter fun x => decide ((compOf s (8 * q + c)).taken ≤ x.ns) && decide (x.ns < t)
  adoptThresholds q c (now s) (forAll due.reverse (comparatorTick q c) s)

/-- The comparators of quire q take their control ticks before instant t (R140, R141). -/
def comparatorTicks (q t : Nat) (s : State) : State := forAll (List.range 8) (fun c s => takeTicks q c t s) s

end Sys2Proof.Machine
end

