-- ==== Sys2Proof/Machine/Loop.lean ====
section
/-! DEFINITION. The voltage loop: the steps of a control tick, engine-in-loop mode, phase-count adaptation, the
per-phase law and staging, power good, the applying index, and the commands of these rows (R45 to R72, R86 to R89).
Currents are in 2.5 mA units, voltages in 25/1024 uV, instants of a period in 1/256 ns. -/

namespace Sys2Proof.Machine

/-- A home rail of quire q is neither OFF nor LATCHED: its loop unit computes every tick (R48 to R56). -/
def quireRuns (s : State) (q : Nat) : Bool :=
  [2 * q, 2 * q + 1].any fun r => railState s r != 0 && railState s r != 4

/-- The tick instant of quire q that is computed next, once it has come: while a home rail runs, the one after the
last one computed, and none is left out; otherwise, or if none has been computed, the newest (R20, R25). (DESIGN
CHOICE, log 12) -/
def nextTick (s : State) (q : Nat) : Option Nat :=
  let newest := now s / tickNs s q * tickNs s q
  let last := tget (fun _ => 0) s.tb.qtaken q
  if last = 0 ∨ quireRuns s q = false then (if newest < last then none else some newest)
  else
    let t := tickAfter s q (last - 1)
    if t ≤ now s then some t else none

/-! ## The samples of a tick -/

/-- F0 at tick instant t from converter c of quire q: the snapshot's voltage, or the output held (R51, R133, R135). -/
def f0At (s : State) (q c t : Nat) : Int :=
  let x := convOf s (2 * q + c)
  match x.snaps.find? (fun y => y.ns == t) with
  | some y => y.f0
  | none => (tget (fun _ => Filter.init) x.units 0).held * 5 + ((tget (fun _ => 0) x.outDac (2 * c) : Nat) : Int) * 2048

/-- The DAC codes that the converter outputs which the loop takes at tick instant t are taken less of (R133, R135). -/
def outDacsAt (s : State) (c t : Nat) : Tab Nat :=
  match (convOf s c).snaps.find? (fun x => x.ns == t) with
  | some x => x.dacs
  | none => (convOf s c).outDac

/-- Vout of rail r at tick instant t: the F0 output of the converter that serves its slot, or the newest output of the
fallback stream (R50, R135, R368). -/
def voutAt (s : State) (r t : Nat) : Int :=
  let q := homeOf r
  let l := slotOf r
  if (railOf s r).fallback then
    let c := 2 * q + (1 - l)
    tget (fun _ => 0) (outsAt s c t) (2 * l) * 5 + ((tget (fun _ => 0) (outDacsAt s c t) (2 * l) : Nat) : Int) * 2048
  else f0At s q l t

/-- Vin of quire q at tick instant t, whole mV, the rest cut off as R422's example does: the newest VINSENSE output
times GAIN, 16.16 (R74, R135). (DEDUCED, log 23) -/
def vinAt (s : State) (q t : Nat) : Nat :=
  let c := fld s (Reg.AD_CTRL q) Fld.AD_CTRL_VINC
  let code := tget (fun _ => 0) (outsAt s (2 * q + c) t) 5
  (satU 16 (floorDiv (code * (rd s (Reg.LU_VINCAL q) : Int)) (2 ^ 24))).toNat

/-! ## Steps 1 to 4: reference, setpoint, compensator, intent (R49 to R56, R86 to R88) -/

/-- The ramp step (R49). -/
def rampStep (slew tick : Nat) : Nat := (slew * tick * 65536 + 250) / 500

/-- The ramp moved by step towards aim, stopping on it (R49). -/
def rampMove (v aim step : Nat) : Nat := if v ≤ aim then min aim (v + step) else max aim (v - step)

/-- I_f after a sample i: a numerator and the power of two below it (R50). (DESIGN CHOICE, log 14) -/
def filterCurrent (num : Int) (sh llsh : Nat) (i : Int) : Int × Nat :=
  if llsh = 0 then (i, 0) else (num * (2 ^ llsh - 1) + i * 2 ^ sh, sh + llsh)

/-- Vset as a numerator over 20,000 x 2^sh, not below 0 (R50): Vramp less the load line times I_f. (DESIGN CHOICE, log
14) -/
def setpoint (vramp ll : Nat) (num : Int) (sh : Nat) : Int :=
  max 0 ((vramp : Int) * 625 * 2 ^ sh - (ll : Int) * num * 2048)

/-- The denominator of setpoint. -/
def setDen (sh : Nat) : Int := 20000 * 2 ^ sh

/-- e[k]: Q1.31 in units of 64 mV, to the nearest, saturated (R50). (DEDUCED, log 13) -/
def errorOf (vset den vout : Int) : Int := satS 32 (roundAwayDiv ((vset - vout * den) * 4096) (den * 5))

/-- A coefficient of the active bank (R52). -/
def coef (s : State) (q l m : Nat) : Int :=
  sx 32 (rd s (Reg.LU_COEF q l (fld s (Reg.LU_CSEL q l) Fld.LU_CSEL_ACTIVE) m))

/-- An exact sum of Q2.30 by Q1.31 products, rounded once to Q1.31 and saturated (R53). -/
def roundSum (x : Int) : Int := satS 32 (roundAwayDiv x (2 ^ 30))

/-- The compensator at index k with error e: the state after it, and u before its saturation (R52 to R54). (DEDUCED,
log 15) -/
def compensate (s : State) (r : Nat) (e : Int) (x : Rail) : Rail × Int :=
  let q := homeOf r
  let l := slotOf r
  let b := coef s q l
  let ya := roundSum (b 0 * e + b 1 * x.e1 + b 2 * x.e2 - b 3 * x.ya1 - b 4 * x.ya2)
  let yb := roundSum (b 5 * ya + b 6 * x.ya1 + b 7 * x.ya2 - b 8 * x.yb1 - b 9 * x.yb2)
  let ki := roundSum (b 10 * e)
  let up := x.usat == 1 || x.clamp == 1
  let down := x.usat == -1 || x.clamp == -1
  let hold := (up && decide (0 < ki)) || (down && decide (ki < 0))
  let i := clampI (sx 32 (rd s (Reg.LU_ILO q l))) (sx 32 (rd s (Reg.LU_IHI q l))) (if hold then x.i else x.i + ki)
  let u := satS 32 (yb + i)
  ({ x with e1 := e, e2 := x.e1, ya1 := ya, ya2 := x.ya1, yb1 := yb, yb2 := x.yb1, i := i, u := u,
            usat := if u < yb + i then 1 else if yb + i < u then -1 else 0 },
   yb + i)

/-- Serial distance from index b to index a (R23). -/
def indexDiff (a b : Nat) : Int := sx 32 ((2 ^ 32 + a - b % 2 ^ 32) % 2 ^ 32)

/-- A lane's contribution at index k: its ramp, its hold and its decay (R86, R87). -/
def laneAt (k hold dsh : Nat) (x : Lane) : Int :=
  if indexDiff k x.kstart < 0 then x.c
  else if indexDiff k x.kstep ≤ 0 ∨ k = x.kstart then
    x.c0 + Int.tdiv ((x.step - x.c0) * (min (x.n : Int) (indexDiff k x.kstart + 1))) x.n
  else if indexDiff k x.kstep ≤ hold then x.step
  else
    let d := Int.tdiv x.c (2 ^ dsh)
    if d = 0 then 0 else x.c - d

/-- A lane at index k, freed when it contributes nothing and its record has been written; the current before its first
index is kept for its record, and the current of its observation index, or of the first tick after its acceptance
where that index has passed (R86, R87, R89). (DESIGN CHOICE, log 184) -/
def stepLane (k hold dsh obs : Nat) (itot : Int) (x : Lane) : Lane :=
  if !x.busy then x
  else
    let c := laneAt k hold dsh x
    let x := if indexDiff k x.kh = -1 then { x with base := itot } else x
    let x := if !x.ended && decide (8 * (obs : Int) ≤ indexDiff k x.kstep) then { x with endI := itot, ended := true }
      else x
    if c = 0 ∧ x.recorded = true ∧ indexDiff k x.kstep > hold then Lane.init else { x with c := c }

/-- The lanes of rail r at index k, I_ff and its flags (R86 to R88, R93). -/
def intentTick (r k : Nat) (s : State) : State × Int :=
  let q := homeOf r
  let l := slotOf r
  let ctl := Reg.LU_IM_CTRL q l
  let x := railOf s r
  let lanes := x.lanes.map (stepLane k (fld s ctl Fld.LU_IM_CTRL_HOLD) (fld s ctl Fld.LU_IM_CTRL_DSH)
    (fld s ctl Fld.LU_IM_CTRL_OBS) x.itot)
  let sum := lanes.foldl (fun a y => if y.busy then a + y.c else a) 0
  let lim : Int := fld s (Reg.LU_IM_LIMIT q l) Fld.LU_IM_LIMIT_IMAX * 400
  let iff_ := clampI (-lim) lim sum
  let held := lanes.any fun y => y.busy && y.c != 0 && flag s (Reg.LU_IM_TRUST q l y.entry) Fld.LU_IM_TRUST_HELD
  let s := s |> updRail r (fun x => { x with lanes := lanes }) |> showLanes r
    |> setFlag (imStat r) Fld.LU_IM_STAT_CLAMP (iff_ != sum) |> wr (Reg.LU_IM_IFF q l) (pat 32 iff_)
  (if held then incFld (Reg.LU_IM_OPPOSE q l) wordBits s else s, iff_)

/-! ## Steps 7 to 11: count, distribution, law, staging (R57 to R64, R75, R80, R106) -/

/-- What is in force at index k, tick instant t, for member slot j of rail r, port n (R26, R51, R57, R58, R62).
(DESIGN CHOICE, log 12) -/
def memberCfg (s : State) (r k t : Nat) (y : Nat × Nat) : MemberCfg :=
  let q := quireOf y.2
  let cfg := mbrCfg r y.1
  { port := y.2, weight := max 1 (fld s cfg Fld.LU_MBR_CFG_WEIGHT),
    ind := fld s (Reg.LU_PH_L q (localOf y.2)) Fld.LU_PH_L_L, lim := rd s (Reg.LU_PH_ONLIM q (localOf y.2)),
    vin := vinAt s q t, sample := phaseSample s y.2 k t,
    score := rd s (mbrWear r y.1) + fld s cfg Fld.LU_MBR_CFG_WBIAS * 65536 }

/-- What is in force for rail r at index k, tick instant t (R26, R51). (DESIGN CHOICE, log 12) -/
def tickCfg (s : State) (r k t : Nat) : TickCfg :=
  let q := homeOf r
  let l := slotOf r
  { entry := (railOf s r).entry, ifs := fld s (Reg.LU_IFS q l) Fld.LU_IFS_IFS,
    kdi := fld s (Reg.LU_RCTRL q l) Fld.LU_RCTRL_KDI, cmode := flag s (Reg.LU_RCTRL q l) Fld.LU_RCTRL_CMODE,
    mem := (members s r).map (memberCfg s r k t) }

/-- What was in force for a member at the last settled index: a member that joined since takes its present values.
(DESIGN CHOICE, log 12) -/
def cfgOf (s : State) (r : Nat) (y : Nat × Nat) : MemberCfg :=
  match (railOf s r).cfgAt.mem.find? (fun m => m.port == y.2) with
  | some m => m
  | none => memberCfg s r (railOf s r).demandK (railOf s r).demandAt y

/-- The wear score of a member, given with its slot, at the last settled index (R62). -/
def scoreKey (s : State) (r : Nat) (x : Nat × Nat) : Nat := (cfgOf s r x).score

/-- The element of a list with the least key, the first on a tie. -/
def leastBy (key : Nat × Nat → Nat) : List (Nat × Nat) → Option (Nat × Nat)
  | [] => none
  | x :: xs =>
    match leastBy key xs with
    | some y => if key y < key x then some y else some x
    | none => some x

/-- The element of a list with the greatest key, the first on a tie. -/
def greatestBy (key : Nat × Nat → Nat) : List (Nat × Nat) → Option (Nat × Nat)
  | [] => none
  | x :: xs =>
    match greatestBy key xs with
    | some y => if key x < key y then some y else some x
    | none => some x

/-- The n elements of a list with the least keys, in that order. -/
def leastN (key : Nat × Nat → Nat) : Nat → List (Nat × Nat) → List (Nat × Nat)
  | 0, _ => []
  | n + 1, xs =>
    match leastBy key xs with
    | some x => x :: leastN key n (xs.filter (fun y => y.1 != x.1))
    | none => []

/-- The members of rail r that are available, and those that are active (R60). -/
def availMembers (s : State) (r : Nat) : List (Nat × Nat) := (members s r).filter (fun x => available s x.2)
def activeMembers (s : State) (r : Nat) : List (Nat × Nat) := (members s r).filter (fun x => memberActive s r x.1)

/-- CEIL as R61 uses it: the cap of shed level 5 lowers it (R402). -/
def ceilInForce (s : State) (e : RailEntry) : Nat :=
  if 5 ≤ shed s then max e.floor (min e.ceil (max 1 (fld s Reg.SM_SHEDCFG Fld.SM_SHEDCFG_CAP5))) else e.ceil

/-- N is raised or lowered to n by activating the lowest scores among the available inactive members or deactivating
the highest scores among the active ones (R62). -/
def setCount (r n : Nat) (s : State) : State :=
  let act := activeMembers s r
  if act.length < n then
    let free := (availMembers s r).filter (fun x => !memberActive s r x.1)
    forAll (leastN (scoreKey s r) (n - act.length) free) (fun x s => setActive r x.1 x.2 true s) s
  else
    -- deactivating the highest scores one at a time is keeping all but them
    (List.range (act.length - n)).foldl (fun s _ =>
      match greatestBy (scoreKey s r) (activeMembers s r) with
      | some x => setActive r x.1 x.2 false s
      | none => s) s

/-- What step 7 decides: the active count, and the dwell count after it (R61). id is the clamped demand, n the present
count. -/
def decideCount (s : State) (e : RailEntry) (avail n dwell : Nat) (id : Int) : Nat × Nat :=
  let d := id.toNat
  let lower := min e.floor avail
  let upper := min (ceilInForce s e) avail
  let iadd := e.iadd * 40
  let add := n * iadd < d
  let dropHolds := decide (d < (n - 1) * (e.idrop * 40))
  let dwell' := if add then 0 else if dropHolds then min (dwell + 1) 0xFFFFFFFF else 0
  if e.pinEn then (min e.pin avail, dwell')
  else if add then (clampN lower upper (ceilDiv d iadd), 0)
  else (clampN lower upper n, dwell')

/-- A tick counts in RT_OPPOSE (R63): n is the count that stands. -/
def opposes (s : State) (e : RailEntry) (n dwell : Nat) (id : Int) : Bool :=
  let add := decide (n * (e.iadd * 40) < id.toNat)
  let drop := decide (e.dwellTicks ≤ dwell)
  (e.pinEn && (add || drop)) || (!e.pinEn && add && n == ceilInForce s e) || (!e.pinEn && drop && decide (n ≤ e.floor))

/-- Members that are no longer available leave the active set (R60). (DEDUCED, log 18) -/
def dropLost (r : Nat) (s : State) : State :=
  forAll ((activeMembers s r).filter (fun x => !available s x.2)) (fun x s => setActive r x.1 x.2 false s) s

/-- RT_STATE and the member table show the counts and the availability (R73, R74). (DESIGN CHOICE, log 180) -/
def showCounts (r : Nat) (s : State) : State :=
  let a := Reg.RT_STATE r
  let s := s |> setFld a Fld.RT_STATE_NACT (activeMembers s r).length
    |> setFld a Fld.RT_STATE_NAVAIL (availMembers s r).length
  forAll (members s r) (fun x s => setFlag (mbrStat r x.1) Fld.LU_MBR_STAT_AVAIL (available s x.2) s) s

/-- UNDERFLOOR follows the number of available members; setting it is reported (R64). -/
def checkFloor (r : Nat) (s : State) : State :=
  let a := Reg.RT_STATE r
  let e := (railOf s r).cfgAt.entry
  let under := decide ((availMembers s r).length < e.floor)
  if under = flag s a Fld.RT_STATE_UNDERFLOOR then s
  else
    let s := setFlag a Fld.RT_STATE_UNDERFLOOR under s
    settleUnderfloor (if under then report { src := 0x10, event := 4, cls := 2, unit := r } s else s)

/-- The burst set of a tick: the active members, then the available inactive ones with the lowest scores, up to the
largest count permitted (R75). Its ports. -/
def burstSetOf (s : State) (r : Nat) : List Nat :=
  let e := (railOf s r).cfgAt.entry
  let act := activeMembers s r
  let cap := min (if e.pinEn then e.pin else e.ceil) (ceilInForce s e)
  let free := (availMembers s r).filter (fun x => !memberActive s r x.1)
  let all := act ++ leastN (scoreKey s r) (cap - act.length) free
  ((members s r).filter (fun x => all.any (fun y => y.1 == x.1))).map (·.2)

/-- The burst set formed at the last settled index is in force from 48 ns after its tick instant; a later decision of
the same tick's step 7 takes the place of the set formed before it (R75). -/
def noteSet (r : Nat) (s : State) : State :=
  let t := (railOf s r).demandAt + 48
  let b := burstSetOf s r
  updRail r (fun x => { x with sets := ((t, b) :: x.sets.filter (fun y => y.1 != t)).take 32 }) s

/-- The shares of demand d over active members with weights ws: towards zero, the residue to the first (R57). -/
def shares (d : Int) (ws : List Nat) : List Int :=
  let w : Int := (ws.foldl (· + ·) 0 : Nat)
  let raw := ws.map fun (x : Nat) => Int.tdiv (d * (x : Int)) w
  match raw with
  | [] => []
  | x :: xs => (x + (d - raw.foldl (· + ·) 0)) :: xs

/-- The law divides Vout by a Vin of 0: the rule states no quotient there, so the on-time before its clamps is a free
value (R58). (DESIGN CHOICE, log 20) -/
def lawOpen (vin : Nat) (vout : Int) : Bool := vin == 0 && decide (vout < 0)

/-- The per-phase current law: the on-time of a member in 1/256 ns, and whether the divisor's floor acted. demand and
sample in 2.5 mA units, vin in mV, vout in 25/1024 uV, t the period; free stands for the quotient that R58 leaves open
(R58). (DESIGN CHOICE, log 20) -/
def phaseLaw (kdi l vin t onMin offMin : Nat) (demand sample vout free : Int) : Nat × Bool :=
  let v : Int := vin * 40960
  let floored := decide (v - vout < 10240000)
  let head := if floored then 10240000 else v - vout
  let (fn, fd) := if vout < v then (vout * t, v) else ((t : Int), (1 : Int))
  -- on = num / den, before rounding
  let (num, den) := if lawOpen vin vout then (free, 1)
    else ((l * kdi : Nat) * (demand - sample) * 12800 * fd + fn * head, head * fd)
  let low := decide (num < onMin * den)
  let top : Int := (t : Int) - offMin
  let on := if low then 0 else if top * den < num then max 0 top else roundAwayDiv num den
  (on.toNat, floored)

/-- Rail r stages member slot j, port n, of rank a among count active members, for share d of the demand settled last:
its law's on-time, its period and its offset (R58, R59, R80, R106). R58 floors the headroom and its pseudocode's
comment names LU_RSTAT.VHEAD, a bit that LU_RSTAT does not have: the flag is RT_STATE.VHEAD (R73). (DEDUCED, log 182)
-/
def stageMember (r j n a count : Nat) (d : Int) (s : State) : State :=
  let q := quireOf n
  let p := localOf n
  let x := railOf s r
  let c := chanOf s n
  let per := x.cfgAt.entry.per
  let m := cfgOf s r (j, n)
  let walking := c.walk != 0
  let len := if walking then walkLen c c.walk else per
  let (on, floored) := phaseLaw x.cfgAt.kdi m.ind m.vin len (getBits m.lim Fld.LU_PH_ONLIM_ON_MIN)
    (getBits m.lim Fld.LU_PH_ONLIM_OFF_MIN) d m.sample x.demandV
    (sx 32 (Config.freeWord s.fresh).toNat)
  let s := if lawOpen m.vin x.demandV then spend s else s
  let on := on % 2 ^ 28
  let ofs := if walking || (x.walked && c.walkK != 0) then c.walkU else a * per / count
  let s := s |> setFld (mbrStat r j) Fld.LU_MBR_STAT_DEMAND (pat 16 d) |> wr (Reg.LU_PH_ON q p) on
  let s := if floored then setFlag (Reg.RT_STATE r) Fld.RT_STATE_VHEAD true s else s
  loopLoad n (len + b2n walking * 2 ^ 31) on ofs s

/-- RT_STATE.ILIM and RT_ILIMCNT for the tick of the index settled last: acted says that a clamp of step 6 or step 8
acts (R56). -/
def noteClamp (r : Nat) (acted : Bool) (s : State) : State :=
  wr (Reg.RT_ILIMCNT r) (min ((railOf s r).ilimWas + b2n acted) 0xFFFFFFFF)
    (setFlag (Reg.RT_STATE r) Fld.RT_STATE_ILIM acted s)

/-- Steps 8 to 11 for the demand settled last: distribution over the active members, staging of every member, and the
flag and the count of the tick's clamps (R56, R57). -/
def stageRail (r : Nat) (s : State) : State :=
  let x := railOf s r
  let act := activeMembers s r
  let raw := shares x.demand (act.map fun y => (cfgOf s r y).weight)
  let lim : Int := x.cfgAt.entry.iphMax * 40
  let ds := raw.map (clampI (-lim) lim)
  let s := setFlag (Reg.RT_STATE r) Fld.RT_STATE_VHEAD false s
  let s := forAll ((List.range act.length).zip (act.zip ds)) (fun y s =>
    stageMember r y.2.1.1 y.2.1.2 y.1 act.length y.2.2 s) s
  let s := forAll ((members s r).filter (fun y => !memberActive s r y.1)) (fun y s => parkPort r y.2 s) s
  noteClamp r (raw != ds || x.clamp != 0) (updRail r (fun x => { x with staged := act.map (·.1) }) s)

/-- The walk of rail r has ended for every member: the offsets are restaged under R59 (R81). -/
def endWalks (r : Nat) (s : State) : State :=
  let x := railOf s r
  if x.walked && x.entry.ports.all (fun n => (chanOf s n).walk == 0) then
    let s := forAll x.entry.ports (fun n s => updChan n (fun c => { c with walkK := 0 }) s) s
    setFlag (Reg.LU_BURST_STAT (homeOf r) (slotOf r)) Fld.LU_BURST_STAT_WALKING false
      (updRail r (fun x => { x with walked := false }) s)
  else s

/-- The burst registers are written at the first tick after a burst's start, and each burst started is counted
(R81). -/
def burstRegs (r t : Nat) (s : State) : State :=
  let x := railOf s r
  if x.newBursts = 0 ∨ t * 256 ≤ x.tb then s
  else
    let q := homeOf r
    let l := slotOf r
    updRail r (fun x => { x with newBursts := 0 }) s
      |> addFld (Reg.LU_BURST_CNT q l) wordBits x.newBursts |> wr (Reg.LU_BURST_IDX q l) (indexAt s q (x.tb / 256))
      |> wr (Reg.LU_BURST_TB q l) (x.tb / 256 % 2 ^ 32)

/-- The first tick after a burst's start: N becomes N_b, the dwell count restarts, and the burst's registers are written
(R81). -/
def afterBurst (r t : Nat) (s : State) : State :=
  let x := railOf s r
  let s := if x.nb = 0 ∨ t * 256 ≤ x.tb then s
    else updRail r (fun x => { x with nb := 0, dwell := 0 })
      (setCount r (min (x.nb - 1) (availMembers s r).length) s)
  burstRegs r t s

/-- Step 7: availability, UNDERFLOOR, the active count and its opposition, the burst set (R60 to R64, R75). (DEDUCED,
log 18) -/
def countStep (r t : Nat) (s : State) : State :=
  let s := checkFloor r (dropLost r s)
  let x := railOf s r
  let e := x.cfgAt.entry
  let n := (activeMembers s r).length
  let avail := (availMembers s r).length
  let s :=
    if regulating s r then
      let (n', dw) := decideCount s e avail n x.dwell x.demand
      let s := setCount r n' s
      let s := updRail r (fun x => { x with
        dwell := dw, changedAt := if n < n' then t + 1 else x.changedAt }) s
      if opposes s e n' dw x.demand then incFld (Reg.RT_OPPOSE r) wordBits s else s
    else setCount r (min x.stopN avail) s
  showCounts r (noteSet r s)

/-- Wear of the active members at a tick (R62). -/
def wearTick (r : Nat) (s : State) : State :=
  updRail r (fun x => { x with wearTicks := (activeMembers s r).foldl (fun w y =>
    tset (fun _ => 0) w y.1 (tget (fun _ => 0) w y.1 + 1)) x.wearTicks }) s

/-- A rotation tick falls on the index of w when an available inactive member exists (R62). -/
def rotateTick (r : Nat) (w : Waiting) (s : State) : State :=
  let n := w.cfg.entry.rotMs * 1000000 / tickNsAt s (homeOf r) w.at_
  let free := (availMembers s r).any (fun y => !memberActive s r y.1)
  if w.cfg.entry.rotMs != 0 && n != 0 && w.k % n == 0 && free then updRail r (fun x => { x with rotate := true }) s
  else s

/-- Steps 6 to 11 for an index with demand id (2.5 mA units, before its clamp), by what was in force at it, and the
wear and the rotation tick of that index (R26, R56, R62). (DEDUCED, log 15) -/
def finishIndex (r : Nat) (w : Waiting) (id : Int) (s : State) : State :=
  let e := w.cfg.entry
  let hi : Int := e.total * 400
  let lo : Int := -(e.neg * 400 : Nat)
  let d := clampI lo hi id
  let dir : Int := if hi < id then 1 else if id < lo then -1 else 0
  let s := updRail r (fun x => { x with
    demand := d, demandAt := w.at_, demandK := w.k, demandV := w.vout, clamp := dir, settled := w.k + 1,
    cfgAt := w.cfg, ilimWas := rd s (Reg.RT_ILIMCNT r) }) s
  let s := countStep r w.at_ (endWalks r (afterBurst r w.at_ s))
  wearTick r (rotateTick r w
    (if regulating s r && (availMembers s r).isEmpty then unsafeLatch r (noteClamp r (dir != 0) s) else stageRail r s))

/-- The demand of index k: I_c with the correction added, or the correction in its place (R66). (DEDUCED, log 13) -/
def demandOf (w : Waiting) : Int :=
  let ifs : Int := w.cfg.ifs * 400
  let x := match w.sub with
    | some (some c) => if w.cfg.cmode then c * ifs else w.ic + c * ifs
    | _ => w.ic
  roundAwayDiv x (2 ^ 31)

/-- The run of missed indices after an index settles, which ends it unless it was missed itself; a run of RUN is the end
of engine-in-loop mode (R68). -/
def noteMiss (run : Nat) (missed : Bool) (x : Rail) : Rail :=
  let n := if missed then x.missRun + 1 else 0
  { x with missRun := n, fell := x.fell || (run != 0 && decide (run ≤ n)) }

/-- Indices whose submission or hardware value is decided are completed in ascending order (R67, R68). -/
def settleIndices : Nat → Nat → State → State
  | 0, _, s => s
  | fuel + 1, r, s =>
    match (railOf s r).wait with
    | w :: rest =>
      if w.sub.isSome then
        let run := fld s (Reg.LU_DEADLINE (homeOf r)) Fld.LU_DEADLINE_RUN
        let s' := updRail r (fun x => noteMiss run w.missed { x with wait := rest }) s
        settleIndices fuel r (finishIndex r w (demandOf w) s')
      else s
    | [] => s

/-! ## The tick of one rail -/

/-- The loop mailbox presents index k (R65). -/
def presentIndex (r k : Nat) (e u iff_ itot : Int) (s : State) : State :=
  let q := homeOf r
  let l := slotOf r
  let t := k % 4
  s |> wr (Reg.LU_LMB_IDX q l t) k |> wr (Reg.LU_LMB_ERR q l t) (pat 32 e) |> wr (Reg.LU_LMB_U q l t) (pat 32 u)
    |> wr (Reg.LU_LMB_IFF q l t) (pat 32 iff_) |> wr (Reg.LU_LMB_ITOT q l t) (pat 32 itot)
    |> wr (Reg.LU_LMB_NEW q l) k |> setLine q (8 + l)

/-- The power-good counters at a tick (R48): den is the setpoint's denominator. (DEDUCED, log 17) -/
def pgTick (e : RailEntry) (t : Nat) (vset den vout : Int) (x : Rail) : Rail :=
  let inside := decide (((vset - vout * den).natAbs : Int) ≤ (e.win : Int) * 20480 * den)
  if inside then { x with pgFrom := if x.pgFrom = 0 then t + 1 else x.pgFrom, pgBad := 0 }
  else { x with pgFrom := 0, pgBad := x.pgBad + 1 }

/-- The ramp's aim (R49): the present ramp itself once shed level 6 has stopped it (R32). -/
def rampAim (s : State) (r : Nat) : Nat :=
  let x := railOf s r
  if railState s r = 3 then 0 else if x.holdRamp then x.vramp else x.entry.target * 65536

/-- The deadline instant of an index presented at tick instant t (R67). -/
def deadlineOf (s : State) (r t : Nat) : Nat :=
  t + max 1 (fld s (Reg.LU_DEADLINE (homeOf r)) Fld.LU_DEADLINE_TICKS) * tickNsAt s (homeOf r) t

/-- The tick of a rail that is OFF or LATCHED: I_ff is 0, and a burst that started before the rail stopped is shown
(R81, R87). -/
def restTick (r t : Nat) (s : State) : State :=
  wr (Reg.LU_IM_IFF (homeOf r) (slotOf r)) 0
    (setFlag (imStat r) Fld.LU_IM_STAT_CLAMP false (burstRegs r t s))

/-- Rail r at index k, tick instant t: steps 1 to 11 in hardware mode, steps 1 to 5 in engine-in-loop mode, where an
index whose tick instant lies at shed level 5 takes a NOP (R56, R402). R50 gives the DAC's code no range: one above
65,535 is held there. (DEDUCED, log 16; DESIGN CHOICE, log 12, 181) -/
def railTick (r k t : Nat) (s : State) : State :=
  let st := railState s r
  if st = 0 ∨ st = 4 then restTick r t s
  else
    let q := homeOf r
    let l := slotOf r
    let x := railOf s r
    let e := x.entry
    let tick := tickNsAt s q t
    let s := forAll (members s r) (fun y s => if discrete s y.2 || linkedAt s y.2 t then s else noCurrent y.2 s) s
    let vramp := rampMove x.vramp (rampAim s r) (rampStep e.slew tick)
    let itot := (members s r).foldl (fun a y => a + phaseSample s y.2 k t) 0
    let (num, sh) := filterCurrent x.ifNum x.ifSh e.llsh itot
    let vset := setpoint vramp e.loadLine num sh
    let den := setDen sh
    let vout := voutAt s r t
    let dac := min 65535 (vset.fdiv (den * 2048)).toNat
    let err := errorOf vset den vout
    let (x, u0) := compensate s r err x
    let x := { x with
      vramp := vramp, ifNum := num, ifSh := sh, itot := itot, vout := vout, vset := vset.fdiv den, dac := dac,
      dacAt := max (t + tick) s.tb.ns, dacOld := if x.dacAt ≤ s.tb.ns then x.dac else x.dacOld, tickAt := t + 1 }
    let x := if st = 3 then x else pgTick e t vset den vout x
    let rs := Reg.LU_RSTAT q l
    let s := s |> setRail r x |> setFlag rs Fld.LU_RSTAT_SAT (x.u != u0)
      |> setFlag rs Fld.LU_RSTAT_IWIND (x.i == sx 32 (rd s (Reg.LU_ILO q l)) || x.i == sx 32 (rd s (Reg.LU_IHI q l)))
    let (s, iff_) := intentTick r k s
    let ic := x.u * ((fld s (Reg.LU_IFS q l) Fld.LU_IFS_IFS : Int) * 400) + iff_ * 2 ^ 31
    let eil := flag s (Reg.LU_RCTRL q l) Fld.LU_RCTRL_EIL
    let s := s |> setFlag rs Fld.LU_RSTAT_EIL_ACT eil |> setFlag (Reg.RT_STATE r) Fld.RT_STATE_EIL eil
    let s := if eil then presentIndex r k err x.u iff_ itot s else s
    let takes := decide (shed s < 5) && (s.sup.left5 == 0 || decide (s.sup.left5 < t))
    let sub : Option (Option Int) := if eil && takes then none else some none
    let w : Waiting := { k := k, at_ := t, ic := ic, vout := vout, sub := sub, due := deadlineOf s r t, missed := false,
                         cfg := tickCfg s r k t }
    let s := updRail r (fun x => { x with wait := x.wait ++ [w], fell := x.fell && eil }) s
    let s := settleIndices 64 r s
    if railState s r = 3 ∧ vramp = 0 then railOff r s
    else if railState s r = 1 ∧ vramp = e.target * 65536 ∧ flag s (Reg.RT_STATE r) Fld.RT_STATE_PG then
      setFld (Reg.RT_STATE r) Fld.RT_STATE_STATE 2 s
    else s

/-- The members of the rails homed in quire q supply a sample for index k, tick instant t (R56). (DESIGN CHOICE, log
12) -/
def tickReady (s : State) (q k t : Nat) : Bool :=
  [2 * q, 2 * q + 1].all fun r =>
    railState s r == 0 || railState s r == 4 || (members s r).all fun x => sampleReady s x.2 k t

/-- RSY of port n clears, where a resynchronisation has succeeded since the last tick (R159). -/
def clearRsy (n : Nat) (s : State) : State :=
  if (portOf s n).rsyOff then
    updPort n (fun p => { p with rsyOff := false }) s
      |> setFlag (Reg.PP_STAT (quireOf n) (localOf n)) Fld.PP_STAT_RSY false
  else s

/-- Quire q computes its tick at instant t: its ports' RSY, Vin and both home rails (R56, R159). -/
def controlTick (q t : Nat) (s : State) : State :=
  let k := indexAt s q t
  let s := updTb (fun b => { b with qtaken := tset (fun _ => 0) b.qtaken q (t + 1) }) s
  let s := forAll ((List.range 16).map (16 * q + ·)) clearRsy s
  let s := setFld (Reg.LU_VIN q) Fld.LU_VIN_VIN (vinAt s q t) s
  railTick (2 * q + 1) k t (railTick (2 * q) k t s)

/-- The tick of quire q that can be computed now: its next one, once the samples of its index are present (R56).
(DESIGN CHOICE, log 12) -/
def tickNow (s : State) (q : Nat) : Option Nat := (nextTick s q).filter fun t => tickReady s q (indexAt s q t) t

/-- CONTROL_TICK (R56, R140, R141): the comparators of quire q take the control ticks that have come, which await no
sample of a port, and the loop unit computes the next tick that can be. -/
def execControlTick (q : Fin 16) (s : State) : Out :=
  let s' := comparatorTicks q (now s + 1) s
  live (decide (2 ≤ mode s)) s
    (match tickNow s' q with
      | some t => controlTick q t s'
      | none => s')

/-! ## Power good (R48) -/

/-- WIN has held at every tick for DLY microseconds. (DEDUCED, log 17) -/
def pgRiseDue (s : State) (r : Nat) : Bool :=
  let x := railOf s r
  regulating s r && !flag s (Reg.RT_STATE r) Fld.RT_STATE_PG && x.pgFrom != 0 &&
    decide (x.pgFrom + x.entry.dly * 1000 ≤ x.tickAt)

/-- PG becomes 1; a rail whose ramp stands at TARGET enters ON, and the sequence takes note (R47, R48, R395). -/
def pgRise (r : Nat) (s : State) : State :=
  let x := railOf s r
  let s := setFlag (Reg.RT_STATE r) Fld.RT_STATE_PG true s
  let s := if railState s r = 1 ∧ x.vramp = x.entry.target * 65536 then
    setFld (Reg.RT_STATE r) Fld.RT_STATE_STATE 2 s else s
  let s := updFm (fun f => { f with reached := tset (fun _ => 0) f.reached r 1 }) s
  seqMark (updSup (fun y => { y with run := { y.run with reached := r :: y.run.reached.filter (· != r) } }) s)

/-- PG_RISE (R48). -/
def execPgRise (r : Fin 32) (s : State) : Out := live (pgRiseDue s r) s (pgRise r s)

/-- The eighth consecutive tick outside WIN has come. -/
def pgFallDue (s : State) (r : Nat) : Bool :=
  regulating s r && flag s (Reg.RT_STATE r) Fld.RT_STATE_PG && decide (8 ≤ (railOf s r).pgBad)

/-- PG becomes 0; in ON that is a U-class fault (R48). -/
def pgFall (r : Nat) (s : State) : State :=
  let on := railState s r == 2
  let s := setFlag (Reg.RT_STATE r) Fld.RT_STATE_PG false s
  if on then report { src := 0x10, event := 3, cls := 2, unit := r } s else s

/-- PG_FALL (R48). -/
def execPgFall (r : Fin 32) (s : State) : Out := live (pgFallDue s r) s (pgFall r s)

/-! ## Drops, rotation, wear (R61, R62) -/

/-- The drop condition has stood for DWELL ticks and neither pin nor FLOOR holds the count (R61, R63). -/
def dropDue (s : State) (r : Nat) : Bool :=
  let x := railOf s r
  let e := x.cfgAt.entry
  let n := (activeMembers s r).length
  regulating s r && !e.pinEn && decide (e.dwellTicks ≤ x.dwell) &&
    decide (min e.floor (availMembers s r).length < n) && x.dwell != 0

/-- The active count falls by one: the highest score is deactivated, the dwell count restarts, the tick's burst set is
formed again, and its demand is distributed over the members that remain (R61, R62, R75). (DESIGN CHOICE, log 19) -/
def phaseDrop (r : Nat) (s : State) : State :=
  let n := (activeMembers s r).length
  let s := setCount r (n - 1) s
  let s := updRail r (fun x => { x with dwell := 0, changedAt := x.demandAt + 1 }) s
  showCounts r (stageRail r (noteSet r s))

/-- PHASE_DROP (R61). -/
def execPhaseDrop (r : Fin 32) (s : State) : Out := live (dropDue s r) s (phaseDrop r s)

/-- A rotation tick is due, and neither an add nor a drop fell or is to fall on its tick (R62). -/
def rotationDue (s : State) (r : Nat) : Bool :=
  let x := railOf s r
  x.rotate && (regulating s r || railState s r == 3) && x.changedAt != x.demandAt + 1 && !dropDue s r &&
    (availMembers s r).any (fun y => !memberActive s r y.1) && !(activeMembers s r).isEmpty

/-- The lowest-scoring inactive member takes the place of the highest-scoring active one (R62). (DESIGN CHOICE, log
19) -/
def rotation (r : Nat) (s : State) : State :=
  let free := (availMembers s r).filter (fun y => !memberActive s r y.1)
  match leastBy (scoreKey s r) free, greatestBy (scoreKey s r) (activeMembers s r) with
  | some x, some y =>
    let s := setActive r y.1 y.2 false (setActive r x.1 x.2 true s)
    showCounts r (stageRail r (noteSet r (updRail r (fun z => { z with rotate := false }) s)))
  | _, _ => s

/-- ROTATION_TICK (R62). -/
def execRotationTick (r : Fin 32) (s : State) : Out := live (rotationDue s r) s (rotation r s)

/-- Member slot j of rail r has been active for 1,024 ticks since its last count. -/
def wearDue (s : State) (r j : Nat) : Bool := decide (1024 ≤ tget (fun _ => 0) (railOf s r).wearTicks j)

/-- The member's wear count increases by one, saturating (R62). -/
def wearCount (r j : Nat) (s : State) : State :=
  incFld (mbrWear r j) wordBits (updRail r (fun x => { x with
    wearTicks := tset (fun _ => 0) x.wearTicks j (tget (fun _ => 0) x.wearTicks j - 1024) }) s)

/-- WEAR_INCREMENT (R62). -/
def execWearIncrement (r : Fin 32) (j : Fin 64) (s : State) : Out := live (wearDue s r j) s (wearCount r j s)

/-! ## Engine in the loop (R65 to R68) -/

/-- A submission for index k is taken, or discarded and counted (R66, R67, R72). -/
def submit (r k : Nat) (sub : Option Int) (s : State) : State :=
  let q := homeOf r
  let l := slotOf r
  let cerr := Reg.LU_CERR q l
  if serialAfter k (rd s (Reg.LU_LMB_NEW q l)) then incFld cerr Fld.LU_CERR_BADTAG s
  else
    match (railOf s r).wait.find? (fun w => w.k == k) with
    | some w =>
      if w.sub.isSome ∨ w.due ≤ s.tb.ns then incFld cerr Fld.LU_CERR_LATE s
      else
        let s := updRail r (fun x => { x with
          wait := x.wait.map fun w => if w.k = k then { w with sub := some sub } else w }) s
        settleIndices 64 r s
    | none => incFld cerr Fld.LU_CERR_LATE s

/-- LU_LMB_TAG (R66): LU_LMB_CORR is submitted as the correction for the written index. -/
def execLuLmbTag (m : Master) (r : Fin 32) (v : BitVec 32) (s : State) : Out :=
  regWriteBy m (Reg.LU_LMB_TAG (homeOf r) (slotOf r)) s
    (submit r v.toNat (some (sx 32 (rd s (Reg.LU_LMB_CORR (homeOf r) (slotOf r))))) s)

/-- LU_LMB_NOP (R66): no correction is submitted for the written index. -/
def execLuLmbNop (m : Master) (r : Fin 32) (v : BitVec 32) (s : State) : Out :=
  regWriteBy m (Reg.LU_LMB_NOP (homeOf r) (slotOf r)) s (submit r v.toNat none s)

/-- The oldest index of rail r without a submission has passed its deadline. -/
def deadlineMissed (s : State) (r : Nat) : Bool :=
  match (railOf s r).wait with
  | w :: _ => w.sub.isNone && decide (w.due ≤ s.tb.ns)
  | [] => false

/-- The hardware value stands for that index; the miss is counted and reported (R67). -/
def missDeadline (r : Nat) (s : State) : State :=
  let s := s |> incFld (Reg.RT_MISS r) wordBits |> report { src := 0x10, event := 1, cls := 1, unit := r }
  let s := updRail r (fun x => { x with
    wait := match x.wait with
      | w :: rest => { w with sub := some none, missed := true } :: rest
      | [] => [] }) s
  settleIndices 64 r s

/-- ENGINE_DEADLINE_EXPIRY (R67). -/
def execEngineDeadlineExpiry (r : Fin 32) (s : State) : Out := live (deadlineMissed s r) s (missDeadline r s)

/-- RUN consecutive indices have been missed (R68). -/
def fallbackDue (s : State) (r : Nat) : Bool :=
  (railOf s r).fell && flag s (Reg.LU_RSTAT (homeOf r) (slotOf r)) Fld.LU_RSTAT_EIL_ACT

/-- Engine-in-loop mode ends for the slot (R68). (DESIGN CHOICE, log 205) -/
def endEil (r : Nat) (s : State) : State :=
  let q := homeOf r
  let l := slotOf r
  s |> setFlag (Reg.LU_RCTRL q l) Fld.LU_RCTRL_EIL false |> setFlag (Reg.LU_RSTAT q l) Fld.LU_RSTAT_EIL_ACT false
    |> setFlag (Reg.RT_STATE r) Fld.RT_STATE_EIL false |> updRail r (fun x => { x with missRun := 0, fell := false })

/-- EIL_FALLBACK (R68). -/
def execEilFallback (r : Fin 32) (s : State) : Out :=
  live (fallbackDue s r) s
    (report { src := 0x10, event := 2, cls := 2, unit := r }
      (raiseFlag (Reg.LU_RSTAT (homeOf r) (slotOf r)) Fld.LU_RSTAT_FALLBACK (endEil r s)))

/-- Shed level 5 is entered: every index that rail r still awaits takes a NOP, and no miss (R402). -/
def nopWaiting (r : Nat) (s : State) : State :=
  settleIndices 64 r (updRail r (fun x => { x with
    wait := x.wait.map fun w => if w.sub.isNone then { w with sub := some none } else w }) s)

/-! ## Coefficient banks (R55) -/

/-- A write of v to LU_CSEL: SWAP = 1 asks for a swap, unless one is pending (R55). -/
def cselWrite (r v : Nat) (s : State) : State :=
  let a := Reg.LU_CSEL (homeOf r) (slotOf r)
  if getBits v Fld.LU_CSEL_SWAP = 0 ∨ flag s a Fld.LU_CSEL_PEND then s
  else setFlag a Fld.LU_CSEL_PEND true
    (updRail r (fun x => { x with swapZero := getBits v Fld.LU_CSEL_ZERO != 0 }) s)

/-- COEF_SWAP (R55). -/
def execCoefSwap (m : Master) (r : Fin 32) (v : BitVec 32) (s : State) : Out :=
  regWriteBy m (Reg.LU_CSEL (homeOf r) (slotOf r)) s (cselWrite r v.toNat s)

/-- The pending swap acts at the tick of index k (R55). -/
def coefSwapApply (r k : Nat) (s : State) : State :=
  let q := homeOf r
  let l := slotOf r
  let a := Reg.LU_CSEL q l
  let s := s |> setFld a Fld.LU_CSEL_ACTIVE (1 - fld s a Fld.LU_CSEL_ACTIVE) |> setFlag a Fld.LU_CSEL_PEND false
    |> wr (Reg.LU_CSIDX q l) k
  updRail r (fun x => if x.swapZero then
    { x with ya1 := 0, ya2 := 0, yb1 := 0, yb2 := 0, i := 0, swapZero := false } else x) s

/-- COEF_SWAP_APPLY (R55): at the next tick of the home quire. -/
def execCoefSwapApply (r : Fin 32) (s : State) : Out :=
  match nextTick s (homeOf r) with
  | some t => live (flag s (Reg.LU_CSEL (homeOf r) (slotOf r)) Fld.LU_CSEL_PEND) s
      (coefSwapApply r (indexAt s (homeOf r) t) s)
  | none => .next s

/-! ## Commands of the rail table (R44, R45) -/

/-- RT_COMMIT (R44). -/
def execRtCommit (m : Master) (r : Fin 32) (s : State) : Out := regWriteBy m Reg.RT_CMD s (rtCommand 1 r false s)
/-- RT_ENABLE (R44). -/
def execRtEnable (m : Master) (r : Fin 32) (s : State) : Out := regWriteBy m Reg.RT_CMD s (rtCommand 2 r false s)
/-- RT_DISABLE (R44). -/
def execRtDisable (m : Master) (r : Fin 32) (s : State) : Out := regWriteBy m Reg.RT_CMD s (rtCommand 3 r false s)
/-- RT_CLEAR (R44, R47). -/
def execRtClear (m : Master) (r : Fin 32) (s : State) : Out := regWriteBy m Reg.RT_CMD s (rtCommand 4 r false s)
/-- RT_CLRCNT (R73). -/
def execRtClrcnt (m : Master) (r : Fin 32) (s : State) : Out := regWriteBy m Reg.RT_CMD s (rtCommand 5 r false s)

/-- The first waiting command of the supply monitor is taken (R43); an ENABLE that is refused fails the sequence
(R395). -/
def takeWaiting (s : State) : State :=
  match s.sup.run.waiting with
  | (op, r) :: rest =>
    let s := rtCommand op r true (updSup (fun y => { y with run := { y.run with waiting := rest } }) s)
    if op = 2 ∧ fld s Reg.RT_CMDSTAT Fld.RT_CMDSTAT_RESULT ≠ 0 then seqFail r s else seqMark s
  | [] => s

/-- SUPPLY_MONITOR_CMD_TAKEN (R43). -/
def execSupplyMonitorCmdTaken (s : State) : Out :=
  live (!s.sup.run.waiting.isEmpty && !flag s Reg.RT_CMDSTAT Fld.RT_CMDSTAT_BUSY) s (takeWaiting s)

/-- The member table of a rail after its entry becomes e: members that stay keep WEIGHT, WBIAS and WEAR in their new
slots, and those added take the values of R46. Slots that hold no member are put back to their reset values. (DESIGN
CHOICE, log 179) -/
def rebuildTable (r : Nat) (e : RailEntry) (s : State) : State :=
  let old := (members s r).map fun x =>
    (x.2, rd s (mbrCfg r x.1), rd s (mbrWear r x.1), rd s (mbrStat r x.1))
  let kept := old.filter (fun x => e.ports.contains x.1)
  let wear := match kept with
    | [] => 0
    | x :: xs => xs.foldl (fun a y => min a y.2.2.1) x.2.2.1
  let s := forAll (List.range 64) (fun j s => s |> wr (mbrCfg r j) 0x80 |> wr (mbrWear r j) 0 |> wr (mbrStat r j) 0) s
  forAll ((List.range e.ports.length).zip e.ports) (fun y s =>
    let (j, n) := y
    let (cfg, w, st) := match old.find? (fun x => x.1 == n) with
      | some x => (x.2.1, x.2.2.1, x.2.2.2)
      | none => (0x80, wear, 0)
    s |> wr (mbrCfg r j) (putBits cfg Fld.LU_MBR_CFG_PORT n ||| 2 ^ 31) |> wr (mbrWear r j) w |> wr (mbrStat r j) st) s

/-- Members that an entry e no longer holds leave rail r: they finish their period and are then both-off (R46). -/
def removeMembers (r : Nat) (e : RailEntry) (s : State) : State :=
  forAll ((members s r).filter (fun x => !e.ports.contains x.2)) (fun x s =>
    setOwned x.2 r false (setActive r x.1 x.2 false (parkPort r x.2 s))) s

/-- The ticks that members which stay have been active since their last wear count, by their new slots (R46, R62). -/
def wearCarried (s : State) (r : Nat) (e : RailEntry) : Tab Nat :=
  let old := members s r
  ((List.range e.ports.length).zip e.ports).foldl (fun w y =>
    match old.find? (fun x => x.2 == y.2) with
    | some x => tset (fun _ => 0) w y.1 (tget (fun _ => 0) (railOf s r).wearTicks x.1)
    | none => w) []

/-- The applying index of a COMMIT at tick instant t (R45, R46, R100). -/
def applyCommit (r t : Nat) (s : State) : State :=
  let x := railOf s r
  let old := x.entry.per
  let ref := if x.next.per = old ∨ old = 0 then x.ref else latticeFrom x.ref 0 old ((t + 64) * 256)
  let ticks := wearCarried s r x.next
  let s := rebuildTable r x.next (removeMembers r x.next s)
  let s := updRail r (fun y => { y with entry := y.next, ref := ref, wearTicks := ticks }) s
  forAll x.next.ports (fun n s => setOwned n r true s) s

/-- The ramp's start: the wide-range reading of the rail's output, rounded down to 50 uV and limited (R47). A code is
450 uV, nine units. -/
def rampStart (s : State) (r t : Nat) : Nat :=
  let q := homeOf r
  let l := slotOf r
  let c := if tableHolds s q 0 l 1 then 0 else 1
  min 65534 ((tget (fun _ => 0) (outsAt s (2 * q + c) t) (2 * l + 1) * 9).fdiv 256).toNat

/-- The applying index of an ENABLE at tick instant t (R47, R100): the member table follows R46 from the entry in
force before. (DEDUCED, log 16; DESIGN CHOICE, log 179, 214) -/
def applyEnable (r t : Nat) (s : State) : State :=
  let x := railOf s r
  let s := rebuildTable r x.next s
  let s := updRail r (fun y => { y with
    entry := y.next, vramp := rampStart s r t * 65536, ifNum := 0, ifSh := 0, e1 := 0, e2 := 0, ya1 := 0, ya2 := 0,
    yb1 := 0, yb2 := 0, i := 0, u := 0, usat := 0, clamp := 0, dwell := 0, pgFrom := 0, pgBad := 0,
    ref := (t + 64) * 256, sets := [], wait := [], missRun := 0, fell := false, nb := 0,
    walked := false, wearTicks := [], rotate := false }) s
  let s := setFld (Reg.RT_STATE r) Fld.RT_STATE_STATE 1 s
  forAll x.next.ports (fun n s => setOwned n r true s) s

/-- The applying index of a DISABLE (R45, R47): SOFTSTOP from the present ramp; the rail leaves SOFTSTART and ON, so its
lanes are cut (R87). -/
def applyDisable (r : Nat) (s : State) : State :=
  let a := Reg.RT_STATE r
  let n := (activeMembers s r).length
  cutLanes r (updRail r (fun x => { x with pgFrom := 0, pgBad := 0, stopN := n, holdRamp := false })
    (s |> setFld a Fld.RT_STATE_STATE 3 |> setFlag a Fld.RT_STATE_PG false))

/-- An ENABLE acts at tick instant t, from which the loop unit computes every tick; a latch-off that came in that tick
wins (R45, R72). -/
def enterEnable (r t : Nat) (s : State) : State :=
  let latch := decide (t < (railOf s r).latchAt)
  let s := if quireRuns s (homeOf r) then s
    else updTb (fun b => { b with qtaken := tset (fun _ => 0) b.qtaken (homeOf r) t }) s
  let s := applyEnable r t s
  if latch then latchRail r s else s

/-- The accepted command of rail r acts at index k, tick instant t: RT_APPLIED is written and BUSY clears. A rail that a
latch-off has taken meanwhile keeps its state (R45, R72). -/
def entryApply (r k t : Nat) (s : State) : State :=
  let x := railOf s r
  let st := railState s r
  let s := if st = 4 then s
    else if x.cmd = 1 then (if st = 0 then s else applyCommit r t s)
    else if x.cmd = 2 then enterEnable r t s
    else (if st = 0 then s else applyDisable r s)
  let s := s |> wr (Reg.RT_APPLIED r) k |> setFlag Reg.RT_CMDSTAT Fld.RT_CMDSTAT_BUSY false
    |> updRail r (fun x => { x with cmd := 0 })
  if x.cmd = 2 then
    updSup (fun y => { y with run := { y.run with applied := tset (fun _ => 0) y.run.applied r (t + 1) } }) s
  else s

/-- RAIL_ENTRY_APPLY (R45): at the next tick of the home quire. -/
def execRailEntryApply (r : Fin 32) (s : State) : Out :=
  match nextTick s (homeOf r) with
  | some t => live ((railOf s r).cmd != 0) s (entryApply r (indexAt s (homeOf r) t) t s)
  | none => .next s

end Sys2Proof.Machine
end

