-- ==== Sys2Proof/Machine/Reload.lean ====
section
/-! DEFINITION. What every reload of a PWM channel does besides its period: the clears of a latch, the quiet count, the
dead time and the calibration swap (R107, R111, R112, R114, R118, R119, R139). -/

namespace Sys2Proof.Machine

/-- An auto clear is attempted at this reload (R118). -/
def autoClearDue (s : State) (n : Nat) : Bool :=
  let t := Reg.PW_TRIP (quireOf n) (localOf n)
  latched s n && !latchOff s n && flag s t Fld.PW_TRIP_CMODE &&
    decide (2 ^ fld s t Fld.PW_TRIP_HICCUP ≤ (chanOf s n).hiccup)

/-- The latch at a reload: CLRM latches clear first, a software clear takes effect, and an auto clear is attempted
(R118, R139). (DEDUCED, log 34) -/
def reloadTrip (n : Nat) (s : State) : State :=
  let s := periodClear (quireOf n) (localOf n) s
  let s := updChan n (fun c => if c.release then { c with release := false, forced := .none } else c) s
  let s := updChan n (fun c => { c with hiccup := if latched s n then c.hiccup + 1 else 0 }) s
  if autoClearDue s n && tripSources s n == 0 then unlatch n true s else s

/-- The quiet count at a reload: the period that ends counts if no latch stood in it (R119). -/
def reloadQuiet (n : Nat) (s : State) : State :=
  updChan n (fun c => { c with quiet := if c.len = 0 then c.quiet else if c.dirty then 0 else c.quiet + 1 }) s

/-- The bounds of dead-time adaptation (R111). -/
def dtClamp (s : State) (n x : Nat) : Nat :=
  let a := Reg.PW_DTA (quireOf n) (localOf n)
  clampN (fld s a Fld.PW_DTA_DTMIN) (fld s a Fld.PW_DTA_DTMAX) x

/-- The dead time at a reload: PW_DT.DT, or the adapted value within its bounds (R111). (DESIGN CHOICE, log 217) -/
def reloadDead (n : Nat) (s : State) : State :=
  let q := quireOf n
  let p := localOf n
  let c := chanOf s n
  let dt := if flag s (Reg.PW_DTA q p) Fld.PW_DTA_EN then
      dtClamp s n (if c.dtNext = 0 then deadTime s n else c.dtNext - 1)
    else fld s (Reg.PW_DT q p) Fld.PW_DT_DT
  setFld (Reg.PW_DTCUR q p) Fld.PW_DTCUR_DT dt (updChan n (fun c => { c with dtNext := 0 }) s)

/-- Calibration is frozen in quire q (R114). -/
def calFrozen (s : State) (q : Nat) : Bool := flag s (Reg.PW_CAL q) Fld.PW_CAL_FROZEN

/-- Complete shadow lines of channel n swap in (R112). -/
def swapLines (n : Nat) (s : State) : State :=
  let a := Reg.PW_CALSWAP (quireOf n)
  if calFrozen s (quireOf n) then s
  else updChan n (fun c => { c with shadow := 0 })
    (wr a ((rd s a + popcount 2 (chanOf s n).shadow) % 2 ^ 32) s)

/-- The acts of a reload of channel n before its period starts (R107): the period that ends is counted before a latch
clears (R119). -/
def reloadActs (n : Nat) (s : State) : State := s |> reloadQuiet n |> reloadTrip n |> reloadDead n |> swapLines n

end Sys2Proof.Machine
end

