-- ==== Sys2Proof/Machine/Landing.lean ====
section
/-! DEFINITION. The transient landing: bursts and their walks, and the intent mixer's hints, outcomes and trust (R75 to
R95). Instants of a burst are in 1/256 ns, currents in 2.5 mA units, the steps of hints in 0.5 A units. -/

namespace Sys2Proof.Machine

/-! ## Bursts (R76 to R81) -/

/-- BURST_SW_FIRE (R76): a write of FIRE = 1 is an assertion at this tick. -/
def execBurstSwFire (m : Master) (r : Fin 32) (v : BitVec 32) (s : State) : Out :=
  regWriteBy m (Reg.LU_BURST_SW (homeOf r) (slotOf r)) s
    (if getBits v.toNat Fld.LU_BURST_SW_FIRE = 1 then burstFire r s else s)

/-- The burst start t_b in ns of a burst that fired: 7 ns after its sampling tick in deterministic mode; otherwise the
present tick, by which the last member quire has taken the assertion (R77). (DEDUCED, log 24) -/
def burstStartAt (s : State) (r : Nat) : Nat :=
  if flag s (Reg.LU_CTRL (homeOf r)) Fld.LU_CTRL_DETERM then (railOf s r).fired - 1 + 7 else now s

/-- A burst has fired and its start has come. -/
def burstStartDue (s : State) (r : Nat) : Bool :=
  (railOf s r).fired != 0 && decide (burstStartAt s r ≤ now s) && decide ((railOf s r).fired ≤ now s)

/-- The burst set in force at instant ns: the newest whose force has begun (R75). -/
def burstSetAt (s : State) (r ns : Nat) : List Nat :=
  match (railOf s r).sets.find? (fun x => decide (x.1 ≤ ns)) with
  | some x => x.2
  | none => []

/-- The offset of rank a of n members over a period of t, 1/256 ns (R59, R80). -/
def burstOffset (a n t : Nat) : Nat := a * t / n

/-- The total change of the walk periods that leads to offset u over a period of t (R80). -/
def walkChange (u t : Nat) : Int := if 2 * u ≤ t then u else -((t : Int) - u)

/-- The burst width of a member whose walk period 1 is len (R79). -/
def burstWidth (width onMin offMin len : Nat) : Nat :=
  if len ≤ offMin then 0 else min (max width onMin) (len - offMin)

/-- Channel n can take the burst: its timeline runs, its active period is not 0, and no trip is latched (R79).
(DEDUCED, log 25) -/
def takesBurst (s : State) (n : Nat) : Bool :=
  let c := chanOf s n
  c.live && perOf c.actPer != 0 && !latched s n

/-- The burst start of member n, ns: the one of the rail in deterministic mode; otherwise up to 3 ns earlier, by its
quire, after the sampling tick and within the member's present period. How much earlier is free (R77). (DEDUCED, log
24) -/
def memberStart (s : State) (r n tb : Nat) : Nat :=
  if flag s (Reg.LU_CTRL (homeOf r)) Fld.LU_CTRL_DETERM then tb
  else
    let early := (Config.freeWord (s.fresh + (quireOf n - (railOf s r).entry.spanFirst))).toNat % 4
    let x := max (railOf s r).fired (tb - early)
    if (chanOf s n).s ≤ x * 256 then x else tb

/-- What the guard asks of a burst's HS-on at x besides R109: the rest of the dead time after an HS-off (R94). -/
def burstGuard (s : State) (n x : Nat) : Nat :=
  let c := chanOf s n
  if c.hs then 0 else (c.hsOff + deadTime s n) - x

/-- Member n, of rank a among count, ends its period at x, which is a reload, and begins walk period 1 with the burst
pulse (R79, R80, R107). -/
def burstMember (r n a count x : Nat) (s : State) : State :=
  let s := reloadActs n s
  let q := quireOf n
  let p := localOf n
  let t := (railOf s r).entry.per
  let lim := rd s (Reg.LU_PH_ONLIM q p)
  let u := burstOffset a count t
  let s := updChan n (fun c => { c with
    walk := 1, walkK := max 1 (fld s (Reg.LU_BURST (homeOf r) (slotOf r)) Fld.LU_BURST_WALK), walkT := t,
    walkD := walkChange u t, walkU := u, bufNew := false }) s
  let len := walkLen (chanOf s n) 1
  let w := burstWidth (fld s (Reg.LU_BURST (homeOf r) (slotOf r)) Fld.LU_BURST_WIDTH)
    (getBits lim Fld.LU_PH_ONLIM_ON_MIN) (getBits lim Fld.LU_PH_ONLIM_OFF_MIN) len
  let s := updChan n (fun c => { c with actPer := len % 2 ^ 28 + 2 ^ 31, actOn := w % 2 ^ 28, actOfs := u }) s
  let s := showRef n (railOf s r).ref (settlePort n s)
  startPeriod n x len w (burstGuard s n x) s

/-- The largest burst width of the members of a set, 1/256 ns (R81). (DEDUCED, log 26) -/
def widest (s : State) (set : List Nat) : Nat :=
  set.foldl (fun a n => max a (if takesBurst s n then (chanOf s n).on else 0)) 0

/-- The burst starts at x: the members of the set in force that can take it begin their walks, the interleave
reference is x, and the holdoff runs (R79 to R81). (DEDUCED, log 24, 25, 26) -/
def burstStart (r : Nat) (s : State) : State :=
  let x := burstStartAt s r * 256
  let q := homeOf r
  let l := slotOf r
  let set := burstSetAt s r (burstStartAt s r)
  let ranked := (List.range set.length).zip set
  let takers := ranked.filter (fun y => takesBurst s y.2)
  let starts := takers.map fun y => (y, memberStart s r y.2 (burstStartAt s r) * 256)
  let s := if flag s (Reg.LU_CTRL q) Fld.LU_CTRL_DETERM then s else s |> spend |> spend |> spend |> spend
  let s := updRail r (fun y => { y with
    ref := x, tb := x, fired := y.more.headD 0, more := y.more.tail, nb := set.length + 1,
    newBursts := y.newBursts + 1, walked := !takers.isEmpty }) s
  let s := forAll starts (fun y s => burstMember r y.1.2 y.1.1 set.length y.2 s) s
  let hold := max (fld s (Reg.LU_BURST q l) Fld.LU_BURST_HOLDOFF * 16 * 256) (widest s (takers.map (·.2)))
  updRail r (fun y => { y with holdEnd := x + hold }) s
    |> setFlag (Reg.LU_BURST_STAT q l) Fld.LU_BURST_STAT_HELD true
    |> setFlag (Reg.LU_BURST_STAT q l) Fld.LU_BURST_STAT_WALKING (!takers.isEmpty)

/-- BURST_START (R79). -/
def execBurstStart (r : Fin 32) (s : State) : Out := live (burstStartDue s r) s (burstStart r s)

/-- The holdoff runs and its end has come (R81). -/
def holdoffOver (s : State) (r : Nat) : Bool :=
  flag s (Reg.LU_BURST_STAT (homeOf r) (slotOf r)) Fld.LU_BURST_STAT_HELD &&
    decide ((railOf s r).holdEnd ≤ fine s)

/-- BURST_HOLDOFF_END (R81). -/
def execBurstHoldoffEnd (r : Fin 32) (s : State) : Out :=
  live (holdoffOver s r) s
    (setFlag (Reg.LU_BURST_STAT (homeOf r) (slotOf r)) Fld.LU_BURST_STAT_HELD false s)

/-! ## Hints (R83 to R87) -/

/-- The entry of LU_IM_PART that names a partner: the lowest with VALID = 1, where R83 names none of several. (DESIGN
CHOICE, log 183) -/
def partnerEntry (s : State) (r partner : Nat) : Option Nat :=
  (List.range 16).find? fun t =>
    let a := Reg.LU_IM_PART (homeOf r) (slotOf r) t
    flag s a Fld.LU_IM_PART_VALID && fld s a Fld.LU_IM_PART_PARTNER == partner

/-- The weighted step of an announced step (R85). -/
def weightedStep (dI : Int) (trust conf : Nat) : Int := Int.tdiv (dI * 200 * (trust : Int) * ((conf : Int) + 1)) 2048

/-- The first tick instant of quire q at or after an instant, ns (R84). -/
def tickFrom (s : State) (q ns : Nat) : Nat := ceilDiv ns (tickNs s q) * tickNs s q

/-- The tick instant of k_h for a hint whose slot ended at tEnd (R84). -/
def hintTick (s : State) (r tEnd : Nat) : Nat := tickFrom s (homeOf r) (tEnd + 256)

/-- The lane a hint of a partner takes: the one it supersedes, or the lowest free lane (R86). -/
def laneFor (x : Rail) (partner kh : Nat) : Option Nat :=
  match x.lanes.findIdx? (fun y => y.busy && y.partner == partner && serialAfter y.kstep kh) with
  | some j => some j
  | none => x.lanes.findIdx? (fun y => !y.busy)

/-- A discarded hint is counted, and a flag tells why (R83). -/
def dropHint (r : Nat) (why : Option Bits) (s : State) : State :=
  let s := incFld (Reg.LU_IM_CNT (homeOf r) (slotOf r)) Fld.LU_IM_CNT_DROP s
  match why with
  | some f => raiseFlag (imStat r) f s
  | none => s

/-- The lane a hint fills (R85, R86): old is what its lane held, k the index of the newest tick. -/
def newLane (s : State) (r : Nat) (h : HintWord) (t : Nat) (old : Lane) : Lane :=
  let q := homeOf r
  let l := slotOf r
  let kh := indexAt s q (hintTick s r h.tEnd)
  let kstep := indexAt s q (tickFrom s q (h.tEnd + 50 * h.lead))
  let pre := max 1 (fld s (Reg.LU_IM_CTRL q l) Fld.LU_IM_CTRL_PRE)
  let late := decide (indexDiff kstep kh ≤ 0)
  let from_ := (2 ^ 32 + (kstep + 1) - pre) % 2 ^ 32
  let kstart := if late || decide (indexDiff from_ kh < 0) then kh else from_
  let c := if old.busy then old.c else 0
  { busy := true, partner := h.partner, entry := t, dI := h.dI,
    step := weightedStep h.dI (fld s (Reg.LU_IM_TRUST q l t) Fld.LU_IM_TRUST_TRUST) h.conf, c := c, c0 := c,
    kh := kh, kstart := kstart, kstep := kstep, n := if late then 1 else (indexDiff kstep kstart + 1).toNat,
    late := late, base := (railOf s r).itot, endI := 0, ended := false, recorded := false }

/-- The hints that a group can still hold: one whose step may lie within 8 ticks of a hint yet to come, or of one that
awaits its record (R84, R89). A hint's step comes no more than 256 ns, which is 16 ticks, before its delivery.
(DEDUCED, log 228) -/
def keepHints (k : Nat) (x : Rail) : List Hint :=
  x.hints.filter fun h => decide (-64 ≤ indexDiff h.kstep k) ||
    x.lanes.any fun y => y.busy && !y.recorded && decide ((indexDiff h.kstep y.kstep).natAbs ≤ 8)

/-- The hint enters lane j: a hint it supersedes is recorded as cut (R85, R86, R89). (DEDUCED, log 228) -/
def takeHint (r : Nat) (h : HintWord) (t j : Nat) (s : State) : State :=
  let old := nthD Lane.init (railOf s r).lanes j
  let x := newLane s r h t old
  let s := if old.busy && !old.recorded then updRail r (cutHints j) (putCut r old s) else s
  let s := updRail r (fun y => { y with
    lanes := setNth y.lanes j x,
    hints := { kstep := x.kstep, dI := h.dI, entry := t, lane := j }
      :: (keepHints (index s (homeOf r)) y).map fun g => if g.lane = j then { g with lane := 8 } else g }) s
  incFld (Reg.LU_IM_CNT (homeOf r) (slotOf r)) Fld.LU_IM_CNT_ACCEPT (showLanes r s)

/-- A good hint reaches the mixer of its rail (R83). (DEDUCED, log 27) -/
def deliverHint (h : HintWord) (s : State) : State :=
  let r := h.rail
  if h.dI = 0 then s
  else if flag s (Reg.LU_IM_CTRL (homeOf r) (slotOf r)) Fld.LU_IM_CTRL_EN = false ∨ regulating s r = false ∨
      3 ≤ shed s then dropHint r none s
  else
    match partnerEntry s r h.partner with
    | none => dropHint r (some Fld.LU_IM_STAT_NOPERM) s
    | some t =>
      if hintTick s r h.tEnd ≤ now s then
        dropHint r (some Fld.LU_IM_STAT_LATEDLV) s |> incFld (Reg.RT_MISS r) wordBits
          |> report { src := 0x10, event := 1, cls := 1, unit := r }
      else
        match laneFor (railOf s r) h.partner (indexAt s (homeOf r) (hintTick s r h.tEnd)) with
        | none => dropHint r (some Fld.LU_IM_STAT_FULL) s
        | some j => takeHint r h t j s

/-- HINT_DELIVERY (R83): the oldest hint on its way from port v. -/
def execHintDelivery (v : Fin 16) (s : State) : Out :=
  match (varipOf s v).flight with
  | h :: rest => live true s (deliverHint h (updVarip v (fun x => { x with flight := rest }) s))
  | [] => .next s

/-! ## Outcomes and trust (R89, R90) -/

/-- TRUST of entry t takes value v held within its bounds; HELD tells whether a bound limited it (R90). -/
def setTrust (r t : Nat) (v : Nat) (s : State) : State :=
  let q := homeOf r
  let l := slotOf r
  let p := Reg.LU_IM_PART q l t
  let w := clampN (fld s p Fld.LU_IM_PART_TMIN) (fld s p Fld.LU_IM_PART_TMAX) v
  s |> setFld (Reg.LU_IM_TRUST q l t) Fld.LU_IM_TRUST_TRUST w
    |> setFlag (Reg.LU_IM_TRUST q l t) Fld.LU_IM_TRUST_HELD (w != v)

/-- The penalty of a WRONG record for entry t (R90). -/
def penalise (r t : Nat) (s : State) : State :=
  setTrust r t (fld s (Reg.LU_IM_TRUST (homeOf r) (slotOf r) t) Fld.LU_IM_TRUST_TRUST / 2) s

/-- The hints in the group of step index kstep (R89). -/
def hintGroup (x : Rail) (kstep : Nat) : List Hint :=
  x.hints.filter fun h => decide ((indexDiff h.kstep kstep).natAbs ≤ 8)

/-- A record is WRONG: obs and sum in 0.5 A, tolerance in 1 A (R89). -/
def outcomeWrong (obs sum : Int) (tola : Nat) : Bool :=
  decide ((sum.natAbs : Int) + 8 * tola < 4 * ((obs - sum).natAbs : Int))

/-- Lane j's outcome is due: busy, not recorded, and its observation tick has come. -/
def outcomeDue (x : Lane) : Bool := x.busy && x.ended && !x.recorded

/-- The outcome record of lane j (R89, R90). -/
def writeOutcome (r j : Nat) (s : State) : State :=
  let x := nthD Lane.init (railOf s r).lanes j
  if outcomeDue x then
    let group := hintGroup (railOf s r) x.kstep
    let sum := group.foldl (fun a h => a + h.dI) 0
    let obs := satS 16 (Int.tdiv (x.endI - x.base) 200)
    let wrong := outcomeWrong obs sum (fld s (Reg.LU_IM_LIMIT (homeOf r) (slotOf r)) Fld.LU_IM_LIMIT_TOLA)
    let s := putOutcome r (outcomeFlags x wrong false) (pat 16 sum * 2 ^ 16 + pat 16 obs) x.kstep s
    let s := if wrong then forAll (group.map (·.entry)).eraseDups (penalise r) s else s
    showLanes r (updRail r (fun y => { y with
      lanes := setNth y.lanes j (if x.c = 0 then Lane.init else { x with recorded := true }) }) s)
  else s

/-- OUTCOME_RECORD (R89): the records that are due, in ascending lane order. -/
def execOutcomeRecord (r : Fin 32) (s : State) : Out :=
  live ((railOf s r).lanes.any outcomeDue) s (forAll (List.range 8) (writeOutcome r) s)

/-- IM_TRUST_WRITE (R90). -/
def execImTrustWrite (m : Master) (r : Fin 32) (t : Fin 16) (v : BitVec 32) (s : State) : Out :=
  regWriteBy m (Reg.LU_IM_TRUST (homeOf r) (slotOf r) t) s
    (setTrust r t (getBits v.toNat Fld.LU_IM_TRUST_TRUST) s)

/-- The lanes of entry t are cut (R87). -/
def cutEntry (r t : Nat) (s : State) : State :=
  forAll (List.range 8) (fun j s =>
    if (nthD Lane.init (railOf s r).lanes j).entry = t then cutLane r j s else s) s

/-- A write of v to LU_IM_PART[t] (R90, R95). -/
def partWrite (r t v : Nat) (s : State) : State :=
  let q := homeOf r
  let l := slotOf r
  let lo := getBits v Fld.LU_IM_PART_TMIN
  let hi := getBits v Fld.LU_IM_PART_TMAX
  if hi < lo then raiseFlag (imStat r) Fld.LU_IM_STAT_BADBND s
  else
    let s := plainWrite (Reg.LU_IM_PART q l t) v s
    let tr := fld s (Reg.LU_IM_TRUST q l t) Fld.LU_IM_TRUST_TRUST
    let s := if tr < lo ∨ hi < tr then setTrust r t tr s else s
    if getBits v Fld.LU_IM_PART_VALID = 0 then cutEntry r t s else s

/-- IM_PART_WRITE (R90). -/
def execImPartWrite (m : Master) (r : Fin 32) (t : Fin 16) (v : BitVec 32) (s : State) : Out :=
  regWriteBy m (Reg.LU_IM_PART (homeOf r) (slotOf r) t) s (partWrite r t v.toNat s)

/-- A write of v to LU_IM_CTRL; EN = 0 cuts every lane (R87). -/
def imCtrlWrite (r v : Nat) (s : State) : State :=
  let s := plainWrite (Reg.LU_IM_CTRL (homeOf r) (slotOf r)) v s
  if getBits v Fld.LU_IM_CTRL_EN = 0 then cutLanes r s else s

/-- IM_CTRL_WRITE (R87). -/
def execImCtrlWrite (m : Master) (r : Fin 32) (v : BitVec 32) (s : State) : Out :=
  regWriteBy m (Reg.LU_IM_CTRL (homeOf r) (slotOf r)) s (imCtrlWrite r v.toNat s)

/-- LU_IM_CLRCNT.IM (R95). -/
def imClrcnt (r : Nat) (s : State) : State :=
  s |> wr (Reg.LU_IM_CNT (homeOf r) (slotOf r)) 0 |> wr (Reg.LU_IM_OPPOSE (homeOf r) (slotOf r)) 0

/-- LU_IM_CLRCNT.BURST (R95). -/
def burstClrcnt (r : Nat) (s : State) : State :=
  s |> wr (Reg.LU_BURST_CNT (homeOf r) (slotOf r)) 0
    |> setFld (Reg.LU_BURST_STAT (homeOf r) (slotOf r)) Fld.LU_BURST_STAT_SUPP 0

/-- IM_CLRCNT (R95). -/
def execImClrcnt (m : Master) (r : Fin 32) (s : State) : Out :=
  regWriteBy m (Reg.LU_IM_CLRCNT (homeOf r) (slotOf r)) s (imClrcnt r s)

/-- BURST_CLRCNT (R95). -/
def execBurstClrcnt (m : Master) (r : Fin 32) (s : State) : Out :=
  regWriteBy m (Reg.LU_IM_CLRCNT (homeOf r) (slotOf r)) s (burstClrcnt r s)

end Sys2Proof.Machine
end

