-- ==== Sys2Proof/Machine/Nvm.lean ====
section
/-! DEFINITION. The NVM: codewords, the mapping of logical sectors, the commands of NV_CMD, background erasure, wear
levelling, retirement, the read window, and the records the Foreman appends (R19, R308 to R312, R372). -/

namespace Sys2Proof.Machine

/-! ## Sectors and codewords (R308, R309) -/

/-- The physical sector that logical sector s maps to. -/
def nvPhys (s : State) (sect : Nat) : Nat := tget id s.nv.map sect

/-- The physical sectors (R308). -/
@[irreducible] def physSectors : List Nat := List.range 2048

/-- The logical sectors (R308). -/
@[irreducible] def logSectors : List Nat := List.range 1984

/-- Physical sector p is mapped. -/
def nvMapped (s : State) (p : Nat) : Bool :=
  s.nv.map.any (fun e => e.2 == p) || (decide (p < 1984) && s.nv.map.all (fun e => e.1 != p))

def nvGone (s : State) (p : Nat) : Bool := tget (fun _ => false) s.nv.gone p
def nvDirty (s : State) (p : Nat) : Bool := tget (fun _ => false) s.nv.dirty p
def nvWear (s : State) (p : Nat) : Nat := tget (fun _ => 0) s.nv.wear p

/-- Physical sector p still holds what manufacture wrote: the golden image or the certificate (R343). (DEDUCED, log
231) -/
def factoryFresh (s : State) (p : Nat) : Bool :=
  (decide (400 ≤ p ∧ p < 528) || decide (1504 ≤ p ∧ p < 1512)) && nvWear s p == 0

/-- The byte at offset o of logical sector sect. (DEDUCED, log 231) -/
def nvByte (s : State) (sect o : Nat) : Nat :=
  let a := nvPhys s sect * 4096 + o
  if factoryFresh s (nvPhys s sect) then (Config.factoryByte a).toNat else (tget (fun _ => 255#8) s.nv.cells a).toNat

/-- The key of codeword c of logical sector sect. -/
def nvCw (s : State) (sect c : Nat) : Nat := nvPhys s sect * 128 + c

/-- Codeword c of logical sector sect is erased (R310). -/
def nvErased (s : State) (sect c : Nat) : Bool :=
  !factoryFresh s (nvPhys s sect) && !tget (fun _ => false) s.nv.used (nvCw s sect c)

/-- Codeword c of logical sector sect reads good (R309). -/
def nvGood (s : State) (sect c : Nat) : Bool := decide (tget (fun _ => 0) s.nv.flips (nvCw s sect c) < 3)

/-- The bytes of codeword c of logical sector sect. -/
def cwBytes (s : State) (sect c : Nat) : List Nat := (List.range 32).map fun i => nvByte s sect (c * 32 + i)

/-- Codeword c of logical sector sect holds these bytes and reads good: a record that stands in it can be read
(R310). -/
def nvHolds (s : State) (sect c : Nat) (bytes : List Nat) : Bool :=
  !nvErased s sect c && nvGood s sect c && cwBytes s sect c == padTo 255 32 bytes

/-- The 32 bytes of codeword c of physical sector p are programmed. -/
def programCw (p c : Nat) (bytes : List Nat) (s : State) : State :=
  let cells := ((List.range 32).zip (padTo 255 32 bytes)).foldl
    (fun t x => tset (fun _ => 255#8) t (p * 4096 + c * 32 + x.1) (BitVec.ofNat 8 x.2)) s.nv.cells
  updNv (fun n => { n with cells := cells, used := tset (fun _ => false) n.used (p * 128 + c) true,
                           flips := tset (fun _ => 0) n.flips (p * 128 + c) 0 }) s

/-- Bytes are programmed into consecutive codewords of physical sector p from codeword c on. -/
def programFrom (p c : Nat) (bytes : List Nat) (s : State) : State :=
  forAll (List.range (ceilDiv bytes.length 32)) (fun i s =>
    programCw p (c + i) ((bytes.drop (32 * i)).take 32) s) s

/-- Physical sector p holds nothing. -/
def blankSector (p : Nat) (s : State) : State :=
  updNv (fun n => { n with
    cells := n.cells.filter (fun e => e.1 / 4096 != p), used := n.used.filter (fun e => e.1 / 128 != p),
    flips := n.flips.filter (fun e => e.1 / 128 != p) }) s

/-- The highest and lowest erase counts of the sectors in use (R311, R315). -/
def wearMax (s : State) : Nat := ((physSectors).filter (!nvGone s ·)).foldl (fun a p => max a (nvWear s p)) 0
def wearMin (s : State) : Nat :=
  match (physSectors).filter (!nvGone s ·) with
  | [] => 0
  | p :: ps => ps.foldl (fun a p => min a (nvWear s p)) (nvWear s p)

/-- NV_WMAX and NV_WMIN follow the erase counts (R315). -/
def showWear (s : State) : State := s |> wr Reg.NV_WMAX (wearMax s) |> wr Reg.NV_WMIN (wearMin s)

/-- Physical sector p is erased: its count goes up (R311). -/
def eraseSector (p : Nat) (s : State) : State :=
  s |> blankSector p |> updNv (fun n => { n with
    wear := tset (fun _ => 0) n.wear p (tget (fun _ => 0) n.wear p + 1),
    dirty := tset (fun _ => false) n.dirty p false })
    |> showWear

/-- Physical sector p is retired: a spare goes, and while fewer than 8 remain that is a U-class fault (R311). The record
names the logical sector the erase or write was for. -/
def retireSector (p sect : Nat) (s : State) : State :=
  let before := fld s Reg.NV_STAT Fld.NV_STAT_SPARES
  let s := s |> updNv (fun n => { n with gone := tset (fun _ => false) n.gone p true,
                                         dirty := tset (fun _ => false) n.dirty p false })
    |> incFld Reg.NV_STAT Fld.NV_STAT_RETIRED |> setFld Reg.NV_STAT Fld.NV_STAT_SPARES (before - 1) |> showWear
  if before < 8 then report { src := 6, event := 2, cls := 2, unit := sect } s else s

/-- Free physical sectors: unmapped and not retired, but for one a command is filling. -/
def nvFree (s : State) : List Nat :=
  (physSectors).filter fun p => !nvMapped s p && !nvGone s p &&
    (match s.nv.op with
      | .sector _ x _ => x != p
      | .erase _ x => x != p
      | _ => true)

/-- The sector of least wear in a list. -/
def bySmallest (key : Nat → Nat) : List Nat → Option Nat
  | [] => none
  | p :: ps =>
    match bySmallest key ps with
    | some b => if key b < key p then some b else some p
    | none => some p

/-- The sector of most wear in a list. -/
def byLargest (key : Nat → Nat) : List Nat → Option Nat
  | [] => none
  | p :: ps =>
    match byLargest key ps with
    | some b => if key p < key b then some b else some p
    | none => some p

/-- The fresh sector that SECTOR or ERASE takes: the least-worn erased one; with none erased yet, the least-worn one
of those awaiting erasure is erased first (R310, R311). (DEDUCED, log 94) -/
def freshSector (s : State) : Option (Nat × Bool) :=
  let free := nvFree s
  match bySmallest (nvWear s) (free.filter (!nvDirty s ·)) with
  | some p => some (p, false)
  | none => (bySmallest (nvWear s) free).map (·, true)

/-- Logical sector sect is switched to physical sector p; the sector it leaves awaits its erasure (R310). -/
def remap (sect p : Nat) (s : State) : State :=
  let old := nvPhys s sect
  updNv (fun n => { n with map := tset id n.map sect p, dirty := tset (fun _ => false) n.dirty old true }) s

/-- Sector p takes the contents of sector o, corrected (R309, R311). -/
def copySector (o p : Nat) (s : State) : State :=
  let move := fun {α : Type} (w : Nat) (t : Tab α) (d : Tab α) =>
    (t.filter (fun e => e.1 / w == o)).foldl (fun t e => tins t (p * w + e.1 % w) e.2) d
  let made := (List.range 4096).map fun i => (Config.factoryByte (o * 4096 + i)).toNat
  let s := if factoryFresh s o then programFrom p 0 made (blankSector p s) else blankSector p s
  updNv (fun n => { n with
    cells := move 4096 n.cells n.cells, used := move 128 n.used n.used,
    flips := move 128 (n.flips.filter (fun e => decide (3 ≤ e.2))) n.flips }) s

/-! ## The commands of NV_CMD (R310, R315) -/

/-- A SHUTDOWN with cause 4 is in progress: it makes two NVM writes, the appends of the lifetime record and of its FM
event 3, and no others (R401). (DEDUCED, log 165) -/
def nvClosed (s : State) : Bool := mode s == 6 && rd s Reg.FM_SHUTCAUSE == 4

/-- The bytes from NV_SRC on, read by the NVM controller, or the error that stops it: the source lies outside Foreman
memory, or a word of it does not read good (R36, R298, R299, R315). (DEDUCED, log 95) -/
def nvSource (n : Nat) (s : State) : State × Option (List Nat) :=
  let a := rd s Reg.NV_SRC / 32 * 32
  if a < 0x20000000 ∨ 0x20200000 < a + n then (accessError 132 a 0 2 1 s, none)
  else
    let (s, ok) := (List.range (n / 8)).foldl (fun (x : State × Bool) i =>
      match bankOf (a + 8 * i) with
      | some k =>
        let (s, f) := touchWord 132 k (a + 8 * i) 0 3 false .none x.1
        (s, x.2 && f == .good)
      | none => x) (s, true)
    (s, if ok then some ((List.range n).map fun i => memByte s (a + i)) else none)

/-- The result of the checks of R315, in the order of their codes. -/
def nvCheck (s : State) (op sect : Nat) : Nat :=
  let first := fld s Reg.NV_SPAN Fld.NV_SPAN_FIRST
  let nm1 := fld s Reg.NV_SPAN Fld.NV_SPAN_NM1
  if op = 0 ∨ 3 < op then 1
  else if flag s Reg.NV_CMDST Fld.NV_CMDST_BUSY then 2
  else if 1983 < sect ∨ (op = 1 ∧ 127 < first + nm1) then 3
  else if op = 1 then
    if (List.range (nm1 + 1)).all (fun i => nvErased s sect (first + i)) then 0 else 4
  else if fld s Reg.NV_STAT Fld.NV_STAT_SPARES = 0 ∨ (freshSector s).isNone then 5
  else 0

/-- A command ends, with RESULT 6 where it failed (R315). -/
def nvEnd (ok : Bool) (s : State) : State :=
  s |> updNv (fun x => { x with op := .none }) |> setFlag Reg.NV_CMDST Fld.NV_CMDST_BUSY false
    |> setFld Reg.NV_CMDST Fld.NV_CMDST_RESULT (if ok then 0 else 6)

/-- The controller reads the n source bytes of a command and begins it, or ends it (R310, R315). -/
def nvBegin (op sect first n : Nat) (s : State) : State :=
  match (if op = 3 then (s, some []) else nvSource n s) with
  | (s, none) => nvEnd false s
  | (s, some data) =>
    let s := setFlag Reg.NV_CMDST Fld.NV_CMDST_BUSY true s
    if op = 1 then updNv (fun x => { x with op := .append sect first data }) s
    else
      match freshSector s with
      | some (p, dirty) =>
        let s := if dirty then eraseSector p s else s
        updNv (fun x => { x with op := if op = 2 then .sector sect p data else .erase sect p }) s
      | none => nvEnd false s

/-- The controller's source of n bytes is held (R304, R313). -/
def sourceHeld (s : State) (n : Nat) : Bool := rangeHeld s (rd s Reg.NV_SRC / 32 * 32) n

/-- NV_CMD takes a command: refused, waiting for its source, or in progress (R304, R310, R315). (DEDUCED, log 94, 95)
-/
def nvCommand (op sect : Nat) (s : State) : State :=
  let r := nvCheck s op sect
  let s := if nvClosed s then s else setFld Reg.NV_CMDST Fld.NV_CMDST_RESULT r s
  if r != 0 || nvClosed s then s
  else
    let first := fld s Reg.NV_SPAN Fld.NV_SPAN_FIRST
    let n := if op = 1 then 32 * (fld s Reg.NV_SPAN Fld.NV_SPAN_NM1 + 1) else if op = 2 then 4096 else 0
    if sourceHeld s n then
      updNv (fun x => { x with op := .fetch op sect first n }) (setFlag Reg.NV_CMDST Fld.NV_CMDST_BUSY true s)
    else nvBegin op sect first n s

/-- A command whose source was held goes on (R304). (DEDUCED, log 93) -/
def nvResume (s : State) : State :=
  match s.nv.op with
  | .fetch op sect first n =>
    if sourceHeld s n then s else nvBegin op sect first n (updNv (fun x => { x with op := .none }) s)
  | _ => s

/-- NV_APPEND (R310). -/
def execNvAppend (m : Master) (sect : BitVec 11) (s : State) : Out :=
  regWriteBy m Reg.NV_CMD s (nvCommand 1 sect.toNat s)
/-- NV_SECTOR (R310). -/
def execNvSector (m : Master) (sect : BitVec 11) (s : State) : Out :=
  regWriteBy m Reg.NV_CMD s (nvCommand 2 sect.toNat s)
/-- NV_ERASE (R310). -/
def execNvErase (m : Master) (sect : BitVec 11) (s : State) : Out :=
  regWriteBy m Reg.NV_CMD s (nvCommand 3 sect.toNat s)

/-- NV_APPEND_DONE (R310). -/
def execNvAppendDone (ok : Bool) (s : State) : Out :=
  match s.nv.op with
  | .append sect first data => live true s (nvEnd ok (programFrom (nvPhys s sect) first data s))
  | _ => .next s

/-- A SECTOR or ERASE completes: the data is in, the journal record is written and the mapping switches; a sector whose
verify failed after its retry is retired and the mapping stands (R310, R311). -/
def sectorDone (sect p : Nat) (data : List Nat) (ok : Bool) (s : State) : State :=
  let s := nvEnd ok s
  if ok then s |> programFrom p 0 data |> remap sect p else retireSector p sect s

/-- NV_SECTOR_DONE (R310). -/
def execNvSectorDone (ok : Bool) (s : State) : Out :=
  match s.nv.op with
  | .sector sect p data => live true s (sectorDone sect p data ok s)
  | .erase sect p => live true s (sectorDone sect p [] ok s)
  | _ => .next s

/-! ## Background work (R309 to R311) -/

/-- BACKGROUND_ERASE_DONE (R310): an unmapped sector's erase ends, or fails after its retry and the sector is retired
(R311). No logical sector maps to it, so the record of R370 takes the sector's own number. (DEDUCED, log 96) -/
def execBackgroundEraseDone (p : BitVec 11) (ok : Bool) (s : State) : Out :=
  live (nvDirty s p.toNat && !nvMapped s p.toNat && !nvClosed s) s
    (if ok then eraseSector p.toNat s else retireSector p.toNat p.toNat s)

/-- Static levelling is due: the spread exceeds SWL, no command runs, and an erased sector is free (R311). -/
def levelPair (s : State) : Option (Nat × Nat) :=
  let mapped := logSectors
  match bySmallest (fun l => nvWear s (nvPhys s l)) mapped,
      byLargest (nvWear s) ((nvFree s).filter (!nvDirty s ·)) with
  | some l, some p =>
    if fld s Reg.NV_CFG Fld.NV_CFG_SWL < wearMax s - wearMin s ∧ s.nv.op = .none then some (l, p) else none
  | _, _ => none

/-- STATIC_WEAR_LEVEL (R311). (DESIGN CHOICE, log 212) -/
def execStaticWearLevel (s : State) : Out :=
  match levelPair s with
  | some (l, p) => live (!nvClosed s) s (remap l p (copySector (nvPhys s l) p s))
  | none => .next s

/-- A logical sector that needed a 2-bit correction is rewritten (R309). (DESIGN CHOICE, log 212) -/
def nvRefresh (sect p : Nat) (dirty : Bool) (s : State) : State :=
  let s := if dirty then eraseSector p s else s
  s |> copySector (nvPhys s sect) p |> remap sect p |> incFld Reg.NV_STAT Fld.NV_STAT_REFRESH
    |> updNv (fun x => { x with refresh := tset (fun _ => false) x.refresh sect false })

/-- NVM_REFRESH (R309). (DESIGN CHOICE, log 212) -/
def execNvmRefresh (sect : BitVec 11) (s : State) : Out :=
  match freshSector s with
  | some (p, dirty) =>
    live (tget (fun _ => false) s.nv.refresh sect.toNat && s.nv.op == .none && !nvClosed s) s
      (nvRefresh sect.toNat p dirty s)
  | none => .next s

/-- NV_ECC_CLEAR (R315). -/
def execNvEccClear (m : Master) (s : State) : Out := regWriteBy m Reg.NV_ECC s (wr Reg.NV_ECC 0 s)

/-! ## The read window (R308, R309) -/

/-- A codeword read: new flipped bits join those it holds. Two are corrected and the sector asks for its rewrite;
three are uncorrectable, counted, recorded and captured (R309, R374). (DESIGN CHOICE, log 89) -/
def nvReadCw (m a sect c flips : Nat) (s : State) : State × Bool :=
  let key := nvCw s sect c
  let n := min 3 (tget (fun _ => 0) s.nv.flips key + flips)
  let s := updNv (fun x => { x with flips := tset (fun _ => 0) x.flips key n }) s
  if n = 2 then
    (s |> incFld Reg.NV_ECC Fld.NV_ECC_CORR
      |> updNv (fun x => { x with refresh := tset (fun _ => false) x.refresh sect true }), true)
  else if n = 3 then
    (s |> incFld Reg.NV_ECC Fld.NV_ECC_UNCORR
      |> report { src := 6, event := 1, cls := 2, unit := sect, detail := a,
                  fec := some { addr := nvPhys s sect * 2 ^ 32 + a, master := m, type := 5, size := 2, kind := 2 } },
      false)
  else (s, true)

/-- A read by master m of the first n codewords from logical sector first on (R309): those with flipped bits are
corrected or found uncorrectable. -/
def nvTouch (m first n : Nat) (s : State) : State :=
  forAll (s.nv.flips.map (·.1)) (fun key s =>
    match (List.range (ceilDiv n 128)).find? (fun i =>
        nvPhys s (first + i) == key / 128 && decide (i * 128 + key % 128 < n)) with
    | some i =>
      (nvReadCw m ((first + i) * 4096 + key % 128 * 32 + 0x60000000) (first + i) (key % 128) 0 s).1
    | none => s) s

/-- A read by master m of the word at address a of the window (R308, R309). -/
def nvWindowRead (m a flips : Nat) (s : State) : State × Bool :=
  if 0x607BFFFF < a then (s, true)
  else nvReadCw m a (a % 0x800000 / 4096) (a % 4096 / 32) flips s

/-- The word that the window shows at address a, where it reads good. -/
def nvWindowWord (s : State) (a : Nat) : Nat :=
  if 0x607BFFFF < a then 2 ^ 32 - 1
  else fromBytes ((List.range 4).map fun i => nvByte s (a % 0x800000 / 4096) (a % 4096 + i))

/-- Master m may read the window (R36). -/
def mayReadNvm : Master → Bool
  | .foreman _ => true
  | .engine _ .monitor => true
  | .engine _ _ => false

/-- NVM_WINDOW_READ (R309). -/
def execNvmWindowRead (m : Master) (a : BitVec 32) (flips : Fin 4) (s : State) : Out :=
  live (decide (0x60000000 ≤ a.toNat ∧ a.toNat < 0x60800000) && a.toNat % 4 == 0) s
    (if mayReadNvm m then
      match nvWindowRead (masterOf s m) a.toNat flips.val s with
      | (s, true) => s
      | (s, false) => busError m a.toNat false 2 s
     else refuseAccess m a.toNat false s)

/-! ## Records the Foreman appends (R19, R310, R312, R372) -/

/-- A logical sector is erased: it goes to a fresh physical one, or in place where none is left. -/
def clearSector (sect : Nat) (s : State) : State :=
  match freshSector s with
  | some (p, dirty) => remap sect p (if dirty then eraseSector p s else s)
  | none => eraseSector (nvPhys s sect) s

/-- Bytes go into consecutive logical sectors by SECTOR; none where no spare sector is left (R310). -/
def writeSlot (sect : Nat) : List (List Nat) → State → Option State
  | [], s => some s
  | d :: rest, s =>
    match freshSector s with
    | some (p, dirty) =>
      let s := if dirty then eraseSector p s else s
      writeSlot (sect + 1) rest (s |> programFrom p 0 d |> remap sect p)
    | none => none

/-- A write of a logical sector fails its verify after its retry: the physical sector it went to is retired, and the
mapping stands (R311). (DEDUCED, log 211) -/
def failSector (sect : Nat) (s : State) : State :=
  match freshSector s with
  | some (p, dirty) => retireSector p sect (if dirty then eraseSector p s else s)
  | none => s

/-- A codeword goes to position pos of a ring of 128-codeword logical sectors from base on: on entering a sector that
holds records, the sector is erased first (R372). (DEDUCED, log 97) -/
def ringAppend (base pos : Nat) (bytes : List Nat) (s : State) : State :=
  let sect := base + pos / 128
  let s := if pos % 128 = 0 ∧ !nvErased s sect 0 then clearSector sect s else s
  programCw (nvPhys s sect) (pos % 128) bytes s

/-- The bytes of a lifetime record, which the rules do not give. -/
def lifetimeBytes (hrs pcc : Nat) : List Nat := (List.range 32).map fun i => (Config.lifetimeByte hrs pcc i).toNat

/-- The lifetime record of the present counts is appended (R19, R312). (DEDUCED, log 97) -/
def commitLifetime (s : State) : State :=
  s |> ringAppend 0 s.tb.nvPos (lifetimeBytes s.tb.hrs s.tb.pcc)
    |> updTb (fun b => { b with
      nvHrs := b.hrs, lives := ((b.nvPos, b.hrs, b.pcc) :: b.lives).take 2048, nvPos := (b.nvPos + 1) % 2048 })

/-- The operating hours of the newest lifetime record that reads good; 0 where none does (R19, R310). (DEDUCED, log
97, 169) -/
def committedHours (s : State) : Nat :=
  match s.tb.lives.find? (fun x => nvHolds s (x.1 / 128) (x.1 % 128) (lifetimeBytes x.2.1 x.2.2)) with
  | some x => x.2.1
  | none => 0

/-- The bytes of an entry of the RAS table, which the rules do not give. -/
def rasBytes (x : Bool × Nat × Nat) : List Nat :=
  (List.range 32).map fun i => (Config.rasByte x.1 x.2.1 x.2.2 i).toNat

/-- The Foreman records a page retirement or a soft spare row in the RAS table (R304, R305, R312). -/
def recordRas (row : Bool) (k u : Nat) (s : State) : State :=
  if nvClosed s then s
  else s |> ringAppend 16 (s.ras.table.length % 2048) (rasBytes (row, k, u))
    |> updRas (fun x => { x with table := x.table ++ [(row, k, u)] })

/-- The entries of the RAS table that read good (R304, R305, R310). (DEDUCED, log 97) -/
def rasEntries (s : State) : List (Bool × Nat × Nat) :=
  (((List.range s.ras.table.length).zip s.ras.table).filter fun x =>
    nvHolds s (x.1 % 2048 / 128 + 16) (x.1 % 128) (rasBytes x.2)).map (·.2)

/-- The words of a record (R369). -/
def recordWords (x : FaultRec) : List Nat :=
  [x.cls * 2 ^ 30 + x.src * 2 ^ 24 + x.event * 2 ^ 16 + x.unit, x.seq, x.ns % 2 ^ 32, x.ns / 2 ^ 32, x.hrs % 2 ^ 32,
   x.hrs / 2 ^ 32 * 2 ^ 24 + x.persist * 2 ^ 22 + b2n x.device * 2 ^ 21 + b2n x.fec * 2 ^ 20, x.pcc, x.detail]

/-- A record's 32 bytes. -/
def recordBytes (x : FaultRec) : List Nat := (recordWords x).flatMap (toBytes 4)

/-- The records of the fault log that read good, oldest first (R310, R372). (DEDUCED, log 97) -/
def logEntries (s : State) : List FaultRec :=
  let start := s.fm.logPos + 4096 - s.fm.log.length
  (((List.range s.fm.log.length).zip s.fm.log).filter fun x =>
    nvHolds s ((start + x.1) % 4096 / 128 + 32) ((start + x.1) % 128) (recordBytes x.2)).map (·.2)

/-- A record is appended to the fault log: on entering a sector that holds records, the oldest 128 are discarded
(R372). -/
def logAppend (x : FaultRec) (s : State) : State :=
  let pos := s.fm.logPos
  let wrap := pos % 128 == 0 && !nvErased s (32 + pos / 128) 0
  s |> ringAppend 32 pos (recordBytes x)
    |> updFm (fun f => { f with log := (if wrap then f.log.drop 128 else f.log) ++ [x], logPos := (pos + 1) % 4096 })

end Sys2Proof.Machine
end

