-- ==== Sys2Proof/Machine/FolioOps.lean ====
section
/-! DEFINITION. Folios as the boot ROM and the Foreman handle them: their slots in NVM, their format, the checks of
R350, and the loading of what they carry (R343 to R350, R352, R362). -/

namespace Sys2Proof.Machine

/-! ## Bytes -/

/-- The little-endian number of n bytes at offset o. -/
def le (bs : List Nat) (o n : Nat) : Nat := fromBytes ((bs.drop o).take n)

/-- The n bytes at offset o. -/
def cut (bs : List Nat) (o n : Nat) : List Nat := (bs.drop o).take n

/-- The n bytes at offset o are all 0. -/
def blank (bs : List Nat) (o n : Nat) : Bool := (cut bs o n).all (· == 0)

/-- SHA3-512 of a message, 64 bytes. -/
def sha3 (msg : List Nat) : List Nat := (List.range 64).map fun i => (Config.sha3Byte msg i).toNat

/-! ## The identity key (R348, R354) -/

/-- The seed of the identity key pair: the first 32 bytes of SHA3-512 of "ELN9256 identity" and the device secret
(R354). -/
def identitySeed : List Nat :=
  let name := [0x45, 0x4C, 0x4E, 0x39, 0x32, 0x35, 0x36, 0x20, 0x69, 0x64, 0x65, 0x6E, 0x74, 0x69, 0x74, 0x79]
  (sha3 (name ++ (List.range 32).map fun i => (Config.deviceSecret i).toNat)).take 32

/-- The identity public key (R354). -/
def identityKey : List Nat := (List.range 2592).map fun i => (Config.mldsaPublic identitySeed i).toNat

/-- The n-th signature by the identity key, of a message (R351, R354). -/
def identitySign (n : Nat) (msg : List Nat) : List Nat :=
  (List.range 4627).map fun i => (Config.mldsaSign identitySeed n msg i).toNat

/-! ## Targets and slots (R343, R344) -/

/-- The instances of a stored target. -/
def instances (t : Nat) : Nat :=
  match t with
  | 1 => 16
  | 3 => 32
  | 2 | 4 | 5 => 1
  | _ => 0

/-- The first logical sector of a slot (0 A, 1 B) and how many it has. -/
def slotSectors (t i slot : Nat) : Nat × Nat :=
  match t with
  | 1 => (788 + 36 * i + 18 * slot, 18)
  | 2 => (532 + 128 * slot, 128)
  | 3 => (1364 + 4 * i + 2 * slot, 2)
  | 4 => (1492 + 3 * slot, 3)
  | _ => (1498 + 3 * slot, 3)

/-- The largest folio of a target, bytes; no slot bounds one whose TARGET is no target. (DEDUCED, log 132) -/
def largestFolio (t : Nat) : Nat :=
  match t with
  | 1 => 72 * 1024
  | 2 => 512 * 1024
  | 3 => 8 * 1024
  | 4 | 5 | 6 | 7 => 12 * 1024
  | _ => 512 * 1024

/-- The directory record of a target and instance. -/
def dirOf (s : State) (t i : Nat) : DirRec := tget (fun _ => DirRec.init) s.frm.dir (64 * t + i)

/-- The fields of a directory record. -/
def slotFields (r : SlotRec) : List Nat := b2n r.valid :: r.version :: r.svn :: r.keyslot :: r.digest
def dirFields (x : DirRec) : List Nat := x.active :: x.state :: x.secs :: (slotFields x.a ++ slotFields x.b)

/-- The bytes of a change of the directory, which the rules do not give. -/
def dirBytes (key : Nat) (x : DirRec) : List Nat :=
  (List.range 32).map fun i => (Config.dirByte key (dirFields x) i).toNat

/-- One change is appended to the directory's sectors (R310, R312, R344). -/
def dirAppend (key : Nat) (x : DirRec) (s : State) : State :=
  let pos := s.frm.dirPos
  s |> ringAppend 528 pos (dirBytes key x)
    |> updFrm (fun f => { f with
      dirLog := ((pos, key, x) :: f.dirLog.filter (·.1 != pos)).take 512, dirPos := (pos + 1) % 512 })

/-- The newest change of a record stands in the sector of the directory that the next change enters at its start. -/
def dirMoves (s : State) (key : Nat) : Bool :=
  s.frm.dirPos % 128 == 0 &&
    match s.frm.dirLog.find? (·.2.1 == key) with
    | some x => x.1 / 128 == s.frm.dirPos / 128
    | none => false

/-- The Foreman writes a record's change: it is appended, and records that the erase of an entered sector takes with
it are appended again (R310, R344). (DEDUCED, log 97, 232) -/
def recordDir (key : Nat) (s : State) : State :=
  let moved := s.frm.dir.filter fun e => e.1 != key && dirMoves s e.1
  s |> dirAppend key (tget (fun _ => DirRec.init) s.frm.dir key) |> forAll moved (fun e s => dirAppend e.1 e.2 s)

/-- The directory takes a record. Only the Foreman writes it to its sectors: what the boot ROM changes waits for the
end of BOOT, and a SHUTDOWN with cause 4 writes none (R344, R401). (DEDUCED, log 232) -/
def setDir (t i : Nat) (x : DirRec) (s : State) : State :=
  let key := 64 * t + i
  let s := updFrm (fun f => { f with dir := tset (fun _ => DirRec.init) f.dir key x }) s
  if mode s = 1 || nvClosed s then updFrm (fun f => { f with dirDue := f.dirDue.filter (· != key) ++ [key] }) s
    else recordDir key s

/-- The Foreman writes the changes that the boot ROM made (R344). (DEDUCED, log 232) -/
def flushDir (s : State) : State := updFrm (fun f => { f with dirDue := [] }) (forAll s.frm.dirDue recordDir s)

/-- The directory as its sectors show it: of each record the newest change that reads good (R310, R344). (DEDUCED, log
97) -/
def loadDir (s : State) : State :=
  let good := s.frm.dirLog.filter fun x => nvHolds s (x.1 / 128 + 528) (x.1 % 128) (dirBytes x.2.1 x.2.2)
  updFrm (fun f => { f with dir := good.foldr (fun x t => tset (fun _ => DirRec.init) t x.2.1 x.2.2) [] }) s

/-- The record of one slot. -/
def DirRec.slot (x : DirRec) (k : Nat) : SlotRec := if k = 0 then x.a else x.b
def DirRec.setSlot (x : DirRec) (k : Nat) (r : SlotRec) : DirRec :=
  if k = 0 then { x with a := r } else { x with b := r }

/-- Every stored target and instance. -/
def storedFolios : List (Nat × Nat) :=
  [1, 2, 3, 4, 5].flatMap fun t => (List.range (instances t)).map fun i => (t, i)

/-- The first n bytes of consecutive logical sectors from sect on, and whether every codeword of them reads good. -/
def nvBytes (s : State) (sect n : Nat) : List Nat × Bool :=
  ((List.range n).map fun o => nvByte s (sect + o / 4096) (o % 4096),
    (List.range (ceilDiv n 32)).all fun c => nvGood s (sect + c / 128) (c % 128))

/-! ## The format (R345 to R347) -/

def fMagic (f : List Nat) : Nat := le f 0 4
def fHdrver (f : List Nat) : Nat := le f 4 2
def fTarget (f : List Nat) : Nat := le f 6 1
def fInst (f : List Nat) : Nat := le f 7 1
def fBodylen (f : List Nat) : Nat := le f 8 4
def fFlags (f : List Nat) : Nat := le f 0x0F 1
def fEntry (f : List Nat) : Nat := le f 0x10 4
def fPriv (f : List Nat) : Nat := le f 0x14 1
def fIlen (f : List Nat) : Nat := le f 0x18 4
def fDlen (f : List Nat) : Nat := le f 0x1C 4
def fMinfm (f : List Nat) : Nat := le f 0x20 4
def fRdyofs (f : List Nat) : Nat := le f 0x24 2
def fRdytmo (f : List Nat) : Nat := le f 0x26 2
def fSnaplo (f : List Nat) : Nat := le f 0x28 2
def fSnaphi (f : List Nat) : Nat := le f 0x2A 2
def fBody (f : List Nat) : List Nat := cut f 256 (fBodylen f)
def fColophon (f : List Nat) : List Nat := cut f (256 + fBodylen f) 7328
def fVersion (f : List Nat) : Nat := le (fColophon f) 4 4
def fSvn (f : List Nat) : Nat := le (fColophon f) 8 2
def fKeyslot (f : List Nat) : Nat := le (fColophon f) 0x0A 1
def fDigest (f : List Nat) : List Nat := cut (fColophon f) 0x10 64
def fPubkey (f : List Nat) : List Nat := cut (fColophon f) 0x50 2592

/-- The body's length is what R346 gives the target. (DEDUCED, log 132) -/
def bodyFits (f : List Nat) : Bool :=
  match fTarget f with
  | 1 => fBodylen f == fIlen f + fDlen f && decide (fIlen f ≤ 0x8000) && decide (fDlen f ≤ 0x8000)
  | 2 => decide (fBodylen f ≤ 516704)
  | 3 => fBodylen f == 64
  | 4 => fBodylen f == 4096
  | 5 => fBodylen f == 4352
  | 6 => fBodylen f == 2624
  | 7 => fBodylen f == 32
  | _ => true

/-- Fields that must be 0 are (R345, R347). (DEDUCED, log 132) -/
def zerosHold (f : List Nat) : Bool :=
  let t := fTarget f
  let c := fColophon f
  (fFlags f == 0 || (t == 3 && fFlags f == 1)) && (t == 1 || t == 2 || fEntry f == 0) &&
    (t == 1 || (blank f 0x14 1 && blank f 0x18 8 && blank f 0x24 4)) && decide (fPriv f ≤ 2) &&
    (t == 2 || blank f 0x28 4) && blank f 0x15 3 && blank f 0x2C 20 && blank c 0x0B 1 && blank c 0x1C83 29

/-- The parts of a body that must be 0 are (R346). (DEDUCED, log 132) -/
def bodyZeros (f : List Nat) : Bool :=
  let b := fBody f
  match fTarget f with
  | 3 => blank b 0x30 16
  | 5 => (List.range 32).all (fun r => blank b (0x800 + 32 * r + 28) 4) && blank b 0xC04 12 && blank b 0xD10 752 &&
      (List.range 16).all fun q => blank b (0x1000 + 16 * q + 7) 1
  | 6 => blank b 2592 32
  | 7 => blank b 1 31
  | _ => true

/-- The FORMAT check passes for a folio of n bytes (R350). (DEDUCED, log 132) -/
def formatHolds (f : List Nat) (n : Nat) : Bool :=
  decide (256 + 7328 ≤ n) && fMagic f == 0x4C4F464B && fHdrver f == 1 && fBodylen f % 32 == 0 &&
    n == 256 + fBodylen f + 7328 && decide (n ≤ largestFolio (fTarget f)) && le (fColophon f) 0 4 == 0x4C4F434B &&
    le (fColophon f) 0x0C 4 == 256 + fBodylen f && bodyFits f && zerosHold f && bodyZeros f

/-- The TARGET check passes (R350). -/
def targetHolds (f : List Nat) : Bool :=
  let t := fTarget f
  decide (1 ≤ t) && decide (t ≤ 7) && decide (fInst f < max 1 (instances t)) && le f 0x0C 2 == 0x9256 &&
    le f 0x0E 1 == 0xB1

/-! ## Keys (R348, R349) -/

/-- The digest that key slot k holds. -/
def slotDigest (s : State) (k : Nat) : List Nat :=
  if k = 4 then s.otp.ownerDigest else (List.range 64).map fun i => (Config.rootByte k i).toNat

/-- The folio's KEYSLOT is allowed for its target (R349). -/
def keyAllowed (s : State) (f : List Nat) : Bool :=
  let t := fTarget f
  let k := fKeyslot f
  if k = 4 then
    (t == 1 || t == 3 || t == 4 || t == 5) && s.otp.owner && bitAt (fld s Reg.SC_POLICY Fld.SC_POLICY_OWNTGT) t
  else decide (k < 4) && !bitAt s.otp.rev k && !(t == 7 && le (fBody f) 0 1 == k)

/-! ## Verification (R350) -/

/-- The result of the checks of R350 on a folio of n bytes; fm is the VERSION of the Foreman that will run it, and ok
tells whether every byte of it reads good. (DEDUCED, log 133) -/
def verifyFolio (s : State) (f : List Nat) (n fm : Nat) (ok : Bool) : Nat :=
  if !formatHolds f n then 1
  else if !targetHolds f then 2
  else if !keyAllowed s f || sha3 (fPubkey f) != slotDigest s (fKeyslot f) then 3
  else if !ok || sha3 (f.take (256 + fBodylen f)) != fDigest f then 4
  else if !Config.mldsaVerify (fPubkey f) (cut (fColophon f) 0 0xA70) (cut (fColophon f) 0xA70 4627) then 5
  else if fSvn f < s.otp.arb then 6
  else if (if fTarget f = 2 then fVersion f else fm) < fMinfm f then 7
  else 0

/-- The folio that stands in sectors from sect on, of at most count sectors, and whether it reads good. -/
def storedFolio (s : State) (sect count : Nat) : List Nat × Nat × Bool :=
  let hdr := (nvBytes s sect 256).1
  let n := min (count * 4096) (256 + fBodylen hdr + 7328)
  let (f, ok) := nvBytes s sect n
  (f, n, ok)

/-- The Foreman or the boot ROM reads the folio in sectors from sect on (R309). -/
def readFolio (sect count : Nat) (s : State) : State :=
  nvTouch 128 sect (ceilDiv (storedFolio s sect count).2.1 32) s

/-- The RESULT of the checks of R350, at boot, on the folio in slot k of target t, instance i. -/
def slotResult (s : State) (t i k fm : Nat) : Nat :=
  let (f, n, ok) := storedFolio s (slotSectors t i k).1 (slotSectors t i k).2
  let r := verifyFolio s f n fm ok
  if r = 1 ∨ (fTarget f = t ∧ fInst f = i) then r else 2

/-- The folio in slot k of target t, instance i, where it verifies at boot (R350). -/
def slotVerifies (s : State) (t i k fm : Nat) : Option (List Nat) :=
  if slotResult s t i k fm = 0 then some (storedFolio s (slotSectors t i k).1 (slotSectors t i k).2).1 else none

/-- The golden Foreman image, where it verifies (R343, R353). -/
def goldenVerifies (s : State) : Option (List Nat) :=
  let (f, n, ok) := storedFolio s 400 128
  if verifyFolio s f n 0 ok = 0 ∧ fTarget f = 2 then some f else none

/-! ## Loading (R301, R346, R352, R362) -/

/-- A whole bank, or a part of one in whole granules, is written: the bytes from address a on, zeros after them, every
word written and every granule marked (R301). -/
def fillMemory (k a n : Nat) (bytes : List Nat) (s : State) : State :=
  let gs := (granulesOf k).filter fun g => decide (a ≤ granuleBase g) && decide (granuleBase g < a + n)
  let out := fun (x : Nat) => !(decide (a ≤ x) && decide (x < a + n))
  let data := ((List.range (min n bytes.length)).zip bytes).foldl
    (fun t x => tset (fun _ => 0#8) t (a + x.1) (BitVec.ofNat 8 x.2)) (s.mem.filter fun c => out c.1)
  let s := { s with mem := data }
  let s := updRas (fun x => { x with
    filled := gs.foldl (fun t g => tset (fun _ => false) t g true) x.filled,
    flips := x.flips.filter (fun e => out (e.1 * 8)), upset := x.upset.filter (fun e => out (e.1 * 8)) }) s
  forAll gs (fun g s => setMark g true s) s

/-- An engine image goes into the memories of engine e, from slot k, with its ENTRY and PRIV (R346). -/
def loadImage (e image k : Nat) (f : List Nat) (s : State) : State :=
  let body := fBody f
  s |> fillMemory e (bankBase e) 0x8000 (body.take (fIlen f))
    |> fillMemory e (0x8000 + bankBase e) 0x8000 (body.drop (fIlen f))
    |> updEng e (fun y => { y with image := image + 1, slot := k, entry := fEntry f % 0x8000, epriv := fPriv f })

/-- The RT_ words of rail r in a rail table's body (R346). -/
def railWords (body : List Nat) (r : Nat) : List Nat := (List.range 16).map fun i => le body (64 * r + 4 * i) 4

/-- Rail r's RT_ words are written: words 1 to 3 hold no register (R73, R330). -/
def writeRailWords (r : Nat) (ws : List (Nat × Nat)) (s : State) : State :=
  forAll ws (fun x s => plainWrite (Reg.RT_CFG r + 4 * x.1) x.2 s) s

/-- The slot values of rail r in a rail table's body are written (R346). -/
def writeSlotValues (body : List Nat) (r : Nat) (s : State) : State :=
  let q := homeOf r
  let l := slotOf r
  let w := fun j => le body (0x800 + 32 * r + 4 * j) 4
  s |> plainWrite (Reg.LU_IFS q l) (w 0) |> plainWrite (Reg.LU_IHI q l) (w 1) |> plainWrite (Reg.LU_ILO q l) (w 2)
    |> plainWrite (Reg.LU_RCTRL q l) (w 3) |> plainWrite (Reg.LU_BURST q l) (w 4)
    |> imCtrlWrite r (w 5) |> plainWrite (Reg.LU_IM_LIMIT q l) (w 6)

/-- The sequencing table of a rail table's body is written (R394). -/
def writeSequence (body : List Nat) (s : State) : State :=
  let s := plainWrite Reg.SM_SEQHDR (le body 0xC00 4) s
  forAll (List.range 32) (fun j s =>
    s |> plainWrite (Reg.SM_SEQ0 j) (le body (0xC10 + 8 * j) 4)
      |> plainWrite (Reg.SM_SEQ1 j) (le body (0xC14 + 8 * j) 4)) s

/-- The coefficient words of a set's body go into bank k of rail r's slot (R346). -/
def writeCoef (body : List Nat) (r k : Nat) (s : State) : State :=
  forAll (List.range 11) (fun m s => wr (Reg.LU_COEF (homeOf r) (slotOf r) k m) (le body (4 + 4 * m) 4) s) s

/-- The engine plan of a rail table's body, and byte j of quire q's part. -/
def planOf (body : List Nat) : List Nat := cut body 0x1000 256
def planByte (s : State) (q j : Nat) : Nat := nthD 0xFF s.frm.plan (16 * q + j)

end Sys2Proof.Machine
end

