-- ==== Sys2Proof/Machine/Pwm.lean ====
section
/-! DEFINITION. The PWM channels' commands: staging and loads, modes, periods and edges, dead time, calibration and the
clearing of trips (R96 to R122). -/

namespace Sys2Proof.Machine

/-- Instant e, 1/256 ns, has been reached. -/
def reached (s : State) (e : Nat) : Bool := decide (e / 256 ≤ now s)

/-- An event scheduled at instant e, kept as e + 1, has been reached. -/
def dueAt (s : State) (e : Nat) : Bool := e != 0 && reached s (e - 1)

/-! ## Staging and loads (R102 to R107) -/

/-- A software write of v to a staged register at a of channel n, with its STGMASK field f; an owned channel ignores it
(R103, R105). -/
def stageWrite (n a : Nat) (f : Bits) (v : Nat) (s : State) : State :=
  if owned s n then pwmWref n s
  else setFlag (Reg.PW_STGMASK (quireOf n) (localOf n)) f true (plainWrite a v s)

def perStage (n v : Nat) (s : State) : State :=
  stageWrite n (Reg.PW_PER_STG (quireOf n) (localOf n)) Fld.PW_STGMASK_PER v s
def onStage (n v : Nat) (s : State) : State :=
  stageWrite n (Reg.PW_ON_STG (quireOf n) (localOf n)) Fld.PW_STGMASK_ON v s
def ofsStage (n v : Nat) (s : State) : State :=
  stageWrite n (Reg.PW_OFS_STG (quireOf n) (localOf n)) Fld.PW_STGMASK_OFS v s

/-- PER_STG_WRITE (R103). -/
def execPerStgWrite (m : Master) (n : Fin 256) (v : BitVec 32) (s : State) : Out :=
  regWriteBy m (Reg.PW_PER_STG (quireOf n) (localOf n)) s (perStage n v.toNat s)
/-- ON_STG_WRITE (R103). -/
def execOnStgWrite (m : Master) (n : Fin 256) (v : BitVec 32) (s : State) : Out :=
  regWriteBy m (Reg.PW_ON_STG (quireOf n) (localOf n)) s (onStage n v.toNat s)
/-- OFS_STG_WRITE (R103). -/
def execOfsStgWrite (m : Master) (n : Fin 256) (v : BitVec 32) (s : State) : Out :=
  regWriteBy m (Reg.PW_OFS_STG (quireOf n) (localOf n)) s (ofsStage n v.toNat s)

/-- A load-all is torn for channel n (R104). -/
def torn (s : State) (n : Nat) : Bool :=
  let a := Reg.PW_STGMASK (quireOf n) (localOf n)
  flag s a Fld.PW_STGMASK_PER && !flag s a Fld.PW_STGMASK_ON

/-- The three staged words of channel n. -/
def stagedPer (s : State) (n : Nat) : Nat := rd s (Reg.PW_PER_STG (quireOf n) (localOf n))
def stagedOn (s : State) (n : Nat) : Nat := rd s (Reg.PW_ON_STG (quireOf n) (localOf n))
def stagedOfs (s : State) (n : Nat) : Nat := rd s (Reg.PW_OFS_STG (quireOf n) (localOf n))

/-- What a software load-all does for channel n: ignored when owned, checked for a torn load, then f (R104, R105).
(DESIGN CHOICE, log 219) -/
def checkedLoad (n : Nat) (f : State → State) (s : State) : State :=
  let q := quireOf n
  if owned s n then pwmWref n s
  else if torn s n then
    if flag s (Reg.PW_CTRL q) Fld.PW_CTRL_STRICT then
      raiseWord (Reg.PW_TORN q) (2 ^ (Fld.PW_TORN_REFUSED.lo + localOf n)) s
    else
      f (raiseWord (Reg.PW_TORN q) (2 ^ (Fld.PW_TORN_WARN.lo + localOf n)) s)
  else f s

/-- Channel n's staged words go to its load buffer (R102, R103). -/
def loadChan (n : Nat) (s : State) : State := loadBuffer n (stagedPer s n) (stagedOn s n) (stagedOfs s n) s

/-- PW_LOADALL without IMM for the channels of mask (R103). -/
def loadAll (q mask : Nat) (s : State) : State :=
  forAll (ones 16 mask) (fun p s => checkedLoad (16 * q + p) (loadChan (16 * q + p)) s) s

/-- LOADALL (R103). -/
def execLoadall (m : Master) (q : Fin 16) (mask : BitVec 16) (s : State) : Out :=
  regWriteBy m (Reg.PW_LOADALL q) s (loadAll q mask.toNat s)

/-! ## Periods (R98 to R101, R106, R109, R111, R112, R118, R119) -/

/-- The period, the offset and the reference that a walk leaves to its channel (R80, R106): the loads of the walk
carry FREE = 1, and after it the channel stands on the lattice. (DEDUCED, log 31) -/
def leaveWalk (c : Chan) : Chan :=
  let c := { c with walk := 0 }
  if freeOf c.actPer then { c with actPer := c.walkT % 2 ^ 28, actOfs := c.walkU } else c

/-- The timeline at a reload at x: a walk goes on or ends, the buffer becomes active, and the next period's length
follows (R98, R99, R103, R106). The length is answered. (DEDUCED, log 31) -/
def reloadPeriod (n x : Nat) (s : State) : State × Nat :=
  let s := takeBuffer n x s
  let c := chanOf s n
  if c.walk != 0 && decide (c.walk < c.walkK) then
    let s := updChan n (fun c => { c with walk := c.walk + 1 }) s
    (s, walkLen (chanOf s n) (chanOf s n).walk)
  else
    let s := if c.walk != 0 then updChan n leaveWalk s else s
    let c := chanOf s n
    let per := perOf c.actPer
    (s, if freeOf c.actPer || per == 0 then per else latticeLen (chanRef s n) (ofsOf c.actOfs) per x)

/-- Channel n reloads at x: the next period starts (R98). -/
def reloadAt (n x : Nat) (s : State) : State :=
  let (s, len) := reloadPeriod n x (reloadActs n s)
  beginPeriod n x len (onOf (chanOf s n).actOn) (showRef n (chanRef s n) (settlePort n s))

/-- A reload of channel n has come. -/
def reloadDue (s : State) (n : Nat) : Bool :=
  let c := chanOf s n
  c.live && reached s (c.s + c.len)

/-- PWM_RELOAD (R98). -/
def execPwmReload (n : Fin 256) (s : State) : Out :=
  live (reloadDue s n) s (reloadAt n ((chanOf s n).s + (chanOf s n).len) s)

/-- The first period of channel n has come (R100). -/
def firstDue (s : State) (n : Nat) : Bool :=
  !(chanOf s n).live && pwmMode s n != 0 && dueAt s (chanOf s n).first

/-- The first period starts from the load buffer (R100, R103). -/
def firstPeriod (n : Nat) (s : State) : State :=
  let x := (chanOf s n).first - 1
  let s := updChan n (fun c => { c with
    live := true, first := 0, bufNs := if c.bufNew then 0 else c.bufNs }) s
  reloadAt n x s

/-- CHANNEL_FIRST_PERIOD (R100). -/
def execChannelFirstPeriod (n : Fin 256) (s : State) : Out := live (firstDue s n) s (firstPeriod n s)

/-- An on-edge the guard holds has come (R108). -/
def guardDue (s : State) (n : Nat) : Bool :=
  dueAt s (chanOf s n).pendHs || dueAt s (chanOf s n).pendLs

/-- The held on-edge reaches the pins (R108). -/
def guardEdge (n : Nat) (s : State) : State :=
  updChan n (fun c =>
    if dueAt s c.pendHs then { c with hs := true, pendHs := 0 } else { c with ls := true, pendLs := 0 }) s

/-- GUARD_ON_EDGE (R108). -/
def execGuardOnEdge (n : Fin 256) (s : State) : Out := live (guardDue s n) s (guardEdge n s)

/-- The HS pulse of the period ends: LS follows after the dead time where its pulse is not suppressed (R98, R109). -/
def hsEnd (n : Nat) (s : State) : State :=
  updChan n (fun c =>
    let x := c.endHs - 1
    let c := { hsOffAt x c with endHs := 0, pendHs := 0 }
    if c.lsNext then
      (if deadTime s n = 0 then { c with ls := true, lsNext := false }
        else { c with pendLs := x + deadTime s n + 1, lsNext := false })
    else c) s

/-- HS_OFF_EDGE (R98). -/
def execHsOffEdge (n : Fin 256) (s : State) : Out := live (dueAt s (chanOf s n).endHs) s (hsEnd n s)

/-! ## Immediate loads (R107) -/

/-- The new on-time applies to the present period: an HS pulse that is on or pending ends at the later of its new end
and b; one that would be shorter than the shortest pulse is suppressed, and LS goes on as R109 says. R107 does not
name a period whose HS pulse was suppressed at its reload: nothing changes in it until its end. (DESIGN CHOICE, log
185) -/
def shortenPulse (dt wmin : Nat) (lsen : Bool) (b on : Nat) (c : Chan) : Chan :=
  if !c.hs && c.pendHs == 0 then c
  else
    let e := max (c.s + on) b
    let whole := decide (c.s + c.len ≤ e)
    if c.pendHs != 0 && !whole && decide (e < c.pendHs - 1 + wmin) then
      let c := { c with on := on, pendHs := 0, endHs := 0, lsNext := false }
      let t := max b (c.hsOff + dt)
      if lsen && decide (t + wmin ≤ c.s + c.len) then { c with pendLs := t + 1 } else c
    else if whole then { c with on := on, endHs := 0, lsNext := false }
    else { c with on := on, endHs := e + 1, lsNext := lsen && decide (e + dt + wmin ≤ c.s + c.len) }

/-- An immediate load of channel n taken now (R107). (DEDUCED, log 32; DESIGN CHOICE, log 221) -/
def immediateChan (n : Nat) (s : State) : State :=
  let per := stagedPer s n
  let on := stagedOn s n
  let ofs := stagedOfs s n
  let c := chanOf s n
  if perOf per < 32000 ∨ c.live = false then loadBuffer n per on ofs s
  else
    let b := fine s + 256
    let s := updChan n (fun c => { c with bufNs := 0 }) (loadBuffer n per on ofs s)
    if b + perOf per < c.s + c.len then
      let s := updChan n (fun c => { c with actPer := per, actOn := on, actOfs := ofs, bufNew := false, walk := 0 })
        (reloadActs n s)
      beginPeriod n b (perOf per) (onOf on) (settlePort n s)
    else if quietPins s n c then s
    else
      let s := updChan n (shortenPulse (deadTime s n) (minPulse s n) (lsEnabled s n) b (onOf on)) s
      updChan n (fun c => { c with actOn := on }) (wr (Reg.PW_ON (quireOf n) (localOf n)) on s)

/-- PW_LOADALL with IMM = 1 for the channels of mask (R107). -/
def immediateLoad (q mask : Nat) (s : State) : State :=
  forAll (ones 16 mask) (fun p s => checkedLoad (16 * q + p) (immediateChan (16 * q + p)) s) s

/-- IMMEDIATE_LOAD (R107). -/
def execImmediateLoad (m : Master) (q : Fin 16) (mask : BitVec 16) (s : State) : Out :=
  regWriteBy m (Reg.PW_LOADALL q) s (immediateLoad q mask.toNat s)

/-! ## Modes and the software timeline (R96, R99, R100, R105) -/

/-- Channel n's MODE becomes md: MODE 0 turns both sides off, stops the timeline and swaps complete shadow lines in,
and a channel that starts waits for its first period (R96, R100, R112, R121). (DEDUCED, log 30) -/
def setMode (n md : Nat) (s : State) : State :=
  let was := pwmMode s n
  let s := setFld (Reg.PW_CFG (quireOf n) (localOf n)) Fld.PW_CFG_MODE md s
  let s := if md = 0 then
      (if was = 0 then s
        else updChan n (fun c => { c with forced := if c.forced = .none then .none else .bothOff })
          (swapLines n (stopChan n s)))
    else armFirst n s
  settlePort n s

/-- A write of v to PW_CFG of channel n. MODE is ignored where it is 3 and on an owned channel; an ignored change of
MODE sets WREF (R96, R105). (DEDUCED, log 29) -/
def cfgWrite (n v : Nat) (s : State) : State :=
  let a := Reg.PW_CFG (quireOf n) (localOf n)
  let was := pwmMode s n
  let md := getBits v Fld.PW_CFG_MODE
  let s := setFld a Fld.PW_CFG_MODE was (plainWrite a v s)
  if md = 3 ∨ (owned s n = true ∧ md ≠ was) then pwmWref n s else setMode n md s

/-- MODE_WRITE (R96). -/
def execModeWrite (m : Master) (n : Fin 256) (v : BitVec 32) (s : State) : Out :=
  regWriteBy m (Reg.PW_CFG (quireOf n) (localOf n)) s (cfgWrite n v.toNat s)

/-- A write of v to PW_TLREF_LO commits the software timeline (R99, R122). -/
def tlrefCommit (q v : Nat) (s : State) : State :=
  let s := wr (Reg.PW_TLREF_LO q) v s
  { s with tlrefs := tset (fun _ => 0) s.tlrefs q (rd s (Reg.PW_TLREF_HI q) * 2 ^ 32 + v) }

/-- TLREF_COMMIT (R99). -/
def execTlrefCommit (m : Master) (q : Fin 16) (v : BitVec 32) (s : State) : Out :=
  regWriteBy m (Reg.PW_TLREF_LO q) s (tlrefCommit q v.toNat s)

/-! ## Dead-time adaptation (R111) -/

/-- A write of v to PW_DTA of channel n (R111). -/
def dtaWrite (n v : Nat) (s : State) : State :=
  let q := quireOf n
  let p := localOf n
  let a := Reg.PW_DTA q p
  if getBits v Fld.PW_DTA_DTMAX < getBits v Fld.PW_DTA_DTMIN then raiseFlag a Fld.PW_DTA_BADBND s
  else
    let was := flag s a Fld.PW_DTA_EN
    let s := plainWrite a v s
    if !was && flag s a Fld.PW_DTA_EN then
      updChan n (fun c => { c with dtNext := dtClamp s n (fld s (Reg.PW_DT q p) Fld.PW_DT_DT) + 1 }) s
    else s

/-- DTA_WRITE (R111). -/
def execDtaWrite (m : Master) (n : Fin 256) (v : BitVec 32) (s : State) : Out :=
  regWriteBy m (Reg.PW_DTA (quireOf n) (localOf n)) s (dtaWrite n v.toNat s)

/-- A stage's switch-node observation of channel n (R111): LONG shortens the dead time, SHORT or both lengthen it, and
a change past a bound is held and counted. (DEDUCED, log 33) -/
def deadObserve (n obs : Nat) (s : State) : State :=
  let q := quireOf n
  let p := localOf n
  let cur := Reg.PW_DTCUR q p
  let s := setFld cur Fld.PW_DTCUR_OBS obs s
  let a := Reg.PW_DTA q p
  if obs % 4 = 0 ∨ flag s a Fld.PW_DTA_EN = false ∨ pwmMode s n ≠ 1 ∨ lsEnabled s n = false then s
  else
    let c := chanOf s n
    let dt : Int := if c.dtNext = 0 then deadTime s n else ((c.dtNext - 1 : Nat) : Int)
    let step : Int := fld s (Reg.PW_DT q p) Fld.PW_DT_STEP
    let new := if obs % 4 = 1 then dt - step else dt + 4 * step
    if new < fld s a Fld.PW_DTA_DTMIN ∨ (fld s a Fld.PW_DTA_DTMAX : Int) < new then
      incFld (Reg.PW_DTOPP q p) wordBits (setFlag cur Fld.PW_DTCUR_HELD true s)
    else setFlag cur Fld.PW_DTCUR_HELD false (updChan n (fun c => { c with dtNext := new.toNat + 1 }) s)

/-- DTOPP_CLEAR (R122). -/
def execDtoppClear (m : Master) (n : Fin 256) (s : State) : Out :=
  regWriteBy m (Reg.PW_DTOPP (quireOf n) (localOf n)) s (wr (Reg.PW_DTOPP (quireOf n) (localOf n)) 0 s)

/-! ## Trips (R115 to R119) -/

/-- An enabled source asserts while the latch is clear (R115). (DESIGN CHOICE, log 35) -/
def tripDue (s : State) (n : Nat) : Bool := !latched s n && tripSources s n != 0

/-- TRIP_ASSERT (R116). -/
def execTripAssert (n : Fin 256) (s : State) : Out := live (tripDue s n) s (tripChan n (tripSources s n) s)

/-- A refused clear of channel n (R118). -/
def clearRefused (n : Nat) (s : State) : State :=
  raiseFlag (Reg.PW_TSTAT (quireOf n) (localOf n)) Fld.PW_TSTAT_CLRREF s

/-- PW_TCLR.CLR = 1 (R118, R119). -/
def tripClear (n : Nat) (s : State) : State :=
  if latchOff s n then s
  else if tripSources s n != 0 then clearRefused n s
  else if latched s n then settlePort n (unlatch n false s)
  else s

/-- TRIP_CLEAR (R118). -/
def execTripClear (m : Master) (n : Fin 256) (s : State) : Out :=
  regWriteBy m (Reg.PW_TCLR (quireOf n) (localOf n)) s (tripClear n s)

/-- PW_TCLR.LOFF = 1 (R119). -/
def loffClear (n : Nat) (s : State) : State :=
  if tripSources s n != 0 then clearRefused n s else settlePort n (clearLatchOff n s)

/-- LOFF_CLEAR (R119). -/
def execLoffClear (m : Master) (n : Fin 256) (s : State) : Out :=
  regWriteBy m (Reg.PW_TCLR (quireOf n) (localOf n)) s (loffClear n s)

/-- QUIET x 64 quiet periods have passed (R119). -/
def quietDue (s : State) (n : Nat) : Bool :=
  let q := quireOf n
  let p := localOf n
  fld s (Reg.PW_TSTAT q p) Fld.PW_TSTAT_RCNT != 0 &&
    decide (max 1 (fld s (Reg.PW_TRIP q p) Fld.PW_TRIP_QUIET) * 64 ≤ (chanOf s n).quiet)

/-- RCNT_QUIET_RESET (R119). -/
def execRcntQuietReset (n : Fin 256) (s : State) : Out :=
  live (quietDue s n) s (setFld (Reg.PW_TSTAT (quireOf n) (localOf n)) Fld.PW_TSTAT_RCNT 0 s)

/-- TCNT_CLEAR (R122). -/
def execTcntClear (m : Master) (n : Fin 256) (s : State) : Out :=
  regWriteBy m (Reg.PW_TCNT (quireOf n) (localOf n)) s (wr (Reg.PW_TCNT (quireOf n) (localOf n)) 0 s)

/-! ## Calibration (R112, R114) -/

/-- The calibrator has finished shadow line g of channel n: its map is complete with the given residual, or it fails,
which the second time is reported. A channel in MODE 0 or parked swaps at once. -/
def calMap (n g : Nat) (ok : Bool) (resid : Nat) (s : State) : State :=
  let q := quireOf n
  let c := chanOf s n
  if ok then
    let s := setFld (Reg.PW_CAL q) Fld.PW_CAL_RESID resid s
    let s := updChan n (fun c => { c with
      shadow := c.shadow ||| 2 ^ g, calRetry := c.calRetry &&& (3 ^^^ 2 ^ g) }) s
    if pwmMode s n = 0 ∨ parkOf c.actOn = true then swapLines n s else s
  else if bitAt c.calRetry g then
    updChan n (fun c => { c with calRetry := c.calRetry &&& (3 ^^^ 2 ^ g) }) s
      |> raiseFlag (Reg.PW_CAL q) Fld.PW_CAL_CALERR |> setFld (Reg.PW_CAL q) Fld.PW_CAL_CHAN (localOf n)
      |> report { src := 0x11, event := 3, cls := 2, unit := n, persist := 2 }
  else updChan n (fun c => { c with calRetry := c.calRetry ||| 2 ^ g }) s

/-- CAL_MAP_COMPLETE (R112): of generator g (0 HS, 1 LS) of channel n. -/
def execCalMapComplete (n : Fin 256) (g : Fin 2) (ok : Bool) (resid : BitVec 8) (s : State) : Out :=
  live (!calFrozen s (quireOf n)) s (calMap n g ok resid.toNat s)

end Sys2Proof.Machine
end

