-- ==== Sys2Proof/Machine/Sense.lean ====
section
/-! DEFINITION. The sensing commands: aggregate samples, sequence tables, filters, slices, the cross-check, the window
comparators and the current windows (R123 to R145). Samples are in LSB / 655,360,000, which holds every correction
exactly; outputs are in 1/256 LSB. -/

namespace Sys2Proof.Machine

/-! ## Sequence tables and streams (R125 to R128) -/

/-- An entry of a sequence table: input, WIDE and FILT. -/
def entInput (w : Nat) : Nat := getBits w Fld.AD_SEQ_INPUT
def entWide (w : Nat) : Nat := getBits w Fld.AD_SEQ_WIDE
def entFilt (w : Nat) : Nat := getBits w Fld.AD_SEQ_FILT

/-- The stream an entry belongs to: its input and range (R126). -/
def entStream (w : Nat) : Nat := 2 * entInput w + entWide w

/-- The active length of converter c of quire q (R126). -/
def seqLen (s : State) (q c : Nat) : Nat := 2 ^ fld s (Reg.AD_LEN q c) Fld.AD_LEN_ACTIVE

/-- The entries of the active table within its length. -/
def activeTable (s : State) (q c : Nat) : List Nat := (List.range (seqLen s q c)).map fun e => rd s (Reg.AD_SEQ q c e)

/-- The staged length, and the entries of the staged table within it (R127, R144). -/
def stagedLog (s : State) (q c : Nat) : Nat := min 4 (fld s (Reg.AD_LEN q c) Fld.AD_LEN_STAGED)
def stagedTable (s : State) (q c : Nat) : List Nat :=
  (List.range (2 ^ stagedLog s q c)).map fun e => rd s (Reg.AD_SEQ_STG q c e)

/-- The slots of a table that belong to stream k, rising. -/
def streamSlots (tab : List Nat) (k : Nat) : List Nat :=
  (List.range tab.length).filter fun e => entStream (nthD 0 tab e) == k

/-- The slots of stream k repeated over 16 positions: two tables of any lengths place the stream alike where these are
the same. -/
def streamPositions (tab : List Nat) (k : Nat) : List Nat :=
  (List.range 16).filter fun e => entStream (nthD 0 tab (e % tab.length)) == k

/-- The filter unit of an entry of converter c: F0 for the stream of entry 0, else that of its FILT, none for 0
(R126). -/
def entUnit (tab : List Nat) (w : Nat) : Option Nat :=
  if entStream w = entStream (nthD 0 tab 0) then some 0
  else if entFilt w = 0 then none
  else some (entFilt w)

/-- The stream that feeds filter unit f of a table, if one does. -/
def unitStream (tab : List Nat) (f : Nat) : Option Nat :=
  (tab.find? fun w => entUnit tab w == some f).map entStream

/-- A stream's entries are equally spaced over the table (R127). -/
def equallySpaced (tab : List Nat) (k : Nat) : Bool :=
  let es := streamSlots tab k
  let m := es.length
  m != 0 && tab.length % m == 0 &&
    (List.range m).all fun i => nthD 0 es i == nthD 0 es 0 + i * (tab.length / m)

/-- A filter unit's decimation D (R133). -/
def unitD (s : State) (q c f : Nat) : Nat := 2 ^ fld s (Reg.AD_FCFG q c f) Fld.AD_FCFG_LOG2D

/-- D x s, in ns, of a stream with m of len entries does not divide the tick (R127, R133). -/
def badDecimation (d len m tick : Nat) : Bool := tick * m % (d * 2 * len) != 0

/-- Check 4, SPACING, of one staged table (R127). -/
def badSpacing (s : State) (q c : Nat) (tab : List Nat) : Bool :=
  tab.any (fun w => match entUnit tab w with
    | none => tab.any fun v => entStream v == entStream w && entFilt v != entFilt w
    | some f =>
      !equallySpaced tab (entStream w) ||
      (f != 0 && tab.any fun v => entStream v == entStream w && entFilt v != entFilt w) ||
      tab.any (fun v => entUnit tab v == some f && entStream v != entStream w) ||
      badDecimation (unitD s q c f) tab.length (streamSlots tab (entStream w)).length (tickNs s q))

/-- An entry names what check 3 forbids (R127). -/
def badEntry (w : Nat) : Bool := decide (8 < entInput w) || (entWide w == 0 && decide (1 < entInput w))

/-- A table holds input i in the wide range. -/
def holdsWide (tab : List Nat) (i : Nat) : Bool := tab.any fun w => entInput w == i && entWide w == 1

/-- Check 7, COVER, for staged tables a and b (R127). (DEDUCED, log 40) -/
def badCover (s : State) (q : Nat) (a b : List Nat) : Bool :=
  let tab := fun c => if c = 0 then a else b
  !(holdsWide a 0 || holdsWide a 1 || holdsWide b 0 || holdsWide b 1) ||
  !(tab (fld s (Reg.AD_CTRL q) Fld.AD_CTRL_VINC)).any (fun w => entInput w == 2) ||
  (List.range 16).any (fun p =>
    let m := Reg.AD_AUXMAP q p
    auxAssigned s (16 * q + p) && owned s (16 * q + p) &&
      !holdsWide (tab (fld s m Fld.AD_AUXMAP_CONV)) (3 + fld s m Fld.AD_AUXMAP_AUX)) ||
  [0, 1].any (fun l =>
    railState s (2 * q + l) != 0 && (tableHolds s q 0 l 1 || tableHolds s q 1 l 1) &&
      !holdsWide a l && !holdsWide b l)

/-- The result of the checks of a commit, in their order (R127). -/
def seqCheck (s : State) (q : Nat) : Nat :=
  let a := stagedTable s q 0
  let b := stagedTable s q 1
  let t := tickNs s q
  if flag s (Reg.AD_SEQST q) Fld.AD_SEQST_BUSY then 1
  else if t < 2 * a.length ∨ t < 2 * b.length then 2
  else if a.any badEntry ∨ b.any badEntry then 3
  else if badSpacing s q 0 a ∨ badSpacing s q 1 b then 4
  else if [0, 1].any (fun c =>
      railState s (2 * q + c) != 0 &&
        streamPositions (if c = 0 then a else b) (2 * c) != streamPositions (activeTable s q c) (2 * c)) then 5
  else if flag s (Reg.AD_CHK q) Fld.AD_CHK_EN && (a.length != b.length ||
      (List.range a.length).any fun e => (entInput (nthD 0 a e) == 8) != (entInput (nthD 0 b e) == 8)) then 6
  else if badCover s q a b then 7
  else 0

/-- AD_SEQCMT.COMMIT = 1: refused, or the staged tables wait for their tick instant (R127). -/
def seqCommit (q : Nat) (s : State) : State :=
  let r := seqCheck s q
  let s := setFld (Reg.AD_SEQST q) Fld.AD_SEQST_RESULT r s
  if r != 0 then s
  else
    let t := tickNs s q
    let tab := fun c => (List.range 16).map fun e => rd s (Reg.AD_SEQ_STG q c e)
    setFlag (Reg.AD_SEQST q) Fld.AD_SEQST_BUSY true (updSense q (fun x => { x with
      commitAt := ceilDiv (s.tb.ns + 64) t * t + 1, committed := tab 0 ++ tab 1,
      lenA := stagedLog s q 0, lenB := stagedLog s q 1 }) s)

/-- SEQ_COMMIT (R127). -/
def execSeqCommit (m : Master) (q : Fin 16) (s : State) : Out := regWriteBy m (Reg.AD_SEQCMT q) s (seqCommit q s)

/-- Filter unit f of converter c of quire q restarts (R133). (DEDUCED, log 37) -/
def restartUnit (q c f : Nat) (s : State) : State :=
  setFlag (Reg.AD_FOUT q c f) Fld.AD_FOUT_VALID false (updConv (2 * q + c) (fun x => { x with
    units := tset (fun _ => Filter.init) x.units f
      { tget (fun _ => Filter.init) x.units f with hist := [], count := 0 } }) s)

/-- AD_STAT.SHORT follows the active lengths and the tick (R128). -/
def showShort (q : Nat) (s : State) : State :=
  forAll [0, 1] (fun c s =>
    setFlag (Reg.AD_STAT q c) Fld.AD_STAT_SHORT (decide (tickNs s q < 2 * seqLen s q c)) s) s

/-- The committed table of converter c becomes active: streams whose positions change begin anew, and their filter
units restart (R127, R129, R133). -/
def activateTable (q c log : Nat) (tab : List Nat) (s : State) : State :=
  let old := activeTable s q c
  let new := tab.take (2 ^ log)
  let moved := fun k => streamPositions old k != streamPositions new k
  let units := (List.range 4).filter fun f =>
    unitStream old f != unitStream new f || (match unitStream new f with | some k => moved k | none => false)
  let s := forAll ((List.range 16).zip tab) (fun y s => wr (Reg.AD_SEQ q c y.1) y.2 s) s
  let s := setFld (Reg.AD_LEN q c) Fld.AD_LEN_ACTIVE log s
  let s := updConv (2 * q + c) (fun x => { x with
    prev := x.prev.filter fun e => !moved (if 32 ≤ e.1 then 17 else e.1) }) s
  forAll units (restartUnit q c) s

/-- Both committed tables become active (R127). -/
def activateTables (q : Nat) (s : State) : State :=
  let x := senseOf s q
  s |> activateTable q 0 x.lenA (x.committed.take 16) |> activateTable q 1 x.lenB (x.committed.drop 16)
    |> setFlag (Reg.AD_SEQST q) Fld.AD_SEQST_BUSY false |> showShort q
    |> updSense q (fun x => { x with commitAt := 0, committed := [] })

/-- SEQ_TABLE_ACTIVATE (R127). -/
def execSeqTableActivate (q : Fin 16) (s : State) : Out :=
  live ((senseOf s q).commitAt != 0 && decide ((senseOf s q).commitAt ≤ now s + 1)) s (activateTables q s)

/-! ## Filters (R133) -/

/-- Sums of d neighbours of a list, one for each place that has d of them. -/
def windowSums (d : Nat) (xs : List Int) : List Int :=
  (List.range (xs.length + 1 - d)).map fun i => ((xs.drop i).take d).foldl (· + ·) 0

/-- n cascaded running sums of d samples. -/
def sincSums (d : Nat) : Nat → List Int → List Int
  | 0, xs => xs
  | n + 1, xs => sincSums d n (windowSums d xs)

/-- The exact output of a unit from its history, newest first, filled with zeros: numerator over 2 x D^N (R133). -/
def filterSum (n d m : Nat) (notch : Bool) (hist : List Int) : Int :=
  let need := n * (d - 1) + 1
  let xs := padTo 0 (need + m) hist
  let ys := (List.range need).map fun i => if notch then nthD 0 xs i + nthD 0 xs (i + m) else 2 * nthD 0 xs i
  (sincSums d n ys).headD 0

/-- How many samples unit f needs before its output is settled (R133). -/
def settleCount (s : State) (q c f : Nat) : Nat :=
  let a := Reg.AD_FCFG q c f
  fld s a Fld.AD_FCFG_N * unitD s q c f + (if flag s a Fld.AD_FCFG_NEN then fld s a Fld.AD_FCFG_M else 0) + 3

/-- The output of unit f of converter c, in 1/256 LSB: of voltages, less the DAC code dac of the moment (R133). A DAC
code is 1,048,576,000 units of a sample. (DEDUCED, log 41) -/
def filterOutput (s : State) (q c f : Nat) (hist : List Int) (dac : Nat) : Int :=
  let a := Reg.AD_FCFG q c f
  let n := fld s a Fld.AD_FCFG_N
  let d := unitD s q c f
  let notch := flag s a Fld.AD_FCFG_NEN
  let den : Int := 2 * (d : Int) ^ n
  let num := filterSum n d (if notch then fld s a Fld.AD_FCFG_M else 0) notch hist
  roundAwayDiv (num - (dac : Int) * 1048576000 * den) (den * 2560000)

/-- AD_FOUT of unit f shows an output, which consumers hold (R133). -/
def showOutput (q c f k : Nat) (o : Int) (s : State) : State :=
  setFld (Reg.AD_FOUT q c f) ⟨23, 0⟩ (pat 24 o) (updConv (2 * q + c) (fun x => { x with
    output := tset (fun _ => 0) x.output k o,
    outDac := tset (fun _ => 0) x.outDac k (tget (fun _ => Filter.init) x.units f).outDac,
    units := tset (fun _ => Filter.init) x.units f { tget (fun _ => Filter.init) x.units f with held := o } }) s)

/-- Unit f takes a sample v of stream k, tagged with DAC code tag; an output falls on this sample where emit says so,
and is less the DAC code dac of the moment; both codes are 0 for a wide-range stream (R133). (DEDUCED, log 37) -/
def filterTake (q c f k : Nat) (emit : Bool) (tag dac : Nat) (v : Int) (s : State) : State :=
  let x := tget (fun _ => Filter.init) (convOf s (2 * q + c)).units f
  let x := { x with hist := ((v + (tag : Int) * 1048576000) :: x.hist).take 512, count := min (x.count + 1) 1024 }
  let x := if emit then { x with out := filterOutput s q c f x.hist dac, outDac := dac } else x
  let s := updConv (2 * q + c) (fun y => { y with units := tset (fun _ => Filter.init) y.units f x }) s
  if emit && flag s (Reg.AD_FOUT q c f) Fld.AD_FOUT_VALID then showOutput q c f k x.out s else s

/-- A write of v to AD_FCFG that R133 refuses: for F0 of a rail that is not OFF, or a setting out of range. -/
def badFcfg (s : State) (q c f v : Nat) : Bool :=
  let tab := activeTable s q c
  let d := 2 ^ getBits v Fld.AD_FCFG_LOG2D
  (f == 0 && railState s (2 * q + c) != 0) || decide (4 < getBits v Fld.AD_FCFG_N) ||
    decide (6 < getBits v Fld.AD_FCFG_LOG2D) ||
    (getBits v Fld.AD_FCFG_NEN == 1 && decide (getBits v Fld.AD_FCFG_M < 2)) ||
    (match unitStream tab f with
      | some k => badDecimation d tab.length (streamSlots tab k).length (tickNs s q)
      | none => false)

/-- A write of v to AD_FCFG (R133). -/
def fcfgWrite (q c f v : Nat) (s : State) : State :=
  if badFcfg s q c f v then raiseFlag (Reg.AD_STAT q c) Fld.AD_STAT_WREF s
  else restartUnit q c f (plainWrite (Reg.AD_FCFG q c f) v s)

/-- FCFG_WRITE (R133). -/
def execFcfgWrite (m : Master) (q : Fin 16) (c : Fin 2) (f : Fin 4) (v : BitVec 32) (s : State) : Out :=
  regWriteBy m (Reg.AD_FCFG q c f) s (fcfgWrite q c f v.toNat s)

/-- Unit f has taken the samples it needs and is not yet settled; its converter runs (R130, R133). -/
def settleDue (s : State) (q c f : Nat) : Bool :=
  !flag s (Reg.AD_STAT q c) Fld.AD_STAT_FAILED && !flag s (Reg.AD_FOUT q c f) Fld.AD_FOUT_VALID &&
    decide (settleCount s q c f ≤ (tget (fun _ => Filter.init) (convOf s (2 * q + c)).units f).count)

/-- The output of the stream that unit f serves is shown, where there is one. -/
def showUnit (q c f : Nat) (k : Option Nat) (s : State) : State :=
  match k with
  | some k => showOutput q c f k (tget (fun _ => Filter.init) (convOf s (2 * q + c)).units f).out s
  | none => s

/-- VALID = 1: the unit's output is its consumers' (R133). (DEDUCED, log 37) -/
def settle (q c f : Nat) (s : State) : State :=
  let s := setFlag (Reg.AD_FOUT q c f) Fld.AD_FOUT_VALID true s
  showUnit q c f (unitStream (activeTable s q c) f) s

/-- FILTER_SETTLE (R133). -/
def execFilterSettle (q : Fin 16) (c : Fin 2) (f : Fin 4) (s : State) : Out :=
  live (settleDue s q c f) s (settle q c f s)

/-! ## Slices (R129, R130) -/

/-- The slices of converter c that are not retired, rising. -/
def activeSlices (s : State) (q c : Nat) : List Nat :=
  (List.range 4).filter fun i => !bitAt (fld s (Reg.AD_STAT q c) Fld.AD_STAT_RETIRED) i

/-- The slice that converts position j, if one does (R130). -/
def sliceAt (active : List Nat) (j : Nat) : Option Nat :=
  match active.length with
  | 4 => active[j % 4]?
  | 3 => if j % 4 = 3 then none else active[j % 4]?
  | 2 => if j % 2 = 1 then none else active[j % 4 / 2]?
  | _ => none

/-- Estimation is frozen for converter c (R129). -/
def adFrozen (s : State) (q c : Nat) : Bool := flag s (Reg.AD_STAT q c) Fld.AD_STAT_FROZEN

/-- A block of 2^20 aggregate samples has ended (R129). -/
def blockOver (s : State) (q c : Nat) : Bool := decide ((convOf s (2 * q + c)).blockAt + 2097152 ≤ now s)

/-- The block's estimates wait for their tick instant, and a new block begins (R129). -/
def takeEstimates (q c : Nat) (est : List SliceEst) (s : State) : State :=
  let t := tickNs s q
  updConv (2 * q + c) (fun x => { x with
    estAt := ceilDiv (s.tb.ns + 1000) t * t + 1, est := est, blockAt := s.tb.ns }) s

/-- SLICE_ESTIMATE_COMPLETE (R129): e0 to e3 are the estimates of the slices. -/
def execSliceEstimateComplete (q : Fin 16) (c : Fin 2) (e0 e1 e2 e3 : SliceEst) (s : State) : Out :=
  live (!adFrozen s q c && blockOver s q c) s (takeEstimates q c [e0, e1, e2, e3] s)

/-- An estimate is out of limits (R130). -/
def outOfLimits (s : State) (q : Nat) (e : SliceEst) : Bool :=
  let a := Reg.AD_SLIM q
  decide (16 * fld s a Fld.AD_SLIM_OFS < e.ofs.natAbs) ||
    decide (65536 * fld s a Fld.AD_SLIM_GAIN < 1000 * e.gain.natAbs) ||
    decide (10 * fld s a Fld.AD_SLIM_SKEW < e.skew.natAbs)

/-- An estimate as the word of AD_SCOR; one within the limits of R130 and beyond its field is held at the field's end
(R129, R144). (DESIGN CHOICE, log 188) -/
def estWord (e : SliceEst) : Nat :=
  pat 12 (satS 12 e.ofs) * 2 ^ 20 + pat 12 (satS 12 e.gain) * 2 ^ 8 + pat 8 (satS 8 e.skew)

/-- Converter c fails: every output loses VALID, its served rail is unsafe if it is not OFF, and so is the other rail
of the quire where it served that as fallback (R130, R368). (DEDUCED, log 191, 235) -/
def failConverter (q c : Nat) (s : State) : State :=
  let s := setFlag (Reg.AD_STAT q c) Fld.AD_STAT_FAILED true s
  let s := forAll (List.range 4) (fun f s => setFlag (Reg.AD_FOUT q c f) Fld.AD_FOUT_VALID false s) s
  let s := report { src := 0x12, event := 2, cls := 3, unit := 2 * q + c } s
  let o := 2 * q + (1 - c)
  let s := if railState s (2 * q + c) != 0 then unsafeConverter (2 * q + c) s else s
  if railState s o != 0 && (railOf s o).fallback then unsafeConverter o s else s

/-- Slice i of converter c retires (R130, R235). -/
def retireSlice (q c i : Nat) (s : State) : State :=
  let a := Reg.AD_STAT q c
  if bitAt (fld s a Fld.AD_STAT_RETIRED) i then s
  else
    let s := setFld a Fld.AD_STAT_RETIRED (fld s a Fld.AD_STAT_RETIRED + 2 ^ i) s
    let n := (activeSlices s q c).length
    let s := s |> setFld a Fld.AD_STAT_SLICES (n - 1) |> report { src := 0x12, event := 1, cls := 2, unit := 2 * q + c }
      |> settleConverter |> setLine q 17
    if n < 2 && !flag s a Fld.AD_STAT_FAILED then failConverter q c s else s

/-- The waiting estimates apply; a slice out of limits retires in place of taking its own (R129, R130). (DESIGN
CHOICE, log 188) -/
def applyEstimates (q c : Nat) (s : State) : State :=
  let est := (convOf s (2 * q + c)).est
  let s := updConv (2 * q + c) (fun x => { x with estAt := 0, est := [] }) s
  forAll ((List.range 4).zip est) (fun y s =>
    if bitAt (fld s (Reg.AD_STAT q c) Fld.AD_STAT_RETIRED) y.1 then s
    else if outOfLimits s q y.2 then retireSlice q c y.1 s
    else wr (Reg.AD_SCOR q c y.1) (estWord y.2) s) s

/-- SLICE_ESTIMATE_APPLY (R129). -/
def execSliceEstimateApply (q : Fin 16) (c : Fin 2) (s : State) : Out :=
  live (!adFrozen s q c && (convOf s (2 * q + c)).estAt != 0 && decide ((convOf s (2 * q + c)).estAt ≤ now s + 1)) s
    (applyEstimates q c s)

/-- A write of v to AD_SRET (R130). -/
def sretWrite (q c v : Nat) (s : State) : State :=
  updConv (2 * q + c) (fun x => { x with retire := x.retire ||| getBits v Fld.AD_SRET_RETIRE }) s

/-- AD_SRET_WRITE (R130). -/
def execAdSretWrite (m : Master) (q : Fin 16) (c : Fin 2) (v : BitVec 32) (s : State) : Out :=
  regWriteBy m (Reg.AD_SRET q c) s (sretWrite q c v.toNat s)

/-- The slices that AD_SRET named retire (R130). -/
def retireAsked (q c : Nat) (s : State) : State :=
  let is := ones 4 (convOf s (2 * q + c)).retire
  forAll is (retireSlice q c) (updConv (2 * q + c) (fun x => { x with retire := 0 }) s)

/-- SLICE_RETIRE (R130): at a tick instant. -/
def execSliceRetire (q : Fin 16) (c : Fin 2) (s : State) : Out :=
  live ((convOf s (2 * q + c)).retire != 0 && now s % tickNs s q == 0) s (retireAsked q c s)

/-! ## Aggregate samples (R124, R125, R129 to R131, R142) -/

/-- A phase's current sample x, 2.5 mA units, reaches its current window (R142). -/
def windowSample (n : Nat) (x : Int) (s : State) : State :=
  let q := quireOf n
  let p := localOf n
  let st := Reg.WC_OCPSTAT q p
  let cfg := Reg.WC_OCPCFG q p
  let s := setFld st ⟨15, 0⟩ (max (fld s st ⟨15, 0⟩) (min x.natAbs 0xFFFF)) s
  if !flag s cfg Fld.WC_OCPCFG_EN then s
  else
    let lim := rd s (Reg.WC_OCPLIM q p)
    let hi := sx 16 (getBits lim Fld.WC_OCPLIM_HI)
    let lo := sx 16 (getBits lim Fld.WC_OCPLIM_LO)
    let hys : Int := fld s cfg Fld.WC_OCPCFG_HYS * 40
    let w := winOf s n
    if hi < x ∨ x < lo then
      let side := decide (hi < x)
      let count := if w.side = side then w.count + 1 else 1
      let s := updWin n (fun _ => { count := min count 16, side := side }) s
      if max 1 (fld s cfg Fld.WC_OCPCFG_CNT) ≤ count ∧ flag s st Fld.WC_OCPSTAT_ASSERT = false then
        s |> setFlag st Fld.WC_OCPSTAT_ASSERT true |> setFlag st Fld.WC_OCPSTAT_SIDE side
          |> incFld (Reg.WC_OCPCNT q p) wordBits
      else s
    else
      let s := updWin n (fun w => { w with count := 0 }) s
      if lo + hys ≤ x ∧ x ≤ hi - hys then setFlag st Fld.WC_OCPSTAT_ASSERT false s else s

/-- Every output of an AUX stream feeds the current windows of the AUX-sensed ports that name it (R135, R142).
(DEDUCED, log 43) -/
def auxOutputs (q c input : Nat) (s : State) : State :=
  forAll (List.range 16) (fun p s =>
    let a := Reg.AD_AUXMAP q p
    let n := 16 * q + p
    if discrete s n && flag s a Fld.AD_AUXMAP_EN && fld s a Fld.AD_AUXMAP_CONV == c &&
        3 + fld s a Fld.AD_AUXMAP_AUX == input then
      let code := tget (fun _ => 0) (convOf s (2 * q + c)).output (2 * input + 1)
      windowSample n (satS 16 (roundAwayDiv
        ((code - (fld s a Fld.AD_AUXMAP_OFS : Int) * 256) * sx 16 (fld s a Fld.AD_AUXMAP_GAIN)) 65536)) s
    else s) s

/-- The slot a converter uses now (R125, R128). -/
def slotNow (s : State) (q c : Nat) : Nat :=
  let t := tickNs s q
  (now s % t / 2) % min (seqLen s q c) (t / 2)

/-- The number of the present cycle of a table of len entries, and whether it is a check cycle (R131). -/
def cycleNow (s : State) (len : Nat) : Nat := now s / (2 * len)
def checkCycle (s : State) (q len : Nat) : Bool :=
  flag s (Reg.AD_CHK q) Fld.AD_CHK_EN && cycleNow s len % 2 ^ fld s (Reg.AD_CHK q) Fld.AD_CHK_PER == 0

/-- A sample's code read by its range (R124). -/
def codeValue (wide code : Nat) : Int := if wide = 1 then code else sx 12 code

/-- The corrected value of code x of a stream with m of len entries: x0 is the stream's previous code, w its slice's
AD_SCOR word (R129). -/
def correct (w : Nat) (x : Int) (x0 : Option Int) (len m : Nat) : Int :=
  let ofs := sx 12 (getBits w Fld.AD_SCOR_OFS)
  let gain := sx 12 (getBits w Fld.AD_SCOR_GAIN)
  let skew := sx 8 (getBits w Fld.AD_SCOR_SKEW)
  let term := match x0 with
    | some y => skew * (x - y) * ((32768 * m / len : Nat) : Int)
    | none => 0
  (16 * x - ofs) * (65536 + gain) * 625 - term

/-- The key under which a stream's last code is kept: a CHECK entry's by the input it samples. (DEDUCED, log 38) -/
def prevKey (k input : Nat) : Nat := if k / 2 = 8 then 2 * (16 + input) + 1 else k

/-- A corrected sample v of the CHECK entry: the check's result in a check cycle, else a REF result (R131, R132).
(DESIGN CHOICE, log 225) -/
def takeCheck (q c len : Nat) (check : Bool) (v : Int) (s : State) : State :=
  updConv (2 * q + c) (fun x =>
    if check then { x with chk := v, chkCycle := cycleNow s len + 1 }
    else { x with refNew := (roundAwayDiv v 2560000 + 2 ^ 20).toNat }) s

/-- The DAC code in force now for stream k: that of its slot for an error-range stream, none for another (R50). -/
def streamDac (s : State) (q k : Nat) : Nat := if k % 2 = 0 then dacCode s q (k / 2 % 2) (now s) else 0

/-- A sample v of stream k, converted or repeated, with the DAC code tag that was in force when it was converted,
reaches its consumers (R50, R129, R133, R135, R142). (DEDUCED, log 36, 190; DESIGN CHOICE, log 225) -/
def feedStream (q c k tag : Nat) (v : Int) (s : State) : State :=
  let tab := activeTable s q c
  let input := k / 2
  let dac := streamDac s q k
  let s := updConv (2 * q + c) (fun x => { x with
    newest := tset (fun _ => 0) x.newest k v, tagDac := tset (fun _ => 0) x.tagDac k tag }) s
  let slots := streamSlots tab k
  match (tab.find? fun w => entStream w == k).bind (entUnit tab) with
  | some f =>
    let ds := unitD s q c f * (2 * tab.length / max 1 slots.length)
    let emit := decide ((now s % tickNs s q + ds - 2 * nthD 0 slots 0 % ds) % ds = 0)
    let s := filterTake q c f k emit tag dac v s
    if emit && decide (3 ≤ input) && decide (input ≤ 5) then auxOutputs q c input s else s
  | none =>
    let s := updConv (2 * q + c) (fun x => { x with
      output := tset (fun _ => 0) x.output k (roundAwayDiv v 2560000), outDac := tset (fun _ => 0) x.outDac k tag }) s
    if 3 ≤ input ∧ input ≤ 5 then auxOutputs q c input s else s

/-- The smallest and largest error-range samples since the last tick, of the served input or of the other slot's (R140,
R368). -/
def widen (own : Bool) (a : Int) (x : Conv) : Conv :=
  let low := fun (y : Option Int) => some (match y with | some l => min l a | none => a)
  let high := fun (y : Option Int) => some (match y with | some h => max h a | none => a)
  if own then { x with lo := low x.lo, hi := high x.hi } else { x with olo := low x.olo, ohi := high x.ohi }

/-- A sample v of stream k widens the envelope of its input, if it is an error-range stream (R140). (DESIGN CHOICE,
log 225) -/
def widenBy (q c k : Nat) (v : Int) (s : State) : State :=
  if k = 0 ∨ k = 2 then updConv (2 * q + c) (widen (k == 2 * c) (roundAwayDiv v 2560000)) s else s

/-- The outputs at a tick instant are kept for the tick's computation (R51, R135, R140). (DESIGN CHOICE, log 225) -/
def snapshot (q c : Nat) (s : State) : State :=
  let x := convOf s (2 * q + c)
  let a := roundAwayDiv (tget (fun _ => 0) x.newest (2 * c)) 2560000
  let o := roundAwayDiv (tget (fun _ => 0) x.newest (2 * (1 - c))) 2560000
  let held := match x.snaps with
    | y :: _ => y.f0
    | [] => 0
  let f0 := if flag s (Reg.AD_FOUT q c 0) Fld.AD_FOUT_VALID then
      (tget (fun _ => Filter.init) x.units 0).held * 5 + (dacCode s q c (now s) : Int) * 2048
    else held
  updConv (2 * q + c) (fun x => { x with
    snaps := ({ ns := s.tb.ns, f0 := f0, a := a, outs := x.output, dacs := x.outDac, lo := x.lo.getD a,
                hi := x.hi.getD a, oa := o, olo := x.olo.getD o, ohi := x.ohi.getD o } :: x.snaps).take 32,
    lo := none, hi := none, olo := none, ohi := none }) s

/-- A position that converter c does not convert: each stream that owns its slot repeats, AD_HOLDS counts the repeat,
and the check of a CHECK entry in a check cycle does not take place; a FAILED converter's outputs reach no consumer
(R130, R131). (DEDUCED, log 191) -/
def holdSample (q c k : Nat) (check : Bool) (s : State) : State :=
  let s := incFld (Reg.AD_HOLDS q c) wordBits s
  let s := if k / 2 = 8 ∧ check = true then setFlag (Reg.AD_CHKSTAT q) Fld.AD_CHKSTAT_STOP true s else s
  if flag s (Reg.AD_STAT q c) Fld.AD_STAT_FAILED then s
  else
    let x := convOf s (2 * q + c)
    let v := tget (fun _ => 0) x.newest k
    feedStream q c k (tget (fun _ => 0) x.tagDac k) v (widenBy q c k v s)

/-- Converter c of quire q takes an aggregate sample of code (R124, R125, R129 to R131). (DEDUCED, log 38, 190) -/
def aggregate (q c code : Nat) (s : State) : State :=
  let cv := 2 * q + c
  let len := seqLen s q c
  let w := rd s (Reg.AD_SEQ q c (slotNow s q c))
  let k := entStream w
  let check := checkCycle s q len
  let input := if entInput w = 8 then (if check then fld s (Reg.AD_CHK q) Fld.AD_CHK_INPUT else 7) else entInput w
  let wide := if entInput w = 8 then 1 else entWide w
  let m := (streamSlots (activeTable s q c) k).length
  let x := codeValue wide code
  let s := updConv cv (fun y => { y with taken := s.tb.ns + 1 }) s
  let s :=
    match (sliceAt (activeSlices s q c) (now s / 2)) with
    | some i =>
      let top := if wide = 1 then x == 4095 else x == 2047 || x == -2048
      let s := if top then raiseFlag (Reg.AD_STAT q c) Fld.AD_STAT_OVR s else s
      let p := tget (fun _ => 0) (convOf s cv).prev (prevKey k input)
      let v := correct (rd s (Reg.AD_SCOR q c i)) x (if p = 0 then none else some ((p : Int) - 4096)) len m
      let s := updConv cv (fun y => { y with prev := tset (fun _ => 0) y.prev (prevKey k input) (x + 4096).toNat }) s
      let s := if entInput w = 8 then takeCheck q c len check v s
        else if entInput w = 7 then takeCheck q c len false v s else s
      feedStream q c k (streamDac s q k) v (widenBy q c k v s)
    | none => holdSample q c k check s
  if now s % tickNs s q = 0 then snapshot q c (comparatorTicks q (now s) s) else s

/-- The present instant is even, and converter c has not taken its sample, which a FAILED one only repeats (R125, R130).
-/
def sampleDue (s : State) (q c : Nat) : Bool :=
  decide (1 ≤ mode s) && now s % 2 == 0 && (convOf s (2 * q + c)).taken != now s + 1

/-- AGGREGATE_SAMPLE (R125): the code that converter c reads from the input of its slot. -/
def execAggregateSample (q : Fin 16) (c : Fin 2) (code : BitVec 12) (s : State) : Out :=
  live (sampleDue s q c) s (aggregate q c code.toNat s)

/-! ## The cross-check (R131, R132) -/

/-- Both converters have sampled the check input of one check cycle that has not been compared. -/
def crossDue (s : State) (q : Nat) : Bool :=
  let a := convOf s (2 * q)
  let b := convOf s (2 * q + 1)
  a.chkCycle != 0 && a.chkCycle == b.chkCycle && (senseOf s q).checked != a.chkCycle &&
    !flag s (Reg.AD_STAT q 0) Fld.AD_STAT_FAILED && !flag s (Reg.AD_STAT q 1) Fld.AD_STAT_FAILED

/-- Converter c's newest REF result is out of tolerance (R132): EXP has four fraction bits. -/
def refOut (s : State) (q c : Nat) : Bool :=
  let x := (convOf s (2 * q + c)).refNew
  let e : Int := fld s (Reg.AD_CHKREF q) Fld.AD_CHKREF_EXP
  x != 0 && decide ((fld s (Reg.AD_CHKREF q) Fld.AD_CHKREF_RTHR : Int) * 256 < (((x : Int) - 2 ^ 20) - e * 16).natAbs)

/-- PCNT of the cross-check (R132). -/
def checkCount (s : State) (q : Nat) : Nat := max 1 (fld s (Reg.AD_CHK q) Fld.AD_CHK_PCNT)

/-- A mismatch is attributed and recorded, and line 17 tells the engines (R132, R235). ATTR holds while MISM stands.
(DEDUCED, log 39) -/
def mismatch (q : Nat) (s : State) : State :=
  let a := refOut s q 0
  let b := refOut s q 1
  let st := Reg.AD_CHKSTAT q
  let attr := b2n a + 2 * b2n b
  let s := if flag s st Fld.AD_CHKSTAT_MISM then s else setFld st Fld.AD_CHKSTAT_ATTR attr s
  let s := raiseFlag st Fld.AD_CHKSTAT_MISM s
  let s := if a then setFlag (Reg.AD_STAT q 0) Fld.AD_STAT_SUSPECT true s else s
  let s := if b then setFlag (Reg.AD_STAT q 1) Fld.AD_STAT_SUSPECT true s else s
  setLine q 17 (report { src := 0x12, event := 3, cls := 2, unit := 2 * q, detail := attr } s)

/-- The check of the newest check cycle (R131, R132); DIFF is rounded to the nearest LSB, a tie away from zero, and
held in its 12 bits. (DESIGN CHOICE, log 189) -/
def crossCheck (q : Nat) (s : State) : State :=
  let a := convOf s (2 * q)
  let b := convOf s (2 * q + 1)
  let d := a.chk - b.chk
  let st := Reg.AD_CHKSTAT q
  let s := s |> setFld st Fld.AD_CHKSTAT_DIFF (pat 12 (satS 12 (roundAwayDiv d 655360000)))
    |> setFlag st Fld.AD_CHKSTAT_STOP false
  if (fld s (Reg.AD_CHK q) Fld.AD_CHK_THR : Int) * 655360000 < d.natAbs then
    let n := (senseOf s q).fails + 1
    let s := updSense q (fun x => { x with checked := a.chkCycle, fails := n, passes := 0 }) s
    if n = checkCount s q then mismatch q s else s
  else
    let n := (senseOf s q).passes + 1
    let s := updSense q (fun x => { x with checked := a.chkCycle, fails := 0, passes := n }) s
    if checkCount s q ≤ n then
      setFlag (Reg.AD_STAT q 0) Fld.AD_STAT_SUSPECT false (setFlag (Reg.AD_STAT q 1) Fld.AD_STAT_SUSPECT false s)
    else s

/-- CROSS_CHECK (R131). -/
def execCrossCheck (q : Fin 16) (s : State) : Out := live (crossDue s q) s (crossCheck q s)

/-- HOLDS_CLEAR (R144). -/
def execHoldsClear (m : Master) (q : Fin 16) (c : Fin 2) (s : State) : Out :=
  regWriteBy m (Reg.AD_HOLDS q c) s (wr (Reg.AD_HOLDS q c) 0 s)

/-! ## Window comparators (R136 to R141) -/

/-- A write of v to WC_CFG is ignored (R137). -/
def badWcCfg (v : Nat) : Bool :=
  let i := getBits v Fld.WC_CFG_INPUT
  decide (5 < i) || (getBits v Fld.WC_CFG_MODE == 1 && decide (1 < i))

/-- The thresholds in use after a change of mode, of tracking or of WC_THR (R137, R140). -/
def useThresholds (q c : Nat) (was : Bool) (s : State) : State :=
  if tracking s q c then (if was then s else startTracking q c s) else plainThresholds q c s

/-- The sampling interval changes from d to d' at instant t: the sampling ticks of each raw state go on counting from
those that have come, and a first evaluation still to come falls on a tick of d' (R138, R141). (DEDUCED, log 192) -/
def newDiv (d d' t : Nat) (x : Comp) : Comp :=
  if d = d' then x
  else
    { x with loN := x.loN + ticksBetween d x.loAt t, loAt := t, hiN := x.hiN + ticksBetween d x.hiAt t, hiAt := t,
             firstAt := if t < x.firstAt then wcTickFrom d' t else x.firstAt }

/-- A write of v to WC_CFG of comparator c (R136 to R138); one that raises its lower trip output fires the bursts that
name it (R76, R139). -/
def wcCfgWrite (q c v : Nat) (s : State) : State :=
  let s := takeTicks q c (now s) s
  let a := Reg.WC_CFG q c
  if badWcCfg v then raiseFlag (Reg.WC_STAT q c) Fld.WC_STAT_WREF s
  else
    let old := rd s a
    let was := tracking s q c
    let trip := lowerTrip s q c
    let d := wcDiv s q c
    let s := plainWrite a v (countHeld q c (now s) s)
    let on := getBits v Fld.WC_CFG_EN == 1
    let change := getBits old Fld.WC_CFG_EN == 0 || getBits old Fld.WC_CFG_INPUT != getBits v Fld.WC_CFG_INPUT ||
      getBits old Fld.WC_CFG_MODE != getBits v Fld.WC_CFG_MODE
    let s := updComp (8 * q + c) (newDiv d (wcDiv s q c) (now s)) s
    let s := if on then
        (if change then updComp (8 * q + c) (fun x => { x with
          firstAt := wcTickFrom (wcDiv s q c) s.tb.ns, impl := 0 }) s else s)
      else
        let st := Reg.WC_STAT q c
        s |> setFlag st Fld.WC_STAT_LOLAT false |> setFlag st Fld.WC_STAT_HILAT false
          |> setFlag st Fld.WC_STAT_LORAW false |> setFlag st Fld.WC_STAT_HIRAW false
          |> setFlag st Fld.WC_STAT_HELD false
    let s := useThresholds q c was s
    if !trip && lowerTrip s q c then burstFrom q c s else s

/-- WC_CFG_WRITE (R136). -/
def execWcCfgWrite (m : Master) (q : Fin 16) (c : Fin 8) (v : BitVec 32) (s : State) : Out :=
  regWriteBy m (Reg.WC_CFG q c) s (wcCfgWrite q c v.toNat s)

/-- The input as comparator c of quire q compares it: x, less the DAC's voltage in relative mode (R137). -/
def compared (s : State) (q c : Nat) (x : Int) : Int :=
  if relative s q c then x - (dacCode s q (fld s (Reg.WC_CFG q c) Fld.WC_CFG_INPUT % 2) (now s) : Int) * 2048 else x

/-- The decision at input x raises a side's raw state (R138). -/
def sideRises (s : State) (q c : Nat) (upper : Bool) (x : Int) : Bool :=
  let (lo, hi, _) := thresholds s q c
  let l := thrLsb s q c
  let raw := flag s (Reg.WC_STAT q c) (if upper then Fld.WC_STAT_HIRAW else Fld.WC_STAT_LORAW)
  (!raw || firstEval s q c) && (if upper then decide (hi * l < x) else decide (x < lo * l))

/-- The decision at input x lowers a side's raw state (R138). -/
def sideFalls (s : State) (q c : Nat) (upper : Bool) (x : Int) : Bool :=
  let (lo, hi, hys) := thresholds s q c
  let l := thrLsb s q c
  let h := if firstEval s q c then 0 else hys
  let raw := flag s (Reg.WC_STAT q c) (if upper then Fld.WC_STAT_HIRAW else Fld.WC_STAT_LORAW)
  raw && (if firstEval s q c then !(if upper then decide (hi * l < x) else decide (x < lo * l))
    else if upper then decide (x < (hi - h) * l) else decide ((lo + h) * l < x))

/-- The latch field of a comparator's side. -/
def latchField (upper : Bool) : Bits := if upper then Fld.WC_STAT_HILAT else Fld.WC_STAT_LOLAT

/-- A software clear of a side that was taken on the 1 ns tick at which its raw state rises is undone and refused: the
rise governs (R143). -/
def undoClear (q c : Nat) (upper : Bool) (s : State) : State :=
  let st := Reg.WC_STAT q c
  let x := compOf s (8 * q + c)
  if (if upper then x.hiClr else x.loClr) = s.tb.ns + 1 then
    s |> setFlag st (latchField upper) (if upper then x.hiHad else x.loHad) |> raiseFlag st Fld.WC_STAT_CLRREF
  else s

/-- A side's raw state rises: its latch sets, and a new lower trip output is the rise of R76 (R138, R139). -/
def raiseSide (q c : Nat) (upper : Bool) (s : State) : State :=
  let st := Reg.WC_STAT q c
  let s := undoClear q c upper s
  let was := lowerTrip s q c
  let s := setFlag st (if upper then Fld.WC_STAT_HIRAW else Fld.WC_STAT_LORAW) true s
  let s := updComp (8 * q + c) (fun x =>
    if upper then { x with hiAt := s.tb.ns, hiN := 0, hiStuck := false }
    else { x with loAt := s.tb.ns, loN := 0, loStuck := false }) s
  let s := latchSide q c upper s
  if !was && lowerTrip s q c then burstFrom q c s else s

/-- The sides whose raw state a decision raises act, the lower first. -/
def wcCross (q c : Nat) (x : Int) (s : State) : State :=
  let up := sideRises s q c true x
  let s := if sideRises s q c false x then raiseSide q c false s else s
  if up then raiseSide q c true s else s

/-- WC_THRESHOLD_CROSS (R139): the input at a sampling tick, in 25/1024 uV, signed; the control ticks before it come
first. -/
def execWcThresholdCross (q : Fin 16) (c : Fin 8) (x : BitVec 32) (s : State) : Out :=
  let v := compared s q c x.toInt
  let s' := takeTicks q c (now s) s
  live (wcTick s q c && (sideRises s' q c false v || sideRises s' q c true v)) s (wcCross q c v s')

/-- The sides whose raw state a decision lowers. -/
def wcFall (q c : Nat) (x : Int) (s : State) : State :=
  let st := Reg.WC_STAT q c
  let up := sideFalls s q c true x
  let s := if sideFalls s q c false x then setFlag st Fld.WC_STAT_LORAW false s else s
  if up then setFlag st Fld.WC_STAT_HIRAW false s else s

/-- RAW_STATE_FALL (R138): the input at a sampling tick, in 25/1024 uV, signed; the control ticks before it come
first. -/
def execRawStateFall (q : Fin 16) (c : Fin 8) (x : BitVec 32) (s : State) : Out :=
  let v := compared s q c x.toInt
  let s' := takeTicks q c (now s) s
  live (wcTick s q c && (sideFalls s' q c false v || sideFalls s' q c true v)) s (wcFall q c v s')

/-- A software clear of one side (R139); its instant and what the latch held are kept for a rise of the same 1 ns tick
(R143). -/
def wcClear (q c : Nat) (upper : Bool) (s : State) : State :=
  let st := Reg.WC_STAT q c
  if flag s st (if upper then Fld.WC_STAT_HIRAW else Fld.WC_STAT_LORAW) then raiseFlag st Fld.WC_STAT_CLRREF s
  else
    let had := flag s st (latchField upper)
    let t := s.tb.ns + 1
    setFlag st (latchField upper) false (updComp (8 * q + c) (fun x =>
      if upper then (if x.hiClr = t then x else { x with hiClr := t, hiHad := had })
      else if x.loClr = t then x else { x with loClr := t, loHad := had }) s)

/-- WC_CLEAR_LO (R139). -/
def execWcClearLo (m : Master) (q : Fin 16) (c : Fin 8) (s : State) : Out :=
  regWriteBy m (Reg.WC_CLR q c) s (wcClear q c false s)
/-- WC_CLEAR_HI (R139). -/
def execWcClearHi (m : Master) (q : Fin 16) (c : Fin 8) (s : State) : Out :=
  regWriteBy m (Reg.WC_CLR q c) s (wcClear q c true s)

/-- The sampling ticks, the present one among them, at which a side's raw state has stood at 1 since it rose (R141).
(DEDUCED, log 192) -/
def assertedTicks (s : State) (q c : Nat) (upper : Bool) : Nat :=
  let x := compOf s (8 * q + c)
  let d := wcDiv s q c
  if upper then x.hiN + ticksBetween d x.hiAt (now s + 1) else x.loN + ticksBetween d x.loAt (now s + 1)

/-- A side's raw state has stood at 1 for 2^(STK + 9) sampling ticks, unrecorded (R141). -/
def stuckDue (s : State) (q c : Nat) (upper : Bool) : Bool :=
  let x := compOf s (8 * q + c)
  let stk := fld s (Reg.WC_PLAUS q c) Fld.WC_PLAUS_STK
  stk != 0 && flag s (Reg.WC_STAT q c) (if upper then Fld.WC_STAT_HIRAW else Fld.WC_STAT_LORAW) &&
    !(if upper then x.hiStuck else x.loStuck) &&
    decide (2 ^ (stk + 9) ≤ assertedTicks s q c upper)

/-- STUCK is recorded for a side's assertion (R141). -/
def markStuck (q c : Nat) (upper : Bool) (s : State) : State :=
  updComp (8 * q + c) (fun x => if upper then { x with hiStuck := true } else { x with loStuck := true }) s
    |> raiseFlag (Reg.WC_STAT q c) Fld.WC_STAT_STUCK
    |> report { src := 0x13, event := 2, cls := 2, unit := 8 * q + c }

/-- WC_STUCK (R141). -/
def execWcStuck (q : Fin 16) (c : Fin 8) (upper : Bool) (s : State) : Out :=
  live (stuckDue s q c upper) s (markStuck q c upper s)

/-- PCNT consecutive disagreements have come (R141). -/
def implDue (s : State) (q c : Nat) : Bool :=
  decide (max 1 (fld s (Reg.WC_PLAUS q c) Fld.WC_PLAUS_PCNT) ≤ (compOf s (8 * q + c)).impl)

/-- IMPL is recorded, and the count restarts (R141). -/
def markImpl (q c : Nat) (s : State) : State :=
  updComp (8 * q + c) (fun x => { x with impl := 0 }) s |> raiseFlag (Reg.WC_STAT q c) Fld.WC_STAT_IMPL
    |> report { src := 0x13, event := 3, cls := 2, unit := 8 * q + c }

/-- WC_IMPL (R141). -/
def execWcImpl (q : Fin 16) (c : Fin 8) (s : State) : Out := live (implDue s q c) s (markImpl q c s)

/-- The bound register of a side (R145). -/
def boundReg (q c : Nat) (upper : Bool) : Nat := if upper then Reg.WC_TBNDH q c else Reg.WC_TBND q c

/-- A write of v to a bound register (R140). -/
def boundWrite (q c : Nat) (upper : Bool) (v : Nat) (s : State) : State :=
  if sx 10 (getBits v Fld.WC_TBND_MAX) < sx 10 (getBits v Fld.WC_TBND_MIN) then
    raiseFlag (Reg.WC_STAT q c) Fld.WC_STAT_BADBND s
  else plainWrite (boundReg q c upper) v s

/-- WC_BOUND_WRITE (R140). -/
def execWcBoundWrite (m : Master) (q : Fin 16) (c : Fin 8) (upper : Bool) (v : BitVec 32) (s : State) : Out :=
  regWriteBy m (boundReg q c upper) s (boundWrite q c upper v.toNat s)

/-- A write of any value clears WC_TOPP, which counts on from now (R145). -/
def toppClear (q c : Nat) (s : State) : State := wr (Reg.WC_TOPP q c) 0 (countHeld q c (now s) s)

/-- A write of v to WC_OCPCFG: an enable starts the count from 0 with the bare limits, and without EN the window does
not assert (R142). -/
def ocpCfgWrite (n v : Nat) (s : State) : State :=
  let a := Reg.WC_OCPCFG (quireOf n) (localOf n)
  let was := flag s a Fld.WC_OCPCFG_EN
  let s := plainWrite a v s
  if was && flag s a Fld.WC_OCPCFG_EN then s
  else setFlag (Reg.WC_OCPSTAT (quireOf n) (localOf n)) Fld.WC_OCPSTAT_ASSERT false
    (updWin n (fun w => { w with count := 0 }) s)

/-- A write of v to WC_TRK: what tracking has still to take, and to count in WC_TOPP, comes first (R140). -/
def trkWrite (q c v : Nat) (s : State) : State :=
  let s := countHeld q c (now s) (takeTicks q c (now s) s)
  useThresholds q c (tracking s q c) (plainWrite (Reg.WC_TRK q c) v s)

/-- A write of v to WC_THR (R137, R140). (DESIGN CHOICE, log 224) -/
def thrWrite (q c v : Nat) (s : State) : State :=
  let s := plainWrite (Reg.WC_THR q c) v (takeTicks q c (now s) s)
  if tracking s q c then s else plainThresholds q c s

/-- WC_TOPP_CLEAR (R145). -/
def execWcToppClear (m : Master) (q : Fin 16) (c : Fin 8) (s : State) : Out :=
  regWriteBy m (Reg.WC_TOPP q c) s (toppClear q c s)
/-- WC_CNT_CLEAR (R145). -/
def execWcCntClear (m : Master) (q : Fin 16) (c : Fin 8) (s : State) : Out :=
  regWriteBy m (Reg.WC_CNT q c) s (wr (Reg.WC_CNT q c) 0 s)
/-- OCPSTAT_CLEAR (R145). -/
def execOcpstatClear (m : Master) (n : Fin 256) (s : State) : Out :=
  regWriteBy m (Reg.WC_OCPSTAT (quireOf n) (localOf n)) s
    (setFld (Reg.WC_OCPSTAT (quireOf n) (localOf n)) ⟨15, 0⟩ 0 s)
/-- OCPCNT_CLEAR (R145). -/
def execOcpcntClear (m : Master) (n : Fin 256) (s : State) : Out :=
  regWriteBy m (Reg.WC_OCPCNT (quireOf n) (localOf n)) s (wr (Reg.WC_OCPCNT (quireOf n) (localOf n)) 0 s)

end Sys2Proof.Machine
end

