-- ==== Sys2Proof/Machine/Recorder.lean ====
section
/-! DEFINITION. The event recorder: its sources, histograms, extremes and excursions, its commands, and its commits to
NVM (R286 to R295). -/

namespace Sys2Proof.Machine

/-! ## Sources (R286) -/

/-- The VINSENSE output of quire q is valid (R286): its filter unit says so, or the active table holds it unfiltered and
its converter has not failed (R130). -/
def vinValid (s : State) (q : Nat) : Bool :=
  let c := fld s (Reg.AD_CTRL q) Fld.AD_CTRL_VINC
  let tab := activeTable s q c
  match (List.range 4).find? (fun f => unitStream tab f == some 5) with
  | some f => flag s (Reg.AD_FOUT q c f) Fld.AD_FOUT_VALID
  | none => holdsWide tab 2 && !flag s (Reg.AD_STAT q c) Fld.AD_STAT_FAILED

/-- A voltage of 25/1024 uV units in uV, to the nearest. (DESIGN CHOICE, log 87) -/
def microvolts (x : Int) : Int := roundAwayDiv (x * 25) 1024

/-- The sample of source src, index idx, where it has a valid value (R286); tj is the junction temperature that source 7
measures. -/
def sourceValue (s : State) (src idx : Nat) (tj : Int) : Option Int :=
  let rail := fun v => if idx < 32 && (railState s idx == 1 || railState s idx == 2 || railState s idx == 3) then some v
    else none
  let port := fun f => f (Reg.PP_STAT (quireOf idx) (localOf idx))
  match src with
  | 1 => rail (microvolts ((railOf s idx).vout - (railOf s idx).vset))
  | 2 => rail (microvolts (railOf s idx).vout)
  | 3 => rail (railOf s idx).itot
  | 4 =>
    if (portOf s idx).good != 0 || flag s (Reg.PP_CUR (quireOf idx) (localOf idx)) Fld.PP_CUR_EXT then
      some (sx 16 (fld s (Reg.PP_CUR (quireOf idx) (localOf idx)) Fld.PP_CUR_VALUE))
    else none
  | 5 =>
    if port (fun a => flag s a Fld.PP_STAT_BOUND) then
      some (sx 16 (fld s (Reg.PP_TEMP (quireOf idx) (localOf idx)) Fld.PP_TEMP_VALUE))
    else none
  | 6 => if idx < 16 ∧ vinValid s idx then some (fld s (Reg.LU_VIN idx) Fld.LU_VIN_VIN) else none
  | 7 => if idx < 16 then some tj else none
  | 8 =>
    if idx = 0 then some (fld s Reg.SM_VCORE Fld.SM_VCORE_NOW)
    else if idx = 1 then some (fld s Reg.SM_VIO Fld.SM_VIO_NOW)
    else if idx = 2 then some (fld s Reg.SM_VAUX Fld.SM_VAUX_NOW)
    else none
  | _ => none

/-! ## Recorder memory (R290, R292) -/

/-- Recording is frozen: by software, or by a commit (R290, R291). (DEDUCED, log 86) -/
def erFrozen (s : State) : Bool := flag s Reg.ER_CTRL Fld.ER_CTRL_FREEZE || s.er.commit.isSome

/-- A 32-bit word of recorder memory is written: a read-modify-write of its 64 bits (R299). (DEDUCED, log 213) -/
def erPut (a v : Nat) (s : State) : State := (storeWord 137 168 a 4 v 2 .none s).1

/-- Words of recorder memory are written from address a on. -/
def erPuts (a : Nat) (ws : List Nat) (s : State) : State :=
  forAll ((List.range ws.length).zip ws) (fun x s => erPut (a + 4 * x.1) x.2 s) s

/-- A 32-bit word of recorder memory is read: 0 where it does not read good (R297, R298). (DEDUCED, log 213) -/
def erRead (a : Nat) (s : State) : State × Nat :=
  let (s, f) := touchWord 137 168 a 0 2 false .none s
  (s, if f = .good then memValue s a 4 else 0)

/-- Address a lies in recorder memory in a word that R292 does not list, which reads 0. -/
def unlistedWord (a : Nat) : Bool := decide (0x50009000 ≤ a) && decide (a < 0x50020000)

/-- Histogram bin b of channel c, and the blocks of its minimum and maximum (R292). -/
def histAddr (c b : Nat) : Nat := 0x50000000 + c * 0x100 + b * 4
def minAddr (c : Nat) : Nat := 0x50008000 + c * 0x20
def maxAddr (c : Nat) : Nat := 0x50008010 + c * 0x20

/-- The bin of a sample (R287). -/
def binOf (v base : Int) (shift : Nat) : Nat := (clampI 0 63 (floorDiv (v - base) (2 ^ shift))).toNat

/-- An extreme with its stamp (R288, R292). -/
def putExtreme (a : Nat) (v : Int) (pcc hrs : Nat) (s : State) : State :=
  erPuts a [pat 32 v, pcc, hrs % 2 ^ 32, hrs / 2 ^ 32] s

/-- A sample with its stamps counts in the bin at address a and may replace an extreme of channel c (R287, R288). -/
def countSample (c a : Nat) (v : Int) (pcc hrs : Nat) (s : State) : State :=
  let (s, n) := erRead a s
  let s := erPut a (min 0xFFFFFFFF (n + 1)) s
  let (s, lo) := erRead (minAddr c) s
  let s := if v < sx 32 lo then putExtreme (minAddr c) v pcc hrs s else s
  let (s, hi) := erRead (maxAddr c) s
  if sx 32 hi < v then putExtreme (maxAddr c) v pcc hrs s else s

/-- The histograms after HCLR: every word is written 0 (R295). (DEDUCED, log 213) -/
def clearHistograms (s : State) : State :=
  let out := fun a => !(decide (0x50000000 ≤ a) && decide (a < 0x50008000))
  updRas (fun x => { x with
      filled := [granuleOf 168 0x50000000, granuleOf 168 0x50004000].foldl (fun t g => tset (fun _ => false) t g true)
        x.filled,
      flips := x.flips.filter (fun e => out (e.1 * 8)), upset := x.upset.filter (fun e => out (e.1 * 8)) })
    { s with mem := s.mem.filter fun c => out c.1 }

/-- The extreme at address a with its zero stamp, in two writes of 64 bits (R288). -/
def resetExtreme (a v : Nat) (s : State) : State :=
  s |> (fun s => (storeWord 137 168 a 8 v 3 .none s).1) |> (fun s => (storeWord 137 168 (a + 8) 8 0 3 .none s).1)

/-- The extremes and their stamps after XTCLR (R288). (DEDUCED, log 213) -/
def clearExtremes (s : State) : State :=
  forAll (List.range 128) (fun c s =>
    s |> resetExtreme (minAddr c) (2 ^ 31 - 1) |> resetExtreme (maxAddr c) (2 ^ 31)) s

/-- The word of recorder memory that holds address a reads good. -/
def erGood (s : State) (a : Nat) : Bool := wordWritten s 168 a && wordUpset s a != 2

/-- The copy of a commit: every word of the histograms, the extremes and the log up to NEXT is read, and one that does
not read good is 0 in the set (R291, R297, R298). (DEDUCED, log 86, 213) -/
def copySet (s : State) : State :=
  match s.er.commit with
  | none => s
  | some x =>
    let inSet := fun a => decide (0x50000000 ≤ a) && decide (a < 0x50020000 + 16 * x.next) && !unlistedWord a
    let words := (s.ras.flips.map (·.1) ++ s.ras.upset.map (·.1)).filter fun w => inSet (8 * w)
    let s := forAll words (fun w s => (touchWord 137 168 (8 * w) 0 3 false .none s).1) s
    updEr (fun r => { r with commit := some { x with cells := s.mem.filter fun c => inSet c.1 && erGood s c.1 } }) s

/-- The recorder does its work on its memory. -/
def erPerform (w : ErWork) (s : State) : State :=
  match w with
  | .sample c a v pcc hrs => countSample c a v pcc hrs s
  | .put a ws => erPuts a ws s
  | .clearHist => clearHistograms s
  | .clearExt => clearExtremes s
  | .copy => copySet s

/-- Some of the memory that the work needs is held (R304). -/
def erHeld (s : State) (w : ErWork) : Bool :=
  match w with
  | .sample c a _ _ _ => rangeHeld s a 4 || rangeHeld s (minAddr c) 32
  | .put a ws => rangeHeld s a (4 * ws.length)
  | .clearHist => rangeHeld s 0x50000000 0x8000
  | .clearExt => rangeHeld s 0x50008000 0x1000
  | .copy => rangeHeld s 0x50000000 0x40000

/-- Work comes to the recorder: it does it, or it waits its turn while held memory keeps work waiting (R304, R313).
(DEDUCED, log 213) -/
def erDo (w : ErWork) (s : State) : State :=
  if s.er.todo.isEmpty && !erHeld s w then erPerform w s else updEr (fun r => { r with todo := r.todo ++ [w] }) s

/-- The hold ends, and the work that waited is done in its order (R304, R313). -/
def erResume (s : State) : State := forAll s.er.todo erPerform (updEr (fun r => { r with todo := [] }) s)

/-- A sample of channel c (R287, R288). -/
def recordSample (c : Nat) (v : Int) (s : State) : State :=
  let a := histAddr c (binOf v (sx 32 (rd s (Reg.ER_BASE c))) (fld s (Reg.ER_CH c) Fld.ER_CH_SHIFT))
  erDo (.sample c a v s.tb.pcc s.tb.hrs) s

/-! ## Excursions (R289, R290) -/

def excOf (s : State) (c : Nat) : Excursion := tget (fun _ => Excursion.init) s.er.exc c
def setExc (c : Nat) (x : Excursion) (s : State) : State :=
  updEr (fun r => { r with exc := tset (fun _ => Excursion.init) r.exc c x }) s

/-- The log entry of an excursion goes to NEXT, or is dropped (R289, R292). -/
def logExcursion (c : Nat) (x : Excursion) (trunc : Bool) (s : State) : State :=
  let n := fld s Reg.ER_LOG Fld.ER_LOG_NEXT
  if 8192 ≤ n then incFld Reg.ER_LOG Fld.ER_LOG_XDROP s
  else
    let a := 0x50020000 + n * 16
    let flags := x.hrs / 2 ^ 32 * 2 ^ 24 + b2n (x.side = 2) * 2 ^ 23 + c * 2 ^ 16 + b2n trunc * 2 ^ 15
      + Nat.log2 x.n * 2 ^ 8
    s |> erDo (.put a [flags, x.hrs % 2 ^ 32, x.pcc, pat 32 x.peak])
      |> setFld Reg.ER_LOG Fld.ER_LOG_NEXT (n + 1)

/-- An excursion of channel c ends (R289). -/
def endExcursion (c : Nat) (trunc : Bool) (s : State) : State :=
  let x := excOf s c
  let s := if x.run then logExcursion c x trunc s else s
  setExc c Excursion.init s

/-- The side that a sample lies beyond: 2 high, 1 low, 0 neither (R289). -/
def sideOf (s : State) (c : Nat) (v : Int) : Nat :=
  if flag s (Reg.ER_CH c) Fld.ER_CH_XEN then
    if sx 32 (rd s (Reg.ER_XHI c)) < v then 2 else if v < sx 32 (rd s (Reg.ER_XLO c)) then 1 else 0
  else 0

/-- A sample's part in the excursions of channel c (R289). -/
def trackExcursion (c : Nat) (v : Int) (s : State) : State :=
  let side := sideOf s c v
  let x := excOf s c
  if x.run && x.side == side then
    setExc c { x with n := x.n + 1, peak := if side = 2 then max x.peak v else min x.peak v } s
  else
    let s := endExcursion c false s
    if side = 0 then s
    else setExc c { run := true, side := side, n := 1, peak := v, hrs := s.tb.hrs, pcc := s.tb.pcc } s

/-- A sample while recording is frozen: nothing runs and nothing is written; what is missed is counted (R290). -/
def missSample (c : Nat) (v : Int) (s : State) : State :=
  let side := sideOf s c v
  let x := excOf s c
  let s := incFld Reg.ER_FRZMISS Fld.ER_FRZMISS_SAMP s
  let s := if side != 0 && x.side != side then incFld Reg.ER_FRZMISS Fld.ER_FRZMISS_XENT s else s
  setExc c { Excursion.init with side := side } s

/-- Channel c samples now: the recorder and the channel are enabled, and this instant has not been taken (R286). -/
def recorderDue (s : State) (c : Nat) : Bool :=
  flag s Reg.ER_CTRL Fld.ER_CTRL_EN && flag s (Reg.ER_CH c) Fld.ER_CH_EN &&
    s.tb.ns % (16 * 2 ^ min 20 (fld s (Reg.ER_CH c) Fld.ER_CH_DIV)) == 0 &&
    tget (fun _ => 0) s.er.taken c != s.tb.ns + 1

/-- A channel takes its sample; a source that has ceased to be valid ends an excursion at once (R286, R289). -/
def takeSample (c : Nat) (tj : Int) (s : State) : State :=
  let s := updEr (fun r => { r with taken := tset (fun _ => 0) r.taken c (s.tb.ns + 1) }) s
  match sourceValue s (fld s (Reg.ER_CH c) Fld.ER_CH_SRC) (fld s (Reg.ER_CH c) Fld.ER_CH_IDX) tj with
  | none => if erFrozen s then setExc c Excursion.init s else endExcursion c true s
  | some v => if erFrozen s then missSample c v s else trackExcursion c v (recordSample c v s)

/-- RECORDER_SAMPLE (R286). t is the junction temperature, in 1/16 C, for a channel of source 7. -/
def execRecorderSample (c : Fin 128) (t : BitVec 32) (s : State) : Out :=
  live (recorderDue s c) s (takeSample c t.toInt s)

/-- The source of channel c has a valid value (R286). -/
def sourceValid (s : State) (c : Nat) : Bool :=
  (sourceValue s (fld s (Reg.ER_CH c) Fld.ER_CH_SRC) (fld s (Reg.ER_CH c) Fld.ER_CH_IDX) 0).isSome

/-- Excursions whose source has ceased to be valid end at once (R289). -/
def endInvalid (s : State) : State :=
  forAll (s.er.exc.map (·.1)) (fun c s =>
    if sourceValid s c then s else if erFrozen s then setExc c Excursion.init s else endExcursion c true s) s

/-- A write to ER_CH: clearing EN or XEN, or a source with no valid value, ends the channel's excursion (R289). -/
def erChWrite (c v : Nat) (s : State) : State :=
  let s := plainWrite (Reg.ER_CH c) v s
  if flag s (Reg.ER_CH c) Fld.ER_CH_EN && flag s (Reg.ER_CH c) Fld.ER_CH_XEN && sourceValid s c then s
  else if erFrozen s then setExc c Excursion.init s else endExcursion c true s

/-- A write to ER_CTRL: clearing EN ends every excursion; setting FREEZE keeps none running (R289, R290). -/
def erCtrlWrite (v : Nat) (s : State) : State :=
  let frozen := erFrozen s
  let t := plainWrite Reg.ER_CTRL v s
  if flag t Reg.ER_CTRL Fld.ER_CTRL_EN then
    if erFrozen t then
      updEr (fun r => { r with exc := r.exc.map fun x => (x.1, { Excursion.init with side := x.2.side }) }) t
    else t
  else if frozen then updEr (fun r => { r with exc := [] }) t
  else plainWrite Reg.ER_CTRL v (forAll (s.er.exc.map (·.1)) (fun c s => endExcursion c true s) s)

/-! ## Commits and commands (R288, R291, R295) -/

/-- The place of the oldest of the 8 record sets, or of one that holds none (R291). (DEDUCED, log 86) -/
def oldestPlace (s : State) : Nat :=
  match (List.range 8).find? (fun j => s.er.sets.all fun x => x.place != j), s.er.sets.reverse with
  | some j, _ => j
  | none, x :: _ => x.place
  | none, [] => 0

/-- The 42 sectors of a record set, whose bytes the rules do not give (R291, R312). -/
def setSectors (x : RecSet) : List (List Nat) :=
  (List.range 42).map fun i =>
    (List.range 4096).map fun o => (Config.setByte x.cells x.seq x.next (i * 4096 + o)).toNat

/-- The first sector of a record set's place (R312). -/
def placeSector (j : Nat) : Nat := 42 * j + 64

/-- Every codeword of a record set reads good (R291, R310). -/
def setReads (s : State) (x : RecSet) : Bool :=
  ((List.range 42).zip (setSectors x)).all fun y =>
    (List.range 128).all fun c => nvHolds s (placeSector x.place + y.1) c ((y.2.drop (c * 32)).take 32)

/-- A commit begins: recording freezes, the set is taken, and its place holds no complete set from now (R291).
(DEDUCED, log 86) -/
def startCommit (s : State) : State :=
  let set := { place := oldestPlace s, seq := (rd s Reg.ER_CSEQ + 1) % 2 ^ 32, cells := [],
               next := fld s Reg.ER_LOG Fld.ER_LOG_NEXT }
  s |> updEr (fun r => { r with commit := some set, waiting := false, sets := r.sets.filter (·.place != set.place),
                                exc := r.exc.map fun x => (x.1, { Excursion.init with side := x.2.side }) })
    |> setFlag Reg.ER_STAT Fld.ER_STAT_BUSY true |> erDo .copy

/-- A commit falls due: at shed level 3 and above it waits (R291). -/
def dueCommit (s : State) : State :=
  if 3 ≤ shed s then raiseFlag Reg.ER_STAT Fld.ER_STAT_NVSKIP (updEr (fun r => { r with waiting := true }) s)
  else startCommit s

/-- The set is in its sectors and complete, unless no spare sector was left, and recording goes on (R291, R311, R312).
(DEDUCED, log 86; DESIGN CHOICE, log 212) -/
def finishCommit (x : RecSet) (s : State) : State :=
  let s := s |> updEr (fun r => { r with commit := none }) |> setFlag Reg.ER_STAT Fld.ER_STAT_BUSY false
  match writeSlot (placeSector x.place) (setSectors x) s with
  | some s => s |> updEr (fun r => { r with sets := (x :: r.sets).take 8 }) |> wr Reg.ER_CSEQ x.seq
  | none => s

/-- A commit in progress completes. -/
def endCommit (s : State) : State :=
  match s.er.commit with
  | some x => finishCommit x s
  | none => s

/-- A commit that the rules ask for before the device goes on: it completes (R291, R382). -/
def commitNow (s : State) : State := endCommit (startCommit (endCommit s))

/-- The recorder can commit now: the shed level is below 3, and its memory is not held (R291, R304). -/
def commitFree (s : State) : Bool := decide (shed s < 3) && !rangeHeld s 0x50000000 0x40000

/-- RECORDER_COMMIT_DONE (R291): not before its copy, nor in a SHUTDOWN with cause 4, which makes no commit (R401).
(DESIGN CHOICE, log 212) -/
def execRecorderCommitDone (s : State) : Out :=
  match s.er.commit with
  | some x => live (s.er.todo.isEmpty && !nvClosed s) s (finishCommit x s)
  | none => .next s

/-- An automatic commit is due: CINT x 10 min have passed (R291). -/
def autoCommitDue (s : State) : Bool :=
  let n := fld s Reg.ER_CTRL Fld.ER_CTRL_CINT
  n != 0 && decide (s.er.autoAt + n * 600000000000 ≤ s.tb.ns) && s.er.commit.isNone

/-- RECORDER_AUTO_COMMIT (R291). -/
def execRecorderAutoCommit (s : State) : Out :=
  live (autoCommitDue s && foremanServes s) s (dueCommit (updEr (fun r => { r with autoAt := s.tb.ns }) s))

/-- ER_CMD takes a command; a write while BUSY is ignored, and with FREEZE = 1 nothing changes in the memory (R290,
R293, R295). (DEDUCED, log 85) -/
def erCommand (op : Nat) (s : State) : State :=
  if flag s Reg.ER_STAT Fld.ER_STAT_BUSY then s
  else if op = 1 then dueCommit s
  else if op = 2 then if erFrozen s then s else erDo .clearHist s
  else if op = 3 then if erFrozen s then s else erDo .clearExt s
  else if op = 4 then setFld Reg.ER_LOG Fld.ER_LOG_NEXT 0 s
  else if op = 5 then s |> setFld Reg.ER_LOG Fld.ER_LOG_XDROP 0 |> wr Reg.ER_FRZMISS 0
  else s

/-- ER_COMMIT (R291). -/
def execErCommit (m : Master) (s : State) : Out := regWriteBy m Reg.ER_CMD s (erCommand 1 s)
/-- ER_HCLR (R295). -/
def execErHclr (m : Master) (s : State) : Out := regWriteBy m Reg.ER_CMD s (erCommand 2 s)
/-- ER_XTCLR (R288). -/
def execErXtclr (m : Master) (s : State) : Out := regWriteBy m Reg.ER_CMD s (erCommand 3 s)
/-- ER_LCLR (R295). -/
def execErLclr (m : Master) (s : State) : Out := regWriteBy m Reg.ER_CMD s (erCommand 4 s)
/-- ER_CLRCNT (R295). -/
def execErClrcnt (m : Master) (s : State) : Out := regWriteBy m Reg.ER_CMD s (erCommand 5 s)

end Sys2Proof.Machine
end

