-- ==== Sys2Proof/Machine/Power.lean ====
section
/-! DEFINITION. The supply monitor: shed levels, the sequencing orders, PWRGD_IN and the speed monitors (R394 to
R405). -/

namespace Sys2Proof.Machine

/-! ## Shed levels (R398 to R402) -/

/-- The bit of a threshold in the set that stands crossed. -/
def thresholdBit : Threshold → Nat
  | .vcore l => 2 ^ (l.val + 1)
  | .vaux => 2 ^ 7

/-- The measured value below which a threshold is crossed, mV (R399). -/
def thresholdMv : Threshold → Nat
  | .vcore l => 700 - 20 * l.val
  | .vaux => 2900

/-- A threshold is crossed at the second consecutive sample below it, and recovers at the 64th consecutive one at or
above it plus 15 mV, but for level 6, which does not recover (R398, R399). (DEDUCED, log 155, 157) -/
def thresholdMoves (s : State) (crossed : Bool) (t : Threshold) : Bool :=
  let last := match t with
    | .vcore l => l.val == 5
    | .vaux => true
  let b := thresholdBit t
  let stands := s.sup.crossed / b % 2 == 1
  if crossed then !stands && decide (2 ≤ tget (fun _ => 0) s.sup.below b)
  else stands && !last && decide (64 ≤ tget (fun _ => 0) s.sup.above b)

/-- The highest level whose threshold stands crossed (R399). -/
def levelOf (crossed : Nat) : Nat :=
  if bitAt crossed 7 then 6 else ((List.range 7).filter (bitAt crossed ·)).foldl max 0

/-- The thresholds of R399. -/
def allThresholds : List Threshold :=
  [.vcore 0, .vcore 1, .vcore 2, .vcore 3, .vcore 4, .vcore 5, .vaux]

/-- Threshold t at a sample: the runs of samples below it, and at or above it plus 15 mV (R398). (DEDUCED, log 155) -/
def sampleThreshold (t : Threshold) (x : Supply) : Supply :=
  let mv := match t with
    | .vcore _ => x.vcore
    | .vaux => x.vaux
  let b := thresholdBit t
  let below := if mv < thresholdMv t then min 2 (tget (fun _ => 0) x.below b + 1) else 0
  let above := if thresholdMv t + 15 ≤ mv then min 64 (tget (fun _ => 0) x.above b + 1) else 0
  { x with below := tset (fun _ => 0) x.below b below, above := tset (fun _ => 0) x.above b above }

/-- What a supply's register shows at a sample of mv: NOW, and the lowest value, which the first sample since reset is
(R405). (DESIGN CHOICE, log 156) -/
def showSupply (a mv : Nat) (first : Bool) (s : State) : State :=
  let s := setFld a Fld.SM_VCORE_NOW mv s
  if first || decide (mv < fld s a Fld.SM_VCORE_MIN) then setFld a Fld.SM_VCORE_MIN mv s else s

/-- The supply monitor samples VCORE, VIO and VAUX (R398, R405). (DESIGN CHOICE, log 156) -/
def supplySample (first : Bool) (s : State) : State :=
  updSup (fun x => allThresholds.foldl (fun x t => sampleThreshold t x) x) s
    |> showSupply Reg.SM_VCORE s.sup.vcore first |> showSupply Reg.SM_VIO s.sup.vio first
    |> showSupply Reg.SM_VAUX s.sup.vaux first

/-- What the supplies measure from now on, mV. (DESIGN CHOICE, log 156) -/
def setSupplies (vcore vio vaux : Nat) (s : State) : State :=
  updSup (fun x => { x with vcore := vcore, vio := vio, vaux := vaux }) s

/-- Complete shadow lines of channel n swap in at once if it is in MODE 0 or parked (R112). -/
def swapIdle (n : Nat) (s : State) : State :=
  if pwmMode s n = 0 ∨ parkOf (chanOf s n).actOn = true then swapLines n s else s

/-- Calibration and slice estimation freeze, or go on with fresh estimates, and the maps that were held back on
channels without reloads swap in (R112, R129, R400). (DEDUCED, log 158) -/
def freezeCal (b : Bool) (s : State) : State :=
  forAll (List.range 16) (fun q s =>
    let s := setFlag (Reg.PW_CAL q) Fld.PW_CAL_FROZEN b s
    let s := if b then s else forAll (List.range 16) (fun p s => swapIdle (16 * q + p) s) s
    forAll [0, 1] (fun c s =>
      let s := setFlag (Reg.AD_STAT q c) Fld.AD_STAT_FROZEN b s
      updConv (2 * q + c) (fun x => { x with estAt := 0, est := [], blockAt := s.tb.ns }) s) s) s

/-- Bindings that shed level 5 parked go on where they stood (R270). -/
def unpark (s : State) : State :=
  forAll (List.range 16) (fun q s => forAll (List.range 6) (fun b s =>
    if bindState s q b = 7 then
      setBindState q b (bindOf s q b).parked s
    else s) s) s

/-! A step of the sequence that misses PG (R395, R404). -/

/-- The PG timeout of a step, ns; 32 stands for the final group (R395, R405). (DEDUCED, log 163) -/
def pgTimeout (s : State) (j : Nat) : Nat :=
  if j < 32 then stepPgTmo s j * 100000
  else
    let d := fld s Reg.SM_SEQHDR Fld.SM_SEQHDR_DEFTMO
    if d != 0 then d * 100000
    else if (validSteps s).isEmpty then 50 * 100000
    else ((validSteps s).map (stepPgTmo s)).foldl max 0 * 100000

/-- Rail r of the sequence has missed PG within its step's timeout of its applying index (R395). -/
def pgMissed (s : State) (r : Nat) : Bool :=
  let x := s.sup.run
  mode s == 3 && !x.reached.contains r && !x.hostOff.contains r &&
    match x.started.find? (·.1 == r) with
    | some (_, j) =>
      let at_ := tget (fun _ => 0) x.applied r
      at_ != 0 && decide (at_ - 1 + pgTimeout s j ≤ s.tb.ns)
    | none => false

/-- A step that misses PG on the sample at which shed level 6 is entered is shown, as SHUTDOWN keeps cause 4 (R404).
(DEDUCED, log 160) -/
def showMissed (s : State) : State :=
  match (List.range 32).find? (pgMissed s) with
  | some r => setFld Reg.SM_SEQSTAT Fld.SM_SEQSTAT_RAIL r s
  | none => s

/-- The shed level goes from one level to another: it is shown, noted once, and the actions of the levels it enters or
leaves begin or end (R399, R400). (DEDUCED, log 159) -/
def shedTo (new : Nat) (s : State) : State :=
  let old := shed s
  if new = old then s
  else
    let s := s |> setFld Reg.SM_MODE Fld.SM_MODE_SHED new |> setFld Reg.MB_HSTAT Fld.MB_HSTAT_SHED new
      |> report { src := 0x03, event := 1, cls := 0, unit := new }
      |> setCond 2 (decide (1 ≤ new) && decide (new ≤ 5))
    let s := if decide (2 ≤ new) != decide (2 ≤ old) then freezeCal (decide (2 ≤ new)) s else s
    let s := if 3 ≤ new ∧ old < 3 then forAll (List.range 32) cutLanes s else s
    let s := if new < 3 ∧ 3 ≤ old ∧ s.er.waiting then startCommit s else s
    let s := if 5 ≤ new ∧ old < 5 then forAll (List.range 32) nopWaiting s else s
    let s := if new < 5 ∧ 5 ≤ old then unpark (updSup (fun x => { x with left5 := s.tb.ns }) s) else s
    if new = 6 then startShutdown 4 (showMissed s) else s

/-- The record of FM event 3 that was formed at this very instant takes cause 4. (DEDUCED, log 160) -/
def causeFour (ns : Nat) (x : FaultRec) : FaultRec :=
  if x.src = 1 ∧ x.event = 3 ∧ x.ns = ns then { x with detail := 4 } else x

/-- At level 6 a SHUTDOWN that began at this very instant is the one SHUTDOWN, with cause 4: its record names it, and
ramps of a SEQUENCE stop (R32, R404). (DEDUCED, log 160) -/
def shedCause (s : State) : State :=
  let cause := rd s Reg.FM_SHUTCAUSE
  if shed s = 6 ∧ mode s = 6 ∧ s.sup.shutAt = s.tb.ns ∧ cause ≠ 4 then
    let s := s |> wr Reg.FM_SHUTCAUSE 4
      |> updFm (fun f => { f with q := f.q.map (causeFour s.tb.ns), logbuf := f.logbuf.map (causeFour s.tb.ns) })
      |> updSup (fun y => { y with appends := 3 })
    if cause = 3 then forAll (List.range 32) stopRamp s else s
  else s

/-- The thresholds ths cross or recover at one sample; with none, the supplies only move (R398, R399). (DEDUCED, log
155) -/
def shedChange (ths : List Threshold) (crossed : Bool) (vcore vio vaux : Nat) (s : State) : State :=
  let mask := ths.foldl (fun a t => a ||| thresholdBit t) 0
  let set := if crossed then s.sup.crossed ||| mask else s.sup.crossed &&& (255 ^^^ mask)
  let s := setSupplies vcore vio vaux s
  if ths.isEmpty then s
  else s |> updSup (fun y => { y with crossed := set }) |> shedTo (levelOf set) |> shedCause

/-- SHED_LEVEL_CHANGE (R399): the thresholds that cross or recover at the present sample, if any, and what the
supplies measure from now on, mV. (DEDUCED, log 155) -/
def execShedLevelChange (ths : List Threshold) (crossed : Bool) (vcore : BitVec 16) (io : IoSupplies) (s : State) :
    Out :=
  live (ths.all (thresholdMoves s crossed)) s (shedChange ths crossed vcore.toNat io.vio.toNat io.vaux.toNat s)

/-! ## The way up (R395) -/

/-- A step starts: it is shown, and ENABLE is issued for its rail. (DEDUCED, log 163) -/
def startStep (x : Nat × Nat × Nat) (s : State) : State :=
  if mode s = 3 then
    let s := if x.2.2 < 32 then setFld Reg.SM_SEQSTAT Fld.SM_SEQSTAT_STEP x.2.2 s else s
    let s := updSup (fun y => { y with run := { y.run with
      rails := y.run.rails ++ [x.1], started := y.run.started ++ [(x.1, x.2.2)],
      todo := y.run.todo.filter (· != x), applied := tset (fun _ => 0) y.run.applied x.1 0 } }) s
    seqEnable x.1 s
  else s

/-- Rails of the final group: masked rails that no valid step names (R395). -/
def finalRails (s : State) : List Nat :=
  (List.range 32).filter fun r => bitAt (rd s Reg.SM_SEQMASK) r && !(namedRails s).contains r

/-- The next group opens once the group before it is done. -/
def openGroup (s : State) : State :=
  let x := s.sup.run
  if !x.done || x.final then s
  else
    match x.groups with
    | g :: rest =>
      updSup (fun y => { y with run := { y.run with groups := rest, todo := g, rails := [], done := false } }) s
    | [] =>
      let g := (finalRails s).map fun r => (r, 0, 32)
      updSup (fun y => { y with run := { y.run with todo := g, rails := [], done := false, final := true } }) s

/-- The steps of the open group whose DELAY has passed. -/
def dueSteps (s : State) : List (Nat × Nat × Nat) :=
  s.sup.run.todo.filter fun x => decide (s.sup.run.doneAt + x.2.1 * 1000 ≤ s.tb.ns)

/-- The next group opens if it may, and its due steps start. (DEDUCED, log 163) -/
def seqAdvance (s : State) : State :=
  let s := openGroup s
  seqMark (forAll (dueSteps s) startStep s)

/-- A SEQUENCE runs, and a group can open or a step of the open one is due. -/
def seqDue (s : State) : Bool :=
  mode s == 3 && flag s Reg.SM_SEQSTAT Fld.SM_SEQSTAT_BUSY && !(dueSteps (openGroup s)).isEmpty

/-- The groups of the way up for the masked rails; those of the first start at once (R395). -/
def upGroups (s : State) (mask : Nat) : List (List (Nat × Nat × Nat)) :=
  let gs := groupSteps s ((validSteps s).filter fun j => bitAt mask (stepRail s j))
  match gs.map (fun g => g.map fun j => (stepRail s j, stepDelay s j, j)) with
  | g :: rest => g.map (fun x => (x.1, 0, x.2.2)) :: rest
  | [] => []

/-- SM_SEQCMD.START: refused outside STANDBY, while BUSY, or with an invalid table; else SEQUENCE begins and the first
group starts at once (R395, R405). (DEDUCED, log 163) -/
def seqStart (s : State) : State :=
  let a := Reg.SM_SEQSTAT
  if mode s ≠ 2 ∨ flag s a Fld.SM_SEQSTAT_BUSY = true then setFld a Fld.SM_SEQSTAT_RESULT 2 s
  else if tableInvalid s then setFld a Fld.SM_SEQSTAT_RESULT 3 s
  else
    let run := { SeqRun.init with groups := upGroups s (rd s Reg.SM_SEQMASK), done := true, doneAt := s.tb.ns }
    s |> setFld a Fld.SM_SEQSTAT_RESULT 0 |> setFlag a Fld.SM_SEQSTAT_BUSY true |> setFlag a Fld.SM_SEQSTAT_DOWN false
      |> updSup (fun y => { y with run := run }) |> enterMode 3 |> seqAdvance

/-- Rail r is expected on from now (R385). -/
def expectOn (r : Nat) (s : State) : State :=
  updFm (fun f => { f with expected := tset (fun _ => 0) f.expected r 1, reached := tset (fun _ => 0) f.reached r 0 }) s

/-- Rail r is no longer expected on (R385). -/
def expectOff (r : Nat) (s : State) : State :=
  updFm (fun f => { f with expected := tset (fun _ => 0) f.expected r 0, reached := tset (fun _ => 0) f.reached r 0 }) s

/-- AUTOSTART: START with every mask bit set; every rail is expected on, and on in the management view (R383, R385,
R395). (DEDUCED, log 164) -/
def autoStart (s : State) : State :=
  s |> wr Reg.SM_SEQMASK 0xFFFFFFFF
    |> forAll (List.range 32) (fun r s =>
        expectOn r (updFm (fun f => { f with railView := tset (fun _ => 0) f.railView r 1 }) s))
    |> seqStart

/-- SEQ_START (R395). -/
def execSeqStart (m : Master) (s : State) : Out := regWriteBy m Reg.SM_SEQCMD s (seqStart s)

/-- SEQ_GROUP_START (R395). -/
def execSeqGroupStart (s : State) : Out := live (seqDue s) s (seqAdvance s)

/-- SEQ_PG_TIMEOUT (R395). -/
def execSeqPgTimeout (r : Fin 32) (s : State) : Out := live (pgMissed s r) s (seqFail r s)

/-- Every rail the sequence enabled has PG = 1 or was disabled by the host, after the last group (R395). -/
def seqOver (s : State) : Bool :=
  let x := s.sup.run
  mode s == 3 && x.done && (x.final || (x.groups.isEmpty && (finalRails s).isEmpty)) &&
    x.started.all fun y => flag s (Reg.RT_STATE y.1) Fld.RT_STATE_PG || x.hostOff.contains y.1

/-- SEQUENCE ends in REGULATE, or in DEGRADED while a standing condition holds (R30, R392, R395). -/
def seqEnd (s : State) : State :=
  s |> setFlag Reg.SM_SEQSTAT Fld.SM_SEQSTAT_BUSY false
    |> enterMode (if rd s Reg.FM_DEGR ≠ 0 then 5 else 4)

/-- SEQUENCE_END (R395). -/
def execSequenceEnd (s : State) : Out := live (seqOver s) s (seqEnd s)

/-! ## The way down (R396, R401) -/

/-- The next group of the way down may be disabled: the rails before it are OFF and its OFFDLY has passed. -/
def downDue (s : State) : Bool :=
  mode s == 6 && s.sup.run.done &&
    match s.sup.run.groups with
    | (g :: _) :: _ => decide (s.sup.run.doneAt + g.2.1 * 1000 ≤ s.tb.ns)
    | [] :: _ => true
    | [] => false

/-- The next group of the way down is disabled; a LATCHED rail counts as OFF (R396). -/
def downGroup (s : State) : State :=
  match s.sup.run.groups with
  | g :: rest =>
    let rails := (g.map (·.1)).filter fun r => enabled s r && railState s r != 4
    let s := updSup (fun y => { y with run := { y.run with groups := rest, rails := g.map (·.1), done := false } }) s
    let s := match g with
      | x :: _ => setFld Reg.SM_SEQSTAT Fld.SM_SEQSTAT_STEP x.2.2 s
      | [] => s
    seqMark (forAll rails (seqIssue 3) s)
  | [] => s

/-- SHUTDOWN_GROUP_DISABLE (R396). -/
def execShutdownGroupDisable (s : State) : Out := live (downDue s) s (downGroup s)

/-- Every rail is OFF or LATCHED, with no command still to act (R396). (DEDUCED, log 167) -/
def railsDown (s : State) : Bool :=
  s.sup.run.waiting.isEmpty && (List.range 32).all fun r =>
    (railState s r == 0 || railState s r == 4) && (railOf s r).cmd != 2

/-! ## PWRGD_IN, the speed monitors and the cleared registers (R395, R397, R403, R405) -/

/-- PWRGD_IN_RISE (R395): after its filter, PWRGD_IN is high. -/
def execPwrgdInRise (s : State) : Out :=
  live (!flag s Reg.SM_PGIN Fld.SM_PGIN_LEVEL) s
    (let s := setFlag Reg.SM_PGIN Fld.SM_PGIN_LEVEL true s
     if mode s = 2 ∧ flag s Reg.SM_SEQHDR Fld.SM_SEQHDR_AUTOSTART = true then autoStart s else s)

/-- PWRGD_IN_FALL (R397): after its filter, PWRGD_IN is low. (DEDUCED, log 161) -/
def execPwrgdInFall (s : State) : Out :=
  live (flag s Reg.SM_PGIN Fld.SM_PGIN_LEVEL) s
    (let s := s |> setFlag Reg.SM_PGIN Fld.SM_PGIN_LEVEL false |> incFld Reg.SM_PGIN Fld.SM_PGIN_FALLS
     if flag s Reg.SM_SEQHDR Fld.SM_SEQHDR_SHUTLOSS && (mode s == 3 || mode s == 4 || mode s == 5) then
       startShutdown 5 s
     else s)

/-- A speed measurement: LOW sets when NOW falls below THR (R403, R405). (DEDUCED, log 162) -/
def speedMeasure (u v : Nat) (s : State) : State :=
  let a := Reg.SM_SPD u
  let thr := fld s Reg.SM_SPDCFG Fld.SM_SPDCFG_THR
  let first := !tget (fun _ => false) s.sup.measured u
  let low := decide (v < thr) && (first || decide (thr ≤ fld s a Fld.SM_SPD_NOW))
  let least := if first then v else min v (fld s a Fld.SM_SPD_MIN)
  let s := s |> setFld a Fld.SM_SPD_NOW v |> setFld a Fld.SM_SPD_MIN least
    |> updSup (fun y => { y with measured := tset (fun _ => false) y.measured u true })
  if low then raiseFlag a Fld.SM_SPD_LOW s else s

/-- SPEED_MEASURE (R403): replica u, 16 the Foreman's, measures v M slots/s. (DEDUCED, log 162) -/
def execSpeedMeasure (u : Fin 17) (v : BitVec 12) (s : State) : Out :=
  live (now s % 10000 == 0) s (speedMeasure u v.toNat s)

/-- The register of a supply. -/
def supplyReg : SupplyPin → Nat
  | .vcore => Reg.SM_VCORE
  | .vio => Reg.SM_VIO
  | .vaux => Reg.SM_VAUX

/-- MIN of a supply becomes NOW (R405). -/
def minReset (a : Nat) (s : State) : State := setFld a Fld.SM_VCORE_MIN (fld s a Fld.SM_VCORE_NOW) s

/-- SM_SUPPLY_MIN_RESET (R405). -/
def execSmSupplyMinReset (m : Master) (supply : SupplyPin) (s : State) : Out :=
  regWriteBy m (supplyReg supply) s (minReset (supplyReg supply) s)

/-- SM_PGIN_CLEAR (R405). -/
def execSmPginClear (m : Master) (s : State) : Out :=
  regWriteBy m Reg.SM_PGIN s (setFld Reg.SM_PGIN Fld.SM_PGIN_FALLS 0 s)

end Sys2Proof.Machine
end

