-- ==== Sys2Proof/Machine/Reset.lean ====
section
/-! DEFINITION. Reset and the boot ROM: what an entry to BOOT clears and keeps, the steps of R352, and the choice of the
Foreman image (R18, R19, R31, R310, R352, R353, R391). -/

namespace Sys2Proof.Machine

/-! ## What a reset leaves -/

/-- An NVM command cut short: an APPEND leaves some of its codewords programmed and one of them in any state, a SECTOR
or ERASE leaves the old mapping (R310). How far it came is free. (DEDUCED, log 98) -/
def cutNvm (s : State) : State :=
  match s.nv.op with
  | .none => s
  | .fetch _ _ _ _ => updNv (fun x => { x with op := .none }) s
  | .append sect first data =>
    let n := ceilDiv data.length 32
    let k := (Config.freeWord s.fresh).toNat % (n + 1)
    let bad := (Config.freeWord (s.fresh + 1)).toNat % 4
    let s := s |> spend |> spend |> programFrom (nvPhys s sect) first (data.take (32 * k))
    let s := if k < n ∧ bad ≠ 0 then
      s |> programCw (nvPhys s sect) (first + k) ((data.drop (32 * k)).take 32)
        |> updNv (fun x => { x with flips := tset (fun _ => 0) x.flips (nvCw s sect (first + k)) bad })
      else s
    updNv (fun x => { x with op := .none }) s
  | .sector _ p _ => updNv (fun x => { x with op := .none, dirty := tset (fun _ => false) x.dirty p true }) s
  | .erase _ p => updNv (fun x => { x with op := .none, dirty := tset (fun _ => false) x.dirty p true }) s

/-- The digest in SC_DATA (R365). -/
def scData (s : State) : List Nat := (List.range 16).flatMap fun w => toBytes 4 (rd s (Reg.SC_DATA w))

/-- A fuse command cut short: ARB ends anywhere from its old value to the one asked for, and any other blow has or has
not happened (R348). How far it came is free. (DEDUCED, log 145) -/
def cutFuses (s : State) : State :=
  let w := (Config.freeWord s.fresh).toNat
  let s := if s.otp.op = 0 then s else spend s
  match s.otp.op with
  | 1 => updOtp (fun o => { o with op := 0, arb := o.arb + w % (o.arg - o.arb + 1) }) s
  | 2 => updOtp (fun o => { o with op := 0, rev := if w % 2 = 1 then o.rev ||| 2 ^ o.arg else o.rev }) s
  | 3 =>
    let digest := scData s
    updOtp (fun o => if w % 2 = 1 ∧ o.owner = false then { o with op := 0, owner := true, ownerDigest := digest }
      else { o with op := 0 }) s
  | _ => updOtp (fun o => { o with op := 0 }) s

/-- An update is loading or verified, or an ACTIVATE LIVE is in progress: a reset cuts it short (R32, R356, R359). -/
def updateCut (s : State) : Bool := s.frm.update.phase == 1 || s.frm.update.phase == 2 || s.frm.act.kind != 0

/-- The device held in reset by h: every register and every unit takes its reset value, but for the NVM, the fuses,
the folio directory, the record sets, the fault log, the RAS table and the lifetime counts; an update in progress is
recorded as incomplete (R19, R32, R291, R304, R305, R344, R348, R352, R372). (DEDUCED, log 169; DESIGN CHOICE, log
187) -/
def heldIn (h : Hold) (s : State) : State :=
  let s := cutFuses (cutNvm s)
  { State.reset with
    tb := { TimeBase.init with
      hold := h, part := s.tb.part, hrs := s.tb.hrs, pcc := s.tb.pcc, nvHrs := s.tb.nvHrs, lives := s.tb.lives,
      nvPos := s.tb.nvPos, factoryBlown := s.tb.factoryBlown },
    fm := { FaultMgr.init with log := s.fm.log, logPos := s.fm.logPos },
    ras := { Ras.init with table := s.ras.table },
    nv := s.nv, er := { Recorder.init with sets := s.er.sets }, otp := s.otp,
    frm := { Foreman.init with
      dir := s.frm.dir, dirLog := s.frm.dirLog, dirPos := s.frm.dirPos,
      incomplete := updateCut s || (s.tb.hold != .none && s.frm.incomplete) },
    fresh := s.fresh, pending := s.pending }

/-- The device in DORMANT: VCORE and VIO are off, and only what NVM and the fuses hold is kept (R393). (DEDUCED, log
171) -/
def goDormant (s : State) : State := enterMode 0 (heldIn .none s)

/-! ## Steps 1 and 2: fuses and memories -/

/-- The words of a 64-byte digest are shown from register address a on. -/
def showDigest (a : Nat) (d : List Nat) (s : State) : State :=
  forAll (List.range 16) (fun w s => wr (a + 4 * w) (le d (4 * w) 4) s) s

/-- The security block's registers follow the fuses (R348, R365). -/
def showOtp (s : State) : State :=
  let a := Reg.SC_OTP
  let s := s |> setFld a Fld.SC_OTP_ARB s.otp.arb |> setFld a Fld.SC_OTP_REV s.otp.rev
    |> setFlag a Fld.SC_OTP_OWNER s.otp.owner |> setFlag a Fld.SC_OTP_FACTORY s.tb.factoryBlown
  let s := forAll (List.range 4) (fun i s => showDigest (Reg.SC_ROOT i 0) (slotDigest s i) s) s
  showDigest (Reg.SC_OWNER 0) s.otp.ownerDigest s

/-- Spare rows and page retirements are applied again, no more than a bank has (R304, R305). -/
def applySpares (s : State) : State :=
  forAll (List.range 169) (fun k s =>
    let of := fun row => ((rasEntries s).filter fun x => x.1 == row && x.2.1 == k).length
    s |> setFld (Reg.MR_BSTAT k) Fld.MR_BSTAT_SROW (min (spareRows k) ((Config.fuseRows k).toNat + of true))
      |> setFld (Reg.MR_BSTAT k) Fld.MR_BSTAT_SPAGE (min (sparePages k) (of false))) s

/-- The NVM controller's registers follow its journal and its erase counts (R310, R311, R315). -/
def showNvm (s : State) : State :=
  let n := s.nv.gone.length
  s |> setFld Reg.NV_STAT Fld.NV_STAT_SPARES (64 - n) |> setFld Reg.NV_STAT Fld.NV_STAT_RETIRED (min 255 n) |> showWear

/-- The boot ROM reads the records in NVM: the lifetime counts, the RAS table, the fault log and the directory (R309,
R310, R312). -/
def readRecords (s : State) : State := s |> nvTouch 128 0 8192 |> nvTouch 128 528 512 |> loadDir

/-- Foreman memory, folio staging and recorder memory are written with zeros and marked (R301). -/
def clearMemories (s : State) : State :=
  forAll ((List.range 8).map (144 + ·) ++ (List.range 16).map (152 + ·) ++ [168]) (fun k s =>
    fillMemory k (bankBase k) (bankSize k) [] s) s

/-- The recorder restores its newest complete set (R291). -/
def restoreRecorder (s : State) : State :=
  match s.er.sets.find? (setReads s) with
  | some x =>
    let s := nvTouch 128 (placeSector x.place) 5376 s
    let mem := x.cells.foldl (fun t c => tset (fun _ => 0#8) t c.1 c.2) s.mem
    { s with mem := mem } |> wr Reg.ER_CSEQ x.seq |> setFld Reg.ER_LOG Fld.ER_LOG_NEXT x.next
      |> setFlag Reg.ER_STAT Fld.ER_STAT_RESTORED true
  | none => s

/-! ## Step 3: the Foreman image (R353) -/

/-- A Foreman or folio event of R370. (DESIGN CHOICE, log 143) -/
def foremanEvent (event cls unit : Nat) (s : State) : State :=
  report { src := 0x19, event := event, cls := cls, unit := unit } s

/-- The Foreman image f of source k (0 A, 1 B, 2 golden) is loaded and shown: the rest of Foreman memory stands (R346,
R352, R361). -/
def runForeman (k : Nat) (f : List Nat) (s : State) : State :=
  s |> storeBytes 128 0x20000000 (fBody f)
    |> showDigest (Reg.SC_FMMEAS 0) (fDigest f) |> wr Reg.MB_MCTPCFG (Config.ianaOf (fDigest f)).toNat
    |> updFrm (fun x => { x with image := k, version := fVersion f, snapLo := fSnaplo f, snapHi := fSnaphi f,
                                 recovery := false })

/-- The checks of R350 failed with this RESULT on a folio that the boot ROM was to use: the record carries it.
(DEDUCED, log 210) -/
def folioFails (event result : Nat) (s : State) : State :=
  report { src := 0x19, event := event, cls := 2, unit := 0, detail := result } s

/-- The RESULT of the checks of a slot's folio that the directory lets the boot ROM use. A slot in TRIAL at BOOT counts
as failed (R352). -/
def bootResult (s : State) (t i k : Nat) : Option Nat :=
  let d := dirOf s t i
  let active := d.active == k
  if d.state = 0 ∨ (d.slot k).valid = false ∨ (active = true ∧ d.state = 2) then none
  else some (slotResult s t i k s.frm.version)

/-- The folio of a slot that the boot ROM can use (R352). -/
def bootSlot (s : State) (t i k : Nat) : Option (List Nat) :=
  if bootResult s t i k = some 0 then slotVerifies s t i k s.frm.version else none

/-- The directory after BOOT uses a slot: the other one after a fallback, and PENDING becomes TRIAL, which a TRIAL of 0
seconds confirms (R344, R352, R358). -/
def bootDir (t i k : Nat) (s : State) : State :=
  let d := dirOf s t i
  if d.active ≠ k then setDir t i { d with active := k, state := 1 } s
  else if d.state = 3 then
    if d.secs = 0 then setDir t i { d with state := 1 } s
    else
      setDir t i { d with state := 2 } (updFrm (fun f => { f with
        trials := tset (fun _ => 0) f.trials (64 * t + i) (s.tb.ns + d.secs * 1000000000 + 1) }) s)
  else s

/-- The folio that BOOT uses for a target and instance, after the records and directory changes it makes; ev is the
Foreman event of an active slot that fails (R352). (DEDUCED, log 210; DESIGN CHOICE, log 143) -/
def bootSelect (t i ev : Nat) (s : State) : State × Option (Nat × List Nat) :=
  let k := (dirOf s t i).active
  let s := readFolio (slotSectors t i k).1 (slotSectors t i k).2 s
  let r := (bootResult s t i k).getD 0
  match bootSlot s t i k with
  | some f => (bootDir t i k s, some (k, f))
  | none =>
    let s := readFolio (slotSectors t i (1 - k)).1 (slotSectors t i (1 - k)).2 s
    match bootSlot s t i (1 - k) with
    | some f => (s |> bootDir t i (1 - k) |> folioFails ev r, some (1 - k, f))
    | none => (if (dirOf s t i).state = 0 then s else folioFails ev r s, none)

/-- Step 3: the first Foreman image that verifies, or recovery (R353). (DESIGN CHOICE, log 143) -/
def bootForeman (s : State) : State :=
  match bootSelect 2 0 4 s with
  | (s, some (k, f)) => runForeman k f s
  | (s, none) =>
    let s := readFolio 400 128 s
    match goldenVerifies s with
    | some f => s |> runForeman 2 f |> (fun s => if (dirOf s 2 0).state = 0 then foremanEvent 4 2 0 s else s)
    | none => updFrm (fun x => { x with recovery := true, image := 3 }) s

/-! ## Steps 4 to 6: the other folios -/

/-- The rail table is put into force (R352): without one, every entry keeps its reset value. -/
def bootRails (s : State) : State :=
  match bootSelect 5 0 5 s with
  | (s, some (_, f)) =>
    let body := fBody f
    let s := forAll (List.range 32) (fun r s =>
      writeSlotValues body r (writeRailWords r ((List.range 16).zip (railWords body r)) s)) s
    updFrm (fun x => { x with plan := planOf body }) (writeSequence body s)
  | (s, none) => s

/-- Each coefficient set goes into bank 0 of its rail's slot (R352). -/
def bootCoefs (s : State) : State :=
  forAll (List.range 32) (fun r s =>
    match bootSelect 3 r 5 s with
    | (s, some (_, f)) => writeCoef (fBody f) r 0 s
    | (s, none) => s) s

/-- The stage profile is in force (R352): without one, stages keep their own reset values. -/
def bootProfile (s : State) : State :=
  match bootSelect 4 0 5 s with
  | (s, some (_, f)) => updFrm (fun x => { x with profile := fBody f }) s
  | (s, none) => s

/-- The engine images that the plan names. -/
def plannedImages (s : State) : List Nat :=
  (List.range 16).filter fun i =>
    (List.range 16).any fun q => (List.range 6).any (fun b => planByte s q (1 + b) == i) ||
      (List.range 8).any (fun j => planByte s q (8 + j) == i)

/-- The folios of the images that the plan names, as BOOT selects them; the engines of one with none stay halted, with
a U-class fault (R352). (DESIGN CHOICE, log 143) -/
def selectImages (s : State) : State × List (Nat × List Nat) :=
  (plannedImages s).foldl (fun (x : State × List (Nat × List Nat)) i =>
    match bootSelect 1 i 5 x.1 with
    | (s, some (_, f)) => (s, x.2 ++ [(i, f)])
    | (s, none) => (if (dirOf s 1 i).state = 0 then folioFails 5 0 s else s, x.2)) (s, [])

/-- The home engines of the plan's binding slots, and the engines that it runs singly, hold an image: a reserved spare
does not (R245, R346, R352). -/
def loadPlan (i k : Nat) (f : List Nat) (s : State) : State :=
  forAll (List.range 16) (fun q s =>
    let s := forAll (List.range 8) (fun j s =>
      if planByte s q (8 + j) = i ∧ ¬reserved s q j then loadImage (eng q j) i k f s else s) s
    forAll (List.range 6) (fun b s =>
      if planByte s q (1 + b) = i then loadImage (eng q (nthD 0 (slotEngines b) 0)) i k f s else s) s) s

/-- The binding slots of the plan are formed: those whose image stands in their home engine, and the spares (R346,
R352). -/
def formPlan (s : State) : State :=
  forAll (List.range 16) (fun q s => forAll (List.range 6) (fun b s =>
    let v := planByte s q (1 + b)
    if v = 0xFE then bdCommand q 1 b 0 0 (setFlag (Reg.BD_BCTL q b) Fld.BD_BCTL_ROLE true s)
    else if v < 16 ∧ (engOf s (eng q (nthD 0 (slotEngines b) 0))).image = v + 1 then bdCommand q 1 b 0 0 s
    else s) s) s

/-- The single engines of the plan that hold their image restart at ENTRY and PRIV (R209, R352). -/
def startSingles (s : State) : State :=
  forAll (List.range 16) (fun q s => forAll (List.range 8) (fun j s =>
    if planByte s q (8 + j) < 16 ∧ (engOf s (eng q j)).image = planByte s q (8 + j) + 1 ∧ ¬bound s q j ∧ ¬reserved s q j
    then restartEngine (eng q j) s else s) s) s

/-- The engines of the plan start: every image is loaded, BD_CFG is written, every binding slot of the plan is formed,
and then the single engines restart (R352). -/
def bootEngines (s : State) : State :=
  if s.frm.plan.isEmpty then s
  else
    let (s, fs) := selectImages s
    let s := forAll (List.range 16) (fun q s => bdCfgWrite q (planByte s q 0) s) s
    let s := forAll fs (fun x s => loadPlan x.1 (dirOf s 1 x.1).active x.2 s) s
    startSingles (formPlan s)

/-- The newest FM event 3 record of the fault log (R382). -/
def lastShutdown (s : State) : Option FaultRec := (logEntries s).reverse.find? fun x => x.src == 1 && x.event == 3

/-- The engines leave reset, halted until the plan starts them (R29, R241). -/
def releaseEngines (s : State) : State := forAll (List.range 128) (fun e s => setEngState e 2 s) s

/-- The management view of the engines is the plan: those it started run (R383). -/
def planViews (s : State) : State :=
  forAll ((List.range 128).filter fun e => engState s e == 0) (fun e s => manage (e / 8) [e % 8] 0 s) s

/-- Steps 4 to 6, once a Foreman image runs. -/
def bootRest (s : State) : State :=
  if s.frm.recovery then s
  else s |> bootRails |> bootProfile |> bootCoefs |> releaseEngines |> bootEngines |> planViews

/-- Entry to BOOT and the boot ROM's steps 1 to 6: TB_NS is 0, the power-cycle count rises, and FM_SHUTCAUSE comes
from the log (R18, R19, R352, R382). (DEDUCED, log 168, 169; DESIGN CHOICE, log 170) -/
def enterBoot (s : State) : State :=
  let s := updTb (fun b => { b with hold := .none, pcc := (b.pcc + 1) % 2 ^ 32 }) s
  let cause := match lastShutdown s with
    | some x => x.detail
    | none => 0
  s |> setFlag Reg.TB_STAT Fld.TB_STAT_LOCK true |> wr Reg.FM_SHUTCAUSE cause |> readRecords |> showOtp |> showNvm
    |> applySpares |> clearMemories
    |> restoreRecorder |> bootForeman |> bootRest

/-- A warm entry to BOOT: the running operating hours carry on (R19). (DEDUCED, log 166, 169) -/
def warmBoot (s : State) : State := enterBoot (heldIn .none s)

/-- A cold entry to BOOT: the running count is the newest committed one that reads good (R19, R310). (DEDUCED, log
169) -/
def coldBoot (s : State) : State :=
  let s := heldIn .none s
  let h := committedHours s
  enterBoot (updTb (fun b => { b with part := 0, hrs := h, nvHrs := h }) s)

end Sys2Proof.Machine
end

