-- ==== Sys2Proof/Machine/Mailbox.lean ====
section
/-! DEFINITION. The mailbox: the alert, sessions and their phases, Lyheuf framing and the Foreman's checks, doorbells,
posts, and the restart of the Foreman (R321 to R328, R334, R337, R340, R342). -/

namespace Sys2Proof.Machine

/-! ## Memory as the Foreman, the host and the sequencer reach it -/

/-- The request and response windows of session x in Foreman memory (R316). -/
def reqWindow (x : Nat) : Nat := 0x201E0000 + x * 0x2000
def respWindow (x : Nat) : Nat := 0x1000 + reqWindow x

/-! ## The alert (R323) -/

/-- The alert is asserted. -/
def alertLevel (s : State) : Bool :=
  rd s Reg.MB_HRDY &&& fld s Reg.MB_HAEN Fld.MB_HAEN_SESS != 0 ||
    (flag s Reg.MB_HWASTAT Fld.MB_HWASTAT_DONE && flag s Reg.MB_HAEN Fld.MB_HAEN_HWA)

/-- MB_HAEN.ROUTE sends the alert to route k: 0 I3C, 1 SMBus, 2 SPI. -/
def routed (s : State) (k : Nat) : Bool :=
  let r := fld s Reg.MB_HAEN Fld.MB_HAEN_ROUTE
  r == k || r == 3

/-- The lowest session with a pending alert, 0 where there is none. -/
def lowestAlert (s : State) : Nat :=
  match ones 16 (rd s Reg.MB_HRDY &&& fld s Reg.MB_HAEN Fld.MB_HAEN_SESS) with
  | x :: _ => x
  | [] => 0

/-- The alert settles: a rise raises an in-band interrupt with its data byte where I3C carries it and the target has a
dynamic address, and SMBALERT_N is no longer released. (DEDUCED, log 119) -/
def settleAlert (s : State) : State :=
  let a := alertLevel s
  if a && !s.host.alert then
    let byte := b2n (flag s Reg.MB_HWASTAT Fld.MB_HWASTAT_DONE) * 128 + lowestAlert s
    let up := fld s Reg.MB_I3CCFG Fld.MB_I3CCFG_DA != 0 && !flag s Reg.MB_I3CCFG Fld.MB_I3CCFG_DIS
    let ibi := if routed s 0 && s.host.events && up then byte + 1 else s.host.ibi
    updHost (fun h => { h with alert := true, released := false, ibi := ibi }) s
  else updHost (fun h => { h with alert := a }) s

/-- SMBALERT_N is held low (R323, R331). -/
def smbAlert (s : State) : Bool := (routed s 1 && s.host.alert && !s.host.released) || s.host.pmbAlert

/-! ## Sessions (R321, R322) -/

def sessState (s : State) (x : Nat) : Nat := fld s (Reg.MB_SESS x) Fld.MB_SESS_STATE
def sessPhase (s : State) (x : Nat) : Nat := fld s (Reg.MB_SESS x) Fld.MB_SESS_PHASE
def setPhase (x p : Nat) (s : State) : State := setFld (Reg.MB_SESS x) Fld.MB_SESS_PHASE p s

/-- Session x returns to FREE: its role lapses, a stream it started stops, and an update it owns returns to IDLE (R322,
R336, R356). -/
def freeSession (x : Nat) (s : State) : State :=
  let s := s |> setFld (Reg.MB_SESS x) Fld.MB_SESS_STATE 0 |> setFld (Reg.MB_SESS x) Fld.MB_SESS_XPORT 0
    |> updSess x (fun y => { y with endpoint := 0, based := false, nonce := [], frag := [], lapse := false })
  let s := if s.host.streamNs != 0 && s.host.streamOwner == x then
    updHost (fun h => { h with stream := [], streamNs := 0 }) s else s
  if s.frm.update.phase != 0 && s.frm.update.session == x then
    updFrm (fun f => { f with update := Update.init }) s else s

/-- The owner session, if there is one (R326). -/
def ownerSession (s : State) : Option Nat := (List.range 16).find? fun x => sessState s x == 2

/-- The transport of a register write or a window write: the code of XPORT, and of the master (R342, R375). -/
def viaCode : Via → Nat
  | .i3c => 1
  | .smbus => 2
  | .spi => 3
/-- DEDUCED, log 116. -/
def viaMaster (v : Via) : Nat := 132 + viaCode v

/-! ## Framing (R324) -/

/-- The bytes of a message before its CRC; x is its SESSION. -/
def header (x seq op flags len status : Nat) : List Nat :=
  [1, x] ++ toBytes 2 seq ++ toBytes 2 op ++ toBytes 2 flags ++ toBytes 2 len ++ toBytes 2 status ++ [0, 0, 0, 0]

/-- A whole response message, with its CRC. -/
def message (x seq op flags status : Nat) (payload : List Nat) : List Nat :=
  let m := header x seq op flags payload.length status ++ payload
  m ++ toBytes 4 (crc32 m)

/-! ## Opcodes (R329) -/

/-- An opcode's role, whether it is critical, and its class. -/
structure OpInfo where
  code : Nat
  owner : Bool
  crit : Bool
  cls : Nat
  deriving DecidableEq, Repr

/-- The table of R329. ABORT's role is checked with its target. -/
def opcodes : List OpInfo :=
  [⟨0x0101, false, true, 1⟩, ⟨0x0102, false, true, 1⟩, ⟨0x0103, true, true, 2⟩, ⟨0x0110, false, true, 1⟩,
   ⟨0x0111, false, true, 1⟩, ⟨0x0112, false, true, 1⟩, ⟨0x0113, false, true, 3⟩, ⟨0x0114, true, true, 1⟩,
   ⟨0x0201, false, true, 1⟩, ⟨0x0202, true, true, 2⟩, ⟨0x0203, true, true, 2⟩, ⟨0x0204, true, true, 2⟩,
   ⟨0x0205, true, true, 2⟩, ⟨0x0206, true, true, 2⟩, ⟨0x0301, false, true, 1⟩, ⟨0x0302, true, true, 2⟩,
   ⟨0x0401, false, true, 1⟩, ⟨0x0402, true, true, 2⟩] ++
  [⟨0x0501, true, false, 4⟩, ⟨0x0502, true, false, 4⟩, ⟨0x0503, true, false, 4⟩, ⟨0x0504, true, false, 4⟩,
   ⟨0x0505, true, false, 4⟩, ⟨0x0506, true, false, 4⟩, ⟨0x0601, false, false, 1⟩, ⟨0x0602, true, false, 2⟩,
   ⟨0x0701, false, false, 1⟩, ⟨0x0702, true, false, 2⟩, ⟨0x0801, false, true, 1⟩, ⟨0x0802, true, true, 2⟩,
   ⟨0x0901, false, false, 3⟩, ⟨0x0902, false, false, 1⟩, ⟨0x0F01, false, true, 5⟩]

def opInfo (op : Nat) : Option OpInfo := opcodes.find? (·.code == op)

/-- The opcodes that the boot ROM serves in BOOT (R353). -/
def recoveryOps : List Nat := [0x0101, 0x0102, 0x0110, 0x0111, 0x0501, 0x0502, 0x0503, 0x0506]

/-- STATUS codes (R328). -/
def stOK : Nat := 0
def stBUSY : Nat := 1
def stBADVER : Nat := 2
def stBADCRC : Nat := 3
def stBADLEN : Nat := 4
def stBADOP : Nat := 5
def stROLE : Nat := 6
def stSTATE : Nat := 7
def stARG : Nat := 8
def stABORTED : Nat := 9
def stSEQ : Nat := 10
def stAUTH : Nat := 11
def stSHED : Nat := 12
def stREFUSED : Nat := 13

/-! ## Answers -/

/-- The Foreman has a response for the request session x has in EXEC. -/
def respond (x status : Nat) (payload : List Nat) (s : State) : State :=
  match (sessOf s x).req with
  | some r =>
    updSess x (fun y => { y with
      ready := some { session := r.session, seq := r.seq, op := r.op, flags := 1, status := status, payload := payload,
                      done := true, rail := 0 } }) s
  | none => s

/-- A response with STATUS OK that takes RT_APPLIED and RT_CMDSTAT of rail r when it is posted (R330). -/
def respondRail (x r : Nat) (s : State) : State :=
  match (sessOf s x).req with
  | some q =>
    updSess x (fun y => { y with
      ready := some { session := q.session, seq := q.seq, op := q.op, flags := 1, status := stOK, payload := [],
                      done := true, rail := r + 1 } }) s
  | none => s

/-- A REFUSED response: the block and the RESULT of its refusal (R328). (DEDUCED, log 109) -/
def respondRefused (x block result : Nat) (s : State) : State := respond x stREFUSED [block, result, 0, 0] s

/-- A payload whose layout the spec does not give, made of the stated values (R329). (DESIGN CHOICE, log 108) -/
def packed (op : Nat) (values : List Int) : List Nat :=
  (List.range ((Config.packLen op values).toNat % 4065)).map fun i => (Config.packByte op values i).toNat

/-! ## The Foreman's checks (R325, R327) -/

/-- What the checks of R325 make of a request in the window of session x: a STATUS and whether its SEQ completes, or
none where it is carried out. (DEDUCED, log 99, 100, 103) -/
def checkRequest (s : State) (x : Nat) (bs : List Nat) : Option (Nat × Bool) :=
  let y := sessOf s x
  let len := le bs 8 2
  let seq := le bs 2 2
  let op := le bs 4 2
  let boot := mode s == 1
  if le bs 0 1 ≠ 1 then some (stBADVER, false)
  else if 4064 < len ∨ 4 ≤ le bs 6 2 ∨ ¬blank bs 0x0C 4 then some (stBADLEN, false)
  else if crc32 (bs.take (16 + len)) ≠ le bs (16 + len) 4 then some (stBADCRC, false)
  else if le bs 1 1 ≠ x then some (stBADLEN, false)
  else if y.based ∧ seq ≠ (fld s (Reg.MB_SESS x) Fld.MB_SESS_SEQ + 1) % 65536 then some (stSEQ, false)
  else
    match opInfo op with
    | none => some (stBADOP, true)
    | some info =>
      if sessState s x = 0 ∧ op ≠ 0x0110 then some (stSTATE, true)
      else if boot ∧ ¬recoveryOps.contains op then some (stSTATE, true)
      else if info.owner ∧ ¬boot ∧ sessState s x ≠ 2 then some (stROLE, true)
      else if ¬info.crit ∧ 1 ≤ shed s then some (stSHED, true)
      else none

/-- A request repeats the last completed one (R327). (DEDUCED, log 102) -/
def repeats (s : State) (x : Nat) (bs : List Nat) : Bool :=
  let y := sessOf s x
  sessState s x != 0 && !y.stored.isEmpty && le bs 2 2 == fld s (Reg.MB_SESS x) Fld.MB_SESS_SEQ && le bs 4 2 == y.lastOp

/-- A held fragment of CLAIM_OWNER is followed by something else than its PART 1 with the same TAKE, whole and well
formed: the fragment is discarded and the nonce consumed (R326). (DEDUCED, log 110) -/
def breakClaim (x op : Nat) (payload : List Nat) (s : State) : State :=
  let y := sessOf s x
  let second := op == 0x0113 && nthD 0 payload 0 == y.fragTake && nthD 0 payload 1 == 1 && blank payload 2 2 &&
    payload.length == 631
  if y.frag.isEmpty || second then s
  else updSess x (fun y => { y with frag := [], nonce := [] }) s

/-- The Foreman, or the boot ROM in recovery, takes the request of session x from bytes bs: it repeats a stored
response, refuses it, or has it to carry out (R323, R325, R327). -/
def takeRequest (x : Nat) (bs : List Nat) (s : State) : State :=
  let who := le bs 1 1
  let seq := le bs 2 2
  let op := le bs 4 2
  let len := le bs 8 2
  let s := s |> setPhase x 2 |> updSess x (fun y => { y with reqAt := s.tb.ns, ready := none })
  let framed := (checkRequest s x bs).isNone || ((checkRequest s x bs).elim false fun c => c.1 != stBADVER &&
    c.1 != stBADLEN && c.1 != stBADCRC)
  if framed && repeats s x bs then
    updSess x (fun y => { y with
      req := some { session := who, seq := seq, op := op, payload := [] },
      ready := some { session := who, seq := seq, op := op, flags := le y.stored 6 2, status := le y.stored 0x0A 2,
                      payload := cut y.stored 16 (le y.stored 8 2), done := true, rail := 0 } }) s
  else
    let payload := cut bs 16 (min len 4064)
    let req := some { session := who, seq := seq, op := op, payload := payload }
    match checkRequest s x bs with
    | some (st, done) =>
      updSess x (fun y => { y with
        req := req,
        ready := some { session := who, seq := seq, op := op, flags := 1, status := st, payload := [], done := done,
                        rail := 0 } })
        (if done then breakClaim x op payload s else s)
    | none => updSess x (fun y => { y with req := req }) (breakClaim x op payload s)

/-- The Foreman works on requests: it serves, or it finishes those in EXEC before its own live update; in FACTORY the
mailbox answers nothing (R334, R361). -/
def foremanWorks (s : State) : Bool :=
  (foremanServes s && mode s != 7) || (alive s && decide (2 ≤ mode s) && s.frm.act.kind == 2 && s.frm.act.since == 0)

/-- An ABORT of another session is to be carried out first (R333). (DESIGN CHOICE, log 204) -/
def abortWaits (s : State) (x : Nat) : Bool :=
  (List.range 16).any fun y => y != x && sessPhase s y == 2 && (sessOf s y).ready.isNone &&
    (sessOf s y).req.elim false fun r => r.op == 0x0F01

/-- Session x has a request of opcode op to carry out, no ABORT comes before it, and the Foreman, or the boot ROM in
BOOT, is there to do it. (DEDUCED, log 103; DESIGN CHOICE, log 204) -/
def serving (s : State) (x op : Nat) : Bool :=
  alive s && sessPhase s x == 2 && (sessOf s x).ready.isNone &&
    ((sessOf s x).req.elim false fun r => r.op == op) && (op == 0x0F01 || !abortWaits s x) &&
    (foremanWorks s || (mode s == 1 && x == 0 && recoveryOps.contains op))

/-- The payload of the request session x has in EXEC. -/
def payloadOf (s : State) (x : Nat) : List Nat := (sessOf s x).req.elim [] Request.payload

/-- The answer of a Lyheuf command of session x, opcode op, whose request payload must have n bytes: ARG where it has
not (R325), else the effect f. -/
def lyheufSized (x op n : Nat) (s : State) (f : List Nat → State → State) : Out :=
  let p := payloadOf s x
  act (serving s x op) s (if p.length = n then f p s else respond x stARG [] s)

/-- The answer of a Lyheuf command of session x, opcode op. -/
def lyheuf (x op : Nat) (s t : State) : Out := act (serving s x op) s t

/-! ## Doorbells (R323, R334, R341) -/

/-- The hardware sequencer writes its BUSY: the request's header, and a CRC (R334). -/
def busyPost (x : Nat) (s : State) : State :=
  let (s, h, _) := loadBytes 137 (reqWindow x) 16 s
  let m := h.take 6 ++ [3, 0, 0, 0] ++ toBytes 2 stBUSY ++ h.drop 12
  s |> storeBytes 137 (respWindow x) (m ++ toBytes 4 (crc32 m)) |> setPhase x 3 |> raiseWord Reg.MB_HRDY (2 ^ x)
    |> settleAlert

/-- The windows of session x are held (R304, R306). -/
def windowsHeld (s : State) (x : Nat) : Bool := rangeHeld s (reqWindow x) 0x2000

/-- The hardware sequencer answers a doorbell with BUSY; while the session's windows are held it owes the answer
(R304, R334). (DEDUCED, log 216) -/
def busyResponse (x : Nat) (s : State) : State :=
  if windowsHeld s x then updSess x (fun y => { y with busyDue := true }) s else busyPost x s

/-- The answers that held windows kept waiting, once they are free (R304). (DEDUCED, log 216) -/
def busyResume (s : State) : State :=
  forAll ((List.range 16).filter fun x => (sessOf s x).busyDue && !windowsHeld s x)
    (fun x s => busyPost x (updSess x (fun y => { y with busyDue := false }) s)) s

/-- A doorbell of session x from transport v, coded as XPORT, is ignored: PHASE is not IDLE, the sequencer owes the
session an answer, or it belongs to another transport. (DEDUCED, log 216) -/
def doorbellRefused (s : State) (x v : Nat) : Bool :=
  sessPhase s x != 0 || (sessOf s x).busyDue ||
    (sessState s x != 0 && !flag s Reg.MB_HSTAT Fld.MB_HSTAT_FBUSY && fld s (Reg.MB_SESS x) Fld.MB_SESS_XPORT != v)

/-- A doorbell rings (R323): it is taken, answered with BUSY, or ignored. In FACTORY the mailbox answers nothing
(R334). -/
def ringDoorbell (v x : Nat) (s : State) : State :=
  if mode s = 7 then s
  else if doorbellRefused s x v then raiseFlag Reg.MB_HSTAT Fld.MB_HSTAT_DBREF s
  else if flag s Reg.MB_HSTAT Fld.MB_HSTAT_FBUSY && !(mode s == 1 && x == 0) then busyResponse x s
  else
    s |> setPhase x 1 |> raiseWord Reg.MB_FREQ (2 ^ x)
      |> updSess x (fun y => { y with via := v, viaEnd := 0, reqAt := s.tb.ns })

/-- The doorbells of a write to MB_HDB ring, lowest session first. -/
def ringAll (v mask : Nat) (s : State) : State := forAll (ones 16 mask) (ringDoorbell v) s

/-- A host transport reaches the mailbox's registers: the target is enabled and the device serves it (R29, R342). -/
def viaUp (s : State) (v : Via) : Bool :=
  alive s && match v with
    | .i3c => mode s != 7 && !flag s Reg.MB_I3CCFG Fld.MB_I3CCFG_DIS
    | .smbus => !flag s Reg.MB_SMBCFG Fld.MB_SMBCFG_DIS
    | .spi => mode s != 7 && !flag s Reg.MB_SPICFG Fld.MB_SPICFG_DIS

/-- MB_DOORBELL (R323): the host writes MB_HDB. -/
def execMbDoorbell (v : Via) (ring : BitVec 16) (s : State) : Out :=
  act (viaUp s v) s (ringAll (viaCode v) ring.toNat s)

/-! ## The Foreman's side (R323, R340, R342) -/

/-- The Foreman clears MB_FREQ bit x: the request it stands for goes to EXEC and is checked; while its window is held
the Foreman waits (R304). Against a doorbell on the same tick the set wins (R10). -/
def freqClear (x : Nat) (s : State) : State :=
  if bitAt (raisedIn s Reg.MB_FREQ) x then s
  else if sessPhase s x = 1 then
    if rangeHeld s (reqWindow x) 4096 then s
    else
      let (s, bs, _) := loadBytes 128 (reqWindow x) 4096 (clrWord Reg.MB_FREQ (2 ^ x) s)
      takeRequest x bs s
  else clrWord Reg.MB_FREQ (2 ^ x) s

/-- The opcode in the request window of session x. -/
def windowOp (s : State) (x : Nat) : Nat := memValue s (reqWindow x + 4) 2

/-- The sessions of a mask in the order in which the Foreman takes them: ABORT before all others, and the rest from
the one that the round robin comes to next (R333). (DEDUCED, log 239) -/
def askedOrder (s : State) (mask : Nat) : List Nat :=
  let xs := ((List.range 16).map fun i => (s.host.turn + i) % 16).filter (bitAt mask)
  let first := fun x => windowOp s x == 0x0F01
  xs.filter first ++ xs.filter (!first ·)

/-- An ABORT waits in REQ that the mask does not take: the Foreman takes nothing before it (R333). (DEDUCED, log 239)
-/
def abortAsked (s : State) (mask : Nat) : Bool :=
  (List.range 16).any fun x => sessPhase s x == 1 && windowOp s x == 0x0F01 && !bitAt mask x

/-- A session of the mask is taken: the round robin goes on after it (R333). (DEDUCED, log 239) -/
def takeAsked (x : Nat) (s : State) : State :=
  let taken := sessPhase s x == 1 && !rangeHeld s (reqWindow x) 4096 && !bitAt (raisedIn s Reg.MB_FREQ) x
  let s := freqClear x s
  if taken then updHost (fun h => { h with turn := (x + 1) % 16 }) s else s

/-- The Foreman takes requests: it serves, or the boot ROM serves session 0 (R353); in FACTORY none (R334). (DEDUCED,
log 239) -/
def takesAsked (s : State) (x : Nat) : Bool := (foremanServes s && mode s != 7) || (mode s == 1 && x == 0)

/-- A Foreman core clears MB_FREQ bits: requests are taken in the order of R333, but none while an ABORT waits that is
not among them. (DEDUCED, log 239) -/
def freqWrite (mask : Nat) (s : State) : State :=
  let early := abortAsked s mask
  forAll (askedOrder s mask) (fun x s =>
    if takesAsked s x && !(early && sessPhase s x == 1 && windowOp s x != 0x0F01) then takeAsked x s else s) s

/-- Only Foreman cores reach MB_ on the spine (R342). -/
def execMbFreqClear (m : Master) (mask : BitVec 16) (s : State) : Out :=
  regWriteBy m Reg.MB_FREQ s (freqWrite mask.toNat s)

/-- The payload of a response as it is posted. (DEDUCED, log 104) -/
def postedPayload (s : State) (r : Response) : List Nat :=
  if r.rail = 0 then r.payload
  else if 32 < r.rail then toBytes 4 (rd s (Reg.LU_CSIDX (homeOf (r.rail - 33)) (slotOf (r.rail - 33))))
  else toBytes 4 (rd s (Reg.RT_APPLIED (r.rail - 1))) ++ toBytes 4 (rd s Reg.RT_CMDSTAT)

/-- The enterprise number, most significant byte first (R320). -/
def ianaBytes (s : State) : List Nat := (toBytes 4 (rd s Reg.MB_MCTPCFG)).reverse

/-- A message goes into session x's response window and is posted: RESP for a session of the mailbox; to an MCTP
endpoint the Foreman sends it, after its type byte and the enterprise number, and the session is IDLE (R320, R323).
(DEDUCED, log 102) -/
def deliver (m x : Nat) (bs : List Nat) (s : State) : State :=
  let s := storeBytes m (respWindow x) bs s
  if 4 ≤ (sessOf s x).via then
    updHost (fun h => { h with answer := { ack := true, data := 0x7F :: ianaBytes s ++ bs, pec := none } })
      (setPhase x 0 s)
  else
    s |> setPhase x 3 |> raiseWord Reg.MB_HRDY (2 ^ x)
      |> settleAlert

/-- A response is posted: its SEQ completes, it is stored for a repeat, and a session that lapsed meanwhile goes to
FREE (R323, R327, R341). (DEDUCED, log 99, 101) -/
def postResponse (x : Nat) (r : Response) (s : State) : State :=
  let bs := message r.session r.seq r.op r.flags r.status (postedPayload s r)
  let s := deliver 128 x bs s
  let s := updSess x (fun y => { y with ready := none, req := none }) s
  let s := if r.done then
    let s := setFld (Reg.MB_SESS x) Fld.MB_SESS_SEQ r.seq s
    let opened := r.op != 0x0110 && sessState s x != 0
    updSess x (fun y => { y with lastOp := r.op, stored := bs, based := y.based || opened }) s
    else s
  if (sessOf s x).lapse then freeSession x s else s

/-- The Foreman posts the response of session x, written into its window. A rail command's waits for the rail table to
have acted; one that follows a hardware abort is discarded and counted (R340). (DEDUCED, log 104, 105) -/
def postSession (x : Nat) (s : State) : State :=
  if (sessOf s x).late ∨ sessPhase s x ≠ 2 then
    updSess x (fun y => { y with ready := if y.late then y.ready else none, late := false })
      (incFld Reg.MB_CNT Fld.MB_CNT_LATEDROP s)
  else
    match (sessOf s x).ready with
    | some r => postResponse x r s
    | none => s

/-- The Foreman has a response to post for session x: its window is not held (R304), and one that takes a rail's
applying index or swap index waits for it. (DEDUCED, log 104) -/
def canPost (s : State) (x : Nat) : Bool :=
  (sessOf s x).late || match (sessOf s x).ready with
  | some r =>
    mode s != 7 && !rangeHeld s (respWindow x) 4096 && (r.rail == 0 || sessPhase s x != 2 ||
      (if 32 < r.rail then !flag s (Reg.LU_CSEL (homeOf (r.rail - 33)) (slotOf (r.rail - 33))) Fld.LU_CSEL_PEND
       else !flag s Reg.RT_CMDSTAT Fld.RT_CMDSTAT_BUSY))
  | none => false

/-- A live update of the Foreman begins once no session is in EXEC (R361). (DESIGN CHOICE, log 142) -/
def updateOrigin (s : State) : State :=
  if s.frm.act.kind = 2 ∧ s.frm.act.since = 0 ∧ (List.range 16).all (fun x => sessPhase s x != 2) then
    updFrm (fun f => { f with act := { f.act with since := s.tb.ns + 1 } }) s
  else s

/-- MB_FPOST (R323). -/
def execMbFpost (m : Master) (x : Fin 16) (s : State) : Out :=
  regWriteBy m Reg.MB_FPOST s (if canPost s x then updateOrigin (postSession x s) else s)

/-- The host clears MB_HRDY bit x, which returns a session in RESP to IDLE; against a post on the same tick the set
wins (R10, R321, R341). -/
def hrdyClear (x : Nat) (s : State) : State :=
  if bitAt (raisedIn s Reg.MB_HRDY) x then s
  else
  let s := clrWord Reg.MB_HRDY (2 ^ x) s
  settleAlert (if sessPhase s x = 3 then setPhase x 0 s else s)

/-- MB_HRDY_CLEAR (R321, R323). -/
def execMbHrdyClear (v : Via) (mask : BitVec 16) (s : State) : Out :=
  act (viaUp s v) s (forAll (ones 16 (mask.toNat &&& rd s Reg.MB_HRDY)) hrdyClear s)

/-- MB_CNT_CLEAR (R342). -/
def execMbCntClear (m : Master) (s : State) : Out := regWriteBy m Reg.MB_CNT s (wr Reg.MB_CNT 0 s)

/-! ## Idle sessions (R322, R341) -/

/-- Session x has had no request for MB_CFG.IDLE seconds. -/
def idleOver (s : State) (x : Nat) : Bool :=
  let n := fld s Reg.MB_CFG Fld.MB_CFG_IDLE
  sessState s x != 0 && n != 0 && decide ((sessOf s x).reqAt + n * 1000000000 ≤ s.tb.ns) && !(sessOf s x).lapse

/-- SESSION_IDLE_TIMEOUT (R322): during a command the role lapses after its post (R341). -/
def execSessionIdleTimeout (x : Fin 16) (s : State) : Out :=
  live (foremanServes s && idleOver s x) s
    (if sessPhase s x = 1 ∨ sessPhase s x = 2 then updSess x (fun y => { y with lapse := true }) s
     else freeSession x s)

/-! ## The hardware path to the Foreman (R337, R340, R381) -/

/-- F0 to F2 are held in reset and restart: every session is FREE, requests they had are dropped, and FBUSY is 1 until
they serve again (R322, R334, R337). (DEDUCED, log 107) -/
def restartForeman (s : State) : State :=
  let s := forAll (List.range 16) (fun x s =>
    let s := freeSession x s
    let s := updSess x (fun y => { y with req := none, ready := none, stored := [], late := false }) s
    if sessPhase s x = 1 ∨ sessPhase s x = 2 then setPhase x 0 s else s) s
  s |> wr Reg.MB_FREQ 0 |> setFlag Reg.MB_HSTAT Fld.MB_HSTAT_FBUSY true
    |> updFrm (fun f => { f with restarting := true, update := Update.init, act := Activation.init, report := [] })
    |> updHost (fun h => { h with pmb := [], turn := 0 })

/-- FOREMAN_SERVES_AGAIN (R340): the watchdog interval starts again. In BOOT FBUSY stays 1 (R334). -/
def execForemanServesAgain (s : State) : Out :=
  live (s.frm.restarting && !s.frm.reload) s
    (s |> setFlag Reg.MB_HSTAT Fld.MB_HSTAT_FBUSY (mode s == 1) |> updFrm (fun f => { f with restarting := false })
      |> updFm (fun f => { f with wdogAt := s.tb.ns }))

end Sys2Proof.Machine
end

