-- ==== Sys2Proof/Machine/Ports.lean ====
section
/-! DEFINITION. The phase ports and the stage buses: uplink frames, deadlines and extrapolation, resynchronisation,
binding, isolation, and the transfers and interrupts of the stage bus (R148 to R172). -/

namespace Sys2Proof.Machine

/-- The address of a port register. -/
def ppStat (n : Nat) : Nat := Reg.PP_STAT (quireOf n) (localOf n)
def ppCfg (n : Nat) : Nat := Reg.PP_CFG (quireOf n) (localOf n)

/-! ## The stage bus's registers (R172) -/

/-- SB_STAT and SB_IBIQ show the addresses in use, the bound stages, the work in progress and the oldest interrupt. -/
def showSbus (q : Nat) (s : State) : State :=
  let x := sbusOf s q
  let a := Reg.SB_STAT q
  let bound := ((List.range 16).filter fun p => flag s (Reg.PP_STAT q p) Fld.PP_STAT_BOUND).length
  let ibi := match x.ibiq with
    | e :: _ => 2 ^ 31 + e.da * 2 ^ 16 + e.cause * 2 ^ 8 + b2n e.temp * 16 + e.port
    | [] => 0
  s |> setFld a Fld.SB_STAT_NTEMP x.temps.length |> setFld a Fld.SB_STAT_NBOUND bound
    |> setFlag a Fld.SB_STAT_BUSY (x.xfer != 0 || !x.todo.isEmpty) |> wr (Reg.SB_IBIQ q) ibi

/-- A private write of 16-bit registers from address a on (R162). (DESIGN CHOICE, log 208) -/
def regImage (a : Nat) (vs : List Nat) : List Nat := a :: vs.flatMap fun v => [v % 256, v / 256 % 256]

/-- Quire q's stage bus has transaction what to run with address a, whose private write is bytes. -/
def askBus (q a what : Nat) (bytes : List Nat) (s : State) : State :=
  showSbus q (updSbus q (fun x => { x with todo := x.todo ++ [⟨a, what, bytes⟩] }) s)

/-- The bus writes CTRL of port n's stage: PTEN and RATE as v has them, and ULRST where ul (R162, R163). (DESIGN
CHOICE, log 208) -/
def writeCtrl (n what v : Nat) (ul : Bool) (s : State) : State :=
  askBus (quireOf n) (localOf n) what (regImage 0x08 [v + b2n ul * 2 ^ 14])
    (updPort n (fun p => { p with ctrl := v }) s)

/-- The stage bus of port n has a transaction to run (R159, R167, R168, R384): of the bus's own private writes, those
of CTRL keep the fields they do not set, and IDSTAT is cleared by a write of 0. (DESIGN CHOICE, log 208) -/
def busDo (n what : Nat) (s : State) : State :=
  let v := (portOf s n).ctrl
  let ask := fun bytes => askBus (quireOf n) (localOf n) what bytes s
  match what with
  | 1 => writeCtrl n 1 v true s
  | 2 => writeCtrl n 2 (v % 2 ^ 15) false s
  | 3 => ask [0x13]
  | 5 => ask [0x12]
  | 9 => ask (regImage 0x11 [0])
  | 11 => writeCtrl n 11 (v % 2 ^ 15 + 2 ^ 15) false s
  | _ => ask []

/-- The stage profile's entry for port n, where it is VALID and names the stage's VENDOR and PART, 0 naming any (R346).
-/
def profileEntry (s : State) (n : Nat) : Option (List Nat) :=
  let e := (s.frm.profile.drop (16 * n)).take 16
  let word := fun i => nthD 0 e i + 256 * nthD 0 e (i + 1)
  if bitAt (nthD 0 e 14) 7 ∧ (word 0 = 0 ∨ word 0 = (portOf s n).vendor) ∧
      (word 2 = 0 ∨ word 2 = (portOf s n).part) then some e else none

/-- The stage profile of port n is written to its stage: GTRIM and OTRIM, OCPLIM and OTLIM, IBIEN, and at a binding
CTRL.RATE (R163, R167, R346, R362). (DESIGN CHOICE, log 208) -/
def writeProfile (n : Nat) (rate : Bool) (s : State) : State :=
  match profileEntry s n with
  | none => s
  | some e =>
    let word := fun i => nthD 0 e i + 256 * nthD 0 e (i + 1)
    let ask := fun bytes => askBus (quireOf n) (localOf n) 4 bytes
    let s := s |> ask (regImage 0x09 [word 4, word 6]) |> ask (regImage 0x0C [word 8, word 10])
      |> ask (regImage 0x14 [word 12])
    if rate then writeCtrl n 4 (nthD 0 e 14 % 2 * 2 ^ 13) false s else s

/-- The management view of port n (R169). -/
def setMgmt (n v : Nat) (s : State) : State := withPort n (setFld (ppStat n) Fld.PP_STAT_MGMT v) s

/-- Port n loses its stage and enters IDENT for a new binding (R165, R166, R168). (DEDUCED, log 48) -/
def toIdent (n : Nat) (s : State) : State :=
  showSbus (quireOf n) (withPort n (fun s =>
    updPort n (fun p => { p with dp := if discrete s n then 0 else 1, binding := 0, flt := false, exhausted := false,
                                 alignFail := false, ctrl := 0 })
      (noCurrent n (setFlag (ppStat n) Fld.PP_STAT_BOUND false s))) s)

/-! ## Frames (R151 to R155, R157, R158) -/

/-- The type that slot i of a superframe is scheduled for, by its tag code: 0 for the comma frame (R151). -/
def scheduled (i : Nat) : Nat :=
  if i = 0 then 0 else if i % 32 = 16 then 4 else if i = 64 ∨ i = 192 then 2 else if i = 128 then 3 else 1

/-- The frame's CRC matches (R153). -/
def frameCrcOk (f : Frame) : Bool := crc8 0xFF [f.tag.toNat, f.hi.toNat, f.lo.toNat] == f.crc.toNat

/-- The frame's type and data. -/
def frameType (f : Frame) : Nat := f.tag.toNat / 32
def frameData (f : Frame) : Nat := f.hi.toNat * 256 + f.lo.toNat

/-- The frame is good in slot i of a superframe (R154). idleOk: the port is in IDENT or IDLE. -/
def frameGood (f : Frame) (i : Nat) (idleOk : Bool) : Bool :=
  if i = 0 then f.valid && f.comma
  else
    let t := frameType f
    f.valid && !f.comma && frameCrcOk f && decide (t ≤ 4) && f.tag.toNat % 32 == i % 32 &&
      (t == scheduled i || t == 4 || (t == 0 && scheduled i == 1 && idleOk))

/-- A lost frame is counted by its cause (R154). -/
def countLost (n i : Nat) (f : Frame) (s : State) : State :=
  let a := Reg.PP_ERR (quireOf n) (localOf n)
  incFld a (if i != 0 && f.valid && !f.comma && !frameCrcOk f then Fld.PP_ERR_CRC else Fld.PP_ERR_CODE) s

/-- The quire whose ticks tag port n's samples: its rail's home quire, or its own (R155). -/
def tagQuire (s : State) (n : Nat) : Nat :=
  match portRail s n with
  | some r => homeOf r
  | none => quireOf n

/-- The samples of port n by index that are kept: of a member of a rail, those of the indices that the rail has still
to compute (R155). -/
def keepTags (s : State) (n : Nat) (xs : List (Nat × Int)) : List (Nat × Int) :=
  let q := tagQuire s n
  let last := tget (fun _ => 0) s.tb.qtaken q
  if (portRail s n).isSome && quireRuns s q && last != 0 then
    let k := indexAt s q (tickAfter s q (last - 1))
    xs.filter fun x => x.1 == k || serialAfter x.1 k
  else xs.take 32

/-- A good current sample v in slot j of the alignment, taken now: it takes the place of an earlier one of its tag, and
one that comes after the deadline of its index, or after a sample was supplied for it, is history alone (R142, R155,
R156). -/
def takeCurrent (n j : Nat) (v : Int) (s : State) : State :=
  let q := tagQuire s n
  let tf := s.tb.ns - fld s (ppCfg n) Fld.PP_CFG_DLY
  let t := ceilDiv tf (tickNs s q) * tickNs s q
  let k := indexAt s q t
  let late := decide (t + uplinkWait s n < now s) || (findTag k (portOf s n).supplied).isSome
  let s := if uplinkUp s n then wr (Reg.PP_CUR (quireOf n) (localOf n)) (pat 16 v) s else s
  let s := updPort n (fun p => { p with
    good := min 2 (p.good + 1), x2 := p.x1, j2 := p.j1, x1 := v, j1 := j, tf1 := tf, newTf := max p.newTf (tf + 1),
    tagged := if late then p.tagged else keepTags s n ((k, v) :: p.tagged.filter (fun x => x.1 != k)) }) s
  windowSample n v s

/-- A good status frame of word w (R111, R157, R165 to R167, R170): in step 7 of binding PTEN = 0 has the bus write
PTEN = 1, and on a bound port it means that the stage has reset. (DEDUCED, log 52) -/
def takeStatus (n w : Nat) (s : State) : State :=
  let s := deadObserve n (w % 4) (wr (Reg.PP_SSTAT (quireOf n) (localOf n)) w s)
  let flt := bitAt w 15
  let pten := bitAt w 14
  let p := portOf s n
  let s := if flt && !p.flt then portReport n 5 2 0 s else s
  let s := if p.binding = 7 ∧ pten = false then busDo n 11 s else s
  let s := withPort n (fun s =>
    let s := updPort n (fun p => { p with
      flt := flt,
      binding := if p.binding = 7 ∧ pten = false then 8 else if p.binding = 8 ∧ pten = true then 9 else p.binding }) s
    if !flt && pten && (portOf s n).dp == 5 && !faultCause s n then updPort n (fun p => { p with dp := 2 }) s else s) s
  if !pten && (p.dp == 2 || p.dp == 3 || p.dp == 4) && flag s (ppStat n) Fld.PP_STAT_BOUND then
    toIdent n (portReport n 6 2 0 s)
  else s

/-- A good frame in slot j of the alignment (R152). -/
def takeFrame (n j : Nat) (f : Frame) (s : State) : State :=
  let q := quireOf n
  let p := localOf n
  let s := setFld (ppStat n) Fld.PP_STAT_SLOT (j % 256) s
  let s := updPort n (fun p => { p with lost := 0 }) s
  if j % 256 = 0 then s
  else
    match frameType f with
    | 1 => takeCurrent n j (sx 16 (frameData f)) s
    | 2 => wr (Reg.PP_TEMP q p) (frameData f) s
    | 3 => wr (Reg.PP_VIN q p) (frameData f) s
    | 4 => takeStatus n (frameData f) s
    | _ => s

/-- A set of resynchronisation attempts begins: alignment is discarded and RSY is set (R158, R159). -/
def beginAttempts (n : Nat) (s : State) : State :=
  s |> setFlag (ppStat n) Fld.PP_STAT_RSY true |> setFlag (ppStat n) Fld.PP_STAT_ALIGNED false |> noCurrent n
    |> updPort n (fun p => { p with
      attempt := 1, tryAt := s.tb.ns, seen := 0, retryAt := 0, lost := 0, rsyOff := false })

/-- The third consecutive lost frame: the port awaits resynchronisation, and its first attempt begins (R158, R159). -/
def sampleLost (n : Nat) (s : State) : State :=
  let q := quireOf n
  let p := localOf n
  s |> incFld (Reg.PP_LOSS q p) Fld.PP_LOSS_SLOST |> beginAttempts n

/-- The port is aligned: its history begins anew (R156, R159). -/
def align (n : Nat) (s : State) : State :=
  setFlag (ppStat n) Fld.PP_STAT_ALIGNED true (updPort n (fun p => { p with
    attempt := 0, seen := 0, retryAt := 0, lost := 0, alignAt := s.tb.ns, good := 0, newTf := 0, tagged := [],
    supplied := [] }) s)

/-- The attempt's two superframes have passed (R159). -/
def tryOver (s : State) (n : Nat) : Bool :=
  (portOf s n).attempt != 0 && decide ((portOf s n).tryAt + 512 * slotNs s n < now s)

/-- A frame while the port searches: a comma frame begins a count, a good frame carries it on within the attempt's two
superframes, and a lost one is counted and ends it. Outside an attempt 32 good frames align the port (R154, R159).
(DEDUCED, log 45) -/
def searchFrame (n : Nat) (f : Frame) (s : State) : State :=
  let p := portOf s n
  let st := portState s n
  let i := p.slot % 256
  let tracks := p.seen != 0
  let good := tracks && frameGood f i (st == 1 || st == 2)
  let seen := if good then (if tryOver s n then p.seen else p.seen + 1) else if f.comma then 1 else 0
  let slot := if good then p.slot + 1 else 1
  let s := if tracks && !good then countLost n i f s else s
  let s := updPort n (fun p => { p with seen := seen, slot := slot }) s
  if p.attempt = 0 ∧ 33 ≤ seen then align n s else s

/-- An uplink frame of port n (R154, R158, R159). -/
def uplinkFrame (n : Nat) (f : Frame) (s : State) : State :=
  if flag s (ppStat n) Fld.PP_STAT_ALIGNED then
    let p := portOf s n
    let st := portState s n
    let i := p.slot % 256
    let s := updPort n (fun p => { p with slot := p.slot + 1 }) s
    if frameGood f i (st == 1 || st == 2) then takeFrame n p.slot f s
    else
      let s := countLost n i f s
      if p.lost + 1 < 3 then updPort n (fun p => { p with lost := p.lost + 1 }) s else sampleLost n s
  else if (portOf s n).retryAt != 0 then s
  else searchFrame n f s

/-- Port n listens to its uplink: it is not a discrete driver's, and not ABSENT unless it resynchronises there or has
(R159). -/
def listening (s : State) (n : Nat) : Bool :=
  !discrete s n && ((portOf s n).dp != 0 || (portOf s n).attempt != 0 || flag s (ppStat n) Fld.PP_STAT_ALIGNED)

/-- The 40 bits w of a frame slot arrive at port n, which carries the running disparity on (R150). -/
def uplinkBits (n w : Nat) (s : State) : State :=
  uplinkFrame n (received (portOf s n).rd w) (updPort n (fun p => { p with rd := slotRd p.rd w 4 }) s)

/-- UPLINK_FRAME (R154): the last bit of a frame of port n is taken now. -/
def execUplinkFrame (n : Fin 256) (w : BitVec 40) (s : State) : Out := live (listening s n) s (uplinkBits n w.toNat s)

/-! ## Deadlines (R156) -/

/-- The value port n supplies for a target slot j: the line's value, rounded towards zero as a whole (R156). -/
def extrapolate (p : Port) (j : Int) : Int :=
  if p.good = 0 then 0
  else if p.good = 1 then p.x1
  else
    let d : Int := (p.j1 : Int) - p.j2
    satS 16 (Int.tdiv (p.x1 * d + (p.x1 - p.x2) * (j - p.j1)) d)

/-- The slot whose sample instant is nearest to tick instant t, the later of two (R156). -/
def targetSlot (s : State) (n t : Nat) : Int :=
  let p := portOf s n
  (p.j1 : Int) + roundUpDiv ((t : Int) - p.tf1) (slotNs s n)

/-- The first of the tick instants of quire q from t on, at most fuel of them, whose uplink deadline has passed at
port n without a sample (R156). (DEDUCED, log 46) -/
def firstMissed (s : State) (n q : Nat) : Nat → Nat → Option Nat
  | 0, _ => none
  | fuel + 1, t =>
    if now s < t + uplinkWait s n then none
    else if sampleHeld s n (indexAt s q t) then firstMissed s n q fuel (tickAfter s q t)
    else some t

/-- The first tick instant whose uplink deadline has passed at port n without a sample: of those its rail's home quire
has still to compute, after the port's alignment (R27, R156). The indices that hold a sample bound the search.
(DEDUCED, log 46) -/
def missedTick (s : State) (n : Nat) : Option Nat :=
  match portRail s n with
  | some r =>
    if railState s r == 0 || railState s r == 4 || !awaited s n then none
    else
      let p := portOf s n
      match nextTick s (homeOf r) with
      | some t =>
        firstMissed s n (homeOf r) (p.tagged.length + p.supplied.length + 1)
          (if t ≤ p.alignAt then tickAfter s (homeOf r) p.alignAt else t)
      | none => none
  | none => none

/-- Port n supplies an extrapolated sample for the index of tick instant t, and a slip or a miss is counted (R27,
R156). -/
def uplinkDeadline (n t : Nat) (s : State) : State :=
  let r := (portRail s n).getD 0
  let k := indexAt s (homeOf r) t
  let p := portOf s n
  let v := extrapolate p (targetSlot s n t)
  let a := Reg.PP_MISS (quireOf n) (localOf n)
  let s := wr (Reg.PP_CUR (quireOf n) (localOf n)) (2 ^ 31 + pat 16 v) s
  let s := updPort n (fun p => { p with supplied := keepTags s n ((k, v) :: p.supplied) }) s
  if t + 1 < p.newTf then incFld a Fld.PP_MISS_SLIP s
  else
    s |> incFld a Fld.PP_MISS_MISS |> incFld (Reg.RT_MISS r) wordBits
      |> portReport n 1 1 0

/-- UPLINK_DEADLINE (R156). -/
def execUplinkDeadline (n : Fin 256) (s : State) : Out :=
  match missedTick s n with
  | some t => live true s (uplinkDeadline n t s)
  | none => .next s

/-! ## Resynchronisation (R159, R168) -/

/-- The attempt has seen 32 good frames after a comma. -/
def resyncDone (s : State) (n : Nat) : Bool := (portOf s n).attempt != 0 && decide (33 ≤ (portOf s n).seen)

/-- The port is aligned, and the success is counted and reported; RSY clears at the next tick (R159). -/
def resyncSuccess (n : Nat) (s : State) : State :=
  let a := Reg.PP_LOSS (quireOf n) (localOf n)
  let first := (portOf s n).attempt == 1
  let s := s |> incFld a (if first then Fld.PP_LOSS_RSOK1 else Fld.PP_LOSS_RSLATE)
    |> (if first then portReport n 2 1 1 else portReport n 3 2 2) |> align n
  withPort n (updPort n (fun p => { p with exhausted := false, alignFail := false, rsyOff := true })) s

/-- RESYNC_SUCCESS (R159). -/
def execResyncSuccess (n : Fin 256) (s : State) : Out := live (resyncDone s n) s (resyncSuccess n s)

/-- Two superframes have passed since the attempt started, without success (R159). -/
def attemptOver (s : State) (n : Nat) : Bool :=
  let p := portOf s n
  p.attempt != 0 && p.retryAt == 0 && !resyncDone s n && decide (p.tryAt + 512 * slotNs s n ≤ now s)

/-- A failed attempt: ULRST and another in 1 ms, or FAULTED after RSMAX of them (R159, R168). -/
def attemptFail (n : Nat) (s : State) : State :=
  let p := portOf s n
  if p.attempt < max 1 (fld s (Reg.PP_CTRL (quireOf n)) Fld.PP_CTRL_RSMAX) then
    busDo n 1 (updPort n (fun p => { p with retryAt := s.tb.ns + 1000000 + 1, seen := 0 }) s)
  else
    s |> setFlag (ppStat n) Fld.PP_STAT_RSY false
      |> incFld (Reg.PP_LOSS (quireOf n) (localOf n)) Fld.PP_LOSS_RSFAIL
      |> portReport n 4 2 2
      |> withPort n (updPort n (fun p => { p with attempt := 0, seen := 0, exhausted := true })) |> busDo n 3

/-- RESYNC_ATTEMPT_FAIL (R159). -/
def execResyncAttemptFail (n : Fin 256) (s : State) : Out := live (attemptOver s n) s (attemptFail n s)

/-- The next attempt starts (R159). -/
def retryStart (n : Nat) (s : State) : State :=
  updPort n (fun p => { p with attempt := p.attempt + 1, tryAt := s.tb.ns, seen := 0, retryAt := 0 }) s

/-- RESYNC_RETRY_START (R159). -/
def execResyncRetryStart (n : Fin 256) (s : State) : Out :=
  live ((portOf s n).retryAt != 0 && decide ((portOf s n).retryAt ≤ now s + 1)) s (retryStart n s)

/-- Port n is vacated (R168): FAULTED by exhausted resynchronisation alone, with its stage gone. -/
def vacant (s : State) (n : Nat) : Bool :=
  let p := portOf s n
  p.dp == 5 && p.exhausted && !p.flt && !p.alignFail && !latched s n && !latchOff s n &&
    fld s (ppStat n) Fld.PP_STAT_MGMT == 1

/-- PORT_VACATED (R168). -/
def execPortVacated (n : Fin 256) (s : State) : Out :=
  live (vacant s n) s (toIdent n (setMgmt n 0 s))

/-! ## PP_CMD (R165, R168, R171) -/

/-- PP_CMDST shows the result of a command. -/
def ppResult (q r : Nat) (s : State) : State := setFld (Reg.PP_CMDST q) Fld.PP_CMDST_RESULT r s

/-- Port n is ISOLATED. -/
def isolated (s : State) (n : Nat) : Bool := (portOf s n).dp == 6

/-- Transaction what is one of the steps of binding at a port (R167). (DEDUCED, log 209) -/
def bindStep (what : Nat) : Bool := what == 4 || (8 ≤ what && what ≤ 11)

/-- A stage holds port n's own address: it is bound, or SETNEWDA of its binding is done or under way (R161, R167).
(DEDUCED, log 209) -/
def addressed (s : State) (n : Nat) : Bool :=
  let p := portOf s n
  flag s (ppStat n) Fld.PP_STAT_BOUND || (p.binding != 0 &&
    !((sbusOf s (quireOf n)).todo.drop 1).any (fun j => j.a == localOf n && j.what == 8))

/-- Port n enters ISOLATED at once: what its binding has still to run does not run, and a stage that holds the port's
address is told PTEN = 0 (R168). (DEDUCED, log 209) -/
def isolatePort (n : Nat) (s : State) : State :=
  let told := addressed s n
  let s := updSbus (quireOf n) (fun x => { x with
    todo := x.todo.take 1 ++ (x.todo.drop 1).filter fun j => !(j.a == localOf n && bindStep j.what) }) s
  let s := withPort n (fun s =>
    updPort n (fun p => { p with dp := 6, binding := 0 }) (setFld (ppStat n) Fld.PP_STAT_MGMT 3 s)) s
  if told then busDo n 2 s else s

/-- PP_CMD ISOLATE (R168, R170). -/
def ppIsolate (n : Nat) (s : State) : State :=
  if isolated s n then ppResult (quireOf n) 2 s else ppResult (quireOf n) 0 (isolatePort n s)

/-- ISOLATE (R168). -/
def execIsolate (m : Master) (n : Fin 256) (s : State) : Out :=
  regWriteBy m (Reg.PP_CMD (quireOf n)) s (ppIsolate n s)

/-- PP_CMD UNISOLATE (R165). -/
def ppUnisolate (n : Nat) (s : State) : State :=
  if isolated s n then
    ppResult (quireOf n) 0 (toIdent n (setFld (ppStat n) Fld.PP_STAT_MGMT 0 s))
  else ppResult (quireOf n) 2 s

/-- UNISOLATE (R165). -/
def execUnisolate (m : Master) (n : Fin 256) (s : State) : Out :=
  regWriteBy m (Reg.PP_CMD (quireOf n)) s (ppUnisolate n s)

/-- PP_CMD RESYNC: a fresh set of attempts; a discrete driver's port has no uplink to resynchronise (R159). (DEDUCED,
log 47) -/
def ppResync (n : Nat) (s : State) : State :=
  if isolated s n || discrete s n then ppResult (quireOf n) 2 s
  else
    s |> beginAttempts n |> ppResult (quireOf n) 0

/-- RESYNC (R159). -/
def execResync (m : Master) (n : Fin 256) (s : State) : Out :=
  regWriteBy m (Reg.PP_CMD (quireOf n)) s (ppResync n s)

/-- PP_CMD REBIND (R171). -/
def ppRebind (n : Nat) (s : State) : State :=
  if isolated s n then ppResult (quireOf n) 2 s else ppResult (quireOf n) 0 (toIdent n s)

/-- REBIND (R171). -/
def execRebind (m : Master) (n : Fin 256) (s : State) : Out :=
  regWriteBy m (Reg.PP_CMD (quireOf n)) s (ppRebind n s)

/-- The counter register k of port n: PP_ERR, PP_LOSS or PP_MISS (R171). -/
def ppCounter (n k : Nat) : Nat :=
  let q := quireOf n
  let p := localOf n
  if k = 0 then Reg.PP_ERR q p else if k = 1 then Reg.PP_LOSS q p else Reg.PP_MISS q p

/-- PP_COUNTER_CLEAR (R171). -/
def execPpCounterClear (m : Master) (n : Fin 256) (k : Fin 3) (s : State) : Out :=
  regWriteBy m (ppCounter n k) s (wr (ppCounter n k) 0 s)

/-! ## Binding (R161, R167) -/

/-- The lowest free temporary address of quire q. -/
def freeTemp (s : State) (q : Nat) : Option Nat := (List.range 16).find? fun t => !(sbusOf s q).temps.contains t

/-- The bus's unit in a report: a temporary address (R370). -/
def tempUnit (q t : Nat) : Nat := 0x100 + 16 * q + t

/-- The nonce of quire q advances for a binding round, and the identify words carry it (R148, R167 step 3). -/
def nextNonce (q : Nat) (s : State) : State :=
  forAll ((List.range 16).map (16 * q + ·)) sendIdent
    (updSbus q (fun x => { x with roundAt := s.tb.ns, roundAsk := false })
      (setFld (Reg.PP_NONCE q) Fld.PP_NONCE_NONCE (fld s (Reg.PP_NONCE q) Fld.PP_NONCE_NONCE + 1) s))

/-- Port n takes the stage at temporary address t: SETNEWDA, the clear of IDSTAT, the stage profile and ENEC are its
transactions (R167 steps 5 and 6). -/
def bindStage (n t : Nat) (s : State) : State :=
  let m := ((sbusOf s (quireOf n)).makers.find? (·.1 == t)).getD (t, 0, 0)
  updPort n (fun p => { p with binding := 5, bindTemp := t, vendor := m.2.1, part := m.2.2, ctrl := 0 }) s
    |> busDo n 8 |> busDo n 9 |> writeProfile n true |> busDo n 10

/-- Step 4 for the stage at temporary address t whose IDSTAT shows idv and whose IDSEEN is word: it is bound where the
word names an IDENT port of this quire under the present nonce (R167, R170). (DEDUCED, log 51) -/
def tryBind (q t : Nat) (idv : Bool) (word : Nat) (s : State) : State :=
  let n := word / 256
  if !idv then s
  else if quireOf n != q then
    s |> raiseFlag (Reg.SB_STAT q) Fld.SB_STAT_MISWIRE
      |> report { src := 0x17, event := 4, cls := 2, unit := tempUnit q t }
  else if word % 256 = fld s (Reg.PP_NONCE q) Fld.PP_NONCE_NONCE ∧ (portOf s n).dp = 1 ∧ (portOf s n).binding = 0 then
    bindStage n t s
  else s

/-- ENTDAA gives a stage that waits the lowest free temporary address, and the read of its DRID, VENDOR and PART
follows; with none free it ends and sets POOL (R161, R167 steps 1 and 2). -/
def giveAddress (q : Nat) (s : State) : State :=
  match freeTemp s q with
  | none => raiseFlag (Reg.SB_STAT q) Fld.SB_STAT_POOL s
  | some t =>
    askBus q t 6 [0x00] (updSbus q (fun x => { x with
      temps := t :: x.temps, foreign := t :: x.foreign.filter (· != t), waiting := x.waiting - 1 }) s)

/-- ENTDAA runs for the stages that wait (R161). (DESIGN CHOICE, log 208) -/
def runEntdaa (q : Nat) (s : State) : State :=
  forAll (List.range (sbusOf s q).waiting) (fun _ s => giveAddress q s) s

/-- A stage asks to join (R167 step 1). (DEDUCED, log 51) -/
def hotJoin (q : Nat) (s : State) : State := runEntdaa q (updSbus q (fun x => { x with waiting := x.waiting + 1 }) s)

/-- DRID, VENDOR and PART of the stage at temporary address t are read: another profile major version than 1 has its
events disabled and goes no further, and a stage of version 1 awaits its binding round (R167 steps 2 and 3). -/
def dridRead (q t : Nat) (d : List Nat) (s : State) : State :=
  if nthD 0 d 0 / 2 ^ 8 % 2 ^ 8 != 1 then askBus q t 7 [] (raiseFlag (Reg.SB_STAT q) Fld.SB_STAT_FOREIGN s)
  else updSbus q (fun x => { x with
    foreign := x.foreign.filter (· != t), roundAsk := true,
    makers := (t, nthD 0 d 1, nthD 0 d 2) :: x.makers.filter (·.1 != t) }) s

/-- The stage bus of quire q runs: EN = 1. -/
def busOn (s : State) (q : Nat) : Bool := flag s (Reg.SB_CTRL q) Fld.SB_CTRL_EN

/-- HOT_JOIN (R167). (DEDUCED, log 196) -/
def execHotJoin (q : Fin 16) (_pid : BitVec 48) (_bcr _dcr : BitVec 8) (s : State) : Out :=
  live (busOn s q && flag s (Reg.SB_CTRL q) Fld.SB_CTRL_HJEN) s (hotJoin q s)

/-- A binding round is due: a stage has joined, or 10 ms have passed since the last round, with a port in IDENT and an
unbound stage (R167). (DEDUCED, log 196) -/
def roundDue (s : State) (q : Nat) : Bool :=
  let x := sbusOf s q
  busOn s q && (x.roundAsk || decide (x.roundAt + 10000000 ≤ now s)) && x.temps.any (fun t => !x.foreign.contains t) &&
    (List.range 16).any (fun p => (portOf s (16 * q + p)).dp == 1)

/-- The reports of stages that name one word twice (R170). -/
def twice (reports : List StageReport) (w : Nat) : Bool :=
  decide (1 < (reports.filter fun x => x.idv && x.word.toNat == w).length)

/-- A transaction's retries are reported: success at the first one, or exhaustion, which makes a bound stage ABSENT to
the management view (R160, R169, R376). -/
def busOutcome (q a : Nat) (temp : Bool) (y : Reply) (s : State) : State :=
  let unit := if temp then tempUnit q a else 16 * q + a
  if y.ok then
    if y.retries.val = 1 then report { src := 0x17, event := 1, cls := 1, unit := unit, persist := 1 } s else s
  else
    let s := report { src := 0x17, event := 2, cls := 2, unit := unit, persist := 2 } s
    if temp || isolated s (16 * q + a) then s else setMgmt (16 * q + a) 1 s

/-- A transaction may end so: an answer within SB_CTRL.RETRY retries, or none after all of them (R160). -/
def replyFits (s : State) (q : Nat) (y : Reply) : Bool :=
  let n := fld s (Reg.SB_CTRL q) Fld.SB_CTRL_RETRY
  if y.ok then decide (y.retries.val ≤ n) else y.retries.val == n

/-- A binding round: the nonce advances, and reports are what the stages at temporary addresses answer (R167, R170). -/
def bindingRound (q : Nat) (reports : List StageReport) (s : State) : State :=
  let s := nextNonce q s
  let asked := reports.filter fun x =>
    (sbusOf s q).temps.contains x.t.val && !(sbusOf s q).foreign.contains x.t.val
  let s := forAll asked (fun x s => busOutcome q x.t true x.reply s) s
  let known := asked.filter (·.reply.ok)
  let words := ((known.filter (·.idv)).map (·.word.toNat)).eraseDups
  let s := forAll (words.filter (twice known)) (fun w s =>
    s |> raiseFlag (Reg.SB_STAT q) Fld.SB_STAT_DUP
      |> report { src := 0x17, event := 3, cls := 2, unit := w / 256 }) s
  forAll (known.filter fun x => !twice known x.word.toNat) (fun x s => tryBind q x.t x.idv x.word.toNat s) s

/-- BINDING_ROUND (R167). -/
def execBindingRound (q : Fin 16) (reports : List StageReport) (s : State) : Out :=
  live (roundDue s q && reports.all fun x => replyFits s q x.reply) s (bindingRound q reports s)

/-- The port is bound: IDLE, or SHED for a member of a rail that is not OFF (R167 step 8). -/
def bindComplete (n : Nat) (s : State) : State :=
  showSbus (quireOf n) (withPort n (fun s =>
    updPort n (fun p => { p with dp := 2, binding := 0 }) (setFlag (ppStat n) Fld.PP_STAT_BOUND true s)) s)

/-- STAGE_BIND_COMPLETE (R167). -/
def execStageBindComplete (n : Fin 256) (s : State) : Out := live ((portOf s n).binding == 9) s (bindComplete n s)

/-- Step 7 has not aligned within 4 ms (R167). -/
def bindLate (s : State) (n : Nat) : Bool :=
  (portOf s n).binding == 7 && !flag s (ppStat n) Fld.PP_STAT_ALIGNED && decide ((portOf s n).bindBy ≤ now s)

/-- BIND_ALIGN_TIMEOUT (R167). -/
def execBindAlignTimeout (n : Fin 256) (s : State) : Out :=
  live (bindLate s n) s (withPort n (updPort n (fun p => { p with binding := 0, alignFail := true })) s)

/-! ## Interrupts and transfers of the stage bus (R160, R162, R172) -/

/-- An in-band interrupt is queued, and shows a fault of the stage it names; line 16 when the queue was empty (R162,
R169, R172, R235). -/
def stageIbi (q : Nat) (temp : Bool) (a cause : Nat) (s : State) : State :=
  let c := Reg.SB_IBICNT q
  let e : IbiEntry := { da := if temp then 0x40 + a else 0x20 + a, cause := cause, temp := temp, port := a }
  let s := incFld c Fld.SB_IBICNT_RECV s
  let s := if (sbusOf s q).ibiq = [] then setLine q 16 s else s
  let s := if (sbusOf s q).ibiq.length < 16 then updSbus q (fun x => { x with ibiq := x.ibiq ++ [e] }) s
    else incFld c Fld.SB_IBICNT_DROP s
  let s := showSbus q s
  if !temp && cause / 8 % 32 != 0 && !isolated s (16 * q + a) then setMgmt (16 * q + a) 2 s else s

/-- STAGE_IBI (R162): from the address of local port a, or from temporary address a, with its data byte. (DEDUCED, log
196) -/
def execStageIbi (q : Fin 16) (temp : Bool) (a : Fin 16) (cause : BitVec 8) (s : State) : Out :=
  live (busOn s q) s (stageIbi q temp a cause.toNat s)

/-- The stage a transfer word names is there: a bound port, or a temporary address in use (R172). -/
def xferTarget (s : State) (q v : Nat) : Bool :=
  let a := getBits v Fld.SB_XCMD_PORT
  if getBits v Fld.SB_XCMD_TEMP = 1 then (sbusOf s q).temps.contains a
  else flag s (Reg.PP_STAT q a) Fld.PP_STAT_BOUND

/-- The bytes that a transfer of word v writes: the register address, and for OP 2 the low and high bytes of the
registers at ascending addresses (R162). -/
def xferBytes (s : State) (q v : Nat) : List Nat :=
  let regs := ((List.range (getBits v Fld.SB_XCMD_COUNT + 1)).map fun i =>
    fld s (Reg.SB_XDATA q (i / 2)) (if i % 2 = 0 then Fld.SB_XDATA_EVEN else Fld.SB_XDATA_ODD))
  getBits v Fld.SB_XCMD_REG ::
    (if getBits v Fld.SB_XCMD_OP = 2 then (regs.map fun x => [x % 256, x / 256]).flatten else [])

/-- A write of v to SB_XCMD (R172). (DEDUCED, log 50) -/
def xcmdWrite (q v : Nat) (s : State) : State :=
  let st := Reg.SB_XSTAT q
  let op := getBits v Fld.SB_XCMD_OP
  if flag s st Fld.SB_XSTAT_BUSY then setFld st Fld.SB_XSTAT_RESULT 1 s
  else
    let s := plainWrite (Reg.SB_XCMD q) v s
    if op != 1 && op != 2 then setFld st Fld.SB_XSTAT_RESULT 4 s
    else if !xferTarget s q v then setFld st Fld.SB_XSTAT_RESULT 3 s
    else showSbus q (setFlag st Fld.SB_XSTAT_BUSY true (updSbus q (fun x => { x with
      xfer := v + 1, sent := xferBytes s q v }) s))

/-- A word for SB_XCMD with its OP replaced. -/
def xcmdOp (v : BitVec 32) (op : Nat) : Nat := putBits v.toNat Fld.SB_XCMD_OP op

/-- SB_XFER_READ (R172): a write of v with OP = 1. -/
def execSbXferRead (m : Master) (q : Fin 16) (v : BitVec 32) (s : State) : Out :=
  regWriteBy m (Reg.SB_XCMD q) s (xcmdWrite q (xcmdOp v 1) s)
/-- SB_XFER_WRITE (R172): a write of v with OP = 2. -/
def execSbXferWrite (m : Master) (q : Fin 16) (v : BitVec 32) (s : State) : Out :=
  regWriteBy m (Reg.SB_XCMD q) s (xcmdWrite q (xcmdOp v 2) s)

/-- The registers that a read of count registers has returned go to SB_XDATA (R172). -/
def xferData (q count : Nat) (d : List Nat) (s : State) : State :=
  forAll ((List.range count).zip d) (fun y s =>
    setFld (Reg.SB_XDATA q (y.1 / 2)) (if y.1 % 2 = 0 then Fld.SB_XDATA_EVEN else Fld.SB_XDATA_ODD) y.2 s) s

/-- A read that covers FAULT shows the stage's latched faults (R163, R169). (DEDUCED, log 49) -/
def faultSeen (q v : Nat) (d : List Nat) (s : State) : State :=
  let reg := getBits v Fld.SB_XCMD_REG
  let n := 16 * q + getBits v Fld.SB_XCMD_PORT
  if getBits v Fld.SB_XCMD_TEMP = 1 ∨ 0x12 < reg ∨ reg + getBits v Fld.SB_XCMD_COUNT < 0x12 ∨ isolated s n = true then s
  else if nthD 0 d (0x12 - reg) / 2 ^ 11 != 0 then setMgmt n 2 s
  else if fld s (ppStat n) Fld.PP_STAT_MGMT = 2 then setMgmt n 0 s
  else s

/-- The transfer of SB_XCMD completes (R160, R172). (DESIGN CHOICE, log 195) -/
def xferComplete (q : Nat) (y : Reply) (d : List Nat) (s : State) : State :=
  let v := (sbusOf s q).xfer - 1
  let st := Reg.SB_XSTAT q
  let s := s |> updSbus q (fun x => { x with xfer := 0 }) |> setFlag st Fld.SB_XSTAT_BUSY false
    |> setFld st Fld.SB_XSTAT_RESULT (if y.ok then 0 else 2)
    |> setFld st Fld.SB_XSTAT_TRIES (min 15 (y.retries.val + 1)) |> showSbus q
  let s := busOutcome q (getBits v Fld.SB_XCMD_PORT) (getBits v Fld.SB_XCMD_TEMP == 1) y s
  if y.ok && getBits v Fld.SB_XCMD_OP == 1 then
    faultSeen q v d (xferData q (getBits v Fld.SB_XCMD_COUNT + 1) d s)
  else s

/-- The management view that names a data-path state, if one does (R169). -/
def mgmtOf (dp : Nat) : Nat :=
  match dp with
  | 0 => 1
  | 5 => 2
  | 6 => 3
  | _ => 0

/-- SETNEWDA has moved the stage of port n: its temporary address is free, and ENTDAA runs again for one that waits
(R161, R167 step 5). -/
def addressMoved (n : Nat) (s : State) : State :=
  let q := quireOf n
  let t := (portOf s n).bindTemp
  let s := showSbus q (updSbus q (fun x => { x with
    temps := x.temps.filter (· != t), makers := x.makers.filter (·.1 != t) }) s)
  if (sbusOf s q).waiting = 0 then s else askBus q 0 12 [] s

/-- Own transaction what of address a has been answered; d is what it read. A read made to confirm a
disagreement has the management view adopt the data path's (R167, R384). -/
def ownDone (q a what : Nat) (d : List Nat) (s : State) : State :=
  let n := 16 * q + a
  match what with
  | 5 => setMgmt n (mgmtOf (portOf s n).dp) s
  | 6 => dridRead q a d s
  | 8 => addressMoved n s
  | 10 => if (portOf s n).binding = 5 then
      updPort n (fun p => { p with binding := 7, bindBy := s.tb.ns + 4000000 }) s else s
  | 12 => runEntdaa q s
  | _ => s

/-- Own transaction what of port n ends without an answer: a binding that needs it ends with it, and its other
transactions do not run (R167). (DESIGN CHOICE, log 194) -/
def ownCut (n what : Nat) (s : State) : State :=
  let q := quireOf n
  if bindStep what && (portOf s n).binding != 0 then
    showSbus q (updPort n (fun p => { p with binding := 0 })
      (updSbus q (fun x => { x with todo := x.todo.filter fun y => !(y.a == localOf n && bindStep y.what) }) s))
  else s

/-- The bus's own transaction completes (R160, R167). (DESIGN CHOICE, log 194) -/
def ownComplete (q : Nat) (y : Reply) (d : List Nat) (s : State) : State :=
  match (sbusOf s q).todo with
  | ⟨a, what, _⟩ :: rest =>
    let s := showSbus q (updSbus q (fun x => { x with todo := rest }) s)
    let s := if what = 12 then s else busOutcome q a (what == 6 || what == 7) y s
    if y.ok then ownDone q a what d s else ownCut (16 * q + a) what s
  | [] => s

/-- The transaction that a completion names is in progress. -/
def xferRuns (s : State) (q : Nat) (own : Bool) : Bool :=
  if own then !(sbusOf s q).todo.isEmpty else (sbusOf s q).xfer != 0

/-- SB_XFER_COMPLETE (R160): of SB_XCMD's transfer, or of the bus's own; how the stage answered, and the registers
read. A transaction of a bus with EN = 0 waits. (DEDUCED, log 196) -/
def execSbXferComplete (q : Fin 16) (own ok : Bool) (retries : Fin 16) (d0 d1 d2 d3 : BitVec 16) (s : State) : Out :=
  let y : Reply := { ok := ok, retries := retries }
  live (busOn s q && xferRuns s q own && replyFits s q y) s
    (let d := [d0.toNat, d1.toNat, d2.toNat, d3.toNat]
     if own then ownComplete q y d s else xferComplete q y d s)

/-- A read of SB_IBIQ, which shows the oldest entry, removes it (R172). -/
def ibiqRead (q : Nat) (s : State) : State := showSbus q (updSbus q (fun x => { x with ibiq := x.ibiq.drop 1 }) s)

/-- SB_IBIQ_READ (R172). -/
def execSbIbiqRead (m : Master) (q : Fin 16) (s : State) : Out := regReadBy m (Reg.SB_IBIQ q) s (ibiqRead q s)

/-- SB_IBICNT_CLEAR (R172). -/
def execSbIbicntClear (m : Master) (q : Fin 16) (s : State) : Out :=
  regWriteBy m (Reg.SB_IBICNT q) s (wr (Reg.SB_IBICNT q) 0 s)

end Sys2Proof.Machine
end

