-- ==== Sys2Proof/Machine/Faults.lean ====
section
/-! DEFINITION. The fault manager: reports, the queue and the log buffer, first-error capture, the quiet period, the
reconciliation of the two views, the watchdog, and the voting of the Foreman's cores (R366 to R389). -/

namespace Sys2Proof.Machine

/-! ## Reports (R366 to R370) -/

/-- The events of R370 with their classes, but for the bindings', whose codes and classes R272 gives. -/
def eventTable : List (Nat × Nat × Nat) :=
  [(0x00, 1, 2), (0x00, 2, 1), (0x01, 1, 2), (0x01, 2, 2), (0x01, 2, 3), (0x01, 3, 0), (0x01, 4, 0), (0x03, 1, 0),
   (0x05, 1, 2), (0x06, 1, 2), (0x06, 2, 2), (0x08, 1, 1), (0x08, 2, 2), (0x08, 3, 2), (0x08, 4, 2), (0x10, 1, 1),
   (0x10, 2, 2), (0x10, 3, 2), (0x10, 4, 2), (0x11, 1, 1), (0x11, 2, 2), (0x11, 3, 2), (0x12, 1, 2), (0x12, 2, 3),
   (0x12, 3, 2)] ++
  [(0x13, 1, 1), (0x13, 2, 2), (0x13, 3, 2), (0x14, 1, 1), (0x14, 2, 1), (0x14, 3, 2), (0x14, 4, 2), (0x14, 5, 2),
   (0x14, 6, 2), (0x14, 7, 1), (0x15, 1, 1), (0x17, 1, 1), (0x17, 2, 2), (0x17, 3, 2), (0x17, 4, 2), (0x18, 1, 3),
   (0x19, 1, 1), (0x19, 2, 2), (0x19, 3, 2), (0x19, 4, 2), (0x19, 5, 2), (0x1A, 1, 2)]

/-- A report names an event of its source in its class (R370). (DESIGN CHOICE, log 146) -/
def reportKnown (x : Report) : Bool :=
  if x.src = 0x16 then
    eventClass x.event.toNat == x.cls.toNat && decide (1 ≤ x.event.toNat) && decide (x.event.toNat ≤ 13) && x.cls != 0
  else eventTable.contains (x.src.toNat, x.event.toNat, x.cls.toNat)

/-- A report of a kind that first-error capture takes (R374). -/
def captureKind (x : Report) : Bool :=
  (x.src == 0x1A && x.event == 1) || (x.src == 8 && (x.event == 2 || x.event == 3)) || (x.src == 6 && x.event == 1) ||
    (x.src == 0x18 && x.event == 1)

/-- The report as the fault manager takes it. -/
def repOf (x : Report) : Rep :=
  { src := x.src.toNat, event := x.event.toNat, cls := x.cls.toNat, unit := x.unit.toNat, detail := x.detail.toNat,
    persist := x.persist.toNat,
    fec := if captureKind x then
      some { addr := x.addr.toNat, master := x.master.toNat, type := x.type.toNat, size := x.size.toNat,
             kind := x.kind.toNat }
      else none }

/-- A block's report arrives. One of an unsafe rail is settled by R368: a fallback stream for class U, the latch-off of
the rail for class F. -/
def takeReport (x : Report) (s : State) : State :=
  if x.src = 1 ∧ x.event = 2 ∧ x.unit.toNat < 32 then
    if x.cls = 2 then unsafeConverter x.unit.toNat s else unsafeLatch x.unit.toNat s
  else report (repOf x) s

/-- FAULT_REPORT (R366). (DESIGN CHOICE, log 146) -/
def execFaultReport (x : Report) (s : State) : Out := live (reportKnown x) s (takeReport x s)

/-! ## The queue and the log (R371, R372, R389) -/

/-- A read of FM_Q (R371). -/
def queueRead (s : State) : State :=
  match s.fm.q with
  | x :: rest =>
    let ws := recordWords x
    let s := updFm (fun f => { f with q := rest }) s
    forAll (List.range 8) (fun w s => wr (Reg.FM_QREC w) (nthD 0 ws w) s) (wr Reg.FM_Q (nthD 0 ws 0) s)
  | [] => wr Reg.FM_Q 0 s

/-- FM_Q_READ (R371). -/
def execFmQRead (m : Master) (s : State) : Out := regReadBy m Reg.FM_Q s (queueRead s)

/-- The record that the Foreman appends next. In a SHUTDOWN with cause 4 it appends FM event 3 alone (R401). -/
def nextRecord (s : State) : Option FaultRec :=
  if mode s = 6 ∧ rd s Reg.FM_SHUTCAUSE = 4 then
    if bitAt s.sup.appends 1 then s.fm.logbuf.find? fun x => x.src == 1 && x.event == 3 && x.detail == 4 else none
  else if shed s = 6 then none
  else s.fm.logbuf.head?

/-- The Foreman appends a record and it leaves the log buffer (R372). -/
def appendRecord (x : FaultRec) (s : State) : State :=
  let s := logAppend x (updFm (fun f => { f with logbuf := f.logbuf.filter (· != x) }) s)
  if x.src = 1 ∧ x.event = 3 then updSup (fun y => { y with appends := y.appends &&& 1 }) s else s

/-- FAULT_LOG_APPEND (R372). -/
def execFaultLogAppend (s : State) : Out :=
  match nextRecord s with
  | some x => live (foremanServes s && s.nv.op == .none) s (appendRecord x s)
  | none => .next s

/-- FM_ACK (R373): FM_ACK.F = 1 clears FPEND. -/
def execFmAck (m : Master) (s : State) : Out :=
  regWriteBy m Reg.FM_ACK s (setFlag Reg.FM_STAT Fld.FM_STAT_FPEND false s)

/-- The capture and its count clear (R374). -/
def fecClear (s : State) : State :=
  forAll [Reg.FM_FEC_ADDR_LO, Reg.FM_FEC_ADDR_HI, Reg.FM_FEC_TB_LO, Reg.FM_FEC_TB_HI, Reg.FM_FEC_HRS_LO,
    Reg.FM_FEC_HRS_HI, Reg.FM_FEC_PCC, Reg.FM_FEC_MORE, Reg.FM_FEC_INFO] (fun a s => wr a 0 s) s

/-- FM_FEC_CLR (R374). -/
def execFmFecClr (m : Master) (s : State) : Out := regWriteBy m Reg.FM_FEC_CLR s (fecClear s)
/-- FM_QDROP_CLEAR (R389). -/
def execFmQdropClear (m : Master) (s : State) : Out := regWriteBy m Reg.FM_QDROP s (wr Reg.FM_QDROP 0 s)
/-- FM_LOGDROP_CLEAR (R389). -/
def execFmLogdropClear (m : Master) (s : State) : Out := regWriteBy m Reg.FM_LOGDROP s (wr Reg.FM_LOGDROP 0 s)

/-- QUIET_PERIOD_END (R377): ALERT clears, FM_RECOVERIES rises, and the mode settles (R378). -/
def execQuietPeriodEnd (s : State) : Out :=
  live (flag s Reg.FM_STAT Fld.FM_STAT_ALERT && decide (s.fm.quietAt ≤ s.tb.ns)) s
    (s |> setFlag Reg.FM_STAT Fld.FM_STAT_ALERT false |> incFld Reg.FM_RECOVERIES wordBits |> settleMode)

/-- FM_TRIP_GO (R368). -/
def execFmTripGo (m : Master) (r : Fin 32) (s : State) : Out := regWriteBy m Reg.FM_TRIP s (pulseRail r s)

/-- The trip-line pulse to rail r has lasted 8 ns. (DEDUCED, log 154) -/
def pulseOver (s : State) (r : Nat) : Bool :=
  tget (fun _ => 0) s.fm.pulse r != 0 && decide (tget (fun _ => 0) s.fm.pulseAt r - 1 + 8 ≤ s.tb.ns)

/-- The pulse to rail r ends. -/
def endPulse (r : Nat) (s : State) : State :=
  updFm (fun f => { f with pulse := tset (fun _ => 0) f.pulse r 0, pulseAt := tset (fun _ => 0) f.pulseAt r 0,
                            pulseTo := tset (fun _ => []) f.pulseTo r [] }) s

/-- TRIP_LINE_PULSE_END (R368): 8 to 16 ns after its start. (DEDUCED, log 154) -/
def execTripLinePulseEnd (r : Fin 32) (s : State) : Out := live (pulseOver s r) s (endPulse r s)

/-- FM_RECCLR (R389). -/
def execFmRecclr (m : Master) (s : State) : Out := regWriteBy m Reg.FM_CMD s (wr Reg.FM_RECOVERIES 0 s)

/-- AVCLR: every FM_AVUN is 0 and every FM_AVCOND bit 1 (R389). (DESIGN CHOICE, log 153) -/
def availClear (s : State) : State :=
  forAll (List.range 32) (fun r s => wr (Reg.FM_AVUN r) 0 s)
    (wr Reg.FM_AVCOND 0xFFFFFFFF (updFm (fun f => { f with unavail := [] }) s))

/-- FM_AVCOND bit r clears: a condition of the availability promise of rail r did not hold (R386). -/
def breach (r : Nat) (s : State) : State := clrWord Reg.FM_AVCOND (2 ^ r) s

/-- Something that breaches the promise for every rail expected on (R386). (DESIGN CHOICE, log 153) -/
def breachAll (s : State) : State := forAll (s.fm.expected.map (·.1)) breach s

/-- FM_AVCLR (R389). -/
def execFmAvclr (m : Master) (s : State) : Out := regWriteBy m Reg.FM_CMD s (availClear s)

/-- The word of FM_DISQ for an entry (R389). -/
def disqWord (d : Disagree) : Nat := 2 ^ 31 + d.kind * 2 ^ 28 + d.data * 2 ^ 20 + d.mgmt * 2 ^ 16 + d.unit

/-- A read of FM_DISQ (R389). -/
def disqRead (s : State) : State :=
  match s.fm.disq with
  | d :: rest => wr Reg.FM_DISQ (disqWord d) (updFm (fun f => { f with disq := rest }) s)
  | [] => wr Reg.FM_DISQ 0 s

/-- FM_DISQ_READ (R389). -/
def execFmDisqRead (m : Master) (s : State) : Out := regReadBy m Reg.FM_DISQ s (disqRead s)

/-! ## Reconciliation (R383, R384) -/

/-- How restrictive a state of an engine is: LOCKOUT, HALT, WAIT, RUN (R383). -/
def engineRank (st : Nat) : Nat := st

/-- How restrictive a state of a rail is: LATCHED, OFF, SOFTSTOP, SOFTSTART, ON (R383). -/
def railRank (st : Nat) : Nat :=
  match st with
  | 4 => 4
  | 0 => 3
  | 3 => 2
  | 1 => 1
  | _ => 0

/-- The management view of engine e and of rail r (R383). -/
def engineView (s : State) (e : Nat) : Nat := tget (fun _ => 2) s.fm.engView e
def railView (s : State) (r : Nat) : Nat := tget (fun _ => 0) s.fm.railView r

/-- The two views of engine e agree: both run, or they are the same. (DEDUCED, log 149) -/
def engineAgrees (s : State) (e : Nat) : Bool :=
  let d := engState s e
  let m := engineView s e
  d == m || (decide (d ≤ 1) && decide (m ≤ 1))

/-- The two views of rail r agree: OFF covers a rail on its way down, OFF or LATCHED, ON one on its way up or ON.
(DEDUCED, log 149) -/
def railAgrees (s : State) (r : Nat) : Bool :=
  let d := railState s r
  if railView s r = 1 then d == 1 || d == 2 || (railOf s r).cmd == 2 else !(d == 1 || d == 2) && (railOf s r).cmd != 2

/-- The views of a listed unit agree. -/
def viewsAgree (s : State) (d : Disagree) : Bool :=
  match d.kind with
  | 1 => !viewsDiffer s d.unit
  | 2 => engineAgrees s d.unit
  | _ => railAgrees s d.unit

/-- Engines and rails whose views have come to differ are listed, each with a C-class record (R383). (DEDUCED, log
148) -/
def findDisagreements (s : State) : State :=
  let new := fun (d : Disagree) (s : State) =>
    if s.fm.dlist.any (fun x => x.what.kind == d.kind && x.what.unit == d.unit) then s
    else disagree d (report { src := 0x01, event := 1, cls := 1, unit := d.unit } s)
  let s := forAll ((List.range 128).filter fun e => !engineAgrees s e) (fun e s =>
    new { kind := 2, data := engState s e, mgmt := engineView s e, unit := e } s) s
  forAll ((List.range 32).filter fun r => !railAgrees s r) (fun r s =>
    new { kind := 3, data := railState s r, mgmt := railView s r, unit := r } s) s

/-- Engine e halts at its next bundle boundary and its code-write buffer is discarded (R216, R337). -/
def haltEngine (e : Nat) (s : State) : State :=
  updFm (fun f => { f with engView := tset (fun _ => 2) f.engView e 2 }) (stopEngine e 2 s)

/-- Binding slot b of quire q is taken apart: every member halts, uncommitted bundles are discarded and the slot becomes
NONE (R337). -/
def abortBinding (q b : Nat) (s : State) : State × Nat :=
  if bindState s q b = 0 then (s, 1) else (bindRelease q b s, 0)

/-- The binding that engine i of quire q is a member of, a spare binding among them (R274, R337). -/
def memberSlot (s : State) (q i : Nat) : Option Nat :=
  (List.range 6).find? fun b => (slotFormed s q b || bindState s q b == 1) && (slotMembers s q b).contains i

/-- The abort of an engine: halted at its next bundle boundary; a binding's member takes its binding with it (R337). -/
def abortEngine (e : Nat) (s : State) : State × Nat :=
  match memberSlot s (e / 8) (e % 8) with
  | some b => abortBinding (e / 8) b s
  | none => if engState s e = 0 ∨ engState s e = 1 then (haltEngine e s, 0) else (s, 1)

/-- One unit that still differs is reconciled: the data path is brought to a more restrictive management view, or its
own view is adopted once confirmed (R384). (DEDUCED, log 150) -/
def reconcile (d : Disagree) (s : State) : State :=
  match d.kind with
  | 1 =>
    let m := fld s (ppStat d.unit) Fld.PP_STAT_MGMT
    match mgmtState m with
    | some g =>
      if restrictRank (portOf s d.unit).dp < restrictRank g then ppIsolate d.unit s
      else if (sbusOf s (quireOf d.unit)).todo.any (fun j => j.a == localOf d.unit && j.what == 5) then s
        else busDo d.unit 5 s
    | none => s
  | 2 =>
    if engineRank (engState s d.unit) < engineRank (engineView s d.unit) then (abortEngine d.unit s).1
    else updFm (fun f => { f with engView := tset (fun _ => 2) f.engView d.unit (engState s d.unit) }) s
  | _ =>
    if railView s d.unit = 0 then
      if rtBusy s false then s else rtCommand 3 d.unit false s
    else updFm (fun f => { f with railView := tset (fun _ => 0) f.railView d.unit 0 }) s

/-- The passes after which an entry is unresolved (R384). -/
def passLimit (s : State) : Nat := max 1 (fld s Reg.FM_CTRL Fld.FM_CTRL_DTRY)

/-- One entry of the list in a pass: removed where the views agree, else reconciled and counted; one that has been
through too many passes is unresolved from then on, FM event 1 (R384). -/
def passEntry (x : Listed) (s : State) : State :=
  if viewsAgree s x.what then s
  else
    let s := reconcile x.what s
    let n := x.passes + 1
    let late := decide (passLimit s ≤ n)
    let s := updFm (fun f => { f with dlist := f.dlist ++ [⟨x.what, n, x.unresolved || late⟩] }) s
    if late && !x.unresolved then report { src := 0x01, event := 1, cls := 2, unit := x.what.unit } s else s

/-- A reconciliation pass (R384). -/
def reconcilePass (s : State) : State :=
  let s := findDisagreements (updFm (fun f => { f with passAt := s.tb.ns }) s)
  let list := s.fm.dlist
  let s := forAll list passEntry (updFm (fun f => { f with dlist := [] }) s)
  setCond 7 (s.fm.dlist.any (·.unresolved)) s

/-- RECONCILE_PASS (R384): every 1 ms. -/
def execReconcilePass (s : State) : Out :=
  live (foremanServes s && decide (s.fm.passAt + 1000000 ≤ s.tb.ns)) s (reconcilePass s)

/-! ## The watchdog (R381) -/

/-- The interval of the watchdog starts again. -/
def wdogRestart (s : State) : State := updFm (fun f => { f with wdogAt := s.tb.ns }) s

/-- The interval of FM_WDCFG.MS has passed without a good write (R381, R389). -/
def wdogOver (s : State) : Bool :=
  decide (s.fm.wdogAt + max 1 (fld s Reg.FM_WDCFG Fld.FM_WDCFG_MS) * 1000000 ≤ s.tb.ns)

/-- FM_WDOG (R381): a write of KEY 0x5A. -/
def execFmWdog (m : Master) (s : State) : Out := regWriteBy m Reg.FM_WDOG s (wdogRestart s)

/-- Watchdog restarts within the last 600 s. -/
def recentRestarts (s : State) : List Nat := s.fm.wdogTimes.filter fun t => decide (s.tb.ns < t + 600000000000)

/-- The Foreman images in the order of R353, each with its folio where it verifies; the directory stands. -/
def foremanImages (s : State) : List (Nat × Option (List Nat)) :=
  let k := (dirOf s 2 0).active
  let slot := fun k => if (dirOf s 2 0).state = 0 ∨ ((dirOf s 2 0).slot k).valid = false then none
    else slotVerifies s 2 0 k 0
  [(k, slot k), (1 - k, slot (1 - k)), (2, goldenVerifies s)]

/-- The stored Foreman image k is read (R309, R353). -/
def readImage (k : Nat) (s : State) : State :=
  if k = 2 then readFolio 400 128 s else readFolio (slotSectors 2 0 k).1 (slotSectors 2 0 k).2 s

/-- The Foreman is loaded from the first image of a list that verifies; with none, the boot ROM serves recovery
(R353). -/
def loadFirst : List (Nat × Option (List Nat)) → State → State
  | [], s => updFrm (fun x => { x with recovery := true, image := 3 }) s
  | (k, some f) :: _, s => runForeman k f (readImage k s)
  | (k, none) :: rest, s => loadFirst rest (readImage k s)

/-- Foreman memory is held (R304): what loads it waits. (DEDUCED, log 236) -/
def foremanHeld (s : State) : Bool := rangeHeld s 0x20000000 0x200000

/-- The Foreman is loaded from its active image, at once or when Foreman memory is free again (R304, R340). (DEDUCED,
log 236) -/
def reloadForeman (s : State) : State :=
  if foremanHeld s then updFrm (fun f => { f with reload := true }) s else loadFirst (foremanImages s) s

/-- A load that held Foreman memory kept waiting (R304). (DEDUCED, log 236) -/
def reloadResume (s : State) : State :=
  if s.frm.reload && !foremanHeld s then
    let s := updFrm (fun f => { f with reload := false }) s
    loadFirst (foremanImages s) s
  else s

/-- The images after the one that runs, in the order of R353, that one last. (DEDUCED, log 152) -/
def laterImages (s : State) : List (Nat × Option (List Nat)) :=
  let l := foremanImages s
  let n := (l.findIdx (·.1 == s.frm.image)) + 1
  l.drop n ++ l.take n

/-- The watchdog restarts the Foreman: with its active image, or at the third restart within 600 s with the next one
that verifies (R381). (DEDUCED, log 152) -/
def watchdog (s : State) : State :=
  let old := recentRestarts s
  let s := restartForeman s
  let s := updFm (fun f => { f with wdogTimes := s.tb.ns :: old }) s
  let s := setFld Reg.FM_WDCFG Fld.FM_WDCFG_RST (min 127 (old.length + 1)) s
  let s := foremanEvent 3 2 0 s
  if old.length < 2 then loadFirst (foremanImages s) s else foremanEvent 4 2 0 (loadFirst (laterImages s) s)

/-- WATCHDOG_EXPIRY (R381): not while the Foreman restarts or updates (R388); it waits while Foreman memory is held
(R304). -/
def execWatchdogExpiry (s : State) : Out :=
  live (flag s Reg.FM_WDCFG Fld.FM_WDCFG_EN && foremanServes s && wdogOver s && !foremanHeld s) s (watchdog s)

/-! ## The Foreman's cores (R379, R380) -/

/-- A second core is lost: F-class with DEVICE = 1, and SHUTDOWN with cause 6 (R15, R367, R380). (DEDUCED, log 151) -/
def foremanLost (c : Nat) (s : State) : State :=
  s |> report { src := 0x19, event := 2, cls := 3, unit := c, persist := 2, device := true }
    |> setFlag Reg.MB_HSTAT Fld.MB_HSTAT_FBUSY true |> startShutdown 6

/-- Core c's write differs from the majority: it is resynchronised, and at its third odd event within 10 s retired
(R379). -/
def coreOdd (c : Nat) (s : State) : State :=
  let old := (tget (fun _ => []) s.fm.odd c).filter fun t => decide (s.tb.ns - t ≤ 10000000000)
  let s := updFm (fun f => { f with odd := tset (fun _ => []) f.odd c (s.tb.ns :: old) }) s
  if 2 ≤ old.length then
    s |> updFm (fun f => { f with retired := f.retired ||| 2 ^ c })
      |> report { src := 0x19, event := 2, cls := 2, unit := c, persist := 2 } |> setCond 0 true
  else report { src := 0x19, event := 1, cls := 1, unit := c, persist := 1 } s

/-- FOREMAN_CORE_MISMATCH (R379, R380): core c of a triad, or either core of the pair that is left. -/
def execForemanCoreMismatch (c : Fin 3) (s : State) : Out :=
  live (!bitAt s.fm.retired c.val) s (if s.fm.retired = 0 then coreOdd c.val s else foremanLost c.val s)

end Sys2Proof.Machine
end

