-- ==== Sys2Proof/Machine/TimeBase.lean ====
section
/-! DEFINITION. The time base: loss of REFCLK and its return, the lifetime counts, and the control tick periods (R19 to
R21, R24, R401, R406). -/

namespace Sys2Proof.Machine

/-! ## REFCLK (R24) -/

/-- REFCLK is lost: the tick runs on holdover (R24). -/
def refclkLost (s : State) : State :=
  let a := Reg.TB_STAT
  s |> setFlag a Fld.TB_STAT_LOCK false |> setFlag a Fld.TB_STAT_HOLD true |> incFld a Fld.TB_STAT_LOSSES
    |> report { src := 0x00, event := 1, cls := 2, unit := 0 } |> setCond 1 true

/-- REFCLK_LOSS (R24). -/
def execRefclkLoss (s : State) : Out := live (!flag s Reg.TB_STAT Fld.TB_STAT_HOLD) s (refclkLost s)

/-- Both shadow lines of channel n are recalibrated, unless calibration is frozen; they swap in at the next reload, or
at once in MODE 0 or parked (R24, R112). (DEDUCED, log 173) -/
def recalibrate (n : Nat) (s : State) : State :=
  if calFrozen s (quireOf n) then s
  else
    let s := updChan n (fun c => { c with shadow := 3, calRetry := 0 }) s
    if pwmMode s n = 0 ∨ parkOf (chanOf s n).actOn = true then swapLines n s else s

/-- REFCLK is back: the tick runs from it again, with no step in TB_NS (R24). (DEDUCED, log 173) -/
def refclkBack (s : State) : State :=
  let a := Reg.TB_STAT
  s |> setFlag a Fld.TB_STAT_LOCK true |> setFlag a Fld.TB_STAT_HOLD false |> forAll (List.range 256) recalibrate
    |> report { src := 0x00, event := 2, cls := 1, unit := 0 } |> setCond 1 false

/-- REFCLK_RESTORED (R24). -/
def execRefclkRestored (s : State) : Out := live (flag s Reg.TB_STAT Fld.TB_STAT_HOLD) s (refclkBack s)

/-! ## Lifetime counts (R19, R401) -/

/-- The lifetime counts are due for NVM: 3,600 units have accrued, or a SHUTDOWN with cause 4 waits for their record.
(DEDUCED, log 174) -/
def hoursDue (s : State) : Bool :=
  decide (s.tb.nvHrs + 3600 ≤ s.tb.hrs) || (mode s == 6 && bitAt s.sup.appends 0)

/-- The lifetime record is appended (R19, R401). (DEDUCED, log 174) -/
def commitHours (s : State) : State :=
  updSup (fun y => { y with appends := y.appends &&& 2 }) (commitLifetime s)

/-- HOURS_COMMIT (R19): the Foreman's append waits for the NVM controller. -/
def execHoursCommit (s : State) : Out :=
  live (foremanServes s && s.nv.op == .none && hoursDue s) s (commitHours s)

/-! ## Control tick periods (R20, R21) -/

/-- Rail r, enabled in the sense of R20, has its home or a member port in quire q. -/
def railUses (s : State) (q r : Nat) : Bool :=
  enabled s r && (homeOf r == q || (enabledPorts s r).any fun n => quireOf n == q)

/-- A write of v to TB_QTICK of quire q (R20). -/
def qtickWrite (q v : Nat) (s : State) : State :=
  let a := Reg.TB_QTICK q
  let p := getBits v Fld.TB_QTICK_PERIOD
  if p = fld s a Fld.TB_QTICK_PERIOD then plainWrite a v s
  else if (List.range 32).any (railUses s q) then raiseFlag a Fld.TB_QTICK_REFUSED s
  else updTb (fun b => { b with qwrite := tset (fun _ => 0) b.qwrite q s.tb.ns }) (plainWrite a v s)

/-- TB_QTICK_WRITE (R20). -/
def execTbQtickWrite (m : Master) (q : Fin 16) (v : BitVec 32) (s : State) : Out :=
  regWriteBy m (Reg.TB_QTICK q.val) s (qtickWrite q.val v.toNat s)

/-- A requested period is due: TB_NS is a multiple of 128 ns, strictly after the write (R20). (DEDUCED, log 11) -/
def periodDue (s : State) (q : Nat) : Bool :=
  let a := Reg.TB_QTICK q
  fld s a Fld.TB_QTICK_PERIOD != fld s a Fld.TB_QTICK_ACTIVE && s.tb.ns % 128 == 0 &&
    decide (tget (fun _ => 0) s.tb.qwrite q < s.tb.ns)

/-- The requested period takes effect: the sample index counts on from its present value, and AD_STAT.SHORT follows
(R20, R21, R128). (DEDUCED, log 11) -/
def applyPeriod (q : Nat) (s : State) : State :=
  let a := Reg.TB_QTICK q
  let k := index s q
  s |> updTb (fun b => { b with
      qbaseNs := tset (fun _ => 0) b.qbaseNs q s.tb.ns, qbaseIdx := tset (fun _ => 0) b.qbaseIdx q k,
      qold := tset (fun _ => 0) b.qold q (fld s a Fld.TB_QTICK_ACTIVE) })
    |> setFld a Fld.TB_QTICK_ACTIVE (fld s a Fld.TB_QTICK_PERIOD) |> showShort q

/-- QTICK_PERIOD_APPLY (R20). -/
def execQtickPeriodApply (q : Fin 16) (s : State) : Out := live (periodDue s q.val) s (applyPeriod q.val s)

end Sys2Proof.Machine
end

