-- ==== Sys2Proof/Machine/Timers.lean ====
section
/-! DEFINITION. Timer units and EVT pins: source ticks, counting, ZERO and CMP events, captures, the filters of the EVT
inputs and the EVT outputs (R275 to R285). A timer's counter is kept as its value at an instant; what it counts since
follows from the source ticks since. -/

namespace Sys2Proof.Machine

/-! ## Counting (R275, R276) -/

/-- TM_CFG of timer m. -/
def tmCfg (s : State) (q m : Nat) (f : Bits) : Nat := fld s (Reg.TM_CFG q m) f
def tmEn (s : State) (q m : Nat) : Bool := flag s (Reg.TM_CFG q m) Fld.TM_CFG_EN
def tmOneshot (s : State) (q m : Nat) : Bool := flag s (Reg.TM_CFG q m) Fld.TM_CFG_ONESHOT

/-- The filtered level of EVT input x in quire q (R282). -/
def evtLevel (s : State) (q x : Nat) : Bool := flag s (Reg.TM_EVTST q x) Fld.TM_EVTST_LEVEL

/-- The gate of timer m allows counting at the present levels (R275). -/
def gateOpen (s : State) (q m : Nat) : Bool :=
  let g := tmCfg s q m Fld.TM_CFG_GATE
  let l := evtLevel s q (tmCfg s q m Fld.TM_CFG_GSEL)
  if g = 1 then l else if g = 2 then !l else true

/-- Source ticks of timer m after its last settled instant, up to TB_NS t (R275). -/
def sourceTicks (s : State) (q m t : Nat) : Nat :=
  let p := 2 ^ tmCfg s q m Fld.TM_CFG_PRE
  if tmEn s q m && gateOpen s q m then t / p - (timerOf s q m).at_ / p else 0

/-- A counter after n source ticks (R276). -/
def countDown (oneshot : Bool) (rld v n : Nat) : Nat :=
  if n ≤ v then v - n else if oneshot then 0 else rld - (n - v - 1) % (rld + 1)

/-- The counter of timer m after n source ticks, with a LOAD due (R276). -/
def countAfter (s : State) (q m n : Nat) : Nat :=
  let x := timerOf s q m
  if n = 0 then x.base
  else if x.load then countDown (tmOneshot s q m) x.rld x.rld (n - 1)
  else countDown (tmOneshot s q m) x.rld x.base n

/-- The live counter of timer m (R276). -/
def counterNow (s : State) (q m : Nat) : Nat := countAfter s q m (sourceTicks s q m s.tb.ns)

/-- Timer m's counter is brought forward to TB_NS t. A one-shot counter that stays at 0 raises no further event
(R276). -/
def settleTimer (q m t : Nat) (s : State) : State :=
  let n := sourceTicks s q m t
  let v := countAfter s q m n
  updTimer q m (fun x =>
    if t < x.at_ then x
    else if n = 0 then { x with at_ := t }
    else
      let stays := tmOneshot s q m && !x.load && x.base == 0
      { x with base := v, at_ := t, load := false, zeroTaken := stays && x.zeroTaken, cmpTaken := stays && x.cmpTaken })
    s

/-- Timer m is settled at the present tick. -/
def settleNow (q m : Nat) (s : State) : State := settleTimer q m s.tb.ns s

/-! ## Events (R276, R277, R281, R284) -/

/-- An event of timer m, bit b of TM_STAT: its flag, its interrupt line (R281). -/
def tmEvent (q m b : Nat) (s : State) : State :=
  let s := raiseWord (Reg.TM_STAT q m) (2 ^ b) s
  if bitAt (rd s (Reg.TM_IEN q m)) b then setLine q m s else s

/-- The last source tick of timer m: while its gate is closed, one before the edge that closed it (R275, R282).
(DEDUCED, log 83) -/
def sourceTickAt (s : State) (q m : Nat) : Nat :=
  let p := 2 ^ tmCfg s q m Fld.TM_CFG_PRE
  (if gateOpen s q m then s.tb.ns else (evtInOf s q (tmCfg s q m Fld.TM_CFG_GSEL)).fAt - 1) / p * p

/-- A ZERO (act 1 or 3) or CMP (act 0 or 2) event of timer m changes the outputs it drives 4 ns after its source tick
(R284). -/
def driveOutputs (q m : Nat) (zero : Bool) (s : State) : State :=
  forAll (List.range 2) (fun o s =>
    let a := Reg.TM_OUTCFG q o
    if flag s a Fld.TM_OUTCFG_EN && !flag s a Fld.TM_OUTCFG_FEN && fld s a Fld.TM_OUTCFG_TIMER == m &&
        fld s a Fld.TM_OUTCFG_ACT % 2 == b2n zero then
      updEvtOut q o (fun x => { x with due := x.due ++ [4 + sourceTickAt s q m] }) s
    else s) s

/-- The counter of timer m has become 0 at a source tick and the ZERO event has not been taken (R276). (DEDUCED, log
83) -/
def zeroDue (s : State) (q m : Nat) : Bool :=
  tmEn s q m && counterNow s q m == 0 && !(timerOf (settleNow q m s) q m).zeroTaken

/-- The ZERO event. -/
def timerZero (q m : Nat) (s : State) : State :=
  s |> settleNow q m |> updTimer q m (fun x => { x with zeroTaken := true }) |> tmEvent q m 0 |> driveOutputs q m true

/-- TIMER_ZERO (R276). -/
def execTimerZero (q : Fin 16) (m : Fin 8) (s : State) : Out := live (zeroDue s q m) s (timerZero q m s)

/-- TM_CMPCUR shows C (R277). -/
def showCompare (q m : Nat) (s : State) : State :=
  let c := (timerOf s q m).c
  s |> wr (Reg.TM_CMPCUR_LO q m) (c % 2 ^ 32) |> wr (Reg.TM_CMPCUR_HI q m) (c / 2 ^ 32)

/-- The counter of timer m equals C at a source tick and the match has not been taken; a C above RLD never matches
(R276, R277). (DEDUCED, log 83) -/
def compareDue (s : State) (q m : Nat) : Bool :=
  tmEn s q m && counterNow s q m == (timerOf s q m).c && decide ((timerOf s q m).c ≤ (timerOf s q m).rld) &&
    !(timerOf (settleNow q m s) q m).cmpTaken

/-- The live compare after a match (R277). -/
def stepCompare (c int rld : Nat) : Nat := (((c : Int) - int) % (rld + 1)).toNat

/-- The CMP event: the compare steps by INT. -/
def timerCompare (q m : Nat) (s : State) : State :=
  s |> settleNow q m
    |> updTimer q m (fun x => { x with cmpTaken := true, c := stepCompare x.c (rd s (Reg.TM_INT q m)) x.rld })
    |> showCompare q m |> tmEvent q m 1 |> driveOutputs q m false

/-- TIMER_COMPARE (R277). -/
def execTimerCompare (q : Fin 16) (m : Fin 8) (s : State) : Out := live (compareDue s q m) s (timerCompare q m s)

/-- A match of the present tick that is still to be taken takes place, before a write of that tick changes what it
uses (R279, R285). (DEDUCED, log 83) -/
def takeMatch (q m : Nat) (s : State) : State := if compareDue s q m then timerCompare q m s else s

/-- TM_LOAD (R276): the counter is set to RLD at the next source tick. -/
def tmLoad (q m : Nat) (s : State) : State := updTimer q m (fun x => { x with load := true }) (settleNow q m s)
def execTmLoad (m : Master) (q : Fin 16) (t : Fin 8) (s : State) : Out :=
  regWriteBy m (Reg.TM_CMD q t) s (tmLoad q t s)

/-! ## Captures (R278) -/

/-- TM_STAT.QCNT shows the capture queue. -/
def showQueue (q m : Nat) (s : State) : State :=
  setFld (Reg.TM_STAT q m) Fld.TM_STAT_QCNT (timerOf s q m).queue.length s

/-- A capture of timer m with stamp e: at most one on a tick; one that finds four entries stands until the tick ends,
because a read of this tick comes first (R278). -/
def capture1 (q m e : Nat) (s : State) : State :=
  let s := settleNow q m s
  let x := timerOf s q m
  if x.capAt = s.tb.ns + 1 then s
  else if x.queue.length < 4 then
    s |> updTimer q m (fun x => { x with queue := x.queue ++ [(x.base, e % 2 ^ 32)], capAt := s.tb.ns + 1 })
      |> showQueue q m |> tmEvent q m 2
  else updTimer q m (fun x => { x with late := some (x.base, e % 2 ^ 32), capAt := s.tb.ns + 1 }) s

/-- The tick ends with no room for a capture of timer m: it is dropped (R278). -/
def dropLate (q m : Nat) (s : State) : State :=
  match (timerOf s q m).late with
  | some _ =>
    s |> updTimer q m (fun x => { x with drop := min 0xFFFF (x.drop + 1), late := none }) |> tmEvent q m 3
  | none => s

/-- TM_CAPTURE (R278). -/
def execTmCapture (m : Master) (q : Fin 16) (t : Fin 8) (s : State) : Out :=
  regWriteBy m (Reg.TM_CMD q t) s (capture1 q t s.tb.ns s)

/-- The capture that entered timer m's queue on the present tick, which a read of this tick does not see (R278). -/
def freshCapture (s : State) (q m : Nat) : List (Nat × Nat) :=
  let x := timerOf s q m
  if x.capAt = s.tb.ns + 1 ∧ x.late = none then x.queue.drop (x.queue.length - 1) else []

/-- A read of TM_CAPPOP: it comes before a capture of the same tick, which then enters (R278). -/
def capPop (q m : Nat) (s : State) : State :=
  let x := timerOf s q m
  let fresh := freshCapture s q m
  let old := x.queue.take (x.queue.length - fresh.length)
  match old with
  | (v, e) :: rest =>
    let s := s |> wr (Reg.TM_CAPPOP q m) (2 ^ 31 + old.length * 2 ^ 16 + x.drop)
      |> wr (Reg.TM_CAPV_LO q m) (v % 2 ^ 32) |> wr (Reg.TM_CAPV_HI q m) (v / 2 ^ 32) |> wr (Reg.TM_CAPE q m) e
      |> updTimer q m (fun y => { y with queue := rest ++ fresh ++ x.late.toList, drop := 0, late := none })
      |> showQueue q m
    if x.late = none then s else tmEvent q m 2 s
  | [] => s |> wr (Reg.TM_CAPPOP q m) x.drop |> updTimer q m (fun x => { x with drop := 0 })

/-- TM_CAPPOP_READ (R278). -/
def execTmCappopRead (m : Master) (q : Fin 16) (t : Fin 8) (s : State) : Out :=
  regReadBy m (Reg.TM_CAPPOP q t) s (capPop q t s)

/-! ## 64-bit values (R277, R279) -/

/-- A write of TM_CMPSET_LO commits both words as the new C; the present tick's match used the old one (R277, R279). -/
def cmpsetCommit (q m lo : Nat) (s : State) : State :=
  let s := s |> takeMatch q m |> settleNow q m |> updTimer q m (fun x =>
    let v := x.cmpHi * 2 ^ 32 + lo
    { x with cmpset := v, c := v, cmpTaken := true })
  s |> wr (Reg.TM_CMPSET_LO q m) lo |> wr (Reg.TM_CMPSET_HI q m) (timerOf s q m).cmpHi |> showCompare q m

/-- TM_CMPSET_COMMIT (R277). -/
def execTmCmpsetCommit (m : Master) (q : Fin 16) (t : Fin 8) (v : BitVec 32) (s : State) : Out :=
  regWriteBy m (Reg.TM_CMPSET_LO q t) s (cmpsetCommit q t v.toNat s)

/-- A write of TM_RLD_LO commits both words; a match of the present tick uses the old ones (R279). -/
def rldCommit (q m lo : Nat) (s : State) : State :=
  let s := s |> takeMatch q m |> settleNow q m |> updTimer q m (fun x =>
    { x with rld := x.rldHi * 2 ^ 32 + lo, cmpTaken := true })
  s |> wr (Reg.TM_RLD_LO q m) lo |> wr (Reg.TM_RLD_HI q m) (timerOf s q m).rldHi

/-- TM_RLD_COMMIT (R279). -/
def execTmRldCommit (m : Master) (q : Fin 16) (t : Fin 8) (v : BitVec 32) (s : State) : Out :=
  regWriteBy m (Reg.TM_RLD_LO q t) s (rldCommit q t v.toNat s)

/-- HI writes wait for their LO writes (R279). -/
def rldHold (q m hi : Nat) (s : State) : State := updTimer q m (fun x => { x with rldHi := hi }) s
def cmpHold (q m hi : Nat) (s : State) : State := updTimer q m (fun x => { x with cmpHi := hi }) s

/-- A write to TM_CFG: the counter goes on from its present value (R276). -/
def tmCfgWrite (q m v : Nat) (s : State) : State := plainWrite (Reg.TM_CFG q m) v (settleNow q m s)

/-- A write to TM_CMD (R276, R278). -/
def tmCmdWrite (q m v : Nat) (s : State) : State :=
  let s := if bitAt v 1 then capture1 q m s.tb.ns s else s
  if bitAt v 0 then tmLoad q m s else s

/-! ## EVT inputs (R282, R283) -/

/-- MINPW of input x, ns. -/
def minPw (s : State) (q x : Nat) : Nat := max 1 (fld s (Reg.TM_EVTF q x) Fld.TM_EVTF_MINPW)

/-- The resolved level takes the synchronised one; a change that reverts before the filter has taken it is rejected
(R282). -/
def resolveChange (q x : Nat) (s : State) : State :=
  let i := evtInOf s q x
  let s := if i.r != i.f then incFld (Reg.TM_EVTCNT q x) Fld.TM_EVTCNT_REJ s else s
  updEvtIn q x (fun i => { i with r := i.sync, rAt := s.tb.ns + 1 }) s

/-- R may change: it last changed at least 4 ticks before (R282). -/
def resolverFree (s : State) (q x : Nat) : Bool :=
  let i := evtInOf s q x
  i.rAt == 0 || decide (i.rAt + 3 ≤ s.tb.ns)

/-- A synchronised transition of input x to a level (R282). (DEDUCED, log 84) -/
def pinTransition (q x : Nat) (level : Bool) (s : State) : State :=
  let free := resolverFree s q x
  let s := updEvtIn q x (fun i => { i with sync := level }) s
  if free then (if (evtInOf s q x).r != level then resolveChange q x s else s)
  else incFld (Reg.TM_EVTCNT q x) Fld.TM_EVTCNT_MERGE s

/-- The level that quire q drives on EVT[2q + o], if it drives the pin (R284). -/
def evtPin (s : State) (q o : Nat) : Option Bool :=
  let a := Reg.TM_OUTCFG q o
  if flag s a Fld.TM_OUTCFG_EN && alive s && decide (2 ≤ mode s) then
    let l := if flag s a Fld.TM_OUTCFG_FEN then flag s a Fld.TM_OUTCFG_FLVL else (evtOutOf s q o).level
    some (l != flag s a Fld.TM_OUTCFG_POL)
  else none

/-- The oldest change of a driven pin reaches the resolver of input x in quire q (R17, R284). (DEDUCED, log 84) -/
def takeComing (q x : Nat) (s : State) : State :=
  match (evtInOf s q x).coming with
  | (_, l) :: rest =>
    let s := updEvtIn q x (fun i => { i with coming := rest }) s
    if (evtInOf s q x).sync != l then pinTransition q x l s else s
  | [] => s

/-- EVT_PIN_TRANSITION (R282): of a pin the device drives, a change 1 ns old or more; of any other, one of the
board's. -/
def execEvtPinTransition (q : Fin 16) (x : Fin 32) (level : Bool) (s : State) : Out :=
  match (evtInOf s q x).coming with
  | (t, l) :: _ => live (l == level && decide (t + 1 ≤ s.tb.ns)) s (takeComing q x s)
  | [] =>
    live ((evtPin s (x.val / 2) (x.val % 2)).isNone && (evtInOf s q x).sync != level) s (pinTransition q x level s)

/-- EVT_RESOLVE_WINDOW_END (R282). -/
def execEvtResolveWindowEnd (q : Fin 16) (x : Fin 32) (s : State) : Out :=
  live ((evtInOf s q x).rAt != 0 && resolverFree s q x && (evtInOf s q x).sync != (evtInOf s q x).r) s
    (resolveChange q x s)

/-- The filtered level is due to take R (R282). -/
def edgeDue (s : State) (q x : Nat) : Bool :=
  let i := evtInOf s q x
  i.r != i.f && decide (i.rAt - 1 + minPw s q x - 1 ≤ s.tb.ns)

/-- Timer m captures on this edge (R278). -/
def capturesEdge (s : State) (q m x : Nat) (rising : Bool) : Bool :=
  let e := tmCfg s q m Fld.TM_CFG_CEDGE
  tmCfg s q m Fld.TM_CFG_CSEL == x && ((rising && bitAt e 0) || (!rising && bitAt e 1))

/-- An accepted edge: gated timers count under the old level up to the tick before, the level changes, and captures
are made with the stamp of the resolved edge (R275, R278, R282). (DEDUCED, log 84) -/
def acceptEdge (q x : Nat) (s : State) : State :=
  let i := evtInOf s q x
  let s := forAll (List.range 8) (fun m s =>
    if tmCfg s q m Fld.TM_CFG_GSEL == x then settleTimer q m (s.tb.ns - 1) s else s) s
  let s := s |> setFlag (Reg.TM_EVTST q x) Fld.TM_EVTST_LEVEL i.r
    |> updEvtIn q x (fun i => { i with f := i.r, fAt := s.tb.ns, stuck := false })
  forAll (List.range 8) (fun m s => if capturesEdge s q m x i.r then capture1 q m (i.rAt - 1) s else s) s

/-- EVT_ACCEPTED_EDGE (R282). -/
def execEvtAcceptedEdge (q : Fin 16) (x : Fin 32) (s : State) : Out := live (edgeDue s q x) s (acceptEdge q x s)

/-- F has been held for the time of R283. -/
def evtStuckDue (s : State) (q x : Nat) : Bool :=
  let k := fld s (Reg.TM_EVTF q x) Fld.TM_EVTF_STK
  k != 0 && !(evtInOf s q x).stuck && decide ((evtInOf s q x).fAt + 2 ^ (k + 10) ≤ s.tb.ns)

/-- EVT_STUCK (R283). -/
def execEvtStuck (q : Fin 16) (x : Fin 32) (s : State) : Out :=
  live (evtStuckDue s q x) s
    (s |> raiseFlag (Reg.TM_EVTST q x) Fld.TM_EVTST_STUCK |> updEvtIn q x (fun i => { i with stuck := true })
       |> report { src := 0x15, event := 1, cls := 1, unit := 32 * q.val + x.val })

/-- EVTCNT_CLEAR (R294). -/
def execEvtcntClear (m : Master) (q : Fin 16) (x : Fin 32) (s : State) : Out :=
  regWriteBy m (Reg.TM_EVTCNT q x) s (wr (Reg.TM_EVTCNT q x) 0 s)

/-! ## EVT outputs (R284) -/

/-- The level of the pin EVT[2q + o] from TB_NS t on, where the quire drives it, goes to the synchroniser of every
quire whose last level it changes (R17, R284). (DEDUCED, log 84) -/
def drivePin (q o t : Nat) (s : State) : State :=
  match evtPin s q o with
  | some l =>
    forAll (List.range 16) (fun p s =>
      let i := evtInOf s p (2 * q + o)
      let last := match i.coming.reverse with
        | (_, b) :: _ => b
        | [] => i.sync
      if last != l then updEvtIn p (2 * q + o) (fun i => { i with coming := i.coming ++ [(t, l)] }) s else s) s
  | none => s

/-- Every pin that a quire drives takes its level, as the quires begin to drive (R284). -/
def drivePins (s : State) : State :=
  forAll (List.range 32) (fun i s => drivePin (i / 2) (i % 2) s.tb.ns s) s

/-- A write to TM_OUTCFG: the pin takes its level at once (R284). -/
def outcfgWrite (q o v : Nat) (s : State) : State := drivePin q o s.tb.ns (plainWrite (Reg.TM_OUTCFG q o) v s)

/-- A pin change is due. -/
def outputDue (s : State) (q o : Nat) : Bool :=
  match (evtOutOf s q o).due with
  | t :: _ => decide (t ≤ s.tb.ns)
  | [] => false

/-- A pulse starts, or the output toggles, at the instant its event asked for. -/
def outputChange (q o : Nat) (s : State) : State :=
  let a := Reg.TM_OUTCFG q o
  let t := nthD s.tb.ns (evtOutOf s q o).due 0
  s |> updEvtOut q o (fun x =>
      if 2 ≤ fld s a Fld.TM_OUTCFG_ACT then { x with due := x.due.drop 1, level := !x.level }
      else { due := x.due.drop 1, level := true, pulseEnd := t + max 1 (fld s a Fld.TM_OUTCFG_WIDTH) + 1 })
    |> drivePin q o t

/-- EVT_OUTPUT_CHANGE (R284). -/
def execEvtOutputChange (q : Fin 16) (o : Fin 2) (s : State) : Out := live (outputDue s q o) s (outputChange q o s)

/-- EVT_PULSE_END (R284). -/
def execEvtPulseEnd (q : Fin 16) (o : Fin 2) (s : State) : Out :=
  live ((evtOutOf s q o).pulseEnd != 0 && decide ((evtOutOf s q o).pulseEnd ≤ s.tb.ns + 1)) s
    (s |> updEvtOut q o (fun x => { x with level := false, pulseEnd := 0 })
       |> drivePin q o ((evtOutOf s q o).pulseEnd - 1))

end Sys2Proof.Machine
end

