-- ==== Sys2Proof/Machine/Boot.lean ====
section
/-! DEFINITION. The resets and the ends of BOOT and SHUTDOWN (R19, R30 to R32, R382, R391 to R393, R395, R396, R401). -/

namespace Sys2Proof.Machine

/-! ## Resets -/

/-- The supply monitor's first samples, mV (R405). (DESIGN CHOICE, log 156) -/
def firstSamples (vcore vio vaux : Nat) (s : State) : State := supplySample true (setSupplies vcore vio vaux s)

/-- POWER_ON_RESET_RELEASE (R391, R392): the supplies measure enough, mV, RESET_N is high, and all four conditions
have held for 2 ms. (DESIGN CHOICE, log 170) -/
def execPowerOnResetRelease (vcore vio vaux : BitVec 16) (release : Release) (s : State) : Out :=
  act (s.tb.hold == .por && decide (715 ≤ vcore.toNat) && decide (1710 ≤ vio.toNat) && decide (3135 ≤ vaux.toNat) &&
      release.resetN && decide (2000000 ≤ release.ns.toNat)) s
    (let s := firstSamples vcore.toNat vio.toNat vaux.toNat (coldBoot s)
     if release.refclk then s else refclkLost s)

/-- A fall of a supply is a brown-out: below 0.55 V of VCORE or 2.70 V of VAUX for 1 us, and in BOOT and STANDBY below
0.60 V or 2.90 V for any time; in DORMANT VCORE is switched off (R391). (DEDUCED, log 237) -/
def brownOut (s : State) (x : Sag) : Bool :=
  let held := decide (1000 ≤ x.ns.toNat)
  let early := mode s == 1 || mode s == 2
  match x.supply with
  | .vcore => mode s != 0 && ((held && decide (x.mv.toNat < 550)) || (early && decide (x.mv.toNat < 600)))
  | .vio => false
  | .vaux => (held && decide (x.mv.toNat < 2700)) || (early && decide (x.mv.toNat < 2900))

/-- BROWN_OUT (R391): a supply's fall that is one. (DEDUCED, log 171) -/
def execBrownOut (sag : Sag) (s : State) : Out := act (s.tb.hold != .por && brownOut s sag) s (heldIn .por s)

/-- RESET_N_FALL (R31): a low that acts, in every mode but DORMANT, where only the WAKE circuit is alive (R29).
(DESIGN CHOICE, log 177) -/
def execResetNFall (s : State) : Out := live true s (heldIn .resetN s)

/-- RESET_N_RELEASE (R31). (DESIGN CHOICE, log 170) -/
def execResetNRelease (vcore vio vaux : BitVec 16) (s : State) : Out :=
  act (s.tb.hold == .resetN) s (firstSamples vcore.toNat vio.toNat vaux.toNat (warmBoot s))

/-- WAKE (R393): the power-on reset of R391 starts. (DEDUCED, log 171) -/
def execWake (s : State) : Out := act (s.tb.hold == .none && mode s == 0) s (heldIn .por s)

/-! ## The end of BOOT -/

/-- The boot was not planned: the newest shutdown record does not belong to the last power cycle, or its cause is not 1
or 2 (R382). -/
def unplanned (s : State) : Option Nat :=
  match lastShutdown s with
  | none => some 0
  | some x => if x.pcc + 1 = s.tb.pcc ∧ (x.detail = 1 ∨ x.detail = 2) then none else some x.detail

/-- The Foreman starts and the device is in STANDBY (R352, R382, R392, R395). (DEDUCED, log 168) -/
def bootComplete (s : State) : State :=
  let s := s |> enterMode 2 |> setFlag Reg.MB_HSTAT Fld.MB_HSTAT_FBUSY s.frm.restarting |> drivePins |> flushDir
    |> wdogRestart
    |> forAll (List.range 256) settlePort
  let s := match unplanned s with
    | some c => report { src := 0x01, event := 4, cls := 0, unit := 0, detail := c } s
    | none => s
  if flag s Reg.SM_PGIN Fld.SM_PGIN_LEVEL && flag s Reg.SM_SEQHDR Fld.SM_SEQHDR_AUTOSTART then autoStart s else s

/-- BOOT_COMPLETE (R392): not in recovery (R353). -/
def execBootComplete (s : State) : Out :=
  live (mode s == 1 && !s.frm.recovery && decide (s.frm.image < 3)) s (bootComplete s)

/-! ## The JTAG port (R418) -/

/-- The IDCODE of stepping B1 (R418). (PRESUMED, log 202) -/
def tapIdcode : Nat := 0x19256A4B

/-- What the data register that the port's instruction selects holds when it is captured: the IDCODE, or BYPASS's one
bit; the boundary cells of SAMPLE/PRELOAD and EXTEST hold the pins, in an order no rule gives. (PRESUMED, log 202) -/
def tapCapture (s : State) : Option (Nat × Nat) :=
  match s.tb.tap with
  | .idcode => some (32, tapIdcode)
  | .bypass => some (1, 0)
  | .samplePreload => none
  | .extest => none

/-- JTAG_FACTORY_REQUEST (R30, R32): refused with no effect but on the JTAG status. (DESIGN CHOICE, log 172) -/
def execJtagFactoryRequest (s : State) : Out :=
  let takes := (mode s == 1 || mode s == 2) && !s.tb.factoryBlown
  live (mode s != 7) s
    (updTb (fun b => { b with jtagRefused := !takes }) (if takes then drivePins (enterMode 7 s) else s))

/-! ## The end of SHUTDOWN -/

/-- The appends of a SHUTDOWN with cause 4 are complete, or 1 ms has passed since it began (R401). (DEDUCED, log 165)
-/
def appendsOver (s : State) : Bool :=
  rd s Reg.FM_SHUTCAUSE != 4 || s.sup.appends == 0 || decide (s.sup.shutAt + 1000000 ≤ s.tb.ns)

/-- What an orderly SHUTDOWN commits before it ends, where the Foreman serves: the fault log, the lifetime counts and
the recorder (R19, R291, R382). (DEDUCED, log 165) -/
def orderly (s : State) : State :=
  if rd s Reg.FM_SHUTCAUSE ≠ 4 ∧ foremanServes s = true then
    commitNow (commitLifetime (forAll s.fm.logbuf appendRecord s))
  else s

/-- SHUTDOWN ends in the mode its cause names (R30, R396). (DEDUCED, log 165, 166) -/
def shutdownEnd (s : State) : State :=
  let cause := rd s Reg.FM_SHUTCAUSE
  let s := orderly s |> setFlag Reg.SM_SEQSTAT Fld.SM_SEQSTAT_BUSY false
    |> setFlag Reg.SM_SEQSTAT Fld.SM_SEQSTAT_DOWN false
  if cause = 2 ∨ cause = 4 then goDormant s
  else if cause = 6 then warmBoot s
  else forAll (List.range 256) settlePort (enterMode 2 s)

/-- What an orderly SHUTDOWN commits can go to the NVM: its controller is idle (R310). (DEDUCED, log 165) -/
def nvIdle (s : State) : Bool := rd s Reg.FM_SHUTCAUSE == 4 || s.nv.op == .none

/-- The commits of an orderly SHUTDOWN wait: at shed level 3 and above the recorder's does (R291), and while recorder
memory is held (R304). (DEDUCED, log 165) -/
def commitWaits (s : State) : Bool := rd s Reg.FM_SHUTCAUSE != 4 && foremanServes s && !commitFree s

/-- SHUTDOWN_COMPLETE (R396). (DEDUCED, log 167) -/
def execShutdownComplete (s : State) : Out :=
  live (mode s == 6 && railsDown s && appendsOver s && nvIdle s) s
    (if commitWaits s then (if 3 ≤ shed s then dueCommit s else s) else shutdownEnd s)

/-- SHED6_APPEND_TIMEOUT (R401). (DEDUCED, log 167) -/
def execShed6AppendTimeout (s : State) : Out :=
  live (mode s == 6 && rd s Reg.FM_SHUTCAUSE == 4 && decide (s.sup.shutAt + 1000000 ≤ s.tb.ns) && railsDown s) s
    (shutdownEnd s)

end Sys2Proof.Machine
end

