-- ==== Sys2Proof/Machine/Folios.lean ====
section
/-! DEFINITION. Updating folios: the update of R356 and its commands, live activation of each target, trials, and the
restart of engines in LOCKOUT (R356 to R364). -/

namespace Sys2Proof.Machine

/-! ## The update (R356, R357) -/

/-- The update buffer (R356). -/
def bufferBase : Nat := 0x40200000

/-- Another session's update, or an activation in progress, keeps session x out (R356). -/
def updateTaken (s : State) (x : Nat) : Bool :=
  (s.frm.update.phase != 0 && s.frm.update.session != x) || s.frm.act.kind != 0

/-- FOLIO_LOAD's effect (R357). -/
def folioLoad (x : Nat) (p : List Nat) (s : State) : State :=
  let off := le p 0 4
  let n := le p 4 4
  if p.length < 8 ∨ 4000 < n ∨ p.length ≠ 8 + n ∨ 512 * 1024 < off + n then respond x stARG [] s
  else if updateTaken s x || (s.frm.update.phase == 0 && off != 0) then respond x stSTATE [] s
  else
    let u := { (if off = 0 then Update.init else s.frm.update) with phase := 1, session := x }
    s |> storeBytes 128 (bufferBase + off) (p.drop 8) |> updFrm (fun f => { f with update := u }) |> respond x stOK []

/-- FOLIO_LOAD (R357); it waits while the buffer is held (R304). -/
def execFolioLoad (x : Fin 16) (s : State) : Out :=
  let p := payloadOf s x.val
  if rangeHeld s (bufferBase + le p 0 4) (p.length - 8) then .next s
  else lyheuf x.val 0x0501 s (folioLoad x.val p s)

/-- What the directory will hold of a folio. -/
def recOf (f : List Nat) : SlotRec :=
  { valid := true, version := fVersion f, svn := fSvn f, keyslot := fKeyslot f, digest := fDigest f }

/-- FOLIO_VERIFY's effect (R350, R357). -/
def folioVerify (x : Nat) (p : List Nat) (s : State) : State :=
  let n := le p 0 4
  if 512 * 1024 < n then respond x stARG [] s
  else if updateTaken s x || s.frm.update.phase == 0 then respond x stSTATE [] s
  else
    let (s, f, ok) := loadBytes 128 bufferBase n s
    let r := verifyFolio s f n s.frm.version ok
    let u := { s.frm.update with
      phase := if r = 0 then 2 else 1, target := fTarget f, inst := fInst f, len := n, recd := recOf f }
    s |> updFrm (fun g => { g with update := u })
      |> respond x stOK ([r, fTarget f, fInst f, fKeyslot f] ++ toBytes 4 (fVersion f) ++ toBytes 2 (fSvn f) ++
        [0, 0] ++
          padTo 0 64 (fDigest f))

/-- FOLIO_VERIFY (R357); it waits while the buffer is held (R304). -/
def execFolioVerify (x : Fin 16) (s : State) : Out :=
  if rangeHeld s bufferBase (le (payloadOf s x.val) 0 4) then .next s
  else lyheufSized x.val 0x0502 4 s (folioVerify x.val)

/-- The bytes of a list in sectors. -/
def inSectors (bs : List Nat) : List (List Nat) :=
  (List.range (ceilDiv bs.length 4096)).map fun i => cut bs (4096 * i) 4096

/-- The folio is in slot k: the directory records it, and a record that was EMPTY has one from now (R344). (DEDUCED,
log 136) -/
def recordSlot (k : Nat) (s : State) : State :=
  let u := s.frm.update
  let d := dirOf s u.target u.inst
  let d := { (d.setSlot k u.recd) with state := if d.state = 0 then 1 else d.state }
  s |> setDir u.target u.inst d |> updFrm (fun f => { f with update := { f.update with phase := 3, slot := k } })

/-- The update returns to IDLE (R356). -/
def updateIdle (s : State) : State := updFrm (fun f => { f with update := Update.init }) s

/-- The key slot that signed the active Foreman image: the directory's active slot of target 2, or the golden image
where the directory names none that is valid (R344, R349). (DEDUCED, log 139) -/
def foremanKey (s : State) : Nat :=
  let d := dirOf s 2 0
  if d.state ≠ 0 ∧ (d.slot d.active).valid = true then (d.slot d.active).keyslot
  else
    let at_ := 256 + fBodylen (nvBytes s 400 256).1 + 10
    nvByte s (400 + at_ / 4096) (at_ % 4096)

/-- INSTALL of a folio that acts on the OTP: the owner slot, or a revocation (R349). (DEDUCED, log 139; DESIGN CHOICE,
log 138) -/
def installOtp (x : Nat) (f : List Nat) (ok : Bool) (s : State) : State :=
  if fTarget f = 6 then
    if s.otp.owner then respond x stSTATE [] s
    else if !ok then respondRefused x 7 5 s
    else
      s |> updOtp (fun o => { o with owner := true, ownerDigest := sha3 (cut (fBody f) 0 2592) }) |> showOtp
        |> updateIdle
        |> respond x stOK [2, 0, 0, 0]
  else
    let k := le (fBody f) 0 1
    if 3 < k ∨ s.otp.rev ||| 2 ^ k = 15 ∨ foremanKey s = k then respond x stSTATE [] s
    else if bitAt s.otp.rev k then respondRefused x 7 4 s
    else if !ok then respondRefused x 7 5 s
    else
      s |> updOtp (fun o => { o with rev := o.rev ||| 2 ^ k }) |> showOtp |> updateIdle |> respond x stOK [2, 0, 0, 0]

/-- The slot just written reads back good, and its hash is the folio's (R357). -/
def slotHolds (s : State) (sect count : Nat) : Bool :=
  let (f, _, ok) := storedFolio s sect count
  ok && sha3 (f.take (256 + fBodylen f)) == s.frm.update.recd.digest

/-- FOLIO_INSTALL's effect: the verified folio goes to the inactive slot, is read back and hashed again (R357). ok
tells whether the NVM, or the fuses, took it: a sector that did not is retired (R311). In recovery only target 2 can
be installed, and step 3 of R352 is repeated (R353). (DEDUCED, log 136, 211; DESIGN CHOICE, log 138) -/
def folioInstall (x : Nat) (ok : Bool) (s : State) : State :=
  let u := s.frm.update
  if updateTaken s x ∨ u.phase ≠ 2 ∨ (mode s = 1 ∧ u.target ≠ 2) then respond x stSTATE [] s
  else
    let (s, f, good) := loadBytes 128 bufferBase u.len s
    if 6 ≤ u.target then installOtp x f ok s
    else
      let d := dirOf s u.target u.inst
      let k := 1 - d.active
      let at_ := slotSectors u.target u.inst k
      let s := setDir u.target u.inst (d.setSlot k SlotRec.init) s
      if !good then respondRefused x 6 6 s
      else if !ok && (freshSector s).isSome then respondRefused x 6 6 (failSector at_.1 s)
      else
        match writeSlot at_.1 (inSectors f) s with
        | none => respondRefused x 6 5 s
        | some t =>
          let t := readFolio at_.1 at_.2 t
          if slotHolds t at_.1 at_.2 then
            let t := t |> recordSlot k |> respond x stOK [k, 0, 0, 0]
            if t.frm.recovery then bootRest (bootForeman t) else t
          else respondRefused x 6 6 t

/-- FOLIO_INSTALL (R357); it waits for the NVM controller, and while the buffer is held (R304). -/
def execFolioInstall (x : Fin 16) (ok : Bool) (s : State) : Out :=
  if s.nv.op = .none ∧ rangeHeld s bufferBase s.frm.update.len = false ∧ nvClosed s = false then
    lyheufSized x.val 0x0503 0 s (fun _ s => folioInstall x.val ok s) else .next s

/-- A slot in the layout of FOLIO_DIR. (DESIGN CHOICE, log 135) -/
def slotBytes (r : SlotRec) : List Nat :=
  toBytes 4 r.version ++ toBytes 2 r.svn ++ [b2n r.valid, 0] ++ padTo 0 64 r.digest

/-- FOLIO_DIR (R357); it gets STATE while another session has an update (R356). -/
def execFolioDir (x : Fin 16) (s : State) : Out :=
  lyheufSized x.val 0x0506 2 s fun p s =>
    let t := nthD 0 p 0
    let i := nthD 0 p 1
    if s.frm.update.phase ≠ 0 ∧ s.frm.update.session ≠ x.val then respond x.val stSTATE [] s
    else if instances t ≤ i then respond x.val stARG [] s
    else
      let d := dirOf s t i
      respond x.val stOK ([d.active, d.state, 0, 0] ++ slotBytes d.a ++ slotBytes d.b) s

/-! ## Making a slot active (R344, R358) -/

/-- Slot k of a target is active: in TRIAL for some seconds, or ACTIVE at once with none (R358). -/
def makeActive (t i k secs : Nat) (s : State) : State :=
  let d := dirOf s t i
  let at_ := if secs = 0 then 0 else s.tb.ns + secs * 1000000000 + 1
  s |> setDir t i { d with active := k, state := if secs = 0 then 1 else 2, secs := secs }
    |> updFrm (fun f => { f with trials := tset (fun _ => 0) f.trials (64 * t + i) at_ })

/-- A slot's folio as it stands in NVM. -/
def slotFolio (s : State) (t i k : Nat) : List Nat :=
  let (sect, count) := slotSectors t i k
  (storedFolio s sect count).1

/-! ## Engine images (R359) -/

/-- Engine e holds image i. -/
def holdsImage (s : State) (e i : Nat) : Bool := (engOf s e).image == i + 1

/-- The bindings and the single engines that run image i. -/
def bindingsOf (s : State) (i : Nat) : List Nat :=
  (List.range 128).filter fun x => decide (x % 8 < 6) && slotFormed s (x / 8) (x % 8) &&
    holdsImage s (eng (x / 8) (fld s (Reg.BD_BSTAT (x / 8) (x % 8)) Fld.BD_BSTAT_HOME)) i
def singlesOf (s : State) (i : Nat) : List Nat :=
  (List.range 128).filter fun e => holdsImage s e i && !bound s (e / 8) (e % 8) && engState s e != 2

/-- A shadow slot for slot b of quire q: in NONE, of the same size, its engines halted and free (R264, R359). -/
def shadowFor (s : State) (q b : Nat) : Option Nat :=
  (List.range 6).find? fun k => k != b && (slotEngines k).length == (slotEngines b).length && bdCheck s q 1 k 0 0 == 0

/-- The engine plan names image v for binding slot b of quire q. -/
def setPlan (q j v : Nat) (s : State) : State :=
  updFrm (fun f => { f with plan := setNth f.plan (16 * q + j) v }) s

/-- An activation ends: the update is IDLE, and its session gets its answer, unless the activation was a revert or its
ABORT has answered already. -/
def endActivation (answer : Nat → State → State) (s : State) : State :=
  let a := s.frm.act
  let s := updFrm (fun f => { f with act := Activation.init }) s
  let s := if a.revert then s else updateIdle s
  if a.revert || a.stop then s else answer a.session s

/-- The binding controller of quire q takes a command (R264). -/
def quireFree (s : State) (q : Nat) : Bool := !flag s (Reg.BD_CMDST q) Fld.BD_CMDST_BUSY

/-- The memories of engine e are held (R304, R306): an image waits. (DEDUCED, log 236) -/
def imageHeld (s : State) (e : Nat) : Bool := rangeHeld s (bankBase e) 0x10000

/-- The home engine of slot k of quire q, whose memories a binding in the slot runs from (R246). -/
def slotHome (q k : Nat) : Nat := eng q (nthD 0 (slotEngines k) 0)

/-- The shadow k of slot b of quire q starts muted with the image of folio f (R359, steps 2 and 3). -/
def startShadow (q b k : Nat) (f : List Nat) (s : State) : State :=
  let home := slotHome q k
  let tmo := if fRdytmo f = 0 then 100 else fRdytmo f
  s |> loadImage home s.frm.act.image s.frm.act.slot f |> setFlag (Reg.BD_BCTL q k) Fld.BD_BCTL_MUTE true
    |> setFlag (Reg.BD_BCTL q k) Fld.BD_BCTL_ROLE false |> bdCommand q 1 k 0 0
    |> updFrm (fun g => { g with act := { g.act with
         stage := 1, old := 8 * q + b, shadow := 8 * q + k, since := s.tb.ns + 1,
         ready := 0x8000 + bankBase home + fRdyofs f / 4 * 4, limit := tmo * 1000000 } })

/-- A single engine is halted, reloaded and restarted (R359). -/
def reloadSingle (i k : Nat) (f : List Nat) (e : Nat) (s : State) : State :=
  restartEngine e (loadImage e i k f (stopEngine e 2 s))

/-- Binding slot x, as 8q + b, still runs the image that is being activated. -/
def stillRuns (s : State) (x : Nat) : Bool :=
  slotFormed s (x / 8) (x % 8) &&
    holdsImage s (eng (x / 8) (fld s (Reg.BD_BSTAT (x / 8) (x % 8)) Fld.BD_BSTAT_HOME)) s.frm.act.image

/-- The next binding of the activation gets its shadow, once its quire takes a command and the shadow's memories are
not held; with none left the single engines are reloaded, the new slot is active and the answer goes out (R264, R304,
R358, R359). (DEDUCED, log 140) -/
def nextBinding (s : State) : State :=
  let a := s.frm.act
  match a.todo.filter (stillRuns s) with
  | x :: rest =>
    if quireFree s (x / 8) then
      match shadowFor s (x / 8) (x % 8) with
      | some k =>
        if imageHeld s (slotHome (x / 8) k) then s
        else
          startShadow (x / 8) (x % 8) k (slotFolio s 1 a.image a.slot)
            (updFrm (fun f => { f with act := { f.act with todo := rest } }) s)
      | none => endActivation (fun y s => respond y stSTATE [] s) s
    else s
  | [] =>
    let es := singlesOf s a.image
    if es.any (imageHeld s) then s
    else
      forAll es (reloadSingle a.image a.slot (slotFolio s 1 a.image a.slot)) s
        |> makeActive 1 a.image a.slot (if a.revert then 0 else a.trial)
        |> endActivation (fun y s => respond y stOK (toBytes 4 a.handed) s)

/-- ACTIVATE LIVE of slot k of engine image i. -/
def activateImage (x i k secs : Nat) (revert : Bool) (s : State) : State :=
  let a := { Activation.init with kind := 1, session := x, image := i, todo := bindingsOf s i, slot := k, trial := secs,
                                  revert := revert }
  nextBinding (updFrm (fun g => { g with act := a }) s)

/-- The shadow has written a nonzero ready word (R359, step 4). -/
def shadowReady (s : State) : Bool :=
  s.frm.act.kind == 1 && s.frm.act.stage == 1 && memValue s s.frm.act.ready 4 != 0

/-- The shadow is released: by RELEASE, or at once where its quire's binding controller is busy with another command
(R359). (DEDUCED, log 140) -/
def releaseShadow (s : State) : State :=
  let x := s.frm.act.shadow
  if quireFree s (x / 8) then bdCommand (x / 8) 5 (x % 8) 0 0 s else bindRelease (x / 8) (x % 8) s

/-- HANDOVER to the shadow is issued (R359, step 5). -/
def handOver (s : State) : State :=
  let a := s.frm.act
  let q := a.old / 8
  let s := bdCommand q 4 (a.old % 8) 0 (a.shadow % 8) s
  let r := fld s (Reg.BD_CMDST q) Fld.BD_CMDST_RESULT
  if r ≠ 0 then endActivation (fun y s => respondRefused y 0x16 r s) (releaseShadow s)
  else updFrm (fun f => { f with act := { f.act with stage := 2, since := 0 } }) s

/-- The HANDOVER is over. Where it took place the shadow, which is muted no longer, takes the old slot's place in the
engine plan, and the next binding follows; else it is released and ACTIVATE ends (R269, R359). (DEDUCED, log 234) -/
def handedOver (s : State) : State :=
  let a := s.frm.act
  let q := a.old / 8
  if flag s (Reg.BD_BCTL q (a.shadow % 8)) Fld.BD_BCTL_MUTE then
    endActivation (fun y s => respondRefused y 0x16 0 s) (releaseShadow s)
  else
    let s := s |> setPlan q (1 + a.shadow % 8) a.image |> setPlan q (1 + a.old % 8) 0xFF
    if a.stop then endActivation (fun _ s => s) s
    else
      s |> makeActive 1 a.image a.slot (if a.revert then 0 else a.trial)
        |> updFrm (fun f => { f with act := { f.act with handed := a.handed + 1, stage := 0 } }) |> nextBinding

/-- SHADOW_READY (R359). -/
def execShadowReady (s : State) : Out :=
  live (foremanServes s && shadowReady s && quireFree s (s.frm.act.old / 8)) s (handOver s)

/-- RDYTMO has passed without a ready word. -/
def shadowLate (s : State) : Bool :=
  s.frm.act.kind == 1 && s.frm.act.stage == 1 && !shadowReady s &&
    decide (s.frm.act.since - 1 + s.frm.act.limit ≤ s.tb.ns)

/-- The shadow is released and ACTIVATE ends with REFUSED; the old binding runs on (R359). -/
def dropShadow (s : State) : State := endActivation (fun y s => respondRefused y 0x16 0 s) (releaseShadow s)

/-- SHADOW_READY_TIMEOUT (R359). -/
def execShadowReadyTimeout (s : State) : Out := live (foremanServes s && shadowLate s) s (dropShadow s)

/-! ## The Foreman image (R361) -/

/-- ACTIVATE LIVE of slot k of the Foreman image: refused where the new image does not take the running snapshot
format; else the slot goes to the update buffer, FBUSY is set, and the update begins once no session is in EXEC.
(DESIGN CHOICE, log 142) -/
def activateForeman (x k secs : Nat) (revert : Bool) (s : State) : State :=
  let f := slotFolio s 2 0 k
  let digest := (List.range 16).flatMap fun w => toBytes 4 (rd s (Reg.SC_FMMEAS w))
  let fmt := (Config.snapFormat digest).toNat
  if fmt < fSnaplo f ∨ fSnaphi f < fmt then if revert then s else respond x stSTATE [] s
  else
    let a := { Activation.init with kind := 2, session := x, slot := k, trial := secs, revert := revert }
    let s := s |> storeBytes 128 bufferBase f |> updFrm (fun g => { g with act := a })
      |> setFlag Reg.MB_HSTAT Fld.MB_HSTAT_FBUSY true
    updateOrigin (if revert then s else respond x stOK [0, 0, 0, 0] s)

/-- The snapshot is written with its CRC-32; its layout is not given, and its bytes are free (R361). (DESIGN CHOICE,
log 142) -/
def writeSnapshot (s : State) : State :=
  let bs := (List.range (min 0x1FFFC (Config.snapLen s.fresh).toNat)).map fun i => (Config.snapByte s.fresh i).toNat
  spend (storeBytes 128 0x201C0000 (bs ++ toBytes 4 (crc32 bs)) s)

/-- The image in the update buffer, as the boot ROM reads it at its warm entry: whether it reads good and its digest
matches DIGEST (R361). -/
def bufferImage (s : State) : State × List Nat × Bool :=
  let (s, f, ok) := loadBytes 128 bufferBase (slotFolio s 2 0 s.frm.act.slot).length s
  (s, f, ok && sha3 (f.take (256 + fBodylen f)) == fDigest f)

/-- The new Foreman image has taken the snapshot: sessions stand as they were, and FBUSY clears (R322, R361). -/
def foremanUpdated (s : State) : State :=
  let a := s.frm.act
  let (s, f, _) := bufferImage (writeSnapshot s)
  s |> runForeman a.slot f |> makeActive 2 0 a.slot (if a.revert then 0 else a.trial)
    |> endActivation (fun _ s => s) |> setFlag Reg.MB_HSTAT Fld.MB_HSTAT_FBUSY false |> wdogRestart

/-- The origin of R361 has passed. -/
def updating (s : State) : Bool := s.frm.act.kind == 2 && s.frm.act.since != 0

/-- The image in the update buffer can run: neither the buffer nor Foreman memory is held, and the digest matches (R304,
R361). -/
def imageReady (s : State) : Bool :=
  !foremanHeld s && !rangeHeld s bufferBase (slotFolio s 2 0 s.frm.act.slot).length && (bufferImage s).2.2

/-- FOREMAN_UPDATE_DONE (R361). -/
def execForemanUpdateDone (s : State) : Out := live (updating s && imageReady s) s (foremanUpdated s)

/-- The boot ROM restarts the triad on the previous slot with the same snapshot; the directory holds that slot as
ACTIVE (R361). (DESIGN CHOICE, log 143) -/
def foremanReverted (s : State) : State :=
  let k := 1 - s.frm.act.slot
  let d := dirOf s 2 0
  let s := s |> setDir 2 0 { d with active := k, state := 1 }
    |> updFrm (fun f => { f with trials := tset (fun _ => 0) f.trials 128 0 })
    |> writeSnapshot |> endActivation (fun _ s => s) |> foremanEvent 5 2 0
    |> updFrm (fun f => { f with restarting := true })
  runForeman k (slotFolio s 2 0 k) s

/-- FOREMAN_UPDATE_TIMEOUT (R361); it waits while Foreman memory is held (R304). -/
def execForemanUpdateTimeout (s : State) : Out :=
  live (updating s && !foremanHeld s && decide (s.frm.act.since - 1 + 50000000 ≤ s.tb.ns)) s (foremanReverted s)

/-! ## The other targets (R362) -/

/-- The answer takes LU_CSIDX of rail r once the swap has taken place. -/
def respondSwap (x r : Nat) (s : State) : State :=
  match (sessOf s x).req with
  | some q =>
    updSess x (fun y => { y with
      ready := some { session := q.session, seq := q.seq, op := q.op, flags := 1, status := stOK, payload := [],
                      done := true, rail := r + 33 } }) s
  | none => s

/-- ACTIVATE LIVE of a coefficient set: its words go into the inactive bank, and SWAP follows. -/
def activateCoef (r k : Nat) (s : State) : State :=
  let f := slotFolio s 3 r k
  let bank := 1 - fld s (Reg.LU_CSEL (homeOf r) (slotOf r)) Fld.LU_CSEL_ACTIVE
  let v := putBits (putBits 0 Fld.LU_CSEL_SWAP 1) Fld.LU_CSEL_ZERO (fFlags f % 2)
  cselWrite r v (writeCoef (fBody f) r bank s)

/-- ACTIVATE LIVE of the stage profile in slot k: it is in force, and the stage bus writes every bound stage that an
entry matches; RATE applies at its next binding (R362). -/
def activateProfile (k : Nat) (s : State) : State :=
  let s := updFrm (fun f => { f with profile := fBody (slotFolio s 4 0 k) }) s
  forAll ((List.range 256).filter fun n => flag s (ppStat n) Fld.PP_STAT_BOUND) (fun n s => writeProfile n false s) s

/-- The next rail that is not OFF receives COMMIT once the one before has acted; a refused one ends ACTIVATE with its
RESULT, and after the last the answer goes out (R43, R45, R362). (DEDUCED, log 141, 234) -/
def commitNext (s : State) : State :=
  match s.frm.act.todo.filter (fun r => railState s r != 0) with
  | [] => endActivation (fun y s => respond y stOK [0, 0, 0, 0] s) s
  | r :: rest =>
    if rtBusy s false then s
    else
      let s := rtCommand 1 r false (updFrm (fun f => { f with act := { f.act with todo := rest } }) s)
      let res := fld s Reg.RT_CMDSTAT Fld.RT_CMDSTAT_RESULT
      if res ≠ 0 then endActivation (fun y s => respondRefused y 9 res s) s
      else if rest.isEmpty then endActivation (fun y s => respond y stOK [0, 0, 0, 0] s) s
      else s

/-- ACTIVATE LIVE of the rail table in slot k: the words and values are written and the slot is active, and COMMIT
follows for each rail not OFF. (DEDUCED, log 141) -/
def activateRails (x k secs : Nat) (revert : Bool) (s : State) : State :=
  let body := fBody (slotFolio s 5 0 k)
  let s := forAll (List.range 32) (fun r s =>
    writeSlotValues body r (writeRailWords r ((List.range 16).zip (railWords body r)) s)) s
  let a := { Activation.init with kind := 5, session := x, slot := k, todo := List.range 32, revert := revert }
  s |> writeSequence body |> makeActive 5 0 k secs |> updFrm (fun g => { g with act := a }) |> commitNext

/-- What an activation in progress does as time goes on: it goes on to its next binding or its next rail once it can,
and past a HANDOVER that is over (R264, R359, R362). (DEDUCED, log 234) -/
def activationTick (s : State) : State :=
  let a := s.frm.act
  if a.kind = 5 then commitNext s
  else if a.kind = 1 ∧ a.stage = 0 then nextBinding s
  else if a.kind = 1 ∧ a.stage = 2 ∧ (bindOf s (a.old / 8) (a.old % 8)).cmd ≠ 4 then handedOver s
  else s

/-- ACTIVATE LIVE of slot k of a target, for session x or for a revert (R358, R362). (DEDUCED, log 141) -/
def activateLive (x t i k secs : Nat) (revert : Bool) (s : State) : State :=
  let s := readFolio (slotSectors t i k).1 (slotSectors t i k).2 s
  let done := fun s => makeActive t i k secs s
  match t with
  | 1 => activateImage x i k secs revert s
  | 2 => activateForeman x k secs revert s
  | 3 =>
    let s := done (activateCoef i k s)
    if revert then s else respondSwap x i (updateIdle s)
  | 4 =>
    let s := done (activateProfile k s)
    if revert then s else respond x stOK [0, 0, 0, 0] (updateIdle s)
  | _ => activateRails x k secs revert s

/-- FOLIO_ACTIVATE's effect (R357, R358). -/
def folioActivate (x : Nat) (p : List Nat) (s : State) : State :=
  let u := s.frm.update
  let md := nthD 0 p 0
  let secs := le p 2 2
  if (md ≠ 1 ∧ md ≠ 2) ∨ nthD 0 p 1 ≠ 0 then respond x stARG [] s
  else if updateTaken s x ∨ u.phase ≠ 3 then respond x stSTATE [] s
  else if md = 2 then
    let d := dirOf s u.target u.inst
    s |> setDir u.target u.inst { d with active := u.slot, state := 3, secs := secs } |> updateIdle |> breachAll
      |> respond x stOK (toBytes 4 (if u.target = 3 then rd s (Reg.LU_CSIDX (homeOf u.inst) (slotOf u.inst)) else 0))
  else activateLive x u.target u.inst u.slot secs false s

/-- Activation of a target waits: that of a Foreman image while the update buffer is held (R304), that of a
coefficient set for a swap that is pending (R362), and that of a rail table for the rail table, which its COMMITs
need, and for an order of the supply monitor, during which the sequencing table takes no write (R43, R362, R394).
(DEDUCED, log 141) -/
def activationWaits (s : State) (t i : Nat) : Bool :=
  match t with
  | 2 => rangeHeld s bufferBase 0x80000
  | 3 => flag s (Reg.LU_CSEL (homeOf i) (slotOf i)) Fld.LU_CSEL_PEND
  | 5 => rtBusy s false || flag s Reg.SM_SEQSTAT Fld.SM_SEQSTAT_BUSY
  | _ => false

/-- FOLIO_ACTIVATE (R357). -/
def execFolioActivate (x : Fin 16) (s : State) : Out :=
  if activationWaits s s.frm.update.target s.frm.update.inst then .next s
  else lyheufSized x.val 0x0504 4 s (folioActivate x.val)

/-! ## Trials (R358) -/

/-- Some slot is in TRIAL or PENDING, the one to be confirmed included (R358). (DEDUCED, log 137) -/
def someTrial (s : State) : Bool := storedFolios.any fun y => decide (2 ≤ (dirOf s y.1 y.2).state)

/-- The lowest SVN among every ACTIVE slot and the golden image (R358). (DEDUCED, log 137) -/
def lowestSvn (s : State) : Nat :=
  let golden := match goldenVerifies s with
    | some f => fSvn f
    | none => 0
  (storedFolios.filter fun y => (dirOf s y.1 y.2).state = 1).foldl
    (fun m y => min m ((dirOf s y.1 y.2).slot (dirOf s y.1 y.2).active).svn) golden

/-- FOLIO_CONFIRM's effect (R358): a slot in TRIAL becomes ACTIVE, and any other stays as it is. (DEDUCED, log 137;
DESIGN CHOICE, log 138) -/
def folioConfirm (x : Nat) (p : List Nat) (s : State) : State :=
  let t := nthD 0 p 0
  let i := nthD 0 p 1
  let adv := nthD 0 p 2
  if instances t ≤ i ∨ 1 < adv ∨ nthD 0 p 3 ≠ 0 then respond x stARG [] s
  else if updateTaken s x ∨ (adv = 1 ∧ someTrial s) then respond x stSTATE [] s
  else
    let d := dirOf s t i
    let s := if d.state = 2 then
        s |> setDir t i { d with state := 1 }
          |> updFrm (fun f => { f with trials := tset (fun _ => 0) f.trials (64 * t + i) 0 })
      else s
    let s := if adv = 1 then
        let s := readFolio 400 128 s
        showOtp (updOtp (fun o => { o with arb := max o.arb (min 64 (lowestSvn s)) }) s)
      else s
    respond x stOK [s.otp.arb] s

/-- FOLIO_CONFIRM (R357). -/
def execFolioConfirm (x : Fin 16) (s : State) : Out := lyheufSized x.val 0x0505 4 s (folioConfirm x.val)

/-- Engine e's memories hold the active version of image i. -/
def holdsNew (s : State) (e i : Nat) : Bool := holdsImage s e i && (engOf s e).slot == (dirOf s 1 i).active

/-- A binding that runs the active version of image i is OUT, or one of its engines, or a single one that runs it, is in
LOCKOUT (R358). -/
def imageFails (s : State) (i : Nat) : Bool :=
  ((List.range 128).any fun x => decide (x % 8 < 6) && bindState s (x / 8) (x % 8) == 6 &&
      holdsNew s (eng (x / 8) (fld s (Reg.BD_BSTAT (x / 8) (x % 8)) Fld.BD_BSTAT_HOME)) i) ||
    (List.range 128).any fun e => engState s e == 3 && holdsNew s (homeEngine s e) i

/-- The trial of a target is over without confirmation, or its image has failed (R358). -/
def trialOver (s : State) (t i : Nat) : Bool :=
  let at_ := tget (fun _ => 0) s.frm.trials (64 * t + i)
  (dirOf s t i).state == 2 && s.frm.act.kind == 0 &&
    ((at_ != 0 && decide (at_ - 1 ≤ s.tb.ns)) || (t == 1 && imageFails s i))

/-- TRIAL_EXPIRY (R358): the previous slot is activated by the same method, and a U-class fault recorded. (DESIGN
CHOICE, log 143) -/
def execTrialExpiry (t : Fin 6) (i : Fin 32) (s : State) : Out :=
  live (foremanServes s && trialOver s t.val i.val && !activationWaits s t.val i.val) s
    (activateLive 0 t.val i.val (1 - (dirOf s t.val i.val).active) 0 true (foremanEvent 5 2 0 s))

/-! ## Engines in LOCKOUT (R360) -/

/-- The binding slot that the engine plan gives engine i of quire q, and the image of the engine. -/
def plannedSlot (s : State) (q i : Nat) : Option Nat :=
  (List.range 6).find? fun b => (slotEngines b).contains i && decide (planByte s q (1 + b) < 16)
def plannedImage (s : State) (q i : Nat) : Nat :=
  match plannedSlot s q i with
  | some b => planByte s q (1 + b)
  | none => planByte s q (8 + i)

/-- The engine's memories are loaded again and it restarts: by JOIN where its binding runs, by FORM of its slot
otherwise, or singly (R360). (DEDUCED, log 236) -/
def restartLocked (e : Nat) (s : State) : State :=
  let q := e / 8
  let i := e % 8
  let im := plannedImage s q i
  let k := (dirOf s 1 im).active
  let s := readFolio (slotSectors 1 im k).1 (slotSectors 1 im k).2 s
  let s := stopEngine e 2 (loadImage e im k (slotFolio s 1 im k) s)
  match plannedSlot s q i with
  | some b => if slotFormed s q b then bdCommand q 3 b i 0 s else bdCommand q 1 b 0 0 s
  | none => restartEngine e s

/-- LOCKOUT_RESTART (R360); it waits while the engine's memories are held, and for its quire's binding controller (R264,
R304). -/
def execLockoutRestart (e : Fin 128) (s : State) : Out :=
  live (foremanServes s && engState s e.val == 3 && !imageHeld s e.val && quireFree s (e.val / 8) &&
    decide (plannedImage s (e.val / 8) (e.val % 8) < 16)) s
    (restartLocked e.val s)

/-! ## ABORT of an update (R363) -/

/-- The engine image that is being made active is in TRIAL (R363). (DEDUCED, log 140) -/
def abortedTrial (s : State) : State :=
  let a := s.frm.act
  let s := makeActive 1 a.image a.slot (if a.revert then 0 else a.trial) s
  if a.revert then s else setDir 1 a.image { dirOf s 1 a.image with state := 2 } s

/-- The update is aborted: RESULT 0 stopped, 1 nothing in progress, 2 already complete. A shadow is released, and a
HANDOVER that has been accepted runs to its end; a rail table's writes stand (R337, R338, R363). (DEDUCED, log 140) -/
def abortUpdate (s : State) : State × Nat :=
  let a := s.frm.act
  let aborted := endActivation (fun y s => respond y stABORTED [] s)
  if a.kind = 2 then (s, 2)
  else if a.kind = 1 then
    if a.stop then (s, 1)
    else if a.stage = 2 then
      let s := abortedTrial s
      let s := if a.revert then s else respond a.session stABORTED [] (updateIdle s)
      (updFrm (fun f => { f with act := { f.act with stop := true, todo := [] } }) s, 0)
    else (s |> (fun s => if a.stage = 1 then releaseShadow s else s) |> abortedTrial |> aborted, 0)
  else if a.kind = 5 then (aborted s, 0)
  else if s.frm.update.phase = 0 then (s, 1)
  else (updateIdle s, 0)

end Sys2Proof.Machine
end

