-- ==== Sys2Proof/Machine/Lyheuf.lean ====
section
/-! DEFINITION. The Lyheuf commands: what the Foreman does for each opcode, and the firmware ABORT (R326, R329, R330,
R336 to R338, R354, R355, R372). A command of session x acts on the request the session has in EXEC; where the spec does
not give the layout of a request, its values are operands. -/

namespace Sys2Proof.Machine

/-! ## Device and sessions (R322, R326, R329, R330, R349) -/

/-- GET_INFO (R329): part, stepping, folio versions and IANA number. -/
def execGetInfo (x : Fin 16) (s : State) : Out :=
  let versions := storedFolios.map fun y => Int.ofNat ((dirOf s y.1 y.2).slot (dirOf s y.1 y.2).active).version
  lyheuf x.val 0x0101 s
    (respond x.val stOK (packed 0x0101 ([0x9256, 0xB1, Int.ofNat (rd s Reg.MB_MCTPCFG)] ++ versions)) s)

/-- A mask of the rails for which f holds. -/
def railMask (f : Nat → Bool) : Nat := (List.range 32).foldl (fun a r => a + b2n (f r) * 2 ^ r) 0

/-- The payload of GET_STATUS (R330). -/
def statusPayload (s : State) : List Nat :=
  [mode s, shed s] ++ toBytes 2 ((List.range 32).filter fun r => railState s r != 0).length ++
    toBytes 4 (railMask fun r => flag s (Reg.RT_STATE r) Fld.RT_STATE_PG) ++
    toBytes 4 (railMask fun r => railState s r == 4) ++ toBytes 4 (rd s Reg.FM_UCNT) ++ toBytes 4 (rd s Reg.FM_FCNT) ++
    toBytes 8 s.tb.ns ++ toBytes 5 s.tb.hrs ++ [0, 0, 0] ++ toBytes 4 s.tb.pcc

/-- GET_STATUS (R330). -/
def execGetStatus (x : Fin 16) (s : State) : Out :=
  lyheufSized x.val 0x0102 0 s fun _ s => respond x.val stOK (statusPayload s) s

/-- No rail is expected on, and the management view of every rail is OFF (R383, R385). -/
def allOff (s : State) : State :=
  forAll (List.range 32) (fun r s =>
    expectOff r (updFm (fun f => { f with railView := tset (fun _ => 0) f.railView r 0 }) s)) s

/-- The device enters DORMANT from STANDBY: cause 2 is written and recorded, the record, the lifetime counts and the
recorder are committed first (R19, R291, R382). -/
def dormantFromStandby (s : State) : State :=
  let s := s |> wr Reg.FM_SHUTCAUSE 2 |> report { src := 0x01, event := 3, cls := 0, unit := 0, detail := 2 }
  goDormant (commitNow (commitLifetime (forAll s.fm.logbuf appendRecord s)))

/-- SET_MODE's effect (R30, R330). (DEDUCED, log 113, 165) -/
def setModeTo (x : Nat) (p : List Nat) (s : State) : State :=
  let t := nthD 0 p 0
  let m := mode s
  if (t ≠ 1 ∧ t ≠ 2) ∨ ¬blank p 1 3 then respond x stARG [] s
  else if m = 2 then
    if t = 1 then respond x stOK [] (allOff s)
    else if commitFree s then dormantFromStandby s
    else if 3 ≤ shed s then dueCommit s
    else s
  else if m = 3 ∨ m = 4 ∨ m = 5 then respond x stOK [] (startShutdown t (allOff s))
  else respond x stSTATE [] s

/-- SET_MODE (R330); what DORMANT from STANDBY appends first waits for the NVM controller, and its recorder commit for a
shed level below 3 (R291, R382). -/
def execSetMode (x : Fin 16) (s : State) : Out :=
  if s.nv.op ≠ .none ∧ mode s = 2 then .next s
  else lyheufSized x.val 0x0103 4 s (setModeTo x.val)

/-- SESSION_OPEN's effect: the session is bound to the transport the request came over (R322). (DEDUCED, log 101) -/
def openSession (x : Nat) (s : State) : State :=
  if sessState s x ≠ 0 then respond x stSTATE [] s
  else
    let y := sessOf s x
    s |> setFld (Reg.MB_SESS x) Fld.MB_SESS_STATE 1 |> setFld (Reg.MB_SESS x) Fld.MB_SESS_XPORT y.via
      |> updSess x (fun y => { y with endpoint := y.viaEnd, based := false, nonce := [], frag := [] })
      |> respond x stOK []

/-- SESSION_OPEN (R322). -/
def execSessionOpen (x : Fin 16) (s : State) : Out := lyheuf x.val 0x0110 s (openSession x.val s)

/-- SESSION_CLOSE (R322): the session is FREE once its response is posted. (DEDUCED, log 101) -/
def execSessionClose (x : Fin 16) (s : State) : Out :=
  lyheuf x.val 0x0111 s (updSess x.val (fun y => { y with lapse := true }) (respond x.val stOK [] s))

/-- A nonce of 32 random bytes, valid from now (R326). -/
def giveNonce (x : Nat) (s : State) : State :=
  let n := (List.range 32).map fun i => (Config.randomByte s.fresh i).toNat
  s |> spend |> updSess x (fun y => { y with nonce := n, nonceAt := s.tb.ns, frag := [] }) |> respond x stOK n

/-- GET_NONCE (R326). -/
def execGetNonce (x : Fin 16) (s : State) : Out := lyheuf x.val 0x0112 s (giveNonce x.val s)

/-- Session x becomes OWNER, unless another session is and TAKE is 0; with TAKE = 1 that one falls to OPEN (R326). -/
def grantOwner (x take : Nat) (s : State) : State :=
  match (List.range 16).find? (fun y => y != x && sessState s y == 2) with
  | some y =>
    if take = 0 then respond x stSTATE [] s
    else
      s |> setFld (Reg.MB_SESS y) Fld.MB_SESS_STATE 1 |> setFld (Reg.MB_SESS x) Fld.MB_SESS_STATE 2 |> respond x stOK []
  | none => s |> setFld (Reg.MB_SESS x) Fld.MB_SESS_STATE 2 |> respond x stOK []

/-- The message that an owner signature covers (R326). -/
def claimMessage (nonce : List Nat) (x seq : Nat) : List Nat := nonce ++ sha3 identityKey ++ [x] ++ toBytes 2 seq

/-- PART 1 of a claim: the joined signature is verified over a nonce not older than 10 s, which it consumes (R326).
(DEDUCED, log 110; DESIGN CHOICE, log 111) -/
def joinClaim (x : Nat) (p : List Nat) (s : State) : State :=
  let y := sessOf s x
  let ok := !y.nonce.isEmpty && decide (s.tb.ns ≤ y.nonceAt + 10000000000) &&
    Config.ownerVerify s.otp.ownerDigest (claimMessage y.nonce x y.fragSeq) (y.frag ++ p.drop 4)
  let s := updSess x (fun y => { y with nonce := [], frag := [] }) s
  if ok then grantOwner x (nthD 0 p 0) s else respond x stAUTH [] (incFld Reg.MB_CNT Fld.MB_CNT_AUTHF s)

/-- CLAIM_OWNER's effect (R326, R349). -/
def claimOwner (x : Nat) (p : List Nat) (s : State) : State :=
  let take := nthD 0 p 0
  let part := nthD 0 p 1
  let n := p.length
  if n < 4 ∨ 1 < take ∨ 1 < part ∨ ¬blank p 2 2 then respond x stARG [] s
  else if !s.otp.owner then
    if part = 0 ∧ n = 4 then grantOwner x take s else respond x stARG [] s
  else if (part = 0 ∧ n ≠ 4004) ∨ (part = 1 ∧ n ≠ 631) then respond x stARG [] s
  else if part = 0 then
    let seq := (sessOf s x).req.elim 0 Request.seq
    respond x stOK [] (updSess x (fun y => { y with frag := p.drop 4, fragTake := take, fragSeq := seq }) s)
  else if (sessOf s x).frag.isEmpty then respond x stSTATE [] s
  else joinClaim x p s

/-- CLAIM_OWNER (R326). -/
def execClaimOwner (x : Fin 16) (s : State) : Out :=
  lyheuf x.val 0x0113 s (claimOwner x.val (payloadOf s x.val) s)

/-- The host policy (R329): MB_SMBCFG.PMBW and MB_HAEN. -/
def hostPolicy (pmbw : Bool) (haen : Nat) (s : State) : State :=
  settleAlert (plainWrite Reg.MB_HAEN haen (setFlag Reg.MB_SMBCFG Fld.MB_SMBCFG_PMBW pmbw s))

/-- SET_HOSTPOL (R329). -/
def execSetHostpol (x : Fin 16) (pmbw : Bool) (haen : BitVec 32) (s : State) : Out :=
  lyheuf x.val 0x0114 s (respond x.val stOK (packed 0x0114 []) (hostPolicy pmbw haen.toNat s))

/-! ## Rails (R330, R385, R395) -/

/-- The rail a request names: byte 0, with bytes 1 to 3 set to 0 (R330). -/
def railArg (p : List Nat) : Option Nat :=
  if 4 ≤ p.length ∧ nthD 0 p 0 < 32 ∧ blank p 1 3 then some (nthD 0 p 0) else none

/-- RAIL_GET (R330). -/
def execRailGet (x : Fin 16) (s : State) : Out :=
  lyheufSized x.val 0x0201 4 s fun p s =>
    match railArg p with
    | some r =>
      respond x.val stOK ((List.range 64).flatMap (fun i => toBytes 4 (rd s (Reg.RT_CFG r + 4 * i))) ++
        toBytes 4 (rd s Reg.RT_CMDSTAT)) s
    | none => respond x.val stARG [] s

/-- Rail r runs: SOFTSTART, ON or SOFTSTOP. -/
def railRuns (s : State) (r : Nat) : Bool := railState s r == 1 || railState s r == 2 || railState s r == 3

/-- COMMIT where the rail runs; the result is RESULT of a refusal (R330). -/
def commitIfRuns (r : Nat) (s : State) : State × Nat :=
  if railRuns s r then
    let s := rtCommand 1 r false s
    (s, fld s Reg.RT_CMDSTAT Fld.RT_CMDSTAT_RESULT)
  else (s, 0)

/-- The words a RAIL_SET selects: bit i of the mask is the word at entry offset 4i (R330). -/
def setWords (p : List Nat) : List (Nat × Nat) :=
  let is := ones 16 (le p 4 4)
  (List.range is.length).zip is |>.map fun y => (y.2, le p (8 + 4 * y.1) 4)

/-- RAIL_SET's effect (R330). -/
def railSet (x : Nat) (p : List Nat) (s : State) : State :=
  let mask := le p 4 4
  match railArg p with
  | some r =>
    if p.length < 8 ∨ mask = 0 ∨ 65536 ≤ mask ∨ mask &&& 0xE ≠ 0 ∨ p.length ≠ 8 + 4 * popcount 16 mask then
      respond x stARG [] s
    else
      let (s, res) := commitIfRuns r (writeRailWords r (setWords p) s)
      if res = 0 then respondRail x r s else respondRefused x 9 res s
  | none => respond x stARG [] s

/-- The Foreman can issue a rail command: no other is in progress in the rail table (R43). (DEDUCED, log 112) -/
def tableFree (s : State) : Bool := !rtBusy s false

/-- RAIL_SET (R330). -/
def execRailSet (x : Fin 16) (s : State) : Out :=
  if tableFree s then lyheuf x.val 0x0202 s (railSet x.val (payloadOf s x.val) s) else .next s

/-- The host has commanded rail r on: the management view is ON and the rail expected on (R383, R385). -/
def viewOn (r : Nat) (s : State) : State :=
  expectOn r (updFm (fun f => { f with railView := tset (fun _ => 0) f.railView r 1 }) s)

/-- A refused ENABLE of rail r while a disagreement about it is listed still updates the management view (R388).
(DEDUCED, log 238) -/
def viewRefused (r : Nat) (s : State) : State :=
  if s.fm.dlist.any (fun x => x.what.kind == 3 && x.what.unit == r) && railView s r == 0 then viewOn r s else s

/-- The host enables rail r: SEQUENCE START with its mask in STANDBY, RT_CMD otherwise; the result is the block and
RESULT of a refusal, 0 for none, which changes nothing (R331, R385, R395). (DEDUCED, log 112, 238) -/
def hostEnable (r : Nat) (s : State) : State × Nat × Nat :=
  if mode s = 2 then
    let t := seqStart (wr Reg.SM_SEQMASK (2 ^ r) s)
    let res := fld t Reg.SM_SEQSTAT Fld.SM_SEQSTAT_RESULT
    let rt := fld t Reg.RT_CMDSTAT Fld.RT_CMDSTAT_RESULT
    if res ≠ 0 then (wr Reg.SM_SEQMASK (rd s Reg.SM_SEQMASK) t, 3, res)
    else if mode t = 6 then (t, 9, rt)
    else (viewOn r t, 0, 0)
  else
    let t := rtCommand 2 r false s
    let rt := fld t Reg.RT_CMDSTAT Fld.RT_CMDSTAT_RESULT
    if rt ≠ 0 then (viewRefused r t, 9, rt) else (viewOn r t, 0, 0)

/-- The host disables rail r (R385). -/
def hostDisable (r : Nat) (s : State) : State × Nat × Nat :=
  let t := rtCommand 3 r false s
  let rt := fld t Reg.RT_CMDSTAT Fld.RT_CMDSTAT_RESULT
  if rt ≠ 0 then (t, 9, rt)
  else (expectOff r (updFm (fun f => { f with railView := tset (fun _ => 0) f.railView r 0 }) t), 0, 0)

/-- The answer of a rail command that f carries out for the rail its request names. -/
def railAnswer (x : Nat) (p : List Nat) (f : Nat → State → State × Nat × Nat) (s : State) : State :=
  match railArg p with
  | some r =>
    let (s, block, res) := f r s
    if res = 0 then respondRail x r s else respondRefused x block res s
  | none => respond x stARG [] s

/-- RAIL_ENABLE (R330). -/
def execRailEnable (x : Fin 16) (s : State) : Out :=
  if tableFree s then lyheufSized x.val 0x0203 4 s (fun p s => railAnswer x.val p hostEnable s) else .next s

/-- RAIL_DISABLE (R330). -/
def execRailDisable (x : Fin 16) (s : State) : Out :=
  if tableFree s then lyheufSized x.val 0x0204 4 s (fun p s => railAnswer x.val p hostDisable s) else .next s

/-- RAIL_CLEAR's effect (R44, R329). -/
def railClear (x : Nat) (p : List Nat) (s : State) : State :=
  match railArg p with
  | some r =>
    let s := rtCommand 4 r false s
    let res := fld s Reg.RT_CMDSTAT Fld.RT_CMDSTAT_RESULT
    if res = 0 then respond x stOK (packed 0x0205 [Int.ofNat (rd s Reg.RT_CMDSTAT)]) s else respondRefused x 9 res s
  | none => respond x stARG [] s

/-- RAIL_CLEAR (R329). -/
def execRailClear (x : Fin 16) (s : State) : Out :=
  if tableFree s then lyheufSized x.val 0x0205 4 s (railClear x.val) else .next s

/-- RAIL_POLICY's effect: the counts with the semantics of RAIL_SET, the trust bounds, or the inactive coefficient bank
and its swap (R55, R90, R329). -/
def railPolicy (x r : Nat) (y : Policy) (s : State) : State :=
  match y with
  | .counts floor ceil pinEn pin =>
    let a := Reg.RT_NPH r
    let s := s |> setFld a Fld.RT_NPH_FLOOR floor.toNat |> setFld a Fld.RT_NPH_CEIL ceil.toNat
      |> setFlag a Fld.RT_NPH_PIN_EN pinEn |> setFld a Fld.RT_NPH_PIN pin.toNat
    let (s, res) := commitIfRuns r s
    if res = 0 then respond x stOK (packed 0x0206 [Int.ofNat (rd s Reg.RT_CMDSTAT)]) s else respondRefused x 9 res s
  | .trust t tmin tmax =>
    let a := Reg.LU_IM_PART (homeOf r) (slotOf r) t.val
    let v := putBits (putBits (rd s a) Fld.LU_IM_PART_TMIN tmin.toNat) Fld.LU_IM_PART_TMAX tmax.toNat
    respond x stOK (packed 0x0206 []) (partWrite r t.val v s)
  | .coef words zero =>
    if words.length ≠ 11 then respond x stARG [] s
    else
      let a := Reg.LU_CSEL (homeOf r) (slotOf r)
      let bank := 1 - fld s a Fld.LU_CSEL_ACTIVE
      let s := forAll ((List.range 11).zip words) (fun w s =>
        wr (Reg.LU_COEF (homeOf r) (slotOf r) bank w.1) w.2.toNat s) s
      let s := cselWrite r (putBits (putBits 0 Fld.LU_CSEL_SWAP 1) Fld.LU_CSEL_ZERO (b2n zero)) s
      respond x stOK (packed 0x0206 []) s

/-- RAIL_POLICY (R329). It waits for the rail table, and for a swap that is pending. -/
def execRailPolicy (x : Fin 16) (r : Fin 32) (y : Policy) (s : State) : Out :=
  if tableFree s && !flag s (Reg.LU_CSEL (homeOf r.val) (slotOf r.val)) Fld.LU_CSEL_PEND then
    lyheuf x.val 0x0206 s (railPolicy x.val r.val y s)
  else .next s

/-! ## Phases, engines and bindings (R329) -/

/-- PHASE_GET (R329): PP_ and LU_ state of a phase. -/
def execPhaseGet (x : Fin 16) (n : Fin 256) (s : State) : Out :=
  let q := quireOf n.val
  let p := localOf n.val
  let values := (List.range 16).map (fun i => Int.ofNat (rd s (Reg.PP_CFG q p + 4 * i))) ++
    [Int.ofNat (rd s (Reg.LU_PH_STAT q p))]
  lyheuf x.val 0x0301 s (respond x.val stOK (packed 0x0301 values) s)

/-- PHASE_CMD's effect: OP 1 to 4 of PP_CMD (R171). -/
def phaseCmd (x op n : Nat) (s : State) : State :=
  let s := match op with
    | 1 => ppIsolate n s
    | 2 => ppUnisolate n s
    | 3 => ppResync n s
    | _ => ppRebind n s
  let res := fld s (Reg.PP_CMDST (quireOf n)) Fld.PP_CMDST_RESULT
  if res = 0 then respond x stOK (packed 0x0302 []) s else respondRefused x 0x14 res s

/-- PHASE_CMD (R329): op 0 ISOLATE, 1 UNISOLATE, 2 RESYNC, 3 REBIND. -/
def execPhaseCmd (x : Fin 16) (op : Fin 4) (n : Fin 256) (s : State) : Out :=
  lyheuf x.val 0x0302 s (phaseCmd x.val (op.val + 1) n.val s)

/-- ENGINE_GET (R329): BD_ESTAT and the binding state. -/
def execEngineGet (x : Fin 16) (e : Fin 128) (s : State) : Out :=
  let q := e.val / 8
  let values := Int.ofNat (rd s (Reg.BD_ESTAT q (e.val % 8))) ::
    (List.range 6).map fun b => Int.ofNat (rd s (Reg.BD_BSTAT q b))
  lyheuf x.val 0x0401 s (respond x.val stOK (packed 0x0401 values) s)

/-- BINDING_CMD's effect: BD_CMD of a quire (R264). -/
def bindingCmd (x q op b i arg : Nat) (s : State) : State :=
  let s := bdCommand q op b i arg s
  let res := fld s (Reg.BD_CMDST q) Fld.BD_CMDST_RESULT
  if res = 0 then respond x stOK (packed 0x0402 [Int.ofNat (rd s (Reg.BD_CMDST q))]) s else respondRefused x 0x16 res s

/-- BINDING_CMD (R329). -/
def execBindingCmd (x : Fin 16) (q : Fin 16) (op b i arg : Fin 8) (s : State) : Out :=
  lyheuf x.val 0x0402 s (bindingCmd x.val q.val op.val b.val i.val arg.val s)

/-! ## Telemetry (R336) -/

/-- The values of selected quantities: whether each is valid, and its value, 0 where it is not (R286). -/
def quantities (s : State) (qs : List (BitVec 8 × BitVec 8)) (tj : List (BitVec 32)) : List Int :=
  qs.flatMap fun y =>
    match sourceValue s y.1.toNat y.2.toNat (nthD 0 tj y.2.toNat).toInt with
    | some v => [1, v]
    | none => [0, 0]

/-- The indices of a source of R286. -/
def sourceIndices (src : Nat) : Nat :=
  match src with
  | 0 => 256
  | 1 => 32
  | 2 => 32
  | 3 => 32
  | 4 => 256
  | 5 => 256
  | 6 => 16
  | 7 => 16
  | 8 => 3
  | _ => 0

/-- Every quantity has a source code and an index of R286 (R325, R336). -/
def quantitiesOk (qs : List (BitVec 8 × BitVec 8)) : Bool :=
  qs.all fun y => decide (y.2.toNat < sourceIndices y.1.toNat)

/-- TELEM_READ (R329): one snapshot. -/
def execTelemRead (x : Fin 16) (qs : List (BitVec 8 × BitVec 8)) (tj : List (BitVec 32)) (s : State) : Out :=
  lyheuf x.val 0x0601 s
    (if quantitiesOk qs then respond x.val stOK (packed 0x0601 (quantities s qs tj)) s else respond x.val stARG [] s)

/-- TELEM_STREAM's effect: at most 64 quantities and a period that is a multiple of 16 us; no quantities stop it
(R336). (DEDUCED, log 114) -/
def telemStream (x : Nat) (qs : List (BitVec 8 × BitVec 8)) (us : Nat) (s : State) : State :=
  if 64 < qs.length ∨ us % 16 ≠ 0 ∨ (us = 0 ∧ qs ≠ []) ∨ quantitiesOk qs = false then respond x stARG [] s
  else
    let set := qs.map fun y => (y.1.toNat, y.2.toNat)
    s |> updHost (fun h => { h with stream := set, streamNs := if set.isEmpty then 0 else us * 1000, streamOwner := x })
      |> respond x stOK (packed 0x0602 [])

/-- TELEM_STREAM (R336). -/
def execTelemStream (x : Fin 16) (qs : List (BitVec 8 × BitVec 8)) (us : BitVec 32) (s : State) : Out :=
  lyheuf x.val 0x0602 s (telemStream x.val qs us.toNat s)

/-- One record goes into the ring: the oldest bytes give way (R336). -/
def putRecord (y : Nat × Nat) (v : Int) (s : State) : State :=
  let h := s.host
  let wp := fld s Reg.MB_STRWP Fld.MB_STRWP_WP
  let bs := toBytes 4 (s.tb.ns % 2 ^ 32) ++ [y.1 % 256, y.2 % 256] ++ toBytes 2 h.streamSeq ++ toBytes 4 (pat 32 v) ++
    [0, 0, 0, 0]
  let ring := ((List.range 16).zip bs).foldl
    (fun t b => tset (fun _ => 0#8) t ((wp + b.1) % 65536) (BitVec.ofNat 8 b.2)) h.ring
  s |> updHost (fun h => { h with ring := ring, streamSeq := (h.streamSeq + 1) % 65536,
                                  unread := min 65536 (h.unread + 16) })
    |> setFld Reg.MB_STRWP Fld.MB_STRWP_WP ((wp + 16) % 65536)

/-- The stream is due: a multiple of its period, below shed level 1 (R335, R336). (DEDUCED, log 114) -/
def streamDue (s : State) : Bool :=
  s.host.streamNs != 0 && s.tb.ns % s.host.streamNs == 0 && s.host.streamAt != s.tb.ns + 1 && shed s == 0

/-- The records of one period; a quantity with no valid value is written as 0. (DEDUCED, log 114) -/
def streamRecords (tj : List (BitVec 32)) (s : State) : State :=
  forAll s.host.stream (fun y s =>
    putRecord y ((sourceValue s y.1 y.2 (nthD 0 tj y.2).toInt).getD 0) s)
    (updHost (fun h => { h with streamAt := s.tb.ns + 1 }) s)

/-- TELEM_STREAM_RECORD (R336); tj gives the junction temperature of each quire, in 1/16 C, for source 7. -/
def execTelemStreamRecord (tj : List (BitVec 32)) (s : State) : Out :=
  live (foremanServes s && streamDue s) s (streamRecords tj s)

/-! ## The recorder and the fault log (R329, R372) -/

/-- REC_READ's effect: n bytes of recorder memory from offset off on, at most 4,000 (R329). -/
def recRead (x off n : Nat) (s : State) : State :=
  if 4000 < n ∨ 0x40000 < off + n then respond x stARG [] s
  else
    let (s, bs, _) := loadBytes 128 (0x50000000 + off) n s
    respond x stOK bs s

/-- REC_READ (R329); it waits while the recorder's memory is held (R304). -/
def execRecRead (x : Fin 16) (off n : BitVec 18) (s : State) : Out :=
  if rangeHeld s (0x50000000 + off.toNat) n.toNat then .next s
  else lyheuf x.val 0x0701 s (recRead x.val off.toNat n.toNat s)

/-- REC_CMD (R295, R329). -/
def execRecCmd (x : Fin 16) (op : Fin 8) (s : State) : Out :=
  lyheuf x.val 0x0702 s (respond x.val stOK (packed 0x0702 []) (erCommand op.val s))

/-- FAULT_LOG's effect: the newest logged SEQ, and the records from a SEQ on, in the log's order (R372). -/
def faultLog (x : Nat) (p : List Nat) (s : State) : State :=
  if 126 < le p 4 4 then respond x stARG [] s
  else
    let rs := ((logEntries s).filter fun y => decide (le p 0 4 ≤ y.seq)).take (le p 4 4)
    let newest := match (logEntries s).reverse with
      | y :: _ => y.seq
      | [] => 0
    respond x stOK (toBytes 4 newest ++ toBytes 4 rs.length ++ rs.flatMap recordBytes) (nvTouch 128 32 4096 s)

/-- FAULT_LOG (R372). -/
def execFaultLog (x : Fin 16) (s : State) : Out := lyheufSized x.val 0x0801 8 s (faultLog x.val)

/-- FAULT_CLEAR's effect: the log is erased, the capture clears and FPEND is acknowledged (R372). -/
def faultClear (s : State) : State :=
  let s := forAll ((List.range 32).filter fun i => !nvErased s (32 + i) 0) (fun i s => clearSector (32 + i) s) s
  s |> updFm (fun f => { f with log := [], logPos := 0 }) |> fecClear |> setFlag Reg.FM_STAT Fld.FM_STAT_FPEND false

/-- FAULT_CLEAR (R372). -/
def execFaultClear (x : Fin 16) (s : State) : Out :=
  if nvClosed s then .next s else lyheuf x.val 0x0802 s (respond x.val stOK (packed 0x0802 []) (faultClear s))

/-! ## Attestation (R354, R355) -/

/-- A part of a blob in the layout of R354, where its first byte lies in the blob. -/
def blobPart (blob : List Nat) (part : Nat) : Option (List Nat) :=
  if blob.length ≤ 4000 * part then none
  else some (toBytes 4 blob.length ++ [part, 0, 0, 0] ++ cut blob (4000 * part) 4000)

/-- The answer that carries a part of a blob. -/
def respondPart (x : Nat) (blob : List Nat) (part : Nat) (s : State) : State :=
  match blobPart blob part with
  | some bs => respond x stOK bs s
  | none => respond x stARG [] s

/-- The identity certificate, as its DER length gives it, in sectors 1,504 to 1,511 (R343, R354). -/
def certificate (s : State) : List Nat :=
  let h := (nvBytes s 1504 4).1
  if nthD 0 h 0 = 0x30 ∧ nthD 0 h 1 = 0x82 then
    (nvBytes s 1504 (min 32768 (4 + nthD 0 h 2 * 256 + nthD 0 h 3))).1
  else []

/-- GET_CERT (R354). -/
def execGetCert (x : Fin 16) (s : State) : Out :=
  lyheufSized x.val 0x0902 4 s fun p s =>
    if blank p 2 2 then respondPart x.val (identityKey ++ certificate s) (le p 0 2) (nvTouch 128 1504 1024 s)
      else respond x.val stARG [] s

/-- An entry of the report (R355). -/
def reportEntry (t i slot st : Nat) (r : SlotRec) : List Nat :=
  [t, i, slot, st] ++ toBytes 4 r.version ++ toBytes 2 r.svn ++ [r.keyslot, 0, 0, 0, 0, 0] ++ padTo 0 64 r.digest

/-- The entries of the report: every slot in use, and the golden image. -/
def reportEntries (s : State) : List (List Nat) :=
  let (f, _, _) := storedFolio s 400 128
  (storedFolios.flatMap fun y =>
    let d := dirOf s y.1 y.2
    ((List.range 2).filter fun k => (d.slot k).valid).map fun k => reportEntry y.1 y.2 k d.state (d.slot k)) ++
    [reportEntry 2 0 2 1 (recOf f)]

/-- The measurement report (R355). -/
def reportBytes (nonce : List Nat) (s : State) : List Nat :=
  let es := reportEntries s
  toBytes 4 0x5441544B ++ toBytes 2 1 ++ toBytes 2 es.length ++ nonce ++ toBytes 8 s.tb.ns ++ toBytes 4 s.tb.pcc ++
    toBytes 5 s.tb.hrs ++ [0, 0, 0, mode s, s.otp.arb, s.otp.rev, b2n s.otp.owner] ++
    padTo 0 64 (if s.otp.owner then s.otp.ownerDigest else []) ++ es.flatten

/-- ATTEST's effect (R355). -/
def attest (x : Nat) (p : List Nat) (s : State) : State :=
  let part := nthD 0 p 32
  if ¬blank p 33 3 then respond x stARG [] s
  else if part = 0 then
    let s := readFolio 400 128 s
    let r := reportBytes (p.take 32) s
    let blob := r ++ identitySign s.fresh r
    respondPart x blob 0 (updFrm (fun f => { f with report := blob, reportAt := s.tb.ns }) (spend s))
  else if s.frm.report.isEmpty ∨ s.frm.reportAt + 60000000000 < s.tb.ns then respond x stSTATE [] s
  else respondPart x s.frm.report part s

/-- ATTEST (R355). -/
def execAttest (x : Fin 16) (s : State) : Out := lyheufSized x.val 0x0901 36 s (attest x.val)

/-! ## Abort (R337, R338) -/

/-- Session t's pending request: its SEQ, in the window or in EXEC (R338). -/
def pendingSeq (s : State) (t : Nat) : Option Nat :=
  if sessPhase s t = 1 then some (memValue s (reqWindow t + 2) 2)
  else if sessPhase s t = 2 then (sessOf s t).req.map Request.seq
  else none

/-- The opcode of session t's pending request. -/
def pendingOp (s : State) (t : Nat) : Nat :=
  if sessPhase s t = 1 then memValue s (reqWindow t + 4) 2 else (sessOf s t).req.elim 0 Request.op

/-- The SESSION of session t's pending request. -/
def pendingSession (s : State) (t : Nat) : Nat :=
  if sessPhase s t = 1 then memValue s (reqWindow t + 1) 1 else (sessOf s t).req.elim t Request.session

/-- Session t's pending command is answered with ABORTED, and its SEQ completes; hw marks a response of the hardware
sequencer, after which the Foreman's own is still to come if it has the request; an activation the command had in
progress stops (R338, R340, R363). (DEDUCED, log 105) -/
def abortPending (t : Nat) (hw : Bool) (s : State) : State :=
  match pendingSeq s t with
  | some seq =>
    let s := if (s.frm.act.kind = 1 ∨ s.frm.act.kind = 5) ∧ s.frm.act.session = t ∧ s.frm.act.revert = false then
        (abortUpdate s).1 else s
    let op := pendingOp s t
    let late := hw && sessPhase s t == 2
    let who := pendingSession s t
    let r : Response := { session := who, seq := seq, op := op, flags := if hw then 3 else 1, status := stABORTED,
                          payload := [], done := true, rail := 0 }
    let s := clrWord Reg.MB_FREQ (2 ^ t) s
    let bs := message who seq op r.flags stABORTED []
    let s := deliver (if hw then 137 else 128) t bs s
    let s := setFld (Reg.MB_SESS t) Fld.MB_SESS_SEQ seq s
    let opened := op != 0x0110 && sessState s t != 0
    let s := updSess t (fun y => { y with
      ready := none, req := none, lastOp := op, stored := bs, based := y.based || opened, late := late }) s
    if (sessOf s t).lapse then freeSession t s else s
  | none => s

/-- The abort of session t's command, which names its SEQ by f: RESULT and the SEQ stopped. A command whose response
stands is complete, but for one that an abort has stopped: there is nothing left of it (R337, R338, R341). -/
def abortSession (t : Nat) (hw : Bool) (f : Nat → Bool) (s : State) : State × Nat × Nat :=
  match pendingSeq s t with
  | some seq => if f seq then (abortPending t hw s, 0, seq) else (s, 1, 0)
  | none =>
    let last := fld s (Reg.MB_SESS t) Fld.MB_SESS_SEQ
    let y := sessOf s t
    if y.stored ≠ [] ∧ f last = true ∧ le y.stored 0x0A 2 ≠ stABORTED then (s, 2, 0) else (s, 1, 0)

/-- The procedure in progress on the stage bus of quire q ends with a STOP; a transfer cut short shows RESULT 2
(R337). (DESIGN CHOICE, log 194) -/
def abortBus (q : Nat) (s : State) : State × Nat :=
  if flag s (Reg.SB_STAT q) Fld.SB_STAT_BUSY then
    let a := Reg.SB_XSTAT q
    let s := if (sbusOf s q).xfer = 0 then s
      else s |> setFlag a Fld.SB_XSTAT_BUSY false |> setFld a Fld.SB_XSTAT_RESULT 2
    let cut := (sbusOf s q).todo
    let s := showSbus q (updSbus q (fun x => { x with xfer := 0, todo := [] }) s)
    (forAll cut (fun j => ownCut (16 * q + j.a) j.what) s, 0)
  else (s, 1)

/-- The abort of a rail's supervision: EIL of its slot clears (R337). -/
def abortSupervision (r : Nat) (s : State) : State × Nat :=
  if flag s (Reg.LU_RCTRL (homeOf r) (slotOf r)) Fld.LU_RCTRL_EIL then (endEil r s, 0) else (s, 1)

/-- The index of an abort target is in range (R337). -/
def abortIndexOk (t i : Nat) : Bool :=
  match t with
  | 1 => decide (i < 16)
  | 2 => decide (i < 32)
  | 3 => decide (i < 128)
  | 4 => decide (i < 128) && decide (i % 8 < 6)
  | 5 => decide (i < 16)
  | 6 => i == 0
  | 7 => i == 0
  | _ => false

/-- The abort of targets 1 to 6, whose session command is named by f: RESULT and the SEQ stopped (R337). -/
def abortTarget (t i : Nat) (hw : Bool) (f : Nat → Bool) (s : State) : State × Nat × Nat :=
  let plain := fun (y : State × Nat) => (y.1, y.2, 0)
  match t with
  | 1 => abortSession i hw f s
  | 2 => plain (abortSupervision i s)
  | 3 => plain (abortEngine i s)
  | 4 => plain (abortBinding (i / 8) (i % 8) s)
  | 5 => plain (abortBus i s)
  | _ => plain (abortUpdate s)

/-- ABORT's effect (R329, R330, R337). -/
def firmwareAbort (x : Nat) (p : List Nat) (s : State) : State :=
  let t := nthD 0 p 0
  let i := nthD 0 p 1
  if sessState s x ≠ 2 ∧ ¬(t = 1 ∧ i = x) then respond x stROLE [] s
  else if p.length ≠ 4 ∨ t = 7 ∨ abortIndexOk t i = false then respond x stARG [] s
  else
    let (s, res, seq) := abortTarget t i false (fun q => q == le p 2 2) s
    respond x stOK ([res, 0, 0, 0] ++ toBytes 2 seq) s

/-- ABORT (R337); that of a session waits while its windows are held (R304). -/
def execAbort (x : Fin 16) (s : State) : Out :=
  let p := payloadOf s x.val
  if nthD 0 p 0 = 1 ∧ nthD 0 p 1 < 16 ∧ windowsHeld s (nthD 0 p 1) = true then .next s
  else lyheuf x.val 0x0F01 s (firmwareAbort x.val p s)

end Sys2Proof.Machine
end

