-- ==== Sys2Proof/Machine/HwAbort.lean ====
section
/-! DEFINITION. The hardware abort path: the writes of MB_HWABORT that start an abort of each target, and the
sequencer's completion of it (R337, R338, R340). -/

namespace Sys2Proof.Machine

/-- What the hardware abort does to its target: the state, and the RESULT that completion shows (R337, R342). -/
def hwAbortEffect (t i arg : Nat) (s : State) : State × Nat :=
  if abortIndexOk t i = false then (s, 3)
  else if t = 7 then (reloadForeman (restartForeman s), 0)
  else
    let (s, r, _) := abortTarget t i true (fun q => q % 256 == arg) s
    (s, r)

/-- A write of MB_HWABORT with the right KEY: ignored while an abort is in progress, else taken (R340). (DESIGN
CHOICE, log 106) -/
def hwAbort (t i arg : Nat) (s : State) : State :=
  let a := Reg.MB_HWASTAT
  if flag s a Fld.MB_HWASTAT_BUSY then raiseFlag a Fld.MB_HWASTAT_REF s
  else
    let (s, r) := hwAbortEffect t i arg (if t = 7 ∧ i = 0 then breachAll s else s)
    s |> setFlag a Fld.MB_HWASTAT_BUSY true |> setFld a Fld.MB_HWASTAT_TARGET t
      |> updHost (fun h => { h with abort := r, abortTarget := t })

/-- HWABORT_SESSION (R338); it waits while the session's windows are held (R304). -/
def execHwabortSession (v : Via) (i arg : BitVec 8) (s : State) : Out :=
  act (viaUp s v && !(decide (i.toNat < 16) && windowsHeld s i.toNat)) s (hwAbort 1 i.toNat arg.toNat s)
/-- HWABORT_SUPERVISION (R337). -/
def execHwabortSupervision (v : Via) (i arg : BitVec 8) (s : State) : Out :=
  act (viaUp s v) s (hwAbort 2 i.toNat arg.toNat s)
/-- HWABORT_ENGINE (R337). -/
def execHwabortEngine (v : Via) (i arg : BitVec 8) (s : State) : Out :=
  act (viaUp s v) s (hwAbort 3 i.toNat arg.toNat s)
/-- HWABORT_BINDING (R337). -/
def execHwabortBinding (v : Via) (i arg : BitVec 8) (s : State) : Out :=
  act (viaUp s v) s (hwAbort 4 i.toNat arg.toNat s)
/-- HWABORT_STAGE_BUS (R337). -/
def execHwabortStageBus (v : Via) (i arg : BitVec 8) (s : State) : Out :=
  act (viaUp s v) s (hwAbort 5 i.toNat arg.toNat s)
/-- HWABORT_FOLIO (R337, R363). -/
def execHwabortFolio (v : Via) (i arg : BitVec 8) (s : State) : Out :=
  act (viaUp s v) s (hwAbort 6 i.toNat arg.toNat s)
/-- HWABORT_FOREMAN (R337). -/
def execHwabortForeman (v : Via) (i arg : BitVec 8) (s : State) : Out :=
  act (viaUp s v) s (hwAbort 7 i.toNat arg.toNat s)

/-- The sequencer completes an abort: DONE and RESULT, the alert, and a U-class fault that names the target (R340).
(DESIGN CHOICE, log 106) -/
def hwAbortDone (s : State) : State :=
  let a := Reg.MB_HWASTAT
  s |> setFlag a Fld.MB_HWASTAT_BUSY false |> raiseFlag a Fld.MB_HWASTAT_DONE
    |> setFld a Fld.MB_HWASTAT_RESULT s.host.abort |> settleAlert
    |> report { src := 0x05, event := 1, cls := 2, unit := s.host.abortTarget }

/-- HW_ABORT_COMPLETE (R340). -/
def execHwAbortComplete (s : State) : Out :=
  live (flag s Reg.MB_HWASTAT Fld.MB_HWASTAT_BUSY) s (hwAbortDone s)

end Sys2Proof.Machine
end

