-- ==== Sys2Proof/Machine/Security.lean ====
section
/-! DEFINITION. The security block: fuse commands, jobs and the lock (R348, R351, R365). -/

namespace Sys2Proof.Machine

/-! ## Fuses (R348, R365) -/

/-- The RESULT of SC_CMD's checks, in their order (R365). -/
def scCheck (s : State) (op arg : Nat) : Nat :=
  if op = 0 ∨ 3 < op then 1
  else if flag s Reg.SC_CMDST Fld.SC_CMDST_BUSY then 2
  else if (op = 1 ∧ (arg ≤ s.otp.arb ∨ 64 < arg)) ∨ (op = 2 ∧ 3 < arg) then 3
  else if (op = 2 ∧ bitAt s.otp.rev arg) ∨ (op = 3 ∧ s.otp.owner) then 4
  else 0

/-- A write of SC_CMD: refused, or the fuses are being blown (R365). -/
def scCommand (op arg : Nat) (s : State) : State :=
  let r := scCheck s op arg
  let s := setFld Reg.SC_CMDST Fld.SC_CMDST_RESULT r s
  if r ≠ 0 then s
  else s |> setFlag Reg.SC_CMDST Fld.SC_CMDST_BUSY true |> updOtp (fun o => { o with op := op, arg := arg })

/-- SC_ARBSET (R365). -/
def execScArbset (m : Master) (arg : BitVec 8) (s : State) : Out :=
  regWriteBy m Reg.SC_CMD s (scCommand 1 (arg.toNat % 128) s)
/-- SC_REVOKE (R365). -/
def execScRevoke (m : Master) (arg : BitVec 8) (s : State) : Out :=
  regWriteBy m Reg.SC_CMD s (scCommand 2 (arg.toNat % 128) s)
/-- SC_OWNERPROG (R365). -/
def execScOwnerprog (m : Master) (s : State) : Out := regWriteBy m Reg.SC_CMD s (scCommand 3 0 s)

/-- The fuses that a command blows: none is ever restored, whatever else has blown meanwhile (R348). -/
def blowFuses (s : State) : State :=
  match s.otp.op with
  | 1 => updOtp (fun o => { o with arb := max o.arb o.arg }) s
  | 2 => updOtp (fun o => { o with rev := o.rev ||| 2 ^ o.arg }) s
  | _ => updOtp (fun o => if o.owner then o else { o with owner := true, ownerDigest := scData s }) s

/-- A blow that failed: some of the anti-rollback fuses may have blown, and how many is free (R348). (DEDUCED, log
145) -/
def failFuses (s : State) : State :=
  if s.otp.op = 1 ∧ s.otp.arb < s.otp.arg then
    let w := (Config.freeWord s.fresh).toNat
    updOtp (fun o => { o with arb := o.arb + w % (o.arg - o.arb) }) (spend s)
  else s

/-- A fuse command completes (R365). -/
def fuseDone (ok : Bool) (s : State) : State :=
  (if ok then blowFuses s else failFuses s) |> updOtp (fun o => { o with op := 0, arg := 0 }) |> showOtp
    |> setFlag Reg.SC_CMDST Fld.SC_CMDST_BUSY false |> setFld Reg.SC_CMDST Fld.SC_CMDST_RESULT (if ok then 0 else 5)

/-- SC_FUSE_DONE (R365). -/
def execScFuseDone (ok : Bool) (s : State) : Out := live (s.otp.op != 0) s (fuseDone ok s)

/-! ## Jobs (R351, R365) -/

/-- Bytes that a job reads; an address with no SRAM behind it is an access error of the job (R38, R375). (DEDUCED, log
144) -/
def jobRead (a n : Nat) (s : State) : State × List Nat × Bool :=
  match (List.range (ceilDiv n 8 + 1)).find? (fun i => n != 0 && (bankOf (min (a + 8 * i) (a + n - 1))).isNone) with
  | some i => (accessError 136 (a + 8 * i) 0 3 1 s, [], false)
  | none => loadBytes 136 a n s

/-- The bytes a job reads of its message, which is at most 1 MiB long (R365). (DEDUCED, log 144) -/
def jobMessage (s : State) : State × List Nat × Bool :=
  let n := rd s Reg.SC_JLEN
  if 0x100000 < n then (s, [], false) else jobRead (rd s Reg.SC_JSRC) n s

/-- A job is in progress that will write bs at dst and answer r. -/
def jobStart (op dst : Nat) (bs : List Nat) (r : Nat) (s : State) : State :=
  s |> setFlag Reg.SC_JOB Fld.SC_JOB_BUSY true
    |> updFrm (fun f => { f with job := op, jobDst := dst, jobOut := bs, jobResult := r })

/-- SHA3-512 of the message, for JDST. -/
def jobSha3 (s : State) : State :=
  let (s, m, ok) := jobMessage s
  jobStart 1 (rd s Reg.SC_JDST) (if ok then sha3 m else []) (if ok then 0 else 2) s

/-- Verification of the signature at JSIG under the key at JKEY. -/
def jobVerify (s : State) : State :=
  let (s, m, ok) := jobMessage s
  let (s, k, okk) := jobRead (rd s Reg.SC_JKEY) 2592 s
  let (s, g, okg) := jobRead (rd s Reg.SC_JSIG) 4627 s
  jobStart 2 0 [] (if !(ok && okk && okg) then 2 else if Config.mldsaVerify k m g then 0 else 1) s

/-- A signature by the identity key, for JSIG. -/
def jobSign (s : State) : State :=
  let (s, m, ok) := jobMessage s
  jobStart 3 (rd s Reg.SC_JSIG) (if ok then identitySign s.fresh m else []) (if ok then 0 else 2) (spend s)

/-- A job reads what it works on. -/
def jobRun (op : Nat) (s : State) : State :=
  match op with
  | 1 => jobSha3 s
  | 2 => jobVerify s
  | 3 => jobSign s
  | _ => s

/-- Memory that a job reads is held (R304, R306). -/
def jobHeld (s : State) (op : Nat) : Bool :=
  rangeHeld s (rd s Reg.SC_JSRC) (min 0x100000 (rd s Reg.SC_JLEN)) ||
    (op == 2 && (rangeHeld s (rd s Reg.SC_JKEY) 2592 || rangeHeld s (rd s Reg.SC_JSIG) 4627))

/-- A write of SC_JOB: refused while a job runs, and of no effect with another OP; a job whose memory is held waits
(R304, R365). (DEDUCED, log 144) -/
def scJob (op : Nat) (s : State) : State :=
  if flag s Reg.SC_JOB Fld.SC_JOB_BUSY then setFld Reg.SC_JOB Fld.SC_JOB_RESULT 3 s
  else if (op == 1 || op == 2 || op == 3) && jobHeld s op then
    updFrm (fun f => { f with job := op, jobWait := true }) (setFlag Reg.SC_JOB Fld.SC_JOB_BUSY true s)
  else jobRun op s

/-- A job that waited for memory goes on (R304). (DEDUCED, log 93) -/
def scResume (s : State) : State :=
  if s.frm.jobWait ∧ jobHeld s s.frm.job = false then jobRun s.frm.job (updFrm (fun f => { f with jobWait := false }) s)
  else s

/-- SC_SHA3 (R351). -/
def execScSha3 (m : Master) (s : State) : Out := regWriteBy m Reg.SC_JOB s (scJob 1 s)
/-- SC_VERIFY (R351). -/
def execScVerify (m : Master) (s : State) : Out := regWriteBy m Reg.SC_JOB s (scJob 2 s)
/-- SC_SIGN (R351). -/
def execScSign (m : Master) (s : State) : Out := regWriteBy m Reg.SC_JOB s (scJob 3 s)

/-- What a job has made goes to its place, where SRAM takes it; an address with none is an access error (R38). -/
def jobWrite (s : State) : State × Bool :=
  let a := s.frm.jobDst
  let n := s.frm.jobOut.length
  if n = 0 then (s, true)
  else
    match (List.range (ceilDiv n 8 + 1)).find? (fun i => (bankOf (min (a + 8 * i) (a + n - 1))).isNone) with
    | some i => (accessError 136 (a + 8 * i) 1 3 1 s, false)
    | none => (storeBytes 136 a s.frm.jobOut s, true)

/-- A job completes with its RESULT (R365). -/
def jobDone (s : State) : State :=
  let r := s.frm.jobResult
  let (s, ok) := jobWrite s
  s |> setFlag Reg.SC_JOB Fld.SC_JOB_BUSY false |> setFld Reg.SC_JOB Fld.SC_JOB_RESULT (if ok then r else 2)
    |> updFrm (fun f => { f with job := 0, jobDst := 0, jobOut := [], jobResult := 0 })

/-- SC_JOB_DONE (R351). -/
def execScJobDone (s : State) : Out :=
  live (flag s Reg.SC_JOB Fld.SC_JOB_BUSY && !s.frm.jobWait && !rangeHeld s s.frm.jobDst s.frm.jobOut.length) s
    (jobDone s)

/-! ## The lock (R7, R365) -/

/-- SC_LOCK_WRITE (R365): a write of 1. -/
def execScLockWrite (m : Master) (s : State) : Out :=
  regWriteBy m Reg.SC_LOCK s (setFlag Reg.SC_LOCK Fld.SC_LOCK_LOCK true s)

end Sys2Proof.Machine
end

