-- ==== Sys2Proof/Machine/Retire.lean ====
section
/-! DEFINITION. The commands of the memory RAS controller: page retirement, spare rows and bank reset, with the accesses
they hold (R304 to R307). -/

namespace Sys2Proof.Machine

/-! ## The commands of MR_CMD (R304 to R307) -/

/-- Engine e is halted (R307): its STATE is HALT. (DEDUCED, log 93) -/
def engineHalted (s : State) (e : Nat) : Bool := fld s (Reg.BD_ESTAT (e / 8) (e % 8)) Fld.BD_ESTAT_STATE == 2

/-- Engine e is the home engine of a binding (R240). -/
def isHome (s : State) (e : Nat) : Bool :=
  (List.range 6).any fun b => slotFormed s (e / 8) b && fld s (Reg.BD_BSTAT (e / 8) b) Fld.BD_BSTAT_HOME == e % 8

/-- The result of the checks of R307, in their order. -/
def mrCheck (s : State) (op k unit : Nat) (mig : Bool) : Nat :=
  let addr := rd s Reg.MR_MIGADDR
  if op = 0 ∨ 3 < op then 1
  else if flag s Reg.MR_CMDST Fld.MR_CMDST_BUSY then 2
  else if 168 < k ∨ (op = 3 ∧ ((144 ≤ k ∧ k ≤ 151) ∨ k = 168)) ∨ (op = 1 ∧ bankPages k ≤ unit) ∨
      (op = 2 ∧ bankRows k ≤ unit) then 3
  else if op = 3 ∧ ((k < 128 ∧ (!engineHalted s k || isHome s k)) ∨ (152 ≤ k ∧ mig)) then 4
  else if (op = 1 ∧ sparePages k ≤ fld s (Reg.MR_BSTAT k) Fld.MR_BSTAT_SPAGE) ∨
      (op = 2 ∧
        spareRows k ≤ fld s (Reg.MR_BSTAT k) Fld.MR_BSTAT_SROW + fld s (Reg.MR_BSTAT k) Fld.MR_BSTAT_PEND) then 5
  else if op = 3 ∧ mig ∧ (addr % 0x40000 ≠ 0 ∨ addr < 0x40000000 ∨ 0x40400000 ≤ addr) then 6
  else 0

/-- A command begins: BUSY, and accesses to its bank are held. (DEDUCED, log 93) -/
def mrBegin (k : Nat) (op : RasOp) (s : State) : State :=
  s |> updRas (fun x => { x with op := op }) |> setFlag Reg.MR_CMDST Fld.MR_CMDST_BUSY true
    |> setFlag (Reg.MR_BSTAT k) Fld.MR_BSTAT_HOLD true

/-- A command ends and accesses are released. -/
def mrEnd (k : Nat) (s : State) : State :=
  s |> updRas (fun x => { x with op := .none }) |> setFlag Reg.MR_CMDST Fld.MR_CMDST_BUSY false
    |> setFlag (Reg.MR_BSTAT k) Fld.MR_BSTAT_HOLD false

/-- MR_CMD takes a command: refused by R307, or accepted. -/
def mrCommand (op k unit : Nat) (mig : Bool) (s : State) : State :=
  let r := mrCheck s op k unit mig
  let s := setFld Reg.MR_CMDST Fld.MR_CMDST_RESULT r s
  if r != 0 then s
  else if op = 1 then mrBegin k (.retire k unit) s
  else if op = 2 then
    s |> updRas (fun x => { x with softRows := x.softRows ++ [(k, unit)] })
      |> incFld (Reg.MR_BSTAT k) Fld.MR_BSTAT_PEND |> recordRas true k unit
  else mrBegin k (.brst k (if mig then some (rd s Reg.MR_MIGADDR) else none)) s

/-- MR_RETIRE (R304). -/
def execMrRetire (m : Master) (k : BitVec 8) (u : BitVec 10) (s : State) : Out :=
  regWriteBy m Reg.MR_CMD s (mrCommand 1 k.toNat u.toNat false s)
/-- MR_ROWADD (R305). -/
def execMrRowadd (m : Master) (k : BitVec 8) (u : BitVec 10) (s : State) : Out :=
  regWriteBy m Reg.MR_CMD s (mrCommand 2 k.toNat u.toNat false s)
/-- MR_BRST (R306). -/
def execMrBrst (m : Master) (k : BitVec 8) (mig : Bool) (s : State) : Out :=
  regWriteBy m Reg.MR_CMD s (mrCommand 3 k.toNat 0 mig s)

/-- The words of a range that hold an error, with it. -/
def upsetsIn (s : State) (a n : Nat) : List (Nat × Nat) :=
  s.ras.upset.filter fun x => decide (a ≤ x.1 * 8 ∧ x.1 * 8 < a + n)

/-- A copy of the n bytes from a on, in bank k, as the RAS controller makes it: single errors are corrected, and
uncorrectable words are logged and become unwritten (R303, R304, R306). (DEDUCED, log 92) -/
def copyWords (k a n : Nat) (s : State) : State :=
  forAll (upsetsIn s a n) (fun x s =>
    if x.2 = 1 then correctWord k (x.1 * 8) false s
    else
      let syn := (Config.freeWord s.fresh).toNat % 256
      s |> spend |> logError { kind := 2, scrub := false, hard := false, bank := k, syn := syn, addr := x.1 * 8 }
        |> setWritten k (x.1 * 8) false |> setUpset (x.1 * 8) 0) s

/-- A page copy completes: the mapping switches and its correction count starts again (R300, R304). -/
def retireDone (k u : Nat) (s : State) : State :=
  s |> copyWords k (bankBase k + u * 1024) 1024
    |> updRas (fun x => { x with ce := tdel x.ce (k * 1024 + u) })
    |> incFld (Reg.MR_BSTAT k) Fld.MR_BSTAT_SPAGE |> recordRas false k u |> mrEnd k

/-- What the hold kept waiting goes on: the recorder's work, the Foreman's image, answers of the hardware sequencer,
the NVM controller and the security block (R304, R313). (DEDUCED, log 93) -/
def resume (s : State) : State := s |> erResume |> reloadResume |> busyResume |> nvResume |> scResume

/-- PAGE_RETIRE_DONE (R304). -/
def execPageRetireDone (s : State) : Out :=
  match s.ras.op with
  | .retire k u => live true s (resume (retireDone k u s))
  | _ => .next s

/-- Bank k's pending soft entries apply (R305, R306). -/
def applySoftRows (k : Nat) (s : State) : State :=
  let n := fld s (Reg.MR_BSTAT k) Fld.MR_BSTAT_PEND
  s |> updRas (fun x => { x with softRows := x.softRows.filter (·.1 != k) })
    |> addFld (Reg.MR_BSTAT k) Fld.MR_BSTAT_SROW n |> setFld (Reg.MR_BSTAT k) Fld.MR_BSTAT_PEND 0

/-- Every correction count of bank k's pages starts again (R300). -/
def clearPageCounts (k : Nat) (s : State) : State :=
  updRas (fun x => { x with ce := x.ce.filter (fun e => e.1 / 1024 != k) }) s

/-- Bank k loses its contents: every written flag and granule mark clears (R298, R301, R306). -/
def discardBank (k : Nat) (s : State) : State :=
  let a := bankBase k
  let n := bankSize k
  let out := fun (x : Nat) => !(decide (a ≤ x) && decide (x < a + n))
  let s := { s with mem := s.mem.filter fun c => out c.1 }
  let s := updRas (fun x => { x with
    filled := (granulesOf k).foldl (fun t g => tset (fun _ => false) t g false) x.filled,
    flips := x.flips.filter (fun e => out (e.1 * 8)),
    upset := x.upset.filter (fun e => out (e.1 * 8)) }) s
  forAll (granulesOf k) (fun g s => setMark g false s) s

/-- The written words of bank k stand in the migration's buffer at address b as well (R306). (DEDUCED, log 92; DESIGN
CHOICE, log 88) -/
def fillBuffer (k b : Nat) (s : State) : State :=
  forAll (List.range (bankSize k / 8)) (fun i s =>
    let a := bankBase k + 8 * i
    match bankOf (b + 8 * i) with
    | some kb =>
      if wordWritten s k a then
        s |> setValue (b + 8 * i) 8 (memValue s a 8) |> setWritten kb (b + 8 * i) true |> setUpset (b + 8 * i) 0
      else s
    | none => s) s

/-- A bank reset or a migration completes (R306). -/
def bankResetDone (k : Nat) (mig : Option Nat) (s : State) : State :=
  let s := match mig with
    | some b => s |> copyWords k (bankBase k) (bankSize k) |> fillBuffer k b
    | none => discardBank k s
  s |> applySoftRows k |> clearPageCounts k |> mrEnd k

/-- BANK_RESET_DONE (R306). -/
def execBankResetDone (s : State) : Out :=
  match s.ras.op with
  | .brst k mig => live true s (resume (bankResetDone k mig s))
  | _ => .next s

end Sys2Proof.Machine
end

