-- ==== Sys2Proof/Machine/Varip.lean ====
section
/-! DEFINITION. The Varip ports: cycles and beacons, hint slots, joins, grants and revokes, and their registers (R173
to R186). -/

namespace Sys2Proof.Machine

/-- The state code of slot i of port v (R181). -/
def slotState (s : State) (v i : Nat) : Nat := fld s (Reg.VB_SLOT v i) Fld.VB_SLOT_STATE

/-- VB_STAT.NMEMB shows the slots in MEMBER (R186). -/
def showMembers (v : Nat) (s : State) : State :=
  setFld (Reg.VB_STAT v) Fld.VB_STAT_NMEMB ((List.range 8).filter (fun i => slotState s v i == 2)).length s

/-- Slot i of port v enters state st (R181). -/
def slotEnter (v i st : Nat) (s : State) : State :=
  showMembers v (setFld (Reg.VB_SLOT v i) Fld.VB_SLOT_STATE st s)

/-- A revoke of slot i awaits a beacon (R183). -/
def slotRevoke (v i : Nat) (s : State) : State := updVarip v (fun x => { x with revokes := x.revokes ++ [i] }) s

/-- A drop or an eviction at port v (R184). -/
def slotGone (v : Nat) (s : State) : State :=
  incFld (Reg.VB_JCNT v) Fld.VB_JCNT_DROPS (raiseWord Reg.VB_EVT (2 ^ (16 + v)) s)

/-- The cycle phase of port v (R186). -/
def varipPhase (s : State) (v : Nat) : Nat := min 1999 (fld s (Reg.VB_CFG v) Fld.VB_CFG_PHASE)

/-- Port v sends beacons: EN = 1 in STANDBY to SHUTDOWN (R174). -/
def varipRuns (s : State) (v : Nat) : Bool :=
  flag s (Reg.VB_CFG v) Fld.VB_CFG_EN && decide (2 ≤ mode s) && decide (mode s ≤ 6)

/-- The cycle number at instant ns for a phase (R174). -/
def cycleNumber (ns phase : Nat) : Nat := ((((ns : Int) - phase).fdiv 2000) % 256).toNat

/-- A cycle of port v starts now and has not been started (R174). -/
def cycleDue (s : State) (v : Nat) : Bool :=
  varipRuns s v && ((now s : Int) - varipPhase s v) % 2000 == 0 && (varipOf s v).start != now s + 1

/-- The 40 bits of a beacon (R177). -/
def beaconWord (cyc : Nat) (open_ ff gv : Bool) (gslot ticket : Nat) : Nat :=
  let w := 0xD3 * 2 ^ 24 + cyc * 2 ^ 16 + b2n open_ * 2 ^ 15 + b2n ff * 2 ^ 14 + b2n gv * 2 ^ 13
    + gslot * 2 ^ 10 + ticket
  w * 256 + crc8 0xFF [w / 2 ^ 24, w / 2 ^ 16 % 256, w / 2 ^ 8 % 256, w % 256]

/-- The lowest-numbered FREE slot of port v (R182). -/
def freeSlot (s : State) (v : Nat) : Option Nat := (List.range 8).find? fun i => slotState s v i == 0

/-- The good join word of the cycle two before the one that starts now (R182). -/
def joinDue (s : State) (v : Nat) : Option Nat :=
  match (varipOf s v).joins.find? (fun j => j.2 + 4000 == now s) with
  | some j => some j.1
  | none => none

/-- A cycle starts: the beacon carries a revoke that waits, or else the grant that is due, and opens the join window
where a slot is FREE (R174, R177, R181 to R183, R185). -/
def varipCycle (v : Nat) (s : State) : State :=
  let x := varipOf s v
  let cyc := cycleNumber (now s) (varipPhase s v)
  let open_ := flag s (Reg.VB_CFG v) Fld.VB_CFG_JOIN && (freeSlot s v).isSome
  let ff := decide (shed s < 3)
  let (word, revokes, s) :=
    match x.revokes, joinDue s v, freeSlot s v with
    | i :: rest, _, _ => (beaconWord cyc open_ ff true i 0, rest, s)
    | [], some t, some i =>
      (beaconWord cyc open_ ff true i t, [],
        s |> setFld (Reg.VB_SLOT v i) Fld.VB_SLOT_TICKET t |> setFld (Reg.VB_SLOT v i) Fld.VB_SLOT_MISSRUN 0
          |> slotEnter v i 1)
    | [], _, _ => (beaconWord cyc open_ ff false 0 0, [], s)
  s |> setFld (Reg.VB_STAT v) Fld.VB_STAT_CYC cyc
    |> updVarip v (fun x => { x with
      start := now s + 1, beacon := word, seen := [], open_ := open_, revokes := revokes,
      joins := x.joins.filter (fun j => decide (now s < j.2 + 4000)) })

/-- VARIP_CYCLE (R174). -/
def execVaripCycle (v : Fin 16) (s : State) : Out := live (cycleDue s v) s (varipCycle v s)

/-- How a slot's 40 samples are classed (R180). -/
inductive SlotClass where
  | empty
  | badCrc
  | badTag
  | refused
  | good
  deriving DecidableEq, Repr

/-- The class of word w in slot i of port v (R180). -/
def classifyHint (s : State) (v i w : Nat) : SlotClass :=
  if w = 0 then .empty
  else if crc8 0xFF [w / 2 ^ 32 % 256, w / 2 ^ 24 % 256, w / 2 ^ 16 % 256, w / 2 ^ 8 % 256] ≠ w % 256 then .badCrc
  else if w / 2 ^ 37 % 8 ≠ i ∨ bitAt w 8 = true then .badTag
  else if bitAt (rd s (Reg.VB_RAILS v)) (w / 2 ^ 32 % 32) then .good
  else .refused

/-- A miss of slot i: the eighth in a row revokes a GRANTED or MEMBER slot (R181, R183, R184). (DEDUCED, log 53, 198)
-/
def slotMiss (v i : Nat) (s : State) : State :=
  let a := Reg.VB_SLOT v i
  let st := slotState s v i
  let n := min 8 (fld s a Fld.VB_SLOT_MISSRUN + 1)
  let s := setFld a Fld.VB_SLOT_MISSRUN n s
  if n < 8 then s
  else if st = 2 then slotGone v (slotEnter v i 3 (slotRevoke v i s))
  else if st = 1 then slotEnter v i 0 (slotRevoke v i s)
  else s

/-- A good or refused hint keeps the partner present (R180, R181, R184). -/
def slotHeard (v i : Nat) (s : State) : State :=
  let st := slotState s v i
  let s := setFld (Reg.VB_SLOT v i) Fld.VB_SLOT_MISSRUN 0 s
  if st = 1 then
    incFld (Reg.VB_JCNT v) Fld.VB_JCNT_JOINS (raiseWord Reg.VB_EVT (2 ^ v) (slotEnter v i 2 s))
  else s

/-- The scheduled end of slot i of the cycle in progress (R175). -/
def slotEnd (x : Varip) (i : Nat) : Nat := x.start - 1 + 440 + 200 * i

/-- Slot i of the cycle in progress has ended and has not been classed, whatever its state (R180). (DEDUCED, log 198)
-/
def slotDue (s : State) (v i : Nat) : Bool :=
  let x := varipOf s v
  varipRuns s v && x.start != 0 && !x.seen.contains i && decide (slotEnd x i ≤ now s)

/-- The hint that word w of slot i carries (R178, R180). -/
def hintOf (x : Varip) (v i w : Nat) : HintWord :=
  { rail := w / 2 ^ 32 % 32, partner := 8 * v + i, dI := sx 12 (w / 2 ^ 20), lead := w / 2 ^ 12 % 256,
    conf := w / 2 ^ 9 % 8, tEnd := slotEnd x i }

/-- Slot i's word w is classed and acted on (R180). (DEDUCED, log 198) -/
def hintSlot (v i w : Nat) (s : State) : State :=
  let h := hintOf (varipOf s v) v i w
  let c := classifyHint s v i w
  let s := updVarip v (fun x => { x with seen := i :: x.seen }) s
  match c with
  | .empty => slotMiss v i s
  | .badCrc => slotMiss v i (incFld (Reg.VB_ERR v) Fld.VB_ERR_CRC s)
  | .badTag => slotMiss v i (incFld (Reg.VB_ERR v) Fld.VB_ERR_TAG s)
  | .refused => incFld (Reg.VB_ERR v) Fld.VB_ERR_TAG (slotHeard v i s)
  | .good =>
    slotHeard v i s |> setFld (Reg.VB_SLOT v i) Fld.VB_SLOT_RAIL h.rail |> incFld (Reg.VB_HINTS v) wordBits
      |> updVarip v (fun x => { x with flight := x.flight ++ [h] })

/-- HINT_SLOT (R180): the 40 bits sampled in slot i of port v. -/
def execHintSlot (v : Fin 16) (i : Fin 8) (w : BitVec 40) (s : State) : Out :=
  live (slotDue s v i) s (hintSlot v i w.toNat s)

/-- The join window of the cycle in progress is open and its word has been received (R174, R181). -/
def joinWindow (s : State) (v : Nat) : Bool :=
  let x := varipOf s v
  varipRuns s v && x.open_ && decide (x.start - 1 + 1960 ≤ now s)

/-- A join word in the open window: a good one with a ticket waits for its beacon, a bad one is counted (R182).
(DEDUCED, log 55) -/
def joinWord (v w : Nat) (s : State) : State :=
  let x := varipOf s v
  let s := updVarip v (fun x => { x with open_ := false }) s
  if crc8 0xFF [w / 256 % 256] ≠ w % 256 then incFld (Reg.VB_JCNT v) Fld.VB_JCNT_JBAD s
  else if w / 256 % 256 = 0 then s
  else updVarip v (fun y => { y with joins := y.joins ++ [(w / 256 % 256, x.start - 1)] }) s

/-- JOIN_WORD (R182): the 16 bits sampled in the join window of port v. -/
def execJoinWord (v : Fin 16) (w : BitVec 16) (s : State) : Out := live (joinWindow s v) s (joinWord v w.toNat s)

/-- VB_CMD is refused (R185, R186). -/
def vbRefuse (v : Nat) (s : State) : State := raiseFlag (Reg.VB_STAT v) Fld.VB_STAT_CMDREF s

/-- REOPEN of slot i (R181, R185). -/
def vbReopen (v i : Nat) (s : State) : State := if slotState s v i = 3 then slotEnter v i 0 s else vbRefuse v s

/-- EVICT of slot i: a MEMBER or GRANTED slot is revoked and CLOSED, and the eviction is counted (R181, R184). -/
def vbEvict (v i : Nat) (s : State) : State :=
  if slotState s v i = 1 ∨ slotState s v i = 2 then slotGone v (slotEnter v i 3 (slotRevoke v i s)) else vbRefuse v s

/-- VB_REOPEN (R181). -/
def execVbReopen (m : Master) (v : Fin 16) (i : Fin 8) (s : State) : Out :=
  regWriteBy m (Reg.VB_CMD v) s (vbReopen v i s)

/-- VB_EVICT (R181). -/
def execVbEvict (m : Master) (v : Fin 16) (i : Fin 8) (s : State) : Out :=
  regWriteBy m (Reg.VB_CMD v) s (vbEvict v i s)

/-- Slot i of port v after a write of VB_CFG whose SLOTEN bit for it is on: DISABLED slots open, cleared ones are
disabled with a revoke where a partner holds them, and EN = 0 closes those that stay (R181). (DEDUCED, log 53) -/
def slotConfigure (v i : Nat) (on en : Bool) (s : State) : State :=
  let st := slotState s v i
  let held := st == 1 || st == 2
  if !on then
    if st = 4 then s else slotEnter v i 4 (if held then slotRevoke v i s else s)
  else if st = 4 then slotEnter v i 0 s
  else if !en && held then slotEnter v i 3 s
  else s

/-- A write of v to VB_CFG of port p (R181, R186). (DEDUCED, log 54) -/
def vbCfgWrite (p v : Nat) (s : State) : State :=
  let a := Reg.VB_CFG p
  let was := flag s a Fld.VB_CFG_EN
  let phase := fld s a Fld.VB_CFG_PHASE
  let s := plainWrite a v s
  let s := if was then
      let s := setFld a Fld.VB_CFG_PHASE phase s
      if getBits v Fld.VB_CFG_PHASE = phase then s else raiseFlag (Reg.VB_STAT p) Fld.VB_STAT_WREF s
    else s
  let en := getBits v Fld.VB_CFG_EN != 0
  let s := forAll (List.range 8) (fun i s => slotConfigure p i (bitAt (getBits v Fld.VB_CFG_SLOTEN) i) en s) s
  if en then s else updVarip p (fun x => { x with start := 0, open_ := false, joins := [] }) s

/-- VB_CFG_WRITE (R181). -/
def execVbCfgWrite (m : Master) (p : Fin 16) (v : BitVec 32) (s : State) : Out :=
  regWriteBy m (Reg.VB_CFG p) s (vbCfgWrite p v.toNat s)

/-- The counter register k of port v: VB_ERR, VB_JCNT or VB_HINTS (R186). -/
def vbCounter (v k : Nat) : Nat := if k = 0 then Reg.VB_ERR v else if k = 1 then Reg.VB_JCNT v else Reg.VB_HINTS v

/-- VB_COUNTER_CLEAR (R186). -/
def execVbCounterClear (m : Master) (v : Fin 16) (k : Fin 3) (s : State) : Out :=
  regWriteBy m (vbCounter v k) s (wr (vbCounter v k) 0 s)

end Sys2Proof.Machine
end

