-- ==== Sys2Proof/Machine/Spine.lean ====
section
/-! DEFINITION. Accesses over the spine: what a read of a register returns and takes with it, what a write of a register
does, and reads and writes of the memories by any master (R7 to R9, R33 to R38, and the register tables). -/

namespace Sys2Proof.Machine

/-- What the register address a names: its block (0 to 9 in the order of R35, 16 to 23 in the order of R34), its quire,
its row and its indices. -/
structure RegCell where
  block : Nat
  quire : Nat
  row : RegRow
  ix : List Nat

/-- The register at spine address a, if one stands there. -/
def regCell (a : Nat) : Option RegCell := do
  let (rows, o) ← blockOf a
  let row ← rows.find? fun r => (r.at? o).isSome
  let ix ← row.at? o
  if 0x30000000 ≤ a then some ⟨a % 0x100000 / 0x10000, 0, row, ix⟩
  else some ⟨16 + a % 0x100000 / 0x10000, a / 0x1000000 % 16, row, ix⟩

/-- Index i of a register's indices. -/
def RegCell.at (c : RegCell) (i : Nat) : Nat := nthD 0 c.ix i

/-! ## Writes, block by block -/

/-- A write of v to a TB_ register (R20, R406). -/
def writeTB (c : RegCell) (a v : Nat) (s : State) : State :=
  if c.row.off = 0x100 then qtickWrite (c.at 0) v s else plainWrite a v s

/-- A write of v to an FM_ register (R368, R371, R373, R374, R381, R385, R389). -/
def writeFM (c : RegCell) (a v : Nat) (s : State) : State :=
  match c.row.off with
  | 0x0C => if v % 2 = 1 then setFlag Reg.FM_STAT Fld.FM_STAT_FPEND false s else s
  | 0x24 => wr a 0 s
  | 0x28 => wr a 0 s
  | 0x84 => fecClear s
  | 0x90 => if v % 256 = 0x5A then wdogRestart s else s
  | 0x94 =>
    let was := flag s a Fld.FM_WDCFG_EN
    let s := plainWrite a v s
    if !was && flag s a Fld.FM_WDCFG_EN then wdogRestart s else s
  | 0xA4 => if bitAt v 31 then pulseRail (v % 32) s else s
  | 0xC0 =>
    let s := if bitAt v 1 then wr Reg.FM_RECOVERIES 0 s else s
    if bitAt v 0 then availClear s else s
  | _ => plainWrite a v s

/-- A write of v to an ER_ register (R289 to R295). -/
def writeER (c : RegCell) (a v : Nat) (s : State) : State :=
  match c.row.off with
  | 0x00 => erCtrlWrite v s
  | 0x04 => erCommand (v % 8) s
  | 0x100 => erChWrite (c.at 0) v s
  | _ => plainWrite a v s

/-- A write of v to an SM_ register (R395, R397, R405); the step table stands while a sequence runs. -/
def writeSM (c : RegCell) (a v : Nat) (s : State) : State :=
  match c.row.off with
  | 0x04 => minReset a s
  | 0x08 => minReset a s
  | 0x0C => minReset a s
  | 0x20 => if v % 2 = 1 then seqStart s else s
  | 0x40 => setFld a Fld.SM_PGIN_FALLS 0 s
  | 0x30 => if flag s Reg.SM_SEQSTAT Fld.SM_SEQSTAT_BUSY then s else plainWrite a v s
  | 0x100 => if flag s Reg.SM_SEQSTAT Fld.SM_SEQSTAT_BUSY then s else plainWrite a v s
  | 0x104 => if flag s Reg.SM_SEQSTAT Fld.SM_SEQSTAT_BUSY then s else plainWrite a v s
  | _ => plainWrite a v s

/-- A write of v to a VB_ register (R181, R183, R186). -/
def writeVB (c : RegCell) (a v : Nat) (s : State) : State :=
  let p := c.at 0
  match c.row.off with
  | 0x100 => vbCfgWrite p v s
  | 0x108 =>
    let op := getBits v Fld.VB_CMD_OP
    let slot := getBits v Fld.VB_CMD_SLOT
    if op = 1 then vbReopen p slot s else if op = 2 then vbEvict p slot s else vbRefuse p s
  | 0x130 => wr a 0 s
  | 0x134 => wr a 0 s
  | 0x138 => wr a 0 s
  | _ => plainWrite a v s

/-- A write of v to an MB_ register on the spine: what the host writes is read-only here (R342). -/
def writeMB (c : RegCell) (a v : Nat) (s : State) : State :=
  match c.row.off with
  | 0x00 => s
  | 0x04 => s
  | 0x08 => settleAlert (plainWrite a v s)
  | 0x0C => s
  | 0x10 => s
  | 0x14 => s
  | 0x20 => if canPost s (v % 16) then updateOrigin (postSession (v % 16) s) else s
  | 0x24 => freqWrite (v % 0x10000) s
  | 0x214 => wr a 0 s
  | _ => plainWrite a v s

/-- A write of v to an NV_ register (R310, R315). -/
def writeNV (c : RegCell) (a v : Nat) (s : State) : State :=
  match c.row.off with
  | 0x00 => nvCommand (getBits v Fld.NV_CMD_OP) (getBits v Fld.NV_CMD_SECT) s
  | 0x1C => wr a 0 s
  | _ => plainWrite a v s

/-- A write of v to an SC_ register (R348, R351, R365). -/
def writeSC (c : RegCell) (a v : Nat) (s : State) : State :=
  match c.row.off with
  | 0x00 => if v % 2 = 1 then setFlag a Fld.SC_LOCK_LOCK true s else s
  | 0x10 => scCommand (getBits v Fld.SC_CMD_OP) (getBits v Fld.SC_CMD_ARG) s
  | 0x20 => scJob (getBits v Fld.SC_JOB_OP) s
  | _ => plainWrite a v s

/-- A write of v to an MR_ register (R304 to R307, R314): the Foreman never points MR_MIGADDR into the update buffer
while an update is open (R356). (DEDUCED, log 203) -/
def writeMR (c : RegCell) (a v : Nat) (s : State) : State :=
  match c.row.off with
  | 0x20 => mrCommand (getBits v Fld.MR_CMD_OP) (getBits v Fld.MR_CMD_BANK) (getBits v Fld.MR_CMD_UNIT)
      (getBits v Fld.MR_CMD_MIG != 0) s
  | 0x28 => if s.frm.update.phase ≠ 0 ∧ bufferBase ≤ v ∧ v < bufferBase + 0x80000 then s else plainWrite a v s
  | _ => plainWrite a v s

/-- A write of v to an RT_ register (R43, R44, R73). -/
def writeRT (c : RegCell) (a v : Nat) (s : State) : State :=
  match c.row.off with
  | 0x00 => rtCommand (getBits v Fld.RT_CMD_OP) (getBits v Fld.RT_CMD_RAIL) false s
  | _ => plainWrite a v s

/-- A write of v to an LU_ register (R55, R66, R74, R76, R90, R95). -/
def writeLU (c : RegCell) (a v : Nat) (s : State) : State :=
  let l := c.at 0
  let r := 2 * c.quire + l
  match c.row.off with
  | 0x120 => cselWrite r v s
  | 0x400 =>
    if fld s (Reg.LU_CSEL c.quire l) Fld.LU_CSEL_ACTIVE = c.at 1 then
      raiseFlag (Reg.LU_RSTAT c.quire l) Fld.LU_RSTAT_CWACT s
    else plainWrite a v s
  | 0x6A4 => submit r v (some (sx 32 (rd s (Reg.LU_LMB_CORR c.quire l)))) s
  | 0x6A8 => submit r v none s
  | 0x184 => if v % 2 = 1 then burstFire r s else s
  | 0x800 => imCtrlWrite r v s
  | 0x81C =>
    let s := if bitAt v 0 then imClrcnt r s else s
    if bitAt v 1 then burstClrcnt r s else s
  | 0x840 => partWrite r (c.at 1) v s
  | 0x880 => setTrust r (c.at 1) (v % 256) s
  | _ => plainWrite a v s

/-- A write of v to a PW_ register (R96, R99, R103, R107, R111, R118, R119, R122). -/
def writePW (c : RegCell) (a v : Nat) (s : State) : State :=
  let q := c.quire
  let n := 16 * q + c.at 0
  match c.row.off with
  | 0x00 => (if bitAt v 16 then immediateLoad else loadAll) q (v % 0x10000) s
  | 0x10 => tlrefCommit q v s
  | 0x100 => cfgWrite n v s
  | 0x104 => perStage n v s
  | 0x108 => onStage n v s
  | 0x10C => ofsStage n v s
  | 0x130 => dtaWrite n v s
  | 0x138 => wr a 0 s
  | 0x140 =>
    let s := if bitAt v 0 then tripClear n s else s
    if bitAt v 1 then loffClear n s else s
  | 0x14C => wr a 0 s
  | _ => plainWrite a v s

/-- A write of v to an AD_ register (R127, R130, R132, R133, R144); entry 0 of the staged tables is read-only. -/
def writeAD (c : RegCell) (a v : Nat) (s : State) : State :=
  let q := c.quire
  match c.row.off with
  | 0x04 => if v % 2 = 1 then seqCommit q s else s
  | 0x14 =>
    let s := plainWrite a v s
    if flag s a Fld.AD_CHKSTAT_MISM then s else setFld a Fld.AD_CHKSTAT_ATTR 0 s
  | 0x104 => wr a 0 s
  | 0x10C => sretWrite q (c.at 0) v s
  | 0x110 => fcfgWrite q (c.at 0) (c.at 1) v s
  | 0x140 => if c.at 1 = 0 then s else plainWrite a v s
  | _ => plainWrite a v s

/-- A write of v to a WC_ register (R137 to R140, R145). -/
def writeWC (c : RegCell) (a v : Nat) (s : State) : State :=
  let q := c.quire
  let i := c.at 0
  match c.row.off with
  | 0x100 => wcCfgWrite q i v s
  | 0x104 => thrWrite q i v s
  | 0x110 =>
    let s := if bitAt v 0 then wcClear q i false s else s
    if bitAt v 1 then wcClear q i true s else s
  | 0x114 => trkWrite q i v s
  | 0x118 => boundWrite q i false v s
  | 0x11C => boundWrite q i true v s
  | 0x120 => toppClear q i s
  | 0x124 => wr a 0 s
  | 0x800 => ocpCfgWrite (16 * q + i) v s
  | 0x808 => setFld a Fld.WC_OCPSTAT_PEAK 0 s
  | 0x80C => wr a 0 s
  | _ => plainWrite a v s

/-- A write of v to a PP_ register (R165, R168, R171). -/
def writePP (c : RegCell) (a v : Nat) (s : State) : State :=
  let n := 16 * c.quire + c.at 0
  match c.row.off with
  | 0x08 =>
    let p := 16 * c.quire + getBits v Fld.PP_CMD_PORT
    match getBits v Fld.PP_CMD_OP with
    | 1 => ppIsolate p s
    | 2 => ppUnisolate p s
    | 3 => ppResync p s
    | 4 => ppRebind p s
    | _ => ppResult c.quire 1 s
  | 0x100 => withPort n (plainWrite a v) s
  | 0x118 => wr a 0 s
  | 0x11C => wr a 0 s
  | 0x120 => wr a 0 s
  | _ => plainWrite a v s

/-- A write of v to a TM_ register (R276 to R279, R294). -/
def writeTM (c : RegCell) (a v : Nat) (s : State) : State :=
  let q := c.quire
  let m := c.at 0
  match c.row.off with
  | 0x100 => wr a 0 s
  | 0x180 => outcfgWrite q m v s
  | 0x200 => tmCfgWrite q m v s
  | 0x20C => tmCmdWrite q m v s
  | 0x218 => rldCommit q m v s
  | 0x21C => rldHold q m v s
  | 0x220 => cmpsetCommit q m v s
  | 0x224 => cmpHold q m v s
  | _ => plainWrite a v s

/-- A write of v by master m to a BD_ register (R221, R235, R236, R263, R274). -/
def writeBD (m : Master) (c : RegCell) (a v : Nat) (s : State) : State :=
  let q := c.quire
  let e := 8 * q + c.at 0
  match c.row.off with
  | 0x00 => bdCfgWrite q v s
  | 0x04 => bdCommand q (getBits v Fld.BD_CMD_OP) (getBits v Fld.BD_CMD_SLOT) (getBits v Fld.BD_CMD_ENG)
      (getBits v Fld.BD_CMD_ARG) s
  | 0x4004 => ectlWrite e v s
  | 0x4014 => sigWrite m e v s
  | _ => plainWrite a v s

/-- A write of v to an SB_ register (R172). -/
def writeSB (c : RegCell) (a v : Nat) (s : State) : State :=
  match c.row.off with
  | 0x10 => xcmdWrite c.quire v s
  | 0x24 => wr a 0 s
  | _ => plainWrite a v s

/-- A write of v by master m to the register address a. An address of a block that holds no register ignores it.
(DEDUCED, log 8, 131, 176) -/
def regWrite (m : Master) (a v : Nat) (s : State) : State :=
  match regCell a with
  | none => s
  | some c =>
    match c.block with
    | 0 => writeTB c a v s
    | 1 => writeFM c a v s
    | 2 => writeER c a v s
    | 3 => writeSM c a v s
    | 4 => writeVB c a v s
    | 5 => writeMB c a v s
    | 6 => writeNV c a v s
    | 7 => writeSC c a v s
    | 8 => writeMR c a v s
    | 9 => writeRT c a v s
    | 16 => writeLU c a v s
    | 17 => writePW c a v s
    | 18 => writeAD c a v s
    | 19 => writeWC c a v s
    | 20 => writePP c a v s
    | 21 => writeTM c a v s
    | 22 => writeBD m c a v s
    | _ => writeSB c a v s

/-! ## Reads -/

/-- The read of the register at a with what it takes from a queue (R274, R278, R303, R371, R389). -/
def readEffect (c : RegCell) (s : State) : State :=
  match c.block, c.row.off with
  | 1, 0x20 => queueRead s
  | 1, 0xB0 => disqRead s
  | 8, 0x10 => elogRead s
  | 21, 0x234 => capPop c.quire (c.at 0) s
  | 22, 0x10 => evqRead c.quire s
  | _, _ => s

/-- The word that the register at a shows: what time moves is computed, the rest stands (R18, R19, R98, R115, R174,
R257, R276, R302, R381, R406). -/
def regView (s : State) (c : RegCell) (a : Nat) : Nat :=
  let q := c.quire
  let i := c.at 0
  match c.block, c.row.off with
  | 0, 0x00 => s.tb.ns % 2 ^ 32
  | 0, 0x04 => s.tb.ns / 2 ^ 32
  | 0, 0x10 => s.tb.hrs % 2 ^ 32
  | 0, 0x14 => s.tb.hrs / 2 ^ 32
  | 0, 0x18 => s.tb.pcc
  | 1, 0x94 => putBits (rd s a) Fld.FM_WDCFG_RST (min 127 (recentRestarts s).length)
  | 4, 0x10C => putBits (rd s a) Fld.VB_STAT_CYC (cycleNumber (now s) (varipPhase s i))
  | 8, 0x04 => putBits (rd s a) Fld.MR_SCSTAT_PAUSED (b2n (2 ≤ shed s))
  | 17, 0x120 => pwmCount s (16 * q + i)
  | 17, 0x148 => tripSources s (16 * q + i)
  | 19, 0x120 => min (rd s a + heldTicks s q i (now s + 1)) 0xFFFFFFFF
  | 21, 0x208 => putBits (rd s a) Fld.TM_STAT_RUN
      (b2n (tmEn s q i && !(tmOneshot s q i && counterNow s q i == 0 && !(timerOf s q i).load)))
  | 21, 0x210 => counterNow s q i % 2 ^ 32
  | 21, 0x214 => counterNow s q i / 2 ^ 32
  | 22, 0x110 => oddWord s q i
  | _, _ => rd s a

/-- A read of the register address a: the state after it and its word. An address of a block that holds no register
reads 0. (DEDUCED, log 8, 176) -/
def regRead (a : Nat) (s : State) : State × Nat :=
  match regCell a with
  | none => (s, 0)
  | some c =>
    if c.block = 23 ∧ c.row.off = 0x20 then (ibiqRead c.quire s, rd s a)
    else
      let s := readEffect c s
      (s, regView s c a)

/-! ## Accesses by a master -/

/-- The outcome of an access: its data (0 for a write), or a failure with its BUS cause, 1 refused, 2 uncorrectable,
3 unwritten (R38, R226, R297, R298). -/
inductive Access where
  | data (v : Nat)
  | failed (cause : Nat)
  deriving DecidableEq, Repr

/-- A read of size bytes, naturally aligned, at spine address a by master m (R33 to R38, R297, R309). type is the access
type of R374. -/
def spineRead (m : Master) (a size type : Nat) (u : Upset) (s : State) : State × Access :=
  if !spineAllows s m a size false then (accessError (masterOf s m) a type (Nat.log2 size) 1 s, .failed 1)
  else if isRegister a then
    let (s, v) := regRead a s
    (s, .data v)
  else if 0x60000000 ≤ a then
    let flips := match u with | .none => 0 | .single => 1 | .transient => 0 | .double => 3
    let (s, ok) := nvWindowRead (masterOf s m) a flips s
    if ok then (s, .data (nvWindowWord s (a / 4 * 4) / 2 ^ (8 * (a % 4)) % 2 ^ (8 * size))) else (s, .failed 2)
  else
    match bankOf a with
    | none => (s, .failed 1)
    | some k =>
      let (s, f) := touchWord (masterOf s m) k a type (Nat.log2 size) false u s
      match f with
      | .good => (s, .data (memValue s a size))
      | .bad => (s, .failed 2)
      | .unwritten => (s, .failed 3)

/-- A write may go to spine address a: recorder memory takes one only while software freezes it (R290). -/
def writable (s : State) (a : Nat) : Bool :=
  !(decide (0x50000000 ≤ a) && decide (a < 0x50040000)) || flag s Reg.ER_CTRL Fld.ER_CTRL_FREEZE

/-- Address a lies in the instruction memory of engine master m itself (R37). -/
def ownCode (m : Master) (a : Nat) : Option Nat :=
  match m with
  | .engine e _ => if bankOf a = some e.val ∧ a - bankBase e.val < 0x8000 then some e.val else none
  | .foreman _ => none

/-- A write of the low size bytes of v at spine address a by master m (R33 to R38, R290, R299): an engine's own code
stores pass through its code-write buffer (R37). (DEDUCED, log 9) -/
def spineWrite (m : Master) (a size v : Nat) (u : Upset) (s : State) : State × Access :=
  if !(spineAllows s m a size true && writable s a) then
    (accessError (masterOf s m) a 1 (Nat.log2 size) 1 s, .failed 1)
  else if isRegister a then (regWrite m a v s, .data 0)
  else
    match ownCode m a, bankOf a with
    | some e, _ => (ownCodeStore e ⟨a, v % 2 ^ (8 * size), size, false⟩ s, .data 0)
    | none, none => (s, .failed 1)
    | none, some k =>
      if unlistedWord a then (s, .data 0)
      else
      let (s, f) := storeWord (masterOf s m) k a size v (Nat.log2 size) u s
      (s, if f = .good then .data 0 else .failed 2)

/-- The spine address of the access that master m makes at address a (R33). -/
def masterAddr (m : Master) (a : Nat) : Nat :=
  match m with
  | .engine e _ => spineAddr e.val a
  | .foreman _ => a

/-- A write of one word by a command of master m at its address a, with the bus error of an engine where it is refused
or aborted; u is what the array shows its read half (R7, R38, R299). (DEDUCED, log 240) -/
def masterWrite (m : Master) (a v : Nat) (u : Upset) (s : State) : State :=
  let x := masterAddr m a
  if x % 4 = 0 then
    match spineWrite m x 4 v u s with
    | (s, .data _) => s
    | (s, .failed c) => busError m a true c s
  else busError m a true 1 (accessError (masterOf s m) x 1 2 1 s)

/-- A write of one word by master m at its address a is held: it stalls until the release (R304, R306). -/
def writeHeld (s : State) (m : Master) (a : Nat) : Bool :=
  (ownCode m (masterAddr m a)).isNone && rangeHeld s (masterAddr m a) 4

/-- REG_WRITE (R7): a write of one word by a master, to a register or to anything else that it may write. (DEDUCED,
log 9; DESIGN CHOICE, log 10) -/
def execRegWrite (m : Master) (a : BitVec 32) (v : WordWrite) (s : State) : Out :=
  live (!writeHeld s m a.toNat) s (masterWrite m a.toNat v.v.toNat v.u s)

end Sys2Proof.Machine
end

