-- ==== Sys2Proof/Machine/Access.lean ====
section
/-! DEFINITION. How an engine reaches the world while it runs a bundle: who it is (a single engine, a leader or a
follower), the inputs a leader takes once, the parts of a split access and their checks, loads, stores and code stores
(R203, R214 to R220, R246 to R251). -/

namespace Sys2Proof.Machine

/-! ## Who runs (R246, R247) -/

/-- An engine as it runs: its index, its home engine, its binding slot if it is a member of one, and its place among the
members. -/
structure Who where
  e : Nat
  home : Nat
  slot : Option Nat
  pos : Nat
  deriving DecidableEq, Repr

/-- Engine e as it runs at present. -/
def whoOf (s : State) (e : Nat) : Who :=
  match slotOfEngine s (e / 8) (e % 8) with
  | some b => ⟨e, homeEngine s e, some b, (slotMembers s (e / 8) b).findIdx (· == e % 8)⟩
  | none => ⟨e, e, none, 0⟩

/-- It reaches the world itself: a single engine, or the leader of a binding (R248). -/
def Who.leads (w : Who) : Bool := w.pos == 0

/-- The master that its accesses at the given privilege name: the home engine (R246). -/
def Who.master (w : Who) (priv : Nat) : Master := .engine (Fin.ofNat 128 w.home) (privOf priv)

/-- The engines of the binding behind the leader. -/
def Who.others (w : Who) (s : State) : List Nat :=
  match w.slot with
  | some b => ((slotMembers s (w.e / 8) b).drop 1).map (eng (w.e / 8))
  | none => []

/-! ## Inputs (R248) -/

/-- Every delay FIFO of the binding has a free entry. -/
def Who.fifosFree (w : Who) (s : State) : Bool := (w.others s).all fun i => decide ((engOf s i).fifo.length < 8)

/-- The replay log has a free entry. -/
def Who.logFree (w : Who) (s : State) : Bool :=
  match w.slot with
  | some b => decide ((bindOf s (w.e / 8) b).log.length < 8)
  | none => true

/-- An input goes into every follower's delay FIFO. -/
def pushInput (w : Who) (v : Input) (s : State) : State :=
  forAll (w.others s) (fun i s => updEng i (fun y => { y with fifo := y.fifo ++ [v] }) s) s

/-- An input goes into the replay log with the number of the bundle that takes it. -/
def logInput (w : Who) (v : Input) (s : State) : State :=
  match w.slot with
  | some b =>
    let n := (engOf s w.e).cnt
    updBind (w.e / 8) b (fun y => { y with log := y.log ++ [(n, v)] }) s
  | none => s

/-- The next input: the world's for a single engine; for a leader, one it has to replay, or else the world's, logged
and passed on; for a follower, the head of its delay FIFO. None where it has to wait. (DEDUCED, log 58) -/
def takeInput (w : Who) (world : State → State × Input) (s : State) : Option (State × Input) :=
  if w.slot.isNone then some (world s)
  else
    match (engOf s w.e).fifo with
    | v :: rest =>
      let s := updEng w.e (fun y => { y with fifo := rest }) s
      if !w.leads then some (s, v) else if w.fifosFree s then some (pushInput w v s, v) else none
    | [] =>
      if w.leads && w.fifosFree s && w.logFree s then
        let (s, v) := world s
        some (pushInput w v (logInput w v s), v)
      else none

/-! ## Faults of an access (R217, R220, R225) -/

/-- An exception to take: its number, and the FADDR and FINFO of its frame; next where the frame names the next
bundle. -/
structure Exc where
  num : Nat
  addr : Nat
  info : Nat
  next : Bool
  deriving DecidableEq, Repr

/-- An exception without a failing address. -/
def Exc.plain (n : Nat) : Exc := ⟨n, 0, 0, false⟩

/-- FINFO of a failing access of n bytes (R225). -/
def finfo (store fetch high low : Bool) (n cause : Nat) : Nat :=
  2 ^ 31 + b2n store * 2 ^ 30 + b2n fetch * 2 ^ 29 + b2n high * 2 ^ 28 + b2n low * 2 ^ 27 + Nat.log2 n * 2 ^ 24 + cause

/-- One aligned part of an access, or the access itself. -/
structure Part where
  addr : Nat
  size : Nat
  high : Bool
  split : Bool
  deriving DecidableEq, Repr

/-- An access of n bytes at address a is split (R217). -/
def splits (a n : Nat) : Bool := (n == 4 && a % 4 != 0) || (n == 2 && a % 4 == 3)

/-- The parts of an access of n bytes at address a (R217). -/
def accessParts (a n : Nat) : List Part :=
  if splits a n then [⟨a / 4 * 4, 4, false, true⟩, ⟨(a / 4 * 4 + 4) % 2 ^ 32, 4, true, true⟩]
    else [⟨a, n, false, false⟩]

/-- Address a, as the spine has it, lies in the home engine's own memories (R33, R203). -/
def Who.owns (w : Who) (a : Nat) : Bool := bankOf a == some w.home

/-- A store to address a is a code store (R214). -/
def Who.isCode (w : Who) (a : Nat) : Bool := w.owns a && decide (a - bankBase w.home < 0x8000)

/-- A store to spine address a of less than 64 bits is a read-modify-write, whose check half needs R: a store to memory
that does not wait in the code-write buffer (R220, R299). -/
def readsFirst (w : Who) (a : Nat) : Bool := !isRegister a && !w.isCode a

/-- The fault of one part of an n-byte access at the given privilege: protection, with R for the check half of a
read-modify-write, then the spine map (R217, R220). (DEDUCED, log 61) -/
def partFault (s : State) (w : Who) (priv : Nat) (write : Bool) (n : Nat) (p : Part) : Option Exc :=
  let a := spineAddr w.home p.addr
  let grants := granted s w.home p.addr priv
  if !grants (if write then 1 else 2) || (write && readsFirst w a && !grants 2) then
    some ⟨8, p.addr, finfo write false p.high false n 0, false⟩
  else if (p.split && isRegister a) || !spineAllows s (w.master priv) a p.size write then
    some ⟨9, p.addr, finfo write false p.high false n 1, false⟩
  else none

/-- The fault of the first part that fails, before either part is performed (R217). -/
def accessFault (s : State) (w : Who) (priv : Nat) (write : Bool) (a n : Nat) : Option Exc :=
  (accessParts a n).findSome? (partFault s w priv write n)

/-- The spine records an access that it refuses (R38). (DEDUCED, log 72) -/
def refusedAccess (w : Who) (priv : Nat) (write : Bool) (n : Nat) (x : Exc) (s : State) : State :=
  accessError (masterCode (w.master priv)) (spineAddr w.home x.addr) (b2n write) (Nat.log2 n) 1 s

/-- The memory RAS controller holds accesses to address a (R304, R306). -/
def memHeld (s : State) (a : Nat) : Bool :=
  match bankOf a with
  | some k => accessHeld s k a
  | none => false

/-- Some part of an access of n bytes at engine address a is held. -/
def partsHeld (s : State) (w : Who) (a n : Nat) : Bool :=
  (accessParts a n).any fun p => memHeld s (spineAddr w.home p.addr)

/-! ## Loads (R202, R215, R217, R249) -/

/-- The writes to instruction memory that FLUSH.I makes of an entry (R215). -/
def CodeWrite.ops (c : CodeWrite) : List MemOp :=
  if c.mask = 15 then [⟨c.addr, c.data, 4, true⟩]
  else (ones 4 c.mask).map fun i => ⟨c.addr + i, c.data / 2 ^ (8 * i) % 256, 1, true⟩

/-- The engine's uncommitted writes to the 64-bit word that holds address a (R249). -/
def pendingOps (s : State) (w : Who) (a : Nat) : List MemOp :=
  ((engOf s w.e).buf.flatMap (·.ops)).filter fun o => o.addr / 8 == a / 8

/-- A read of n aligned bytes at spine address a: what memory holds, with the binding's uncommitted stores and the
engine's pending code stores merged over it (R215, R249). -/
def engineRead (w : Who) (x : Arch) (a n : Nat) (u : Upset) (s : State) : State × Access :=
  match bankOf a with
  | none => spineRead (w.master x.priv) a n 0 u s
  | some k =>
    let ps := pendingOps s w a
    let (s, r) :=
      if !ps.isEmpty && (!wordWritten s k a || ps.any (fun o => o.size == 8)) then
        (s, Access.data (if wordWritten s k a then memValue s a n else 0))
      else spineRead (w.master x.priv) a n 0 u s
    match r with
    | .data v => (s, .data ((ps ++ x.cwb.flatMap CodeWrite.ops).foldl (overlay a n) v))
    | .failed c => (s, .failed c)

/-- The parts of a load of n bytes, low first, as one input: their bytes, or the fault of the first that fails. -/
def readParts (w : Who) (x : Arch) (n : Nat) : List Part → Upset → State → State × Input
  | [], _, s => (s, .data 0)
  | p :: ps, u, s =>
    match engineRead w x (spineAddr w.home p.addr) p.size u s with
    | (s, .failed c) => (s, .fault p.addr (finfo false false p.high false n c))
    | (s, .data v) =>
      match readParts w x n ps .none s with
      | (s, .data r) => (s, .data (v + 2 ^ (8 * p.size) * r))
      | y => y

/-- What the world gives a load of n bytes at address a: a refusal, or what its parts read. -/
def loadInput (w : Who) (x : Arch) (a n : Nat) (u : Upset) (s : State) : State × Input :=
  match accessFault s w x.priv false a n with
  | some f => (refusedAccess w x.priv false n f s, .fault f.addr f.info)
  | none => readParts w x n (accessParts a n) u s

/-- A load of n bytes at address a: its value, or its exception; none where it waits (R217, R220, R248). -/
def engineLoad (w : Who) (x : Arch) (a n : Nat) (u : Upset) (s : State) : Option (State × (Exc ⊕ Nat)) :=
  match accessFault s w x.priv false a n with
  | some ⟨8, addr, info, b⟩ => some (s, .inl ⟨8, addr, info, b⟩)
  | _ =>
    if partsHeld s w a n then none
    else
      match takeInput w (loadInput w x a n u) s with
      | some (s, .data v) =>
        some (s, .inr (if splits a n then v / 2 ^ (8 * (a % 4)) % 2 ^ (8 * n) else v))
      | some (s, .fault addr info) => some (s, .inl ⟨9, addr, info, false⟩)
      | _ => none

/-! ## Stores (R214, R217, R251) -/

/-- The writes of a store of n bytes of v at address a, as the spine has them. -/
def storeOps (w : Who) (a n v : Nat) : List MemOp :=
  if splits a n then
    let k := 4 - a % 4
    [⟨spineAddr w.home a, v % 2 ^ (8 * k), k, false⟩,
     ⟨spineAddr w.home ((a / 4 * 4 + 4) % 2 ^ 32), v / 2 ^ (8 * k) % 2 ^ (8 * (n - k)), n - k, false⟩]
  else [⟨spineAddr w.home a, v % 2 ^ (8 * n), n, false⟩]

/-- A write of 8 bytes as two of 4. -/
def halves (o : MemOp) : List MemOp :=
  if o.size = 8 then [⟨o.addr, o.data % 2 ^ 32, 4, o.code⟩, ⟨o.addr + 4, o.data / 2 ^ 32, 4, o.code⟩] else [o]

/-- Writes go to the code-write buffer or stay writes: the buffer and the writes; none where the buffer overflows.
(DEDUCED, log 76) -/
def placeOps (w : Who) : List MemOp → List CodeWrite → Option (List CodeWrite × List MemOp)
  | [], cwb => some (cwb, [])
  | o :: os, cwb =>
    if w.isCode o.addr then
      match (halves o).foldlM (fun c h => addCode h c) cwb with
      | some c => placeOps w os c
      | none => none
    else (placeOps w os cwb).map fun r => (r.1, o :: r.2)

/-- One write of the engine whose home is given reaches memory or the spine: whether it was performed (R38, R299). The
access was checked when the bundle issued. -/
def performOp (home : Nat) (o : MemOp) (u : Upset) (s : State) : State × Bool :=
  if o.code then
    match bankOf o.addr with
    | some k =>
      let (s, f) := storeWord home k o.addr o.size o.data (Nat.log2 o.size) u s
      (s, f == .good)
    | none => (s, false)
  else
    match spineWrite (.engine (Fin.ofNat 128 home) .monitor) o.addr o.size o.data u s with
    | (s, .data _) => (s, true)
    | (s, .failed _) => (s, false)

/-- Writes are performed in order up to the first that fails: how many were performed, and whether one failed.
u is what the arrays show the read half of the first. -/
def performOps (home : Nat) (u : Upset) : List MemOp → State → State × Nat × Bool
  | [], s => (s, 0, false)
  | o :: os, s =>
    match performOp home o u s with
    | (s, true) =>
      let (s, n, f) := performOps home .none os s
      (s, n + 1, f)
    | (s, false) => (s, 0, true)

/-- The writes that the spine acknowledges: those outside the home engine's own memories (R14). -/
def acked (home : Nat) (os : List MemOp) : Nat := (os.filter fun o => bankOf o.addr != some home).length

/-- Some write goes to memory that the memory RAS controller holds. -/
def opsHeld (s : State) (os : List MemOp) : Bool := os.any fun o => memHeld s o.addr

end Sys2Proof.Machine
end

