-- ==== Sys2Proof/Machine/Entry.lean ====
section
/-! DEFINITION. Taking an exception or interrupt and returning from one, as one shared operation each: descriptors, the
frame and its push, fast entry and the shadow, double faults and LOCKOUT, RETX (R222 to R234). -/

namespace Sys2Proof.Machine

/-- What a bundle or an entry makes of an engine: the architected state after it, its writes in program order, loads and
a long operation on their way, the stop it made (1 WAIT, 2 HALT, 3 LOCKOUT), and for a double fault or LOCKOUT the
number of the original exception. -/
structure Eff where
  x : Arch
  ops : List MemOp
  loads : List (Nat × Nat)
  long : Option (Nat × Nat × Bool)
  stop : Nat
  cause : Nat
  /-- Writes that the spine refuses, as (address, log2 of the size) (R38). -/
  refused : List (Nat × Nat)
  /-- What the arrays show the read half of its first write (R299). -/
  upset : Upset
  deriving DecidableEq, Repr

/-- An effect that has only reached state x so far. -/
def Eff.at (x : Arch) : Eff :=
  { x := x, ops := [], loads := [], long := none, stop := 0, cause := 0, refused := [], upset := .none }

/-! ## Descriptors (R224) -/

/-- The world's answer to the read of descriptor n: its three words with bit 0 set, or 0 for an error. (DEDUCED, log
58) -/
def descInput (w : Who) (x : Arch) (n : Nat) (s : State) : State × Input :=
  let a := bankBase w.home + x.dtAddr + 16 * n
  let (s, f) := touchWord w.home w.home a 0 3 false .none s
  let (s, g) := touchWord w.home w.home (a + 8) 0 3 false .none s
  (s, .data (if f = .good ∧ g = .good then memValue s a 12 * 2 + 1 else 0))

/-- Descriptor n, or none where its read returns an error; the outer none where the engine waits. -/
def readDesc (w : Who) (x : Arch) (n : Nat) (s : State) : Option (State × Option Descriptor) :=
  if memHeld s (bankBase w.home + x.dtAddr) then none
  else
    match takeInput w (descInput w x n) s with
    | some (s, .data v) =>
      let d := v / 2
      some (s, if v % 2 = 1 then some (descOf (d % 2 ^ 32) (d / 2 ^ 32 % 2 ^ 32) (d / 2 ^ 64 % 2 ^ 32)) else none)
    | _ => none

/-! ## The frame (R225, R226) -/

/-- The ten words of the frame of exception n. -/
def frameWords (x : Arch) (n pc kind addr info : Nat) : List Nat :=
  [pc, x.flags,
   n * 2 ^ 24 + kind * 2 ^ 20 + x.ipl * 2 ^ 16 + x.bank * 2 ^ 8 + x.eceil * 2 ^ 4 + b2n x.df * 2 ^ 3 + x.priv,
   x.rpc, x.getAt (x.homePlace 14), x.getAt (x.homePlace 12), addr, info, x.efp, x.selector]

/-- Address a moved by n bytes. -/
def offset (a n : Nat) : Nat := (a + n) % 2 ^ 32

/-- The frame below stack pointer sp. -/
def frameAt (sp : Nat) : Nat := (2 ^ 32 - 40 + sp) % 2 ^ 32

/-- The writes that push words at address f: 8 bytes at a time, or 4 in a register block. -/
def pushOps (w : Who) (f : Nat) (ws : List Nat) : List MemOp :=
  if isRegister (spineAddr w.home f) then
    ((List.range 10).zip ws).map fun p => ⟨spineAddr w.home (offset f (4 * p.1)), p.2, 4, false⟩
  else
    (List.range 5).map fun i =>
      ⟨spineAddr w.home (offset f (8 * i)), nthD 0 ws (2 * i) + 2 ^ 32 * nthD 0 ws (2 * i + 1), 8, false⟩

/-- Word i of the push at f fails at the given privilege; the result tells a refusal by the spine. The frame cannot
lie in the engine's own instruction memory, whose code-write buffer holds eight words (R214). (DEDUCED, log 71) -/
def pushWordFault (s : State) (w : Who) (priv f i : Nat) : Option (Nat × Bool) :=
  let a := offset f (4 * i)
  let p := spineAddr w.home a
  if !granted s w.home a priv 1 || w.isCode p then some (a, false)
  else if !(spineAllows s (w.master priv) p 4 true && writable s p) then some (a, true)
  else none

/-- The address of the first part of the push at f that fails: an sp that is not a multiple of 8, or a word (R227). -/
def pushFault (s : State) (w : Who) (priv f : Nat) : Option (Nat × Bool) :=
  if f % 8 != 0 then some (f, false) else (List.range 10).findSome? (pushWordFault s w priv f)

/-- The write of a push that the spine refuses (R38). -/
def pushRefused (w : Who) (p : Nat × Bool) : List (Nat × Nat) := if p.2 then [(spineAddr w.home p.1, 2)] else []

/-- Some word of the push at f goes to memory that the memory RAS controller holds. -/
def pushHeld (s : State) (w : Who) (f : Nat) : Bool :=
  (List.range 10).any fun i => memHeld s (spineAddr w.home (offset f (4 * i)))

/-! ## Non-fast entry, double faults and LOCKOUT (R227, R231, R232) -/

/-- The interrupted context goes on in the handler of descriptor d with its frame at f (R226, R227). (DEDUCED, log 66)
-/
def enterHandler (x : Arch) (d : Descriptor) (f : Nat) (df : Bool) : Arch :=
  let bank := if d.bank = 7 then x.bank else d.bank
  let priv := max d.newpriv x.priv
  let moved := decide (x.priv < priv) || bank != x.bank
  let y := { x.setRep 0 0 with
    priv := priv, eceil := x.priv, ipl := max x.ipl d.pri, efp := f + 1, df := df, en := false, bank := bank,
    pc := d.handler / 4 * 4, fibFrames := if x.bank = 4 then f :: x.fibFrames else x.fibFrames.filter (· != f) }
  (y.setAt (y.homePlace 12) f).setAt (y.homePlace 14) (if moved then d.sp else f)

/-- LOCKOUT after exception n (R232). -/
def lockout (x : Arch) (n : Nat) : Eff := { Eff.at x with stop := 3, cause := n }

/-- A double fault for exception c, whose frame would have named pc (R231, R232). (DEDUCED, log 66) -/
def doubleFault (w : Who) (x : Arch) (c : Exc) (pc kind : Nat) (s : State) : Option (State × Eff) :=
  if x.df then some (s, lockout x c.num)
  else
    match readDesc w x 0 s with
    | none => none
    | some (s, none) => some (s, lockout x c.num)
    | some (s, some d) =>
      if descInvalid 0 d then some (s, lockout x c.num)
      else
        let f := frameAt d.sp
        if pushHeld s w f then none
        else
          match pushFault s w d.newpriv f with
          | some p => some (s, { lockout x c.num with refused := pushRefused w p })
          | none =>
            some (s, { Eff.at (enterHandler x d f true) with
              ops := pushOps w f (frameWords x 0 pc kind c.addr (c.info + c.num * 2 ^ 8)), cause := c.num })

/-- A fast entry: the shadow is saved and the FIB becomes current; a window trap presets BANKWIN (R233, R234).
(DEDUCED, log 64) -/
def enterFast (x : Arch) (d : Descriptor) (n pc kind : Nat) : Arch :=
  let y := { x.setRep 0 0 with
    shadow := { pc := pc, flags := x.flags, priv := x.priv, ipl := x.ipl, bank := x.bank, rpc := x.rpc, rkind := kind,
                en := x.en, glb := x.glb, wbank := x.wbank, win := x.win },
    bank := 4, priv := max d.newpriv x.priv, pc := d.handler / 4 * 4 }
  match n with
  | 1 => { y with en := false, wbank := x.bank, win := (x.wixOf x.bank + 2) % 8 }
  | 2 => { y with en := false, wbank := x.bank, win := (x.wixOf x.bank + 7) % 8 }
  | _ => y

/-- Taking exception or interrupt c in context x: pc is what its frame names, kind the repeat kind it saves; none where
the engine waits (R222 to R234). -/
def enterException (w : Who) (x : Arch) (c : Exc) (pc kind : Nat) (s : State) : Option (State × Eff) :=
  if x.bank = 4 then doubleFault w x c pc kind s
  else
    match readDesc w x c.num s with
    | none => none
    | some (s, none) => doubleFault w x c pc kind s
    | some (s, some d) =>
      if descInvalid c.num d then doubleFault w x c pc kind s
      else if c.num = 1 ∨ c.num = 2 ∨ (32 ≤ c.num ∧ d.fast = true) then
        some (s, Eff.at (enterFast x d c.num pc kind))
      else
        let f := frameAt (x.getAt (x.homePlace 14))
        if pushHeld s w f then none
        else
          match pushFault s w x.priv f with
          | some p =>
            (doubleFault w x { c with addr := p.1, info := finfo true false false false 4 0 } pc kind s).map fun r =>
              (r.1, { r.2 with refused := pushRefused w p ++ r.2.refused })
          | none =>
            some (s, { Eff.at (enterHandler x d f false) with
              ops := pushOps w f (frameWords x c.num pc kind c.addr c.info) })

/-! ## RETX (R229, R230, R233) -/

/-- RETX with the FIB current restores the shadow (R233). -/
def restoreShadow (x : Arch) : Arch :=
  let h := x.shadow
  { (x.setRep h.rpc h.rkind).setFlags h.flags with
    pc := h.pc, priv := h.priv, ipl := h.ipl, bank := h.bank, en := h.en, glb := h.glb, wbank := h.wbank, win := h.win }

/-- The world's answer to the read of the frame at f: its 40 bytes, or the fault of the first 8 that fail. (DEDUCED,
log 58) -/
def frameInput (w : Who) (x : Arch) (f : Nat) : List Nat → State → State × Input
  | [], s => (s, .data 0)
  | i :: is, s =>
    let a := offset f (8 * i)
    match engineRead w x (spineAddr w.home a) 8 .none s with
    | (s, .failed c) => (s, .fault a (finfo false false false false 8 c))
    | (s, .data v) =>
      match frameInput w x f is s with
      | (s, .data r) => (s, .data (v + 2 ^ 64 * r))
      | y => y

/-- The frame's read lacks R somewhere (R220, R229). -/
def frameProt (s : State) (w : Who) (x : Arch) (f : Nat) : Option Exc :=
  (List.range 5).findSome? fun i =>
    let a := offset f (8 * i)
    if granted s w.home a x.priv 2 then none else some ⟨8, a, finfo false false false false 8 0, false⟩

/-- The checks of R230 on the frame's STATUS. -/
def frameForged (x : Arch) (f status : Nat) : Bool :=
  let bank := slice status 10 8
  decide (x.eceil < status % 4) || (5 ≤ bank && bank ≤ 7) || (bank == 4 && !x.fibFrames.contains f)

/-- What a frame restores (R229). (DEDUCED, log 67; DESIGN CHOICE, log 68) -/
def restoreFrame (x : Arch) (ws : List Nat) : Arch :=
  let st := nthD 0 ws 2
  let y := (x.setRep (nthD 0 ws 3) (min 2 (slice st 21 20))).setFlags (nthD 0 ws 1)
  let y := { y.setSelector (nthD 0 ws 9) with
    pc := nthD 0 ws 0 / 4 * 4, ipl := slice st 17 16, df := bitAt st 3, priv := st % 4,
    eceil := min (slice st 5 4) (st % 4), efp := nthD 0 ws 8, bank := slice st 10 8 }
  (y.setAt (y.homePlace 12) (nthD 0 ws 5)).setAt (y.homePlace 14) (nthD 0 ws 4)

/-- RETX: the state it restores, or the exception it raises; none where the engine waits. (DEDUCED, log 67) -/
def returnFrom (w : Who) (x : Arch) (s : State) : Option (State × (Exc ⊕ Arch)) :=
  if x.bank = 4 then some (s, .inr (restoreShadow x))
  else if x.efp % 2 = 0 then some (s, .inl (Exc.plain 11))
  else
    let f := x.efp / 8 * 8
    match frameProt s w x f with
    | some c => some (s, .inl c)
    | none =>
      if pushHeld s w f then none
      else
        match takeInput w (frameInput w x f (List.range 5)) s with
        | some (s, .fault a i) => some (s, .inl ⟨9, a, i, false⟩)
        | some (s, .data v) =>
          let ws := toWords 10 v
          if frameForged x f (nthD 0 ws 2) then some (s, .inl ⟨11, f, 2 ^ 31, false⟩)
          else some (s, .inr (restoreFrame x ws))
        | _ => none

end Sys2Proof.Machine
end

