-- ==== Sys2Proof/Machine/Exec.lean ====
section
/-! DEFINITION. What each operation of a bundle does to an engine, and the bundle as a whole: operands before results,
special registers, control transfers, repeats, loads and stores, context save and load (R187 to R242). -/

namespace Sys2Proof.Machine

/-! ## One operation -/

/-- The outcome of an operation: the state of the device, the engine's effect so far, and the exception it raises. An
exception keeps what had been done for good before it, which only SAVECTX and LOADCTX have. None where it waits. -/
abbrev Outcome := Option (State × Eff × Option Exc)

/-- The operation completes. -/
def done (s : State) (y : Eff) : Outcome := some (s, y, none)

/-- The operation raises c. -/
def raises (s : State) (y : Eff) (c : Exc) : Outcome := some (s, y, some c)

/-- The value of an operand (R187). -/
def Arch.src (x : Arch) : Src → Nat
  | .reg g => x.getReg g
  | .imm v => v

/-- Register d, as x names it, is written. -/
def Eff.put (y : Eff) (x : Arch) (d v : Nat) : Eff := { y with x := y.x.setAt (x.place d) v }

/-- SAT sets where b holds (R196). -/
def Eff.sat (y : Eff) (b : Bool) : Eff := { y with x := y.x.satIf b }

/-- Control goes to address a (R213). -/
def Eff.jump (y : Eff) (a : Nat) : Eff := { y with x := { y.x with pc := a } }

/-- The address n bundles from a (R189). (DEDUCED, log 62) -/
def branchTo (a : Nat) (n : Int) : Nat := pat 32 ((a : Int) + 4 * n)

/-- A result of a register and SAT. -/
def Eff.result (y : Eff) (x : Arch) (d : Nat) (r : Nat × Bool) : Eff := (y.put x d r.1).sat r.2

/-- A divide or square root: a single engine's long-operation unit starts; a member has the result at once (R203).
(DEDUCED, log 57) -/
def Eff.longResult (y : Eff) (w : Who) (x : Arch) (d : Nat) (r : Nat × Bool) : Eff :=
  if w.slot.isNone then { y with long := some (x.place d, r.1, r.2) } else y.result x d r

/-- The bytes that a width moves, and how a load extends them (R208). -/
def Width.bytes : Width → Nat
  | .word => 4
  | .half => 2
  | .halfU => 2
  | .byte => 1
  | .byteU => 1

def Width.extend (d : Width) (v : Nat) : Nat :=
  match d with
  | .half => pat 32 (sx 16 v)
  | .byte => pat 32 (sx 8 v)
  | _ => v

/-- The address of a memory operation (R207, R208). -/
def memAddr (x : Arch) (a : Nat) (ofs : Int) : Nat := pat 32 ((x.getReg a : Int) + ofs)

/-- The update of the address register (R207). -/
def Eff.post (y : Eff) (x : Arch) (a : Nat) (n : Int) : Eff :=
  if n = 0 then y else y.put x a (pat 32 ((x.getReg a : Int) + n))

/-- A load (R202, R207, R208, R217). (DEDUCED, log 59) -/
def loadOp (w : Who) (x : Arch) (d : Width) (g a : Nat) (ofs post : Int) (u : Upset) (s : State) (y : Eff) : Outcome :=
  let at_ := memAddr x a ofs
  match engineLoad w x at_ d.bytes u s with
  | none => none
  | some (s, .inl c) => raises s y c
  | some (s, .inr v) =>
    let y := y.post x a post
    if w.slot.isNone && !(accessParts at_ d.bytes).all (fun p => w.owns (spineAddr w.home p.addr)) then
      done s { y with loads := y.loads ++ [(x.place g, d.extend v)] }
    else done s (y.put x g (d.extend v))

/-- A store (R207, R208, R214, R217). -/
def storeOp (w : Who) (x : Arch) (d : Width) (g a : Nat) (ofs post : Int) (u : Upset) (s : State) (y : Eff) : Outcome :=
  let at_ := memAddr x a ofs
  match accessFault s w x.priv true at_ d.bytes with
  | some c =>
    raises s (if c.num = 9 then { y with refused := y.refused ++ [(spineAddr w.home c.addr, Nat.log2 d.bytes)] }
      else y) c
  | none =>
    if partsHeld s w at_ d.bytes then none
    else
      match placeOps w (storeOps w at_ d.bytes (x.getReg g)) y.x.cwb with
      | none => raises s y (Exc.plain 10)
      | some (cwb, os) =>
        done s { y.post x a post with x := { (y.post x a post).x with cwb := cwb }, ops := y.ops ++ os, upset := u }

/-- CALLW (R193, R194, R234): the window moves one block forward. -/
def callWindow (x : Arch) (ofs : Int) (s : State) (y : Eff) : Outcome :=
  if x.bank = 4 then raises s y (Exc.plain 3)
  else if x.liveOf x.bank = 7 then raises s y (Exc.plain 1)
  else
    let z := (y.x.setWix x.bank (x.wixOf x.bank + 1)).setLive x.bank (x.liveOf x.bank + 1)
    done s (({ y with x := z }.put x 15 (x.pc + 4)).jump (branchTo x.pc ofs))

/-- RETW (R193, R194, R234): the window moves one block back. -/
def returnWindow (x : Arch) (s : State) (y : Eff) : Outcome :=
  if x.bank = 4 then raises s y (Exc.plain 3)
  else if x.liveOf x.bank = 1 then raises s y (Exc.plain 2)
  else
    let z := (y.x.setWix x.bank (x.wixOf x.bank + 7)).setLive x.bank (x.liveOf x.bank - 1)
    done s ({ y with x := z }.jump (x.getReg 15 / 4 * 4))

/-- MFS (R195): TBLO and TBHI are inputs (R204). -/
def moveFromSpecial (w : Who) (x : Arch) (d n : Nat) (s : State) (y : Eff) : Outcome :=
  match sregLevel n false with
  | none => raises s y (Exc.plain 3)
  | some l =>
    if x.priv < l then raises s y (Exc.plain 5)
    else if n = 0x0C ∨ n = 0x0D then
      let word := fun (s : State) => if n = 0x0C then s.tb.ns % 2 ^ 32 else s.tb.ns / 2 ^ 32
      match takeInput w (fun s => (s, .data (word s))) s with
      | some (s, .data v) => done s (y.put x d v)
      | _ => none
    else done s (y.put x d (sregRead w.home x n))

/-- MTS (R195). -/
def moveToSpecial (x : Arch) (n a : Nat) (s : State) (y : Eff) : Outcome :=
  match sregLevel n true with
  | none => raises s y (Exc.plain 3)
  | some l => if x.priv < l then raises s y (Exc.plain 5) else done s { y with x := sregWrite n (x.getReg a) y.x }

/-! ## Context save and load (R238 to R240) -/

/-- The places of the area that hold group g of bank k: the offset of each 64-bit transfer. Groups 0 to 9 are the bank's
in the order of CTXDIRTY, 13 the accumulators, 14 the repeat state, 15 FLAGS (R238, R239). -/
def groupOffsets (g : Nat) : List Nat :=
  if g = 9 then [0x000, 0x008]
  else if g = 8 then [0x010, 0x018]
  else if g < 8 then (List.range 4).map (0x20 + 32 * g + 8 * ·)
  else if g = 13 then (List.range 8).map (0x120 + 8 * ·)
  else if g = 14 then [0x160, 0x168, 0x170, 0x178]
  else [0x160]

/-- The transfers that load group g: the reserved words are not read. (DEDUCED, log 69) -/
def loadOffsets (g : Nat) : List Nat :=
  if g = 9 then [0x000] else if g = 14 then [0x160, 0x168] else groupOffsets g

/-- The groups in the order of the area. -/
def groupOrder : List Nat := [9, 8, 0, 1, 2, 3, 4, 5, 6, 7, 13, 15, 14]

/-- Word i of the area for bank k (R239). -/
def ctxWord (x : Arch) (k i : Nat) : Nat :=
  if i = 0 then x.wixOf k + 16 * x.liveOf k
  else if i = 1 then x.getAt (288 + k)
  else if i < 4 then 0
  else if i < 8 then x.getAt (256 + 4 * k + (i - 4))
  else if i < 72 then x.getAt (64 * k + (i - 8))
  else if i < 88 then
    let v := x.accOf ((i - 72) / 4)
    match i % 4 with
    | 0 => pat 72 v % 2 ^ 32
    | 1 => pat 72 v / 2 ^ 32 % 2 ^ 32
    | 2 => pat 32 (sx 8 (pat 72 v / 2 ^ 64))
    | _ => 0
  else if i = 88 then x.flags
  else if i = 89 then x.rpc
  else if i = 90 then x.rkind
  else 0

/-- The tag of the area differs for the bank, or for the engine-wide groups (R239). -/
def tagDiffers (x : Arch) (a t : Nat) : Bool := x.tagOf t != a + 1

/-- The groups that move: the dirty ones, or all where the tag differs (R239). SAVECTX never moves the FIB. -/
def groupsToMove (x : Arch) (a : Nat) : List Nat :=
  groupOrder.filter fun g =>
    if g < 10 then tagDiffers x a x.wbank || bitAt (x.dirtyOf x.wbank) g
    else tagDiffers x a 4 || bitAt x.edirty (g - 12)

/-- Group g is clean (R239). -/
def cleanGroup (x : Arch) (g : Nat) : Arch :=
  if g < 10 then { x with dirty := tset (fun _ => 0x3FF) x.dirty x.wbank (x.dirtyOf x.wbank &&& (0x3FF ^^^ 2 ^ g)) }
  else { x with edirty := x.edirty &&& (15 ^^^ 2 ^ (g - 12)) }

/-- Both tags are set to a (R239). -/
def setTags (x : Arch) (a : Nat) : Arch :=
  { x with tags := tset (fun _ => 0) (tset (fun _ => 0) x.tags x.wbank (a + 1)) 4 (a + 1) }

/-- The check of the whole area (R240): the first 64 bits that lack the right. -/
def areaFault (s : State) (w : Who) (x : Arch) (a : Nat) (write : Bool) : Option Exc :=
  (List.range 48).findSome? fun i =>
    let p := offset a (8 * i)
    if granted s w.home p x.priv (if write then 1 else 2) then none
    else some ⟨8, p, finfo write false false false 8 0, false⟩

/-- The area goes to memory that the memory RAS controller holds. -/
def areaHeld (s : State) (w : Who) (a : Nat) : Bool :=
  (List.range 48).any fun i => memHeld s (spineAddr w.home (offset a (8 * i)))

/-- The 64-bit writes that save group g of state x0 in the area at a. -/
def saveOps (w : Who) (x0 : Arch) (a g : Nat) : List MemOp :=
  (groupOffsets g).map fun o =>
    ⟨spineAddr w.home (offset a o), ctxWord x0 x0.wbank (o / 4) + 2 ^ 32 * ctxWord x0 x0.wbank (o / 4 + 1), 8, false⟩

/-- SAVECTX moves the groups one by one up to the first write that the spine refuses (R240). (DEDUCED, log 69) -/
def saveGroups (w : Who) (x0 : Arch) (a : Nat) : List Nat → State → Eff → Outcome
  | [], s, y => done s { y with x := setTags y.x a }
  | g :: gs, s, y =>
    let m := w.master x0.priv
    let refused := fun o =>
      let p := spineAddr w.home (offset a o)
      !(spineAllows s m p 8 true && writable s p)
    match (groupOffsets g).find? refused, placeOps w (saveOps w x0 a g) y.x.cwb with
    | some o, _ =>
      raises s { y with refused := y.refused ++ [(spineAddr w.home (offset a o), 3)] }
        ⟨9, offset a o, finfo true false false false 8 1, false⟩
    | none, none => raises s y (Exc.plain 10)
    | none, some (cwb, os) =>
      saveGroups w x0 a gs s { y with x := cleanGroup { y.x with cwb := cwb } g, ops := y.ops ++ os }

/-- SAVECTX (R239, R240). -/
def saveContext (w : Who) (x : Arch) (a : Nat) (s : State) (y : Eff) : Outcome :=
  match areaFault s w x a true with
  | some c => raises s y c
  | none => if areaHeld s w a then none else saveGroups w x a (groupsToMove x a) s y

/-- What is read of the area: the transfers at the offsets, up to the first that fails. The number stands over the count
of those that were read. -/
def areaInput (w : Who) (x : Arch) (a : Nat) : List Nat → State → State × Nat × List Nat × Option Exc
  | [], s => (s, 0, [], none)
  | o :: os, s =>
    let p := offset a o
    match engineRead w x (spineAddr w.home p) 8 .none s with
    | (s, .failed c) => (s, 0, [], some ⟨9, p, finfo false false false false 8 c, false⟩)
    | (s, .data v) =>
      let (s, n, vs, f) := areaInput w x a os s
      (s, n + 1, v :: vs, f)

/-- The number that packs 64-bit values, the first least significant. -/
def packWords (vs : List Nat) : Nat := vs.foldr (fun v r => v % 2 ^ 64 + 2 ^ 64 * r) 0

/-- The read of the area as one input (R248): its values, or a fault over the values read before it. (DEDUCED, log 58)
-/
def areaWorld (w : Who) (x : Arch) (a : Nat) (os : List Nat) (s : State) : State × Input :=
  match areaInput w x a os s with
  | (s, _, vs, none) => (s, .data (packWords vs))
  | (s, n, vs, some c) => (s, .fault c.addr (c.info + 2 ^ 32 * (n + 64 * packWords vs)))

/-- Group g is loaded from its values (R239); each place counts as written by LOADCTX, and then as clean. -/
def loadGroup (x : Arch) (g : Nat) (vs : List Nat) : Arch :=
  let k := x.wbank
  let word := fun i => nthD 0 vs (i / 2) / 2 ^ (32 * (i % 2)) % 2 ^ 32
  if g = 9 then ((x.setWix k (word 0 % 8)).setLive k (word 0 / 16 % 8)).setAt (288 + k) (word 1)
  else if g = 8 then (List.range 4).foldl (fun x j => x.setAt (256 + 4 * k + j) (word j)) x
  else if g < 8 then (List.range 8).foldl (fun x j => x.setAt (64 * k + 8 * g + j) (word j)) x
  else if g = 13 then
    (List.range 4).foldl (fun x j =>
      x.setAcc j (sx 72 (word (4 * j) + 2 ^ 32 * word (4 * j + 1) + 2 ^ 64 * (word (4 * j + 2) % 256)))) x
  else if g = 14 then x.setRep (word 1) (min 2 (word 2 % 4))
  else x.setFlags (word 0)

/-- The groups are loaded one by one while all their values have been read. -/
def loadGroups (x : Arch) : List Nat → List Nat → Arch
  | [], _ => x
  | g :: gs, vs =>
    let n := (loadOffsets g).length
    if vs.length < n then x else loadGroups (cleanGroup (loadGroup x g vs) g) gs (vs.drop n)

/-- n 64-bit values of a number. -/
def unpackWords : Nat → Nat → List Nat
  | 0, _ => []
  | n + 1, v => v % 2 ^ 64 :: unpackWords n (v / 2 ^ 64)

/-- LOADCTX (R239, R240). (DEDUCED, log 69) -/
def loadContext (w : Who) (x : Arch) (a : Nat) (s : State) (y : Eff) : Outcome :=
  match areaFault s w x a false with
  | some c => raises s y c
  | none =>
    let gs := groupsToMove x a
    let os := gs.flatMap loadOffsets
    if os.isEmpty then done s { y with x := setTags y.x a }
    else if areaHeld s w a then none
    else
      match takeInput w (areaWorld w x a os) s with
      | some (s, .data v) => done s { y with x := setTags (loadGroups y.x gs (unpackWords os.length v)) a }
      | some (s, .fault addr i) =>
        let r := i / 2 ^ 32
        raises s { y with x := loadGroups y.x gs (unpackWords (r % 64) (r / 64)) } ⟨9, addr, i % 2 ^ 32, false⟩
      | _ => none

/-! ## The SYS operations (R208) -/

/-- The lowest privilege of a SYS operation (R208). -/
def sysLevel : Op → Nat
  | .flushI => 1
  | .retx => 1
  | .switch _ => 1
  | .savectx _ => 1
  | .loadctx _ => 1
  | .halt => 2
  | _ => 0

/-- RETX (R229). -/
def returnOp (w : Who) (x : Arch) (s : State) (y : Eff) : Outcome :=
  match returnFrom w x s with
  | none => none
  | some (s, .inl c) => raises s y c
  | some (s, .inr z) => done s { y with x := { z with cwb := y.x.cwb } }

/-- A SYS operation whose privilege holds; SWITCH selects the task bank (R194, R241). -/
def sysOp (w : Who) (x : Arch) (o : Op) (s : State) (y : Eff) : Outcome :=
  match o with
  | .flushI => done s { y with x := { y.x with cwb := [] }, ops := y.ops ++ x.cwb.flatMap CodeWrite.ops }
  | .wait => done s { y with stop := 1 }
  | .halt => done s { y with stop := 2 }
  | .trap n => raises s y { Exc.plain (16 + n) with next := true }
  | .retx => returnOp w x s y
  | .switch k => done s { y with x := { y.x with bank := k } }
  | .savectx a => saveContext w x (x.getReg a / 8 * 8) s y
  | .loadctx a => loadContext w x (x.getReg a / 8 * 8) s y
  | _ => done s y

/-- One operation: x is the state before the bundle, y the effect so far (R187, R196 to R242). SWITCH is undefined with
the FIB current at every privilege (R194, R223). -/
def runOp (w : Who) (x : Arch) (u : Upset) (o : Op) (s : State) (y : Eff) : Outcome :=
  match o with
  | .nop => done s y
  | .alu _ f d a b => done s (y.result x d (alu f (x.src a) (x.src b)))
  | .cmp _ a b => done s { y with x := y.x.setFlags (flagsCmp y.x.flags (x.getReg a) (x.src b)) }
  | .tst a b => done s { y with x := y.x.setFlags (flagsTst y.x.flags (x.getReg a) (x.getReg b)) }
  | .movh d i => done s (y.put x d (x.getReg d % 2 ^ 16 + 2 ^ 16 * i))
  | .sats d a n => done s (y.result x d (satsTo (x.getReg a) n))
  | .load wd d a ofs post => loadOp w x wd d a ofs post u s y
  | .store wd d a ofs post => storeOp w x wd d a ofs post u s y
  | .mul k i a b => done s { y with x := y.x.setAcc i (multiply k (x.accOf i) (x.getReg a) (x.getReg b)) }
  | .mfp d i sh r t => done s (y.result x d (moveFrom (x.accOf i) sh r t))
  | .mtp i a sh clr => done s { y with x := y.x.setAcc i (if clr then 0 else acc72 (s32 (x.getReg a) * 2 ^ sh)) }
  | .div k d a b => done s (y.longResult w x d (divide k (x.getReg a) (x.getReg b)))
  | .sqrt k d a => done s (y.longResult w x d (squareRoot k (x.getReg a)))
  | .br c ofs => done s (if condHolds x.flags c then y.jump (branchTo x.pc ofs) else y)
  | .call ofs => done s ((y.put x 15 (x.pc + 4)).jump (branchTo x.pc ofs))
  | .callw ofs => callWindow x ofs s y
  | .jr a => done s (y.jump (x.getReg a / 4 * 4))
  | .callr a => done s ((y.put x 15 (x.pc + 4)).jump (x.getReg a / 4 * 4))
  | .ret => done s (y.jump (x.getReg 15 / 4 * 4))
  | .retw => returnWindow x s y
  | .rep i n => done s { y with x := y.x.setRep n (if i then 3 else 1) }
  | .mfs d n => moveFromSpecial w x d n s y
  | .mts n a => moveToSpecial x n a s y
  | o =>
    if o.row == .switch && x.bank == 4 then raises s y (Exc.plain 3)
    else if x.priv < sysLevel o then raises s y (Exc.plain 5)
    else sysOp w x o s y

/-- The operations of a bundle in program order, all reading the state before it; nothing is kept of a bundle that
raises an exception but what its single operation had done for good (R187, R212). -/
def runOps (w : Who) (x : Arch) (u : Upset) : List Op → State → Eff → Outcome
  | [], s, y => done s y
  | o :: os, s, y =>
    match runOp w x u o s y with
    | some (s, y, none) => runOps w x u os s y
    | r => r

/-! ## Interlocks (R202, R203) -/

/-- The place of register or accumulator r in the numbering of R191's reads and writes. -/
def resourcePlace (x : Arch) (r : Nat) : Nat := if r < 16 then x.place r else 300 + r

/-- Places whose result is on its way. -/
def pendingPlaces (e : Engine) : List Nat :=
  e.loads.map (·.1) ++ (match e.long with | some (p, _, _) => [p] | none => [])

/-- An operation that needs every earlier result: it names SAT or the dirty bits, or moves or leaves the whole state. -/
def needsAll : Op → Bool
  | .mfs _ n => n == 0 || n == 6
  | .mts n _ => n == 0 || n == 6
  | .br 12 _ => true
  | .br 13 _ => true
  | .halt => true
  | .retx => true
  | .savectx _ => true
  | .loadctx _ => true
  | .trap _ => true
  | _ => false

/-- Operation o waits for an earlier result, for the long-operation unit, or for completion of loads and stores.
(DEDUCED, log 57) -/
def waits (s : State) (w : Who) (x : Arch) (o : Op) : Bool :=
  let e := engOf s w.e
  let busy := !e.loads.isEmpty || e.long.isSome
  let places := (opReads o ++ opWrites o).map (resourcePlace x)
  places.any (pendingPlaces e).contains || (needsAll o && busy) ||
    (match o with
      | .div .. => e.long.isSome
      | .sqrt .. => e.long.isSome
      | .fence => !e.loads.isEmpty || e.stores != 0 || (engOf s w.home).stores != 0 ||
        e.buf.any (fun r => !r.ops.isEmpty)
      | _ => false)

/-! ## The bundle (R187 to R190, R205, R206, R212) -/

/-- The state after a bundle of state x retires: the repeated bundle again, or the next one (R205). (DESIGN CHOICE,
log 68) -/
def advance (x : Arch) (y : Eff) : Eff :=
  if x.rkind = 0 then y
  else if 2 ≤ x.rpc then { y with x := { y.x.setRep (x.rpc - 1) (if x.rkind = 1 then 1 else 2) with pc := x.pc } }
  else { y with x := { y.x.setRep 0 0 with pc := x.pc + 4 } }

/-- A bundle's operations in state x: its effect, or its exception over what stays (R212). -/
def bundleEffect (w : Who) (x : Arch) (u : Upset) (xs : List Op) (s : State) : Outcome :=
  match runOps w x u xs s (Eff.at { x with pc := x.pc + 4 }) with
  | some (s, y, none) => some (s, advance x y, none)
  | some (s, y, some c) =>
    if xs.any (fun o => o.row == .savectx || o.row == .loadctx) then
      some (s, { Eff.at { y.x with pc := x.pc } with ops := y.ops, refused := y.refused }, some c)
    else some (s, { Eff.at x with refused := y.refused }, some c)
  | none => none

end Sys2Proof.Machine
end

