-- ==== Sys2Proof/Machine/EngineRows.lean ====
section
/-! DEFINITION. The commands of the engines: one bundle of one engine under each row of the operation table, results
that return later, interrupts and the end of WAIT (R187 to R242, R247 to R251). -/

namespace Sys2Proof.Machine

/-! ## Fetch (R187, R206, R213, R220) -/

/-- What a fetch gives: a wait, an exception, or a bundle's operations. -/
inductive Fetched where
  | hold
  | fault (c : Exc)
  | ops (xs : List Op)
  deriving DecidableEq, Repr

/-- The word at engine address a of the home engine's instruction memory, if it can be fetched without error. -/
def bundleWord (s : State) (w : Who) (a : Nat) : Option Nat :=
  let p := bankBase w.home + a
  if wordWritten s w.home p && wordUpset s p != 2 then some (memValue s p 4) else none

/-- The operations that the slots of bundle v spell, whether the bundle is legal or not. -/
def slotOps (v : Nat) : List Op :=
  if bitAt v 31 then [decodeShort (slice v 30 16), decodeShort (slice v 15 1)].filterMap id
  else (decodeLong v).toList

/-- The bundle after a REP holds what R206 forbids, in any slot. -/
def repForbidden (s : State) (w : Who) (a : Nat) : Bool :=
  if 0x7FFC < a then false
  else
    match bundleWord s w a with
    | some v => (slotOps v).any notRepeatable
    | none => false

/-- The bundle at the program counter of state x, or the exception of its fetch or decoding (R189, R190, R206, R220).
(DEDUCED, log 62, 63; DESIGN CHOICE, log 56) -/
def fetchBundle (s : State) (w : Who) (x : Arch) : Fetched :=
  let p := bankBase w.home + x.pc
  let at_ := fun n => Fetched.fault ⟨n, x.pc, finfo false true false false 4 0, false⟩
  if 0x7FFC < x.pc then at_ 6
  else if memHeld s p then .hold
  else
    match bundleWord s w x.pc with
    | none => at_ 6
    | some v =>
      if !granted s w.home x.pc x.priv 0 then at_ 7
      else
        match decodeBundle v with
        | .undef => .fault (Exc.plain 3)
        | .illegal => .fault (Exc.plain 4)
        | .ops xs =>
          if xs.any (fun o => o.row == .rep || o.row == .repi) && repForbidden s w (x.pc + 4) then .fault (Exc.plain 4)
          else .ops xs

/-- The read of the fetch itself, with its corrections and errors (R220, R297, R300). -/
def fetchTouch (w : Who) (x : Arch) (s : State) : State :=
  if 0x7FFC < x.pc then s else (touchWord w.home w.home (bankBase w.home + x.pc) 2 2 false .none s).1

/-! ## What a commit boundary is wanted for (R259, R263, R266 to R272) -/

/-- BINDEV is due and can be raised: the FIB is not current, the members run or are in WAIT, and no other exception
waits for their next boundary. (DEDUCED, log 206) -/
def bindevDue (s : State) (q b : Nat) : Bool :=
  let e := eng q (nthD 0 (slotMembers s q b) 0)
  (bindOf s q b).bindev && (engOf s e).arch.bank != 4 && decide (engState s e < 2) && (engOf s e).due.isNone

/-- Slot t, the shadow of a HANDOVER, is to be held: the slot whose command names it (R269). -/
def shadowOf (s : State) (q t : Nat) : Bool :=
  (List.range 6).any fun a => (bindOf s q a).cmd == 4 && (bindOf s q a).arg == t

/-- Shedding acts at the next boundary of slot b: it parks, releases its third member, or takes it back (R270). -/
def shedWants (s : State) (q b : Nat) : Bool :=
  let y := bindOf s q b
  let st := bindState s q b
  let n := (slotMembers s q b).length
  if 5 ≤ shed s then st != 7 && y.copyTo == 0
  else if shed s = 4 then slotTriad b && st == 2 && n == 3
  else y.shedOut != 0 && st == 2 && decide (n < (slotEngines b).length) && engineFree s q (y.shedOut - 1)

/-- The binding controller holds the leader of slot b until the others close up (R263). -/
def wantsBoundary (s : State) (q b : Nat) : Bool :=
  let y := bindOf s q b
  (y.copyTo != 0 && y.pass1) || y.cmd == 2 || y.cmd == 5 || (y.cmd == 4 && (bindOf s q y.arg).hold) ||
    (shadowOf s q b && !y.hold) || bindevDue s q b || shedWants s q b

/-! ## When an engine may go on (R247, R251, R256, R399) -/

/-- An engine that issues nothing more until something outside it happens: a stop it has retired, a full retire
buffer, its compare buffer, or the binding controller. (DEDUCED, log 73) -/
def engineStopped (s : State) (e : Nat) : Bool :=
  let y := engOf s e
  engState s e != 0 || y.stuck || y.held || decide (6 ≤ y.buf.length) ||
    y.buf.any (fun r => r.stop != 0 || r.ops.any (·.code))

/-- The binding controller holds the leader of slot b at the boundary that is wanted: no REP runs, its code-write
buffer is empty, and it has replayed what it had to (R248, R259, R263). (DEDUCED, log 74) -/
def leaderHeld (s : State) (q b : Nat) : Bool :=
  let y := engOf s (eng q (nthD 0 (slotMembers s q b) 0))
  wantsBoundary s q b && y.arch.rkind != 1 && y.arch.rkind != 3 && y.arch.cwb.isEmpty && y.fifo.isEmpty

/-- The member at position p of slot b is held: stopped, held by the controller, or closed up to one ahead that is
(R247). -/
def memberHeld (s : State) (q b : Nat) : Nat → Bool
  | 0 => engineStopped s (eng q (nthD 0 (slotMembers s q b) 0)) || leaderHeld s q b
  | p + 1 =>
    let e := eng q (nthD 0 (slotMembers s q b) (p + 1))
    let ahead := eng q (nthD 0 (slotMembers s q b) p)
    engineStopped s e || (memberHeld s q b p && (engOf s e).cnt == (engOf s ahead).cnt)

/-- The stagger allows the engine's next bundle: the member ahead is three bundles on, or held and not overtaken; the
leader goes on while the controller does not hold it (R247, R263). (DEDUCED, log 60, 73) -/
def staggerAllows (s : State) (w : Who) : Bool :=
  match w.slot with
  | none => decide (shed s < 5)
  | some b =>
    let q := w.e / 8
    let y := engOf s w.e
    if w.pos = 0 then !leaderHeld s q b
    else
      let i := eng q (nthD 0 (slotMembers s q b) (w.pos - 1))
      decide (y.cnt + 3 ≤ (engOf s i).cnt) || (decide (y.cnt < (engOf s i).cnt) && memberHeld s q b (w.pos - 1))

/-- The binding lets its members go on: it is running and not held at a boundary. -/
def bindingRuns (s : State) (w : Who) : Bool :=
  match w.slot with
  | none => true
  | some b =>
    let st := bindState s (w.e / 8) b
    (st == 2 || st == 3 || st == 4 || st == 5) && !(bindOf s (w.e / 8) b).hold

/-- Engine w may take its next step apart from its inputs. -/
def mayStep (s : State) (w : Who) : Bool :=
  let y := engOf s w.e
  alive s && engState s w.e == 0 && !y.held && decide (y.buf.length < 6) &&
    !y.buf.any (fun r => r.stop != 0 || r.ops.any (·.code)) && bindingRuns s w && staggerAllows s w

/-- An interrupt or a wake that the engine has to take again stands before its next bundle (R248). -/
def eventDue (s : State) (w : Who) : Bool :=
  let y := engOf s w.e
  match y.fifo with
  | .irq _ n :: _ => n == y.cnt
  | .wake n :: _ => n == y.cnt
  | _ => false

/-- An exception that is no bundle's stands before the engine's next bundle: its own or, in a binding, the one that
the leader took or has to take (R38, R248). (DEDUCED, log 199) -/
def excDue (s : State) (w : Who) : Bool :=
  let y := engOf s w.e
  match y.fifo with
  | .exc _ _ _ n :: _ => n == y.cnt
  | _ :: _ => false
  | [] => w.leads && y.due.isSome

/-- Engine w takes that exception as an input; none where it waits (R248). (DEDUCED, log 206) -/
def excInput (w : Who) (s : State) : Option (State × Exc) :=
  let y := engOf s w.e
  let (n, a, i) := y.due.getD (0, 0, 0)
  match takeInput w (fun s => (updEng w.e (fun z => { z with due := none }) s, .exc n a i y.cnt)) s with
  | some (s, .exc n a i _) => some (s, ⟨n, a, i, false⟩)
  | _ => none

/-! ## Retiring (R212, R216, R232, R241, R250, R251) -/

/-- BD_ESTAT shows state x (R221). -/
def showArch (e : Nat) (x : Arch) (s : State) : State :=
  let a := Reg.BD_ESTAT (e / 8) (e % 8)
  s |> setFlag a Fld.BD_ESTAT_DF x.df |> setFld a Fld.BD_ESTAT_IPL x.ipl |> setFld a Fld.BD_ESTAT_BANK x.bank
    |> setFld a Fld.BD_ESTAT_PRIV x.priv

/-- The number of a double fault's or LOCKOUT's original exception is shown; 0 stands for none (R221). -/
def showCause (e n : Nat) (s : State) : State :=
  if n = 0 then s else setFld (Reg.BD_ESTAT (e / 8) (e % 8)) Fld.BD_ESTAT_CAUSE n s

/-- Engine e enters LOCKOUT: an F-class fault with first-error capture (R232, R374). (DEDUCED, log 77) -/
def enterLockout (e n pc : Nat) (s : State) : State :=
  s |> stopEngine e 3 |> showCause e n
    |> report { src := 0x18, event := 1, cls := 3, unit := e, detail := n,
                fec := some { addr := pc, master := e, type := 2, size := 2, kind := 0 } }

/-- Engine e makes the stop of an effect. -/
def makeStop (e stop cause pc : Nat) (s : State) : State :=
  match stop with
  | 1 => setEngState e 1 s
  | 2 => stopEngine e 2 s
  | 3 => enterLockout e cause pc s
  | _ => s

/-- An exception number plus 1 that leaves its bundle retired: none, or a TRAP (R212). (DEDUCED, log 78) -/
def retires (exc : Nat) : Bool := exc == 0 || (decide (17 ≤ exc) && decide (exc ≤ 32))

/-- A single engine's state becomes that of effect y. -/
def takeEff (e : Nat) (y : Eff) (s : State) : State :=
  updEng e (fun z => { z with arch := y.x, base := y.x, loads := z.loads ++ y.loads,
                              long := if y.long.isSome then y.long else z.long }) s

/-- The spine records the writes that it refuses to the engine whose home is given (R38). -/
def reportRefused (home : Nat) (ps : List (Nat × Nat)) (s : State) : State :=
  forAll ps (fun p s => accessError home p.1 1 p.2 1 s) s

/-- A single engine's effect takes place: its state, then its writes in order; the result tells how many writes were
performed when one failed (R212, R299). pc is the bundle, exc the exception it raised plus 1. -/
def retireSingle (w : Who) (pc exc : Nat) (y : Eff) (s : State) : State × Option Nat :=
  match performOps w.home y.upset y.ops (takeEff w.e y (reportRefused w.home y.refused s)) with
  | (s, n, true) => (s, some n)
  | (s, _, false) =>
    let s := updEng w.e (fun z => { z with stores := z.stores + acked w.home y.ops }) s
    let s := if retires exc then showEpc w.e pc s else s
    (s |> showCause w.e y.cause |> makeStop w.e y.stop y.cause pc |> showEngine w.e, none)

/-- A member's effect becomes its next commit record (R250, R251); stuck where it would need a fifth compare-buffer
entry. (DEDUCED, log 76) -/
def retireMember (w : Who) (pc exc irq : Nat) (y : Eff) (s0 s : State) : State :=
  if !y.ops.isEmpty && decide (4 ≤ ((engOf s0 w.e).buf.filter fun r => !r.ops.isEmpty).length) then
    updEng w.e (fun z => { z with stuck := true }) s0
  else
    updEng w.e (fun z => { z with
      arch := y.x, cnt := z.cnt + 1, stuck := false,
      buf := z.buf ++ [{ pc := pc, post := y.x, ops := y.ops, exc := exc, stop := y.stop, cause := y.cause,
                         irq := irq, refused := y.refused }] }) s

/-- Effect y of a bundle or an entry takes place; s0 is the state before it. -/
def retire (w : Who) (pc exc irq : Nat) (y : Eff) (s0 s : State) : State :=
  if w.slot.isNone then (retireSingle w pc exc y s).1 else retireMember w pc exc irq y s0 s

/-! ## A bundle (R187 to R242) -/

/-- The engine has results on their way, which an entry waits for (R202, R212). -/
def resultsPending (s : State) (e : Nat) : Bool := !(engOf s e).loads.isEmpty || (engOf s e).long.isSome

/-- Exception c raised by the bundle at pc in state y.x is taken; what y had done for good stays. -/
def takeException (w : Who) (c : Exc) (pc : Nat) (y : Eff) (s0 s : State) : Option State :=
  if resultsPending s0 w.e then none
  else
    match enterException w y.x c (if c.next then pc + 4 else pc) 0 s with
    | some (s, z) => some (retire w pc (c.num + 1) 0 { z with
        ops := y.ops ++ z.ops, refused := y.refused ++ z.refused } s0 s)
    | none => none

/-- An exception that is no bundle's is taken before the next bundle; between REPI repetitions its frame holds repeat
kind 2, as an interrupt's does (R226). (DEDUCED, log 199) -/
def takeDue (w : Who) (c : Exc) (x : Arch) (s0 s : State) : Option State :=
  if resultsPending s0 w.e then none
  else
    match enterException w x c x.pc (if x.rkind = 2 then 2 else 0) s with
    | some (s, z) => some (retire w x.pc (c.num + 1) 0 z s0 s)
    | none => none

/-- The address of spine address a as the engine itself names it (R33). -/
def Who.localAddr (w : Who) (a : Nat) : Nat := if w.owns a then a - bankBase w.home else a

/-- The BUS exception of the write o of a bundle's operations xs, which was aborted or refused as it was made: the
high part of a split store has its low part written (R217, R218, R225). (DEDUCED, log 61) -/
def abortFault (w : Who) (x : Arch) (xs : List Op) (o : MemOp) : Exc :=
  let cause := if (bankOf o.addr).isSome then 2 else 1
  match xs.find? (fun o => match o with | .store .. => true | _ => false) with
  | some (.store wd _ a ofs _) =>
    let p := memAddr x a ofs
    match accessParts p wd.bytes with
    | [lo, hi] =>
      if o.addr = spineAddr w.home hi.addr then ⟨9, hi.addr, finfo true false true true wd.bytes 4, false⟩
      else ⟨9, lo.addr, finfo true false false false wd.bytes cause, false⟩
    | _ => ⟨9, p, finfo true false false false wd.bytes cause, false⟩
  | _ => ⟨9, w.localAddr o.addr, finfo true false false false o.size cause, false⟩

/-- The state in which exception c of an aborted write is taken: that before the bundle, with the low part of a split
store where that part entered the code-write buffer (R218). -/
def abortState (x : Arch) (cwb : List CodeWrite) (c : Exc) : Arch :=
  if bitAt c.info 28 then { x with cwb := cwb } else x

/-- A single engine's bundle retires, or the write it makes is aborted: then nothing else of it takes place and BUS is
raised (R212, R218, R299). (DEDUCED, log 70) -/
def finishSingle (w : Who) (x : Arch) (xs : List Op) (y : Eff) (s : State) : Option State :=
  match retireSingle w x.pc 0 y s with
  | (s, none) => some s
  | (t, some n) =>
    let e := engOf s w.e
    let t := updEng w.e (fun _ => e) t
    let c := abortFault w x xs (nthD ⟨0, 0, 1, false⟩ y.ops n)
    takeException w c x.pc (Eff.at (abortState x y.x.cwb c)) t t

/-- The bundle xs of engine w in state s0, whose fetch leaves s; none where it waits. -/
def runBundle (w : Who) (u : Upset) (xs : List Op) (s0 s : State) : Option State :=
  let x := (engOf s0 w.e).arch
  if xs.any (waits s0 w x) then none
  else
    match bundleEffect w x u xs s with
    | none => none
    | some (s, y, some c) => takeException w c x.pc y s0 s
    | some (s, y, none) =>
      if w.slot.isNone then finishSingle w x xs y s else some (retireMember w x.pc 0 0 y s0 s)

/-- A member waits where it is stopped at its own doing: a leader without room for an input, or FENCE (R203, R248). -/
def waitsItself (s : State) (w : Who) (xs : List Op) : Bool :=
  w.slot.isSome && ((w.leads && !(w.fifosFree s && w.logFree s)) || xs.any (fun o => o.row == .fence))

/-- The engine waits: nothing changes but that those behind it may close up (R247). (DEDUCED, log 73) -/
def standStill (w : Who) (xs : List Op) (s : State) : State :=
  if waitsItself s w xs then updEng w.e (fun z => { z with stuck := true }) s else s

/-- The next bundle of engine w in its state x under row r: its fetch, and what it does. -/
def nextBundle (r : Row) (w : Who) (x : Arch) (u : Upset) (s : State) : State :=
  match fetchBundle s w x with
  | .hold => s
  | .fault c => (takeException w c x.pc (Eff.at x) s (fetchTouch w x s)).getD (standStill w [] s)
  | .ops xs => if spells r xs then (runBundle w u xs s (fetchTouch w x s)).getD (standStill w xs s) else s

/-- One bundle of engine e under row r of the operation table: it acts where the engine's next bundle spells the row,
or raises an exception before it does, that of an earlier write of its own first (R38, R218). u is what the arrays
show the data of a load, or the read half of a store. (DEDUCED, log 199; DESIGN CHOICE, log 56) -/
def engineStep (r : Row) (e : Nat) (u : Upset) (s : State) : State :=
  let w := whoOf s e
  if !mayStep s w || eventDue s w then s
  else
    let x := (engOf s e).arch
    if excDue s w then
      match excInput w s with
      | some (t, c) => (takeDue w c x s t).getD (standStill w [] s)
      | none => s
    else nextBundle r w x u s

/-! ## The rows of the operation table (R207, R208) -/

/-- NOP (R207, R208). -/
def execNop (e : Fin 128) (s : State) : Out := live true s (engineStep .nop e.val .none s)
/-- MOV (R207, R208). -/
def execMov (e : Fin 128) (s : State) : Out := live true s (engineStep .mov e.val .none s)
/-- NEG (R198, R207, R208). -/
def execNeg (e : Fin 128) (s : State) : Out := live true s (engineStep .neg e.val .none s)
/-- ABS (R198, R207, R208). -/
def execAbs (e : Fin 128) (s : State) : Out := live true s (engineStep .abs e.val .none s)
/-- NOT (R207, R208). -/
def execNot (e : Fin 128) (s : State) : Out := live true s (engineStep .not e.val .none s)
/-- ADD (R198, R207, R208). -/
def execAdd (e : Fin 128) (s : State) : Out := live true s (engineStep .add e.val .none s)
/-- ADDS (R198, R207, R208). -/
def execAdds (e : Fin 128) (s : State) : Out := live true s (engineStep .adds e.val .none s)
/-- SUB (R198, R207, R208). -/
def execSub (e : Fin 128) (s : State) : Out := live true s (engineStep .sub e.val .none s)
/-- SUBS (R198, R207, R208). -/
def execSubs (e : Fin 128) (s : State) : Out := live true s (engineStep .subs e.val .none s)
/-- AND (R207, R208). -/
def execAnd (e : Fin 128) (s : State) : Out := live true s (engineStep .and e.val .none s)
/-- OR (R207, R208). -/
def execOr (e : Fin 128) (s : State) : Out := live true s (engineStep .or e.val .none s)
/-- XOR (R207, R208). -/
def execXor (e : Fin 128) (s : State) : Out := live true s (engineStep .xor e.val .none s)
/-- ANDN (R207, R208). -/
def execAndn (e : Fin 128) (s : State) : Out := live true s (engineStep .andn e.val .none s)
/-- SHL (R198, R207, R208). -/
def execShl (e : Fin 128) (s : State) : Out := live true s (engineStep .shl e.val .none s)
/-- SHR (R198, R207, R208). -/
def execShr (e : Fin 128) (s : State) : Out := live true s (engineStep .shr e.val .none s)
/-- SAR (R198, R207, R208). -/
def execSar (e : Fin 128) (s : State) : Out := live true s (engineStep .sar e.val .none s)
/-- SHLS (R198, R207, R208). -/
def execShls (e : Fin 128) (s : State) : Out := live true s (engineStep .shls e.val .none s)
/-- ROR (R198, R207, R208). -/
def execRor (e : Fin 128) (s : State) : Out := live true s (engineStep .ror e.val .none s)
/-- MIN (R207, R208). -/
def execMin (e : Fin 128) (s : State) : Out := live true s (engineStep .min e.val .none s)
/-- MAX (R207, R208). -/
def execMax (e : Fin 128) (s : State) : Out := live true s (engineStep .max e.val .none s)
/-- MINU (R207, R208). -/
def execMinu (e : Fin 128) (s : State) : Out := live true s (engineStep .minu e.val .none s)
/-- MAXU (R207, R208). -/
def execMaxu (e : Fin 128) (s : State) : Out := live true s (engineStep .maxu e.val .none s)
/-- SLT (R207, R208). -/
def execSlt (e : Fin 128) (s : State) : Out := live true s (engineStep .slt e.val .none s)
/-- SLTU (R207, R208). -/
def execSltu (e : Fin 128) (s : State) : Out := live true s (engineStep .sltu e.val .none s)
/-- MULLO (R200). -/
def execMullo (e : Fin 128) (s : State) : Out := live true s (engineStep .mullo e.val .none s)
/-- CMP (R196). -/
def execCmp (e : Fin 128) (s : State) : Out := live true s (engineStep .cmp e.val .none s)
/-- TST (R196). -/
def execTst (e : Fin 128) (s : State) : Out := live true s (engineStep .tst e.val .none s)
/-- ADDI (R198, R207, R208). -/
def execAddi (e : Fin 128) (s : State) : Out := live true s (engineStep .addi e.val .none s)
/-- ANDI (R207, R208). -/
def execAndi (e : Fin 128) (s : State) : Out := live true s (engineStep .andi e.val .none s)
/-- ORI (R207, R208). -/
def execOri (e : Fin 128) (s : State) : Out := live true s (engineStep .ori e.val .none s)
/-- XORI (R207, R208). -/
def execXori (e : Fin 128) (s : State) : Out := live true s (engineStep .xori e.val .none s)
/-- MOVI (R207, R208). -/
def execMovi (e : Fin 128) (s : State) : Out := live true s (engineStep .movi e.val .none s)
/-- SHLI (R207, R208). -/
def execShli (e : Fin 128) (s : State) : Out := live true s (engineStep .shli e.val .none s)
/-- SHRI (R207, R208). -/
def execShri (e : Fin 128) (s : State) : Out := live true s (engineStep .shri e.val .none s)
/-- SARI (R207, R208). -/
def execSari (e : Fin 128) (s : State) : Out := live true s (engineStep .sari e.val .none s)
/-- CMPI (R196). -/
def execCmpi (e : Fin 128) (s : State) : Out := live true s (engineStep .cmpi e.val .none s)
/-- MOVL (R207, R208). -/
def execMovl (e : Fin 128) (s : State) : Out := live true s (engineStep .movl e.val .none s)
/-- MOVH (R207, R208). -/
def execMovh (e : Fin 128) (s : State) : Out := live true s (engineStep .movh e.val .none s)
/-- SATS (R198, R207, R208). -/
def execSats (e : Fin 128) (s : State) : Out := live true s (engineStep .sats e.val .none s)
/-- LDW (R207, R208, R217). -/
def execLdw (e : Fin 128) (u : Upset) (s : State) : Out := live true s (engineStep .ldw e.val u s)
/-- LDH (R207, R208, R217). -/
def execLdh (e : Fin 128) (u : Upset) (s : State) : Out := live true s (engineStep .ldh e.val u s)
/-- LDHU (R207, R208, R217). -/
def execLdhu (e : Fin 128) (u : Upset) (s : State) : Out := live true s (engineStep .ldhu e.val u s)
/-- LDB (R207, R208, R217). -/
def execLdb (e : Fin 128) (u : Upset) (s : State) : Out := live true s (engineStep .ldb e.val u s)
/-- LDBU (R207, R208, R217). -/
def execLdbu (e : Fin 128) (u : Upset) (s : State) : Out := live true s (engineStep .ldbu e.val u s)
/-- STW (R207, R208, R217). -/
def execStw (x : Storing) (s : State) : Out := live true s (engineStep .stw x.e.val x.u s)
/-- STH (R207, R208, R217). -/
def execSth (x : Storing) (s : State) : Out := live true s (engineStep .sth x.e.val x.u s)
/-- STB (R207, R208, R217). -/
def execStb (x : Storing) (s : State) : Out := live true s (engineStep .stb x.e.val x.u s)
/-- MUL (R200). -/
def execMul (e : Fin 128) (s : State) : Out := live true s (engineStep .mul e.val .none s)
/-- MAC (R200). -/
def execMac (e : Fin 128) (s : State) : Out := live true s (engineStep .mac e.val .none s)
/-- MSU (R200). -/
def execMsu (e : Fin 128) (s : State) : Out := live true s (engineStep .msu e.val .none s)
/-- MULU (R200). -/
def execMulu (e : Fin 128) (s : State) : Out := live true s (engineStep .mulu e.val .none s)
/-- MACU (R200). -/
def execMacu (e : Fin 128) (s : State) : Out := live true s (engineStep .macu e.val .none s)
/-- MFP (R201). -/
def execMfp (e : Fin 128) (s : State) : Out := live true s (engineStep .mfp e.val .none s)
/-- MTP (R200). -/
def execMtp (e : Fin 128) (s : State) : Out := live true s (engineStep .mtp e.val .none s)
/-- DIVS (R199). -/
def execDivs (e : Fin 128) (s : State) : Out := live true s (engineStep .divs e.val .none s)
/-- DIVU (R199). -/
def execDivu (e : Fin 128) (s : State) : Out := live true s (engineStep .divu e.val .none s)
/-- DIVQ (R199). -/
def execDivq (e : Fin 128) (s : State) : Out := live true s (engineStep .divq e.val .none s)
/-- REMS (R199). -/
def execRems (e : Fin 128) (s : State) : Out := live true s (engineStep .rems e.val .none s)
/-- REMU (R199). -/
def execRemu (e : Fin 128) (s : State) : Out := live true s (engineStep .remu e.val .none s)
/-- SQRTU (R199). -/
def execSqrtu (e : Fin 128) (s : State) : Out := live true s (engineStep .sqrtu e.val .none s)
/-- SQRTQ (R199). -/
def execSqrtq (e : Fin 128) (s : State) : Out := live true s (engineStep .sqrtq e.val .none s)
/-- B (R197). -/
def execB (e : Fin 128) (s : State) : Out := live true s (engineStep .b e.val .none s)
/-- CALL (R207, R208). -/
def execCall (e : Fin 128) (s : State) : Out := live true s (engineStep .call e.val .none s)
/-- CALLW (R193, R234). -/
def execCallw (e : Fin 128) (s : State) : Out := live true s (engineStep .callw e.val .none s)
/-- JR (R207, R208). -/
def execJr (e : Fin 128) (s : State) : Out := live true s (engineStep .jr e.val .none s)
/-- CALLR (R207, R208). -/
def execCallr (e : Fin 128) (s : State) : Out := live true s (engineStep .callr e.val .none s)
/-- RET (R207, R208). -/
def execRet (e : Fin 128) (s : State) : Out := live true s (engineStep .ret e.val .none s)
/-- RETW (R193, R234). -/
def execRetw (e : Fin 128) (s : State) : Out := live true s (engineStep .retw e.val .none s)
/-- REP (R205). -/
def execRep (e : Fin 128) (s : State) : Out := live true s (engineStep .rep e.val .none s)
/-- REPI (R205). -/
def execRepi (e : Fin 128) (s : State) : Out := live true s (engineStep .repi e.val .none s)
/-- MFS (R195). -/
def execMfs (e : Fin 128) (s : State) : Out := live true s (engineStep .mfs e.val .none s)
/-- MTS (R195). -/
def execMts (e : Fin 128) (s : State) : Out := live true s (engineStep .mts e.val .none s)
/-- FENCE (R203). -/
def execFence (e : Fin 128) (s : State) : Out := live true s (engineStep .fence e.val .none s)
/-- FLUSH_I (R215). -/
def execFlushI (e : Fin 128) (s : State) : Out := live true s (engineStep .flushI e.val .none s)
/-- WAIT (R236). -/
def execWait (e : Fin 128) (s : State) : Out := live true s (engineStep .wait e.val .none s)
/-- HALT (R241). -/
def execHalt (e : Fin 128) (s : State) : Out := live true s (engineStep .halt e.val .none s)
/-- TRAP (R208, R227). -/
def execTrap (e : Fin 128) (s : State) : Out := live true s (engineStep .trap e.val .none s)
/-- RETX (R229). -/
def execRetx (e : Fin 128) (s : State) : Out := live true s (engineStep .retx e.val .none s)
/-- SWITCH (R241). -/
def execSwitch (e : Fin 128) (s : State) : Out := live true s (engineStep .switch e.val .none s)
/-- SAVECTX (R239, R240). -/
def execSavectx (e : Fin 128) (s : State) : Out := live true s (engineStep .savectx e.val .none s)
/-- LOADCTX (R239, R240). -/
def execLoadctx (e : Fin 128) (s : State) : Out := live true s (engineStep .loadctx e.val .none s)

/-! ## Results that return later (R14, R202, R203) -/

/-- A pending result is written to its place. (DEDUCED, log 57) -/
def landResult (e p v : Nat) (sat : Bool) (s : State) : State :=
  updEng e (fun z => let x := (z.arch.setAt p v).satIf sat; { z with arch := x, base := x }) s

/-- The long-operation unit finishes (R203). (DEDUCED, log 77) -/
def longComplete (e : Nat) (s : State) : State :=
  match (engOf s e).long with
  | some (p, v, b) => updEng e (fun z => { z with long := none }) (landResult e p v b s)
  | none => s

/-- The oldest load's data returns (R202). (DEDUCED, log 59) -/
def loadReturn (e : Nat) (s : State) : State :=
  match (engOf s e).loads with
  | (p, v) :: rest => updEng e (fun z => { z with loads := rest }) (landResult e p v false s)
  | [] => s

/-- A spine store is acknowledged (R14). -/
def storeDone (e : Nat) (s : State) : State := updEng e (fun z => { z with stores := z.stores - 1 }) s

/-- LONG_OP_COMPLETE (R203). -/
def execLongOpComplete (e : Fin 128) (s : State) : Out := live true s (longComplete e.val s)
/-- LOAD_DATA_RETURN (R202). -/
def execLoadDataReturn (e : Fin 128) (s : State) : Out := live true s (loadReturn e.val s)
/-- STORE_ACK (R14). -/
def execStoreAck (e : Fin 128) (s : State) : Out := live true s (storeDone e.val s)

/-! ## Interrupts and WAIT (R228, R233 to R236, R248) -/

/-- PRI and FAST of the descriptor of line m, as its word stands in memory (R224). -/
def linePri (s : State) (w : Who) (x : Arch) (m : Nat) : Nat × Bool :=
  let v := memValue s (bankBase w.home + x.dtAddr + 16 * (32 + m) + 8) 4
  (slice v 25 24, bitAt v 30)

/-- The lines that are pending and enabled at the home engine (R235). -/
def linesPending (s : State) (w : Who) : List Nat :=
  let q := w.home / 8
  let i := w.home % 8
  ones 32 (rd s (Reg.BD_IPEND q i) &&& rd s (Reg.BD_IEN q i))

/-- The line that is taken: PRI above the level, or FAST; the highest PRI first, then the lowest line (R236). -/
def lineToTake (s : State) (w : Who) (x : Arch) : Option Nat :=
  let ms := (linesPending s w).filter fun m =>
    let p := linePri s w x m
    decide (x.ipl < p.1) || p.2
  ms.foldl (fun best m =>
    match best with
    | some b => if (linePri s w x b).1 < (linePri s w x m).1 then some m else some b
    | none => some m) none

/-- The interrupt that engine w takes at this boundary: the world's, or the one it has to take again; the result tells a
line taken from the world (R236, R248). -/
def interruptInput (w : Who) (x : Arch) (s : State) : Option (State × Nat × Bool) :=
  let n := (engOf s w.e).cnt
  match (engOf s w.e).fifo with
  | .irq _ k :: _ =>
    if k = n then
      match takeInput w (fun s => (s, .data 0)) s with
      | some (s, .irq m _) => some (s, m, false)
      | _ => none
    else none
  | _ :: _ => none
  | [] =>
    if !w.leads then none
    else
      match lineToTake s w x with
      | none => none
      | some m =>
        match takeInput w (fun s => (s, .irq m n)) s with
        | some (s, _) => some (s, m, true)
        | none => none

/-- An interrupt is taken at this bundle boundary where it may be: no REP running, the FIB not current, and nothing on
its way (R205, R228, R236). (DEDUCED, log 65; DESIGN CHOICE, log 68) -/
def takeInterrupt (w : Who) (s0 : State) : Option State :=
  let x := (engOf s0 w.e).arch
  if x.rkind = 1 ∨ x.rkind = 3 ∨ x.bank = 4 ∨ resultsPending s0 w.e = true ∨ excDue s0 w = true then none
  else
    match interruptInput w x s0 with
    | none => none
    | some (s, m, world) =>
      match enterException w x (Exc.plain (32 + m)) x.pc x.rkind s with
      | none => none
      | some (s, y) =>
        let s := if world && y.cause == 0 then lowerWord (Reg.BD_IPEND (w.home / 8) (w.home % 8)) (2 ^ m) s else s
        some (retire w x.pc (33 + m) (m + 1) y s0 s)

/-- INTERRUPT_TAKEN (R228). -/
def interruptTaken (e : Nat) (s : State) : State :=
  let w := whoOf s e
  if mayStep s w then (takeInterrupt w s).getD s else s

/-- INTERRUPT_TAKEN (R228). -/
def execInterruptTaken (e : Fin 128) (s : State) : Out := live true s (interruptTaken e.val s)

/-- A member or single engine leaves WAIT, as an input of its binding: a follower once its own WAIT has committed (R236,
R248, R250); none where it does not. -/
def wakeInput (w : Who) (s : State) : Option State :=
  let n := (engOf s w.e).cnt
  match (engOf s w.e).fifo with
  | .wake k :: _ => if k = n ∧ engState s w.e = 1 then (takeInput w (fun s => (s, .wake n)) s).map (·.1) else none
  | _ :: _ => none
  | [] =>
    if w.leads && engState s w.e == 1 && (engOf s w.e).buf.isEmpty && !(linesPending s w).isEmpty then
      (takeInput w (fun s => (s, .wake n)) s).map (·.1)
    else none

/-- WAIT ends: execution goes on, and the interrupt is taken where R236 allows it. -/
def wakeEngine (e : Nat) (s : State) : State :=
  let w := whoOf s e
  if alive s && (w.slot.isSome || decide (shed s < 5)) && decide (engState s e < 2) && !(engOf s e).held &&
    bindingRuns s w then
    match wakeInput w s with
    | some t =>
      let t := setEngState e 0 t
      if staggerAllows t w then (takeInterrupt w t).getD t else t
    | none => s
  else s

/-- WAIT_WAKE (R236). -/
def execWaitWake (e : Fin 128) (s : State) : Out := live true s (wakeEngine e.val s)

end Sys2Proof.Machine
end

