-- ==== Sys2Proof/Machine/Compare.lean ====
section
/-! DEFINITION. The binding controller at work: comparing commit records, committing them, mismatches, and what takes
place at a commit boundary (R250 to R258, R263 to R273). -/

namespace Sys2Proof.Machine

/-! ## Commit (R253, R268) -/

/-- A write of the binding takes place, or is aborted; in a shadow one that is not to memory is discarded and counted
(R253, R268). The result tells whether it took place; u is what the array shows its read half (R299). (DEDUCED, log
240) -/
def commitOp (q b home : Nat) (o : MemOp) (u : Upset) (s : State) : State × Bool :=
  if flag s (Reg.BD_BCTL q b) Fld.BD_BCTL_MUTE && (bankOf o.addr).isNone then
    (incFld (Reg.BD_BCNT q b) Fld.BD_BCNT_MUTED s, true)
  else
    let (s, ok) := performOp home o u s
    (if bankOf o.addr = some home then s else updEng home (fun z => { z with stores := z.stores + 1 }) s, ok)

/-- The writes of a record take place in order, up to the first that is aborted; u is for the first that goes to
memory (R253, R299). (DEDUCED, log 240) -/
def commitOps (q b home : Nat) : List MemOp → Upset → State → State × Option MemOp
  | [], _, s => (s, none)
  | o :: os, u, s =>
    match commitOp q b home o u s with
    | (s, true) => commitOps q b home os (if (bankOf o.addr).isNone then u else .none) s
    | (s, false) => (s, some o)

/-- Member i's oldest record becomes its committed state (R253). -/
def commitMember (q : Nat) (r : Rec) (i : Nat) (s : State) : State :=
  let e := eng q i
  let s := updEng e (fun z => { z with base := r.post, buf := z.buf.drop 1, stuck := false }) s
  let s := if retires r.exc then showEpc e r.pc s else s
  showCause e r.cause (showArch e r.post s)

/-- A retry that has committed everything its leader had retired before the mismatch succeeds (R254). -/
def settleRetry (q b : Nat) (s : State) : State :=
  let y := bindOf s q b
  if y.retryTo ≠ 0 ∧ y.retryTo ≤ y.done + 1 then
    s |> updBind q b (fun y => { y with retryTo := 0 }) |> setBindState q b (if y.copyTo = 0 then 2 else 4)
      |> incFld (Reg.BD_BCNT q b) Fld.BD_BCNT_MISM |> bindEvent q b 1 (nthD 0 (slotMembers s q b) 0)
  else s

/-- The operations of the bundle that record r retired, in the committed state before it. -/
def recordOps (s : State) (w : Who) (r : Rec) : List Op :=
  if r.exc ≠ 0 then [] else (bundleWord s w r.pc).elim [] slotOps

/-- Write o of record r was aborted: the bundle takes place in no member, what they have retired is discarded, and the
leader takes the bus error in its place as an input (R212, R218, R248, R299). (DEDUCED, log 70) -/
def abortRecord (q b : Nat) (r : Rec) (o : MemOp) (s : State) : State :=
  let ms := slotMembers s q b
  let w := whoOf s (eng q (nthD 0 ms 0))
  let c := abortFault w (engOf s w.e).base (recordOps s w r) o
  let s := s |> updBind q b (fun y => { y with log := [] }) |> replayBinding q b
  s |> forAll ms (fun i => updEng (eng q i) (eachArch fun x => abortState x r.post.cwb c))
    |> updEng w.e (fun z => { z with due := some (c.num, c.addr, c.info) })

/-- Record r commits in the members ms of slot b, which hold it; late where a third has still to retire the bundle
(R253). (DEDUCED, log 70) -/
def commitRecord (q b : Nat) (ms : List Nat) (late : Bool) (r : Rec) (u : Upset) (s : State) : State :=
  let home := eng q (fld s (Reg.BD_BSTAT q b) Fld.BD_BSTAT_HOME)
  match commitOps q b home r.ops u s with
  | (s, some o) => abortRecord q b r o s
  | (s, none) =>
    s |> reportRefused home r.refused |> forAll ms (commitMember q r)
      |> updBind q b (fun y => { y with
          done := y.done + 1, log := y.log.filter fun v => decide (y.done < v.1),
          past := if late then y.past ++ [r] else y.past })
      |> forAll ms (fun i => makeStop (eng q i) r.stop r.cause r.pc)
      |> settleRetry q b

/-! ## Comparison (R250 to R258) -/

/-- A member's record as the controller sees it: what it is, and whether a fault in the member has altered it. -/
structure Vote where
  member : Nat
  record : Rec
  altered : Bool
  deriving DecidableEq, Repr

/-- Two records are equal (R252). -/
def Vote.same (x y : Vote) : Bool := !x.altered && !y.altered && x.record == y.record

/-- The vote of the member at position p of slot b, if it holds a record. (DESIGN CHOICE, log 75) -/
def voteAt (s : State) (q b : Nat) (d : Nat → Bool) (p : Nat) : Option Vote :=
  let ms := slotMembers s q b
  let i := nthD 0 ms p
  if ms.length ≤ p then none else (engOf s (eng q i)).buf.head?.map fun r => ⟨i, r, d p⟩

/-- Address a is a control output: a write to an LU_ or PW_ block or to the EVT outputs (R250). -/
def controlOutput (a : Nat) : Bool :=
  isRegister a && decide (a < 0x20000000) &&
    (a % 0x1000000 / 0x10000 == 0x80 || a % 0x1000000 / 0x10000 == 0x81 ||
      (a % 0x1000000 / 0x10000 == 0x85 && decide (0x180 ≤ a % 0x10000 ∧ a % 0x10000 < 0x188)))

/-- The writes of a record that KIND k of BD_BLAST names: 2 stores, 3 spine writes, 4 control outputs (R274). -/
def opsOfKind (k : Nat) (os : List MemOp) : List MemOp :=
  os.filter fun o => (if (bankOf o.addr).isSome then 2 else if controlOutput o.addr then 4 else 3) == k

/-- KIND of BD_BLAST for two records: the first field in which they differ, or where only a fault in a member has
altered one, the field kind that the fault altered (R250, R274). (DEDUCED, log 82) -/
def differingField (x y : Rec) (kind : Nat) : Nat :=
  if x.pc ≠ y.pc ∨ x.post ≠ y.post then 1
  else
    match [2, 3, 4].find? fun k => opsOfKind k x.ops != opsOfKind k y.ops with
    | some k => k
    | none => if x == y then kind else 5

/-- The odd one of three votes, with one that agrees with the other: a majority (R253, R256). -/
def oddOf (x y z : Vote) : Option (Vote × Vote) :=
  if x.same y then some (z, x) else if x.same z then some (y, x) else if y.same z then some (x, y) else none

/-- Two records that a pair compares; the pair of a triad whose odd member is being resynchronised records a mismatch
as THREEWAY (R253, R254, R258, R273). (DEDUCED, log 207) -/
def comparePair (q b : Nat) (x y : Vote) (kind : Nat) (u : Upset) (s : State) : State :=
  if x.same y then commitRecord q b (slotMembers s q b) false x.record u s
  else
    let y' := bindOf s q b
    let s := if y'.copyTo ≠ 0 ∧ y'.copyEvent = 4 ∧ y'.retryTo = 0 then bindEvent q b 7 (nthD 0 (slotMembers s q b) 0) s
      else s
    pairMismatch q b (showLast q b (differingField x.record y.record kind) 7 x.record.pc s)

/-- Three records of one bundle: a majority commits and makes the third member odd; in a retry any difference is lasting
(R253, R254, R256, R258). -/
def compareThree (q b : Nat) (x y z : Vote) (kind : Nat) (u : Upset) (s : State) : State :=
  let ms := slotMembers s q b
  if x.same y && x.same z then commitRecord q b ms false x.record u s
  else
    match oddOf x y z with
    | some (o, m) =>
      let s := showLast q b (differingField o.record m.record kind) o.member m.record.pc s
      if (bindOf s q b).retryTo ≠ 0 then lastingMismatch q b s
      else
        let s := oddMember q b o.member s
        commitRecord q b (slotMembers s q b) false m.record u s
    | none =>
      s |> showLast q b (differingField x.record y.record kind) 7 x.record.pc |> bindEvent q b 7 (nthD 0 ms 0)
        |> pairMismatch q b

/-- The first two records of a triad commit as the majority where they are equal, before the third member has retired
the bundle; a record of FLUSH.I, and every record of a retry, waits for all three (R253, R254). -/
def compareTwo (q b : Nat) (x y : Vote) (u : Upset) (s : State) : State :=
  if x.same y && (bindOf s q b).retryTo == 0 && !x.record.ops.any (·.code) then
    commitRecord q b ((slotMembers s q b).take 2) true x.record u s
  else s

/-- The record of the last member of a triad for a bundle that the other two have committed as r: it commits that
member's state where it is equal, and makes the member odd where it is not (R253, R256). -/
def compareLate (q b : Nat) (z : Vote) (r : Rec) (kind : Nat) (s : State) : State :=
  if !z.altered && z.record == r then
    s |> commitMember q r z.member |> updBind q b (fun y => { y with past := y.past.drop 1 })
      |> makeStop (eng q z.member) r.stop r.cause r.pc
  else oddMember q b z.member (showLast q b (differingField z.record r kind) z.member r.pc s)

/-- The binding controller compares the oldest records of slot b: d tells which members' records a fault has altered,
and kind the field it altered; u is what the array shows the read half of a record's first write to memory (R253 to
R258, R262). (DEDUCED, log 82; DESIGN CHOICE, log 75) -/
def compareRecords (q b : Nat) (d : Nat → Bool) (kind : Nat) (u : Upset) (s : State) : State :=
  let v := voteAt s q b d
  match (slotMembers s q b).length, v 0, v 1, v 2 with
  | 1, some x, _, _ => commitRecord q b (slotMembers s q b) false x.record u s
  | 2, some x, some y, _ => comparePair q b x y kind u s
  | 3, x, y, z =>
    match (bindOf s q b).past, x, y, z with
    | r :: _, _, _, some z => compareLate q b z r kind s
    | [], some x, some y, some z => compareThree q b x y z kind u s
    | _, some x, some y, none => compareTwo q b x y u s
    | _, _, _, _ => s
  | _, _, _, _ => s

/-- The controller may compare: the binding runs, and no write of the oldest records goes to memory that is held. -/
def mayCommit (s : State) (q b : Nat) : Bool :=
  let st := bindState s q b
  (st == 2 || st == 3 || st == 4 || st == 5) &&
    (slotMembers s q b).all fun i =>
      match (engOf s (eng q i)).buf with
      | r :: _ => !opsHeld s r.ops
      | [] => true

/-- RECORD_COMPARE (R253). -/
def execRecordCompare (q : Fin 16) (b : Fin 6) (d0 d1 d2 : Bool) (kind : Comparing) (s : State) : Out :=
  live (mayCommit s q b) s
    (compareRecords q b (fun i => if i = 0 then d0 else if i = 1 then d1 else d2) (kind.kind.val + 1) kind.u s)

/-! ## Commit boundaries (R259, R263, R265 to R270, R272) -/

/-- Slot b stands at a commit boundary: every member has retired up to the same bundle and has no input of it to take,
everything has committed, the code-write buffer is empty, and no REP runs (R259, R263). (DEDUCED, log 74) -/
def atBoundary (s : State) (q b : Nat) : Bool :=
  let ms := slotMembers s q b
  let n := (engOf s (eng q (nthD 0 ms 0))).cnt
  slotFormed s q b && !ms.isEmpty &&
    ms.all fun i =>
      let y := engOf s (eng q i)
      y.cnt == n && y.buf.isEmpty && y.fifo.isEmpty && y.arch.cwb.isEmpty && y.arch.rkind != 1

/-- SPLIT takes place: the member at the last position is released and starts at the descriptor with the copied state;
a binding that has one member left by then releases none (R266). (DEDUCED, log 80) -/
def splitAct (q b : Nat) (s : State) : State :=
  let ms := slotMembers s q b
  match ms.reverse, splitDescriptor s q b with
  | i :: _ :: _, some d =>
    let e := eng q i
    let x := (engOf s e).base
    let y := { x with pc := d.handler / 4 * 4, priv := d.newpriv, eceil := d.newpriv, ipl := 0, df := false, efp := 0,
                      en := false, cwb := [] }
    let y := y.setAt ({ x with bank := if d.bank = 7 then x.bank else d.bank }.homePlace 14) d.sp
    s |> setMembers q b ms.dropLast
      |> updEng e (fun z => { z with arch := y, base := y, buf := [], fifo := [], stuck := false, held := false,
                                     stores := 0, due := none })
      |> setEngState e 0 |> showEngine e |> updBind q b (fun y => { y with splitOut := i :: y.splitOut })
      |> bindCmdEnd q b |> bindEvent q b 11 i |> settleBindings
  | _, _ => bindCmdEnd q b s

/-- HANDOVER takes place: binding a releases and the shadow t goes on unmuted (R269). -/
def handoverAct (q a t : Nat) (s : State) : State :=
  let i := nthD 0 (slotMembers s q t) 0
  s |> setFlag (Reg.BD_BCTL q t) Fld.BD_BCTL_MUTE false |> updBind q t (fun y => { y with hold := false })
    |> bindCmdEnd q a |> bindRelease q a |> bindEvent q t 12 i

/-- A triad releases its member at position 4 (R270). -/
def shedRelease (q b : Nat) (s : State) : State :=
  let ms := slotMembers s q b
  let i := nthD 0 ms 2
  s |> haltMembers q [i] |> setMembers q b (ms.take 2) |> updBind q b (fun y => { y with shedOut := i + 1 })
    |> bindEvent q b 13 i

/-- The members of slot b take the BINDEV exception before their next bundle, as an input that the leader takes; those
in WAIT leave it (R248, R272). (DEDUCED, log 206) -/
def raiseBindev (q b : Nat) (s : State) : State :=
  let ms := slotMembers s q b
  s |> updBind q b (fun y => { y with bindev := false })
    |> updEng (eng q (nthD 0 ms 0)) (fun z => { z with due := some (12, 0, 0) })
    |> forAll ms (fun i s => if engState s (eng q i) = 1 then setEngState (eng q i) 0 s else s)

/-- Shedding at a boundary: the third member released at level 4 and above, the rest parked at level 5, and the third
rejoined below 4 (R270, R400). (DEDUCED, log 60) -/
def shedAct (q b : Nat) (s : State) : State :=
  if !shedWants s q b then s
  else if 4 ≤ shed s then
    let s := if slotTriad b ∧ bindState s q b = 2 ∧ (slotMembers s q b).length = 3 then shedRelease q b s else s
    if 5 ≤ shed s then setBindState q b 7 (updBind q b (fun y => { y with parked := bindState s q b }) s) else s
  else startCopy q b ((bindOf s q b).shedOut - 1) 10 s

/-- A pending command of slot b that acts at a boundary takes place (R265, R266, R269). -/
def commandAct (q b : Nat) (s : State) : State :=
  let y := bindOf s q b
  match y.cmd with
  | 2 => splitAct q b s
  | 4 => if (bindOf s q y.arg).hold then handoverAct q b y.arg s else s
  | 5 => bindRelease q b s
  | _ => s

/-- What takes place at the boundary of slot b: pass 2 of a copy holds it; else its pending command, the hold of a
shadow that is to take over, shedding, and BINDEV, each where it still applies. (DEDUCED, log 79) -/
def boundaryAct (q b : Nat) (s : State) : State :=
  let y := bindOf s q b
  if y.copyTo ≠ 0 ∧ y.pass1 = true then updBind q b (fun y => { y with hold := true }) s
  else
    let s := commandAct q b s
    let s := if slotFormed s q b && shadowOf s q b then updBind q b (fun y => { y with hold := true }) s else s
    let s := if slotFormed s q b then shedAct q b s else s
    if slotFormed s q b && bindState s q b != 7 && !(bindOf s q b).hold && bindevDue s q b then raiseBindev q b s else s

/-- COMMIT_BOUNDARY (R263). -/
def execCommitBoundary (q : Fin 16) (b : Fin 6) (s : State) : Out :=
  live (atBoundary s q b) s (boundaryAct q b s)

end Sys2Proof.Machine
end

