-- ==== Sys2Proof/Machine/Transports.lean ====
section
/-! DEFINITION. The host transports: the host address space, the I3C target and its CCCs, the mailbox commands of SMBus,
SPI, and MCTP (R316 to R320, R323, R342). What the target sends back stands in the state's answer. -/

namespace Sys2Proof.Machine

/-! ## Answers -/

/-- The target acknowledges a transfer and sends the bytes. -/
def answer (bs : List Nat) (s : State) : State :=
  updHost (fun h => { h with answer := { ack := true, data := bs, pec := none } }) s

/-- The PEC that follows bytes bs of an SMBus read of a command code: the CRC-8 of the whole transfer (R318).
(DEDUCED, log 121; PRESUMED, log 201) -/
def smbPec (s : State) (code : Nat) (bs : List Nat) : Nat :=
  let a := 2 * fld s Reg.MB_SMBCFG Fld.MB_SMBCFG_ADDR
  crc8 0 ([a, code, a + 1] ++ bs)

/-- The target answers an SMBus read of a command code with the bytes on the bus and their PEC; a block read begins
with its count (R318). (DEDUCED, log 121) -/
def answerSmb (code : Nat) (bs : List Nat) (s : State) : State :=
  updHost (fun h => { h with answer := { ack := true, data := bs, pec := some (smbPec s code bs) } }) s

/-- The target does not acknowledge a transfer. -/
def nack (s : State) : State := updHost (fun h => { h with answer := { ack := false, data := [], pec := none } }) s

/-- The values of bytes. -/
def bytesOf (bs : List (BitVec 8)) : List Nat := bs.map (·.toNat)

/-! ## The host address space (R316) -/

/-- A host address names a register: MB_HDB to MB_HWASTAT and MB_STRWP, or MB_SESS. -/
def hostReg (a : Nat) : Bool :=
  (decide (0x20000 ≤ a) && decide (a < 0x20020)) || (decide (0x20100 ≤ a) && decide (a < 0x20140))

/-- The spine address of the register at a host address (R316). -/
def hostRegAddr (a : Nat) : Nat := 0x30050000 + a % 0x10000

/-- The host writes word v to the register at host address a over transport v (R342). -/
def hostRegWrite (via : Via) (a v : Nat) (s : State) : State :=
  match a % 0x10000 with
  | 0x00 => ringAll (viaCode via) (v % 65536) s
  | 0x04 => forAll (ones 16 (v % 65536 &&& rd s Reg.MB_HRDY)) hrdyClear s
  | 0x08 => settleAlert (plainWrite Reg.MB_HAEN v s)
  | 0x0C => plainWrite Reg.MB_HSTAT v s
  | 0x10 =>
    if getBits v Fld.MB_HWABORT_KEY ≠ 0xA5 then incFld Reg.MB_CNT Fld.MB_CNT_BADKEY s
    else hwAbort (getBits v Fld.MB_HWABORT_TARGET) (getBits v Fld.MB_HWABORT_INDEX) (getBits v Fld.MB_HWABORT_ARG) s
  | 0x14 => settleAlert (plainWrite Reg.MB_HWASTAT v s)
  | _ => s

/-- What the host reads of the register at host address a; write-only registers and places with no register read 0
(R9, R316). -/
def hostRegRead (s : State) (a : Nat) : Nat :=
  let o := a % 0x10000
  if o = 0 ∨ o = 0x10 ∨ o = 0x1C then 0 else rd s (hostRegAddr a)

/-- The runs of a transfer of n bytes at host address a: each lies in one window, one range of registers, the ring, or
a place with nothing in it. (DEDUCED, log 115) -/
def hostPieces : Nat → Nat → Nat → List (Nat × Nat)
  | 0, _, _ => []
  | fuel + 1, a, n =>
    if n = 0 then []
    else
      let size := if hostReg a then (if a < 0x20100 then 0x20 else 0x40) else if 0x30000 ≤ a ∧ a < 0x40000 then 0x10000
        else if a < 0x20000 then 0x1000 else 0x20
      let k := min n (size - a % size)
      (a, k) :: hostPieces fuel (a + k) (n - k)

/-- One piece of a host write: the request window of a session in IDLE, one register as 4 bytes aligned to 4, or
nothing (R316, R321). (DEDUCED, log 115) -/
def hostPut (via : Via) (a : Nat) (bs : List Nat) (s : State) : State :=
  if a < 0x20000 then
    if a % 0x2000 < 0x1000 then
      if sessPhase s (a / 0x2000) = 0 then storeBytes (viaMaster via) (0x201E0000 + a) bs s
      else raiseFlag Reg.MB_HSTAT Fld.MB_HSTAT_WINREF s
    else s
  else if hostReg a then
    if a % 4 = 0 ∧ bs.length = 4 then hostRegWrite via a (fromBytes bs) s
    else raiseFlag Reg.MB_HSTAT Fld.MB_HSTAT_ACCERR s
  else s

/-- The host writes bytes from host address a on, in ascending order (R316, R317). -/
def hostWrite (via : Via) (a : Nat) (bs : List Nat) (s : State) : State :=
  forAll (hostPieces (bs.length + 1) a bs.length) (fun p s => hostPut via p.1 (cut bs (p.1 - a) p.2) s) s

/-- The host reads n bytes of the stream ring from offset o on; a read of the oldest unread byte makes the next one
the oldest (R319, R336). (DEDUCED, log 123) -/
def ringRead : Nat → Nat → State → State × List Nat
  | 0, _, s => (s, [])
  | n + 1, o, s =>
    let oldest := (65536 + fld s Reg.MB_STRWP Fld.MB_STRWP_WP - s.host.unread) % 65536
    let b := (tget (fun _ => 0#8) s.host.ring o).toNat
    let t := if 0 < s.host.unread ∧ o = oldest then updHost (fun h => { h with unread := h.unread - 1 }) s else s
    let (t, bs) := ringRead n ((o + 1) % 65536) t
    (t, b :: bs)

/-- One piece of a host read. (DEDUCED, log 115, 116) -/
def hostGet (via : Via) (a n : Nat) (s : State) : State × List Nat :=
  if a < 0x20000 then
    let (s, bs, _) := loadBytes (viaMaster via) (0x201E0000 + a) n s
    (s, bs)
  else if hostReg a then
    if a % 4 = 0 ∧ n = 4 then (s, toBytes 4 (hostRegRead s a))
    else (raiseFlag Reg.MB_HSTAT Fld.MB_HSTAT_ACCERR s, List.replicate n 0)
  else if 0x30000 ≤ a ∧ a < 0x40000 then ringRead n (a - 0x30000) s
  else (s, List.replicate n 0)

/-- The host reads n bytes from host address a on (R316, R317). -/
def hostRead (via : Via) (a n : Nat) (s : State) : State × List Nat :=
  (hostPieces (n + 1) a n).foldl (fun (x : State × List Nat) p =>
    let (s, bs) := hostGet via p.1 p.2 x.1
    (s, x.2 ++ bs)) (s, [])

/-- The host address a transfer of transport k goes on from. -/
def hostAddr (s : State) (k : Nat) : Nat := tget (fun _ => 0) s.host.addr k
def setHostAddr (k a : Nat) (s : State) : State :=
  updHost (fun h => { h with addr := tset (fun _ => 0) h.addr k (a % 2 ^ 24) }) s

/-! ## I3C (R317) -/

/-- The memory behind n bytes of the windows from host address a on is held (R304, R306): the transfer waits. -/
def windowHeld (s : State) (a n : Nat) : Bool := decide (a < 0x20000) && rangeHeld s (0x201E0000 + a) n

/-- A host write of bytes at address a waits for held memory: the windows it writes, or those of the session whose
command it aborts by MB_HWABORT (R304, R306, R338). (DEDUCED, log 93, 236) -/
def hostHeld (s : State) (a : Nat) (bs : List Nat) : Bool :=
  let v := fromBytes bs
  windowHeld s a bs.length || (a == 0x20010 && bs.length == 4 && getBits v Fld.MB_HWABORT_KEY == 0xA5 &&
    getBits v Fld.MB_HWABORT_TARGET == 1 && decide (getBits v Fld.MB_HWABORT_INDEX < 16) &&
    windowsHeld s (getBits v Fld.MB_HWABORT_INDEX))

/-- The dynamic address; 0 unassigned. -/
def i3cDa (s : State) : Nat := fld s Reg.MB_I3CCFG Fld.MB_I3CCFG_DA

/-- The effect t of an I3C transfer that the target answers where g holds; it is not acknowledged otherwise. -/
def i3c (g : Bool) (s t : State) : Out := act (viaUp s .i3c) s (if g then t else nack s)

/-- The same for a common command code, which travels in SDR: the bus is out of HDR-DDR. (DEDUCED, log 120; PRESUMED,
log 117) -/
def ccc (g : Bool) (s t : State) : Out :=
  act (viaUp s .i3c) s (updHost (fun h => { h with ddr := false }) (if g then t else nack s))

/-- A private write: three address bytes, least significant first, then data (R317). (DEDUCED, log 119) -/
def privateWrite (bs : List Nat) (s : State) : State :=
  let bs := bs.take s.host.mwl
  if bs.length < 3 then answer [] s
  else
    let a := le bs 0 3
    s |> hostWrite .i3c a (bs.drop 3) |> setHostAddr 1 (a + (bs.length - 3)) |> answer []

/-- I3C_PRIVATE_WRITE (R317). -/
def execI3cPrivateWrite (bs : List (BitVec 8)) (s : State) : Out :=
  if hostHeld s (le (bytesOf bs) 0 3) ((bytesOf bs).drop 3) then .next s
  else i3c (i3cDa s != 0) s (privateWrite (bytesOf bs) s)

/-- A private read from the address written before it (R317). (DEDUCED, log 119) -/
def privateRead (n : Nat) (s : State) : State :=
  let n := min n s.host.mrl
  let a := hostAddr s 1
  let (s, bs) := hostRead .i3c a n s
  s |> setHostAddr 1 (a + n) |> answer bs

/-- I3C_PRIVATE_READ (R317). -/
def execI3cPrivateRead (n : BitVec 16) (s : State) : Out :=
  if windowHeld s (hostAddr s 1) n.toNat then .next s
  else i3c (i3cDa s != 0) s (privateRead n.toNat s)

/-- The dynamic address becomes da. -/
def setDa (da : Nat) (s : State) : State := answer [] (setFld Reg.MB_I3CCFG Fld.MB_I3CCFG_DA da s)

/-- CCC_ENTDAA (R317): a target with no dynamic address takes the one assigned. (DEDUCED, log 120) -/
def execCccEntdaa (da : BitVec 7) (s : State) : Out :=
  ccc (i3cDa s == 0) s (setDa da.toNat s)

/-- CCC_SETDASA (R317): it names the static address of MB_I3CCFG.SA. (DEDUCED, log 120) -/
def execCccSetdasa (sa da : BitVec 7) (s : State) : Out :=
  ccc (i3cDa s == 0 && sa.toNat == fld s Reg.MB_I3CCFG Fld.MB_I3CCFG_SA) s (setDa da.toNat s)

/-- CCC_SETNEWDA (R317). (DEDUCED, log 120) -/
def execCccSetnewda (da new : BitVec 7) (s : State) : Out :=
  ccc (i3cDa s != 0 && da.toNat == i3cDa s) s (setDa new.toNat s)

/-- CCC_RSTDAA (R317). -/
def execCccRstdaa (s : State) : Out := ccc true s (setDa 0 s)

/-- Bit 0 of the event byte of ENEC and DISEC names in-band interrupts (R317). (PRESUMED, log 117) -/
def setEvents (on : Bool) (bits : Nat) (s : State) : State :=
  answer [] (if bits % 2 = 1 then updHost (fun h => { h with events := on }) s else s)

/-- CCC_ENEC (R317). -/
def execCccEnec (bits : BitVec 8) (s : State) : Out := ccc true s (setEvents true bits.toNat s)
/-- CCC_DISEC (R317). -/
def execCccDisec (bits : BitVec 8) (s : State) : Out := ccc true s (setEvents false bits.toNat s)

/-- CCC_GETPID (R317): the spec gives no value, so it is the device's. -/
def execCccGetpid (s : State) : Out := ccc (i3cDa s != 0) s (answer (toBytes 6 Config.i3cPid.toNat).reverse s)
/-- CCC_GETBCR (R317). -/
def execCccGetbcr (s : State) : Out := ccc (i3cDa s != 0) s (answer [Config.i3cBcr.toNat] s)
/-- CCC_GETDCR (R317). -/
def execCccGetdcr (s : State) : Out := ccc (i3cDa s != 0) s (answer [Config.i3cDcr.toNat] s)
/-- CCC_GETMXDS (R317). -/
def execCccGetmxds (s : State) : Out :=
  ccc (i3cDa s != 0) s (answer [(Config.i3cMxds 0).toNat, (Config.i3cMxds 1).toNat] s)
/-- CCC_GETSTATUS (R317): the spec does not give the two bytes, so they are free values. (DESIGN CHOICE, log 118) -/
def execCccGetstatus (s : State) : Out :=
  ccc (i3cDa s != 0) s (answer (toBytes 2 (Config.freeWord s.fresh).toNat) (spend s))

/-- CCC_SETMWL (R317): at most 4,100. -/
def execCccSetmwl (n : BitVec 16) (s : State) : Out :=
  ccc true s (answer [] (updHost (fun h => { h with mwl := min 4100 n.toNat }) s))
/-- CCC_SETMRL (R317): at most 4,100. -/
def execCccSetmrl (n : BitVec 16) (s : State) : Out :=
  ccc true s (answer [] (updHost (fun h => { h with mrl := min 4100 n.toNat }) s))
/-- CCC_GETMWL (R317): the length, most significant byte first. -/
def execCccGetmwl (s : State) : Out := ccc (i3cDa s != 0) s (answer (toBytes 2 s.host.mwl).reverse s)
/-- CCC_GETMRL (R317): the length, most significant byte first, and the one data byte of an in-band interrupt.
(PRESUMED, log 117) -/
def execCccGetmrl (s : State) : Out := ccc (i3cDa s != 0) s (answer ((toBytes 2 s.host.mrl).reverse ++ [1]) s)

/-- CCC_ENTHDR0 (R317): the transfers that follow are in HDR-DDR, with the same framing. -/
def execCccEnthdr0 (s : State) : Out := i3c true s (answer [] (updHost (fun h => { h with ddr := true }) s))

/-- The codes of the CCCs of R317, broadcast and directed. (PRESUMED, log 117) -/
def cccCodes : List Nat :=
  [0x00, 0x80, 0x01, 0x81, 0x06, 0x07, 0x87, 0x88, 0x09, 0x89, 0x0A, 0x8A, 0x8B, 0x8C, 0x8D, 0x8E, 0x8F, 0x90,
    0x94, 0x20]

/-- CCC_UNSUPPORTED (R317): any other CCC is not acknowledged. -/
def execCccUnsupported (code : BitVec 8) (s : State) : Out :=
  act (viaUp s .i3c && !cccCodes.contains code.toNat) s (nack s)

/-! ## SMBus (R318, R323) -/

/-- A write with this packet error code is taken (R318). (DEDUCED, log 121) -/
def pecHolds (s : State) (pec : Pec) : Bool :=
  match pec with
  | .good => true
  | .absent => !flag s Reg.MB_SMBCFG Fld.MB_SMBCFG_PECREQ
  | .bad => false

/-- The effect t of an SMBus write where its bytes are as its command wants (g) and its PEC holds. (DEDUCED, log 121)
-/
def smbWrite (g : Bool) (pec : Pec) (s t : State) : Out :=
  act (viaUp s .smbus) s (if g && pecHolds s pec then t else nack s)

/-- MBX_ADDR (R318): a block of three bytes, least significant first. -/
def execMbxAddr (bs : List (BitVec 8)) (pec : Pec) (s : State) : Out :=
  smbWrite (bs.length == 3) pec s (answer [] (setHostAddr 2 (le (bytesOf bs) 0 3) s))

/-- A block of bytes goes to the host address, which advances (R318). -/
def mbxWrite (bs : List Nat) (s : State) : State :=
  let a := hostAddr s 2
  s |> setHostAddr 2 (a + bs.length) |> hostWrite .smbus a bs |> answer []

/-- MBX_DATA_WRITE (R318): a block of 1 to 32 bytes. -/
def execMbxDataWrite (bs : List (BitVec 8)) (pec : Pec) (s : State) : Out :=
  if hostHeld s (hostAddr s 2) (bytesOf bs) then .next s
  else smbWrite (decide (1 ≤ bs.length) && decide (bs.length ≤ 32)) pec s (mbxWrite (bytesOf bs) s)

/-- A block of n bytes is read at the host address, which advances (R318). (PRESUMED, log 201) -/
def mbxRead (n : Nat) (s : State) : State :=
  let a := hostAddr s 2
  let (s, bs) := hostRead .smbus a n s
  s |> setHostAddr 2 (a + n) |> answerSmb 0xD1 (n :: bs)

/-- MBX_DATA_READ (R318): a block of 1 to 32 bytes. -/
def execMbxDataRead (n : BitVec 6) (s : State) : Out :=
  if windowHeld s (hostAddr s 2) n.toNat then .next s
  else act (viaUp s .smbus) s (if 1 ≤ n.toNat ∧ n.toNat ≤ 32 then mbxRead n.toNat s else nack s)

/-- ALERT_RESPONSE (R323): the target that holds SMBALERT_N low answers with its address and releases it. (DEDUCED,
log 122) -/
def execAlertResponse (s : State) : Out :=
  act (viaUp s .smbus) s
    (if smbAlert s then
      s |> updHost (fun h => { h with released := true, pmbAlert := false })
        |> answer [fld s Reg.MB_SMBCFG Fld.MB_SMBCFG_ADDR]
     else nack s)

/-! ## SPI (R319) -/

/-- The effect of an SPI write; one with no data byte has none (R319). -/
def spiWrite (a : Nat) (bs : List Nat) (s : State) : Out :=
  act (viaUp s .spi && !bs.isEmpty && !hostHeld s a bs) s (answer [] (hostWrite .spi a bs s))

/-- The effect of an SPI read; one that ends before its first data byte has none (R319). -/
def spiRead (a n : Nat) (s : State) : Out :=
  act (viaUp s .spi && n != 0 && !windowHeld s a n) s (let (s, bs) := hostRead .spi a n s; answer bs s)

/-- SPI_WRITE (R319). -/
def execSpiWrite (a : BitVec 24) (bs : List (BitVec 8)) (s : State) : Out := spiWrite a.toNat (bytesOf bs) s
/-- SPI_QUAD_WRITE (R319). -/
def execSpiQuadWrite (a : BitVec 24) (bs : List (BitVec 8)) (s : State) : Out := spiWrite a.toNat (bytesOf bs) s
/-- SPI_READ (R319). -/
def execSpiRead (a : BitVec 24) (n : BitVec 16) (s : State) : Out := spiRead a.toNat n.toNat s
/-- SPI_QUAD_READ (R319). -/
def execSpiQuadRead (a : BitVec 24) (n : BitVec 16) (s : State) : Out := spiRead a.toNat n.toNat s

/-- The status byte: ALERT where the route takes it here, FBUSY, and STREAM (R319, R323). (DEDUCED, log 123) -/
def spiStatus (s : State) : Nat :=
  b2n (routed s 2 && s.host.alert) * 128 + b2n (flag s Reg.MB_HSTAT Fld.MB_HSTAT_FBUSY) * 64 +
    b2n (decide (0 < s.host.unread)) * 32

/-- SPI_STATUS (R319). -/
def execSpiStatus (s : State) : Out := act (viaUp s .spi) s (answer [spiStatus s] s)

/-! ## MCTP (R320) -/

/-- The transport that carries MCTP. -/
def mctpVia : MctpBus → Via
  | .i3c => .i3c
  | .smbus _ => .smbus

/-- The field of MB_MCTPEID of a transport. -/
def eidField : MctpBus → Bits
  | .i3c => Fld.MB_MCTPEID_EIDI
  | .smbus _ => Fld.MB_MCTPEID_EIDS

/-- The effect t of an MCTP message over a transport that is up: I3C needs its dynamic address, and SMBus, where it is a
write of code 0x0F, its PEC (R318, R320). -/
def mctp (bus : MctpBus) (s t : State) : Out :=
  match bus with
  | .i3c => act (viaUp s .i3c && i3cDa s != 0) s t
  | .smbus pec => smbWrite true pec s t

/-- SET_ENDPOINT_ID (R320): the null and the broadcast EID are refused. (PRESUMED, log 124) -/
def execSetEndpointId (bus : MctpBus) (eid : BitVec 8) (s : State) : Out :=
  mctp bus s
    (if eid.toNat = 0 ∨ eid.toNat = 255 then answer [2] s
     else answer [0, 0, eid.toNat, 0] (setFld Reg.MB_MCTPEID (eidField bus) eid.toNat s))

/-- GET_ENDPOINT_ID (R320). -/
def execGetEndpointId (bus : MctpBus) (s : State) : Out :=
  mctp bus s (answer [0, fld s Reg.MB_MCTPEID (eidField bus), 0, 0] s)

/-- GET_MCTP_VERSION_SUPPORT (R320): one version, which the spec does not give. (PRESUMED, log 124) -/
def execGetMctpVersionSupport (bus : MctpBus) (s : State) : Out :=
  mctp bus s (answer ([0, 1] ++ (List.range 4).map fun i => (Config.mctpVersion i).toNat) s)

/-- GET_MESSAGE_TYPE_SUPPORT (R320): vendor-defined IANA. -/
def execGetMessageTypeSupport (bus : MctpBus) (s : State) : Out := mctp bus s (answer [0, 1, 0x7F] s)

/-- GET_VENDOR_DEFINED_MESSAGE_SUPPORT (R320): the enterprise number, and a command set the spec does not give. -/
def execGetVendorDefinedMessageSupport (bus : MctpBus) (s : State) : Out :=
  mctp bus s (answer ([0, 0xFF, 1] ++ ianaBytes s ++
    [(Config.mctpVendorSet 0).toNat, (Config.mctpVendorSet 1).toNat]) s)

/-- A Lyheuf message from an endpoint goes into the window of the session it names, and the Foreman takes it; one
whose session is busy, or bound elsewhere, is ignored (R320, R322). (DEDUCED, log 125) -/
def mctpLyheuf (v endpoint : Nat) (bs : List Nat) (s : State) : State :=
  let x := nthD 0 bs 1
  let e := sessOf s x
  let bound := sessState s x != 0 && (fld s (Reg.MB_SESS x) Fld.MB_SESS_XPORT != v || e.endpoint != endpoint)
  if 15 < x ∨ rangeHeld s (reqWindow x) 4096 = true then s
  else if bound || sessPhase s x != 0 then raiseFlag Reg.MB_HSTAT Fld.MB_HSTAT_DBREF s
  else
    let s := storeBytes 128 (reqWindow x) bs s
    let (s, w, _) := loadBytes 128 (reqWindow x) 4096 s
    s |> updSess x (fun y => { y with via := v, viaEnd := endpoint }) |> takeRequest x w

/-- The message's type byte and enterprise number are those of Lyheuf, and it fits (R320). -/
def lyheufOverMctp (s : State) (bs : List Nat) : Bool :=
  nthD 0 bs 0 == 0x7F && cut bs 1 4 == ianaBytes s && decide (7 ≤ bs.length) && decide (bs.length ≤ 4100)

/-- MCTP_LYHEUF_MESSAGE (R320, R353): a message reassembled from an endpoint, from its type byte on; in BOOT the boot
ROM takes that of session 0. (DEDUCED, log 125) -/
def execMctpLyheufMessage (bus : MctpBus) (endpoint : BitVec 8) (bs : List (BitVec 8)) (s : State) : Out :=
  mctp bus s
    (if takesAsked s (nthD 0 (bytesOf bs) 6) && lyheufOverMctp s (bytesOf bs) then
      mctpLyheuf (match bus with | .i3c => 4 | .smbus _ => 5) endpoint.toNat ((bytesOf bs).drop 5) s
     else s)

end Sys2Proof.Machine
end

