-- ==== Sys2Proof/Machine/Pmbus.lean ====
section
/-! DEFINITION. The PMBus subset on the SMBus target, one page per rail (R331, R332). -/

namespace Sys2Proof.Machine

/-! ## Refusals (R331) -/

/-- The rail that PAGE selects. -/
def pageRail (s : State) : Nat := s.host.page % 32

/-- A refused write or an invalid command: bit b of STATUS_CML of rail r sets, and SMBALERT_N where PMBALERT is set
(R331). (DEDUCED, log 233) -/
def cmlFaultAt (r b : Nat) (s : State) : State :=
  let alert := s.host.pmbAlert || flag s Reg.MB_SMBCFG Fld.MB_SMBCFG_PMBALERT
  updHost (fun h => { h with
    cml := tset (fun _ => 0) h.cml r (tget (fun _ => 0) h.cml r ||| 2 ^ b), pmbAlert := alert }) s

/-- The same for the rail that PAGE selects. (DEDUCED, log 128) -/
def cmlFault (b : Nat) (s : State) : State := cmlFaultAt (pageRail s) b s

/-- A PMBus read of a command code: bs is what it returns. -/
def pmbRead (code : Nat) (bs : List Nat) (s : State) : Out := act (viaUp s .smbus) s (answerSmb code bs s)

/-- A PMBus write that acts only while PMBW is set, and that the Foreman takes (R331): t is its effect. (DEDUCED, log
126) -/
def pmbWrite (pec : Pec) (s t : State) : Out :=
  smbWrite true pec s
    (if !flag s Reg.MB_SMBCFG Fld.MB_SMBCFG_PMBW then answer [] (cmlFault 7 s)
     else if foremanServes s then answer [] t
     else nack s)

/-! ## Numbers (R332) -/

/-- The LINEAR11 word of num / den, den above 0, with the smallest exponent from e on at which the mantissa fits. -/
def linear11From : Nat → Int → Int → Nat → Nat
  | 0, _, num, den => pat 11 (satS 11 (roundAwayDiv num den)) + 15 * 2048
  | n + 1, e, num, den =>
    let y := if e < 0 then roundAwayDiv (num * 2 ^ e.natAbs) den else roundAwayDiv num (den * 2 ^ e.natAbs)
    if -1024 ≤ y ∧ y ≤ 1023 then pat 11 y + pat 5 e * 2048 else linear11From n (e + 1) num den

/-- The LINEAR11 word of num / den. (DEDUCED, log 129) -/
def linear11 (num : Int) (den : Nat) : Nat := linear11From 32 (-16) num den

/-- A word as PMBus sends it, low byte first. -/
def pmbWord (v : Nat) : List Nat := toBytes 2 v

/-- A block read of an ASCII text: the count, then the bytes. -/
def pmbBlock (bs : List Nat) : List Nat := bs.length :: bs

/-! ## Commands (R332) -/

/-- PAGE (R332): a value above 31 is refused as invalid data. (DEDUCED, log 127) -/
def execPage (w : Option (BitVec 8)) (pec : Pec) (s : State) : Out :=
  match w with
  | none => pmbRead 0x00 [s.host.page] s
  | some v =>
    smbWrite true pec s
      (answer [] (if v.toNat < 32 then updHost (fun h => { h with page := v.toNat }) s else cmlFault 6 s))

/-- A rail command: refused by the sequencer or the rail table, it is invalid data. (DEDUCED, log 127) -/
def pmbRail (f : Nat → State → State × Nat × Nat) (r : Nat) (s : State) : State :=
  let (t, _, res) := f r s
  if res = 0 then t else cmlFaultAt r 6 t

/-- VOUT_COMMAND's TARGET goes to rail r, with the semantics of RAIL_SET (R330, R332). A COMMIT that is refused is
invalid data and TARGET stands as it was (R331). (DEDUCED, log 127) -/
def voutWrite (r target : Nat) (s : State) : State :=
  let (t, res) := commitIfRuns r (setFld (Reg.RT_VREF r) Fld.RT_VREF_TARGET target s)
  if res = 0 then t else cmlFaultAt r 6 (wr (Reg.RT_VREF r) (rd s (Reg.RT_VREF r)) t)

/-- The Foreman carries out a PMBus write as a rail command (R331, R332). (DEDUCED, log 233) -/
def pmbPerform (j : PmbJob) (s : State) : State :=
  match j with
  | .enable r => pmbRail hostEnable r s
  | .disable r => pmbRail hostDisable r s
  | .vout r target => voutWrite r target s
  | .clear r => if railState s r = 4 then rtCommand 4 r false s else s

/-- A PMBus write reaches the Foreman: it carries it out at once, or waits for the rail table and for those before it
(R43, R331). (DEDUCED, log 233) -/
def pmbAsk (j : PmbJob) (s : State) : State :=
  if s.host.pmb.isEmpty && tableFree s then pmbPerform j s else updHost (fun h => { h with pmb := h.pmb ++ [j] }) s

/-- The oldest PMBus write that waits is carried out once the rail table is free (R43, R331). (DEDUCED, log 233) -/
def pmbTick (s : State) : State :=
  match s.host.pmb with
  | j :: rest => if tableFree s then pmbPerform j (updHost (fun h => { h with pmb := rest }) s) else s
  | [] => s

/-- OPERATION (R332). -/
def execOperation (w : Option (BitVec 8)) (pec : Pec) (s : State) : Out :=
  match w with
  | none => pmbRead 0x01 [if regulating s (pageRail s) then 0x80 else 0] s
  | some v =>
    pmbWrite pec s
      (if v = 0x80#8 then pmbAsk (.enable (pageRail s)) s
       else if v = 0x40#8 ∨ v = 0#8 then pmbAsk (.disable (pageRail s)) s
       else cmlFault 6 s)

/-- ON_OFF_CONFIG (R332). -/
def execOnOffConfig (s : State) : Out := pmbRead 0x02 [0x18] s

/-- The page's PMBus status bits clear (R332). (DEDUCED, log 128) -/
def clearStatus (s : State) : State :=
  let r := pageRail s
  updHost (fun h => { h with cml := tset (fun _ => 0) h.cml r 0, iout := tset (fun _ => 0) h.iout r 0,
                             pmbAlert := false }) s

/-- CLEAR_FAULTS (R331, R332): CLEAR of a LATCHED rail needs PMBW. (DEDUCED, log 128) -/
def execClearFaults (pec : Pec) (s : State) : Out :=
  let r := pageRail s
  let clears := railState s r == 4 && flag s Reg.MB_SMBCFG Fld.MB_SMBCFG_PMBW && foremanServes s
  smbWrite true pec s (answer [] (if clears then pmbAsk (.clear r) (clearStatus s) else clearStatus s))

/-- CAPABILITY (R332). -/
def execCapability (s : State) : Out := pmbRead 0x19 [0xD0] s
/-- VOUT_MODE (R332). -/
def execVoutMode (s : State) : Out := pmbRead 0x20 [0x12] s

/-- VOUT_COMMAND (R332): a write's TARGET is to the nearest, ties away from zero; one out of range is invalid data. -/
def execVoutCommand (w : Option (BitVec 16)) (pec : Pec) (s : State) : Out :=
  match w with
  | none =>
    let target := fld s (Reg.RT_VREF (pageRail s)) Fld.RT_VREF_TARGET
    pmbRead 0x21 (pmbWord (roundAwayDiv ((target : Int) * 512) 625).toNat) s
  | some v =>
    let target := roundAwayDiv ((v.toNat : Int) * 625) 512
    pmbWrite pec s
      (if target < 4000 ∨ 65534 < target then cmlFault 6 s else pmbAsk (.vout (pageRail s) target.toNat) s)

/-- STATUS_VOUT: bit 4 while PG = 0 in ON. -/
def statusVout (s : State) : Nat :=
  let r := pageRail s
  b2n (railState s r == 2 && !flag s (Reg.RT_STATE r) Fld.RT_STATE_PG) * 16

/-- STATUS_IOUT: bit 7 from the latch-off of a member channel on. -/
def statusIout (s : State) : Nat := tget (fun _ => 0) s.host.iout (pageRail s)

/-- A member stage of the page's rail reports a temperature above its warning limit (R157). -/
def stageWarm (s : State) : Bool :=
  (members s (pageRail s)).any fun x => bitAt (fld s (Reg.PP_SSTAT (quireOf x.2) (localOf x.2)) Fld.PP_SSTAT_VALUE) 13

/-- STATUS_TEMPERATURE: bit 6, the over-temperature warning. (DEDUCED, log 129) -/
def statusTemperature (s : State) : Nat := b2n (stageWarm s) * 64

/-- STATUS_CML. -/
def statusCml (s : State) : Nat := tget (fun _ => 0) s.host.cml (pageRail s)

/-- STATUS_BYTE (R332). -/
def statusByte (s : State) : Nat :=
  let r := pageRail s
  b2n (railState s r != 2) * 64 + b2n (flag s (Reg.RT_STATE r) Fld.RT_STATE_ILIM) * 16 + b2n (stageWarm s) * 4 +
    b2n (statusCml s != 0) * 2 + b2n (railState s r == 4)

/-- STATUS_WORD (R332). -/
def statusWord (s : State) : Nat :=
  statusByte s + b2n (!flag s (Reg.RT_STATE (pageRail s)) Fld.RT_STATE_PG) * 2048 +
    b2n (statusIout s != 0) * 16384 + b2n (statusVout s != 0) * 32768

/-- STATUS_BYTE (R332). -/
def execStatusByte (s : State) : Out := pmbRead 0x78 [statusByte s] s
/-- STATUS_WORD (R332). -/
def execStatusWord (s : State) : Out := pmbRead 0x79 (pmbWord (statusWord s)) s
/-- STATUS_VOUT (R332). -/
def execStatusVout (s : State) : Out := pmbRead 0x7A [statusVout s] s
/-- STATUS_IOUT (R332). -/
def execStatusIout (s : State) : Out := pmbRead 0x7B [statusIout s] s
/-- STATUS_TEMPERATURE (R332). -/
def execStatusTemperature (s : State) : Out := pmbRead 0x7D [statusTemperature s] s
/-- STATUS_CML (R332). -/
def execStatusCml (s : State) : Out := pmbRead 0x7E [statusCml s] s

/-- READ_VIN (R332): LU_VIN of the home quire, which is in mV. -/
def execReadVin (s : State) : Out :=
  pmbRead 0x88 (pmbWord (linear11 (fld s (Reg.LU_VIN (homeOf (pageRail s))) Fld.LU_VIN_VIN) 1000)) s

/-- READ_VOUT (R332): Vout stands in 25/1024 uV, and the exponent is -14. -/
def execReadVout (s : State) : Out :=
  pmbRead 0x8B (pmbWord (satU 16 (roundAwayDiv (railOf s (pageRail s)).vout 2500)).toNat) s

/-- READ_IOUT (R332): I_f stands in 2.5 mA / 2^ifSh. -/
def execReadIout (s : State) : Out :=
  let x := railOf s (pageRail s)
  pmbRead 0x8C (pmbWord (linear11 x.ifNum (400 * 2 ^ x.ifSh))) s

/-- The hottest stage junction among the page's members, 1/128 C; 0 where there is none. -/
def hottest (s : State) : Int :=
  let temp := fun (n : Nat) => sx 16 (fld s (Reg.PP_TEMP (quireOf n) (localOf n)) Fld.PP_TEMP_VALUE)
  match (members s (pageRail s)).map fun x => temp x.2 with
  | t :: ts => ts.foldl max t
  | [] => 0

/-- READ_TEMPERATURE_1 (R332). A rail with no member has no junction to read: that value is free. (DESIGN CHOICE, log
130) -/
def execReadTemperature1 (s : State) : Out :=
  if (members s (pageRail s)).isEmpty then
    act (viaUp s .smbus) s (answerSmb 0x8D (toBytes 2 (Config.freeWord s.fresh).toNat) (spend s))
  else pmbRead 0x8D (pmbWord (linear11 (hottest s) 128)) s

/-- PMBUS_REVISION (R332). -/
def execPmbusRevision (s : State) : Out := pmbRead 0x98 [0x33] s
/-- MFR_ID (R332): "KILKOR". -/
def execMfrId (s : State) : Out := pmbRead 0x99 (pmbBlock [0x4B, 0x49, 0x4C, 0x4B, 0x4F, 0x52]) s
/-- MFR_MODEL (R332): "ELN9256". -/
def execMfrModel (s : State) : Out := pmbRead 0x9A (pmbBlock [0x45, 0x4C, 0x4E, 0x39, 0x32, 0x35, 0x36]) s
/-- MFR_REVISION (R332): "B1". -/
def execMfrRevision (s : State) : Out := pmbRead 0x9B (pmbBlock [0x42, 0x31]) s

/-- The command codes that can be written, and those that can be read (R318, R332). -/
def writeCodes : List Nat := [0x00, 0x01, 0x03, 0x21, 0xD0, 0xD1, 0x0F]
def readCodes : List Nat :=
  [0x00, 0x01, 0x02, 0x19, 0x20, 0x21, 0x78, 0x79, 0x7A, 0x7B, 0x7D, 0x7E, 0x88, 0x8B, 0x8C, 0x8D, 0x98, 0x99, 0x9A,
    0x9B, 0xD1, 0x0F]

/-- PMBUS_INVALID_COMMAND (R331, R332): a code, or a direction of it, that is not supported. (DEDUCED, log 126) -/
def execPmbusInvalidCommand (code : BitVec 8) (write : Bool) (pec : Pec) (s : State) : Out :=
  if (if write then writeCodes else readCodes).contains code.toNat then .next s
  else if write then smbWrite true pec s (answer [] (cmlFault 7 s))
  else act (viaUp s .smbus) s (nack (cmlFault 7 s))

end Sys2Proof.Machine
end

