-- ==== Sys2Proof/Machine/Dispatch.lean ====
section
/-! DEFINITION. The meaning of each command, one arm per row of the table of operations and events. -/

namespace Sys2Proof.Machine

/-- The effect of a command on the device. -/
def exec (i : Instr) (s : State) : Host.Outcome State Fault Refusal :=
  match i with
  | .regWrite m a v => Sys2Proof.Machine.execRegWrite m a v s
  | .powerOnResetRelease vcore vio vaux refclk => Sys2Proof.Machine.execPowerOnResetRelease vcore vio vaux refclk s
  | .brownOut supply => Sys2Proof.Machine.execBrownOut supply s
  | .resetNFall => Sys2Proof.Machine.execResetNFall s
  | .resetNRelease vcore vio vaux => Sys2Proof.Machine.execResetNRelease vcore vio vaux s
  | .wake => Sys2Proof.Machine.execWake s
  | .bootComplete => Sys2Proof.Machine.execBootComplete s
  | .jtagFactoryRequest => Sys2Proof.Machine.execJtagFactoryRequest s
  | .refclkLoss => Sys2Proof.Machine.execRefclkLoss s
  | .refclkRestored => Sys2Proof.Machine.execRefclkRestored s
  | .hoursCommit => Sys2Proof.Machine.execHoursCommit s
  | .tbQtickWrite m q v => Sys2Proof.Machine.execTbQtickWrite m q v s
  | .qtickPeriodApply q => Sys2Proof.Machine.execQtickPeriodApply q s
  | .controlTick q => Sys2Proof.Machine.execControlTick q s
  | .pgRise r => Sys2Proof.Machine.execPgRise r s
  | .pgFall r => Sys2Proof.Machine.execPgFall r s
  | .phaseDrop r => Sys2Proof.Machine.execPhaseDrop r s
  | .rotationTick r => Sys2Proof.Machine.execRotationTick r s
  | .wearIncrement r j => Sys2Proof.Machine.execWearIncrement r j s
  | .engineDeadlineExpiry r => Sys2Proof.Machine.execEngineDeadlineExpiry r s
  | .eilFallback r => Sys2Proof.Machine.execEilFallback r s
  | .luLmbTag m r v => Sys2Proof.Machine.execLuLmbTag m r v s
  | .luLmbNop m r v => Sys2Proof.Machine.execLuLmbNop m r v s
  | .coefSwap m r v => Sys2Proof.Machine.execCoefSwap m r v s
  | .coefSwapApply r => Sys2Proof.Machine.execCoefSwapApply r s
  | .rtCommit m r => Sys2Proof.Machine.execRtCommit m r s
  | .rtEnable m r => Sys2Proof.Machine.execRtEnable m r s
  | .rtDisable m r => Sys2Proof.Machine.execRtDisable m r s
  | .rtClear m r => Sys2Proof.Machine.execRtClear m r s
  | .rtClrcnt m r => Sys2Proof.Machine.execRtClrcnt m r s
  | .supplyMonitorCmdTaken => Sys2Proof.Machine.execSupplyMonitorCmdTaken s
  | .railEntryApply r => Sys2Proof.Machine.execRailEntryApply r s
  | .burstSwFire m r v => Sys2Proof.Machine.execBurstSwFire m r v s
  | .burstStart r => Sys2Proof.Machine.execBurstStart r s
  | .burstHoldoffEnd r => Sys2Proof.Machine.execBurstHoldoffEnd r s
  | .hintDelivery v => Sys2Proof.Machine.execHintDelivery v s
  | .outcomeRecord r => Sys2Proof.Machine.execOutcomeRecord r s
  | .imTrustWrite m r t v => Sys2Proof.Machine.execImTrustWrite m r t v s
  | .imPartWrite m r t v => Sys2Proof.Machine.execImPartWrite m r t v s
  | .imCtrlWrite m r v => Sys2Proof.Machine.execImCtrlWrite m r v s
  | .imClrcnt m r => Sys2Proof.Machine.execImClrcnt m r s
  | .burstClrcnt m r => Sys2Proof.Machine.execBurstClrcnt m r s
  | .loadall m q mask => Sys2Proof.Machine.execLoadall m q mask s
  | .immediateLoad m q mask => Sys2Proof.Machine.execImmediateLoad m q mask s
  | .perStgWrite m n v => Sys2Proof.Machine.execPerStgWrite m n v s
  | .onStgWrite m n v => Sys2Proof.Machine.execOnStgWrite m n v s
  | .ofsStgWrite m n v => Sys2Proof.Machine.execOfsStgWrite m n v s
  | .modeWrite m n v => Sys2Proof.Machine.execModeWrite m n v s
  | .channelFirstPeriod n => Sys2Proof.Machine.execChannelFirstPeriod n s
  | .pwmReload n => Sys2Proof.Machine.execPwmReload n s
  | .guardOnEdge n => Sys2Proof.Machine.execGuardOnEdge n s
  | .tlrefCommit m q v => Sys2Proof.Machine.execTlrefCommit m q v s
  | .dtaWrite m n v => Sys2Proof.Machine.execDtaWrite m n v s
  | .tripAssert n => Sys2Proof.Machine.execTripAssert n s
  | .tripClear m n => Sys2Proof.Machine.execTripClear m n s
  | .loffClear m n => Sys2Proof.Machine.execLoffClear m n s
  | .rcntQuietReset n => Sys2Proof.Machine.execRcntQuietReset n s
  | .calMapComplete n g ok resid => Sys2Proof.Machine.execCalMapComplete n g ok resid s
  | .dtoppClear m n => Sys2Proof.Machine.execDtoppClear m n s
  | .tcntClear m n => Sys2Proof.Machine.execTcntClear m n s
  | .seqCommit m q => Sys2Proof.Machine.execSeqCommit m q s
  | .seqTableActivate q => Sys2Proof.Machine.execSeqTableActivate q s
  | .fcfgWrite m q c f v => Sys2Proof.Machine.execFcfgWrite m q c f v s
  | .filterSettle q c f => Sys2Proof.Machine.execFilterSettle q c f s
  | .sliceEstimateComplete q c e0 e1 e2 e3 => Sys2Proof.Machine.execSliceEstimateComplete q c e0 e1 e2 e3 s
  | .sliceEstimateApply q c => Sys2Proof.Machine.execSliceEstimateApply q c s
  | .adSretWrite m q c v => Sys2Proof.Machine.execAdSretWrite m q c v s
  | .sliceRetire q c => Sys2Proof.Machine.execSliceRetire q c s
  | .crossCheck q => Sys2Proof.Machine.execCrossCheck q s
  | .holdsClear m q c => Sys2Proof.Machine.execHoldsClear m q c s
  | .wcCfgWrite m q c v => Sys2Proof.Machine.execWcCfgWrite m q c v s
  | .wcThresholdCross q c x => Sys2Proof.Machine.execWcThresholdCross q c x s
  | .wcClearLo m q c => Sys2Proof.Machine.execWcClearLo m q c s
  | .wcClearHi m q c => Sys2Proof.Machine.execWcClearHi m q c s
  | .wcStuck q c upper => Sys2Proof.Machine.execWcStuck q c upper s
  | .wcImpl q c => Sys2Proof.Machine.execWcImpl q c s
  | .wcBoundWrite m q c upper v => Sys2Proof.Machine.execWcBoundWrite m q c upper v s
  | .wcToppClear m q c => Sys2Proof.Machine.execWcToppClear m q c s
  | .wcCntClear m q c => Sys2Proof.Machine.execWcCntClear m q c s
  | .ocpstatClear m n => Sys2Proof.Machine.execOcpstatClear m n s
  | .ocpcntClear m n => Sys2Proof.Machine.execOcpcntClear m n s
  | .uplinkFrame n w => Sys2Proof.Machine.execUplinkFrame n w s
  | .uplinkDeadline n => Sys2Proof.Machine.execUplinkDeadline n s
  | .resyncSuccess n => Sys2Proof.Machine.execResyncSuccess n s
  | .resyncAttemptFail n => Sys2Proof.Machine.execResyncAttemptFail n s
  | .resyncRetryStart n => Sys2Proof.Machine.execResyncRetryStart n s
  | .portVacated n => Sys2Proof.Machine.execPortVacated n s
  | .isolate m n => Sys2Proof.Machine.execIsolate m n s
  | .unisolate m n => Sys2Proof.Machine.execUnisolate m n s
  | .resync m n => Sys2Proof.Machine.execResync m n s
  | .rebind m n => Sys2Proof.Machine.execRebind m n s
  | .ppCounterClear m n k => Sys2Proof.Machine.execPpCounterClear m n k s
  | .hotJoin q pid bcr dcr => Sys2Proof.Machine.execHotJoin q pid bcr dcr s
  | .bindingRound q reports => Sys2Proof.Machine.execBindingRound q reports s
  | .stageBindComplete n => Sys2Proof.Machine.execStageBindComplete n s
  | .bindAlignTimeout n => Sys2Proof.Machine.execBindAlignTimeout n s
  | .stageIbi q temp a cause => Sys2Proof.Machine.execStageIbi q temp a cause s
  | .sbXferRead m q v => Sys2Proof.Machine.execSbXferRead m q v s
  | .sbXferWrite m q v => Sys2Proof.Machine.execSbXferWrite m q v s
  | .sbXferComplete q own ok retries d0 d1 d2 d3 => Sys2Proof.Machine.execSbXferComplete q own ok retries d0 d1 d2 d3 s
  | .sbIbiqRead m q => Sys2Proof.Machine.execSbIbiqRead m q s
  | .sbIbicntClear m q => Sys2Proof.Machine.execSbIbicntClear m q s
  | .varipCycle v => Sys2Proof.Machine.execVaripCycle v s
  | .hintSlot v ix w => Sys2Proof.Machine.execHintSlot v ix w s
  | .joinWord v w => Sys2Proof.Machine.execJoinWord v w s
  | .vbReopen m v ix => Sys2Proof.Machine.execVbReopen m v ix s
  | .vbEvict m v ix => Sys2Proof.Machine.execVbEvict m v ix s
  | .vbCfgWrite m p v => Sys2Proof.Machine.execVbCfgWrite m p v s
  | .vbCounterClear m v k => Sys2Proof.Machine.execVbCounterClear m v k s
  | .nop e => Sys2Proof.Machine.execNop e s
  | .mov e => Sys2Proof.Machine.execMov e s
  | .neg e => Sys2Proof.Machine.execNeg e s
  | .abs e => Sys2Proof.Machine.execAbs e s
  | .not e => Sys2Proof.Machine.execNot e s
  | .add e => Sys2Proof.Machine.execAdd e s
  | .adds e => Sys2Proof.Machine.execAdds e s
  | .sub e => Sys2Proof.Machine.execSub e s
  | .subs e => Sys2Proof.Machine.execSubs e s
  | .and e => Sys2Proof.Machine.execAnd e s
  | .or e => Sys2Proof.Machine.execOr e s
  | .xor e => Sys2Proof.Machine.execXor e s
  | .andn e => Sys2Proof.Machine.execAndn e s
  | .shl e => Sys2Proof.Machine.execShl e s
  | .shr e => Sys2Proof.Machine.execShr e s
  | .sar e => Sys2Proof.Machine.execSar e s
  | .shls e => Sys2Proof.Machine.execShls e s
  | .ror e => Sys2Proof.Machine.execRor e s
  | .min e => Sys2Proof.Machine.execMin e s
  | .max e => Sys2Proof.Machine.execMax e s
  | .minu e => Sys2Proof.Machine.execMinu e s
  | .maxu e => Sys2Proof.Machine.execMaxu e s
  | .slt e => Sys2Proof.Machine.execSlt e s
  | .sltu e => Sys2Proof.Machine.execSltu e s
  | .mullo e => Sys2Proof.Machine.execMullo e s
  | .cmp e => Sys2Proof.Machine.execCmp e s
  | .tst e => Sys2Proof.Machine.execTst e s
  | .addi e => Sys2Proof.Machine.execAddi e s
  | .andi e => Sys2Proof.Machine.execAndi e s
  | .ori e => Sys2Proof.Machine.execOri e s
  | .xori e => Sys2Proof.Machine.execXori e s
  | .movi e => Sys2Proof.Machine.execMovi e s
  | .shli e => Sys2Proof.Machine.execShli e s
  | .shri e => Sys2Proof.Machine.execShri e s
  | .sari e => Sys2Proof.Machine.execSari e s
  | .cmpi e => Sys2Proof.Machine.execCmpi e s
  | .movl e => Sys2Proof.Machine.execMovl e s
  | .movh e => Sys2Proof.Machine.execMovh e s
  | .sats e => Sys2Proof.Machine.execSats e s
  | .ldw e u => Sys2Proof.Machine.execLdw e u s
  | .ldh e u => Sys2Proof.Machine.execLdh e u s
  | .ldhu e u => Sys2Proof.Machine.execLdhu e u s
  | .ldb e u => Sys2Proof.Machine.execLdb e u s
  | .ldbu e u => Sys2Proof.Machine.execLdbu e u s
  | .stw x => Sys2Proof.Machine.execStw x s
  | .sth x => Sys2Proof.Machine.execSth x s
  | .stb x => Sys2Proof.Machine.execStb x s
  | .mul e => Sys2Proof.Machine.execMul e s
  | .mac e => Sys2Proof.Machine.execMac e s
  | .msu e => Sys2Proof.Machine.execMsu e s
  | .mulu e => Sys2Proof.Machine.execMulu e s
  | .macu e => Sys2Proof.Machine.execMacu e s
  | .mfp e => Sys2Proof.Machine.execMfp e s
  | .mtp e => Sys2Proof.Machine.execMtp e s
  | .divs e => Sys2Proof.Machine.execDivs e s
  | .divu e => Sys2Proof.Machine.execDivu e s
  | .divq e => Sys2Proof.Machine.execDivq e s
  | .rems e => Sys2Proof.Machine.execRems e s
  | .remu e => Sys2Proof.Machine.execRemu e s
  | .sqrtu e => Sys2Proof.Machine.execSqrtu e s
  | .sqrtq e => Sys2Proof.Machine.execSqrtq e s
  | .longOpComplete e => Sys2Proof.Machine.execLongOpComplete e s
  | .loadDataReturn e => Sys2Proof.Machine.execLoadDataReturn e s
  | .storeAck e => Sys2Proof.Machine.execStoreAck e s
  | .b e => Sys2Proof.Machine.execB e s
  | .call e => Sys2Proof.Machine.execCall e s
  | .callw e => Sys2Proof.Machine.execCallw e s
  | .jr e => Sys2Proof.Machine.execJr e s
  | .callr e => Sys2Proof.Machine.execCallr e s
  | .ret e => Sys2Proof.Machine.execRet e s
  | .retw e => Sys2Proof.Machine.execRetw e s
  | .rep e => Sys2Proof.Machine.execRep e s
  | .repi e => Sys2Proof.Machine.execRepi e s
  | .mfs e => Sys2Proof.Machine.execMfs e s
  | .mts e => Sys2Proof.Machine.execMts e s
  | .fence e => Sys2Proof.Machine.execFence e s
  | .flushI e => Sys2Proof.Machine.execFlushI e s
  | .wait e => Sys2Proof.Machine.execWait e s
  | .waitWake e => Sys2Proof.Machine.execWaitWake e s
  | .halt e => Sys2Proof.Machine.execHalt e s
  | .trap e => Sys2Proof.Machine.execTrap e s
  | .retx e => Sys2Proof.Machine.execRetx e s
  | .switch e => Sys2Proof.Machine.execSwitch e s
  | .savectx e => Sys2Proof.Machine.execSavectx e s
  | .loadctx e => Sys2Proof.Machine.execLoadctx e s
  | .interruptTaken e => Sys2Proof.Machine.execInterruptTaken e s
  | .bdRgnWrite m e r w v => Sys2Proof.Machine.execBdRgnWrite m e r w v s
  | .bdEctlWrite m e v => Sys2Proof.Machine.execBdEctlWrite m e v s
  | .bdSigWrite m e v => Sys2Proof.Machine.execBdSigWrite m e v s
  | .form m q b => Sys2Proof.Machine.execForm m q b s
  | .split m q b => Sys2Proof.Machine.execSplit m q b s
  | .join m q b ix => Sys2Proof.Machine.execJoin m q b ix s
  | .handover m q b arg => Sys2Proof.Machine.execHandover m q b arg s
  | .release m q b => Sys2Proof.Machine.execRelease m q b s
  | .bdClrcnt m q b => Sys2Proof.Machine.execBdClrcnt m q b s
  | .commitBoundary q b => Sys2Proof.Machine.execCommitBoundary q b s
  | .recordCompare q b d0 d1 d2 kind => Sys2Proof.Machine.execRecordCompare q b d0 d1 d2 kind s
  | .stateCopyPass1Done q b => Sys2Proof.Machine.execStateCopyPass1Done q b s
  | .checkerAlarm q u => Sys2Proof.Machine.execCheckerAlarm q u s
  | .replayParityError q b both => Sys2Proof.Machine.execReplayParityError q b both s
  | .checkerUnitFreed q b => Sys2Proof.Machine.execCheckerUnitFreed q b s
  | .bdEvqRead m q => Sys2Proof.Machine.execBdEvqRead m q s
  | .bdCfgWrite m q v => Sys2Proof.Machine.execBdCfgWrite m q v s
  | .timerZero q m => Sys2Proof.Machine.execTimerZero q m s
  | .timerCompare q m => Sys2Proof.Machine.execTimerCompare q m s
  | .tmLoad m q t => Sys2Proof.Machine.execTmLoad m q t s
  | .tmCapture m q t => Sys2Proof.Machine.execTmCapture m q t s
  | .tmCappopRead m q t => Sys2Proof.Machine.execTmCappopRead m q t s
  | .tmCmpsetCommit m q t v => Sys2Proof.Machine.execTmCmpsetCommit m q t v s
  | .tmRldCommit m q t v => Sys2Proof.Machine.execTmRldCommit m q t v s
  | .evtPinTransition q x level => Sys2Proof.Machine.execEvtPinTransition q x level s
  | .evtResolveWindowEnd q x => Sys2Proof.Machine.execEvtResolveWindowEnd q x s
  | .evtAcceptedEdge q x => Sys2Proof.Machine.execEvtAcceptedEdge q x s
  | .evtStuck q x => Sys2Proof.Machine.execEvtStuck q x s
  | .evtOutputChange q o => Sys2Proof.Machine.execEvtOutputChange q o s
  | .evtPulseEnd q o => Sys2Proof.Machine.execEvtPulseEnd q o s
  | .evtcntClear m q x => Sys2Proof.Machine.execEvtcntClear m q x s
  | .recorderSample c t => Sys2Proof.Machine.execRecorderSample c t s
  | .erCommit m => Sys2Proof.Machine.execErCommit m s
  | .erHclr m => Sys2Proof.Machine.execErHclr m s
  | .erXtclr m => Sys2Proof.Machine.execErXtclr m s
  | .erLclr m => Sys2Proof.Machine.execErLclr m s
  | .erClrcnt m => Sys2Proof.Machine.execErClrcnt m s
  | .recorderAutoCommit => Sys2Proof.Machine.execRecorderAutoCommit s
  | .recorderCommitDone => Sys2Proof.Machine.execRecorderCommitDone s
  | .scrubRead u => Sys2Proof.Machine.execScrubRead u s
  | .mrRetire m k u => Sys2Proof.Machine.execMrRetire m k u s
  | .mrRowadd m k u => Sys2Proof.Machine.execMrRowadd m k u s
  | .mrBrst m k mig => Sys2Proof.Machine.execMrBrst m k mig s
  | .pageRetireDone => Sys2Proof.Machine.execPageRetireDone s
  | .bankResetDone => Sys2Proof.Machine.execBankResetDone s
  | .mrElogRead m => Sys2Proof.Machine.execMrElogRead m s
  | .nvAppend m sect => Sys2Proof.Machine.execNvAppend m sect s
  | .nvSector m sect => Sys2Proof.Machine.execNvSector m sect s
  | .nvErase m sect => Sys2Proof.Machine.execNvErase m sect s
  | .nvAppendDone ok => Sys2Proof.Machine.execNvAppendDone ok s
  | .nvSectorDone ok => Sys2Proof.Machine.execNvSectorDone ok s
  | .backgroundEraseDone p ok => Sys2Proof.Machine.execBackgroundEraseDone p ok s
  | .staticWearLevel => Sys2Proof.Machine.execStaticWearLevel s
  | .nvmWindowRead m a flips => Sys2Proof.Machine.execNvmWindowRead m a flips s
  | .nvmRefresh sect => Sys2Proof.Machine.execNvmRefresh sect s
  | .nvEccClear m => Sys2Proof.Machine.execNvEccClear m s
  | .mbDoorbell v ring => Sys2Proof.Machine.execMbDoorbell v ring s
  | .mbFreqClear m mask => Sys2Proof.Machine.execMbFreqClear m mask s
  | .mbFpost m x => Sys2Proof.Machine.execMbFpost m x s
  | .mbHrdyClear v mask => Sys2Proof.Machine.execMbHrdyClear v mask s
  | .getInfo x => Sys2Proof.Machine.execGetInfo x s
  | .getStatus x => Sys2Proof.Machine.execGetStatus x s
  | .setMode x => Sys2Proof.Machine.execSetMode x s
  | .sessionOpen x => Sys2Proof.Machine.execSessionOpen x s
  | .sessionClose x => Sys2Proof.Machine.execSessionClose x s
  | .getNonce x => Sys2Proof.Machine.execGetNonce x s
  | .claimOwner x => Sys2Proof.Machine.execClaimOwner x s
  | .setHostpol x pmbw haen => Sys2Proof.Machine.execSetHostpol x pmbw haen s
  | .railGet x => Sys2Proof.Machine.execRailGet x s
  | .railSet x => Sys2Proof.Machine.execRailSet x s
  | .railEnable x => Sys2Proof.Machine.execRailEnable x s
  | .railDisable x => Sys2Proof.Machine.execRailDisable x s
  | .railClear x => Sys2Proof.Machine.execRailClear x s
  | .railPolicy x r y => Sys2Proof.Machine.execRailPolicy x r y s
  | .phaseGet x n => Sys2Proof.Machine.execPhaseGet x n s
  | .phaseCmd x op n => Sys2Proof.Machine.execPhaseCmd x op n s
  | .engineGet x e => Sys2Proof.Machine.execEngineGet x e s
  | .bindingCmd x q op b ix arg => Sys2Proof.Machine.execBindingCmd x q op b ix arg s
  | .folioLoad x => Sys2Proof.Machine.execFolioLoad x s
  | .folioVerify x => Sys2Proof.Machine.execFolioVerify x s
  | .folioInstall x ok => Sys2Proof.Machine.execFolioInstall x ok s
  | .folioActivate x => Sys2Proof.Machine.execFolioActivate x s
  | .folioConfirm x => Sys2Proof.Machine.execFolioConfirm x s
  | .folioDir x => Sys2Proof.Machine.execFolioDir x s
  | .telemRead x qs tj => Sys2Proof.Machine.execTelemRead x qs tj s
  | .telemStream x qs us => Sys2Proof.Machine.execTelemStream x qs us s
  | .telemStreamRecord tj => Sys2Proof.Machine.execTelemStreamRecord tj s
  | .recRead x off n => Sys2Proof.Machine.execRecRead x off n s
  | .recCmd x op => Sys2Proof.Machine.execRecCmd x op s
  | .faultLog x => Sys2Proof.Machine.execFaultLog x s
  | .faultClear x => Sys2Proof.Machine.execFaultClear x s
  | .attest x => Sys2Proof.Machine.execAttest x s
  | .getCert x => Sys2Proof.Machine.execGetCert x s
  | .abort x => Sys2Proof.Machine.execAbort x s
  | .sessionIdleTimeout x => Sys2Proof.Machine.execSessionIdleTimeout x s
  | .hwabortSession v ix arg => Sys2Proof.Machine.execHwabortSession v ix arg s
  | .hwabortSupervision v ix arg => Sys2Proof.Machine.execHwabortSupervision v ix arg s
  | .hwabortEngine v ix arg => Sys2Proof.Machine.execHwabortEngine v ix arg s
  | .hwabortBinding v ix arg => Sys2Proof.Machine.execHwabortBinding v ix arg s
  | .hwabortStageBus v ix arg => Sys2Proof.Machine.execHwabortStageBus v ix arg s
  | .hwabortFolio v ix arg => Sys2Proof.Machine.execHwabortFolio v ix arg s
  | .hwabortForeman v ix arg => Sys2Proof.Machine.execHwabortForeman v ix arg s
  | .hwAbortComplete => Sys2Proof.Machine.execHwAbortComplete s
  | .mbCntClear m => Sys2Proof.Machine.execMbCntClear m s
  | .i3cPrivateWrite bs => Sys2Proof.Machine.execI3cPrivateWrite bs s
  | .i3cPrivateRead n => Sys2Proof.Machine.execI3cPrivateRead n s
  | .cccEntdaa da => Sys2Proof.Machine.execCccEntdaa da s
  | .cccSetdasa sa da => Sys2Proof.Machine.execCccSetdasa sa da s
  | .cccSetnewda da new => Sys2Proof.Machine.execCccSetnewda da new s
  | .cccRstdaa => Sys2Proof.Machine.execCccRstdaa s
  | .cccEnec bits => Sys2Proof.Machine.execCccEnec bits s
  | .cccDisec bits => Sys2Proof.Machine.execCccDisec bits s
  | .cccGetpid => Sys2Proof.Machine.execCccGetpid s
  | .cccGetbcr => Sys2Proof.Machine.execCccGetbcr s
  | .cccGetdcr => Sys2Proof.Machine.execCccGetdcr s
  | .cccGetstatus => Sys2Proof.Machine.execCccGetstatus s
  | .cccSetmwl n => Sys2Proof.Machine.execCccSetmwl n s
  | .cccSetmrl n => Sys2Proof.Machine.execCccSetmrl n s
  | .cccGetmwl => Sys2Proof.Machine.execCccGetmwl s
  | .cccGetmrl => Sys2Proof.Machine.execCccGetmrl s
  | .cccGetmxds => Sys2Proof.Machine.execCccGetmxds s
  | .cccEnthdr0 => Sys2Proof.Machine.execCccEnthdr0 s
  | .cccUnsupported code => Sys2Proof.Machine.execCccUnsupported code s
  | .mbxAddr bs pec => Sys2Proof.Machine.execMbxAddr bs pec s
  | .mbxDataWrite bs pec => Sys2Proof.Machine.execMbxDataWrite bs pec s
  | .mbxDataRead n => Sys2Proof.Machine.execMbxDataRead n s
  | .alertResponse => Sys2Proof.Machine.execAlertResponse s
  | .spiWrite a bs => Sys2Proof.Machine.execSpiWrite a bs s
  | .spiRead a n => Sys2Proof.Machine.execSpiRead a n s
  | .spiQuadWrite a bs => Sys2Proof.Machine.execSpiQuadWrite a bs s
  | .spiQuadRead a n => Sys2Proof.Machine.execSpiQuadRead a n s
  | .spiStatus => Sys2Proof.Machine.execSpiStatus s
  | .setEndpointId bus eid => Sys2Proof.Machine.execSetEndpointId bus eid s
  | .getEndpointId bus => Sys2Proof.Machine.execGetEndpointId bus s
  | .getMctpVersionSupport bus => Sys2Proof.Machine.execGetMctpVersionSupport bus s
  | .getMessageTypeSupport bus => Sys2Proof.Machine.execGetMessageTypeSupport bus s
  | .getVendorDefinedMessageSupport bus => Sys2Proof.Machine.execGetVendorDefinedMessageSupport bus s
  | .mctpLyheufMessage bus endpoint bs => Sys2Proof.Machine.execMctpLyheufMessage bus endpoint bs s
  | .page w pec => Sys2Proof.Machine.execPage w pec s
  | .operation w pec => Sys2Proof.Machine.execOperation w pec s
  | .onOffConfig => Sys2Proof.Machine.execOnOffConfig s
  | .clearFaults pec => Sys2Proof.Machine.execClearFaults pec s
  | .capability => Sys2Proof.Machine.execCapability s
  | .voutMode => Sys2Proof.Machine.execVoutMode s
  | .voutCommand w pec => Sys2Proof.Machine.execVoutCommand w pec s
  | .statusByte => Sys2Proof.Machine.execStatusByte s
  | .statusWord => Sys2Proof.Machine.execStatusWord s
  | .statusVout => Sys2Proof.Machine.execStatusVout s
  | .statusIout => Sys2Proof.Machine.execStatusIout s
  | .statusTemperature => Sys2Proof.Machine.execStatusTemperature s
  | .statusCml => Sys2Proof.Machine.execStatusCml s
  | .readVin => Sys2Proof.Machine.execReadVin s
  | .readVout => Sys2Proof.Machine.execReadVout s
  | .readIout => Sys2Proof.Machine.execReadIout s
  | .readTemperature1 => Sys2Proof.Machine.execReadTemperature1 s
  | .pmbusRevision => Sys2Proof.Machine.execPmbusRevision s
  | .mfrId => Sys2Proof.Machine.execMfrId s
  | .mfrModel => Sys2Proof.Machine.execMfrModel s
  | .mfrRevision => Sys2Proof.Machine.execMfrRevision s
  | .pmbusInvalidCommand code write pec => Sys2Proof.Machine.execPmbusInvalidCommand code write pec s
  | .scArbset m arg => Sys2Proof.Machine.execScArbset m arg s
  | .scRevoke m arg => Sys2Proof.Machine.execScRevoke m arg s
  | .scOwnerprog m => Sys2Proof.Machine.execScOwnerprog m s
  | .scFuseDone ok => Sys2Proof.Machine.execScFuseDone ok s
  | .scSha3 m => Sys2Proof.Machine.execScSha3 m s
  | .scVerify m => Sys2Proof.Machine.execScVerify m s
  | .scSign m => Sys2Proof.Machine.execScSign m s
  | .scJobDone => Sys2Proof.Machine.execScJobDone s
  | .scLockWrite m => Sys2Proof.Machine.execScLockWrite m s
  | .trialExpiry t ix => Sys2Proof.Machine.execTrialExpiry t ix s
  | .shadowReady => Sys2Proof.Machine.execShadowReady s
  | .shadowReadyTimeout => Sys2Proof.Machine.execShadowReadyTimeout s
  | .foremanUpdateDone => Sys2Proof.Machine.execForemanUpdateDone s
  | .foremanUpdateTimeout => Sys2Proof.Machine.execForemanUpdateTimeout s
  | .lockoutRestart e => Sys2Proof.Machine.execLockoutRestart e s
  | .faultReport x => Sys2Proof.Machine.execFaultReport x s
  | .fmQRead m => Sys2Proof.Machine.execFmQRead m s
  | .faultLogAppend => Sys2Proof.Machine.execFaultLogAppend s
  | .fmAck m => Sys2Proof.Machine.execFmAck m s
  | .fmFecClr m => Sys2Proof.Machine.execFmFecClr m s
  | .fmQdropClear m => Sys2Proof.Machine.execFmQdropClear m s
  | .fmLogdropClear m => Sys2Proof.Machine.execFmLogdropClear m s
  | .fmWdog m => Sys2Proof.Machine.execFmWdog m s
  | .watchdogExpiry => Sys2Proof.Machine.execWatchdogExpiry s
  | .quietPeriodEnd => Sys2Proof.Machine.execQuietPeriodEnd s
  | .reconcilePass => Sys2Proof.Machine.execReconcilePass s
  | .fmTripGo m r => Sys2Proof.Machine.execFmTripGo m r s
  | .fmRecclr m => Sys2Proof.Machine.execFmRecclr m s
  | .fmAvclr m => Sys2Proof.Machine.execFmAvclr m s
  | .fmDisqRead m => Sys2Proof.Machine.execFmDisqRead m s
  | .foremanCoreMismatch c => Sys2Proof.Machine.execForemanCoreMismatch c s
  | .shedLevelChange ths crossed vcore vaux => Sys2Proof.Machine.execShedLevelChange ths crossed vcore vaux s
  | .seqStart m => Sys2Proof.Machine.execSeqStart m s
  | .seqGroupStart => Sys2Proof.Machine.execSeqGroupStart s
  | .seqPgTimeout r => Sys2Proof.Machine.execSeqPgTimeout r s
  | .sequenceEnd => Sys2Proof.Machine.execSequenceEnd s
  | .shutdownGroupDisable => Sys2Proof.Machine.execShutdownGroupDisable s
  | .shutdownComplete => Sys2Proof.Machine.execShutdownComplete s
  | .shed6AppendTimeout => Sys2Proof.Machine.execShed6AppendTimeout s
  | .pwrgdInRise => Sys2Proof.Machine.execPwrgdInRise s
  | .pwrgdInFall => Sys2Proof.Machine.execPwrgdInFall s
  | .speedMeasure u v => Sys2Proof.Machine.execSpeedMeasure u v s
  | .smSupplyMinReset m supply => Sys2Proof.Machine.execSmSupplyMinReset m supply s
  | .smPginClear m => Sys2Proof.Machine.execSmPginClear m s
  | .aggregateSample q c code => Sys2Proof.Machine.execAggregateSample q c code s
  | .rawStateFall q c x => Sys2Proof.Machine.execRawStateFall q c x s
  | .hsOffEdge n => Sys2Proof.Machine.execHsOffEdge n s
  | .pass2Complete q b => Sys2Proof.Machine.execPass2Complete q b s
  | .foremanServesAgain => Sys2Proof.Machine.execForemanServesAgain s
  | .tripLinePulseEnd r => Sys2Proof.Machine.execTripLinePulseEnd r s

end Sys2Proof.Machine
end

