-- ==== Sys2Proof/Machine/Idle.lean ====
section
/-! DEFINITION. What one nanosecond does: the time base counts (R18), operating hours accrue (R19), and the counters
that run with time move. -/

namespace Sys2Proof.Machine

/-- One nanosecond of the operating hours: 10^8 of them make one 0.1 s unit (R19). -/
def hoursTick (b : TimeBase) : TimeBase :=
  if b.part + 1 < 100000000 then { b with part := b.part + 1 }
  else { b with part := 0, hrs := (b.hrs + 1) % 2 ^ 40 }

/-- Rail r is unavailable: expected on, has reached PG = 1 since, and is not in ON with PG = 1 (R385). -/
def railUnavailable (s : State) (r : Nat) : Bool :=
  tget (fun _ => 0) s.fm.expected r != 0 && tget (fun _ => 0) s.fm.reached r != 0 &&
    !(railState s r == 2 && flag s (Reg.RT_STATE r) Fld.RT_STATE_PG)

/-- One nanosecond of unavailable time of rail r: FM_AVUN counts whole microseconds (R385). -/
def unavailTick (r : Nat) (s : State) : State :=
  if railUnavailable s r then
    let n := tget (fun _ => 0) s.fm.unavail r
    if n + 1 < 1000 then updFm (fun f => { f with unavail := tset (fun _ => 0) f.unavail r (n + 1) }) s
    else incFld (Reg.FM_AVUN r) wordBits (updFm (fun f => { f with unavail := tset (fun _ => 0) f.unavail r 0 }) s)
  else s

/-- The supervising binding of rail r keeps the promise: T0 or T1 of its home quire, in RUN, with its half's spare
reserved; SUPV values 0 and 7 name none (R42, R386). -/
def supervised (s : State) (r : Nat) : Bool :=
  let v := getBits (railOf s r).entry.cfg Fld.RT_CFG_SUPV
  let q := homeOf r
  (v == 5 && bindState s q 4 == 2 && spareReserved s q 0) || (v == 6 && bindState s q 5 == 2 && spareReserved s q 1)

/-- The conditions of the promise that the device can see hold for rail r (R386). (DESIGN CHOICE, log 153) -/
def promiseHolds (s : State) (r : Nat) : Bool :=
  let e := (railOf s r).entry
  decide (shed s < 6) && !bitAt (rd s Reg.FM_DEGR) 0 && supervised s r &&
    decide (min (ceilDiv (10 * e.total) e.iadd) e.ceil + 2 ≤ fld s (Reg.RT_STATE r) Fld.RT_STATE_NAVAIL) &&
    e.ports.all fun n => fld s (Reg.PP_LOSS (quireOf n) (localOf n)) Fld.PP_LOSS_RSFAIL == 0

/-- The Foreman observes rail r while it is expected on (R386). (DESIGN CHOICE, log 153) -/
def observeRail (r : Nat) (s : State) : State :=
  if tget (fun _ => 0) s.fm.expected r = 0 ∨ promiseHolds s r = true then s else breach r s

/-- A change of a driven pin has waited 2 ns at input i, which is quire x 32 + pin: it is synchronised by now (R17).
(DEDUCED, log 84) -/
def syncLate (i : Nat) (s : State) : State :=
  match (evtInOf s (i / 32) (i % 32)).coming with
  | (t, _) :: _ => if t + 2 ≤ s.tb.ns then takeComing (i / 32) (i % 32) s else s
  | [] => s

/-- A pulse of the trip line to rail r ends 16 ns after its start at the latest (R368). (DEDUCED, log 154) -/
def pulseLate (r : Nat) (s : State) : State :=
  if tget (fun _ => 0) s.fm.pulseAt r - 1 + 16 ≤ s.tb.ns + 1 then endPulse r s else s

/-- What is settled as a tick ends: pulses of the trip line that are at their longest, captures that found no room,
changes of driven pins, excursions of sources that are no longer valid, and breaches of the availability promise (R17,
R278, R284, R289, R368, R386). -/
def endTick (s : State) : State :=
  s |> forAll (s.fm.pulse.map (·.1)) pulseLate
    |> forAll (s.timers.map (·.1)) (fun i s => dropLate (i / 8) (i % 8) s) |> forAll (s.evtIns.map (·.1)) syncLate
    |> endInvalid |> (fun s => if foremanServes s then forAll (s.fm.expected.map (·.1)) observeRail s else s)

/-- What the Foreman goes on with as it serves: an activation in progress, and PMBus writes that wait (R331, R359,
R362). (DEDUCED, log 234) -/
def foremanTick (s : State) : State := if foremanServes s then pmbTick (activationTick s) else s

/-- The supply monitor samples every 50 ns (R398). (DESIGN CHOICE, log 156) -/
def supplyTick (s : State) : State := if s.tb.ns % 50 = 0 then supplySample false s else s

/-- One nanosecond with no command: TB_NS counts while the device is out of reset and powered, and operating hours
accrue out of DORMANT, and unavailable time of the rails that are expected on; the flags set on the tick that ends are
no longer new, the supply monitor samples and the Foreman goes on (R10, R18, R19, R385, R398). (DEDUCED, log 226;
DESIGN CHOICE, log 2, 153) -/
def idleTick (s : State) : State :=
  if s.tb.hold = .por ∨ mode s = 0 then s
  else
    let s := updTb hoursTick s
    if alive s then
      let s := forAll (s.fm.expected.map (·.1)) unavailTick (endTick s)
      foremanTick (supplyTick (updTb (fun b => { b with ns := (b.ns + 1) % 2 ^ 64 }) { s with raised := [] }))
    else s

end Sys2Proof.Machine
end

