-- ==== Sys2Proof/Machine/Encode.lean ====
section
/-! DEFINITION. The words of the engines' operations, written from the formats and the tables of R187 to R189, R207 and
R208: what an assembler makes of an operation, none where no word spells it. -/

namespace Sys2Proof.Machine

/-- The n-bit field of a sign-extended 32-bit pattern, where there is one. -/
def immField (n v : Nat) : Option Nat := if simm n (v % 2 ^ n) = v then some (v % 2 ^ n) else none

/-- The n-bit field of a signed offset, where there is one. -/
def ofsField (n : Nat) (x : Int) : Option Nat := if sx n (pat n x) = x then some (pat n x) else none

/-- A long word (R188): bits 30:25, 24:21, 20:17 and 16:0; none where a register or field is out of range. -/
def longWord (op d a i : Nat) : Option Nat :=
  if op < 64 ∧ d < 16 ∧ a < 16 ∧ i < 2 ^ 17 then some (op * 2 ^ 25 + d * 2 ^ 21 + a * 2 ^ 17 + i) else none

/-- A long word of three registers (R188). -/
def rrrWord (op d a b fn : Nat) : Option Nat :=
  if b < 16 ∧ fn < 2 ^ 13 then longWord op d a (b * 2 ^ 13 + fn) else none

/-- A long word of a register and a 21-bit field (R188). -/
def ri21Word (op d i : Nat) : Option Nat :=
  if i < 2 ^ 21 then longWord op d (i / 2 ^ 17) (i % 2 ^ 17) else none

/-- A long word of a 25-bit field (R188). -/
def jWord (op i : Nat) : Option Nat :=
  if op < 64 ∧ i < 2 ^ 25 then some (op * 2 ^ 25 + i) else none

/-- FN of a three-register operation (R208). -/
def rrrFn : Row → AluOp → Option Nat
  | .add, .add => some 0x00
  | .adds, .adds => some 0x01
  | .sub, .sub => some 0x02
  | .subs, .subs => some 0x03
  | .and, .and => some 0x04
  | .or, .or => some 0x05
  | .xor, .xor => some 0x06
  | .andn, .andn => some 0x07
  | .shl, .shl => some 0x08
  | .shr, .shr => some 0x09
  | .sar, .sar => some 0x0A
  | .shls, .shls => some 0x0B
  | .min, .min => some 0x0C
  | .max, .max => some 0x0D
  | .minu, .minu => some 0x0E
  | .maxu, .maxu => some 0x0F
  | .slt, .slt => some 0x10
  | .sltu, .sltu => some 0x11
  | .mullo, .mullo => some 0x12
  | _, _ => none

/-- OP of an operation with a 17-bit immediate (R208). -/
def riOp : Row → AluOp → Option Nat
  | .addi, .add => some 0x02
  | .andi, .and => some 0x03
  | .ori, .or => some 0x04
  | .xori, .xor => some 0x05
  | _, _ => none

/-- The kind of a shift by an immediate of OP 0x06 (R208). -/
def shiftKind : Row → AluOp → Option Nat
  | .shl, .shl => some 0
  | .shr, .shr => some 1
  | .sar, .sar => some 2
  | .shls, .shls => some 3
  | .ror, .ror => some 4
  | _, _ => none

/-- OP of a long load, and of a long store (R208). -/
def loadCode : Width → Nat
  | .word => 0x10
  | .half => 0x11
  | .halfU => 0x12
  | .byte => 0x13
  | .byteU => 0x14

def storeCode : Width → Option Nat
  | .word => some 0x15
  | .half => some 0x16
  | .byte => some 0x17
  | _ => none

/-- A SYS word: FN is its number over its parameter (R208). -/
def sysWord (op par a : Nat) : Option Nat := rrrWord 0x38 0 a 0 (op + 64 * par)

/-- The long word of an operation (R188, R208). -/
def encodeLong : Op → Option Nat
  | .nop => some 0
  | .alu r f d (.reg a) (.reg b) => (rrrFn r f).bind (rrrWord 0x01 d a b)
  | .alu r f d (.reg a) (.imm v) =>
    match riOp r f, shiftKind r f with
    | some op, _ => (immField 17 v).bind (longWord op d a)
    | none, some k => if v < 32 then longWord 0x06 d a (32 * k + v) else none
    | none, none => none
  | .alu .movl .mov d (.imm v) (.imm 0) => (immField 21 v).bind (ri21Word 0x08 d)
  | .alu .. => none
  | .cmp .cmp a (.reg b) => rrrWord 0x01 0 a b 0x13
  | .cmp .cmpi a (.imm v) => (immField 17 v).bind (longWord 0x07 0 a)
  | .cmp .. => none
  | .tst .. => none
  | .movh d i => if i < 2 ^ 16 then ri21Word 0x09 d i else none
  | .sats d a n => if n < 32 then longWord 0x0A d a n else none
  | .load w d a ofs post => if post = 0 then (ofsField 17 ofs).bind (longWord (loadCode w) d a) else none
  | .store w d a ofs post =>
    if post = 0 then (storeCode w).bind fun op => (ofsField 17 ofs).bind (longWord op d a) else none
  | .mul k x a b => if k < 5 ∧ x < 4 then rrrWord 0x18 0 a b (4 * k + x) else none
  | .mfp d x sh r t =>
    if x < 4 ∧ sh < 64 then longWord 0x19 d 0 (x + 4 * sh + 256 * b2n r + 512 * b2n t) else none
  | .mtp x a sh c => if x < 4 ∧ sh < 64 then longWord 0x1A 0 a (x + 4 * sh + 256 * b2n c) else none
  | .div k d a b => if k < 5 then rrrWord 0x1C d a b k else none
  | .sqrt k d a => if k < 2 then rrrWord 0x1D d a 0 k else none
  | .br c ofs => if c = 15 then none else (ofsField 21 ofs).bind (ri21Word 0x20 c)
  | .call ofs => (ofsField 25 ofs).bind (jWord 0x21)
  | .callw ofs => (ofsField 25 ofs).bind (jWord 0x22)
  | .jr a => rrrWord 0x23 0 a 0 0
  | .callr a => rrrWord 0x23 0 a 0 1
  | .ret => rrrWord 0x23 0 0 0 2
  | .retw => rrrWord 0x23 0 0 0 3
  | .rep i n => if 1 ≤ n ∧ n ≤ 4096 then longWord 0x28 0 0 (n - 1 + 4096 * b2n i) else none
  | .mfs d n => if n < 256 then longWord 0x30 d 0 n else none
  | .mts n a => if n < 256 then longWord 0x31 0 a n else none
  | .fence => sysWord 0x00 0 0
  | .flushI => sysWord 0x01 0 0
  | .wait => sysWord 0x02 0 0
  | .halt => sysWord 0x03 0 0
  | .trap n => if n < 16 then sysWord 0x04 n 0 else none
  | .retx => sysWord 0x05 0 0
  | .switch k => if k < 4 then sysWord 0x06 k 0 else none
  | .savectx a => sysWord 0x07 0 a
  | .loadctx a => sysWord 0x08 0 a

/-- A short word of OP, D, S and X (R189). -/
def srWord (op d s x : Nat) : Option Nat :=
  if d < 16 ∧ s < 16 ∧ x < 4 then some (op * 2 ^ 10 + d * 2 ^ 6 + s * 4 + x) else none

/-- A short word of OP, D and a 6-bit field (R189). -/
def siWord (op d i : Nat) : Option Nat :=
  if d < 16 ∧ i < 64 then some (op * 2 ^ 10 + d * 2 ^ 6 + i) else none

/-- OP and X of a move or of an operation d <- d f s (R207). -/
def shortCode : Row → AluOp → Option (Nat × Nat)
  | .mov, .mov => some (0x01, 0)
  | .neg, .neg => some (0x01, 1)
  | .abs, .abs => some (0x01, 2)
  | .not, .not => some (0x01, 3)
  | .add, .add => some (0x02, 0)
  | .adds, .adds => some (0x02, 1)
  | .sub, .sub => some (0x02, 2)
  | .subs, .subs => some (0x02, 3)
  | .and, .and => some (0x03, 0)
  | .or, .or => some (0x03, 1)
  | .xor, .xor => some (0x03, 2)
  | .andn, .andn => some (0x03, 3)
  | .shl, .shl => some (0x04, 0)
  | .shr, .shr => some (0x04, 1)
  | .sar, .sar => some (0x04, 2)
  | .shls, .shls => some (0x04, 3)
  | .min, .min => some (0x05, 0)
  | .max, .max => some (0x05, 1)
  | .minu, .minu => some (0x05, 2)
  | .maxu, .maxu => some (0x05, 3)
  | _, _ => none

/-- OP of a short shift by an immediate (R207). -/
def shortShift : Row → AluOp → Option Nat
  | .shli, .shl => some 0x0A
  | .shri, .shr => some 0x0B
  | .sari, .sar => some 0x0C
  | _, _ => none

/-- X of a short memory form (R207). -/
def memCode (ofs post : Int) : Option Nat :=
  if ofs = 0 then if post = 0 then some 0 else if post = 4 then some 1 else if post = -4 then some 2 else none
  else if ofs = 4 ∧ post = 0 then some 3 else none

/-- The short word of an operation (R189, R207). -/
def encodeShort : Op → Option Nat
  | .nop => some 0
  | .alu r f d (.reg a) (.reg b) =>
    match shortCode r f with
    | some (op, x) => if a = d ∧ op ≠ 0x01 then srWord op d b x else none
    | none => none
  | .alu r f d (.reg a) (.imm v) =>
    match shortCode r f, shortShift r f with
    | some (op, x), _ => if v = 0 ∧ op = 0x01 then srWord op d a x else none
    | none, some op => if a = d ∧ v < 32 then siWord op d v else none
    | none, none => if r = .addi ∧ f = .add ∧ a = d then (immField 6 v).bind (siWord 0x08 d) else none
  | .alu .movi .mov d (.imm v) (.imm 0) => (immField 6 v).bind (siWord 0x09 d)
  | .cmp .cmp a (.reg b) => srWord 0x06 a b 0
  | .cmp .cmpi a (.imm v) => (immField 6 v).bind (siWord 0x0D a)
  | .tst a b => srWord 0x06 a b 1
  | .load .word d a ofs post =>
    (memCode ofs post).bind fun x => if d = a ∧ (x = 1 ∨ x = 2) then none else srWord 0x10 d a x
  | .store .word d a ofs post => (memCode ofs post).bind (srWord 0x11 d a)
  | .mul k x a b => if k < 3 then srWord (0x14 + k) a b x else none
  | .mfp d x 31 true true => srWord 0x17 d 0 x
  | .br c ofs => if c = 15 then none else (ofsField 6 ofs).bind (siWord 0x18 c)
  | _ => none

/-- The word of a paired bundle of two short words (R187). -/
def pairWord (a b : Nat) : Nat := 2 ^ 31 + a * 2 ^ 16 + b * 2

end Sys2Proof.Machine
end

