-- ==== Sys2Proof/WellFormed.lean ====
section
/-! DEFINITION. Well-formed commands. -/

namespace Sys2Proof

/-- A command's operands are ones the device can meet: a register write is to a 4-aligned address (R9). -/
def Instr.wellFormed : Instr → Bool
  | .regWrite _ a _ => a.toNat % 4 == 0
  | _ => true

end Sys2Proof
end

