-- ==== Sys2Proof/Safety.lean ====
section
/-! DEFINITION. The words the statements are made with: what it is for a command to run, who may send one to a register,
and what a command leaves alone. -/

namespace Sys2Proof.Machine

/-- Command c runs at s: exec answers a next state, and P holds of it. -/
def Runs (c : Instr) (s : State) (P : State → Prop) : Prop := ∃ t, exec c s = .next t ∧ P t

/-- The device is powered and out of reset, and master m may write the register at a (R29, R31, R36). -/
def CanWrite (s : State) (m : Master) (a : Nat) : Prop := alive s = true ∧ mayReach m a true = true

/-- The device is powered and out of reset, and master m may read the register at a (R29, R31, R36). -/
def CanRead (s : State) (m : Master) (a : Nat) : Prop := alive s = true ∧ mayReach m a false = true

/-- Every register but those listed reads as before. -/
def KeepsRegs (as : List Nat) (s t : State) : Prop := ∀ a, a ∉ as → rd t a = rd s a

/-- Nothing but the registers listed has changed: no other register and no mark of a flag of another that hardware set
on this tick (R10), no unit, no byte of memory, no waiting command. -/
def OnlyRegs (as : List Nat) (s t : State) : Prop :=
  KeepsRegs as s t ∧ (∀ a, a ∉ as → raisedIn t a = raisedIn s a) ∧ t = { s with regs := t.regs, raised := t.raised }

/-- Every byte of memory reads as before. -/
def KeepsMemory (s t : State) : Prop := ∀ a, memByte t a = memByte s a

/-- Every engine but e is as before. -/
def KeepsEngines (e : Nat) (s t : State) : Prop := ∀ k, k ≠ e → engOf t k = engOf s k

/-- The memory stands in its canonical form: addresses strictly rising, no byte equal to what an unlisted address reads
as. -/
def Memory.wf (s : State) : Bool := tcanon (fun _ => 0#8) s.mem

/-- The sides of a channel stand apart: at most one is on, and an on-edge that the guard holds finds the other side off;
one held for HS is the only one (R108, R109). -/
def Apart (c : Chan) : Prop :=
  ¬(c.hs = true ∧ c.ls = true) ∧ (c.pendHs ≠ 0 → c.hs = false ∧ c.ls = false ∧ c.pendLs = 0) ∧
    (c.pendLs ≠ 0 → c.hs = false)

/-- The command of a row of the operation table for engine e; u is what the arrays show a load, or the read half
of a store (R207, R208, R299). -/
def rowCommand (r : Row) (e : Fin 128) (u : Upset) : Instr :=
  match r with
  | .nop => .nop e
  | .mov => .mov e
  | .neg => .neg e
  | .abs => .abs e
  | .not => .not e
  | .add => .add e
  | .adds => .adds e
  | .sub => .sub e
  | .subs => .subs e
  | .and => .and e
  | .or => .or e
  | .xor => .xor e
  | .andn => .andn e
  | .shl => .shl e
  | .shr => .shr e
  | .sar => .sar e
  | .shls => .shls e
  | .ror => .ror e
  | .min => .min e
  | .max => .max e
  | .minu => .minu e
  | .maxu => .maxu e
  | .slt => .slt e
  | .sltu => .sltu e
  | .mullo => .mullo e
  | .cmp => .cmp e
  | .tst => .tst e
  | .addi => .addi e
  | .andi => .andi e
  | .ori => .ori e
  | .xori => .xori e
  | .movi => .movi e
  | .shli => .shli e
  | .shri => .shri e
  | .sari => .sari e
  | .cmpi => .cmpi e
  | .movl => .movl e
  | .movh => .movh e
  | .sats => .sats e
  | .ldw => .ldw e u
  | .ldh => .ldh e u
  | .ldhu => .ldhu e u
  | .ldb => .ldb e u
  | .ldbu => .ldbu e u
  | .stw => .stw ⟨e, u⟩
  | .sth => .sth ⟨e, u⟩
  | .stb => .stb ⟨e, u⟩
  | .mul => .mul e
  | .mac => .mac e
  | .msu => .msu e
  | .mulu => .mulu e
  | .macu => .macu e
  | .mfp => .mfp e
  | .mtp => .mtp e
  | .divs => .divs e
  | .divu => .divu e
  | .divq => .divq e
  | .rems => .rems e
  | .remu => .remu e
  | .sqrtu => .sqrtu e
  | .sqrtq => .sqrtq e
  | .b => .b e
  | .call => .call e
  | .callw => .callw e
  | .jr => .jr e
  | .callr => .callr e
  | .ret => .ret e
  | .retw => .retw e
  | .rep => .rep e
  | .repi => .repi e
  | .mfs => .mfs e
  | .mts => .mts e
  | .fence => .fence e
  | .flushI => .flushI e
  | .wait => .wait e
  | .halt => .halt e
  | .trap => .trap e
  | .retx => .retx e
  | .switch => .switch e
  | .savectx => .savectx e
  | .loadctx => .loadctx e

/-- Engine e is a single engine about to run the bundle xs: it may issue, no interrupt or wake comes first, the bundle
is fetched without an error, no exception of an earlier write is due, and every operand has arrived (R187, R202,
R220). -/
def Issues (s : State) (e : Nat) (xs : List Op) : Prop :=
  let w := whoOf s e
  let x := (engOf s e).arch
  alive s = true ∧ w.slot = none ∧ mayStep s w = true ∧ eventDue s w = false ∧
    excDue s w = false ∧ fetchBundle s w x = .ops xs ∧
    fetchTouch w x s = s ∧ xs.any (waits s w x) = false

/-- Engine e, in state z, has retired its bundle with effect y and nothing but its state has changed: its architected
state, what BD_ESTAT and BD_EPC show (R212, R221). -/
def Retired (e : Nat) (z : Engine) (s t : State) : Prop :=
  engOf t e = z ∧ KeepsEngines e s t ∧ t.mem = s.mem ∧
    KeepsRegs [Reg.BD_ESTAT (e / 8) (e % 8), Reg.BD_EPC (e / 8) (e % 8)] s t ∧
    fld t (Reg.BD_EPC (e / 8) (e % 8)) Fld.BD_EPC_PC = (engOf s e).arch.pc % 2 ^ 15

end Sys2Proof.Machine
end

