-- ==== Sys2Proof/Certificates/Slice0/Obligations.lean ====
section
/-! DEFINITION. The statements for the provers: what the rules of the spec say the commands, the steps and the
arithmetic of the device do. -/

open Sys2Proof Sys2Proof.Machine

/-- A REG_WRITE that its master may make, to an address that no page or bank holds, has the effect of the register it
writes; one that it may not make is refused with an access error, which an engine takes as a bus error, and changes no
memory. The power-on release, with the supplies high enough, RESET_N high and 2 ms held, and the release of RESET_N
enter BOOT by the named operation (log 170); a brown-out of VCORE or VAUX, a low of RESET_N and WAKE hold the device
in reset: WAKE and a brown-out in power-on reset, and VCORE has none in DORMANT, where it is off (log 171). RESET_N
does nothing in DORMANT (log 177). BOOT_COMPLETE starts the Foreman. A FACTORY request is taken in BOOT or STANDBY
with the fuse unblown, changes nothing in FACTORY, and is otherwise only shown refused, in the JTAG status that the
model holds (log 172). Loss and return of REFCLK, the lifetime record and a due tick period take their named effects,
and a period that takes effect leaves the sample index where it stands and changes no register but TB_QTICK and
AD_STAT (log 11). A TB_QTICK write of the same period sets it; one of another is refused while an enabled rail uses
the quire. Commands shown to complete: REG_WRITE, POWER_ON_RESET_RELEASE, BROWN_OUT, RESET_N_FALL, RESET_N_RELEASE,
WAKE, BOOT_COMPLETE, JTAG_FACTORY_REQUEST, REFCLK_LOSS, REFCLK_RESTORED, HOURS_COMMIT, TB_QTICK_WRITE,
QTICK_PERIOD_APPLY. (R7, R19, R20, R21, R24, R30, R31, R32, R38, R391, R392, R393) -/
def Obligations.ResetAndTimeBaseCommandsRun : Prop :=
  ∀ (s : State) (m : Master) (a v : BitVec 32) (u : Upset) (vcore vio vaux : BitVec 16) (release : Release) (sag : Sag)
    (q : Fin 16),
    let qt := Reg.TB_QTICK q
    let p := getBits v.toNat Fld.TB_QTICK_PERIOD
    let used := (List.range 32).any (railUses s q)
    let x := masterAddr m a.toNat
    let reach := spineAllows s m x 4 true && writable s x
    let free := alive s = true ∧ writeHeld s m a.toNat = false
    (free → x % 4 = 0 → reach = true → isRegister x = true → Runs (.regWrite m a ⟨v, u⟩) s fun t =>
      t = regWrite m x v.toNat s) ∧
    (free → x % 4 ≠ 0 ∨ reach = false → Runs (.regWrite m a ⟨v, u⟩) s fun t =>
      t = busError m a.toNat true 1 (accessError (masterOf s m) x 1 2 1 s) ∧ t.mem = s.mem) ∧
    (s.tb.hold = .por → 715 ≤ vcore.toNat → 1710 ≤ vio.toNat → 3135 ≤ vaux.toNat →
      release.resetN = true → 2000000 ≤ release.ns.toNat → Runs (.powerOnResetRelease vcore vio vaux release) s fun t =>
        (release.refclk = true → t = firstSamples vcore.toNat vio.toNat vaux.toNat (coldBoot s)) ∧
        (release.refclk = false → t = refclkLost (firstSamples vcore.toNat vio.toNat vaux.toNat (coldBoot s)))) ∧
    (s.tb.hold ≠ .por → mode s ≠ 0 → sag.supply = .vcore → 1000 ≤ sag.ns.toNat → sag.mv.toNat < 550 →
      Runs (.brownOut sag) s fun t => t = heldIn .por s ∧ t.tb.hold = .por) ∧
    (s.tb.hold ≠ .por → mode s = 1 ∨ mode s = 2 → sag.supply = .vcore → sag.mv.toNat < 600 →
      Runs (.brownOut sag) s fun t => t = heldIn .por s ∧ t.tb.hold = .por) ∧
    (s.tb.hold ≠ .por → sag.supply = .vaux → 1000 ≤ sag.ns.toNat → sag.mv.toNat < 2700 →
      Runs (.brownOut sag) s fun t => t = heldIn .por s ∧ t.tb.hold = .por) ∧
    (s.tb.hold ≠ .por → mode s = 1 ∨ mode s = 2 → sag.supply = .vaux → sag.mv.toNat < 2900 →
      Runs (.brownOut sag) s fun t => t = heldIn .por s ∧ t.tb.hold = .por) ∧
    (alive s = true → Runs .resetNFall s fun t => t = heldIn .resetN s ∧ t.tb.hold = .resetN ∧ t.regs = [] ∧
      t.mem = [] ∧ t.tb.hrs = s.tb.hrs ∧ t.tb.pcc = s.tb.pcc ∧ t.er.sets = s.er.sets ∧ t.frm.dir = s.frm.dir ∧
      (s.nv.op = .none → t.nv = s.nv) ∧ (s.otp.op = 0 → t.otp = s.otp)) ∧
    (s.tb.hold = .none → mode s = 0 → Runs .resetNFall s fun t => t = s) ∧
    (s.tb.hold = .resetN → Runs (.resetNRelease vcore vio vaux) s fun t =>
      t = firstSamples vcore.toNat vio.toNat vaux.toNat (warmBoot s)) ∧
    (s.tb.hold = .none → mode s = 0 → Runs .wake s fun t => t = heldIn .por s) ∧
    (alive s = true → mode s = 1 → s.frm.recovery = false → s.frm.image < 3 → Runs .bootComplete s fun t =>
      t = bootComplete s) ∧
    (alive s = true → mode s ≠ 7 → Runs .jtagFactoryRequest s fun t =>
      ((mode s = 1 ∨ mode s = 2) ∧ s.tb.factoryBlown = false → mode t = 7 ∧ t.tb.jtagRefused = false ∧
        KeepsRegs [Reg.SM_MODE, Reg.MB_HSTAT] s t ∧ t.fm = s.fm ∧ t.mem = s.mem) ∧
      (¬((mode s = 1 ∨ mode s = 2) ∧ s.tb.factoryBlown = false) →
        t = { s with tb := { s.tb with jtagRefused := true } })) ∧
    (alive s = true → mode s = 7 → Runs .jtagFactoryRequest s fun t => t = s) ∧
    (alive s = true → flag s Reg.TB_STAT Fld.TB_STAT_HOLD = false → Runs .refclkLoss s fun t => t = refclkLost s) ∧
    (alive s = true → flag s Reg.TB_STAT Fld.TB_STAT_HOLD = true → Runs .refclkRestored s fun t => t = refclkBack s ∧
      t.tb.ns = s.tb.ns) ∧
    (alive s = true → foremanServes s = true → s.nv.op = .none → hoursDue s = true → Runs .hoursCommit s fun t =>
      t = commitHours s ∧ t.tb.nvHrs = s.tb.hrs ∧ t.tb.lives.head? = some (s.tb.nvPos, s.tb.hrs, s.tb.pcc)) ∧
    (CanWrite s m qt → p = fld s qt Fld.TB_QTICK_PERIOD → Runs (.tbQtickWrite m q v) s fun t =>
      fld t qt Fld.TB_QTICK_PERIOD = p ∧ fld t qt Fld.TB_QTICK_ACTIVE = fld s qt Fld.TB_QTICK_ACTIVE ∧
        OnlyRegs [qt] s t) ∧
    (CanWrite s m qt → p ≠ fld s qt Fld.TB_QTICK_PERIOD → used = true → Runs (.tbQtickWrite m q v) s fun t =>
      fld t qt Fld.TB_QTICK_PERIOD = fld s qt Fld.TB_QTICK_PERIOD ∧ flag t qt Fld.TB_QTICK_REFUSED = true ∧
      OnlyRegs [qt] s t) ∧
    (CanWrite s m qt → p ≠ fld s qt Fld.TB_QTICK_PERIOD → used = false → Runs (.tbQtickWrite m q v) s fun t =>
      fld t qt Fld.TB_QTICK_PERIOD = p ∧ fld t qt Fld.TB_QTICK_ACTIVE = fld s qt Fld.TB_QTICK_ACTIVE ∧
      KeepsRegs [qt] s t ∧ t.mem = s.mem) ∧
    (alive s = true → periodDue s q = true → Runs (.qtickPeriodApply q) s fun t =>
      fld t qt Fld.TB_QTICK_ACTIVE = fld s qt Fld.TB_QTICK_PERIOD ∧ index t q = index s q ∧
      KeepsRegs [qt, Reg.AD_STAT q 0, Reg.AD_STAT q 1] s t ∧ t.mem = s.mem)

/-- For every command c and state s, a step with c at the front of the queue answers what exec answers for c on s with
the rest of the queue. That the commands stand in a queue, and that a step on an empty queue answers the state one
nanosecond later, are the model's choices (log entries 1 and 2): there a powered device out of reset whose Foreman has
no activation or PMBus write to go on with has TB_NS one higher and its memory unchanged, and a held or dormant one is
unchanged but for its running operating hours. (R18, R19) -/
def Obligations.AStepRunsTheFrontCommand : Prop :=
  (∀ (c : Instr) (rest : List Instr) (s : State),
    step { s with pending := c :: rest } = exec c { s with pending := rest }) ∧
  (∀ s : State, s.pending = [] → ∃ t, step s = .next t ∧ t.pending = [] ∧
    (alive s = true → foremanServes s = false ∨ (s.frm.act.kind = 0 ∧ s.host.pmb = []) →
      t.tb.ns = (s.tb.ns + 1) % 2 ^ 64 ∧ t.mem = s.mem) ∧
    (alive s = false → t = { s with tb := { s.tb with part := t.tb.part, hrs := t.tb.hrs } }))

/-- In State.reset no register has been written, so each reads the value its table gives for reset: SM_MODE 1,
SM_SHEDCFG 8, SM_SEQMASK all ones, SM_SPDCFG 0x258 and every TB_ register 0 among them. Power-on reset holds the device
and TB_NS is 0. Memory lists nothing in its canonical form, and no word is marked written. The sectors of the golden
image and the certificate apart, which hold what manufacture wrote, the NVM reads erased. That it does, that an
unwritten byte is held as 0 and that the queue is empty are choices of the model (log entries 1 and 5). (R18, R29, R298,
R391, R405, R406) -/
def Obligations.ResetIsAsTheRulesState : Prop :=
  let s := State.reset
  (∀ a, rd s a = (regReset a).toNat) ∧ rd s Reg.SM_MODE = 1 ∧ rd s Reg.SM_SHEDCFG = 8 ∧
  rd s Reg.SM_SEQMASK = 0xFFFFFFFF ∧ rd s Reg.SM_SPDCFG = 0x258 ∧ rd s Reg.TB_STAT = 0 ∧
  (∀ q, q < 16 → rd s (Reg.TB_QTICK q) = 0) ∧ s.tb.ns = 0 ∧ s.tb.hold = .por ∧ alive s = false ∧
  s.mem = [] ∧ Memory.wf s = true ∧ (∀ a, memByte s a = 0) ∧ (∀ k a, wordWritten s k a = false) ∧
  (∀ k o, ¬(400 ≤ k ∧ k < 528) → ¬(1504 ≤ k ∧ k < 1512) → nvByte s k o = 255) ∧ s.pending = []

/-- For every state whose memory stands in canonical form (addresses strictly rising, no byte listed that equals what an
unlisted address reads as), whatever command is at the front of the queue, whatever it stores, fills, clears, loads or
resets, and on an empty queue too: the state after the step has its memory in canonical form again, and its queue is
the old queue without its front. The canonical form and the queue are the model's own (log entries 1 and 5). (R8, R33,
R298, R299) -/
def Obligations.StepKeepsMemoryAndQueue : Prop :=
  ∀ s t : State, Memory.wf s = true → step s = .next t → Memory.wf t = true ∧ t.pending = s.pending.tail

/-- For every master that may write RT_CMD: a COMMIT, ENABLE or DISABLE that passes the checks of R44 leaves RT_CMDSTAT
with BUSY = 1, RESULT = 0 and the rail, and the entry it carries is the one the RT_ registers held; a CLEAR takes a
LATCHED rail through the named release of its channels to OFF; a CLRCNT zeroes RT_MISS, RT_OPPOSE and RT_ILIMCNT of
the rail, forgets the tick that ILIM was last counted in, and changes no other register but RT_CMDSTAT. Commands shown
to complete: RT_COMMIT, RT_ENABLE, RT_DISABLE, RT_CLEAR, RT_CLRCNT. (R43, R44, R45, R47, R73) -/
def Obligations.RailCommandsAccepted : Prop :=
  ∀ (s : State) (m : Master) (r : Fin 32), CanWrite s m Reg.RT_CMD →
    (∀ op c, (op, c) ∈ [(1, Instr.rtCommit m r), (2, .rtEnable m r), (3, .rtDisable m r)] → rtCheck s op r false = 0 →
      Runs c s fun t =>
        flag t Reg.RT_CMDSTAT Fld.RT_CMDSTAT_BUSY = true ∧ fld t Reg.RT_CMDSTAT Fld.RT_CMDSTAT_RESULT = 0 ∧
        fld t Reg.RT_CMDSTAT Fld.RT_CMDSTAT_RAIL = r ∧ (railOf t r).cmd = op ∧ (railOf t r).next = readEntry s r ∧
        KeepsRegs [Reg.RT_CMDSTAT] s t ∧ t.mem = s.mem ∧ t.chans = s.chans) ∧
    (rtCheck s 4 r false = 0 → Runs (.rtClear m r) s fun t => t = rtClear r (rtResult r 0 s)) ∧
    (rtCheck s 5 r false = 0 → Runs (.rtClrcnt m r) s fun t =>
      rd t (Reg.RT_MISS r) = 0 ∧ rd t (Reg.RT_OPPOSE r) = 0 ∧ rd t (Reg.RT_ILIMCNT r) = 0 ∧
      fld t Reg.RT_CMDSTAT Fld.RT_CMDSTAT_RESULT = 0 ∧
      OnlyRegs [Reg.RT_CMDSTAT, Reg.RT_MISS r, Reg.RT_OPPOSE r, Reg.RT_ILIMCNT r]
        (updRail r (fun x => { x with ilimWas := 0 }) s) t)

/-- For each of COMMIT, ENABLE, DISABLE, CLEAR and CLRCNT: where a check of R44 fails, RT_CMDSTAT shows the first
failing check as RESULT with the rail, every other register reads as before, and nothing else of the device changes.
(R44, R73) -/
def Obligations.RailCommandsRefused : Prop :=
  ∀ (s : State) (m : Master) (r : Fin 32) (op : Nat) (c : Instr), CanWrite s m Reg.RT_CMD →
    (op, c) ∈ [(1, Instr.rtCommit m r), (2, .rtEnable m r), (3, .rtDisable m r), (4, .rtClear m r),
      (5, .rtClrcnt m r)] →
    rtCheck s op r false ≠ 0 →
    Runs c s fun t =>
      fld t Reg.RT_CMDSTAT Fld.RT_CMDSTAT_RESULT = rtCheck s op r false ∧
      fld t Reg.RT_CMDSTAT Fld.RT_CMDSTAT_RAIL = r ∧
      flag t Reg.RT_CMDSTAT Fld.RT_CMDSTAT_BUSY = flag s Reg.RT_CMDSTAT Fld.RT_CMDSTAT_BUSY ∧
      OnlyRegs [Reg.RT_CMDSTAT] s t

/-- RAIL_ENTRY_APPLY of a rail with an accepted command runs at the next control tick of the home quire: RT_APPLIED
shows its index and BUSY clears; an ENABLE enters SOFTSTART with zeroed compensator states by its named operation, or
LATCHED where a latch-off came in that tick, whose applying index the sequence notes, a DISABLE enters SOFTSTOP, a
COMMIT brings the new entry into force. SUPPLY_MONITOR_CMD_TAKEN runs the first waiting command through the checks of
the rail table. Commands shown to complete: SUPPLY_MONITOR_CMD_TAKEN, RAIL_ENTRY_APPLY. (R43, R45, R46, R47) -/
def Obligations.RailEntriesApply : Prop :=
  ∀ (s : State) (r : Fin 32) (t : Nat), alive s = true → nextTick s (homeOf r) = some t →
    let k := indexAt s (homeOf r) t
    let settled := fun u => updRail r (fun x => { x with cmd := 0 })
      (setFlag Reg.RT_CMDSTAT Fld.RT_CMDSTAT_BUSY false (wr (Reg.RT_APPLIED r) k u))
    (railState s r ≠ 4 → railState s r ≠ 0 → (railOf s r).cmd = 1 →
      Runs (.railEntryApply r) s fun u => u = settled (applyCommit r t s)) ∧
    (railState s r ≠ 4 → (railOf s r).cmd = 2 → Runs (.railEntryApply r) s fun u =>
      u = updSup (fun y => { y with run := { y.run with applied := tset (fun _ => 0) y.run.applied r (t + 1) } })
        (settled (enterEnable r t s))) ∧
    (railState s r ≠ 4 → railState s r ≠ 0 → (railOf s r).cmd = 3 →
      Runs (.railEntryApply r) s fun u => u = settled (applyDisable r s)) ∧
    (∀ op rest, s.sup.run.waiting = (op, r.val) :: rest →
      flag s Reg.RT_CMDSTAT Fld.RT_CMDSTAT_BUSY = false →
      let v := rtCommand op r true (updSup (fun y => { y with run := { y.run with waiting := rest } }) s)
      fld v Reg.RT_CMDSTAT Fld.RT_CMDSTAT_RESULT = 0 → Runs .supplyMonitorCmdTaken s fun u => u = seqMark v)

/-- CONTROL_TICK: the comparators of the quire take the ticks that have come, and the next tick of the quire in order
(log 12) is computed where its samples are present: that tick is marked taken, RSY clears of ports that have
resynchronised, LU_VIN is renewed and both home rails compute; where none can be computed, nothing else happens. PG_RISE
sets PG by its named operation, PG_FALL clears it and reports a U-class fault from ON. PHASE_DROP lowers the active
count by one, forms the burst set again and redistributes the demand; ROTATION_TICK swaps the lowest-scoring inactive
for the highest-scoring active member and does the same: that both stage the tick again is the model's choice (log 19);
WEAR_INCREMENT adds 1 to the member wear count, saturating, and changes no other register. Commands shown to complete:
CONTROL_TICK, PG_RISE, PG_FALL, PHASE_DROP, ROTATION_TICK, WEAR_INCREMENT. (R48, R49, R56, R60, R61, R62, R75) -/
def Obligations.LoopEventsRun : Prop :=
  ∀ (s : State) (r : Fin 32), alive s = true →
    (∀ q : Fin 16, 2 ≤ mode s →
      let c := comparatorTicks q (now s + 1) s
      (∀ t : Nat, nextTick c q = some t → tickReady c q (indexAt c q t) t = true →
        Runs (.controlTick q) s fun u =>
          let k := indexAt c q t
          let a := updTb (fun b => { b with qtaken := tset (fun _ => 0) b.qtaken q (t + 1) }) c
          let a := forAll ((List.range 16).map (16 * q.val + ·)) clearRsy a
          let a := setFld (Reg.LU_VIN q) Fld.LU_VIN_VIN (vinAt a q t) a
          u = railTick (2 * q + 1) k t (railTick (2 * q) k t a)) ∧
      (tickNow c q = none → Runs (.controlTick q) s fun u => u = c)) ∧
    (pgRiseDue s r = true → Runs (.pgRise r) s fun u => flag u (Reg.RT_STATE r) Fld.RT_STATE_PG = true ∧
      u.mem = s.mem) ∧
    (pgFallDue s r = true → railState s r ≠ 2 → Runs (.pgFall r) s fun u =>
      flag u (Reg.RT_STATE r) Fld.RT_STATE_PG = false ∧ OnlyRegs [Reg.RT_STATE r] s u) ∧
    (pgFallDue s r = true → railState s r = 2 → Runs (.pgFall r) s fun u =>
      u = report { src := 0x10, event := 3, cls := 2, unit := r } (setFlag (Reg.RT_STATE r) Fld.RT_STATE_PG false s)) ∧
    (dropDue s r = true → Runs (.phaseDrop r) s fun u =>
      let a := setCount r ((activeMembers s r).length - 1) s
      u = showCounts r (stageRail r
        (noteSet r (updRail r (fun x => { x with dwell := 0, changedAt := x.demandAt + 1 }) a)))) ∧
    (∀ x y, rotationDue s r = true → greatestBy (scoreKey s r) (activeMembers s r) = some y →
      leastBy (scoreKey s r) ((availMembers s r).filter (fun z => !memberActive s r z.1)) = some x →
      Runs (.rotationTick r) s fun u =>
        let a := setActive r y.1 y.2 false (setActive r x.1 x.2 true s)
        u = showCounts r (stageRail r (noteSet r (updRail r (fun z => { z with rotate := false }) a)))) ∧
    (∀ j : Fin 64, wearDue s r j = true → Runs (.wearIncrement r j) s fun u =>
      rd u (mbrWear r j) = min (rd s (mbrWear r j) + 1) 0xFFFFFFFF ∧ KeepsRegs [mbrWear r j] s u ∧ u.mem = s.mem)

/-- A submission for an index that waits behind an unsettled one is held as its correction or its NOP, and nothing else
changes; one for the oldest waiting index settles it at once, with that correction or the hardware value. One tagged
later than LU_LMB_NEW is counted as BADTAG alone; one for an index that has its submission already, has passed its
deadline or waits no more is counted as LATE alone. A missed deadline adds 1 to RT_MISS, reports a C-class event and
lets the hardware value stand. A fallback clears EIL and EIL_ACT, sets FALLBACK and reports a U-class fault. SWAP = 1
sets PEND, and the pending swap changes ACTIVE and writes LU_CSIDX at its tick. Commands shown to complete:
ENGINE_DEADLINE_EXPIRY, EIL_FALLBACK, LU_LMB_TAG, LU_LMB_NOP, COEF_SWAP, COEF_SWAP_APPLY. (R55, R65, R66, R67, R68,
R72) -/
def Obligations.EngineInLoopEventsRun : Prop :=
  ∀ (s : State) (m : Master) (r : Fin 32) (v : BitVec 32),
    let q := homeOf r
    let l := slotOf r
    (∀ w0 w1 rest, CanWrite s m (Reg.LU_LMB_TAG q l) → CanWrite s m (Reg.LU_LMB_NOP q l) →
      (railOf s r).wait = w0 :: w1 :: rest → w0.sub = none → w1.sub = none → w0.k ≠ v.toNat → w1.k = v.toNat →
      serialAfter v.toNat (rd s (Reg.LU_LMB_NEW q l)) = false → s.tb.ns < w1.due →
      let held := fun c => updRail r (fun x => { x with
        wait := x.wait.map fun w => if w.k = v.toNat then { w with sub := some c } else w }) s
      Runs (.luLmbTag m r v) s (fun t => t = held (some (sx 32 (rd s (Reg.LU_LMB_CORR q l))))) ∧
      Runs (.luLmbNop m r v) s (fun t => t = held none)) ∧
    (∀ w rest, CanWrite s m (Reg.LU_LMB_TAG q l) → CanWrite s m (Reg.LU_LMB_NOP q l) →
      (railOf s r).wait = w :: rest → w.sub = none → w.k = v.toNat →
      serialAfter v.toNat (rd s (Reg.LU_LMB_NEW q l)) = false → s.tb.ns < w.due →
      let take := fun (c : Option Int) (y : Waiting) => if y.k = v.toNat then { y with sub := some c } else y
      let done := fun c => settleIndices 63 r (finishIndex r (take c w) (demandOf (take c w))
        (updRail r (fun x => noteMiss (fld s (Reg.LU_DEADLINE q) Fld.LU_DEADLINE_RUN) w.missed
            { x with wait := rest.map (take c) })
          (updRail r (fun x => { x with wait := x.wait.map (take c) }) s)))
      Runs (.luLmbTag m r v) s (fun t => t = done (some (sx 32 (rd s (Reg.LU_LMB_CORR q l))))) ∧
      Runs (.luLmbNop m r v) s (fun t => t = done none)) ∧
    (∀ c ∈ [(Instr.luLmbTag m r v, Reg.LU_LMB_TAG q l), (.luLmbNop m r v, Reg.LU_LMB_NOP q l)], CanWrite s m c.2 →
      (serialAfter v.toNat (rd s (Reg.LU_LMB_NEW q l)) = true → Runs c.1 s fun t =>
        fld t (Reg.LU_CERR q l) Fld.LU_CERR_BADTAG = min (fld s (Reg.LU_CERR q l) Fld.LU_CERR_BADTAG + 1) 65535 ∧
        OnlyRegs [Reg.LU_CERR q l] s t) ∧
      (serialAfter v.toNat (rd s (Reg.LU_LMB_NEW q l)) = false →
        (∀ w, (railOf s r).wait.find? (fun w => w.k == v.toNat) = some w → w.sub.isSome = true ∨ w.due ≤ s.tb.ns) →
        Runs c.1 s fun t =>
          fld t (Reg.LU_CERR q l) Fld.LU_CERR_LATE = min (fld s (Reg.LU_CERR q l) Fld.LU_CERR_LATE + 1) 65535 ∧
          OnlyRegs [Reg.LU_CERR q l] s t)) ∧
    (alive s = true → deadlineMissed s r = true → Runs (.engineDeadlineExpiry r) s fun t => t = missDeadline r s) ∧
    (alive s = true → fallbackDue s r = true → Runs (.eilFallback r) s fun t => t =
      report { src := 0x10, event := 2, cls := 2, unit := r }
        (raiseFlag (Reg.LU_RSTAT q l) Fld.LU_RSTAT_FALLBACK (endEil r s))) ∧
    (CanWrite s m (Reg.LU_CSEL q l) → getBits v.toNat Fld.LU_CSEL_SWAP = 1 →
      flag s (Reg.LU_CSEL q l) Fld.LU_CSEL_PEND = false → Runs (.coefSwap m r v) s fun t =>
        flag t (Reg.LU_CSEL q l) Fld.LU_CSEL_PEND = true ∧
        (railOf t r).swapZero = (getBits v.toNat Fld.LU_CSEL_ZERO != 0) ∧ KeepsRegs [Reg.LU_CSEL q l] s t) ∧
    (∀ n, alive s = true → nextTick s q = some n → flag s (Reg.LU_CSEL q l) Fld.LU_CSEL_PEND = true →
      Runs (.coefSwapApply r) s fun t =>
        fld t (Reg.LU_CSEL q l) Fld.LU_CSEL_ACTIVE = 1 - fld s (Reg.LU_CSEL q l) Fld.LU_CSEL_ACTIVE ∧
        flag t (Reg.LU_CSEL q l) Fld.LU_CSEL_PEND = false ∧
        rd t (Reg.LU_CSIDX q l) = indexAt s q n ∧ KeepsRegs [Reg.LU_CSEL q l, Reg.LU_CSIDX q l] s t)

/-- The ramp never passes its aim. The error e is within Q1.31, and the compensator leaves ya, yb and u within it and
the integrator within LU_ILO to LU_IHI where these are in order. The shares of a demand add up to it exactly. The per-
phase on-time never exceeds the period less OFF_MIN, is 0 where OFF_MIN exceeds the period, and is otherwise 0 or not
below the lesser of ON_MIN and that bound. (R49, R52, R53, R54, R57, R58) -/
def Obligations.LoopArithmeticKeepsItsRanges : Prop :=
  (∀ v aim step : Nat, (v ≤ aim → v ≤ rampMove v aim step ∧ rampMove v aim step ≤ aim) ∧
      (aim ≤ v → aim ≤ rampMove v aim step ∧ rampMove v aim step ≤ v)) ∧
  (∀ vset den vout : Int, -(2 ^ 31) ≤ errorOf vset den vout ∧ errorOf vset den vout < 2 ^ 31) ∧
  (∀ (s : State) (r : Nat) (e : Int) (x : Rail),
    let y := (compensate s r e x).1
    let lo := sx 32 (rd s (Reg.LU_ILO (homeOf r) (slotOf r)))
    let hi := sx 32 (rd s (Reg.LU_IHI (homeOf r) (slotOf r)))
    (-(2 ^ 31) ≤ y.ya1 ∧ y.ya1 < 2 ^ 31) ∧ (-(2 ^ 31) ≤ y.yb1 ∧ y.yb1 < 2 ^ 31) ∧
    (-(2 ^ 31) ≤ y.u ∧ y.u < 2 ^ 31) ∧ (lo ≤ hi → lo ≤ y.i ∧ y.i ≤ hi)) ∧
  (∀ (d : Int) (ws : List Nat), ws ≠ [] → (shares d ws).foldl (· + ·) 0 = d ∧ (shares d ws).length = ws.length) ∧
  (∀ (kdi l vin t onMin offMin : Nat) (d i v free : Int),
    let on := (phaseLaw kdi l vin t onMin offMin d i v free).1
    (offMin ≤ t → on ≤ t - offMin) ∧ (t < offMin → on = 0) ∧ (on = 0 ∨ min onMin (t - offMin) ≤ on))

/-- With bursts enabled, the rail in SOFTSTART or ON, no holdoff and no burst fired on this 1 ns tick, FIRE = 1 fires a
burst at this tick, behind one that has fired and not started, and raises line 12 or 13 of the home quire; a second
assertion on the tick does nothing more; in holdoff it only adds 1 to SUPP. BURST_START begins the burst by its named
operation, after which HELD is set and WALKING tells whether a member walks: that a member with a latched trip does
not, when a burst outside deterministic mode starts, and what the holdoff takes as the burst's width are readings of
the model (log 25, 24, 26). BURST_HOLDOFF_END clears HELD alone. BURST_CLRCNT zeroes LU_BURST_CNT and SUPP and changes
no other register. Commands shown to complete: BURST_SW_FIRE, BURST_START, BURST_HOLDOFF_END, BURST_CLRCNT. (R76, R79,
R81, R94, R95) -/
def Obligations.BurstCommandsRun : Prop :=
  ∀ (s : State) (m : Master) (r : Fin 32) (v : BitVec 32),
    let q := homeOf r
    let l := slotOf r
    let st := Reg.LU_BURST_STAT q l
    (CanWrite s m (Reg.LU_BURST_SW q l) → getBits v.toNat Fld.LU_BURST_SW_FIRE = 1 →
      flag s (Reg.LU_BURST q l) Fld.LU_BURST_EN = true → regulating s r = true →
      ((railOf s r).holdEnd ≤ fine s → (railOf s r).fired ≠ s.tb.ns + 1 → s.tb.ns + 1 ∉ (railOf s r).more →
        Runs (.burstSwFire m r v) s fun t => t = setLine q (12 + l) (updRail r (fun y =>
          if y.fired = 0 then { y with fired := s.tb.ns + 1 } else { y with more := y.more ++ [s.tb.ns + 1] }) s)) ∧
      ((railOf s r).holdEnd ≤ fine s → (railOf s r).fired = s.tb.ns + 1 →
        Runs (.burstSwFire m r v) s fun t => t = s) ∧
      (fine s < (railOf s r).holdEnd → Runs (.burstSwFire m r v) s fun t =>
        fld t st Fld.LU_BURST_STAT_SUPP = min (fld s st Fld.LU_BURST_STAT_SUPP + 1) 65535 ∧ OnlyRegs [st] s t)) ∧
    (alive s = true → burstStartDue s r = true → Runs (.burstStart r) s fun t =>
      t = burstStart r s ∧ flag t st Fld.LU_BURST_STAT_HELD = true ∧
      flag t st Fld.LU_BURST_STAT_WALKING = (burstSetAt s r (burstStartAt s r)).any (takesBurst s)) ∧
    (alive s = true → holdoffOver s r = true → Runs (.burstHoldoffEnd r) s fun t =>
      flag t st Fld.LU_BURST_STAT_HELD = false ∧ OnlyRegs [st] s t) ∧
    (CanWrite s m (Reg.LU_IM_CLRCNT q l) → Runs (.burstClrcnt m r) s fun t =>
      rd t (Reg.LU_BURST_CNT q l) = 0 ∧ fld t st Fld.LU_BURST_STAT_SUPP = 0 ∧
      OnlyRegs [Reg.LU_BURST_CNT q l, st] s t)

/-- A hint with a step of 0 is discarded uncounted. One that comes with EN = 0, outside SOFTSTART and ON, or at shed
level 3 or above adds 1 to DROP; one from a partner without a valid entry also sets NOPERM; one with no free lane also
sets FULL; one whose first index has passed also sets LATEDLV, counts in RT_MISS and is reported (log 27); one that
passes every check fills its lane by the named operation. Due outcomes are recorded in ascending lane order. A TRUST
write stores the nearer bound and sets HELD accordingly; a PART write with TMIN above TMAX only sets BADBND, one with
VALID = 1 is stored and leaves TRUST within the new bounds, and one with VALID = 0 also cuts the lanes of its entry; EN
= 0 cuts every lane; IM_CLRCNT zeroes LU_IM_CNT and LU_IM_OPPOSE. Commands shown to complete: HINT_DELIVERY,
OUTCOME_RECORD, IM_TRUST_WRITE, IM_PART_WRITE, IM_CTRL_WRITE, IM_CLRCNT. (R83, R86, R87, R89, R90, R95) -/
def Obligations.IntentMixerCommandsRun : Prop :=
  ∀ (s : State) (m : Master) (r : Fin 32) (t : Fin 16) (v : BitVec 32),
    let q := homeOf r
    let l := slotOf r
    let pt := Reg.LU_IM_PART q l t
    let tr := Reg.LU_IM_TRUST q l t
    let cnt := Reg.LU_IM_CNT q l
    (∀ (p : Fin 16) (h : HintWord) (rest : List HintWord), alive s = true → h.rail = r →
      (varipOf s p).flight = h :: rest →
      let a := updVarip p (fun x => { x with flight := rest }) s
      (h.dI = 0 → Runs (.hintDelivery p) s fun u => u = a) ∧
      (h.dI ≠ 0 → flag s (Reg.LU_IM_CTRL q l) Fld.LU_IM_CTRL_EN = false ∨ regulating s r = false ∨ 3 ≤ shed s →
        Runs (.hintDelivery p) s fun u =>
          fld u cnt Fld.LU_IM_CNT_DROP = min (fld s cnt Fld.LU_IM_CNT_DROP + 1) 65535 ∧ OnlyRegs [cnt] a u) ∧
      (h.dI ≠ 0 → flag s (Reg.LU_IM_CTRL q l) Fld.LU_IM_CTRL_EN = true → regulating s r = true → shed s < 3 →
        (partnerEntry s r h.partner = none → Runs (.hintDelivery p) s fun u =>
          flag u (imStat r) Fld.LU_IM_STAT_NOPERM = true ∧
          fld u cnt Fld.LU_IM_CNT_DROP = min (fld s cnt Fld.LU_IM_CNT_DROP + 1) 65535 ∧ OnlyRegs [imStat r, cnt] a u) ∧
        (∀ e, partnerEntry s r h.partner = some e → hintTick s r h.tEnd ≤ now s → Runs (.hintDelivery p) s fun u =>
          u = report { src := 0x10, event := 1, cls := 1, unit := r } (incFld (Reg.RT_MISS r) wordBits
            (raiseFlag (imStat r) Fld.LU_IM_STAT_LATEDLV (incFld cnt Fld.LU_IM_CNT_DROP a)))) ∧
        (∀ e, partnerEntry s r h.partner = some e → now s < hintTick s r h.tEnd →
          laneFor (railOf s r) h.partner (indexAt s q (hintTick s r h.tEnd)) = none → Runs (.hintDelivery p) s fun u =>
            flag u (imStat r) Fld.LU_IM_STAT_FULL = true ∧
            fld u cnt Fld.LU_IM_CNT_DROP = min (fld s cnt Fld.LU_IM_CNT_DROP + 1) 65535 ∧
            OnlyRegs [imStat r, cnt] a u) ∧
        (∀ e j, partnerEntry s r h.partner = some e → now s < hintTick s r h.tEnd →
          laneFor (railOf s r) h.partner (indexAt s q (hintTick s r h.tEnd)) = some j →
          Runs (.hintDelivery p) s fun u => u = takeHint r h e j a))) ∧
    (alive s = true → (railOf s r).lanes.any outcomeDue = true → Runs (.outcomeRecord r) s fun u =>
      u = forAll (List.range 8) (writeOutcome r) s) ∧
    (CanWrite s m tr → Runs (.imTrustWrite m r t v) s fun u =>
      let w := clampN (fld s pt Fld.LU_IM_PART_TMIN) (fld s pt Fld.LU_IM_PART_TMAX) (v.toNat % 256)
      fld u tr Fld.LU_IM_TRUST_TRUST = w ∧ flag u tr Fld.LU_IM_TRUST_HELD = (w != v.toNat % 256) ∧
      OnlyRegs [tr] s u) ∧
    (CanWrite s m pt → getBits v.toNat Fld.LU_IM_PART_TMAX < getBits v.toNat Fld.LU_IM_PART_TMIN →
      Runs (.imPartWrite m r t v) s fun u =>
        flag u (imStat r) Fld.LU_IM_STAT_BADBND = true ∧ OnlyRegs [imStat r] s u) ∧
    (CanWrite s m pt → getBits v.toNat Fld.LU_IM_PART_TMIN ≤ getBits v.toNat Fld.LU_IM_PART_TMAX →
      getBits v.toNat Fld.LU_IM_PART_VALID = 1 → Runs (.imPartWrite m r t v) s fun u =>
        getBits v.toNat Fld.LU_IM_PART_TMIN ≤ fld u tr Fld.LU_IM_TRUST_TRUST ∧
        fld u tr Fld.LU_IM_TRUST_TRUST ≤ getBits v.toNat Fld.LU_IM_PART_TMAX ∧
        fld u pt Fld.LU_IM_PART_PARTNER = getBits v.toNat Fld.LU_IM_PART_PARTNER ∧ OnlyRegs [pt, tr] s u) ∧
    (CanWrite s m pt → getBits v.toNat Fld.LU_IM_PART_TMIN ≤ getBits v.toNat Fld.LU_IM_PART_TMAX →
      getBits v.toNat Fld.LU_IM_PART_VALID = 0 → Runs (.imPartWrite m r t v) s fun u =>
        let w := plainWrite pt v.toNat s
        let old := fld w tr Fld.LU_IM_TRUST_TRUST
        u = cutEntry r t (if old < getBits v.toNat Fld.LU_IM_PART_TMIN ∨ getBits v.toNat Fld.LU_IM_PART_TMAX < old then
          setTrust r t old w else w)) ∧
    (CanWrite s m (Reg.LU_IM_CTRL q l) → getBits v.toNat Fld.LU_IM_CTRL_EN = 0 → Runs (.imCtrlWrite m r v) s fun u =>
      u = cutLanes r (plainWrite (Reg.LU_IM_CTRL q l) v.toNat s)) ∧
    (CanWrite s m (Reg.LU_IM_CLRCNT q l) → Runs (.imClrcnt m r) s fun u =>
      rd u (Reg.LU_IM_CNT q l) = 0 ∧ rd u (Reg.LU_IM_OPPOSE q l) = 0 ∧
      OnlyRegs [Reg.LU_IM_CNT q l, Reg.LU_IM_OPPOSE q l] s u)

/-- The mixer sizes the effect of a hint when it accepts it: the lane the hint fills holds S = trunc(dI x 200 x TRUST x
(CONF + 1) / 2,048), in 2.5 mA units and rounded towards zero, with TRUST read from LU_IM_TRUST[t] at that moment.
Full trust and full confidence give at most 255/256 of the announced step. A later write of TRUST changes no lane of
any rail. (R85) -/
def Obligations.HintWeightIsFixedAtAcceptance : Prop :=
  ∀ (s : State) (r : Fin 32) (p : Fin 16) (h : HintWord) (rest : List HintWord) (t j : Nat), alive s = true →
    (varipOf s p).flight = h :: rest → h.rail = r → h.dI ≠ 0 →
    flag s (Reg.LU_IM_CTRL (homeOf r) (slotOf r)) Fld.LU_IM_CTRL_EN = true → regulating s r = true → shed s < 3 →
    partnerEntry s r h.partner = some t → now s < hintTick s r h.tEnd →
    laneFor (railOf s r) h.partner (indexAt s (homeOf r) (hintTick s r h.tEnd)) = some j →
    let trust := fld s (Reg.LU_IM_TRUST (homeOf r) (slotOf r) t) Fld.LU_IM_TRUST_TRUST
    Runs (.hintDelivery p) s (fun u =>
      (nthD Lane.init (railOf u r).lanes j).step = Int.tdiv (h.dI * 200 * trust * (h.conf + 1)) 2048) ∧
    (h.conf ≤ 7 → 256 * (Int.tdiv (h.dI * 200 * trust * (h.conf + 1)) 2048).natAbs ≤ 255 * (h.dI * 200).natAbs) ∧
    (∀ (m : Master) (i : Fin 16) (v : BitVec 32), CanWrite s m (Reg.LU_IM_TRUST (homeOf r) (slotOf r) i) →
      Runs (.imTrustWrite m r i v) s fun u => ∀ k, (railOf u k).lanes = (railOf s k).lanes)

/-- On a channel that no rail owns a staged write stores its word, sets its STGMASK bit and changes nothing else; on an
owned channel it only sets WREF. A load-all that names one unowned channel whose load is not torn and whose staged
PERIOD is at least 125 ns copies the three staged words into the load buffer and clears STGMASK; a torn load in strict
mode only sets PW_TORN.REFUSED. An immediate load acts on the same channel by its named operation. Commands shown to
complete: LOADALL, IMMEDIATE_LOAD, PER_STG_WRITE, ON_STG_WRITE, OFS_STG_WRITE. (R102, R103, R104, R105, R107, R121) -/
def Obligations.StagingWritesAndLoads : Prop :=
  ∀ (s : State) (m : Master) (n : Fin 256) (v : BitVec 32),
    let q := quireOf n
    let p := localOf n
    let mask := Reg.PW_STGMASK q p
    (∀ (a : Nat) (f : Bits) (c : Instr),
      (a, f, c) ∈ [(Reg.PW_PER_STG q p, Fld.PW_STGMASK_PER, Instr.perStgWrite m n v),
        (Reg.PW_ON_STG q p, Fld.PW_STGMASK_ON, .onStgWrite m n v),
        (Reg.PW_OFS_STG q p, Fld.PW_STGMASK_OFS, .ofsStgWrite m n v)] → CanWrite s m a →
      (owned s n = false → Runs c s fun t =>
        flag t mask f = true ∧ rd t a = rd (plainWrite a v.toNat s) a ∧ OnlyRegs [a, mask] s t) ∧
      (owned s n = true → Runs c s fun t =>
        flag t (Reg.PW_CFG q p) Fld.PW_CFG_WREF = true ∧ OnlyRegs [Reg.PW_CFG q p] s t)) ∧
    (∀ (g : Fin 16), g.val = q → CanWrite s m (Reg.PW_LOADALL q) → owned s n = false →
      (torn s n = false → 32000 ≤ perOf (stagedPer s n) → Runs (.loadall m g (BitVec.ofNat 16 (2 ^ p))) s fun t =>
        (chanOf t n).bufPer = stagedPer s n ∧ (chanOf t n).bufOn = stagedOn s n ∧
        (chanOf t n).bufOfs = stagedOfs s n ∧ (chanOf t n).bufNew = true ∧ KeepsRegs [mask] s t ∧ rd t mask = 0) ∧
      (torn s n = true → flag s (Reg.PW_CTRL q) Fld.PW_CTRL_STRICT = true →
        Runs (.loadall m g (BitVec.ofNat 16 (2 ^ p))) s fun t =>
          bitAt (fld t (Reg.PW_TORN q) Fld.PW_TORN_REFUSED) p = true ∧ OnlyRegs [Reg.PW_TORN q] s t) ∧
      (torn s n = false → Runs (.immediateLoad m g (BitVec.ofNat 16 (2 ^ p))) s fun t => t = immediateChan n s))

/-- MODE 0 written on an unowned switching channel turns both sides off and stops its timeline; MODE 3 sets WREF and
leaves MODE. The first period and each reload start by the named reload operation; a held on-edge reaches the pins;
the HS-off edge ends the HS pulse. TLREF commits both words. A DTA write in order is stored, one with DTMIN above
DTMAX only sets BADBND. A completed map is noted for its generator and shows its residual. Commands shown to complete:
MODE_WRITE, CHANNEL_FIRST_PERIOD, PWM_RELOAD, GUARD_ON_EDGE, TLREF_COMMIT, DTA_WRITE, CAL_MAP_COMPLETE, HS_OFF_EDGE.
(R96, R98, R99, R100, R108, R111, R112, R114, R122) -/
def Obligations.ChannelEventsRun : Prop :=
  ∀ (s : State) (m : Master) (n : Fin 256) (v : BitVec 32),
    let q := quireOf n
    let p := localOf n
    let cfg := Reg.PW_CFG q p
    let dta := Reg.PW_DTA q p
    (CanWrite s m cfg → getBits v.toNat Fld.PW_CFG_MODE ≠ 3 → owned s n = false → Runs (.modeWrite m n v) s fun t =>
      t = setMode n (getBits v.toNat Fld.PW_CFG_MODE)
        (setFld cfg Fld.PW_CFG_MODE (pwmMode s n) (plainWrite cfg v.toNat s))) ∧
    (CanWrite s m cfg → getBits v.toNat Fld.PW_CFG_MODE = 3 → Runs (.modeWrite m n v) s fun t =>
      flag t cfg Fld.PW_CFG_WREF = true ∧ pwmMode t n = pwmMode s n ∧ OnlyRegs [cfg] s t) ∧
    (alive s = true → firstDue s n = true → Runs (.channelFirstPeriod n) s fun t => t = firstPeriod n s) ∧
    (alive s = true → reloadDue s n = true → Runs (.pwmReload n) s fun t =>
      t = reloadAt n ((chanOf s n).s + (chanOf s n).len) s) ∧
    (alive s = true → dueAt s (chanOf s n).pendHs = true → Runs (.guardOnEdge n) s fun t =>
      (chanOf t n).hs = true ∧ (chanOf t n).pendHs = 0 ∧ t.regs = s.regs ∧ t.mem = s.mem ∧
      ∀ k, k ≠ n.val → chanOf t k = chanOf s k) ∧
    (alive s = true → dueAt s (chanOf s n).endHs = true → Runs (.hsOffEdge n) s fun t =>
      (chanOf t n).hs = false ∧ (chanOf t n).endHs = 0 ∧ t.regs = s.regs ∧ t.mem = s.mem ∧
      ∀ k, k ≠ n.val → chanOf t k = chanOf s k) ∧
    (∀ g : Fin 16, CanWrite s m (Reg.PW_TLREF_LO g) → Runs (.tlrefCommit m g v) s fun t =>
      tget (fun _ => 0) t.tlrefs g = rd s (Reg.PW_TLREF_HI g) * 2 ^ 32 + v.toNat ∧
      rd t (Reg.PW_TLREF_LO g) = v.toNat ∧ KeepsRegs [Reg.PW_TLREF_LO g] s t) ∧
    (CanWrite s m dta → getBits v.toNat Fld.PW_DTA_DTMAX < getBits v.toNat Fld.PW_DTA_DTMIN →
      Runs (.dtaWrite m n v) s fun t => flag t dta Fld.PW_DTA_BADBND = true ∧ OnlyRegs [dta] s t) ∧
    (CanWrite s m dta → getBits v.toNat Fld.PW_DTA_DTMIN ≤ getBits v.toNat Fld.PW_DTA_DTMAX →
      Runs (.dtaWrite m n v) s fun t => rd t dta = rd (plainWrite dta v.toNat s) dta ∧ KeepsRegs [dta] s t) ∧
    (∀ (g : Fin 2) (resid : BitVec 8), alive s = true → calFrozen s q = false → pwmMode s n ≠ 0 →
      parkOf (chanOf s n).actOn = false → Runs (.calMapComplete n g true resid) s fun t =>
        fld t (Reg.PW_CAL q) Fld.PW_CAL_RESID = resid.toNat ∧
        (chanOf t n).shadow = ((chanOf s n).shadow ||| 2 ^ g.val) ∧ KeepsRegs [Reg.PW_CAL q] s t)

/-- An enabled source that asserts while the latch is clear trips the channel by the named operation. CLR = 1 on a
latched-off channel does nothing; while a source asserts, CLR = 1 on any other channel and LOFF = 1 on every channel,
latched off or not, only set CLRREF; a CLR of a latched channel with no source asserting releases it; LOFF = 1 with no
source asserting clears LOFF, latch and RCNT. After the quiet periods RCNT is 0. Any write clears PW_DTOPP and
PW_TCNT. Each names every register it changes. Commands shown to complete: TRIP_ASSERT, TRIP_CLEAR, LOFF_CLEAR,
RCNT_QUIET_RESET, DTOPP_CLEAR, TCNT_CLEAR. (R115, R116, R118, R119, R122) -/
def Obligations.TripCommandsRun : Prop :=
  ∀ (s : State) (m : Master) (n : Fin 256),
    let q := quireOf n
    let p := localOf n
    let st := Reg.PW_TSTAT q p
    (alive s = true → tripDue s n = true → Runs (.tripAssert n) s fun t => t = tripChan n (tripSources s n) s) ∧
    (CanWrite s m (Reg.PW_TCLR q p) → latchOff s n = true → Runs (.tripClear m n) s fun t => t = s) ∧
    (CanWrite s m (Reg.PW_TCLR q p) → latchOff s n = false → tripSources s n ≠ 0 → Runs (.tripClear m n) s fun t =>
      flag t st Fld.PW_TSTAT_CLRREF = true ∧ OnlyRegs [st] s t) ∧
    (CanWrite s m (Reg.PW_TCLR q p) → tripSources s n ≠ 0 → Runs (.loffClear m n) s fun t =>
      flag t st Fld.PW_TSTAT_CLRREF = true ∧ OnlyRegs [st] s t) ∧
    (CanWrite s m (Reg.PW_TCLR q p) → latchOff s n = false → latched s n = true → tripSources s n = 0 →
      Runs (.tripClear m n) s fun t => t = settlePort n (unlatch n false s)) ∧
    (CanWrite s m (Reg.PW_TCLR q p) → tripSources s n = 0 → Runs (.loffClear m n) s fun t =>
      t = settlePort n (clearLatchOff n s)) ∧
    (alive s = true → quietDue s n = true → Runs (.rcntQuietReset n) s fun t =>
      fld t st Fld.PW_TSTAT_RCNT = 0 ∧ latched t n = latched s n ∧ OnlyRegs [st] s t) ∧
    (CanWrite s m (Reg.PW_DTOPP q p) → Runs (.dtoppClear m n) s fun t =>
      rd t (Reg.PW_DTOPP q p) = 0 ∧ OnlyRegs [Reg.PW_DTOPP q p] s t) ∧
    (CanWrite s m (Reg.PW_TCNT q p) → Runs (.tcntClear m n) s fun t =>
      rd t (Reg.PW_TCNT q p) = 0 ∧ OnlyRegs [Reg.PW_TCNT q p] s t)

/-- If the sides of every channel stand apart (at most one is on, and an on-edge that the guard holds is the only one
and finds the other side off), then they stand apart after every step, whatever the front command: reloads, immediate
loads, bursts, trips, clears, parking, mode writes, edges, holds of a port and resets among them, and on an empty queue
too. For a channel with at most one side on and off-edges not in the future: after the decision of R109 at most one side
is on; an HS that turns on at the reload, or whose on-edge is held, comes no earlier than DT after the last LS off-edge
with LS off; an LS that turns on, or whose on-edge is held, comes no earlier than DT after the last HS off-edge with HS
off. (R108, R109) -/
def Obligations.GuardKeepsTheSidesApart : Prop :=
  (∀ s t : State, (∀ n, Apart (chanOf s n)) → step s = .next t → ∀ n, Apart (chanOf t n)) ∧
  (∀ (dt wmin x len on : Nat) (lsen : Bool) (c : Chan), ¬(c.hs = true ∧ c.ls = true) → c.hsOff ≤ x → c.lsOff ≤ x →
    let d := decidePulses dt wmin lsen x len on c
    ¬(d.hs = true ∧ d.ls = true) ∧
    (d.hs = true → c.hs = false → d.lsOff + dt ≤ x) ∧
    (d.pendHs ≠ 0 → d.lsOff + dt + 1 ≤ d.pendHs ∧ d.ls = false) ∧
    (d.ls = true → c.ls = false → d.hsOff + dt ≤ x) ∧
    (d.pendLs ≠ 0 → d.hsOff + dt + 1 ≤ d.pendLs ∧ d.hs = false))

/-- For a period of length PERIOD > 0 that starts at r: the length lies between PERIOD/2 and 3 PERIOD/2, the period ends
on a lattice point REF + OFS + m PERIOD, no lattice point lies nearer to r + PERIOD, and a period that starts on the
lattice keeps the length PERIOD. (R98, R99) -/
def Obligations.LatticePeriodsStayInRange : Prop :=
  ∀ (ref ofs per r : Nat), 0 < per →
    let len := latticeLen ref ofs per r
    let onLattice := fun (x : Nat) => ((x : Int) - ref - (ofs % per : Nat)) % per = 0
    per ≤ 2 * len ∧ 2 * len ≤ 3 * per ∧ onLattice (r + len) ∧ (onLattice r → len = per) ∧
    (∀ x, onLattice x → ((len : Int) - per).natAbs ≤ ((x : Int) - r - per).natAbs)

/-- A commit that a check refuses shows the number of the first failing check in AD_SEQST.RESULT and changes nothing
else; one that passes shows 0 and BUSY, leaves every other register and waits for the first tick instant at least 64 ns
away. At that instant both tables become active by the named operation. An FCFG write out of range only sets WREF; any
other restarts its unit: VALID = 0, and only AD_FCFG and AD_FOUT change. A unit that has its samples becomes VALID. A
due aggregate sample acts by the named operation. HOLDS_CLEAR zeroes AD_HOLDS alone. Commands shown to complete:
SEQ_COMMIT, SEQ_TABLE_ACTIVATE, FCFG_WRITE, FILTER_SETTLE, HOLDS_CLEAR, AGGREGATE_SAMPLE. (R125, R126, R127, R133,
R144) -/
def Obligations.SequenceCommandsRun : Prop :=
  ∀ (s : State) (m : Master) (q : Fin 16) (c : Fin 2) (f : Fin 4) (v : BitVec 32) (code : BitVec 12),
    let st := Reg.AD_SEQST q
    let cfg := Reg.AD_FCFG q c f
    let out := Reg.AD_FOUT q c f
    (CanWrite s m (Reg.AD_SEQCMT q) → seqCheck s q ≠ 0 → Runs (.seqCommit m q) s fun t =>
      fld t st Fld.AD_SEQST_RESULT = seqCheck s q ∧ OnlyRegs [st] s t) ∧
    (CanWrite s m (Reg.AD_SEQCMT q) → seqCheck s q = 0 → Runs (.seqCommit m q) s fun t =>
      fld t st Fld.AD_SEQST_RESULT = 0 ∧ flag t st Fld.AD_SEQST_BUSY = true ∧ KeepsRegs [st] s t ∧
      (senseOf t q).commitAt = ceilDiv (now s + 64) (tickNs s q) * tickNs s q + 1 ∧
      (senseOf t q).lenA = stagedLog s q 0 ∧ (senseOf t q).lenB = stagedLog s q 1) ∧
    (alive s = true → (senseOf s q).commitAt ≠ 0 → (senseOf s q).commitAt ≤ now s + 1 →
      Runs (.seqTableActivate q) s fun t => t = activateTables q s ∧ flag t st Fld.AD_SEQST_BUSY = false) ∧
    (CanWrite s m cfg → badFcfg s q c f v.toNat = true → Runs (.fcfgWrite m q c f v) s fun t =>
      flag t (Reg.AD_STAT q c) Fld.AD_STAT_WREF = true ∧ OnlyRegs [Reg.AD_STAT q c] s t) ∧
    (CanWrite s m cfg → badFcfg s q c f v.toNat = false → Runs (.fcfgWrite m q c f v) s fun t =>
      rd t cfg = rd (plainWrite cfg v.toNat s) cfg ∧ flag t out Fld.AD_FOUT_VALID = false ∧ KeepsRegs [cfg, out] s t) ∧
    (alive s = true → settleDue s q c f = true → Runs (.filterSettle q c f) s fun t =>
      flag t out Fld.AD_FOUT_VALID = true ∧ KeepsRegs [out] s t) ∧
    (alive s = true → sampleDue s q c = true → Runs (.aggregateSample q c code) s fun t =>
      t = aggregate q c code.toNat s) ∧
    (CanWrite s m (Reg.AD_HOLDS q c) → Runs (.holdsClear m q c) s fun t =>
      rd t (Reg.AD_HOLDS q c) = 0 ∧ OnlyRegs [Reg.AD_HOLDS q c] s t)

/-- At the end of a block the estimates wait for the first tick instant at least 1,000 ns away and no register changes.
Four waiting estimates within the limits, with no slice retired, become the AD_SCOR words, which the model holds at
the ends of their fields (log 188), and no other register changes. A write of AD_SRET notes the slices it names and
changes no register; at a tick instant they retire by the named operation. A completed check cycle is compared by the
named operation. Commands shown to complete: SLICE_ESTIMATE_COMPLETE, SLICE_ESTIMATE_APPLY, AD_SRET_WRITE,
SLICE_RETIRE, CROSS_CHECK. (R129, R130, R131, R132) -/
def Obligations.SliceCommandsRun : Prop :=
  ∀ (s : State) (m : Master) (q : Fin 16) (c : Fin 2) (e0 e1 e2 e3 : SliceEst) (v : BitVec 32),
    let est := [e0, e1, e2, e3]
    let cv := 2 * q.val + c.val
    (alive s = true → adFrozen s q c = false → blockOver s q c = true →
      Runs (.sliceEstimateComplete q c e0 e1 e2 e3) s fun t =>
        (convOf t cv).est = est ∧ (convOf t cv).blockAt = now s ∧
        (convOf t cv).estAt = ceilDiv (now s + 1000) (tickNs s q) * tickNs s q + 1 ∧ t.regs = s.regs ∧ t.mem = s.mem) ∧
    (alive s = true → adFrozen s q c = false → (convOf s cv).estAt ≠ 0 → (convOf s cv).estAt ≤ now s + 1 →
      (convOf s cv).est = est → est.any (outOfLimits s q) = false → fld s (Reg.AD_STAT q c) Fld.AD_STAT_RETIRED = 0 →
      Runs (.sliceEstimateApply q c) s fun t =>
        [0, 1, 2, 3].map (fun i => rd t (Reg.AD_SCOR q c i)) = est.map estWord ∧
        KeepsRegs [Reg.AD_SCOR q c 0, Reg.AD_SCOR q c 1, Reg.AD_SCOR q c 2, Reg.AD_SCOR q c 3] s t ∧ t.mem = s.mem) ∧
    (CanWrite s m (Reg.AD_SRET q c) → Runs (.adSretWrite m q c v) s fun t =>
      (convOf t cv).retire = ((convOf s cv).retire ||| getBits v.toNat Fld.AD_SRET_RETIRE) ∧ t.regs = s.regs ∧
      t.mem = s.mem) ∧
    (alive s = true → (convOf s cv).retire ≠ 0 → now s % tickNs s q = 0 → Runs (.sliceRetire q c) s fun t =>
      t = retireAsked q c s) ∧
    (alive s = true → crossDue s q = true → Runs (.crossCheck q) s fun t => t = crossCheck q s)

/-- A WC_CFG write, a crossing and a fall first let the comparator take the control ticks that have come. A WC_CFG write
with a reserved INPUT, or a relative one of an input above 1, then only sets WREF; any other is stored and, unless the
lower trip output rises by it, changes only WC_CFG, WC_STAT, WC_CUR and WC_TOPP; where it rises, it fires the bursts
that name the comparator. A crossing acts by the named operation; a fall clears raw states and leaves both latches. A
clear of a side whose raw state stands only sets CLRREF, and otherwise clears that latch. Due STUCK and IMPL records
act by the named operations. A bound write with MAX below MIN only sets BADBND; any other is stored. Each counter
clear zeroes its register alone. Commands shown to complete: WC_CFG_WRITE, WC_THRESHOLD_CROSS, WC_CLEAR_LO,
WC_CLEAR_HI, WC_STUCK, WC_IMPL, WC_BOUND_WRITE, WC_TOPP_CLEAR, WC_CNT_CLEAR, OCPSTAT_CLEAR, OCPCNT_CLEAR,
RAW_STATE_FALL. (R136, R137, R138, R139, R140, R141, R145) -/
def Obligations.ComparatorCommandsRun : Prop :=
  ∀ (s : State) (m : Master) (q : Fin 16) (c : Fin 8) (n : Fin 256) (up : Bool) (v : BitVec 32),
    let st := Reg.WC_STAT q c
    let x := compared s q c v.toInt
    let a := takeTicks q c (now s) s
    (CanWrite s m (Reg.WC_CFG q c) → badWcCfg v.toNat = true → Runs (.wcCfgWrite m q c v) s fun t =>
      flag t st Fld.WC_STAT_WREF = true ∧ OnlyRegs [st] a t) ∧
    (CanWrite s m (Reg.WC_CFG q c) → badWcCfg v.toNat = false → Runs (.wcCfgWrite m q c v) s fun t =>
      rd t (Reg.WC_CFG q c) = rd (plainWrite (Reg.WC_CFG q c) v.toNat a) (Reg.WC_CFG q c) ∧ t.mem = s.mem ∧
      (flag a st Fld.WC_STAT_LOLAT = false ∨ lowerTrip a q c = true →
        KeepsRegs [Reg.WC_CFG q c, st, Reg.WC_CUR q c, Reg.WC_TOPP q c] s t) ∧
      (flag a st Fld.WC_STAT_LOLAT = true → lowerTrip a q c = false → getBits v.toNat Fld.WC_CFG_EN = 1 →
        getBits v.toNat Fld.WC_CFG_LOEN = 1 → ∃ u, t = burstFrom q c u ∧ lowerTrip u q c = true ∧
          KeepsRegs [Reg.WC_CFG q c, st, Reg.WC_CUR q c, Reg.WC_TOPP q c] s u)) ∧
    (alive s = true → wcTick s q c = true → (sideRises a q c false x || sideRises a q c true x) = true →
      Runs (.wcThresholdCross q c v) s fun t => t = wcCross q c x a) ∧
    (alive s = true → wcTick s q c = true → (sideFalls a q c false x || sideFalls a q c true x) = true →
      Runs (.rawStateFall q c v) s fun t =>
        (sideFalls a q c false x = true → flag t st Fld.WC_STAT_LORAW = false) ∧
        (sideFalls a q c true x = true → flag t st Fld.WC_STAT_HIRAW = false) ∧
        flag t st Fld.WC_STAT_LOLAT = flag s st Fld.WC_STAT_LOLAT ∧
        flag t st Fld.WC_STAT_HILAT = flag s st Fld.WC_STAT_HILAT ∧ OnlyRegs [st] a t) ∧
    (∀ (cmd : Instr) (raw lat : Bits), (cmd, raw, lat) ∈ [(.wcClearLo m q c, Fld.WC_STAT_LORAW, Fld.WC_STAT_LOLAT),
        (.wcClearHi m q c, Fld.WC_STAT_HIRAW, Fld.WC_STAT_HILAT)] → CanWrite s m (Reg.WC_CLR q c) →
      (flag s st raw = true → Runs cmd s fun t => flag t st Fld.WC_STAT_CLRREF = true ∧ flag t st lat = flag s st lat ∧
        OnlyRegs [st] s t) ∧
      (flag s st raw = false → Runs cmd s fun t => flag t st lat = false ∧ KeepsRegs [st] s t ∧ t.mem = s.mem)) ∧
    (alive s = true → stuckDue s q c up = true → Runs (.wcStuck q c up) s fun t => t = markStuck q c up s) ∧
    (alive s = true → implDue s q c = true → Runs (.wcImpl q c) s fun t => t = markImpl q c s) ∧
    (CanWrite s m (boundReg q c up) →
      sx 10 (getBits v.toNat Fld.WC_TBND_MAX) < sx 10 (getBits v.toNat Fld.WC_TBND_MIN) →
      Runs (.wcBoundWrite m q c up v) s fun t => flag t st Fld.WC_STAT_BADBND = true ∧ OnlyRegs [st] s t) ∧
    (CanWrite s m (boundReg q c up) →
      sx 10 (getBits v.toNat Fld.WC_TBND_MIN) ≤ sx 10 (getBits v.toNat Fld.WC_TBND_MAX) →
      Runs (.wcBoundWrite m q c up v) s fun t => t = plainWrite (boundReg q c up) v.toNat s) ∧
    (CanWrite s m (Reg.WC_TOPP q c) → Runs (.wcToppClear m q c) s fun t =>
      rd t (Reg.WC_TOPP q c) = 0 ∧ KeepsRegs [Reg.WC_TOPP q c] s t ∧ t.mem = s.mem) ∧
    (∀ (cmd : Instr) (a : Nat), (cmd, a) ∈ [(.wcCntClear m q c, Reg.WC_CNT q c),
        (.ocpcntClear m n, Reg.WC_OCPCNT (quireOf n) (localOf n))] → CanWrite s m a →
      Runs cmd s fun t => rd t a = 0 ∧ OnlyRegs [a] s t) ∧
    (CanWrite s m (Reg.WC_OCPSTAT (quireOf n) (localOf n)) → Runs (.ocpstatClear m n) s fun t =>
      fld t (Reg.WC_OCPSTAT (quireOf n) (localOf n)) ⟨15, 0⟩ = 0 ∧
      flag t (Reg.WC_OCPSTAT (quireOf n) (localOf n)) Fld.WC_OCPSTAT_ASSERT =
        flag s (Reg.WC_OCPSTAT (quireOf n) (localOf n)) Fld.WC_OCPSTAT_ASSERT ∧
      OnlyRegs [Reg.WC_OCPSTAT (quireOf n) (localOf n)] s t)

/-- With the bounds in order, in relative mode: the thresholds in use lie within LOMIN to LOMAX and HIMIN to HIMAX when
tracking starts and whenever those decided at a control tick come into use, and neither changes a register other than
WC_CUR, WC_TOPP and WC_STAT; those that a control tick decides lie within them too, whatever the envelopes were, wait
for the next tick instant, and change no register. (R140) -/
def Obligations.TrackedThresholdsStayInBounds : Prop :=
  ∀ (s : State) (q : Fin 16) (c : Fin 8) (t : Nat) (lo hi : Int) (u : State),
    let w := 8 * q.val + c.val
    let b := trackBounds s q c
    relative s q c = true → b.1 ≤ b.2.1 → b.2.2.1 ≤ b.2.2.2 →
    (u = startTracking q c s ∨ (tracking s q c = true ∧ (compOf s w).useAt ≠ 0 ∧ (compOf s w).useAt ≤ t ∧
        u = adoptThresholds q c t s) →
      b.1 ≤ (thresholds u q c).1 ∧ (thresholds u q c).1 ≤ b.2.1 ∧
      b.2.2.1 ≤ (thresholds u q c).2.1 ∧ (thresholds u q c).2.1 ≤ b.2.2.2 ∧
      KeepsRegs [Reg.WC_CUR q c, Reg.WC_TOPP q c, Reg.WC_STAT q c] s u ∧ u.mem = s.mem) ∧
    (u = trackTick q c t lo hi s →
      b.1 ≤ (compOf u w).nLo ∧ (compOf u w).nLo ≤ b.2.1 ∧ b.2.2.1 ≤ (compOf u w).nHi ∧ (compOf u w).nHi ≤ b.2.2.2 ∧
      (compOf u w).useAt = tickAfter s q t ∧ u.regs = s.regs ∧ u.mem = s.mem)

/-- The 40 bits of a slot are decoded under the running disparity that the port carries on through lost frames, by the
tables of the 8b/10b code, which the rules do not print (log 193). On an aligned port a good temperature or Vin frame
shows its data in PP_TEMP or PP_VIN and its slot in PP_STAT.SLOT, and changes no other register; any good frame acts
by the named operation on its slot. A frame that is not good adds 1 to CRC of PP_ERR where only the CRC fails in a
slot other than 0, else to CODE; the first and second in a row change nothing else, and the third sets RSY, clears
ALIGNED, adds 1 to SLOST and leaves STATE. On a port that is not aligned and waits for no retry a frame acts by the
named search. A counter clear zeroes its register alone. Commands shown to complete: UPLINK_FRAME, PP_COUNTER_CLEAR.
(R150, R151, R152, R154, R158, R170, R171) -/
def Obligations.UplinkFramesReachThePort : Prop :=
  ∀ (s : State) (m : Master) (n : Fin 256) (w : BitVec 40) (k : Fin 3),
    let f := received (portOf s n).rd w.toNat
    let s0 := updPort n (fun x => { x with rd := slotRd x.rd w.toNat 4 }) s
    let q := quireOf n
    let p := localOf n
    let st := ppStat n
    let err := Reg.PP_ERR q p
    let slot := (portOf s n).slot
    let a := updPort n (fun x => { x with slot := slot + 1 }) s0
    let good := frameGood f (slot % 256) (portState s n == 1 || portState s n == 2)
    let ec := if slot % 256 ≠ 0 ∧ f.valid = true ∧ f.comma = false ∧ frameCrcOk f = false then Fld.PP_ERR_CRC
      else Fld.PP_ERR_CODE
    (alive s = true → listening s n = true → flag s st Fld.PP_STAT_ALIGNED = true →
      (good = true → Runs (.uplinkFrame n w) s fun t => t = takeFrame n slot f a ∧
        (∀ (ty r : Nat), (ty, r) ∈ [(2, Reg.PP_TEMP q p), (3, Reg.PP_VIN q p)] → frameType f = ty → slot % 256 ≠ 0 →
          rd t r = frameData f ∧ fld t st Fld.PP_STAT_SLOT = slot % 256 ∧ KeepsRegs [r, st] s t)) ∧
      (good = false → (portOf s n).lost < 2 → Runs (.uplinkFrame n w) s fun t =>
        fld t err ec = min (fld s err ec + 1) 65535 ∧ (portOf t n).lost = (portOf s n).lost + 1 ∧ KeepsRegs [err] s t) ∧
      (good = false → (portOf s n).lost = 2 → Runs (.uplinkFrame n w) s fun t =>
        fld t err ec = min (fld s err ec + 1) 65535 ∧ resyncing t n = true ∧ flag t st Fld.PP_STAT_ALIGNED = false ∧
        portState t n = portState s n ∧ (portOf t n).attempt = 1 ∧
        fld t (Reg.PP_LOSS q p) Fld.PP_LOSS_SLOST = min (fld s (Reg.PP_LOSS q p) Fld.PP_LOSS_SLOST + 1) 255)) ∧
    (alive s = true → listening s n = true → flag s st Fld.PP_STAT_ALIGNED = false → (portOf s n).retryAt = 0 →
      Runs (.uplinkFrame n w) s fun t => t = searchFrame n f s0) ∧
    (CanWrite s m (ppCounter n k) → Runs (.ppCounterClear m n k) s fun t =>
      rd t (ppCounter n k) = 0 ∧ OnlyRegs [ppCounter n k] s t)

/-- A deadline that passes without a sample supplies one by the named operation. A finished attempt aligns the port by
the named operation; a failed one with attempts left has the stage bus write CTRL with ULRST = 1 and waits 1 ms; the
next attempt starts with its number one higher and no register changed. A vacated port returns to IDENT. ISOLATE, RESYNC
and REBIND of a port in ISOLATED, UNISOLATE of any other, and RESYNC of a discrete driver's port, which has no uplink
(log 47), only show RESULT 2; otherwise they show RESULT 0 after their named effect. Commands shown to complete:
UPLINK_DEADLINE, RESYNC_SUCCESS, RESYNC_ATTEMPT_FAIL, RESYNC_RETRY_START, PORT_VACATED, ISOLATE, UNISOLATE, RESYNC,
REBIND. (R156, R159, R165, R168, R171) -/
def Obligations.PortEventsRun : Prop :=
  ∀ (s : State) (m : Master) (n : Fin 256),
    let q := quireOf n
    let p := portOf s n
    (∀ t0, alive s = true → missedTick s n = some t0 → Runs (.uplinkDeadline n) s fun t => t = uplinkDeadline n t0 s) ∧
    (alive s = true → resyncDone s n = true → Runs (.resyncSuccess n) s fun t => t = resyncSuccess n s) ∧
    (alive s = true → attemptOver s n = true → Runs (.resyncAttemptFail n) s fun t => t = attemptFail n s ∧
      (p.attempt < fld s (Reg.PP_CTRL q) Fld.PP_CTRL_RSMAX →
        (portOf t n).retryAt = now s + 1000000 + 1 ∧ (portOf t n).attempt = p.attempt ∧
        (sbusOf t q).todo = (sbusOf s q).todo ++ [⟨localOf n, 1, regImage 0x08 [p.ctrl + 2 ^ 14]⟩])) ∧
    (alive s = true → p.retryAt ≠ 0 → p.retryAt ≤ now s + 1 → Runs (.resyncRetryStart n) s fun t =>
      (portOf t n).attempt = p.attempt + 1 ∧ (portOf t n).retryAt = 0 ∧ (portOf t n).tryAt = now s ∧ t.regs = s.regs ∧
      t.mem = s.mem) ∧
    (alive s = true → vacant s n = true → Runs (.portVacated n) s fun t => t = toIdent n (setMgmt n 0 s)) ∧
    (∀ (c : Instr) (ok : Bool) (u : State),
      (c, ok, u) ∈ [(.isolate m n, p.dp != 6, isolatePort n s),
        (.unisolate m n, p.dp == 6, toIdent n (setFld (ppStat n) Fld.PP_STAT_MGMT 0 s)),
        (.rebind m n, p.dp != 6, toIdent n s),
        (.resync m n, p.dp != 6 && !discrete s n,
          beginAttempts n s)] →
      CanWrite s m (Reg.PP_CMD q) →
      (ok = true → Runs c s fun t => t = ppResult q 0 u ∧ fld t (Reg.PP_CMDST q) Fld.PP_CMDST_RESULT = 0) ∧
      (ok = false → Runs c s fun t => fld t (Reg.PP_CMDST q) Fld.PP_CMDST_RESULT = 2 ∧ OnlyRegs [Reg.PP_CMDST q] s t))

/-- A Hot-Join with no temporary address free sets POOL; any other joins by the named operation. A due binding round, a
completed or late binding and an interrupt act by their named operations. A transfer asked while one runs only shows
RESULT 1; one to a stage that is not there shows RESULT 3 and starts nothing; any other starts, BUSY = 1, with the
bytes it sends. Completions act by the named operations, on a running bus, within the retries that SB_CTRL allows. A
read of SB_IBIQ removes the oldest entry and no other. IBICNT_CLEAR zeroes its register alone. Commands shown to
complete: HOT_JOIN, BINDING_ROUND, STAGE_BIND_COMPLETE, BIND_ALIGN_TIMEOUT, STAGE_IBI, SB_XFER_READ, SB_XFER_WRITE,
SB_XFER_COMPLETE, SB_IBIQ_READ, SB_IBICNT_CLEAR. (R160, R161, R162, R167, R169, R172) -/
def Obligations.StageBusCommandsRun : Prop :=
  ∀ (s : State) (m : Master) (q : Fin 16) (n : Fin 256) (v : BitVec 32) (temp : Bool) (y : Reply)
    (d0 d1 d2 d3 : BitVec 16) (reports : List StageReport) (a : Fin 16) (pid : BitVec 48)
    (cause bcr dcr : BitVec 8),
    let x := Reg.SB_XSTAT q
    (alive s = true → busOn s q = true → flag s (Reg.SB_CTRL q) Fld.SB_CTRL_HJEN = true →
      Runs (.hotJoin q pid bcr dcr) s fun t => t = hotJoin q s ∧
        (freeTemp s q = none → flag t (Reg.SB_STAT q) Fld.SB_STAT_POOL = true ∧ KeepsRegs [Reg.SB_STAT q] s t)) ∧
    (alive s = true → roundDue s q = true → (reports.all fun z => replyFits s q z.reply) = true →
      Runs (.bindingRound q reports) s fun t => t = bindingRound q reports s) ∧
    (alive s = true → (portOf s n).binding = 9 → Runs (.stageBindComplete n) s fun t => t = bindComplete n s) ∧
    (alive s = true → bindLate s n = true → Runs (.bindAlignTimeout n) s fun t =>
      t = withPort n (updPort n (fun p => { p with binding := 0, alignFail := true })) s) ∧
    (alive s = true → busOn s q = true → Runs (.stageIbi q temp a cause) s fun t =>
      t = stageIbi q temp a cause.toNat s) ∧
    (∀ (c : Instr) (op : Nat), (c, op) ∈ [(.sbXferRead m q v, 1), (.sbXferWrite m q v, 2)] →
      CanWrite s m (Reg.SB_XCMD q) →
      (flag s x Fld.SB_XSTAT_BUSY = true → Runs c s fun t => fld t x Fld.SB_XSTAT_RESULT = 1 ∧ OnlyRegs [x] s t) ∧
      (flag s x Fld.SB_XSTAT_BUSY = false →
        (xferTarget s q (xcmdOp v op) = false → Runs c s fun t =>
          fld t x Fld.SB_XSTAT_RESULT = 3 ∧ flag t x Fld.SB_XSTAT_BUSY = false ∧ OnlyRegs [x, Reg.SB_XCMD q] s t) ∧
        (xferTarget s q (xcmdOp v op) = true → Runs c s fun t =>
          flag t x Fld.SB_XSTAT_BUSY = true ∧ (sbusOf t q).xfer = xcmdOp v op + 1 ∧
          (sbusOf t q).sent = xferBytes s q (xcmdOp v op)))) ∧
    (alive s = true → busOn s q = true → replyFits s q y = true →
      ((sbusOf s q).xfer ≠ 0 → Runs (.sbXferComplete q false y.ok y.retries d0 d1 d2 d3) s fun t =>
        t = xferComplete q y [d0.toNat, d1.toNat, d2.toNat, d3.toNat] s) ∧
      ((sbusOf s q).todo ≠ [] → Runs (.sbXferComplete q true y.ok y.retries d0 d1 d2 d3) s fun t =>
        t = ownComplete q y [d0.toNat, d1.toNat, d2.toNat, d3.toNat] s)) ∧
    (CanRead s m (Reg.SB_IBIQ q) → Runs (.sbIbiqRead m q) s fun t =>
      (sbusOf t q).ibiq = (sbusOf s q).ibiq.drop 1 ∧ KeepsRegs [Reg.SB_IBIQ q, Reg.SB_STAT q] s t ∧ t.mem = s.mem) ∧
    (CanWrite s m (Reg.SB_IBICNT q) → Runs (.sbIbicntClear m q) s fun t =>
      rd t (Reg.SB_IBICNT q) = 0 ∧ OnlyRegs [Reg.SB_IBICNT q] s t)

/-- For every tag byte, data bytes and CRC byte: the frame whose CRC is that of R153 matches, and a frame that differs
from it in exactly one of the four bytes does not match. (R153) -/
def Obligations.FrameCrcFindsErrors : Prop :=
  ∀ (f g : Frame), frameCrcOk f = true →
    ((g.tag ≠ f.tag ∧ g.hi = f.hi ∧ g.lo = f.lo ∧ g.crc = f.crc) ∨
      (g.tag = f.tag ∧ g.hi ≠ f.hi ∧ g.lo = f.lo ∧ g.crc = f.crc) ∨
      (g.tag = f.tag ∧ g.hi = f.hi ∧ g.lo ≠ f.lo ∧ g.crc = f.crc) ∨
        (g.tag = f.tag ∧ g.hi = f.hi ∧ g.lo = f.lo ∧ g.crc ≠ f.crc)) →
    frameCrcOk g = false

/-- A cycle starts with its number in VB_STAT.CYC; a waiting revoke goes out before any grant, and no slot is granted
then. A good hint is queued for its rail and counted, a refused one adds 1 to TAG and is not queued, either makes a
GRANTED slot MEMBER. An empty slot, a word with a bad CRC and one with a bad tag are misses; the two last add 1 to CRC
and to TAG. A miss short of the eighth adds 1 to MISSRUN and changes nothing else; the eighth of a MEMBER closes the
slot, orders a revoke and counts a drop, the eighth of a GRANTED slot orders a revoke and leaves it FREE, and that of
any other slot only shows. That a slot is classed whatever its state is a reading of the model (log 198). A bad join
word adds 1 to JBAD alone; a good one with a ticket waits for its beacon. REOPEN and EVICT act on the slot states R181
names and otherwise only set CMDREF. A PHASE write while EN = 1 leaves PHASE; a counter clear zeroes its register
alone. Commands shown to complete: VARIP_CYCLE, HINT_SLOT, JOIN_WORD, VB_REOPEN, VB_EVICT, VB_CFG_WRITE,
VB_COUNTER_CLEAR. (R174, R180, R181, R182, R183, R184, R185, R186) -/
def Obligations.VaripCommandsRun : Prop :=
  ∀ (s : State) (m : Master) (v : Fin 16) (i : Fin 8) (w : BitVec 40) (j : BitVec 16) (x : BitVec 32) (k : Fin 3),
    let y := varipOf s v
    let a := Reg.VB_SLOT v i
    let err := Reg.VB_ERR v
    let jc := Reg.VB_JCNT v
    let run := fld s a Fld.VB_SLOT_MISSRUN
    let heard := if slotState s v i = 1 then 2 else slotState s v i
    (alive s = true → cycleDue s v = true → Runs (.varipCycle v) s fun t => t = varipCycle v s ∧
      fld t (Reg.VB_STAT v) Fld.VB_STAT_CYC = cycleNumber (now s) (varipPhase s v) ∧
      (∀ i0 rest, y.revokes = i0 :: rest → KeepsRegs [Reg.VB_STAT v] s t ∧ (varipOf t v).revokes = rest)) ∧
    (alive s = true → slotDue s v i = true →
      let h := hintOf y v i w.toNat
      (classifyHint s v i w.toNat = .good → Runs (.hintSlot v i w) s fun t =>
        (varipOf t v).flight = y.flight ++ [h] ∧ fld t a Fld.VB_SLOT_MISSRUN = 0 ∧ slotState t v i = heard ∧
        fld t a Fld.VB_SLOT_RAIL = h.rail ∧ rd t (Reg.VB_HINTS v) = min (rd s (Reg.VB_HINTS v) + 1) 4294967295) ∧
      (classifyHint s v i w.toNat = .refused → Runs (.hintSlot v i w) s fun t =>
        (varipOf t v).flight = y.flight ∧ fld t a Fld.VB_SLOT_MISSRUN = 0 ∧ slotState t v i = heard ∧
        fld t err Fld.VB_ERR_TAG = min (fld s err Fld.VB_ERR_TAG + 1) 65535) ∧
      (∀ (c : SlotClass) (e : Option Bits),
        (c, e) ∈ [(.empty, none), (.badCrc, some Fld.VB_ERR_CRC), (.badTag, some Fld.VB_ERR_TAG)] →
        classifyHint s v i w.toNat = c →
        let counted := fun t => rd t err = rd (e.elim s fun f => incFld err f s) err
        (run < 7 → Runs (.hintSlot v i w) s fun t =>
          fld t a Fld.VB_SLOT_MISSRUN = run + 1 ∧ counted t ∧ slotState t v i = slotState s v i ∧
          KeepsRegs [a, err] s t) ∧
        (7 ≤ run → slotState s v i = 2 → Runs (.hintSlot v i w) s fun t =>
          slotState t v i = 3 ∧ (varipOf t v).revokes = y.revokes ++ [i.val] ∧
          bitAt (rd t Reg.VB_EVT) (16 + v.val) = true ∧ counted t ∧
          fld t jc Fld.VB_JCNT_DROPS = min (fld s jc Fld.VB_JCNT_DROPS + 1) 255 ∧
          KeepsRegs [a, err, jc, Reg.VB_EVT, Reg.VB_STAT v] s t) ∧
        (7 ≤ run → slotState s v i = 1 → Runs (.hintSlot v i w) s fun t =>
          slotState t v i = 0 ∧ (varipOf t v).revokes = y.revokes ++ [i.val] ∧ counted t ∧
          KeepsRegs [a, err, Reg.VB_STAT v] s t) ∧
        (7 ≤ run → slotState s v i ≠ 1 → slotState s v i ≠ 2 → Runs (.hintSlot v i w) s fun t =>
          fld t a Fld.VB_SLOT_MISSRUN = 8 ∧ counted t ∧ slotState t v i = slotState s v i ∧
          KeepsRegs [a, err] s t))) ∧
    (alive s = true → joinWindow s v = true →
      (crc8 0xFF [j.toNat / 256] ≠ j.toNat % 256 → Runs (.joinWord v j) s fun t =>
        fld t jc Fld.VB_JCNT_JBAD = min (fld s jc Fld.VB_JCNT_JBAD + 1) 65535 ∧ KeepsRegs [jc] s t ∧
        (varipOf t v).joins = y.joins) ∧
      (crc8 0xFF [j.toNat / 256] = j.toNat % 256 → 256 ≤ j.toNat → Runs (.joinWord v j) s fun t =>
        (varipOf t v).joins = y.joins ++ [(j.toNat / 256, y.start - 1)] ∧ t.regs = s.regs)) ∧
    (CanWrite s m (Reg.VB_CMD v) →
      (slotState s v i = 3 → Runs (.vbReopen m v i) s fun t =>
        slotState t v i = 0 ∧ KeepsRegs [a, Reg.VB_STAT v] s t) ∧
      (slotState s v i = 1 ∨ slotState s v i = 2 → Runs (.vbEvict m v i) s fun t =>
        slotState t v i = 3 ∧ (varipOf t v).revokes = y.revokes ++ [i.val] ∧
        fld t jc Fld.VB_JCNT_DROPS = min (fld s jc Fld.VB_JCNT_DROPS + 1) 255 ∧
        KeepsRegs [a, jc, Reg.VB_EVT, Reg.VB_STAT v] s t) ∧
      (∀ c : Instr, (c = .vbReopen m v i ∧ slotState s v i ≠ 3) ∨
          (c = .vbEvict m v i ∧ slotState s v i ≠ 1 ∧ slotState s v i ≠ 2) → Runs c s fun t =>
        flag t (Reg.VB_STAT v) Fld.VB_STAT_CMDREF = true ∧ OnlyRegs [Reg.VB_STAT v] s t)) ∧
    (CanWrite s m (Reg.VB_CFG v) → Runs (.vbCfgWrite m v x) s fun t => t = vbCfgWrite v x.toNat s) ∧
    (CanWrite s m (vbCounter v k) → Runs (.vbCounterClear m v k) s fun t =>
      rd t (vbCounter v k) = 0 ∧ OnlyRegs [vbCounter v k] s t)

/-- For every cycle number, slot and ticket of their widths, the beacon is a 40-bit word with SYNC 0xD3, the reserved
bits 0 and the CRC of its covered bytes, and its fields read back as CYC, OPEN, FF, GV, GSLOT and GTICKET. The cycle
that starts 2,000 ns after another has the next cycle number modulo 256. (R174, R177, R179) -/
def Obligations.BeaconsAreGood : Prop :=
  (∀ (cyc gslot ticket : Nat) (o f g : Bool), cyc < 256 → gslot < 8 → ticket < 256 →
    let w := beaconWord cyc o f g gslot ticket
    w < 2 ^ 40 ∧ getBits w ⟨39, 32⟩ = 0xD3 ∧ getBits w ⟨31, 24⟩ = cyc ∧ bitAt w 23 = o ∧ bitAt w 22 = f ∧
    bitAt w 21 = g ∧ getBits w ⟨20, 18⟩ = gslot ∧ getBits w ⟨17, 16⟩ = 0 ∧ getBits w ⟨15, 8⟩ = ticket ∧
    getBits w ⟨7, 0⟩ = crc8 0xFF [getBits w ⟨39, 32⟩, getBits w ⟨31, 24⟩, getBits w ⟨23, 16⟩, getBits w ⟨15, 8⟩]) ∧
  (∀ c phase : Nat, cycleNumber (c + 2000) phase = (cycleNumber c phase + 1) % 256)

/-- For a single engine that issues a bundle of one operation outside a repeat: NOP, the moves, arithmetic, logic,
shifts, minima, maxima, SLT and SLTU, CMP, CMPI and TST, MOVL, MOVH, SATS, the multiplier operations, MFP, MTP, B, CALL,
JR, CALLR, RET, REP, REPI, MFS and MTS at a sufficient privilege, SWITCH with a task bank current, CALLW with fewer than
seven live windows and RETW with more than one. The command of its row leaves the engine with the next program counter
and the destination, flags, window or repeat state that its rule gives; every other register of the engine, every other
engine, all memory and every register but BD_ESTAT and BD_EPC stay. Commands shown to complete: NOP, MOV, NEG, ABS, NOT,
ADD, ADDS, SUB, SUBS, AND, OR, XOR, ANDN, SHL, SHR, SAR, SHLS, ROR, MIN, MAX, MINU, MAXU, SLT, SLTU, MULLO, CMP, TST,
ADDI, ANDI, ORI, XORI, MOVI, SHLI, SHRI, SARI, CMPI, MOVL, MOVH, SATS, MUL, MAC, MSU, MULU, MACU, MFP, MTP, B, CALL,
CALLW, JR, CALLR, RET, RETW, REP, REPI, MFS, MTS, SWITCH. (R187, R195, R196, R197, R198, R200, R201, R204, R205, R208,
R213, R234) -/
def Obligations.EngineRegisterBundlesRun : Prop :=
  ∀ (s : State) (e : Fin 128) (u : Upset) (o : Op) (a : Arch)
    (row : Row) (f : AluOp) (d g h k x sh n i : Nat) (p r : Src) (b c : Bool) (ofs : Int),
    let y := (engOf s e).arch
    let next := { y with pc := y.pc + 4 }
    let put := fun (z : Arch) (v : Nat × Bool) => (z.setAt (y.place d) v.1).satIf v.2
    let link := next.setAt (y.place 15) (y.pc + 4)
    y.rkind = 0 → Issues s e [o] →
    ((o, a) ∈ [(Op.nop, next), (.alu row f d p r, put next (alu f (y.src p) (y.src r))),
        (.cmp row g r, next.setFlags (flagsCmp y.flags (y.getReg g) (y.src r))),
        (.tst g h, next.setFlags (flagsTst y.flags (y.getReg g) (y.getReg h))),
        (.movh d i, next.setAt (y.place d) (y.getReg d % 2 ^ 16 + 2 ^ 16 * i)),
        (.sats d g n, put next (satsTo (y.getReg g) n)),
        (.mul k x g h, next.setAcc x (multiply k (y.accOf x) (y.getReg g) (y.getReg h))),
        (.mfp d x sh b c, put next (moveFrom (y.accOf x) sh b c)),
        (.mtp x g sh false, next.setAcc x (acc72 (s32 (y.getReg g) * 2 ^ sh))), (.mtp x g sh true, next.setAcc x 0),
        (.br k ofs, if condHolds y.flags k then { next with pc := branchTo y.pc ofs } else next),
        (.call ofs, { link with pc := branchTo y.pc ofs }), (.callr g, { link with pc := y.getReg g / 4 * 4 }),
        (.jr g, { next with pc := y.getReg g / 4 * 4 }), (.ret, { next with pc := y.getReg 15 / 4 * 4 }),
        (.rep false n, next.setRep n 1), (.rep true n, next.setRep n 3),
        (.mfs d 0x0C, next.setAt (y.place d) (now s % 2 ^ 32)),
          (.mfs d 0x0D, next.setAt (y.place d) (now s / 2 ^ 32))] ∨
      (∃ l, sregLevel n false = some l ∧ l ≤ y.priv ∧ n ≠ 0x0C ∧ n ≠ 0x0D ∧ o = .mfs d n ∧
        a = next.setAt (y.place d) (sregRead e y n)) ∨
      (∃ l, sregLevel n true = some l ∧ l ≤ y.priv ∧ o = .mts n g ∧ a = sregWrite n (y.getReg g) next) ∨
      (o = .switch k ∧ 1 ≤ y.priv ∧ y.bank ≠ 4 ∧ a = { next with bank := k }) ∨
      (o = .callw ofs ∧ y.bank ≠ 4 ∧ y.liveOf y.bank ≠ 7 ∧
        a = { ((next.setWix y.bank (y.wixOf y.bank + 1)).setLive y.bank (y.liveOf y.bank + 1)).setAt (y.place 15)
                (y.pc + 4) with pc := branchTo y.pc ofs }) ∨
      (o = .retw ∧ y.bank ≠ 4 ∧ y.liveOf y.bank ≠ 1 ∧
        a = { (next.setWix y.bank (y.wixOf y.bank + 7)).setLive y.bank (y.liveOf y.bank - 1) with
                pc := y.getReg 15 / 4 * 4 })) →
    Runs (rowCommand o.row e u) s fun t => Retired e { engOf s e with arch := a, base := a } s t

/-- For a single engine that issues a bundle of one operation outside a repeat: DIVS, DIVU, DIVQ, REMS, REMU, SQRTU and
SQRTQ start the long-operation unit and leave the destination; LONG_OP_COMPLETE writes it and sets SAT;
LOAD_DATA_RETURN writes the oldest load; STORE_ACK takes one store off. FENCE with nothing outstanding only moves on;
WAIT and HALT (Monitor) leave the engine in WAIT and HALT; FLUSH.I (Supervisor) performs the code-write buffer and
empties it. Commands shown to complete: DIVS, DIVU, DIVQ, REMS, REMU, SQRTU, SQRTQ, LONG_OP_COMPLETE,
LOAD_DATA_RETURN, STORE_ACK, FENCE, FLUSH_I, WAIT, HALT. (R14, R199, R202, R203, R208, R214, R215, R236, R241) -/
def Obligations.EngineLongAndStopBundlesRun : Prop :=
  ∀ (s : State) (e : Fin 128) (u : Upset) (k d g h p v : Nat) (b : Bool),
    let z := engOf s e
    let y := z.arch
    let next := { y with pc := y.pc + 4 }
    (∀ (o : Op) (r : Nat × Bool), (o, r) ∈ [(Op.div k d g h, divide k (y.getReg g) (y.getReg h)),
        (.sqrt k d g, squareRoot k (y.getReg g))] → y.rkind = 0 → Issues s e [o] →
      Runs (rowCommand o.row e u) s fun t =>
        Retired e { z with arch := next, base := next, long := some (y.place d, r.1, r.2) } s t) ∧
    (∀ (c : Instr) (z1 : Engine) (rest : List (Nat × Nat)), alive s = true →
      (c = .longOpComplete e ∧ z.long = some (p, v, b) ∧
        z1 = { z with arch := (y.setAt p v).satIf b, base := (y.setAt p v).satIf b, long := none }) ∨
      (c = .loadDataReturn e ∧ z.loads = (p, v) :: rest ∧
        z1 = { z with arch := y.setAt p v, base := y.setAt p v, loads := rest }) ∨
      (c = .storeAck e ∧ z1 = { z with stores := z.stores - 1 }) →
      Runs c s fun t => engOf t e = z1 ∧ KeepsEngines e s t ∧ t.regs = s.regs ∧ t.mem = s.mem) ∧
    (y.rkind = 0 → Issues s e [.fence] → Runs (.fence e) s fun t =>
      z.loads = [] ∧ z.stores = 0 ∧ Retired e { z with arch := next, base := next } s t) ∧
    (y.rkind = 0 → Issues s e [.wait] → Runs (.wait e) s fun t => engState t e = 1 ∧
      Retired e { z with arch := next, base := next } s t) ∧
    (y.rkind = 0 → Issues s e [.halt] → y.priv = 2 → Runs (.halt e) s fun t =>
      engState t e = 2 ∧ t.mem = s.mem ∧ KeepsEngines e s t) ∧
    (∀ (n : Nat) (s1 : State), y.rkind = 0 → Issues s e [.flushI] → 1 ≤ y.priv →
      let a := { next with cwb := [] }
      performOps e .none (y.cwb.flatMap CodeWrite.ops) (takeEff e (Eff.at a) s) = (s1, n, false) →
      Runs (.flushI e) s fun t => (engOf t e).arch = (engOf s1 e).arch ∧ t.mem = s1.mem)

/-- For a single engine that issues a bundle of one operation outside a repeat: a load whose access gives v moves the
address register and writes v extended to its width, at once from the engine's own memories and as a pending result
from elsewhere. A store with every right whose writes are performed moves the address register; one that is not split,
in a written word of SRAM that is not the engine's own code, leaves the stored bytes at its address and every other
byte as it was, and any store to SRAM leaves every other 64-bit word. SAVECTX and LOADCTX whose transfers all succeed
leave the state that their rules give. Commands shown to complete: LDW, LDH, LDHU, LDB, LDBU, STW, STH, STB, SAVECTX,
LOADCTX. (R202, R207, R208, R214, R217, R220, R239, R240) -/
def Obligations.EngineMemoryBundlesRun : Prop :=
  ∀ (s s1 : State) (e : Fin 128) (u : Upset) (wd : Width) (d g v n : Nat) (ofs post : Int) (cwb : List CodeWrite)
    (os : List MemOp) (eff : Eff),
    let w := whoOf s e
    let z := engOf s e
    let y := z.arch
    let next := { y with pc := y.pc + 4 }
    let at_ := memAddr y g ofs
    let moved := if post = 0 then next else next.setAt (y.place g) (pat 32 ((y.getReg g : Int) + post))
    (y.rkind = 0 → Issues s e [.load wd d g ofs post] → engineLoad w y at_ wd.bytes u s = some (s1, .inr v) →
      let own := (accessParts at_ wd.bytes).all fun p => w.owns (spineAddr e p.addr)
      Runs (rowCommand (Op.load wd d g ofs post).row e u) s fun t => t.mem = s1.mem ∧
        (own = true → (engOf t e).arch = moved.setAt (y.place d) (wd.extend v)) ∧
        (own = false → (engOf t e).arch = moved ∧
          (engOf t e).loads = (engOf s1 e).loads ++ [(y.place d, wd.extend v)])) ∧
    (y.rkind = 0 → Issues s e [.store wd d g ofs post] → accessFault s w y.priv true at_ wd.bytes = none →
      partsHeld s w at_ wd.bytes = false →
      placeOps w (storeOps w at_ wd.bytes (y.getReg d)) y.cwb = some (cwb, os) →
      performOps e u os (takeEff e (Eff.at { moved with cwb := cwb }) s) = (s1, n, false) →
      Runs (rowCommand (Op.store wd d g ofs post).row e u) s fun t =>
        t.mem = s1.mem ∧ (engOf t e).arch = (engOf s1 e).arch ∧
        (engOf t e).stores = (engOf s1 e).stores + acked e os ∧
        ((∀ o ∈ os, (bankOf o.addr).isSome = true) →
          ∀ b, (∀ o ∈ os, b / 8 ≠ o.addr / 8) → memByte t b = memByte s b) ∧
        (∀ k, splits at_ wd.bytes = false → bankOf (spineAddr e at_) = some k → w.isCode (spineAddr e at_) = false →
          isRegister (spineAddr e at_) = false → wordWritten s k (spineAddr e at_) = true →
          memValue t (spineAddr e at_) wd.bytes = y.getReg d % 2 ^ (8 * wd.bytes) ∧
          ∀ b, (b < spineAddr e at_ ∨ spineAddr e at_ + wd.bytes ≤ b) → memByte t b = memByte s b)) ∧
    (y.rkind = 0 → Issues s e [.savectx g] → 1 ≤ y.priv →
      saveContext w y (y.getReg g / 8 * 8) s (Eff.at next) = some (s1, eff, none) → eff.stop = 0 →
      (performOps e eff.upset eff.ops (takeEff e eff s1)).2.2 = false →
      Runs (.savectx e) s fun t => t.mem = (performOps e eff.upset eff.ops (takeEff e eff s1)).1.mem) ∧
    (y.rkind = 0 → Issues s e [.loadctx g] → 1 ≤ y.priv →
      loadContext w y (y.getReg g / 8 * 8) s (Eff.at next) = some (s1, eff, none) → eff.ops = [] → eff.stop = 0 →
      Runs (.loadctx e) s fun t => (engOf t e).arch = eff.x ∧ t.mem = s1.mem)

/-- A non-fast entry through a valid descriptor pushes the ten frame words 40 bytes below sp and leaves the privilege,
ceiling, level, EFP, sp and handler address of R227. TRAP n takes exception 16 + n with a frame that names the next
bundle. A taken interrupt and the end of WAIT act by the shared entry; an interrupt of the world clears its BD_IPEND
bit. An operation below its privilege raises exception 5 with no other effect, but SWITCH with the FIB current, where
UNDEF comes first. RETX from the FIB restores the shadow; RETX of a frame that passes R230 restores it. Commands shown
to complete: WAIT_WAKE, TRAP, RETX, INTERRUPT_TAKEN. (R212, R223, R224, R225, R226, R227, R228, R229, R233, R235,
R236) -/
def Obligations.EngineEntriesAndReturns : Prop :=
  (∀ (w : Who) (x : Arch) (c : Exc) (pc kind : Nat) (s s1 : State) (d : Descriptor), x.bank < 4 →
    readDesc w x c.num s = some (s1, some d) → descInvalid c.num d = false → c.num ≠ 1 → c.num ≠ 2 →
    (c.num < 32 ∨ d.fast = false) →
    let f := frameAt (x.getAt (x.homePlace 14))
    pushHeld s1 w f = false → pushFault s1 w x.priv f = none →
    ∃ y, enterException w x c pc kind s = some (s1, y) ∧ y.x.pc = d.handler / 4 * 4 ∧ y.x.priv = max d.newpriv x.priv ∧
      y.x.eceil = x.priv ∧ y.x.ipl = max x.ipl d.pri ∧ y.x.efp = f + 1 ∧ y.x.df = false ∧ y.x.en = false ∧
      y.x.rpc = 0 ∧ y.x.rkind = 0 ∧ y.stop = 0 ∧ y.x.getAt (y.x.homePlace 12) = f % 2 ^ 32 ∧
      y.x.getAt (y.x.homePlace 14) = (if x.priv < y.x.priv ∨ y.x.bank ≠ x.bank then d.sp else f) % 2 ^ 32 ∧
      y.ops = pushOps w f (frameWords x c.num pc kind c.addr c.info)) ∧
  (∀ (s s1 t : State) (e : Fin 128) (n : Nat) (y : Eff), (engOf s e).arch.rkind = 0 → Issues s e [.trap n] →
    enterException (whoOf s e) (engOf s e).arch { Exc.plain (16 + n) with next := true } ((engOf s e).arch.pc + 4) 0 s
      = some (s1, y) → t = retire (whoOf s e) (engOf s e).arch.pc (17 + n) 0 y s s1 → exec (.trap e) s = .next t) ∧
  (∀ (s t : State) (e : Fin 128), alive s = true → mayStep s (whoOf s e) = true →
    takeInterrupt (whoOf s e) s = some t → exec (.interruptTaken e) s = .next t) ∧
  (∀ (s s1 : State) (e : Fin 128), alive s = true → (whoOf s e).slot = none → shed s < 5 → engState s e = 1 →
    (engOf s e).held = false → wakeInput (whoOf s e) s = some s1 → Runs (.waitWake e) s fun t =>
      t = (takeInterrupt (whoOf s e) (setEngState e 0 s1)).getD (setEngState e 0 s1)) ∧
  (∀ (s s1 t : State) (e : Fin 128) (o : Op) (y : Eff) (d g k l : Nat),
    ((o ∈ [Op.flushI, .halt, .retx, .switch k, .savectx g, .loadctx g] ∧ l = sysLevel o) ∨
      (o = .mfs d k ∧ sregLevel k false = some l) ∨ (o = .mts k g ∧ sregLevel k true = some l)) →
    Issues s e [o] → resultsPending s e = false → (engOf s e).arch.priv < l →
    (o.row = .switch → (engOf s e).arch.bank ≠ 4) →
    enterException (whoOf s e) (engOf s e).arch (Exc.plain 5) (engOf s e).arch.pc 0 s = some (s1, y) →
    t = retire (whoOf s e) (engOf s e).arch.pc 6 0 y s s1 → exec (rowCommand o.row e .none) s = .next t) ∧
  (∀ (s : State) (e : Fin 128), (engOf s e).arch.rkind = 0 → Issues s e [.retx] → 1 ≤ (engOf s e).arch.priv →
    ((engOf s e).arch.bank = 4 → Runs (.retx e) s fun t =>
      (engOf t e).arch = { restoreShadow (engOf s e).arch with cwb := (engOf s e).arch.cwb } ∧ t.mem = s.mem) ∧
    (∀ (s1 : State) (a : Arch), returnFrom (whoOf s e) (engOf s e).arch s = some (s1, .inr a) →
      Runs (.retx e) s fun t => (engOf t e).arch = { a with cwb := (engOf s e).arch.cwb } ∧ t.mem = s1.mem))

/-- For a single engine that issues a legal pair of two register operations outside a repeat, the command of either
slot's row leaves each destination with the result its operation has on the state before the bundle (slot B's where
BANKWIN makes both one register), SAT set if either saturates, the program counter on the next bundle, and all memory
and every other engine as before. (R187, R190, R191, R196, R210) -/
def Obligations.PairedSlotsReadBeforeEither : Prop :=
  ∀ (s : State) (e : Fin 128) (u : Upset) (ra rb : Row) (f g : AluOp) (d h : Nat) (p q v w : Src),
    let y := (engOf s e).arch
    let x1 := Op.alu ra f d p q
    let x2 := Op.alu rb g h v w
    y.rkind = 0 → ra ≠ .nop → rb ≠ .nop → legalPair 0 x1 x2 = true → Issues s e [x1, x2] →
    ∀ r, r ∈ [ra, rb] → Runs (rowCommand r e u) s fun t =>
      let z := (engOf t e).arch
      (y.place d ≠ y.place h → z.getAt (y.place d) = (alu f (y.src p) (y.src q)).1 % 2 ^ 32) ∧
      z.getAt (y.place h) = (alu g (y.src v) (y.src w)).1 % 2 ^ 32 ∧ z.pc = y.pc + 4 ∧
      bitAt z.flags 4 = (bitAt y.flags 4 || (alu f (y.src p) (y.src q)).2 || (alu g (y.src v) (y.src w)).2) ∧
      KeepsEngines e s t ∧ t.mem = s.mem

/-- For all 32-bit operands: ADD, SUB and ADDI give the sum and difference modulo 2^32 and no SAT. ADDS, SUBS, NEG and
ABS give the exact result held to -2^31 to 2^31 - 1 and set SAT exactly when that changes it. SHL, SHR and SAR give the
shift by the whole count, 0 or the sign fill from 32 on; SHLS gives d x 2^n held to the range, 0 for d = 0, and sets SAT
exactly when it is held; ROR rotates by the count modulo 32. SATS holds a to -2^n to 2^n - 1 and sets SAT when it does,
and n = 31 passes a. (R198) -/
def Obligations.ArithmeticWrapsAndSaturates : Prop :=
  ∀ (a b : BitVec 32),
    let val := fun (r : Nat × Bool) => BitVec.ofNat 32 r.1
    let held := fun (x : Int) => max (-(2 ^ 31)) (min (2 ^ 31 - 1) x)
    (val (alu .add a.toNat b.toNat) = a + b ∧ (alu .add a.toNat b.toNat).2 = false) ∧
    (val (alu .sub a.toNat b.toNat) = a - b ∧ (alu .sub a.toNat b.toNat).2 = false) ∧
    (∀ (f : AluOp) (x : Int), (f, x) ∈ [(AluOp.adds, a.toInt + b.toInt), (.subs, a.toInt - b.toInt), (.neg, -a.toInt),
        (.abs, (a.toInt.natAbs : Int)), (.shls, a.toInt * 2 ^ b.toNat)] →
      (val (alu f a.toNat b.toNat)).toInt = held x ∧ ((alu f a.toNat b.toNat).2 = true ↔ x ≠ held x)) ∧
    (val (alu .shl a.toNat b.toNat) = a <<< b.toNat ∧ val (alu .shr a.toNat b.toNat) = a >>> b.toNat ∧
      val (alu .sar a.toNat b.toNat) = a.sshiftRight b.toNat ∧
      val (alu .ror a.toNat b.toNat) = a.rotateRight (b.toNat % 32)) ∧
    (∀ n, n < 32 → (val (satsTo a.toNat n)).toInt = max (-(2 ^ n)) (min (2 ^ n - 1) a.toInt) ∧
      ((satsTo a.toNat n).2 = true ↔ a.toInt ≠ max (-(2 ^ n)) (min (2 ^ n - 1) a.toInt)) ∧
      val (satsTo a.toNat 31) = a) ∧
    (∀ d g v, decodeLong (0x02 * 2 ^ 25 + d * 2 ^ 21 + g * 2 ^ 17 + v) = some (.alu .addi .add d (.reg g)
      (.imm (simm 17 v))) ∨
      16 ≤ d ∨ 16 ≤ g ∨ 2 ^ 17 ≤ v)

/-- For all 32-bit a and b: DIVS and DIVU give the quotient rounded towards zero, REMS and REMU the matching remainder,
DIVQ the quotient a x 2^31 / b to nearest with ties away from zero, held to the signed range; b = 0 and -2^31 / -1
give the values of the table, and SAT is set exactly by b = 0 and by saturation. SQRTU gives floor of the root; SQRTQ
the nearest root of a x 2^31 for a >= 0 and 0 with SAT for a < 0. The operation completes with no exception. (R199) -/
def Obligations.DivisionAndRootsAreExact : Prop :=
  ∀ (a b : BitVec 32),
    let val := fun (r : Nat × Bool) => BitVec.ofNat 32 r.1
    let held := fun (x : Int) => max (-(2 ^ 31)) (min (2 ^ 31 - 1) x)
    let n := a.toInt
    let m := b.toInt
    (b = 0 → (∀ k, k ∈ [0, 2] → divide k a.toNat 0 = (if n < 0 then 0x80000000 else 0x7FFFFFFF, true)) ∧
      divide 1 a.toNat 0 = (0xFFFFFFFF, true) ∧ ∀ k, k ∈ [3, 4] → divide k a.toNat 0 = (a.toNat, true)) ∧
    (b ≠ 0 →
      ((val (divide 0 a.toNat b.toNat)).toInt = held (Int.tdiv n m) ∧
        ((divide 0 a.toNat b.toNat).2 = true ↔ n = -(2 ^ 31) ∧ m = -1)) ∧
      divide 1 a.toNat b.toNat = (a.toNat / b.toNat, false) ∧
      ((val (divide 3 a.toNat b.toNat)).toInt = n - m * Int.tdiv n m ∧ (divide 3 a.toNat b.toNat).2 = false) ∧
      divide 4 a.toNat b.toNat = (a.toNat - b.toNat * (a.toNat / b.toNat), false) ∧
      (∃ x : Int, 2 * (x * m - n * 2 ^ 31).natAbs ≤ m.natAbs ∧
        (2 * (x * m - n * 2 ^ 31).natAbs = m.natAbs → (n * 2 ^ 31).natAbs < (x * m).natAbs) ∧
        (val (divide 2 a.toNat b.toNat)).toInt = held x ∧ ((divide 2 a.toNat b.toNat).2 = true ↔ x ≠ held x))) ∧
    (let r := (squareRoot 0 a.toNat).1
     r * r ≤ a.toNat ∧ a.toNat < (r + 1) * (r + 1) ∧ (squareRoot 0 a.toNat).2 = false) ∧
    (n < 0 → squareRoot 1 a.toNat = (0, true)) ∧
    (0 ≤ n → let r := (squareRoot 1 a.toNat).1
      4 * a.toNat * 2 ^ 31 < (2 * r + 1) * (2 * r + 1) ∧ (0 < r → (2 * r - 1) * (2 * r - 1) ≤ 4 * a.toNat * 2 ^ 31) ∧
      (squareRoot 1 a.toNat).2 = false) ∧
    (∀ (w : Who) (y : Arch) (u : Upset) (row : Row) (f : AluOp) (k d g h x sh : Nat) (p q : Src) (r t : Bool)
      (s : State)
      (z : Eff), ∀ o ∈ [Op.div k d g h, .sqrt k d g, .alu row f d p q, .cmp row g q, .tst g h, .movh d k, .sats d g k,
        .mul k x g h, .mfp d x sh r t, .mtp x g sh r], ∃ z1, runOp w y u o s z = some (s, z1, none))

/-- For all 32-bit operands and accumulators in range: MUL and MULU give the exact signed and unsigned product; MAC, MSU
and MACU add or subtract it modulo 2^72 and stay within 72 signed bits; MULLO gives the low word of the signed product
and leaves the accumulators; MTP loads a x 2^SH, or 0 under CLR; 256 full-scale products of 2^62 fit without wrapping.
MFP takes PA / 2^SH to nearest with ties away from zero under RND = 1 and the floor under RND = 0; with SAT = 1 the
result is held to the signed range, SAT set exactly then; with SAT = 0 it is the low word; the accumulator stays. The
short MFP is SH = 31 with RND and SAT. (R200, R201) -/
def Obligations.AccumulatorsAndMfpAreExact : Prop :=
  (∀ (a b : BitVec 32) (acc : Int), -(2 ^ 71) ≤ acc → acc < 2 ^ 71 →
    (∀ (w : Who) (y : Arch) (u : Upset) (s : State) (z : Eff) (x g sh d h : Nat), ∃ z1 z2 z3,
      runOp w y u (.mtp x g sh false) s z = some (s, z1, none) ∧
        runOp w y u (.mtp x g sh true) s z = some (s, z2, none) ∧
      runOp w y u (.alu .mullo .mullo d (.reg g) (.reg h)) s z = some (s, z3, none) ∧
      (z1.x.accOf x - s32 (y.getReg g) * 2 ^ sh) % 2 ^ 72 = 0 ∧ -(2 ^ 71) ≤ z1.x.accOf x ∧ z1.x.accOf x < 2 ^ 71 ∧
      z2.x.accOf x = 0 ∧ z3.x.acc = z.x.acc) ∧
    multiply 0 acc a.toNat b.toNat = a.toInt * b.toInt ∧ multiply 3 acc a.toNat b.toNat = a.toNat * b.toNat ∧
    (∀ (k : Nat) (x : Int), (k, x) ∈ [(1, acc + a.toInt * b.toInt), (2, acc - a.toInt * b.toInt),
        (4, acc + a.toNat * b.toNat)] →
      -(2 ^ 71) ≤ multiply k acc a.toNat b.toNat ∧ multiply k acc a.toNat b.toNat < 2 ^ 71 ∧
      (multiply k acc a.toNat b.toNat - x) % 2 ^ 72 = 0) ∧
    BitVec.ofNat 32 (alu .mullo a.toNat b.toNat).1 = a * b ∧
    (∀ n : Nat, n < 256 → acc = n * 2 ^ 62 → a.toInt * b.toInt = 2 ^ 62 →
      multiply 1 acc a.toNat b.toNat = (n + 1) * 2 ^ 62)) ∧
  (∀ (acc : Int) (sh : Nat) (sat : Bool),
    let val := fun (r : Nat × Bool) => (BitVec.ofNat 32 r.1).toInt
    let held := fun (x : Int) => max (-(2 ^ 31)) (min (2 ^ 31 - 1) x)
    ∃ x y : Int,
      (2 * (x * 2 ^ sh - acc).natAbs ≤ 2 ^ sh ∧
        (2 * (x * 2 ^ sh - acc).natAbs = 2 ^ sh → acc.natAbs < (x * 2 ^ sh).natAbs)) ∧
      (y * 2 ^ sh ≤ acc ∧ acc < (y + 1) * 2 ^ sh) ∧
      (∀ (rnd : Bool) (v : Int), (rnd, v) ∈ [(true, x), (false, y)] →
        (sat = true → val (moveFrom acc sh rnd sat) = held v ∧ ((moveFrom acc sh rnd sat).2 = true ↔ v ≠ held v)) ∧
        (sat = false → (val (moveFrom acc sh rnd sat) - v) % 2 ^ 32 = 0 ∧ (moveFrom acc sh rnd sat).2 = false))) ∧
  (∀ (w : Who) (y : Arch) (u : Upset) (s : State) (z : Eff) (d x sh : Nat) (r t : Bool), ∃ z1,
    runOp w y u (.mfp d x sh r t) s z = some (s, z1, none) ∧ z1.x.acc = z.x.acc) ∧
  (∀ d x, d < 16 → x < 4 → decodeShort (0x17 * 2 ^ 10 + d * 2 ^ 6 + x) = some (.mfp d x 31 true true))

/-- Decoding the long word of an operation gives that operation alone, and every word with bit 31 clear that decodes is
the word of what it decodes to; the same holds of the 15-bit short words. So no field of an encoding is dropped and no
two words spell one operation. The word of two short operations that pair legally decodes to both in program order;
with an illegal pair it decodes to the illegal bundle. (R187, R188, R189, R190, R207, R208) -/
def Obligations.EngineWordsRoundTrip : Prop :=
  (∀ o w, encodeLong o = some w → w < 2 ^ 31 ∧ decodeBundle w = .ops [o]) ∧
  (∀ o w, w < 2 ^ 31 → decodeBundle w = .ops [o] → encodeLong o = some w) ∧
  (∀ o h, encodeShort o = some h → h < 2 ^ 15 ∧ decodeShort h = some o) ∧
  (∀ o h, h < 2 ^ 15 → decodeShort h = some o → encodeShort o = some h) ∧
  (∀ x y a b, encodeShort x = some a → encodeShort y = some b →
    pairWord a b < 2 ^ 32 ∧ decodeBundle (pairWord a b) = (if legalPair 0 x y then .ops [x, y] else .illegal) ∧
    decodeBundle (pairWord a b + 1) = .illegal)

/-- The words of the worked example of chapter 8, the long and the paired NOP, and one word of each long format and of
each group of short operations, written out field by field from R188, R189, R207 and R208, decode to their operations;
an undefined OP, a nonzero unused field and an undefined slot of an illegal pair are undefined; a pair whose slot B
reads what slot A writes is illegal. (R187, R188, R189, R190, R207, R208) -/
def Obligations.EngineWordsOfTheSpec : Prop :=
  decodeBundle 0x00000000 = .ops [.nop] ∧ decodeBundle 0x80000000 = .ops [.nop, .nop] ∧
  decodeBundle (1 * 2 ^ 25 + 3 * 2 ^ 21 + 4 * 2 ^ 17 + 5 * 2 ^ 13 + 0x03) = .ops [.alu .subs .subs 3 (.reg 4)
    (.reg 5)] ∧
  decodeBundle (2 * 2 ^ 25 + 1 * 2 ^ 21 + 2 * 2 ^ 17 + 0x1FFFF) = .ops [.alu .addi .add 1 (.reg 2) (.imm 0xFFFFFFFF)] ∧
  decodeBundle (0x08 * 2 ^ 25 + 7 * 2 ^ 21 + 0x12345) = .ops [.alu .movl .mov 7 (.imm 0x12345) (.imm 0)] ∧
  decodeBundle (0x10 * 2 ^ 25 + 2 * 2 ^ 21 + 14 * 2 ^ 17 + 8) = .ops [.load .word 2 14 8 0] ∧
  decodeBundle (0x17 * 2 ^ 25 + 2 * 2 ^ 21 + 14 * 2 ^ 17 + 0x1FFFC) = .ops [.store .byte 2 14 (-4) 0] ∧
  decodeBundle (0x20 * 2 ^ 25 + 2 * 2 ^ 21 + 0x1FFFFF) = .ops [.br 2 (-1)] ∧
  decodeBundle (0x22 * 2 ^ 25 + 16) = .ops [.callw 16] ∧ decodeBundle (0x28 * 2 ^ 25 + 15) = .ops [.rep false 16] ∧
  decodeBundle (0x31 * 2 ^ 25 + 6 * 2 ^ 17 + 3) = .ops [.mts 3 6] ∧
  decodeBundle (0x38 * 2 ^ 25 + 4 + 64 * 9) = .ops [.trap 9] ∧
    decodeBundle (0x38 * 2 ^ 25 + 7 + 5 * 2 ^ 17) = .ops [.savectx 5] ∧
  decodeBundle (2 ^ 31 + (0x02 * 2 ^ 10 + 1 * 2 ^ 6 + 2 * 4 + 1) * 2 ^ 16 + (0x11 * 2 ^ 10 + 1 * 2 ^ 6 + 3 * 4 + 2) * 2) = .illegal ∧
  decodeBundle (2 ^ 31 + (0x11 * 2 ^ 10 + 1 * 2 ^ 6 + 3 * 4 + 2) * 2 ^ 16 + (0x02 * 2 ^ 10 + 1 * 2 ^ 6 + 2 * 4 + 1) * 2) =
    .ops [.store .word 1 3 0 (-4), .alu .adds .adds 1 (.reg 1) (.reg 2)] ∧
  decodeBundle 0xD4DC0BB0 = .ops [.mul 1 0 3 7, .alu .mov .mov 7 (.reg 6) (.imm 0)] ∧
  decodeBundle 0x33400378 = .ops [.mfp 10 0 30 true true] ∧
  decodeBundle (0x0B * 2 ^ 25) = .undef ∧ decodeBundle 1 = .undef ∧
  decodeBundle (2 ^ 31 + (0x1F * 2 ^ 10) * 2 ^ 16 + 1) = .undef

/-- For a single engine inside REP or REPI that issues the repeated bundle of one register operation with RPC = k at
least 2, the command leaves the program counter on the bundle, RPC = k - 1 and the repeat going; with RPC = 1 it moves
to the next bundle with RPC 0 and no repeat. The destination has the operation's result either way. Within REP, and
before the first repetition of REPI, no interrupt is taken. (R205, R206) -/
def Obligations.RepeatedBundleRunsItsCount : Prop :=
  ∀ (s : State) (e : Fin 128) (u : Upset) (row : Row) (f : AluOp) (d : Nat) (p q : Src),
    let y := (engOf s e).arch
    (y.rkind = 1 ∨ y.rkind = 2 ∨ y.rkind = 3) → Issues s e [.alu row f d p q] →
    (Runs (rowCommand row e u) s fun t =>
      let z := (engOf t e).arch
      z.getAt (y.place d) = (alu f (y.src p) (y.src q)).1 % 2 ^ 32 ∧ t.mem = s.mem ∧ KeepsEngines e s t ∧
      (2 ≤ y.rpc → z.pc = y.pc ∧ z.rpc = y.rpc - 1 ∧ z.rkind = (if y.rkind = 1 then 1 else 2)) ∧
      (y.rpc = 1 → z.pc = y.pc + 4 ∧ z.rpc = 0 ∧ z.rkind = 0)) ∧
    (y.rkind ≠ 2 → takeInterrupt (whoOf s e) s = none)

/-- A refused BD_CMD shows the number of the first failing check and changes nothing else. FORM, a RELEASE of a spare
and JOIN act by their named operations; SPLIT, HANDOVER and a RELEASE of a running binding wait for their boundary with
BUSY = 1 and change no other register; CLRCNT zeroes BD_BCNT. A BD_CFG write changes BD_CFG alone, and keeps a half that
holds a member or a spare and sets WREF. A BD_EVQ read removes the oldest event. Region, level and signal writes by a
master that R221 allows act on the engine they name. Commands shown to complete: BD_RGN_WRITE, BD_ECTL_WRITE,
BD_SIG_WRITE, FORM, SPLIT, JOIN, HANDOVER, RELEASE, BD_CLRCNT, BD_EVQ_READ, BD_CFG_WRITE. (R221, R235, R236, R244, R245,
R264, R265, R266, R267, R269, R274) -/
def Obligations.BindingCommandsRun : Prop :=
  ∀ (s : State) (m : Master) (q : Fin 16) (b i arg : Fin 8) (e : Fin 128) (r : Fin 16) (x : Fin 2) (v : BitVec 32),
    let st := Reg.BD_CMDST q
    let sel := fun (o : Nat) => setFld st Fld.BD_CMDST_RESULT o s
    let ctl := fun (a : Nat) => CanWrite s m a ∧ ectlAllows m a = true
    (∀ (c : Instr) (op j y : Nat), (c, op, j, y) ∈ [(.form m q b, 1, 0, 0), (.split m q b, 2, 0, 0),
        (.join m q b i, 3, i.val, 0), (.handover m q b arg, 4, 0, arg.val), (.release m q b, 5, 0, 0),
        (.bdClrcnt m q b, 6, 0, 0)] → CanWrite s m (Reg.BD_CMD q) →
      (bdCheck s q op b j y ≠ 0 → Runs c s fun t =>
        fld t st Fld.BD_CMDST_RESULT = bdCheck s q op b j y ∧ OnlyRegs [st] s t) ∧
      (bdCheck s q op b j y = 0 → Runs c s fun t =>
        (op = 1 → t = bindForm q b (sel 0)) ∧
        (op = 6 → rd t (Reg.BD_BCNT q b) = 0 ∧ OnlyRegs [st, Reg.BD_BCNT q b] s t) ∧
        (op = 5 → bindState s q b = 1 → t = bindRelease q b (sel 0)) ∧
        (op = 2 ∨ op = 4 ∨ (op = 5 ∧ bindState s q b ≠ 1) →
          (bindOf t q b).cmd = op ∧ (bindOf t q b).arg = y ∧ flag t st Fld.BD_CMDST_BUSY = true ∧ KeepsRegs [st] s t ∧
          t.mem = s.mem) ∧
        (op = 3 → t = bindJoin q b i (setFlag st Fld.BD_CMDST_BUSY true
          (updBind q b (fun z => { z with cmd := 3, arg := i }) (sel 0)))))) ∧
    (CanWrite s m (Reg.BD_CFG q) → Runs (.bdCfgWrite m q v) s fun t => OnlyRegs [Reg.BD_CFG q] s t ∧
      ∀ h : Fin 2, bitAt v.toNat h ≠ bitAt (rd s (Reg.BD_CFG q)) h →
        (∃ j, j < 4 ∧ (bound s q (4 * h + j) = true ∨ reserved s q (4 * h + j) = true)) →
        bitAt (rd t (Reg.BD_CFG q)) h = bitAt (rd s (Reg.BD_CFG q)) h ∧
        flag t (Reg.BD_CFG q) Fld.BD_CFG_WREF = true) ∧
    (∀ w rest, CanRead s m (Reg.BD_EVQ q) → (tget (fun _ => EventQueue.init) s.evqs q).entries = w :: rest →
      Runs (.bdEvqRead m q) s fun t => (tget (fun _ => EventQueue.init) t.evqs q) = { entries := rest, drop := 0 } ∧
        KeepsRegs [Reg.BD_EVQ q] s t ∧ t.mem = s.mem) ∧
    (∀ a, a = (if x = 0 then Reg.BD_RGN_BASE (e / 8) (e % 8) r else Reg.BD_RGN_ATTR (e / 8) (e % 8) r) → ctl a →
      Runs (.bdRgnWrite m e r x v) s fun t => t = plainWrite a v.toNat s) ∧
    (ctl (Reg.BD_ECTL (e / 8) (e % 8)) → Runs (.bdEctlWrite m e v) s fun t => t.mem = s.mem ∧
      ∀ k, k ∈ sharers s e → (engOf t k).arch.ipl = v.toNat % 4) ∧
    (ctl (Reg.BD_SIG (e / 8) (e % 8)) → Runs (.bdSigWrite m e v) s fun t =>
      (∀ c, m = .foreman c → isFollower s (e / 8) (e % 8) = false → v.toNat % 2 = 1 →
        t = setLineOf (e / 8) (e % 8) 23 s) ∧ (v.toNat % 2 = 0 → t = s))

/-- At a commit boundary the pending work takes place by the named operation. Equal records of a pair commit: where they
make no write, no refused access and no stop and no retry runs, each member's committed state becomes that of the
record, the count of committed bundles grows by one, and memory stays. Pass 1 of a copy is noted and changes no
register; pass 2 acts by the named operation. An alarm marks its unit failed. A parity error and a freed unit act by
their named operations. Commands shown to complete: COMMIT_BOUNDARY, RECORD_COMPARE, STATE_COPY_PASS1_DONE,
CHECKER_ALARM, REPLAY_PARITY_ERROR, CHECKER_UNIT_FREED, PASS2_COMPLETE. (R253, R259, R260, R261, R262, R263) -/
def Obligations.BindingEventsRun : Prop :=
  ∀ (s : State) (q : Fin 16) (b u : Fin 6) (cmp : Comparing) (both : Bool),
    let ms := slotMembers s q b
    let y := bindOf s q b
    (alive s = true → atBoundary s q b = true → Runs (.commitBoundary q b) s fun t => t = boundaryAct q b s) ∧
    (∀ (i j : Nat) (r : Rec), alive s = true → mayCommit s q b = true → ms = [i, j] →
      (engOf s (eng q i)).buf.head? = some r → (engOf s (eng q j)).buf.head? = some r →
      Runs (.recordCompare q b false false false cmp) s fun t => t = commitRecord q b ms false r cmp.u s ∧
        (r.ops = [] → r.refused = [] → r.stop = 0 → y.retryTo = 0 → (bindOf t q b).done = y.done + 1 ∧
          (engOf t (eng q i)).base = r.post ∧ (engOf t (eng q j)).base = r.post ∧ t.mem = s.mem)) ∧
    (alive s = true → y.copyTo ≠ 0 → y.pass1 = false → Runs (.stateCopyPass1Done q b) s fun t =>
      (bindOf t q b).pass1 = true ∧ t.regs = s.regs ∧ t.mem = s.mem) ∧
    (alive s = true → y.copyTo ≠ 0 → y.pass1 = true → y.hold = true → Runs (.pass2Complete q b) s fun t =>
      t = pass2Done q b s) ∧
    (alive s = true → Runs (.checkerAlarm q u) s fun t => t = checkerAlarm q u s ∧
      ((∀ c, c < 6 → slotFormed s q c = false) → bitAt (rd t (Reg.BD_CK q)) (8 + u) = true ∧
        OnlyRegs [Reg.BD_CK q] s t)) ∧
    (alive s = true → slotFormed s q b = true → (unitOf s q b).isSome = true → inputsHeld s q b = true →
      Runs (.replayParityError q b both) s fun t =>
        t = if both = true ∧ y.log ≠ [] then bindOut q b s else moveCheck q b s) ∧
    (alive s = true → bindState s q b = 5 → y.cmd = 0 → y.copyTo = 0 → Runs (.checkerUnitFreed q b) s fun t =>
      t = reformBinding q b s)

/-- Where the oldest records of a pair differ in any field, or a fault has altered one of them, the comparison leaves
memory and the count of committed bundles as they were: the pair retries, or after a second difference a spare takes
over or the binding is out. Of three records the one committed is one that two unaltered members hold; where none is,
or where one of three differs in a retry, memory and the count stay. Where the third member has still to retire the
bundle, the first two commit only a record that both hold and never in a retry; a third record that differs from what
the other two have committed changes neither memory nor the count. (R251, R252, R253, R254, R255, R256, R258) -/
def Obligations.ADifferenceNeverCommits : Prop :=
  ∀ (s : State) (q : Fin 16) (b : Fin 6) (d : Nat → Bool) (kind : Nat) (u : Upset) (x y z : Vote),
    let ms := slotMembers s q b
    let t := compareRecords q b d kind u s
    let kept := t.mem = s.mem ∧ (bindOf t q b).done = (bindOf s q b).done
    let two := voteAt s q b d 0 = some x ∧ voteAt s q b d 1 = some y
    let held := ms.length = 3 ∧ (bindOf s q b).past = [] ∧ two
    let three := held ∧ voteAt s q b d 2 = some z
    (ms.length = 2 → two → x.same y = false →
      kept ∧ (bindState t q b = 3 ∨ bindState t q b = 2 ∨ bindState t q b = 6)) ∧
    (three → x.same y = false → x.same z = false → y.same z = false → kept) ∧
    (three → (bindOf s q b).retryTo ≠ 0 → (x.same y && x.same z) = false → kept) ∧
    (three → (x.same y = true ∨ x.same z = true ∨ y.same z = true) →
      ((bindOf s q b).retryTo = 0 ∨ (x.same y && x.same z) = true) →
      ∃ (r : Rec) (s1 : State), t = commitRecord q b (slotMembers s1 q b) false r u s1 ∧ s1.mem = s.mem ∧
        2 ≤ ([x, y, z].filter fun v => !v.altered && v.record == r).length) ∧
    (held → voteAt s q b d 2 = none → t = s ∨ (x.same y = true ∧ (bindOf s q b).retryTo = 0 ∧
      t = commitRecord q b (ms.take 2) true x.record u s)) ∧
    (∀ r rest, ms.length = 3 → (bindOf s q b).past = r :: rest → voteAt s q b d 2 = some z →
      (z.altered || z.record != r) = true → kept)

/-- ZERO and CMP set their flags; CMP steps C by INT and shows it. LOAD waits for the next source tick and changes no
register. A capture records the live counter and the tick; one that finds the queue full stands until the tick ends
and is then dropped, and a second one on the tick does nothing. TM_CAPPOP removes the oldest entry into the holding
registers and clears DROP; a capture of the same tick is not in COUNT and enters after the read; where nothing else
waits only DROP is cleared. A write of TM_CMPSET_LO or TM_RLD_LO commits both words, after the match of its own tick.
A transition of a pin, or the due change of a pin that the device drives, changes R when R is free, and is merged
otherwise; R takes the synchronised level when its 4 ticks end, and a change of R that reverts before F took it is
rejected. F takes R at an accepted edge. A held level sets STUCK. An output toggles or starts a pulse, and a pulse
ends. A write clears TM_EVTCNT. That ZERO and CMP are commands of their own is the choice of log 83, and that each
quire sees the change of a driven pin under its own command is read from the rules by log 84. Commands shown to
complete: TIMER_ZERO, TIMER_COMPARE, TM_LOAD, TM_CAPTURE, TM_CAPPOP_READ, TM_CMPSET_COMMIT, TM_RLD_COMMIT,
EVT_PIN_TRANSITION, EVT_RESOLVE_WINDOW_END, EVT_ACCEPTED_EDGE, EVT_STUCK, EVT_OUTPUT_CHANGE, EVT_PULSE_END,
EVTCNT_CLEAR. (R276, R277, R278, R279, R281, R282, R283, R284, R285) -/
def Obligations.TimerCommandsRun : Prop :=
  ∀ (s : State) (m : Master) (q : Fin 16) (k : Fin 8) (x : Fin 32) (o : Fin 2) (w : BitVec 32) (l : Bool),
    let y := timerOf s q k
    let i := evtInOf s q x
    let z := evtOutOf s q o
    let st := Reg.TM_STAT q k
    let cnt := Reg.TM_EVTCNT q x
    let fresh := freshCapture s q k
    let old := y.queue.take (y.queue.length - fresh.length)
    let due := compareDue s q k = true
    let sent := i.coming = [] ∧ evtPin s (x / 2) (x % 2) = none ∨ ∃ c rest, i.coming = (c, l) :: rest ∧ c + 1 ≤ s.tb.ns
    let full := fun (t : State) (hi lo : Nat) => rd t hi * 2 ^ 32 + rd t lo
    (alive s = true → zeroDue s q k = true → Runs (.timerZero q k) s fun t => t = timerZero q k s ∧
      bitAt (rd t st) 0 = true ∧ (timerOf t q k).zeroTaken = true ∧ t.mem = s.mem) ∧
    (alive s = true → compareDue s q k = true → Runs (.timerCompare q k) s fun t => t = timerCompare q k s ∧
      bitAt (rd t st) 1 = true ∧ (timerOf t q k).c = stepCompare y.c (rd s (Reg.TM_INT q k)) y.rld ∧ t.mem = s.mem) ∧
    (CanWrite s m (Reg.TM_CMD q k) →
      (Runs (.tmLoad m q k) s fun t => (timerOf t q k).load = true ∧ t.regs = s.regs ∧ t.mem = s.mem) ∧
      Runs (.tmCapture m q k) s fun t =>
        (y.capAt = s.tb.ns + 1 → (timerOf t q k).queue = y.queue ∧ t.regs = s.regs) ∧
        (y.capAt ≠ s.tb.ns + 1 → y.queue.length < 4 → bitAt (rd t st) 2 = true ∧
          (timerOf t q k).queue = y.queue ++ [(counterNow s q k, s.tb.ns % 2 ^ 32)] ∧ (timerOf t q k).drop = y.drop) ∧
        (y.capAt ≠ s.tb.ns + 1 → 4 ≤ y.queue.length → t.regs = s.regs ∧ (timerOf t q k).queue = y.queue ∧
          (timerOf t q k).drop = y.drop ∧ (timerOf t q k).late = some (counterNow s q k, s.tb.ns % 2 ^ 32)) ∧
        t.mem = s.mem) ∧
    (y.late ≠ none → let t := dropLate q k s
      bitAt (rd t st) 3 = true ∧ (timerOf t q k).queue = y.queue ∧ (timerOf t q k).late = none ∧
      (timerOf t q k).drop = min 0xFFFF (y.drop + 1) ∧ t.mem = s.mem) ∧
    (CanRead s m (Reg.TM_CAPPOP q k) → Runs (.tmCappopRead m q k) s fun t => (timerOf t q k).drop = 0 ∧
      (∀ v e rest, old = (v, e) :: rest → v < 2 ^ 64 → e < 2 ^ 32 → y.drop < 2 ^ 16 → old.length ≤ 4 →
        (timerOf t q k).queue = rest ++ fresh ++ y.late.toList ∧ (timerOf t q k).late = none ∧
        rd t (Reg.TM_CAPPOP q k) = 2 ^ 31 + old.length * 2 ^ 16 + y.drop ∧
        full t (Reg.TM_CAPV_HI q k) (Reg.TM_CAPV_LO q k) = v ∧ rd t (Reg.TM_CAPE q k) = e ∧
        (y.late = none → KeepsRegs [Reg.TM_CAPPOP q k, Reg.TM_CAPV_LO q k, Reg.TM_CAPV_HI q k, Reg.TM_CAPE q k,
          st] s t)) ∧
      (old = [] → (timerOf t q k).queue = y.queue ∧ rd t (Reg.TM_CAPPOP q k) = y.drop ∧
        KeepsRegs [Reg.TM_CAPPOP q k] s t)) ∧
    (CanWrite s m (Reg.TM_CMPSET_LO q k) → y.cmpHi < 2 ^ 32 → Runs (.tmCmpsetCommit m q k w) s fun t =>
      (timerOf t q k).c = y.cmpHi * 2 ^ 32 + w.toNat ∧
      full t (Reg.TM_CMPCUR_HI q k) (Reg.TM_CMPCUR_LO q k) = y.cmpHi * 2 ^ 32 + w.toNat ∧
      full t (Reg.TM_CMPSET_HI q k) (Reg.TM_CMPSET_LO q k) = y.cmpHi * 2 ^ 32 + w.toNat ∧
      (due → bitAt (rd t st) 1 = true) ∧ (¬due →
        KeepsRegs [Reg.TM_CMPCUR_HI q k, Reg.TM_CMPCUR_LO q k, Reg.TM_CMPSET_HI q k, Reg.TM_CMPSET_LO q k] s t)) ∧
    (CanWrite s m (Reg.TM_RLD_LO q k) → y.rldHi < 2 ^ 32 → Runs (.tmRldCommit m q k w) s fun t =>
      (timerOf t q k).rld = y.rldHi * 2 ^ 32 + w.toNat ∧
      ((due → (timerOf t q k).c = stepCompare y.c (rd s (Reg.TM_INT q k)) y.rld ∧ bitAt (rd t st) 1 = true) ∧
        (¬due → (timerOf t q k).c = y.c ∧ KeepsRegs [Reg.TM_RLD_HI q k, Reg.TM_RLD_LO q k] s t)) ∧
      full t (Reg.TM_RLD_HI q k) (Reg.TM_RLD_LO q k) = y.rldHi * 2 ^ 32 + w.toNat) ∧
    (alive s = true → sent → i.sync ≠ l → Runs (.evtPinTransition q x l) s fun t => (evtInOf t q x).sync = l ∧
      (evtInOf t q x).f = i.f ∧
      (resolverFree s q x = false → (evtInOf t q x).r = i.r ∧ OnlyRegs [cnt] s { t with evtIns := s.evtIns } ∧
        fld t cnt Fld.TM_EVTCNT_MERGE = min (fld s cnt Fld.TM_EVTCNT_MERGE + 1) 65535) ∧
      (resolverFree s q x = true → (evtInOf t q x).r = l ∧ KeepsRegs [cnt] s t ∧
        fld t cnt Fld.TM_EVTCNT_MERGE = fld s cnt Fld.TM_EVTCNT_MERGE)) ∧
    (alive s = true → i.rAt ≠ 0 → resolverFree s q x = true → i.sync ≠ i.r → Runs (.evtResolveWindowEnd q x) s fun t =>
      (evtInOf t q x).r = i.sync ∧ fld t cnt Fld.TM_EVTCNT_REJ =
        (if i.r = i.f then fld s cnt Fld.TM_EVTCNT_REJ else min (fld s cnt Fld.TM_EVTCNT_REJ + 1) 65535) ∧
      KeepsRegs [cnt] s t) ∧
    (alive s = true → edgeDue s q x = true → Runs (.evtAcceptedEdge q x) s fun t => t = acceptEdge q x s ∧
      evtLevel t q x = i.r ∧ (evtInOf t q x).f = i.r ∧ t.mem = s.mem) ∧
    (alive s = true → evtStuckDue s q x = true → Runs (.evtStuck q x) s fun t =>
      flag t (Reg.TM_EVTST q x) Fld.TM_EVTST_STUCK = true ∧ (evtInOf t q x).f = i.f) ∧
    (alive s = true → outputDue s q o = true → Runs (.evtOutputChange q o) s fun t => t.regs = s.regs ∧ t.mem = s.mem ∧
      (fld s (Reg.TM_OUTCFG q o) Fld.TM_OUTCFG_ACT < 2 → (evtOutOf t q o).level = true ∧
        (evtOutOf t q o).pulseEnd = nthD s.tb.ns z.due 0 + max 1 (fld s (Reg.TM_OUTCFG q o) Fld.TM_OUTCFG_WIDTH) + 1) ∧
      (2 ≤ fld s (Reg.TM_OUTCFG q o) Fld.TM_OUTCFG_ACT → (evtOutOf t q o).level = !z.level)) ∧
    (alive s = true → z.pulseEnd ≠ 0 → z.pulseEnd ≤ s.tb.ns + 1 → Runs (.evtPulseEnd q o) s fun t =>
      (evtOutOf t q o).level = false ∧ t.regs = s.regs ∧ t.mem = s.mem) ∧
    (CanWrite s m cnt → Runs (.evtcntClear m q x) s fun t => rd t cnt = 0 ∧ OnlyRegs [cnt] s t)

/-- A periodic counter that starts in 0 to RLD stays there, counts on from any of its own values, and is back after RLD
+ 1 source ticks. A compare value in 0 to RLD stays there when it steps, and the counter that equals it equals the
stepped one INT source ticks later, whatever INT is; with INT = 0 it does not move. A one-shot counter ends at 0 and
stays. (R276, R277) -/
def Obligations.CompareStepsKeepTheirDistance : Prop :=
  ∀ rld v n k : Nat, v ≤ rld →
    countDown false rld v n ≤ rld ∧ countDown false rld v (n + k) = countDown false rld (countDown false rld v n) k ∧
    countDown false rld v (rld + 1) = v ∧ (∀ j, 0 < j → j ≤ rld → countDown false rld v j ≠ v) ∧
    stepCompare v n rld ≤ rld ∧ countDown false rld v n = stepCompare v n rld ∧ stepCompare v 0 rld = v ∧
    (v ≤ n → countDown true rld v n = 0)

/-- A sample that is taken while recording is not frozen adds 1 to bin floor((v − BASE) / 2^SHIFT), limited to 0–63,
saturating, and leaves every other bin of every channel. Strictly below the minimum it replaces it with the stamps of
R19, strictly above the maximum likewise; otherwise the extreme and its stamp stay. After XTCLR every minimum reads
0x7FFFFFFF and every maximum 0x80000000, with zero stamps. The sample acts where no work of the recorder waits and no
memory is held, and the words that it reads read good; work that waits, and the words it writes 64 bits at a time, are
as log 213 reads the rules. (R287, R288) -/
def Obligations.SamplesCountOnceAndKeepExtremes : Prop :=
  ∀ (s : State) (m : Master) (c : Fin 128) (w : BitVec 32),
    let word := fun (t : State) (a : Nat) => memValue t a 4
    let block := fun (t : State) (a : Nat) => (word t a, word t (a + 4), word t (a + 8), word t (a + 12))
    erFrozen s = false → s.er.todo = [] → s.ras.op = .none →
    (∀ v : Int, alive s = true → recorderDue s c = true →
      (∀ a ∈ [histAddr c (binOf v (sx 32 (rd s (Reg.ER_BASE c))) (fld s (Reg.ER_CH c) Fld.ER_CH_SHIFT)), minAddr c,
        minAddr c + 8, maxAddr c, maxAddr c + 8], erGood s a = true) →
      sourceValue s (fld s (Reg.ER_CH c) Fld.ER_CH_SRC) (fld s (Reg.ER_CH c) Fld.ER_CH_IDX) w.toInt = some v →
      -(2 ^ 31) ≤ v → v < 2 ^ 31 →
      Runs (.recorderSample c w) s fun t =>
        let b := binOf v (sx 32 (rd s (Reg.ER_BASE c))) (fld s (Reg.ER_CH c) Fld.ER_CH_SHIFT)
        let new := (pat 32 v, s.tb.pcc % 2 ^ 32, s.tb.hrs % 2 ^ 32, s.tb.hrs / 2 ^ 32 % 2 ^ 32)
        b ≤ 63 ∧ word t (histAddr c b) = min 0xFFFFFFFF (word s (histAddr c b) + 1) ∧
        (∀ d k : Nat, d < 128 → k < 64 → ¬(d = c ∧ k = b) → word t (histAddr d k) = word s (histAddr d k)) ∧
        (block t (minAddr c) = if v < sx 32 (word s (minAddr c)) then new else block s (minAddr c)) ∧
        (block t (maxAddr c) = if sx 32 (word s (maxAddr c)) < v then new else block s (maxAddr c)) ∧
        (∀ d : Nat, d < 128 → d ≠ c → block t (minAddr d) = block s (minAddr d) ∧
          block t (maxAddr d) = block s (maxAddr d))) ∧
    (CanWrite s m Reg.ER_CMD → flag s Reg.ER_STAT Fld.ER_STAT_BUSY = false → Runs (.erXtclr m) s fun t =>
      (∀ d : Nat, d < 128 → block t (minAddr d) = (0x7FFFFFFF, 0, 0, 0) ∧ block t (maxAddr d) = (0x80000000, 0, 0, 0)) ∧
      t.regs = s.regs)

/-- ER_CMD while BUSY does nothing. COMMIT takes the set and freezes recording, and the place it will go to holds no set
from then on, or at shed level 3 and above waits with NVSKIP set; HCLR zeroes every bin and keeps every byte outside
the histograms, and while some of its memory is held or earlier work waits, it waits behind that work; LCLR zeroes
NEXT and CLRCNT the counts of drops and misses. A frozen sample counts as missed and changes no byte of memory. A due
automatic commit starts or waits. The end of a commit lets recording go on; where the sectors of its place have taken
the set, it is the newest of at most 8 and ER_CSEQ shows its sequence number. HCLR and XTCLR do nothing while
recording is frozen (log 85); the oldest place is given up when a commit begins (log 86); waiting work keeps its
order, and a commit takes its copy before it can end (log 213). Commands shown to complete: RECORDER_SAMPLE,
ER_COMMIT, ER_HCLR, ER_XTCLR, ER_LCLR, ER_CLRCNT, RECORDER_AUTO_COMMIT, RECORDER_COMMIT_DONE. (R289, R290, R291, R293,
R295) -/
def Obligations.RecorderCommandsRun : Prop :=
  ∀ (s : State) (m : Master) (c : Fin 128) (w : BitVec 32),
    let busy := flag s Reg.ER_STAT Fld.ER_STAT_BUSY
    let starts := fun (t : State) => (t.er.commit.map (·.seq)) = some ((rd s Reg.ER_CSEQ + 1) % 2 ^ 32) ∧
      erFrozen t = true ∧ t.er.sets = s.er.sets.filter (·.place != oldestPlace s) ∧
      ((s.er.todo ≠ [] ∨ s.ras.flips = [] ∧ s.ras.upset = []) →
        flag t Reg.ER_STAT Fld.ER_STAT_BUSY = true ∧ KeepsRegs [Reg.ER_STAT] s t ∧ t.mem = s.mem)
    let waits := fun (t : State) => t.er.waiting = true ∧ t.er.commit = s.er.commit ∧
      flag t Reg.ER_STAT Fld.ER_STAT_NVSKIP = true ∧ KeepsRegs [Reg.ER_STAT] s t ∧ t.mem = s.mem
    (CanWrite s m Reg.ER_CMD →
      (busy = true → ∀ i : Instr, i ∈ [Instr.erCommit m, .erHclr m, .erXtclr m, .erLclr m, .erClrcnt m] →
        Runs i s fun t => t = s) ∧
      (busy = false →
        (Runs (.erCommit m) s fun t => (shed s < 3 → starts t) ∧ (3 ≤ shed s → waits t)) ∧
        (erFrozen s = false → Runs (.erHclr m) s fun t => t.regs = s.regs ∧
          (s.er.todo = [] → rangeHeld s 0x50000000 0x8000 = false →
            ∀ a, memByte t a = if 0x50000000 ≤ a ∧ a < 0x50008000 then 0 else memByte s a) ∧
          ((s.er.todo ≠ [] ∨ rangeHeld s 0x50000000 0x8000 = true) →
            t.er.todo = s.er.todo ++ [.clearHist] ∧ t.mem = s.mem)) ∧
        (erFrozen s = true → ∀ i : Instr, i ∈ [Instr.erHclr m, .erXtclr m] → Runs i s fun t => t = s) ∧
        (Runs (.erLclr m) s fun t => fld t Reg.ER_LOG Fld.ER_LOG_NEXT = 0 ∧
          fld t Reg.ER_LOG Fld.ER_LOG_XDROP = fld s Reg.ER_LOG Fld.ER_LOG_XDROP ∧ OnlyRegs [Reg.ER_LOG] s t) ∧
        Runs (.erClrcnt m) s fun t => fld t Reg.ER_LOG Fld.ER_LOG_XDROP = 0 ∧ rd t Reg.ER_FRZMISS = 0 ∧
          fld t Reg.ER_LOG Fld.ER_LOG_NEXT = fld s Reg.ER_LOG Fld.ER_LOG_NEXT ∧
          OnlyRegs [Reg.ER_LOG, Reg.ER_FRZMISS] s t)) ∧
    (alive s = true → recorderDue s c = true → erFrozen s = true → Runs (.recorderSample c w) s fun t =>
      t.mem = s.mem ∧ KeepsRegs [Reg.ER_FRZMISS] s t ∧
      ((sourceValue s (fld s (Reg.ER_CH c) Fld.ER_CH_SRC) (fld s (Reg.ER_CH c) Fld.ER_CH_IDX) w.toInt).isSome = true →
        fld t Reg.ER_FRZMISS Fld.ER_FRZMISS_SAMP = min (fld s Reg.ER_FRZMISS Fld.ER_FRZMISS_SAMP + 1) 65535)) ∧
    (alive s = true → autoCommitDue s = true → foremanServes s = true → Runs .recorderAutoCommit s fun t =>
      (shed s < 3 → starts t) ∧ (3 ≤ shed s → waits t) ∧ t.er.autoAt = s.tb.ns) ∧
    (∀ x, alive s = true → s.er.commit = some x → s.er.todo = [] → nvClosed s = false →
      Runs .recorderCommitDone s fun t =>
      t.er.commit = none ∧ flag t Reg.ER_STAT Fld.ER_STAT_BUSY = false ∧ t.mem = s.mem ∧
      (∀ u, writeSlot (placeSector x.place) (setSectors x) (s |> updEr (fun r => { r with commit := none })
          |> setFlag Reg.ER_STAT Fld.ER_STAT_BUSY false) = some u →
        t.nv = u.nv ∧ t.er.sets = (x :: s.er.sets).take 8 ∧ rd t Reg.ER_CSEQ = x.seq % 2 ^ 32 ∧
        KeepsRegs [Reg.ER_CSEQ] u t))

/-- MR_RETIRE, MR_ROWADD and MR_BRST that fail a check show the first failing one and change nothing else. MR_RETIRE and
MR_BRST that pass set BUSY and hold their bank; MR_ROWADD counts one more soft entry and records it. PAGE_RETIRE_DONE
ends a RETIRE: the page is released with every byte as before, and recorded; BANK_RESET_DONE ends a BRST: one without
migration leaves every word of its bank unwritten with zero contents and clear granule marks, and every byte of the
other banks. A migration ends by the named operation, without a mark changed; what the hold kept waiting then goes on.
SCRUB_READ of a good word changes no byte and only MR_SCSTAT. MR_ELOG_READ removes the oldest entry. A bank is held
from acceptance to its DONE event, and what waited then goes on in a fixed order (log 93); a copy logs what it finds
(log 92). A SHUTDOWN with cause 4 records no entry (log 165). Commands shown to complete: SCRUB_READ, MR_RETIRE,
MR_ROWADD, MR_BRST, PAGE_RETIRE_DONE, BANK_RESET_DONE, MR_ELOG_READ. (R298, R300, R301, R302, R303, R304, R305, R306,
R307) -/
def Obligations.MemoryCommandsRun : Prop :=
  ∀ (s : State) (m : Master) (k : BitVec 8) (u : BitVec 10) (mig : Bool) (up : Upset),
    let st := Reg.MR_CMDST
    let b := Reg.MR_BSTAT k.toNat
    let held := fun (t : State) (op : RasOp) => t.ras.op = op ∧ flag t st Fld.MR_CMDST_BUSY = true ∧
      fld t st Fld.MR_CMDST_RESULT = 0 ∧ flag t b Fld.MR_BSTAT_HOLD = true ∧ KeepsRegs [st, b] s t ∧ t.mem = s.mem
    let freed := fun (t : State) (j : Nat) => t.ras.op = .none ∧ flag t st Fld.MR_CMDST_BUSY = false ∧
      flag t (Reg.MR_BSTAT j) Fld.MR_BSTAT_HOLD = false
    let inBank := fun (j a : Nat) => bankBase j ≤ a ∧ a < bankBase j + bankSize j
    (CanWrite s m Reg.MR_CMD →
      (∀ (c : Instr) (op unit : Nat) (g : Bool), (c, op, unit, g) ∈ [(.mrRetire m k u, 1, u.toNat, false),
          (.mrRowadd m k u, 2, u.toNat, false), (.mrBrst m k mig, 3, 0, mig)] →
        mrCheck s op k.toNat unit g ≠ 0 → Runs c s fun t =>
          fld t st Fld.MR_CMDST_RESULT = mrCheck s op k.toNat unit g ∧ OnlyRegs [st] s t) ∧
      (mrCheck s 1 k.toNat u.toNat false = 0 → Runs (.mrRetire m k u) s fun t => held t (.retire k.toNat u.toNat)) ∧
      (mrCheck s 3 k.toNat 0 mig = 0 → Runs (.mrBrst m k mig) s fun t =>
        held t (.brst k.toNat (if mig then some (rd s Reg.MR_MIGADDR) else none))) ∧
      (mrCheck s 2 k.toNat u.toNat false = 0 → Runs (.mrRowadd m k u) s fun t =>
        fld t b Fld.MR_BSTAT_PEND = min (fld s b Fld.MR_BSTAT_PEND + 1) 15 ∧
        t.ras.softRows = s.ras.softRows ++ [(k.toNat, u.toNat)] ∧
        t.ras.table = (if nvClosed s then s.ras.table else s.ras.table ++ [(true, k.toNat, u.toNat)]) ∧
        KeepsRegs [st, b, Reg.NV_WMAX, Reg.NV_WMIN] s t ∧ t.mem = s.mem)) ∧
    (∀ j p, alive s = true → j ≤ 168 → s.ras.op = .retire j p → Runs .pageRetireDone s fun t =>
      let v := retireDone j p s
      t = resume v ∧ freed v j ∧ v.mem = s.mem ∧
        v.ras.table = (if nvClosed s then s.ras.table else s.ras.table ++ [(false, j, p)])) ∧
    (∀ j, alive s = true → j ≤ 168 → s.ras.op = .brst j none → Runs .bankResetDone s fun t =>
      let v := bankResetDone j none s
      t = resume v ∧ freed v j ∧ (∀ a, memByte v a = if inBank j a then 0 else memByte s a) ∧
      (∀ a, inBank j a → wordWritten v j a = false) ∧ (∀ g, g ∈ granulesOf j → marked v g = false) ∧
      v.ras.softRows = s.ras.softRows.filter (·.1 ≠ j)) ∧
    (∀ j a, alive s = true → j ≤ 168 → s.ras.op = .brst j (some a) → Runs .bankResetDone s fun t =>
      let v := bankResetDone j (some a) s
      t = resume v ∧ freed v j ∧ ∀ g, g < 1168 → marked v g = marked s g) ∧
    (alive s = true → scrubDue s = true → Runs (.scrubRead up) s fun t => t = scrubRead up s ∧ t.mem = s.mem ∧
      (∀ a w j, up = .none → scrubTarget s = some (a, w) → bankOf a = some j → wordWritten s j a = true →
        wordUpset s a = 0 →
        KeepsRegs [Reg.MR_SCSTAT] s t ∧ t.ras.scrub = a + 8 ∧ t.ras.elog = s.ras.elog)) ∧
    (CanRead s m Reg.MR_ELOG → Runs (.mrElogRead m) s fun t => t.ras.elog = s.ras.elog.tail ∧ t.ras.elogDrop = 0 ∧
      KeepsRegs [Reg.MR_ELOG, Reg.MR_ELOGA] s t ∧ t.mem = s.mem ∧
      (∀ x rest, s.ras.elog = x :: rest → rd t Reg.MR_ELOGA = x.addr % 2 ^ 32 ∧
        rd t Reg.MR_ELOG = elogWord x s.ras.elogDrop % 2 ^ 32) ∧
      (s.ras.elog = [] → rd t Reg.MR_ELOGA = rd s Reg.MR_ELOGA ∧ flag t Reg.MR_ELOG Fld.MR_ELOG_VALID =
        bitAt s.ras.elogDrop 31))

/-- For every aligned write of 1, 2, 4 or 8 bytes by any master: it is aborted exactly when it is narrower than the word
and the word is written and reads uncorrectable, with what the arrays show then, and then no byte and no written flag
changes. Otherwise its bytes read back as written, the word is written and holds no error, the other bytes of the word
are kept, or 0 where the word was unwritten, and every other word keeps its bytes and its flag. A read keeps every
byte, and finds data unless the word is unwritten or holds two flipped bits. (R297, R298, R299, R300) -/
def Obligations.WritesMergeIntoTheirWord : Prop :=
  ∀ (s : State) (m k a n v size type : Nat) (scrub : Bool) (u : Upset), bankOf a = some k → n ∈ [1, 2, 4, 8] →
    a % n = 0 →
    let t := (storeWord m k a n v size u s).1
    let inWord := fun (x : Nat) => x / 8 = a / 8
    let flags := fun (p : Nat → Prop) (t : State) => ∀ x j, p x → bankOf x = some j →
      wordWritten t j x = wordWritten s j x
    ((storeWord m k a n v size u s).2 ≠ .good ↔ n ≠ 8 ∧ wordWritten s k a = true ∧
      2 ≤ wordUpset (strikeWord a u s).1 a) ∧
    ((storeWord m k a n v size u s).2 ≠ .good → KeepsMemory s t ∧ flags (fun _ => True) t) ∧
    ((storeWord m k a n v size u s).2 = .good →
      memValue t a n = v % 2 ^ (8 * n) ∧ wordWritten t k a = true ∧ wordUpset t a = 0 ∧
      (∀ x, ¬inWord x → memByte t x = memByte s x) ∧ flags (fun x => ¬inWord x) t ∧
      (∀ x, inWord x → ¬(a ≤ x ∧ x < a + n) →
        memByte t x = if wordWritten s k a then memByte s x else 0)) ∧
    (let r := touchWord m k a type size scrub u s
     KeepsMemory s r.1 ∧ flags (fun _ => True) r.1 ∧ (r.2 = .unwritten ↔ wordWritten s k a = false) ∧
     (r.2 = .good ↔ wordWritten s k a = true ∧ wordUpset (strikeWord a u s).1 a < 2))

/-- A refused NV_CMD shows the first failing check and changes nothing else. An accepted one whose source is held waits
with BUSY = 1; one whose source reads good sets BUSY with its data taken, and no sector changes before its end. The
end of an APPEND programs its codewords; a failed SECTOR or ERASE shows RESULT 6. A background erase leaves its sector
blank and counts it. Static levelling moves one logical sector. A window read of a codeword without flipped bits
changes no register and no sector; one with two is counted as corrected, one with three as uncorrectable. A refresh
adds 1 to REFRESH. A write clears NV_ECC. In a SHUTDOWN with cause 4 NV_CMD does nothing and none of the background
work ends (R401 as log 165 reads it). A command whose source does not read good is left to log 95, the fresh sector is
that of log 94, and the rows without an outcome operand end well (log 212). Commands shown to complete: NV_APPEND,
NV_SECTOR, NV_ERASE, NV_APPEND_DONE, NV_SECTOR_DONE, BACKGROUND_ERASE_DONE, STATIC_WEAR_LEVEL, NVM_WINDOW_READ,
NVM_REFRESH, NV_ECC_CLEAR. (R309, R310, R311, R313, R315) -/
def Obligations.NvmCommandsRun : Prop :=
  ∀ (s : State) (m : Master) (sect p : BitVec 11) (a : BitVec 32) (f : Fin 4) (ok : Bool),
    let st := Reg.NV_CMDST
    let sectors := fun (x : Nvm) => (x.cells, x.used, x.map, x.gone)
    let n := fun (op : Nat) => if op = 1 then 32 * (fld s Reg.NV_SPAN Fld.NV_SPAN_NM1 + 1) else if op = 2 then
      4096 else 0
    let closed := nvClosed s = true
    let sel := setFld st Fld.NV_CMDST_RESULT 0 s
    (CanWrite s m Reg.NV_CMD → ∀ (c : Instr) (op : Nat),
        (c, op) ∈ [(.nvAppend m sect, 1), (.nvSector m sect, 2), (.nvErase m sect, 3)] →
      (closed → Runs c s fun t => t = s) ∧ (¬closed → (nvCheck s op sect.toNat ≠ 0 → Runs c s fun t =>
        fld t st Fld.NV_CMDST_RESULT = nvCheck s op sect.toNat ∧ OnlyRegs [st] s t) ∧
      (nvCheck s op sect.toNat = 0 → sourceHeld s (n op) = true → Runs c s fun t =>
        flag t st Fld.NV_CMDST_BUSY = true ∧ KeepsRegs [st] s t ∧ t.mem = s.mem ∧
        t.nv = { s.nv with op := .fetch op sect.toNat (fld s Reg.NV_SPAN Fld.NV_SPAN_FIRST) (n op) }) ∧
      (∀ d s', nvCheck s op sect.toNat = 0 → sourceHeld s (n op) = false →
          (if op = 3 then (sel, some []) else nvSource (n op) sel) = (s', some d) → Runs c s fun t =>
        flag t st Fld.NV_CMDST_BUSY = true ∧ t.mem = s.mem ∧ t.nv.map = s.nv.map ∧
        (op = 1 → t.nv = { s.nv with op := .append sect.toNat (fld s Reg.NV_SPAN Fld.NV_SPAN_FIRST) d }) ∧
        (∀ x, op ≠ 1 → freshSector s = some (x, false) →
          t.nv = { s.nv with op := if op = 2 then .sector sect.toNat x d else .erase sect.toNat x })))) ∧
    (∀ l c d, alive s = true → s.nv.op = .append l c d → Runs (.nvAppendDone ok) s fun t =>
      t = nvEnd ok (programFrom (nvPhys s l) c d s) ∧ KeepsRegs [st] s t ∧ t.mem = s.mem ∧
      (∀ i, c ≤ i → i < c + ceilDiv d.length 32 → nvErased t l i = false)) ∧
    (∀ l x d, alive s = true → s.nv.op = .sector l x d ∨ (s.nv.op = .erase l x ∧ d = []) →
      Runs (.nvSectorDone ok) s fun t =>
      t = sectorDone l x d ok s ∧ t.nv.op = .none ∧ fld t st Fld.NV_CMDST_RESULT = (if ok then 0 else 6) ∧
        t.mem = s.mem) ∧
    (alive s = true → nvDirty s p.toNat = true → nvMapped s p.toNat = false → ¬closed →
      Runs (.backgroundEraseDone p ok) s fun t =>
      nvDirty t p.toNat = false ∧ t.nv.map = s.nv.map ∧
      (ok = true → nvWear t p.toNat = nvWear s p.toNat + 1 ∧ KeepsRegs [Reg.NV_WMAX, Reg.NV_WMIN] s t ∧
        ∀ o, o < 4096 → tget (fun _ => 255#8) t.nv.cells (p.toNat * 4096 + o) = 255#8) ∧
      (ok = false → nvGone t p.toNat = true ∧
        fld t Reg.NV_STAT Fld.NV_STAT_SPARES = fld s Reg.NV_STAT Fld.NV_STAT_SPARES - 1)) ∧
    (∀ l x, alive s = true → levelPair s = some (l, x) → ¬closed → Runs .staticWearLevel s fun t =>
      t = remap l x (copySector (nvPhys s l) x s) ∧ nvPhys t l = x ∧ nvDirty t (nvPhys s l) = true ∧ t.regs = s.regs) ∧
    (closed → ∀ i : Instr, i ∈ [Instr.backgroundEraseDone p ok, .staticWearLevel, .nvmRefresh sect] →
      Runs i s fun t => t = s) ∧
    (alive s = true → 0x60000000 ≤ a.toNat → a.toNat < 0x60800000 → a.toNat % 4 = 0 → mayReadNvm m = true →
      Runs (.nvmWindowRead m a f) s fun t => sectors t.nv = sectors s.nv ∧ t.mem = s.mem ∧
        (0x607C0000 ≤ a.toNat → t = s) ∧
        (a.toNat < 0x607C0000 →
          let q := (a.toNat - 0x60000000) / 4096
          let bad := min 3 (tget (fun _ => 0) s.nv.flips (nvCw s q (a.toNat % 4096 / 32)) + f.val)
          (bad < 2 → t.regs = s.regs) ∧
          (bad = 2 → tget (fun _ => false) t.nv.refresh q = true ∧ KeepsRegs [Reg.NV_ECC] s t ∧
            fld t Reg.NV_ECC ⟨31, 16⟩ = min (fld s Reg.NV_ECC ⟨31, 16⟩ + 1) 65535) ∧
          (bad = 3 → fld t Reg.NV_ECC ⟨15, 0⟩ = min (fld s Reg.NV_ECC ⟨15, 0⟩ + 1) 65535))) ∧
    (∀ x d, alive s = true → freshSector s = some (x, d) → tget (fun _ => false) s.nv.refresh sect.toNat = true →
      s.nv.op = .none → ¬closed → Runs (.nvmRefresh sect) s fun t => t = nvRefresh sect.toNat x d s ∧
        nvPhys t sect.toNat = x ∧
        fld t Reg.NV_STAT Fld.NV_STAT_REFRESH = min (fld s Reg.NV_STAT Fld.NV_STAT_REFRESH + 1) 65535) ∧
    (CanWrite s m Reg.NV_ECC → Runs (.nvEccClear m) s fun t => rd t Reg.NV_ECC = 0 ∧ OnlyRegs [Reg.NV_ECC] s t)

/-- Where the fresh physical sector is unmapped and blank, with nothing of what manufacture wrote to it left: a SECTOR
that ends well leaves exactly its 4 KiB in its logical sector, an ERASE leaves 0xFF, and every other logical sector
keeps its contents. One that fails, or that a reset or a loss of power cuts short, leaves the contents of every
logical sector as they were. (R308, R310, R313) -/
def Obligations.ASectorChangesWholeOrNotAtAll : Prop :=
  ∀ (s : State) (l x : Nat) (d : List Nat) (ok : Bool), alive s = true → nvMapped s x = false →
    factoryFresh s x = false →
    l < 1984 →
    (∀ o, o < 4096 → tget (fun _ => 255#8) s.nv.cells (x * 4096 + o) = 255#8) →
    (s.nv.op = .sector l x d ∧ d.length = 4096 ∧ (∀ y ∈ d, y < 256)) ∨ (s.nv.op = .erase l x ∧ d = []) →
    (Runs (.nvSectorDone ok) s fun t => ∀ j o, j < 1984 → o < 4096 →
      nvByte t j o = if ok = true ∧ j = l then (if d = [] then 255 else d.getD o 0) else nvByte s j o) ∧
    (∀ h j o, nvByte (heldIn h s) j o = nvByte s j o)

/-- A doorbell that is refused sets DBREF alone; one that is taken moves the session to REQ and sets its MB_FREQ bit;
while FBUSY = 1 it is answered at once, but for session 0 in BOOT; in FACTORY nothing happens. The Foreman's clear of
MB_FREQ moves REQ to EXEC, but against a doorbell on the same tick the bit stays, an ABORT in REQ goes before every
other session, and it waits while the window is held. A post moves EXEC to RESP, or to IDLE for MCTP, and completes
its SEQ; a late response is counted. The host's clear of MB_HRDY moves RESP to IDLE, but against a post on the same
tick the bit stays. An idle session goes to FREE, or lapses after the command in progress. MB_HWABORT while BUSY sets
REF alone; otherwise it acts on its target and shows BUSY; an index out of range stops nothing. Completion shows DONE
and RESULT. A stream period writes one 16-byte record for each quantity. A write clears MB_CNT. Held windows keep the
Foreman, the sequencer and an abort of a session waiting (log 93, and log 216 for BUSY); what completes a SEQ is log
99, the waiting post log 104, a late response log 105, the instant of a hardware abort log 106, the order of sessions
log 204, the stream log 114. Commands shown to complete: MB_DOORBELL, MB_FREQ_CLEAR, MB_FPOST, MB_HRDY_CLEAR,
TELEM_STREAM_RECORD, SESSION_IDLE_TIMEOUT, HWABORT_SESSION, HWABORT_SUPERVISION, HWABORT_ENGINE, HWABORT_BINDING,
HWABORT_STAGE_BUS, HWABORT_FOLIO, HWABORT_FOREMAN, HW_ABORT_COMPLETE, MB_CNT_CLEAR. (R321, R322, R323, R334, R336,
R338, R340, R341, R342) -/
def Obligations.MailboxCommandsRun : Prop :=
  ∀ (s : State) (m : Master) (v : Via) (x : Fin 16) (i arg : BitVec 8) (tj : List (BitVec 32)),
    let bit := BitVec.ofNat 16 (2 ^ x.val)
    let sess := Reg.MB_SESS x
    let hw := Reg.MB_HWASTAT
    let busy := flag s Reg.MB_HSTAT Fld.MB_HSTAT_FBUSY
    (viaUp s v = true →
      (mode s = 7 → Runs (.mbDoorbell v bit) s fun t => t = s) ∧
      (mode s ≠ 7 → doorbellRefused s x (viaCode v) = true → Runs (.mbDoorbell v bit) s fun t =>
        flag t Reg.MB_HSTAT Fld.MB_HSTAT_DBREF = true ∧ OnlyRegs [Reg.MB_HSTAT] s t) ∧
      (mode s ≠ 7 → doorbellRefused s x (viaCode v) = false → busy = false ∨ (mode s = 1 ∧ x.val = 0) →
        Runs (.mbDoorbell v bit) s fun t =>
        sessPhase t x = 1 ∧ bitAt (rd t Reg.MB_FREQ) x = true ∧ (sessOf t x).via = viaCode v ∧
        KeepsRegs [sess, Reg.MB_FREQ] s t ∧ t.mem = s.mem) ∧
      (mode s ≠ 7 → ¬(mode s = 1 ∧ x.val = 0) → doorbellRefused s x (viaCode v) = false → busy = true →
        Runs (.mbDoorbell v bit) s fun t => t = busyResponse x s ∧
          (windowsHeld s x = false → sessPhase t x = 3 ∧ bitAt (rd t Reg.MB_HRDY) x = true) ∧
          (windowsHeld s x = true → (sessOf t x).busyDue = true ∧ t.regs = s.regs ∧ t.mem = s.mem)) ∧
      (bitAt (raisedIn s Reg.MB_HRDY) x = true → Runs (.mbHrdyClear v bit) s fun t => t = s) ∧
      (bitAt (raisedIn s Reg.MB_HRDY) x = false → bitAt (rd s Reg.MB_HRDY) x = true →
        Runs (.mbHrdyClear v bit) s fun t =>
        bitAt (rd t Reg.MB_HRDY) x = false ∧ sessPhase t x = (if sessPhase s x = 3 then 0 else sessPhase s x) ∧
        KeepsRegs [Reg.MB_HRDY, sess] s t ∧ t.mem = s.mem) ∧
      (∀ (c : Instr) (n : Nat), (c, n) ∈ [(.hwabortSession v i arg, 1), (.hwabortSupervision v i arg, 2),
          (.hwabortEngine v i arg, 3), (.hwabortBinding v i arg, 4), (.hwabortStageBus v i arg, 5),
          (.hwabortFolio v i arg, 6), (.hwabortForeman v i arg, 7)] →
        let waits := n = 1 ∧ i.toNat < 16 ∧ windowsHeld s i.toNat = true
        (waits → Runs c s fun t => t = s) ∧
        (¬waits → flag s hw Fld.MB_HWASTAT_BUSY = true → Runs c s fun t =>
          flag t hw Fld.MB_HWASTAT_REF = true ∧ OnlyRegs [hw] s t) ∧
        (¬waits → flag s hw Fld.MB_HWASTAT_BUSY = false → Runs c s fun t => t = hwAbort n i.toNat arg.toNat s ∧
          flag t hw Fld.MB_HWASTAT_BUSY = true ∧ fld t hw Fld.MB_HWASTAT_TARGET = n ∧ t.host.abortTarget = n ∧
          t.host.abort = (hwAbortEffect n i.toNat arg.toNat s).2 ∧
          (abortIndexOk n i.toNat = false → t.host.abort = 3 ∧ KeepsRegs [hw] s t ∧ t.mem = s.mem)))) ∧
    (CanWrite s m Reg.MB_FREQ → takesAsked s x = true → sessPhase s x = 1 →
      let first := windowOp s x = 0x0F01 ∨ ∀ y : Fin 16, y ≠ x → ¬(sessPhase s y = 1 ∧ windowOp s y = 0x0F01)
      let takes := rangeHeld s (reqWindow x) 4096 = false ∧ bitAt (raisedIn s Reg.MB_FREQ) x = false ∧ first
      (¬takes → Runs (.mbFreqClear m bit) s fun t => t = s) ∧
      (takes → Runs (.mbFreqClear m bit) s fun t => t = takeAsked x s ∧ sessPhase t x = 2 ∧
        bitAt (rd t Reg.MB_FREQ) x = false ∧ (sessOf t x).req.isSome = true ∧ t.host.turn = (x.val + 1) % 16)) ∧
    (CanWrite s m Reg.MB_FPOST → canPost s x = true →
      ((sessOf s x).late = true → Runs (.mbFpost m x) s fun t => KeepsRegs [Reg.MB_CNT] s t ∧ t.mem = s.mem ∧
        fld t Reg.MB_CNT Fld.MB_CNT_LATEDROP = min (fld s Reg.MB_CNT Fld.MB_CNT_LATEDROP + 1) 65535) ∧
      (∀ r, (sessOf s x).late = false → sessPhase s x = 2 → (sessOf s x).ready = some r → Runs (.mbFpost m x) s fun t =>
        t = updateOrigin (postResponse x r s) ∧ (sessOf t x).ready = none ∧
        sessPhase t x = (if (sessOf s x).via < 4 then 3 else 0) ∧
        fld t sess Fld.MB_SESS_SEQ = (if r.done then r.seq % 65536 else fld s sess Fld.MB_SESS_SEQ) ∧
        ((sessOf s x).via < 4 → bitAt (rd t Reg.MB_HRDY) x = true) ∧
        ((sessOf s x).lapse = true → sessState t x = 0))) ∧
    (alive s = true → foremanServes s = true → idleOver s x = true → Runs (.sessionIdleTimeout x) s fun t =>
      if sessPhase s x = 1 ∨ sessPhase s x = 2 then (sessOf t x).lapse = true ∧ t.regs = s.regs
      else sessState t x = 0 ∧ KeepsRegs [sess] s t) ∧
    (alive s = true → flag s hw Fld.MB_HWASTAT_BUSY = true → s.host.abort < 16 → Runs .hwAbortComplete s fun t =>
      t = hwAbortDone s ∧ flag t hw Fld.MB_HWASTAT_BUSY = false ∧ flag t hw Fld.MB_HWASTAT_DONE = true ∧
      fld t hw Fld.MB_HWASTAT_RESULT = s.host.abort) ∧
    (alive s = true → foremanServes s = true → streamDue s = true → Runs (.telemStreamRecord tj) s fun t =>
      t = streamRecords tj s ∧ KeepsRegs [Reg.MB_STRWP] s t ∧ t.mem = s.mem ∧
      fld t Reg.MB_STRWP Fld.MB_STRWP_WP = (fld s Reg.MB_STRWP Fld.MB_STRWP_WP + 16 * s.host.stream.length) % 65536) ∧
    (CanWrite s m Reg.MB_CNT → Runs (.mbCntClear m) s fun t => rd t Reg.MB_CNT = 0 ∧ OnlyRegs [Reg.MB_CNT] s t)

/-- A payload of the wrong length gives ARG and changes nothing else, as does a request that names no rail. GET_STATUS and
RAIL_GET answer OK with their payloads, and SET_MODE, SESSION_OPEN, SESSION_CLOSE, GET_NONCE and ABORT act and answer
as their rules say. CLAIM_OWNER with an unprogrammed slot and no other owner makes the session OWNER. REC_READ above
4,000 bytes and a stream of a period that is no multiple of 16 us give ARG. FAULT_CLEAR empties the log. Every other
command leaves the named state. The answer is posted by MB_FPOST. The state of a session while it opens and closes is
log 101, the layouts the spec does not give log 108, the fragments of a claim log 110, rail commands in STANDBY and a
busy rail table log 112, SET_MODE in SHUTDOWN and FACTORY log 113, streams log 114, what DORMANT commits first log
165. Commands shown to complete: GET_INFO, GET_STATUS, SET_MODE, SESSION_OPEN, SESSION_CLOSE, GET_NONCE, CLAIM_OWNER,
SET_HOSTPOL, RAIL_GET, RAIL_SET, RAIL_ENABLE, RAIL_DISABLE, RAIL_CLEAR, RAIL_POLICY, PHASE_GET, PHASE_CMD, ENGINE_GET,
BINDING_CMD, TELEM_READ, TELEM_STREAM, REC_READ, REC_CMD, FAULT_LOG, FAULT_CLEAR, ATTEST, GET_CERT, ABORT. (R322,
R325, R326, R329, R330, R336, R337, R354, R355, R372) -/
def Obligations.LyheufCommandsRun : Prop :=
  ∀ (s : State) (x : Fin 16) (r : Request), (sessOf s x).req = some r →
    let p := r.payload
    let ans := fun (t : State) (st : Nat) (pl : List Nat) => (sessOf t x).ready =
      some { session := r.session, seq := r.seq, op := r.op, flags := 1, status := st, payload := pl,
             done := true, rail := 0 }
    let only := fun (t : State) => t.regs = s.regs ∧ t.mem = s.mem
    let on := fun (op : Nat) => serving s x op = true
    let free := tableFree s = true
    let idle := mode s = 2 → s.nv.op = .none
    (∀ (c : Instr) (op n : Nat), (c, op, n) ∈ [(.getStatus x, 0x0102, 0), (.setMode x, 0x0103, 4),
      (.railGet x, 0x0201, 4),
        (.railEnable x, 0x0203, 4), (.railDisable x, 0x0204, 4), (.railClear x, 0x0205, 4), (.faultLog x, 0x0801, 8),
        (.attest x, 0x0901, 36), (.getCert x, 0x0902, 4)] → on op → free → idle → p.length ≠ n →
      Runs c s fun t => ans t stARG [] ∧ only t) ∧
    (on 0x0101 → Runs (.getInfo x) s fun t => (∃ pl, ans t stOK pl) ∧ only t) ∧
    (on 0x0102 → p = [] → Runs (.getStatus x) s fun t => ans t stOK (statusPayload s) ∧ only t) ∧
    (on 0x0103 → idle → p.length = 4 → Runs (.setMode x) s fun t => t = setModeTo x p s ∧
      (p = [1, 0, 0, 0] → mode s = 2 → ans t stOK [] ∧ only t) ∧ (p = [2, 0, 0, 0] → mode s = 2 →
        mode t = (if commitFree s then 0 else 2) ∧
        (commitFree s = false → t.er.waiting = (s.er.waiting || decide (3 ≤ shed s)) ∧ t.er.commit = s.er.commit ∧
          (sessOf t x).ready = (sessOf s x).ready)) ∧
      (mode s = 6 ∨ mode s = 7 → p = [1, 0, 0, 0] ∨ p = [2, 0, 0, 0] → ans t stSTATE [] ∧ only t) ∧
      (nthD 0 p 0 = 0 ∨ 2 < nthD 0 p 0 → ans t stARG [] ∧ only t)) ∧
    (on 0x0110 → Runs (.sessionOpen x) s fun t =>
      (sessState s x = 0 → (sessOf s x).via < 8 → ans t stOK [] ∧ sessState t x = 1 ∧
        fld t (Reg.MB_SESS x) Fld.MB_SESS_XPORT = (sessOf s x).via ∧ KeepsRegs [Reg.MB_SESS x] s t) ∧
      (sessState s x ≠ 0 → ans t stSTATE [] ∧ only t)) ∧
    (on 0x0111 → Runs (.sessionClose x) s fun t => ans t stOK [] ∧ (sessOf t x).lapse = true ∧ only t) ∧
    (on 0x0112 → Runs (.getNonce x) s fun t => ans t stOK (sessOf t x).nonce ∧ (sessOf t x).nonce.length = 32 ∧
      (sessOf t x).nonceAt = s.tb.ns ∧ only t) ∧
    (on 0x0113 → Runs (.claimOwner x) s fun t => t = claimOwner x p s ∧
      (s.otp.owner = false → p = [0, 0, 0, 0] → (∀ y, y < 16 → y ≠ x.val → sessState s y ≠ 2) →
        ans t stOK [] ∧ sessState t x = 2 ∧ KeepsRegs [Reg.MB_SESS x] s t)) ∧
    (∀ pmbw haen, on 0x0114 → Runs (.setHostpol x pmbw haen) s fun t => (∃ pl, ans t stOK pl) ∧ t.mem = s.mem ∧
      flag t Reg.MB_SMBCFG Fld.MB_SMBCFG_PMBW = pmbw ∧ KeepsRegs [Reg.MB_SMBCFG, Reg.MB_HAEN] s t) ∧
    (on 0x0201 → p.length = 4 → Runs (.railGet x) s fun t => only t ∧ (railArg p = none → ans t stARG []) ∧
      (∀ j, railArg p = some j → ans t stOK ((List.range 64).flatMap (fun i => toBytes 4 (rd s (Reg.RT_CFG j + 4 * i))) ++
        toBytes 4 (rd s Reg.RT_CMDSTAT)))) ∧
    (free → (on 0x0202 → Runs (.railSet x) s fun t => t = railSet x p s ∧
      (railArg p = none → ans t stARG [] ∧ only t)) ∧
      (on 0x0203 → p.length = 4 → Runs (.railEnable x) s fun t => t = railAnswer x p hostEnable s) ∧
      (on 0x0204 → p.length = 4 → Runs (.railDisable x) s fun t => t = railAnswer x p hostDisable s) ∧
      (on 0x0205 → p.length = 4 → Runs (.railClear x) s fun t => t = railClear x p s) ∧
      (∀ (j : Fin 32) y, on 0x0206 → flag s (Reg.LU_CSEL (homeOf j) (slotOf j)) Fld.LU_CSEL_PEND = false →
        Runs (.railPolicy x j y) s fun t => t = railPolicy x j y s)) ∧
    (∀ n, on 0x0301 → Runs (.phaseGet x n) s fun t => (∃ pl, ans t stOK pl) ∧ only t) ∧
    (∀ (op : Fin 4) n, on 0x0302 → Runs (.phaseCmd x op n) s fun t => t = phaseCmd x (op + 1) n s) ∧
    (∀ e, on 0x0401 → Runs (.engineGet x e) s fun t => (∃ pl, ans t stOK pl) ∧ only t) ∧
    (∀ (q : Fin 16) (op b i arg : Fin 8), on 0x0402 → Runs (.bindingCmd x q op b i arg) s fun t =>
      t = bindingCmd x q op b i arg s) ∧
    (∀ qs tj, on 0x0601 → Runs (.telemRead x qs tj) s fun t => only t ∧ (quantitiesOk qs = true → ∃ pl, ans t stOK pl) ∧
      (quantitiesOk qs = false → ans t stARG [])) ∧
    (∀ qs us, on 0x0602 → Runs (.telemStream x qs us) s fun t => only t ∧
      (us.toNat % 16 ≠ 0 ∨ quantitiesOk qs = false → ans t stARG [] ∧ t.host = s.host) ∧
      (quantitiesOk qs = true → qs.length ≤ 64 → qs ≠ [] → us ≠ 0 → us.toNat % 16 = 0 → (∃ pl, ans t stOK pl) ∧
        t.host.streamNs = us.toNat * 1000 ∧ t.host.streamOwner = x.val ∧ t.host.stream.length = qs.length)) ∧
    (∀ o n, on 0x0701 → rangeHeld s (0x50000000 + o.toNat) n.toNat = false →
      Runs (.recRead x o n) s fun t => t = recRead x o.toNat n.toNat s ∧ t.mem = s.mem ∧
      (4000 < n.toNat → ans t stARG [] ∧ only t)) ∧
    (∀ op : Fin 8, on 0x0702 → Runs (.recCmd x op) s fun t => (∃ pl, ans t stOK pl) ∧ t.mem = (erCommand op s).mem ∧
      t.regs = (erCommand op s).regs) ∧
    (on 0x0801 → p.length = 8 → Runs (.faultLog x) s fun t => t = faultLog x p s ∧ t.mem = s.mem ∧
      (s.nv.flips = [] ∨ 126 < le p 4 4 → only t)) ∧
    (on 0x0802 → nvClosed s = false → Runs (.faultClear x) s fun t => (∃ pl, ans t stOK pl) ∧ t.fm.log = [] ∧
      t.mem = s.mem ∧
      flag t Reg.FM_STAT Fld.FM_STAT_FPEND = false) ∧
    (on 0x0901 → p.length = 36 → Runs (.attest x) s fun t => t = attest x p s ∧ t.mem = s.mem ∧
      (s.nv.flips = [] ∨ nthD 0 p 32 ≠ 0 → only t)) ∧
    (on 0x0902 → p.length = 4 → Runs (.getCert x) s fun t => t.mem = s.mem ∧ (s.nv.flips = [] → only t) ∧
      (blank p 2 2 = false → ans t stARG [])) ∧
    (let waits := nthD 0 p 0 = 1 ∧ nthD 0 p 1 < 16 ∧ windowsHeld s (nthD 0 p 1) = true
     (waits → Runs (.abort x) s fun t => t = s) ∧
     (on 0x0F01 → ¬waits → Runs (.abort x) s fun t => t = firmwareAbort x p s ∧
      (sessState s x ≠ 2 → nthD 0 p 0 ≠ 1 → ans t stROLE [] ∧ only t) ∧
      (sessState s x = 2 → p.length ≠ 4 ∨ nthD 0 p 0 = 0 ∨ 7 ≤ nthD 0 p 0 → ans t stARG [] ∧ only t)))

/-- For every session, SEQ, opcode, FLAGS, STATUS and payload of up to 4,064 bytes, the message reads back with each
field at its offset, with LENGTH and with the CRC-32 of the bytes before it. As a request with FLAGS below 4 it is
refused by none of BADVER, BADLEN and BADCRC in the window of its own session, with BADLEN in any other; with a wrong
CRC it gives BADCRC, with a VERSION other than 1 it gives BADVER. The CRC of "123456789" is 0xCBF43926. A repeat of the
last completed request of an open session is answered by the stored message and leaves every register but its phase, and
memory; a request refused in another session's window is answered with its own SESSION. Which refusals complete a SEQ is
log 99, the reserved bits log 100, a repeat log 102. (R324, R325, R327) -/
def Obligations.LyheufFramesAreChecked : Prop :=
  (∀ (s : State) (x seq op flags st : Nat) (payload : List Nat), x < 16 → seq < 65536 → op < 65536 → flags < 65536 →
    st < 65536 → payload.length ≤ 4064 → (∀ b ∈ payload, b < 256) →
    let bs := message x seq op flags st payload
    let n := payload.length
    let code := fun (y : Nat) (ws : List Nat) => (checkRequest s y ws).map (·.1)
    bs.length = 20 + n ∧ le bs 0 1 = 1 ∧ le bs 1 1 = x ∧ le bs 2 2 = seq ∧ le bs 4 2 = op ∧ le bs 6 2 = flags ∧
    le bs 8 2 = n ∧ le bs 0x0A 2 = st ∧ le bs 0x0C 4 = 0 ∧ cut bs 16 n = payload ∧
    le bs (16 + n) 4 = crc32 (bs.take (16 + n)) ∧
    (flags < 4 → code x bs ≠ some stBADVER ∧ code x bs ≠ some stBADLEN ∧ code x bs ≠ some stBADCRC) ∧
    (4 ≤ flags → code x bs = some stBADLEN) ∧
    (∀ y, y ≠ x → flags < 4 → code y bs = some stBADLEN ∧
      ((sessOf (takeRequest y bs s) y).ready.map fun z => (z.session, z.seq, z.op, z.status)) = some (x, seq, op,
        stBADLEN)) ∧
    (∀ v, v ≠ 1 → v < 256 → code x (v :: bs.drop 1) = some stBADVER) ∧
    (∀ c, c ≠ crc32 (bs.take (16 + n)) → c < 2 ^ 32 → flags < 4 →
      code x (bs.take (16 + n) ++ toBytes 4 c) = some stBADCRC) ∧
    (flags < 4 → sessState s x ≠ 0 → (sessOf s x).stored ≠ [] → seq = fld s (Reg.MB_SESS x) Fld.MB_SESS_SEQ →
      op = (sessOf s x).lastOp →
      let t := takeRequest x bs s
      KeepsRegs [Reg.MB_SESS x] s t ∧ t.mem = s.mem ∧ (sessOf t x).nonce = (sessOf s x).nonce ∧
      ((sessOf t x).ready.map fun y => (y.session, y.seq, y.op, y.status, y.payload)) = some (x, seq, op,
        le (sessOf s x).stored 0x0A 2, cut (sessOf s x).stored 16 (le (sessOf s x).stored 8 2)))) ∧
  crc32 [0x31, 0x32, 0x33, 0x34, 0x35, 0x36, 0x37, 0x38, 0x39] = 0xCBF43926

/-- With no dynamic address the I3C target acknowledges no private transfer and no directed query; ENTDAA and SETDASA
then set it, SETNEWDA changes it, RSTDAA clears it. Each query sends its bytes and changes no register. ENEC, DISEC,
SETMWL, SETMRL and ENTHDR0 set what they name; any other CCC is not acknowledged. Private transfers, MBX_DATA and SPI
reads and writes act on the host address space by the named operations. A transfer of a window whose memory is held
waits. A write whose PEC does not hold, an MCTP message over SMBus among them, is not acknowledged and changes nothing
else. The Alert Response returns the address and releases the line. The MCTP control messages answer and set the
endpoint ID. A write into the request window of a session that is not IDLE sets WINREF alone, and a register access that
is no whole aligned word sets ACCERR alone. The bytes that the I3C device itself gives are the model's free constants
(log 118). Pieces of a transfer are log 115, the I3C bytes log 117, lengths and addresses log 119 and 120, the PEC log
121 and 201, the Alert Response log 122, SPI log 123, MCTP log 124 and 125, held windows log 93. Commands shown to
complete: I3C_PRIVATE_WRITE, I3C_PRIVATE_READ, CCC_ENTDAA, CCC_SETDASA, CCC_SETNEWDA, CCC_RSTDAA, CCC_ENEC, CCC_DISEC,
CCC_GETPID, CCC_GETBCR, CCC_GETDCR, CCC_GETSTATUS, CCC_SETMWL, CCC_SETMRL, CCC_GETMWL, CCC_GETMRL, CCC_GETMXDS,
CCC_ENTHDR0, CCC_UNSUPPORTED, MBX_ADDR, MBX_DATA_WRITE, MBX_DATA_READ, ALERT_RESPONSE, SPI_WRITE, SPI_READ,
SPI_QUAD_WRITE, SPI_QUAD_READ, SPI_STATUS, SET_ENDPOINT_ID, GET_ENDPOINT_ID, GET_MCTP_VERSION_SUPPORT,
GET_MESSAGE_TYPE_SUPPORT, GET_VENDOR_DEFINED_MESSAGE_SUPPORT, MCTP_LYHEUF_MESSAGE. (R316, R317, R318, R319, R320, R322,
R323) -/
def Obligations.HostTransportCommandsRun : Prop :=
  ∀ (s : State) (bus : MctpBus) (bs : List (BitVec 8)) (n : BitVec 16) (k : BitVec 6) (da sa new : BitVec 7)
    (e : BitVec 8) (a : BitVec 24)
      (pec : Pec),
    let has := i3cDa s ≠ 0
    let answers := fun (ack : Bool) (ws : List Nat)
      (t : State) => t.host.answer = { ack := ack, data := ws, pec := none } ∧
      t.regs = s.regs ∧ t.mem = s.mem
    let ws := bytesOf bs
    let heldW := hostHeld s (le ws 0 3) (ws.drop 3)
    let heldR := windowHeld s (hostAddr s 1) n.toNat
    let heldM := hostHeld s (hostAddr s 2) ws
    let heldS := fun (len : Nat) => windowHeld s a.toNat len
    let daIs := fun (t : State) (v : Nat) => i3cDa t = v ∧ t.host.answer.ack = true ∧ KeepsRegs [Reg.MB_I3CCFG] s t ∧
      t.mem = s.mem
    (viaUp s .i3c = true →
      (has → (heldW = false → Runs (.i3cPrivateWrite bs) s fun t => t = privateWrite ws s) ∧
        (heldR = false → Runs (.i3cPrivateRead n) s fun t => t = privateRead n.toNat s) ∧
        (Runs (.cccSetnewda da new) s fun t => (da.toNat = i3cDa s → daIs t new.toNat) ∧
          (da.toNat ≠ i3cDa s → answers false [] t))) ∧
      (¬has → (Runs (.cccEntdaa da) s fun t => daIs t da.toNat) ∧
        Runs (.cccSetdasa sa da) s fun t => (sa.toNat = fld s Reg.MB_I3CCFG Fld.MB_I3CCFG_SA → daIs t da.toNat) ∧
          (sa.toNat ≠ fld s Reg.MB_I3CCFG Fld.MB_I3CCFG_SA → answers false [] t)) ∧
      (Runs .cccRstdaa s fun t => daIs t 0) ∧
      (∀ (c : Instr) (d : List Nat), (c, d) ∈ [(.cccGetpid, (toBytes 6 Config.i3cPid.toNat).reverse),
          (.cccGetbcr, [Config.i3cBcr.toNat]), (.cccGetdcr, [Config.i3cDcr.toNat]),
          (.cccGetmxds, [(Config.i3cMxds 0).toNat, (Config.i3cMxds 1).toNat]),
          (.cccGetstatus, toBytes 2 (Config.freeWord s.fresh).toNat), (.cccGetmwl, (toBytes 2 s.host.mwl).reverse),
          (.cccGetmrl, (toBytes 2 s.host.mrl).reverse ++ [1])] →
        (has → Runs c s fun t => answers true d t) ∧ (¬has → Runs c s fun t => answers false [] t)) ∧
      (heldW = true → Runs (.i3cPrivateWrite bs) s fun t => t = s) ∧
      (heldR = true → Runs (.i3cPrivateRead n) s fun t => t = s) ∧
      (¬has → heldW = false → heldR = false → ∀ c : Instr,
        c ∈ [.i3cPrivateWrite bs, .i3cPrivateRead n, .cccSetnewda da new] →
        Runs c s fun t => answers false [] t) ∧
      (Runs (.cccEnec e) s fun t => answers true [] t ∧ t.host.events = (s.host.events || decide (e.toNat % 2 = 1))) ∧
      (Runs (.cccDisec e) s fun t => answers true [] t ∧ t.host.events = (s.host.events && decide (e.toNat % 2 = 0))) ∧
      (Runs (.cccSetmwl n) s fun t => answers true [] t ∧ t.host.mwl = min 4100 n.toNat) ∧
      (Runs (.cccSetmrl n) s fun t => answers true [] t ∧ t.host.mrl = min 4100 n.toNat) ∧
      (Runs .cccEnthdr0 s fun t => answers true [] t ∧ t.host.ddr = true) ∧
      (e.toNat ∉ cccCodes → Runs (.cccUnsupported e) s fun t => answers false [] t)) ∧
    (viaUp s .smbus = true →
      (pecHolds s pec = true →
        (bs.length = 3 → Runs (.mbxAddr bs pec) s fun t => answers true [] t ∧ hostAddr t 2 = le ws 0 3) ∧
        (1 ≤ bs.length → bs.length ≤ 32 → heldM = false → Runs (.mbxDataWrite bs pec) s fun t => t = mbxWrite ws s)) ∧
      (heldM = true → Runs (.mbxDataWrite bs pec) s fun t => t = s) ∧
      (pecHolds s pec = false → heldM = false → ∀ c : Instr, c ∈ [.mbxAddr bs pec, .mbxDataWrite bs pec] →
        Runs c s fun t => answers false [] t ∧ t.host.addr = s.host.addr) ∧
      (1 ≤ k.toNat → k.toNat ≤ 32 → Runs (.mbxDataRead k) s fun t =>
        if windowHeld s (hostAddr s 2) k.toNat = true then t = s
        else t = mbxRead k.toNat s ∧ t.host.answer.data.head? = some k.toNat ∧ t.host.answer.pec.isSome = true) ∧
      (Runs .alertResponse s fun t =>
        (smbAlert s = true → answers true [fld s Reg.MB_SMBCFG Fld.MB_SMBCFG_ADDR] t ∧ smbAlert t = false) ∧
        (smbAlert s = false → answers false [] t))) ∧
    (viaUp s .spi = true →
      (∀ c : Instr, c ∈ [.spiWrite a bs, .spiQuadWrite a bs] → Runs c s fun t =>
        if bs = [] ∨ hostHeld s a.toNat ws = true then t = s else t = answer [] (hostWrite .spi a.toNat ws s)) ∧
      (∀ c : Instr, c ∈ [.spiRead a n, .spiQuadRead a n] → Runs c s fun t =>
        if n = 0 ∨ heldS n.toNat = true then t = s
        else t = answer (hostRead .spi a.toNat n.toNat s).2 (hostRead .spi a.toNat n.toNat s).1) ∧
      Runs .spiStatus s fun t => answers true [spiStatus s] t) ∧
    (viaUp s (mctpVia bus) = true → (bus = .i3c → has) → (∀ y, bus = .smbus y → pecHolds s y = true) →
      (Runs (.setEndpointId bus e) s fun t =>
        (e.toNat = 0 ∨ e.toNat = 255 → answers true [2] t) ∧
        (e.toNat ≠ 0 → e.toNat ≠ 255 → fld t Reg.MB_MCTPEID (eidField bus) = e.toNat ∧
          t.host.answer = { ack := true, data := [0, 0, e.toNat, 0], pec := none } ∧ KeepsRegs [Reg.MB_MCTPEID] s t)) ∧
      (∀ (c : Instr) (d : List Nat), (c, d) ∈ [(.getEndpointId bus, [0, fld s Reg.MB_MCTPEID (eidField bus), 0, 0]),
          (.getMctpVersionSupport bus, [0, 1] ++ (List.range 4).map fun i => (Config.mctpVersion i).toNat),
          (.getMessageTypeSupport bus, [0, 1, 0x7F]), (.getVendorDefinedMessageSupport bus,
            [0, 0xFF, 1] ++ ianaBytes s ++ [(Config.mctpVendorSet 0).toNat, (Config.mctpVendorSet 1).toNat])] →
        Runs c s fun t => answers true d t) ∧
      (Runs (.mctpLyheufMessage bus e bs) s fun t =>
        t = if takesAsked s (nthD 0 ws 6) && lyheufOverMctp s ws then
          mctpLyheuf (if bus = .i3c then 4 else 5) e.toNat (ws.drop 5) s else s)) ∧
    (viaUp s .smbus = true → pecHolds s pec = false → ∀ c : Instr, c ∈ [.setEndpointId (.smbus pec) e,
        .getEndpointId (.smbus pec), .getMctpVersionSupport (.smbus pec), .getMessageTypeSupport (.smbus pec),
        .getVendorDefinedMessageSupport (.smbus pec), .mctpLyheufMessage (.smbus pec) e bs] →
      Runs c s fun t => answers false [] t) ∧
    (∀ (v : Via) (h : Nat), (h < 0x20000 → h % 0x2000 < 0x1000 → sessPhase s (h / 0x2000) ≠ 0 →
        flag (hostPut v h ws s) Reg.MB_HSTAT Fld.MB_HSTAT_WINREF = true ∧
          OnlyRegs [Reg.MB_HSTAT] s (hostPut v h ws s)) ∧
      (hostReg h = true → bs.length ≠ 4 ∨ h % 4 ≠ 0 → flag (hostPut v h ws s) Reg.MB_HSTAT Fld.MB_HSTAT_ACCERR = true ∧
        OnlyRegs [Reg.MB_HSTAT] s (hostPut v h ws s)))

/-- Each read answers with its bytes and a PEC and changes no register. PAGE selects a rail; a value above 31, and a
write with PMBW = 0, sets the STATUS_CML bit of its refusal and changes no register. OPERATION and VOUT_COMMAND act by
the named operations where PMBW = 1, and wait in their order while the rail table is busy; VOUT_COMMAND outside 4,000 to
65,534 sets bit 6 and keeps the registers. CLEAR_FAULTS clears the page's status. An unsupported code sets bit 7. A
write whose PEC does not hold changes no register. READ_TEMPERATURE_1 of a rail without members answers a free value
(log 130). A write that the Foreman would carry out is not acknowledged while it does not serve, and waits for the rail
table (log 126); what counts as invalid data is log 127, CLEAR_FAULTS log 128, the number formats log 129. Commands
shown to complete: PAGE, OPERATION, ON_OFF_CONFIG, CLEAR_FAULTS, CAPABILITY, VOUT_MODE, VOUT_COMMAND, STATUS_BYTE,
STATUS_WORD, STATUS_VOUT, STATUS_IOUT, STATUS_TEMPERATURE, STATUS_CML, READ_VIN, READ_VOUT, READ_IOUT,
READ_TEMPERATURE_1, PMBUS_REVISION, MFR_ID, MFR_MODEL, MFR_REVISION, PMBUS_INVALID_COMMAND. (R318, R331, R332) -/
def Obligations.PmbusCommandsRun : Prop :=
  ∀ (s : State) (v e : BitVec 8) (w : BitVec 16) (pec : Pec), viaUp s .smbus = true →
    let r := pageRail s
    let answers := fun (ws : List Nat) (t : State) => t.host.answer.ack = true ∧ t.host.answer.data = ws ∧
      t.regs = s.regs ∧ t.mem = s.mem
    let reads := fun (ws : List Nat) (t : State) => answers ws t ∧ t.host.answer.pec.isSome = true
    let cml := fun (t : State) (i : Nat) => bitAt (statusCml t) i = true ∧ t.regs = s.regs ∧ t.mem = s.mem
    let pmbw := flag s Reg.MB_SMBCFG Fld.MB_SMBCFG_PMBW
    let free := s.host.pmb = [] ∧ tableFree s = true
    let queued := fun (j : PmbJob) (t : State) => t.host.pmb = s.host.pmb ++ [j] ∧ t.host.answer.ack = true ∧
      t.regs = s.regs ∧ t.mem = s.mem
    (∀ (c : Instr) (d : List Nat), (c, d) ∈ [(.page none pec, [s.host.page]),
        (.operation none pec, [if regulating s r then 0x80 else 0]), (.onOffConfig, [0x18]), (.capability, [0xD0]),
        (.voutMode, [0x12]), (.voutCommand none pec,
          pmbWord (roundAwayDiv ((fld s (Reg.RT_VREF r) Fld.RT_VREF_TARGET : Int) * 512) 625).toNat),
        (.statusByte, [statusByte s]), (.statusWord, pmbWord (statusWord s)), (.statusVout, [statusVout s]),
        (.statusIout, [statusIout s]), (.statusTemperature, [statusTemperature s]), (.statusCml, [statusCml s]),
        (.readVin, pmbWord (linear11 (fld s (Reg.LU_VIN (homeOf r)) Fld.LU_VIN_VIN) 1000)),
        (.readVout, pmbWord (satU 16 (roundAwayDiv (railOf s r).vout 2500)).toNat),
        (.readIout, pmbWord (linear11 (railOf s r).ifNum (400 * 2 ^ (railOf s r).ifSh))), (.pmbusRevision, [0x33]),
        (.mfrId, [6, 0x4B, 0x49, 0x4C, 0x4B, 0x4F, 0x52]), (.mfrModel, [7, 0x45, 0x4C, 0x4E, 0x39, 0x32, 0x35, 0x36]),
        (.mfrRevision, [2, 0x42, 0x31])] → Runs c s fun t => reads d t) ∧
    (Runs .readTemperature1 s fun t => reads (if members s r = [] then toBytes 2 (Config.freeWord s.fresh).toNat
      else pmbWord (linear11 (hottest s) 128)) t) ∧
    (pecHolds s pec = true →
      (Runs (.page (some v) pec) s fun t => (v.toNat < 32 → t.host.page = v.toNat ∧ answers [] t) ∧
        (32 ≤ v.toNat → t.host.page = s.host.page ∧ cml t 6)) ∧
      (pmbw = false → (Runs (.operation (some v) pec) s fun t => cml t 7) ∧
        Runs (.voutCommand (some w) pec) s fun t => cml t 7) ∧
      (pmbw = true → foremanServes s = false → ∀ c : Instr, c ∈ [.operation (some v) pec, .voutCommand (some w) pec] →
        Runs c s fun t => t.host.answer.ack = false ∧ t.regs = s.regs ∧ t.mem = s.mem ∧ statusCml t = statusCml s) ∧
      (pmbw = true → foremanServes s = true →
        (v ∉ [0x80#8, 0x40#8, 0#8] → Runs (.operation (some v) pec) s fun t => cml t 6) ∧
        (Runs (.operation (some 0x80#8) pec) s fun t =>
          (free → t = answer [] (pmbRail hostEnable r s)) ∧ (¬free → queued (.enable r) t)) ∧
        (∀ y, y ∈ [0x40#8, 0#8] → Runs (.operation (some y) pec) s fun t =>
          (free → t = answer [] (pmbRail hostDisable r s)) ∧ (¬free → queued (.disable r) t)) ∧
        (let target := roundAwayDiv ((w.toNat : Int) * 625) 512
         Runs (.voutCommand (some w) pec) s fun t =>
          (target < 4000 ∨ 65534 < target → cml t 6) ∧
          (4000 ≤ target → target ≤ 65534 → (¬free → queued (.vout r target.toNat) t) ∧
            (free → railRuns s r = false →
              fld t (Reg.RT_VREF r) Fld.RT_VREF_TARGET = target.toNat ∧ KeepsRegs [Reg.RT_VREF r] s t) ∧
            (free → railRuns s r = true → t = answer [] (voutWrite r target.toNat s))))) ∧
      (Runs (.clearFaults pec) s fun t =>
        let clears := railState s r = 4 ∧ pmbw = true ∧ foremanServes s = true
        statusCml t = 0 ∧ statusIout t = 0 ∧ t.host.pmbAlert = false ∧ (¬clears ∨ ¬free → t.regs = s.regs) ∧
        (clears → free → t = answer [] (rtCommand 4 r false (clearStatus s))) ∧
        (clears → ¬free → t.host.pmb = s.host.pmb ++ [.clear r])) ∧
      (e.toNat ∉ writeCodes → Runs (.pmbusInvalidCommand e true pec) s fun t => cml t 7)) ∧
    (e.toNat ∉ readCodes → Runs (.pmbusInvalidCommand e false pec) s fun t => cml t 7 ∧ t.host.answer.ack = false) ∧
    (pecHolds s pec = false → ∀ c : Instr, c ∈ [.page (some v) pec, .operation (some v) pec,
      .voutCommand (some w) pec, .clearFaults pec] → Runs c s fun t => t.regs = s.regs ∧ t.host.answer.ack = false ∧
        t.host.page = s.host.page ∧ statusCml t = statusCml s)

/-- A request of another session, or one out of the order of R356, gives STATE and changes no register, byte or
directory record. A good FOLIO_LOAD leaves its bytes in the buffer and the update LOADING; VERIFY answers with its
RESULT and the folio's fields and opens INSTALL when RESULT is 0; FOLIO_INSTALL and FOLIO_ACTIVATE take the named
effect, and NEXTBOOT sets PENDING; CONFIRM of a TRIAL slot makes it ACTIVE and leaves any other; FOLIO_DIR answers from
the directory. Handover, its timeout, the end and the timeout of a Foreman update, the end of a trial and the restart of
a locked engine take the named effect, once the quire's binding controller and the memories they need are free (R264,
R304, logs 93 and 140). The codes of the directory are log 135, an install into an EMPTY record log 136, CONFIRM log
137, the outcome of a write log 138, activation of a rail table log 141, that of the Foreman image log 142, the events
of a revert log 143. Commands shown to complete: FOLIO_LOAD, FOLIO_VERIFY, FOLIO_INSTALL, FOLIO_ACTIVATE, FOLIO_CONFIRM,
FOLIO_DIR, TRIAL_EXPIRY, SHADOW_READY, SHADOW_READY_TIMEOUT, FOREMAN_UPDATE_DONE, FOREMAN_UPDATE_TIMEOUT,
LOCKOUT_RESTART. (R344, R350, R356, R357, R358, R359, R360, R361, R362) -/
def Obligations.FolioCommandsRun : Prop :=
  ∀ (s : State) (x : Fin 16) (r : Request) (ok : Bool), (sessOf s x).req = some r →
    let p := r.payload
    let u := s.frm.update
    let ans := fun (t : State) (st : Nat) (pl : List Nat) => (sessOf t x).ready =
      some { session := r.session, seq := r.seq, op := r.op, flags := 1, status := st, payload := pl,
             done := true, rail := 0 }
    let only := fun (t : State) => t.regs = s.regs ∧ t.mem = s.mem ∧ t.nv = s.nv ∧ t.frm = s.frm
    let on := fun (op : Nat) => serving s x op = true
    let wear := [Reg.NV_WMAX, Reg.NV_WMIN]
    let loads := rangeHeld s (bufferBase + le p 0 4) (p.length - 8) = false
    let verifies := rangeHeld s bufferBase (le p 0 4) = false
    let installs := s.nv.op = .none ∧ rangeHeld s bufferBase u.len = false ∧ nvClosed s = false
    let activates := activationWaits s u.target u.inst = false
    (on 0x0501 → loads → Runs (.folioLoad x) s fun t => t = folioLoad x p s ∧
      (512 * 1024 < le p 0 4 + le p 4 4 → ans t stARG [] ∧ only t) ∧
      (p.length = 8 + le p 4 4 → le p 4 4 ≤ 4000 → le p 0 4 + le p 4 4 ≤ 512 * 1024 →
        (updateTaken s x = true ∨ (u.phase = 0 ∧ le p 0 4 ≠ 0) → ans t stSTATE [] ∧ only t) ∧
        (updateTaken s x = false → u.phase ≠ 0 ∨ le p 0 4 = 0 → ans t stOK [] ∧
          t.frm.update.phase = 1 ∧ t.frm.update.session = x.val))) ∧
    (∀ (c : Instr) (op n : Nat), (c, op, n) ∈ [(.folioVerify x, 0x0502, 4), (.folioInstall x ok, 0x0503, 0),
        (.folioActivate x, 0x0504, 4), (.folioConfirm x, 0x0505, 4), (.folioDir x, 0x0506, 2)] → on op →
      verifies → installs → activates → p.length ≠ n → Runs c s fun t => ans t stARG [] ∧ only t) ∧
    (on 0x0502 → verifies → p.length = 4 → le p 0 4 ≤ 512 * 1024 →
      Runs (.folioVerify x) s fun t => t = folioVerify x p s ∧
      t.mem = s.mem ∧ (updateTaken s x = true ∨ u.phase = 0 → ans t stSTATE [] ∧ only t) ∧
      (updateTaken s x = false → u.phase ≠ 0 →
        ∃ s' f good, loadBytes 128 bufferBase (le p 0 4) s = (s', f, good) ∧
          let res := verifyFolio s' f (le p 0 4) s'.frm.version good
          t.frm.update.phase = (if res = 0 then 2 else 1) ∧
          ans t stOK ([res, fTarget f, fInst f, fKeyslot f] ++ toBytes 4 (fVersion f) ++ toBytes 2 (fSvn f) ++ [0, 0] ++
            padTo 0 64 (fDigest f)))) ∧
    (on 0x0503 → p = [] → installs → Runs (.folioInstall x ok) s fun t => t = folioInstall x ok s ∧
      (updateTaken s x = true ∨ u.phase ≠ 2 → ans t stSTATE [] ∧ only t)) ∧
    (on 0x0504 → p.length = 4 → activates → Runs (.folioActivate x) s fun t => t = folioActivate x p s ∧
      (nthD 0 p 0 = 1 ∨ nthD 0 p 0 = 2 → nthD 0 p 1 = 0 →
        (updateTaken s x = true ∨ u.phase ≠ 3 → ans t stSTATE [] ∧ only t) ∧
        (updateTaken s x = false → u.phase = 3 → nthD 0 p 0 = 2 →
          ans t stOK (toBytes 4 (if u.target = 3 then rd s (Reg.LU_CSIDX (homeOf u.inst) (slotOf u.inst)) else 0)) ∧
          KeepsRegs (Reg.FM_AVCOND :: wear) s t ∧ t.mem = s.mem ∧ (dirOf t u.target u.inst).state = 3 ∧
            (dirOf t u.target u.inst).active = u.slot ∧ t.frm.update.phase = 0))) ∧
    (on 0x0505 → p.length = 4 → Runs (.folioConfirm x) s fun t => t = folioConfirm x p s ∧
      (nthD 0 p 1 < instances (nthD 0 p 0) → nthD 0 p 2 ≤ 1 → nthD 0 p 3 = 0 →
        let d := dirOf s (nthD 0 p 0) (nthD 0 p 1)
        (updateTaken s x = true ∨ (nthD 0 p 2 = 1 ∧ someTrial s = true) → ans t stSTATE [] ∧ only t) ∧
        (updateTaken s x = false → nthD 0 p 2 = 0 → ans t stOK [s.otp.arb] ∧ t.otp = s.otp ∧ t.mem = s.mem ∧
          (d.state = 2 → dirOf t (nthD 0 p 0) (nthD 0 p 1) = { d with state := 1 } ∧ KeepsRegs wear s t) ∧
          (d.state ≠ 2 → only t)))) ∧
    (on 0x0506 → p.length = 2 → Runs (.folioDir x) s fun t => only t ∧
      let d := dirOf s (nthD 0 p 0) (nthD 0 p 1)
      if u.phase ≠ 0 ∧ u.session ≠ x.val then ans t stSTATE []
      else if instances (nthD 0 p 0) ≤ nthD 0 p 1 then ans t stARG []
      else ans t stOK ([d.active, d.state, 0, 0] ++ slotBytes d.a ++ slotBytes d.b)) ∧
    (alive s = true →
      (foremanServes s = true →
        (shadowReady s = true → quireFree s (s.frm.act.old / 8) = true → Runs .shadowReady s fun t => t = handOver s) ∧
        (shadowLate s = true → Runs .shadowReadyTimeout s fun t => t = dropShadow s ∧ t.frm.act.kind = 0) ∧
        (∀ (t' : Fin 6) (i : Fin 32), trialOver s t' i = true → activationWaits s t' i = false →
          Runs (.trialExpiry t' i) s fun t =>
          t = activateLive 0 t' i (1 - (dirOf s t' i).active) 0 true (foremanEvent 5 2 0 s)) ∧
        (∀ e : Fin 128, engState s e = 3 → imageHeld s e = false → quireFree s (e / 8) = true →
          plannedImage s (e / 8) (e % 8) < 16 → Runs (.lockoutRestart e) s fun t =>
          t = restartLocked e s)) ∧
      (updating s = true →
        (imageReady s = true → Runs .foremanUpdateDone s fun t => t = foremanUpdated s ∧ t.frm.act.kind = 0 ∧
          flag t Reg.MB_HSTAT Fld.MB_HSTAT_FBUSY = false) ∧
        (foremanHeld s = false → s.frm.act.since - 1 + 50000000 ≤ s.tb.ns →
          Runs .foremanUpdateTimeout s fun t => t = foremanReverted s ∧
          t.frm.act.kind = 0)))

/-- A refused SC_CMD shows the first failing check and changes nothing else; an accepted one is BUSY with no fuse blown
yet. Its good end blows what it asked for and shows RESULT 0; a failed one shows 5. SC_JOB while BUSY shows 3 alone;
otherwise the job is BUSY, at work or waiting for memory that is held, and at its end what it made stands at its
destination, where that is good SRAM. A write of 1 sets LOCK for good. What a failed blow of ARB leaves is log 145, a
job's lengths and addresses log 144, held memory log 93; hashes and signatures are the model's free functions (log
134). Commands shown to complete: SC_ARBSET, SC_REVOKE, SC_OWNERPROG, SC_FUSE_DONE, SC_SHA3, SC_VERIFY, SC_SIGN,
SC_JOB_DONE, SC_LOCK_WRITE. (R348, R351, R365) -/
def Obligations.SecurityCommandsRun : Prop :=
  ∀ (s : State) (m : Master) (arg : BitVec 8) (ok : Bool),
    let st := Reg.SC_CMDST
    let job := Reg.SC_JOB
    (CanWrite s m Reg.SC_CMD → ∀ (c : Instr) (op a : Nat), (c, op, a) ∈ [(.scArbset m arg, 1, arg.toNat % 128),
        (.scRevoke m arg, 2, arg.toNat % 128), (.scOwnerprog m, 3, 0)] →
      (scCheck s op a ≠ 0 → Runs c s fun t => fld t st Fld.SC_CMDST_RESULT = scCheck s op a ∧ OnlyRegs [st] s t) ∧
      (scCheck s op a = 0 → Runs c s fun t => flag t st Fld.SC_CMDST_BUSY = true ∧ fld t st Fld.SC_CMDST_RESULT = 0 ∧
        t.otp = { s.otp with op := op, arg := a } ∧ KeepsRegs [st] s t ∧ t.mem = s.mem)) ∧
    (alive s = true → s.otp.op ≠ 0 → Runs (.scFuseDone ok) s fun t => t.otp.op = 0 ∧
      KeepsRegs ([st, Reg.SC_OTP] ++ (List.range 16).map Reg.SC_OWNER ++
        (List.range 4).flatMap fun i => (List.range 16).map (Reg.SC_ROOT i)) s t ∧
      flag t st Fld.SC_CMDST_BUSY = false ∧ fld t st Fld.SC_CMDST_RESULT = (if ok then 0 else 5) ∧ t.mem = s.mem ∧
      (ok = true → (s.otp.op = 1 → t.otp.arb = max s.otp.arb s.otp.arg) ∧
        (s.otp.op = 2 → bitAt t.otp.rev s.otp.arg = true) ∧
        (s.otp.op = 3 → s.otp.owner = false → t.otp.owner = true ∧ t.otp.ownerDigest = scData s)) ∧
      (ok = false → t.otp.rev = s.otp.rev ∧ t.otp.owner = s.otp.owner ∧ s.otp.arb ≤ t.otp.arb ∧
        t.otp.arb ≤ max s.otp.arb s.otp.arg)) ∧
    (CanWrite s m job → ∀ (c : Instr) (op : Nat) (t' : State), (c, op, t') ∈ [(.scSha3 m, 1, jobSha3 s),
        (.scVerify m, 2, jobVerify s), (.scSign m, 3, jobSign s)] →
      (flag s job Fld.SC_JOB_BUSY = true → Runs c s fun t => fld t job Fld.SC_JOB_RESULT = 3 ∧ OnlyRegs [job] s t) ∧
      (flag s job Fld.SC_JOB_BUSY = false → jobHeld s op = true → Runs c s fun t => flag t job Fld.SC_JOB_BUSY = true ∧
        t.frm.job = op ∧ t.frm.jobWait = true ∧ KeepsRegs [job] s t ∧ t.mem = s.mem) ∧
      (flag s job Fld.SC_JOB_BUSY = false → jobHeld s op = false → Runs c s fun t => t = t' ∧
        flag t job Fld.SC_JOB_BUSY = true ∧
        t.frm.job = op ∧ t.mem = s.mem)) ∧
    (alive s = true → flag s job Fld.SC_JOB_BUSY = true → s.frm.jobResult < 16 → s.frm.jobWait = false →
      rangeHeld s s.frm.jobDst s.frm.jobOut.length = false → Runs .scJobDone s fun t =>
      flag t job Fld.SC_JOB_BUSY = false ∧ t.frm.job = 0 ∧
      fld t job Fld.SC_JOB_RESULT = (if (jobWrite s).2 then s.frm.jobResult else 2) ∧ t.mem = (jobWrite s).1.mem ∧
      (s.frm.jobOut = [] → t.mem = s.mem)) ∧
    (CanWrite s m Reg.SC_LOCK → Runs (.scLockWrite m) s fun t => flag t Reg.SC_LOCK Fld.SC_LOCK_LOCK = true ∧
      OnlyRegs [Reg.SC_LOCK] s t)

/-- Whatever the front command, the fuse commands and their end, good or failed, FOLIO_INSTALL, FOLIO_CONFIRM and every
reset that cuts a blow short among them, and on an empty queue too: after the step ARB is no lower, a revoked slot is
still revoked, and an owner slot that was programmed is so still, with its digest. (R348, R349, R357, R358, R365) -/
def Obligations.FusesAreOnlyBlown : Prop :=
  ∀ s t : State, step s = .next t → s.otp.arb ≤ t.otp.arb ∧
    (∀ k, bitAt s.otp.rev k = true → bitAt t.otp.rev k = true) ∧
    (s.otp.owner = true → t.otp.owner = true ∧ t.otp.ownerDigest = s.otp.ownerDigest)

/-- A report that is no unsafe rail is counted in its class, queued with the next number, and raises ALERT in class U
and F, FPEND in class F. A full queue drops an arriving C record; another replaces the newest C record or is dropped. A
read of FM_Q or FM_DISQ removes the oldest entry and shows it, 0 when there is none. FM_ACK clears FPEND; the clears
zero what they name and nothing else; FM_FEC_CLR zeroes the capture and MORE. FM_TRIP starts the pulse, which ends after
8 ns. The end of the quiet period clears ALERT and adds 1 to FM_RECOVERIES. A good FM_WDOG restarts its interval; its
expiry restarts the Foreman, which serves again with FBUSY = 0, but for BOOT. A pass, an append, and a core mismatch
take their named effects; the loss of a second core starts SHUTDOWN with cause 6. FAULT_REPORT is log 146, a replaced C
record log 147, the records of disagreements log 148, a pass log 150, the second core log 151, the third restart log
152, the availability promise log 153, the pulse log 154; the watchdog and the restart wait for Foreman memory that is
held (log 93). Commands shown to complete: FAULT_REPORT, FM_Q_READ, FAULT_LOG_APPEND, FM_ACK, FM_FEC_CLR,
FM_QDROP_CLEAR, FM_LOGDROP_CLEAR, FM_WDOG, WATCHDOG_EXPIRY, QUIET_PERIOD_END, RECONCILE_PASS, FM_TRIP_GO, FM_RECCLR,
FM_AVCLR, FM_DISQ_READ, FOREMAN_CORE_MISMATCH, FOREMAN_SERVES_AGAIN, TRIP_LINE_PULSE_END. (R366, R368, R371, R372, R373,
R374, R377, R379, R380, R381, R384, R389) -/
def Obligations.FaultManagerCommandsRun : Prop :=
  (∀ (s : State) (m : Master) (x : Report) (r : Fin 32) (c : Fin 3),
    let cls := x.cls.toNat
    let one := fun (a : Nat) (t : State) => rd t a = 0 ∧ OnlyRegs [a] s t
    (alive s = true → reportKnown x = true → Runs (.faultReport x) s fun t => t = takeReport x s ∧ t.mem = s.mem ∧
      (¬(x.src = 1 ∧ x.event = 2) → t.fm.seq = s.fm.seq + 1 ∧
        t.fm.q = (queueRecord s.fm.q (recordOf s (repOf x))).1 ∧
        rd t Reg.FM_CCNT = (if cls = 1 then min (rd s Reg.FM_CCNT + 1) 4294967295 else rd s Reg.FM_CCNT) ∧
        rd t Reg.FM_UCNT = (if cls = 2 then min (rd s Reg.FM_UCNT + 1) 4294967295 else rd s Reg.FM_UCNT) ∧
        rd t Reg.FM_FCNT = (if cls = 3 then min (rd s Reg.FM_FCNT + 1) 4294967295 else rd s Reg.FM_FCNT) ∧
        flag t Reg.FM_STAT Fld.FM_STAT_ALERT = (flag s Reg.FM_STAT Fld.FM_STAT_ALERT || decide (2 ≤ cls)) ∧
        flag t Reg.FM_STAT Fld.FM_STAT_FPEND = (flag s Reg.FM_STAT Fld.FM_STAT_FPEND || decide (cls = 3)))) ∧
    (CanRead s m Reg.FM_Q → Runs (.fmQRead m) s fun t => t.fm.q = s.fm.q.tail ∧ t.fm.logbuf = s.fm.logbuf ∧
      KeepsRegs (Reg.FM_Q :: (List.range 8).map Reg.FM_QREC) s t ∧ t.mem = s.mem ∧ (s.fm.q = [] → rd t Reg.FM_Q = 0) ∧
      (∀ y rest, s.fm.q = y :: rest → ∀ w, w < 8 → rd t (Reg.FM_QREC w) = nthD 0 (recordWords y) w % 2 ^ 32)) ∧
    (∀ y, alive s = true → foremanServes s = true → s.nv.op = .none → nextRecord s = some y →
      Runs .faultLogAppend s fun t => t = appendRecord y s ∧ y ∉ t.fm.logbuf ∧ y ∈ t.fm.log ∧ t.mem = s.mem) ∧
    (CanWrite s m Reg.FM_ACK → Runs (.fmAck m) s fun t => flag t Reg.FM_STAT Fld.FM_STAT_FPEND = false ∧
      flag t Reg.FM_STAT Fld.FM_STAT_ALERT = flag s Reg.FM_STAT Fld.FM_STAT_ALERT ∧ OnlyRegs [Reg.FM_STAT] s t) ∧
    (CanWrite s m Reg.FM_FEC_CLR → Runs (.fmFecClr m) s fun t =>
      let as := [Reg.FM_FEC_ADDR_LO, Reg.FM_FEC_ADDR_HI, Reg.FM_FEC_INFO, Reg.FM_FEC_TB_LO, Reg.FM_FEC_TB_HI,
        Reg.FM_FEC_HRS_LO, Reg.FM_FEC_HRS_HI, Reg.FM_FEC_PCC, Reg.FM_FEC_MORE]
      (∀ a ∈ as, rd t a = 0) ∧ OnlyRegs as s t) ∧
    (CanWrite s m Reg.FM_QDROP → Runs (.fmQdropClear m) s (one Reg.FM_QDROP)) ∧
    (CanWrite s m Reg.FM_LOGDROP → Runs (.fmLogdropClear m) s (one Reg.FM_LOGDROP)) ∧
    (CanWrite s m Reg.FM_CMD → Runs (.fmRecclr m) s (one Reg.FM_RECOVERIES)) ∧
    (CanWrite s m Reg.FM_CMD → Runs (.fmAvclr m) s fun t => rd t Reg.FM_AVCOND = 0xFFFFFFFF ∧
      (∀ j, j < 32 → rd t (Reg.FM_AVUN j) = 0) ∧ t.mem = s.mem ∧
      KeepsRegs (Reg.FM_AVCOND :: (List.range 32).map Reg.FM_AVUN) s t) ∧
    (CanRead s m Reg.FM_DISQ → Runs (.fmDisqRead m) s fun t => t.fm.disq = s.fm.disq.tail ∧ t.fm.dlist = s.fm.dlist ∧
      KeepsRegs [Reg.FM_DISQ] s t ∧ t.mem = s.mem ∧ (s.fm.disq = [] → rd t Reg.FM_DISQ = 0) ∧
      (∀ d rest, s.fm.disq = d :: rest → rd t Reg.FM_DISQ = disqWord d % 2 ^ 32)) ∧
    (CanWrite s m Reg.FM_TRIP → Runs (.fmTripGo m r) s fun t => t = pulseRail r s) ∧
    (alive s = true → pulseOver s r = true → Runs (.tripLinePulseEnd r) s fun t => tget (fun _ => 0) t.fm.pulse r = 0 ∧
      t.regs = s.regs ∧ t.mem = s.mem) ∧
    (alive s = true → flag s Reg.FM_STAT Fld.FM_STAT_ALERT = true → s.fm.quietAt ≤ s.tb.ns →
      Runs .quietPeriodEnd s fun t =>
      flag t Reg.FM_STAT Fld.FM_STAT_ALERT = false ∧
      rd t Reg.FM_RECOVERIES = min (rd s Reg.FM_RECOVERIES + 1) 4294967295 ∧ t.mem = s.mem ∧
      (mode s = 5 → rd s Reg.FM_DEGR = 0 → mode t = 4)) ∧
    (alive s = true → foremanServes s = true → s.fm.passAt + 1000000 ≤ s.tb.ns → Runs .reconcilePass s fun t =>
      t = reconcilePass s) ∧
    (CanWrite s m Reg.FM_WDOG → Runs (.fmWdog m) s fun t => t.regs = s.regs ∧ t.mem = s.mem ∧
      t.fm.wdogAt = s.tb.ns) ∧
    (alive s = true → flag s Reg.FM_WDCFG Fld.FM_WDCFG_EN = true → foremanServes s = true →
      s.fm.wdogAt + max 1 (fld s Reg.FM_WDCFG Fld.FM_WDCFG_MS) * 1000000 ≤ s.tb.ns →
      foremanHeld s = false → Runs .watchdogExpiry s fun t => t = watchdog s ∧ ∀ y, y < 16 → sessState t y = 0) ∧
    (alive s = true → s.frm.restarting = true → s.frm.reload = false → Runs .foremanServesAgain s fun t =>
      t.frm.restarting = false ∧ flag t Reg.MB_HSTAT Fld.MB_HSTAT_FBUSY = (mode s == 1) ∧
        OnlyRegs [Reg.MB_HSTAT] s { t with frm := s.frm, fm := s.fm }) ∧
    (alive s = true → bitAt s.fm.retired c = false → Runs (.foremanCoreMismatch c) s fun t =>
      (s.fm.retired = 0 → t = coreOdd c s) ∧ (s.fm.retired ≠ 0 → t = foremanLost c s))) ∧
  (∀ (q : List FaultRec) (x : FaultRec),
    (q.length < 64 → queueRecord q x = (q ++ [x], 0)) ∧
    (q.length = 64 → (x.cls = 1 ∨ ∀ y ∈ q, y.cls ≠ 1) → queueRecord q x = (q, 1)) ∧
    (∀ a b y, q = a ++ y :: b → q.length = 64 → x.cls ≠ 1 → y.cls = 1 → (∀ z ∈ b, z.cls ≠ 1) →
      queueRecord q x = (a ++ b ++ [x], 1)))

/-- Thresholds that two samples in a row found crossed, or 64 in a row found 15 mV above, change the shed level by the
named operation; with none the supplies only move. START outside STANDBY or with BUSY only shows RESULT 2, with an
invalid table RESULT 3; else the order of the way up starts. A due group starts, and a rail that missed PG fails the
sequence. SEQUENCE ends in REGULATE, or in DEGRADED while a standing condition holds. A due group of the way down is
disabled. SHUTDOWN ends in STANDBY for causes 1, 3, 5 and 7 and in DORMANT for 2 and 4, a cause 4 after 1 ms at the
latest; a recorder commit that cannot be made yet keeps it waiting. PWRGD_IN shows its level, counts its falls, and
may start the sequence or SHUTDOWN. A speed measurement becomes NOW, lowers MIN and may set LOW. Writes of a supply
register set MIN to NOW, of SM_PGIN clear FALLS. One command for the thresholds of one sample is log 155, level 6 log
157, the actions at the command log 159, FALLS log 161, the instants of a speed measurement log 162, the groups log
163, AUTOSTART log 164, commits of a SHUTDOWN log 165, its ends log 167. Commands shown to complete:
SHED_LEVEL_CHANGE, SEQ_START, SEQ_GROUP_START, SEQ_PG_TIMEOUT, SEQUENCE_END, SHUTDOWN_GROUP_DISABLE,
SHUTDOWN_COMPLETE, SHED6_APPEND_TIMEOUT, PWRGD_IN_RISE, PWRGD_IN_FALL, SPEED_MEASURE, SM_SUPPLY_MIN_RESET,
SM_PGIN_CLEAR. (R392, R395, R396, R397, R398, R399, R401, R403, R404, R405) -/
def Obligations.PowerCommandsRun : Prop :=
  ∀ (s : State) (m : Master) (ths : List Threshold) (crossed : Bool) (vcore : BitVec 16) (io : IoSupplies)
    (r : Fin 32) (u : Fin 17)
    (v : BitVec 12) (pin : SupplyPin),
    let st := Reg.SM_SEQSTAT
    let pg := Reg.SM_PGIN
    let falls := Fld.SM_PGIN_FALLS
    let cause := rd s Reg.FM_SHUTCAUSE
    (alive s = true → (∀ x ∈ ths, thresholdMoves s crossed x = true) →
      Runs (.shedLevelChange ths crossed vcore io) s fun t =>
        t = shedChange ths crossed vcore.toNat io.vio.toNat io.vaux.toNat s ∧
        (ths = [] → t.sup.vcore = vcore.toNat ∧ t.sup.vio = io.vio.toNat ∧ t.sup.vaux = io.vaux.toNat ∧
          t.regs = s.regs ∧ t.mem = s.mem)) ∧
    (CanWrite s m Reg.SM_SEQCMD → (mode s ≠ 2 ∨ flag s st Fld.SM_SEQSTAT_BUSY = true) → Runs (.seqStart m) s fun t =>
      fld t st Fld.SM_SEQSTAT_RESULT = 2 ∧ mode t = mode s ∧ OnlyRegs [st] s t) ∧
    (CanWrite s m Reg.SM_SEQCMD → mode s = 2 → flag s st Fld.SM_SEQSTAT_BUSY = false → tableInvalid s = true →
      Runs (.seqStart m) s fun t => fld t st Fld.SM_SEQSTAT_RESULT = 3 ∧ mode t = mode s ∧ OnlyRegs [st] s t) ∧
    (CanWrite s m Reg.SM_SEQCMD → mode s = 2 → flag s st Fld.SM_SEQSTAT_BUSY = false → tableInvalid s = false →
      Runs (.seqStart m) s fun t => ∃ a, t = seqAdvance a ∧ mode a = 3 ∧ flag a st Fld.SM_SEQSTAT_BUSY = true ∧
        flag a st Fld.SM_SEQSTAT_DOWN = false ∧ fld a st Fld.SM_SEQSTAT_RESULT = 0 ∧
        a.sup.run.groups = upGroups s (rd s Reg.SM_SEQMASK)) ∧
    (alive s = true → seqDue s = true → Runs .seqGroupStart s fun t => t = seqAdvance s) ∧
    (alive s = true → pgMissed s r = true → Runs (.seqPgTimeout r) s fun t => t = seqFail r s) ∧
    (alive s = true → seqOver s = true → Runs .sequenceEnd s fun t => flag t st Fld.SM_SEQSTAT_BUSY = false ∧
      mode t = (if rd s Reg.FM_DEGR = 0 then 4 else 5) ∧ OnlyRegs [st, Reg.SM_MODE, Reg.MB_HSTAT] s t) ∧
    (alive s = true → downDue s = true → Runs .shutdownGroupDisable s fun t => t = downGroup s) ∧
    (alive s = true → mode s = 6 → railsDown s = true → appendsOver s = true → nvIdle s = true →
      Runs .shutdownComplete s fun t =>
      (commitWaits s = false → t = shutdownEnd s ∧ (cause = 1 ∨ cause = 3 ∨ cause = 5 ∨ cause = 7 → mode t = 2) ∧
        (cause = 2 ∨ cause = 4 → mode t = 0)) ∧
      (commitWaits s = true → mode t = 6 ∧ t = if 3 ≤ shed s then dueCommit s else s)) ∧
    (alive s = true → mode s = 6 → railsDown s = true → cause = 4 → s.sup.shutAt + 1000000 ≤ s.tb.ns →
      Runs .shed6AppendTimeout s fun t => t = shutdownEnd s ∧ mode t = 0) ∧
    (alive s = true → flag s pg Fld.SM_PGIN_LEVEL = false → Runs .pwrgdInRise s fun t =>
      (mode s = 2 ∧ flag s Reg.SM_SEQHDR Fld.SM_SEQHDR_AUTOSTART = true →
        t = autoStart (setFlag pg Fld.SM_PGIN_LEVEL true s)) ∧
      (¬(mode s = 2 ∧ flag s Reg.SM_SEQHDR Fld.SM_SEQHDR_AUTOSTART = true) →
        flag t pg Fld.SM_PGIN_LEVEL = true ∧ fld t pg falls = fld s pg falls ∧ OnlyRegs [pg] s t)) ∧
    (alive s = true → flag s pg Fld.SM_PGIN_LEVEL = true → Runs .pwrgdInFall s fun t =>
      ∃ a, flag a pg Fld.SM_PGIN_LEVEL = false ∧ fld a pg falls = min (fld s pg falls + 1) 65535 ∧ OnlyRegs [pg] s a ∧
        (flag s Reg.SM_SEQHDR Fld.SM_SEQHDR_SHUTLOSS = true ∧ (mode s = 3 ∨ mode s = 4 ∨ mode s = 5) →
          t = startShutdown 5 a) ∧
        (¬(flag s Reg.SM_SEQHDR Fld.SM_SEQHDR_SHUTLOSS = true ∧ (mode s = 3 ∨ mode s = 4 ∨ mode s = 5)) → t = a)) ∧
    (alive s = true → s.tb.ns % 10000 = 0 → Runs (.speedMeasure u v) s fun t =>
      let a := Reg.SM_SPD u
      let thr := fld s Reg.SM_SPDCFG Fld.SM_SPDCFG_THR
      fld t a Fld.SM_SPD_NOW = v.toNat ∧
      (tget (fun _ => false) s.sup.measured u = false → fld t a Fld.SM_SPD_MIN = v.toNat ∧
        flag t a Fld.SM_SPD_LOW = (flag s a Fld.SM_SPD_LOW || decide (v.toNat < thr))) ∧
      (tget (fun _ => false) s.sup.measured u = true →
        fld t a Fld.SM_SPD_MIN = min v.toNat (fld s a Fld.SM_SPD_MIN) ∧
        flag t a Fld.SM_SPD_LOW =
          (flag s a Fld.SM_SPD_LOW || (decide (v.toNat < thr) && decide (thr ≤ fld s a Fld.SM_SPD_NOW)))) ∧
      KeepsRegs [a] s t ∧ t.mem = s.mem) ∧
    (CanWrite s m (supplyReg pin) → Runs (.smSupplyMinReset m pin) s fun t =>
      let a := supplyReg pin
      fld t a Fld.SM_VCORE_MIN = fld s a Fld.SM_VCORE_NOW ∧ fld t a Fld.SM_VCORE_NOW = fld s a Fld.SM_VCORE_NOW ∧
      OnlyRegs [a] s t) ∧
    (CanWrite s m pg → Runs (.smPginClear m) s fun t => fld t pg falls = 0 ∧
      flag t pg Fld.SM_PGIN_LEVEL = flag s pg Fld.SM_PGIN_LEVEL ∧ OnlyRegs [pg] s t)
end

