-- ==== Sys2Proof/Laws/State.lean ====
section
/-! SUPPORT. What each update of the state leaves alone: one lemma per update, a clause per field of State it keeps,
true by unfolding, so that no later proof unfolds a record update. -/

namespace Sys2Proof.Machine

/-- wr changes regs alone. -/
@[simp] theorem wr_keeps (a v : Nat) (s : State) :
    (wr a v s).tb = s.tb ∧ (wr a v s).fm = s.fm ∧ (wr a v s).ras = s.ras ∧ (wr a v s).nv = s.nv ∧
    (wr a v s).sup = s.sup ∧ (wr a v s).rails = s.rails ∧ (wr a v s).chans = s.chans ∧
    (wr a v s).tlrefs = s.tlrefs ∧ (wr a v s).convs = s.convs ∧ (wr a v s).senses = s.senses ∧
    (wr a v s).comps = s.comps ∧ (wr a v s).wins = s.wins ∧ (wr a v s).ports = s.ports ∧ (wr a v s).sbus = s.sbus ∧
    (wr a v s).varips = s.varips ∧ (wr a v s).engines = s.engines ∧ (wr a v s).binds = s.binds ∧
    (wr a v s).evqs = s.evqs ∧ (wr a v s).timers = s.timers ∧ (wr a v s).evtIns = s.evtIns ∧
    (wr a v s).evtOuts = s.evtOuts ∧ (wr a v s).er = s.er ∧ (wr a v s).sess = s.sess ∧ (wr a v s).host = s.host ∧
    (wr a v s).otp = s.otp ∧ (wr a v s).frm = s.frm ∧ (wr a v s).mem = s.mem ∧ (wr a v s).raised = s.raised ∧
    (wr a v s).fresh = s.fresh ∧ (wr a v s).pending = s.pending := by
  refine ⟨rfl, rfl, rfl, rfl, rfl, rfl, rfl, rfl, rfl, rfl, rfl, rfl, rfl, rfl, rfl, rfl, rfl, rfl, rfl, rfl, rfl,
    rfl, rfl, rfl, rfl, rfl, rfl, rfl, rfl, rfl⟩

/-- setRail changes rails alone. -/
@[simp] theorem setRail_keeps (r : Nat) (x : Rail) (s : State) :
    (setRail r x s).regs = s.regs ∧ (setRail r x s).tb = s.tb ∧ (setRail r x s).fm = s.fm ∧
    (setRail r x s).ras = s.ras ∧ (setRail r x s).nv = s.nv ∧ (setRail r x s).sup = s.sup ∧
    (setRail r x s).chans = s.chans ∧ (setRail r x s).tlrefs = s.tlrefs ∧ (setRail r x s).convs = s.convs ∧
    (setRail r x s).senses = s.senses ∧ (setRail r x s).comps = s.comps ∧ (setRail r x s).wins = s.wins ∧
    (setRail r x s).ports = s.ports ∧ (setRail r x s).sbus = s.sbus ∧ (setRail r x s).varips = s.varips ∧
    (setRail r x s).engines = s.engines ∧ (setRail r x s).binds = s.binds ∧ (setRail r x s).evqs = s.evqs ∧
    (setRail r x s).timers = s.timers ∧ (setRail r x s).evtIns = s.evtIns ∧ (setRail r x s).evtOuts = s.evtOuts ∧
    (setRail r x s).er = s.er ∧ (setRail r x s).sess = s.sess ∧ (setRail r x s).host = s.host ∧
    (setRail r x s).otp = s.otp ∧ (setRail r x s).frm = s.frm ∧ (setRail r x s).mem = s.mem ∧
    (setRail r x s).raised = s.raised ∧ (setRail r x s).fresh = s.fresh ∧ (setRail r x s).pending = s.pending := by
  refine ⟨rfl, rfl, rfl, rfl, rfl, rfl, rfl, rfl, rfl, rfl, rfl, rfl, rfl, rfl, rfl, rfl, rfl, rfl, rfl, rfl, rfl,
    rfl, rfl, rfl, rfl, rfl, rfl, rfl, rfl, rfl⟩

/-- setChan changes chans alone. -/
@[simp] theorem setChan_keeps (n : Nat) (x : Chan) (s : State) :
    (setChan n x s).regs = s.regs ∧ (setChan n x s).tb = s.tb ∧ (setChan n x s).fm = s.fm ∧
    (setChan n x s).ras = s.ras ∧ (setChan n x s).nv = s.nv ∧ (setChan n x s).sup = s.sup ∧
    (setChan n x s).rails = s.rails ∧ (setChan n x s).tlrefs = s.tlrefs ∧ (setChan n x s).convs = s.convs ∧
    (setChan n x s).senses = s.senses ∧ (setChan n x s).comps = s.comps ∧ (setChan n x s).wins = s.wins ∧
    (setChan n x s).ports = s.ports ∧ (setChan n x s).sbus = s.sbus ∧ (setChan n x s).varips = s.varips ∧
    (setChan n x s).engines = s.engines ∧ (setChan n x s).binds = s.binds ∧ (setChan n x s).evqs = s.evqs ∧
    (setChan n x s).timers = s.timers ∧ (setChan n x s).evtIns = s.evtIns ∧ (setChan n x s).evtOuts = s.evtOuts ∧
    (setChan n x s).er = s.er ∧ (setChan n x s).sess = s.sess ∧ (setChan n x s).host = s.host ∧
    (setChan n x s).otp = s.otp ∧ (setChan n x s).frm = s.frm ∧ (setChan n x s).mem = s.mem ∧
    (setChan n x s).raised = s.raised ∧ (setChan n x s).fresh = s.fresh ∧ (setChan n x s).pending = s.pending := by
  refine ⟨rfl, rfl, rfl, rfl, rfl, rfl, rfl, rfl, rfl, rfl, rfl, rfl, rfl, rfl, rfl, rfl, rfl, rfl, rfl, rfl, rfl,
    rfl, rfl, rfl, rfl, rfl, rfl, rfl, rfl, rfl⟩

/-- setConv changes convs alone. -/
@[simp] theorem setConv_keeps (c : Nat) (x : Conv) (s : State) :
    (setConv c x s).regs = s.regs ∧ (setConv c x s).tb = s.tb ∧ (setConv c x s).fm = s.fm ∧
    (setConv c x s).ras = s.ras ∧ (setConv c x s).nv = s.nv ∧ (setConv c x s).sup = s.sup ∧
    (setConv c x s).rails = s.rails ∧ (setConv c x s).chans = s.chans ∧ (setConv c x s).tlrefs = s.tlrefs ∧
    (setConv c x s).senses = s.senses ∧ (setConv c x s).comps = s.comps ∧ (setConv c x s).wins = s.wins ∧
    (setConv c x s).ports = s.ports ∧ (setConv c x s).sbus = s.sbus ∧ (setConv c x s).varips = s.varips ∧
    (setConv c x s).engines = s.engines ∧ (setConv c x s).binds = s.binds ∧ (setConv c x s).evqs = s.evqs ∧
    (setConv c x s).timers = s.timers ∧ (setConv c x s).evtIns = s.evtIns ∧ (setConv c x s).evtOuts = s.evtOuts ∧
    (setConv c x s).er = s.er ∧ (setConv c x s).sess = s.sess ∧ (setConv c x s).host = s.host ∧
    (setConv c x s).otp = s.otp ∧ (setConv c x s).frm = s.frm ∧ (setConv c x s).mem = s.mem ∧
    (setConv c x s).raised = s.raised ∧ (setConv c x s).fresh = s.fresh ∧ (setConv c x s).pending = s.pending := by
  refine ⟨rfl, rfl, rfl, rfl, rfl, rfl, rfl, rfl, rfl, rfl, rfl, rfl, rfl, rfl, rfl, rfl, rfl, rfl, rfl, rfl, rfl,
    rfl, rfl, rfl, rfl, rfl, rfl, rfl, rfl, rfl⟩

/-- updSense changes senses alone. -/
@[simp] theorem updSense_keeps (q : Nat) (f : Sense → Sense) (s : State) :
    (updSense q f s).regs = s.regs ∧ (updSense q f s).tb = s.tb ∧ (updSense q f s).fm = s.fm ∧
    (updSense q f s).ras = s.ras ∧ (updSense q f s).nv = s.nv ∧ (updSense q f s).sup = s.sup ∧
    (updSense q f s).rails = s.rails ∧ (updSense q f s).chans = s.chans ∧ (updSense q f s).tlrefs = s.tlrefs ∧
    (updSense q f s).convs = s.convs ∧ (updSense q f s).comps = s.comps ∧ (updSense q f s).wins = s.wins ∧
    (updSense q f s).ports = s.ports ∧ (updSense q f s).sbus = s.sbus ∧ (updSense q f s).varips = s.varips ∧
    (updSense q f s).engines = s.engines ∧ (updSense q f s).binds = s.binds ∧ (updSense q f s).evqs = s.evqs ∧
    (updSense q f s).timers = s.timers ∧ (updSense q f s).evtIns = s.evtIns ∧
    (updSense q f s).evtOuts = s.evtOuts ∧ (updSense q f s).er = s.er ∧ (updSense q f s).sess = s.sess ∧
    (updSense q f s).host = s.host ∧ (updSense q f s).otp = s.otp ∧ (updSense q f s).frm = s.frm ∧
    (updSense q f s).mem = s.mem ∧ (updSense q f s).raised = s.raised ∧ (updSense q f s).fresh = s.fresh ∧
    (updSense q f s).pending = s.pending := by
  refine ⟨rfl, rfl, rfl, rfl, rfl, rfl, rfl, rfl, rfl, rfl, rfl, rfl, rfl, rfl, rfl, rfl, rfl, rfl, rfl, rfl, rfl,
    rfl, rfl, rfl, rfl, rfl, rfl, rfl, rfl, rfl⟩

/-- updComp changes comps alone. -/
@[simp] theorem updComp_keeps (w : Nat) (f : Comp → Comp) (s : State) :
    (updComp w f s).regs = s.regs ∧ (updComp w f s).tb = s.tb ∧ (updComp w f s).fm = s.fm ∧
    (updComp w f s).ras = s.ras ∧ (updComp w f s).nv = s.nv ∧ (updComp w f s).sup = s.sup ∧
    (updComp w f s).rails = s.rails ∧ (updComp w f s).chans = s.chans ∧ (updComp w f s).tlrefs = s.tlrefs ∧
    (updComp w f s).convs = s.convs ∧ (updComp w f s).senses = s.senses ∧ (updComp w f s).wins = s.wins ∧
    (updComp w f s).ports = s.ports ∧ (updComp w f s).sbus = s.sbus ∧ (updComp w f s).varips = s.varips ∧
    (updComp w f s).engines = s.engines ∧ (updComp w f s).binds = s.binds ∧ (updComp w f s).evqs = s.evqs ∧
    (updComp w f s).timers = s.timers ∧ (updComp w f s).evtIns = s.evtIns ∧ (updComp w f s).evtOuts = s.evtOuts ∧
    (updComp w f s).er = s.er ∧ (updComp w f s).sess = s.sess ∧ (updComp w f s).host = s.host ∧
    (updComp w f s).otp = s.otp ∧ (updComp w f s).frm = s.frm ∧ (updComp w f s).mem = s.mem ∧
    (updComp w f s).raised = s.raised ∧ (updComp w f s).fresh = s.fresh ∧ (updComp w f s).pending = s.pending := by
  refine ⟨rfl, rfl, rfl, rfl, rfl, rfl, rfl, rfl, rfl, rfl, rfl, rfl, rfl, rfl, rfl, rfl, rfl, rfl, rfl, rfl, rfl,
    rfl, rfl, rfl, rfl, rfl, rfl, rfl, rfl, rfl⟩

/-- updWin changes wins alone. -/
@[simp] theorem updWin_keeps (n : Nat) (f : Window → Window) (s : State) :
    (updWin n f s).regs = s.regs ∧ (updWin n f s).tb = s.tb ∧ (updWin n f s).fm = s.fm ∧
    (updWin n f s).ras = s.ras ∧ (updWin n f s).nv = s.nv ∧ (updWin n f s).sup = s.sup ∧
    (updWin n f s).rails = s.rails ∧ (updWin n f s).chans = s.chans ∧ (updWin n f s).tlrefs = s.tlrefs ∧
    (updWin n f s).convs = s.convs ∧ (updWin n f s).senses = s.senses ∧ (updWin n f s).comps = s.comps ∧
    (updWin n f s).ports = s.ports ∧ (updWin n f s).sbus = s.sbus ∧ (updWin n f s).varips = s.varips ∧
    (updWin n f s).engines = s.engines ∧ (updWin n f s).binds = s.binds ∧ (updWin n f s).evqs = s.evqs ∧
    (updWin n f s).timers = s.timers ∧ (updWin n f s).evtIns = s.evtIns ∧ (updWin n f s).evtOuts = s.evtOuts ∧
    (updWin n f s).er = s.er ∧ (updWin n f s).sess = s.sess ∧ (updWin n f s).host = s.host ∧
    (updWin n f s).otp = s.otp ∧ (updWin n f s).frm = s.frm ∧ (updWin n f s).mem = s.mem ∧
    (updWin n f s).raised = s.raised ∧ (updWin n f s).fresh = s.fresh ∧ (updWin n f s).pending = s.pending := by
  refine ⟨rfl, rfl, rfl, rfl, rfl, rfl, rfl, rfl, rfl, rfl, rfl, rfl, rfl, rfl, rfl, rfl, rfl, rfl, rfl, rfl, rfl,
    rfl, rfl, rfl, rfl, rfl, rfl, rfl, rfl, rfl⟩

/-- updPort changes ports alone. -/
@[simp] theorem updPort_keeps (n : Nat) (f : Port → Port) (s : State) :
    (updPort n f s).regs = s.regs ∧ (updPort n f s).tb = s.tb ∧ (updPort n f s).fm = s.fm ∧
    (updPort n f s).ras = s.ras ∧ (updPort n f s).nv = s.nv ∧ (updPort n f s).sup = s.sup ∧
    (updPort n f s).rails = s.rails ∧ (updPort n f s).chans = s.chans ∧ (updPort n f s).tlrefs = s.tlrefs ∧
    (updPort n f s).convs = s.convs ∧ (updPort n f s).senses = s.senses ∧ (updPort n f s).comps = s.comps ∧
    (updPort n f s).wins = s.wins ∧ (updPort n f s).sbus = s.sbus ∧ (updPort n f s).varips = s.varips ∧
    (updPort n f s).engines = s.engines ∧ (updPort n f s).binds = s.binds ∧ (updPort n f s).evqs = s.evqs ∧
    (updPort n f s).timers = s.timers ∧ (updPort n f s).evtIns = s.evtIns ∧ (updPort n f s).evtOuts = s.evtOuts ∧
    (updPort n f s).er = s.er ∧ (updPort n f s).sess = s.sess ∧ (updPort n f s).host = s.host ∧
    (updPort n f s).otp = s.otp ∧ (updPort n f s).frm = s.frm ∧ (updPort n f s).mem = s.mem ∧
    (updPort n f s).raised = s.raised ∧ (updPort n f s).fresh = s.fresh ∧ (updPort n f s).pending = s.pending := by
  refine ⟨rfl, rfl, rfl, rfl, rfl, rfl, rfl, rfl, rfl, rfl, rfl, rfl, rfl, rfl, rfl, rfl, rfl, rfl, rfl, rfl, rfl,
    rfl, rfl, rfl, rfl, rfl, rfl, rfl, rfl, rfl⟩

/-- updSbus changes sbus alone. -/
@[simp] theorem updSbus_keeps (q : Nat) (f : Sbus → Sbus) (s : State) :
    (updSbus q f s).regs = s.regs ∧ (updSbus q f s).tb = s.tb ∧ (updSbus q f s).fm = s.fm ∧
    (updSbus q f s).ras = s.ras ∧ (updSbus q f s).nv = s.nv ∧ (updSbus q f s).sup = s.sup ∧
    (updSbus q f s).rails = s.rails ∧ (updSbus q f s).chans = s.chans ∧ (updSbus q f s).tlrefs = s.tlrefs ∧
    (updSbus q f s).convs = s.convs ∧ (updSbus q f s).senses = s.senses ∧ (updSbus q f s).comps = s.comps ∧
    (updSbus q f s).wins = s.wins ∧ (updSbus q f s).ports = s.ports ∧ (updSbus q f s).varips = s.varips ∧
    (updSbus q f s).engines = s.engines ∧ (updSbus q f s).binds = s.binds ∧ (updSbus q f s).evqs = s.evqs ∧
    (updSbus q f s).timers = s.timers ∧ (updSbus q f s).evtIns = s.evtIns ∧ (updSbus q f s).evtOuts = s.evtOuts ∧
    (updSbus q f s).er = s.er ∧ (updSbus q f s).sess = s.sess ∧ (updSbus q f s).host = s.host ∧
    (updSbus q f s).otp = s.otp ∧ (updSbus q f s).frm = s.frm ∧ (updSbus q f s).mem = s.mem ∧
    (updSbus q f s).raised = s.raised ∧ (updSbus q f s).fresh = s.fresh ∧ (updSbus q f s).pending = s.pending := by
  refine ⟨rfl, rfl, rfl, rfl, rfl, rfl, rfl, rfl, rfl, rfl, rfl, rfl, rfl, rfl, rfl, rfl, rfl, rfl, rfl, rfl, rfl,
    rfl, rfl, rfl, rfl, rfl, rfl, rfl, rfl, rfl⟩

/-- updVarip changes varips alone. -/
@[simp] theorem updVarip_keeps (v : Nat) (f : Varip → Varip) (s : State) :
    (updVarip v f s).regs = s.regs ∧ (updVarip v f s).tb = s.tb ∧ (updVarip v f s).fm = s.fm ∧
    (updVarip v f s).ras = s.ras ∧ (updVarip v f s).nv = s.nv ∧ (updVarip v f s).sup = s.sup ∧
    (updVarip v f s).rails = s.rails ∧ (updVarip v f s).chans = s.chans ∧ (updVarip v f s).tlrefs = s.tlrefs ∧
    (updVarip v f s).convs = s.convs ∧ (updVarip v f s).senses = s.senses ∧ (updVarip v f s).comps = s.comps ∧
    (updVarip v f s).wins = s.wins ∧ (updVarip v f s).ports = s.ports ∧ (updVarip v f s).sbus = s.sbus ∧
    (updVarip v f s).engines = s.engines ∧ (updVarip v f s).binds = s.binds ∧ (updVarip v f s).evqs = s.evqs ∧
    (updVarip v f s).timers = s.timers ∧ (updVarip v f s).evtIns = s.evtIns ∧
    (updVarip v f s).evtOuts = s.evtOuts ∧ (updVarip v f s).er = s.er ∧ (updVarip v f s).sess = s.sess ∧
    (updVarip v f s).host = s.host ∧ (updVarip v f s).otp = s.otp ∧ (updVarip v f s).frm = s.frm ∧
    (updVarip v f s).mem = s.mem ∧ (updVarip v f s).raised = s.raised ∧ (updVarip v f s).fresh = s.fresh ∧
    (updVarip v f s).pending = s.pending := by
  refine ⟨rfl, rfl, rfl, rfl, rfl, rfl, rfl, rfl, rfl, rfl, rfl, rfl, rfl, rfl, rfl, rfl, rfl, rfl, rfl, rfl, rfl,
    rfl, rfl, rfl, rfl, rfl, rfl, rfl, rfl, rfl⟩

/-- updEng changes engines alone. -/
@[simp] theorem updEng_keeps (e : Nat) (f : Engine → Engine) (s : State) :
    (updEng e f s).regs = s.regs ∧ (updEng e f s).tb = s.tb ∧ (updEng e f s).fm = s.fm ∧
    (updEng e f s).ras = s.ras ∧ (updEng e f s).nv = s.nv ∧ (updEng e f s).sup = s.sup ∧
    (updEng e f s).rails = s.rails ∧ (updEng e f s).chans = s.chans ∧ (updEng e f s).tlrefs = s.tlrefs ∧
    (updEng e f s).convs = s.convs ∧ (updEng e f s).senses = s.senses ∧ (updEng e f s).comps = s.comps ∧
    (updEng e f s).wins = s.wins ∧ (updEng e f s).ports = s.ports ∧ (updEng e f s).sbus = s.sbus ∧
    (updEng e f s).varips = s.varips ∧ (updEng e f s).binds = s.binds ∧ (updEng e f s).evqs = s.evqs ∧
    (updEng e f s).timers = s.timers ∧ (updEng e f s).evtIns = s.evtIns ∧ (updEng e f s).evtOuts = s.evtOuts ∧
    (updEng e f s).er = s.er ∧ (updEng e f s).sess = s.sess ∧ (updEng e f s).host = s.host ∧
    (updEng e f s).otp = s.otp ∧ (updEng e f s).frm = s.frm ∧ (updEng e f s).mem = s.mem ∧
    (updEng e f s).raised = s.raised ∧ (updEng e f s).fresh = s.fresh ∧ (updEng e f s).pending = s.pending := by
  refine ⟨rfl, rfl, rfl, rfl, rfl, rfl, rfl, rfl, rfl, rfl, rfl, rfl, rfl, rfl, rfl, rfl, rfl, rfl, rfl, rfl, rfl,
    rfl, rfl, rfl, rfl, rfl, rfl, rfl, rfl, rfl⟩

/-- updBind changes binds alone. -/
@[simp] theorem updBind_keeps (q b : Nat) (f : Binding → Binding) (s : State) :
    (updBind q b f s).regs = s.regs ∧ (updBind q b f s).tb = s.tb ∧ (updBind q b f s).fm = s.fm ∧
    (updBind q b f s).ras = s.ras ∧ (updBind q b f s).nv = s.nv ∧ (updBind q b f s).sup = s.sup ∧
    (updBind q b f s).rails = s.rails ∧ (updBind q b f s).chans = s.chans ∧ (updBind q b f s).tlrefs = s.tlrefs ∧
    (updBind q b f s).convs = s.convs ∧ (updBind q b f s).senses = s.senses ∧ (updBind q b f s).comps = s.comps ∧
    (updBind q b f s).wins = s.wins ∧ (updBind q b f s).ports = s.ports ∧ (updBind q b f s).sbus = s.sbus ∧
    (updBind q b f s).varips = s.varips ∧ (updBind q b f s).engines = s.engines ∧ (updBind q b f s).evqs = s.evqs ∧
    (updBind q b f s).timers = s.timers ∧ (updBind q b f s).evtIns = s.evtIns ∧
    (updBind q b f s).evtOuts = s.evtOuts ∧ (updBind q b f s).er = s.er ∧ (updBind q b f s).sess = s.sess ∧
    (updBind q b f s).host = s.host ∧ (updBind q b f s).otp = s.otp ∧ (updBind q b f s).frm = s.frm ∧
    (updBind q b f s).mem = s.mem ∧ (updBind q b f s).raised = s.raised ∧ (updBind q b f s).fresh = s.fresh ∧
    (updBind q b f s).pending = s.pending := by
  refine ⟨rfl, rfl, rfl, rfl, rfl, rfl, rfl, rfl, rfl, rfl, rfl, rfl, rfl, rfl, rfl, rfl, rfl, rfl, rfl, rfl, rfl,
    rfl, rfl, rfl, rfl, rfl, rfl, rfl, rfl, rfl⟩

/-- updTimer changes timers alone. -/
@[simp] theorem updTimer_keeps (q m : Nat) (f : Timer → Timer) (s : State) :
    (updTimer q m f s).regs = s.regs ∧ (updTimer q m f s).tb = s.tb ∧ (updTimer q m f s).fm = s.fm ∧
    (updTimer q m f s).ras = s.ras ∧ (updTimer q m f s).nv = s.nv ∧ (updTimer q m f s).sup = s.sup ∧
    (updTimer q m f s).rails = s.rails ∧ (updTimer q m f s).chans = s.chans ∧
    (updTimer q m f s).tlrefs = s.tlrefs ∧ (updTimer q m f s).convs = s.convs ∧
    (updTimer q m f s).senses = s.senses ∧ (updTimer q m f s).comps = s.comps ∧ (updTimer q m f s).wins = s.wins ∧
    (updTimer q m f s).ports = s.ports ∧ (updTimer q m f s).sbus = s.sbus ∧ (updTimer q m f s).varips = s.varips ∧
    (updTimer q m f s).engines = s.engines ∧ (updTimer q m f s).binds = s.binds ∧
    (updTimer q m f s).evqs = s.evqs ∧ (updTimer q m f s).evtIns = s.evtIns ∧
    (updTimer q m f s).evtOuts = s.evtOuts ∧ (updTimer q m f s).er = s.er ∧ (updTimer q m f s).sess = s.sess ∧
    (updTimer q m f s).host = s.host ∧ (updTimer q m f s).otp = s.otp ∧ (updTimer q m f s).frm = s.frm ∧
    (updTimer q m f s).mem = s.mem ∧ (updTimer q m f s).raised = s.raised ∧ (updTimer q m f s).fresh = s.fresh ∧
    (updTimer q m f s).pending = s.pending := by
  refine ⟨rfl, rfl, rfl, rfl, rfl, rfl, rfl, rfl, rfl, rfl, rfl, rfl, rfl, rfl, rfl, rfl, rfl, rfl, rfl, rfl, rfl,
    rfl, rfl, rfl, rfl, rfl, rfl, rfl, rfl, rfl⟩

/-- updEvtIn changes evtIns alone. -/
@[simp] theorem updEvtIn_keeps (q x : Nat) (f : EvtIn → EvtIn) (s : State) :
    (updEvtIn q x f s).regs = s.regs ∧ (updEvtIn q x f s).tb = s.tb ∧ (updEvtIn q x f s).fm = s.fm ∧
    (updEvtIn q x f s).ras = s.ras ∧ (updEvtIn q x f s).nv = s.nv ∧ (updEvtIn q x f s).sup = s.sup ∧
    (updEvtIn q x f s).rails = s.rails ∧ (updEvtIn q x f s).chans = s.chans ∧
    (updEvtIn q x f s).tlrefs = s.tlrefs ∧ (updEvtIn q x f s).convs = s.convs ∧
    (updEvtIn q x f s).senses = s.senses ∧ (updEvtIn q x f s).comps = s.comps ∧ (updEvtIn q x f s).wins = s.wins ∧
    (updEvtIn q x f s).ports = s.ports ∧ (updEvtIn q x f s).sbus = s.sbus ∧ (updEvtIn q x f s).varips = s.varips ∧
    (updEvtIn q x f s).engines = s.engines ∧ (updEvtIn q x f s).binds = s.binds ∧
    (updEvtIn q x f s).evqs = s.evqs ∧ (updEvtIn q x f s).timers = s.timers ∧
    (updEvtIn q x f s).evtOuts = s.evtOuts ∧ (updEvtIn q x f s).er = s.er ∧ (updEvtIn q x f s).sess = s.sess ∧
    (updEvtIn q x f s).host = s.host ∧ (updEvtIn q x f s).otp = s.otp ∧ (updEvtIn q x f s).frm = s.frm ∧
    (updEvtIn q x f s).mem = s.mem ∧ (updEvtIn q x f s).raised = s.raised ∧ (updEvtIn q x f s).fresh = s.fresh ∧
    (updEvtIn q x f s).pending = s.pending := by
  refine ⟨rfl, rfl, rfl, rfl, rfl, rfl, rfl, rfl, rfl, rfl, rfl, rfl, rfl, rfl, rfl, rfl, rfl, rfl, rfl, rfl, rfl,
    rfl, rfl, rfl, rfl, rfl, rfl, rfl, rfl, rfl⟩

/-- updEvtOut changes evtOuts alone. -/
@[simp] theorem updEvtOut_keeps (q o : Nat) (f : EvtOut → EvtOut) (s : State) :
    (updEvtOut q o f s).regs = s.regs ∧ (updEvtOut q o f s).tb = s.tb ∧ (updEvtOut q o f s).fm = s.fm ∧
    (updEvtOut q o f s).ras = s.ras ∧ (updEvtOut q o f s).nv = s.nv ∧ (updEvtOut q o f s).sup = s.sup ∧
    (updEvtOut q o f s).rails = s.rails ∧ (updEvtOut q o f s).chans = s.chans ∧
    (updEvtOut q o f s).tlrefs = s.tlrefs ∧ (updEvtOut q o f s).convs = s.convs ∧
    (updEvtOut q o f s).senses = s.senses ∧ (updEvtOut q o f s).comps = s.comps ∧
    (updEvtOut q o f s).wins = s.wins ∧ (updEvtOut q o f s).ports = s.ports ∧ (updEvtOut q o f s).sbus = s.sbus ∧
    (updEvtOut q o f s).varips = s.varips ∧ (updEvtOut q o f s).engines = s.engines ∧
    (updEvtOut q o f s).binds = s.binds ∧ (updEvtOut q o f s).evqs = s.evqs ∧
    (updEvtOut q o f s).timers = s.timers ∧ (updEvtOut q o f s).evtIns = s.evtIns ∧ (updEvtOut q o f s).er = s.er ∧
    (updEvtOut q o f s).sess = s.sess ∧ (updEvtOut q o f s).host = s.host ∧ (updEvtOut q o f s).otp = s.otp ∧
    (updEvtOut q o f s).frm = s.frm ∧ (updEvtOut q o f s).mem = s.mem ∧ (updEvtOut q o f s).raised = s.raised ∧
    (updEvtOut q o f s).fresh = s.fresh ∧ (updEvtOut q o f s).pending = s.pending := by
  refine ⟨rfl, rfl, rfl, rfl, rfl, rfl, rfl, rfl, rfl, rfl, rfl, rfl, rfl, rfl, rfl, rfl, rfl, rfl, rfl, rfl, rfl,
    rfl, rfl, rfl, rfl, rfl, rfl, rfl, rfl, rfl⟩

/-- updEr changes er alone. -/
@[simp] theorem updEr_keeps (f : Recorder → Recorder) (s : State) :
    (updEr f s).regs = s.regs ∧ (updEr f s).tb = s.tb ∧ (updEr f s).fm = s.fm ∧ (updEr f s).ras = s.ras ∧
    (updEr f s).nv = s.nv ∧ (updEr f s).sup = s.sup ∧ (updEr f s).rails = s.rails ∧ (updEr f s).chans = s.chans ∧
    (updEr f s).tlrefs = s.tlrefs ∧ (updEr f s).convs = s.convs ∧ (updEr f s).senses = s.senses ∧
    (updEr f s).comps = s.comps ∧ (updEr f s).wins = s.wins ∧ (updEr f s).ports = s.ports ∧
    (updEr f s).sbus = s.sbus ∧ (updEr f s).varips = s.varips ∧ (updEr f s).engines = s.engines ∧
    (updEr f s).binds = s.binds ∧ (updEr f s).evqs = s.evqs ∧ (updEr f s).timers = s.timers ∧
    (updEr f s).evtIns = s.evtIns ∧ (updEr f s).evtOuts = s.evtOuts ∧ (updEr f s).sess = s.sess ∧
    (updEr f s).host = s.host ∧ (updEr f s).otp = s.otp ∧ (updEr f s).frm = s.frm ∧ (updEr f s).mem = s.mem ∧
    (updEr f s).raised = s.raised ∧ (updEr f s).fresh = s.fresh ∧ (updEr f s).pending = s.pending := by
  refine ⟨rfl, rfl, rfl, rfl, rfl, rfl, rfl, rfl, rfl, rfl, rfl, rfl, rfl, rfl, rfl, rfl, rfl, rfl, rfl, rfl, rfl,
    rfl, rfl, rfl, rfl, rfl, rfl, rfl, rfl, rfl⟩

/-- updTb changes tb alone. -/
@[simp] theorem updTb_keeps (f : TimeBase → TimeBase) (s : State) :
    (updTb f s).regs = s.regs ∧ (updTb f s).fm = s.fm ∧ (updTb f s).ras = s.ras ∧ (updTb f s).nv = s.nv ∧
    (updTb f s).sup = s.sup ∧ (updTb f s).rails = s.rails ∧ (updTb f s).chans = s.chans ∧
    (updTb f s).tlrefs = s.tlrefs ∧ (updTb f s).convs = s.convs ∧ (updTb f s).senses = s.senses ∧
    (updTb f s).comps = s.comps ∧ (updTb f s).wins = s.wins ∧ (updTb f s).ports = s.ports ∧
    (updTb f s).sbus = s.sbus ∧ (updTb f s).varips = s.varips ∧ (updTb f s).engines = s.engines ∧
    (updTb f s).binds = s.binds ∧ (updTb f s).evqs = s.evqs ∧ (updTb f s).timers = s.timers ∧
    (updTb f s).evtIns = s.evtIns ∧ (updTb f s).evtOuts = s.evtOuts ∧ (updTb f s).er = s.er ∧
    (updTb f s).sess = s.sess ∧ (updTb f s).host = s.host ∧ (updTb f s).otp = s.otp ∧ (updTb f s).frm = s.frm ∧
    (updTb f s).mem = s.mem ∧ (updTb f s).raised = s.raised ∧ (updTb f s).fresh = s.fresh ∧
    (updTb f s).pending = s.pending := by
  refine ⟨rfl, rfl, rfl, rfl, rfl, rfl, rfl, rfl, rfl, rfl, rfl, rfl, rfl, rfl, rfl, rfl, rfl, rfl, rfl, rfl, rfl,
    rfl, rfl, rfl, rfl, rfl, rfl, rfl, rfl, rfl⟩

/-- updFm changes fm alone. -/
@[simp] theorem updFm_keeps (f : FaultMgr → FaultMgr) (s : State) :
    (updFm f s).regs = s.regs ∧ (updFm f s).tb = s.tb ∧ (updFm f s).ras = s.ras ∧ (updFm f s).nv = s.nv ∧
    (updFm f s).sup = s.sup ∧ (updFm f s).rails = s.rails ∧ (updFm f s).chans = s.chans ∧
    (updFm f s).tlrefs = s.tlrefs ∧ (updFm f s).convs = s.convs ∧ (updFm f s).senses = s.senses ∧
    (updFm f s).comps = s.comps ∧ (updFm f s).wins = s.wins ∧ (updFm f s).ports = s.ports ∧
    (updFm f s).sbus = s.sbus ∧ (updFm f s).varips = s.varips ∧ (updFm f s).engines = s.engines ∧
    (updFm f s).binds = s.binds ∧ (updFm f s).evqs = s.evqs ∧ (updFm f s).timers = s.timers ∧
    (updFm f s).evtIns = s.evtIns ∧ (updFm f s).evtOuts = s.evtOuts ∧ (updFm f s).er = s.er ∧
    (updFm f s).sess = s.sess ∧ (updFm f s).host = s.host ∧ (updFm f s).otp = s.otp ∧ (updFm f s).frm = s.frm ∧
    (updFm f s).mem = s.mem ∧ (updFm f s).raised = s.raised ∧ (updFm f s).fresh = s.fresh ∧
    (updFm f s).pending = s.pending := by
  refine ⟨rfl, rfl, rfl, rfl, rfl, rfl, rfl, rfl, rfl, rfl, rfl, rfl, rfl, rfl, rfl, rfl, rfl, rfl, rfl, rfl, rfl,
    rfl, rfl, rfl, rfl, rfl, rfl, rfl, rfl, rfl⟩

/-- updSup changes sup alone. -/
@[simp] theorem updSup_keeps (f : Supply → Supply) (s : State) :
    (updSup f s).regs = s.regs ∧ (updSup f s).tb = s.tb ∧ (updSup f s).fm = s.fm ∧ (updSup f s).ras = s.ras ∧
    (updSup f s).nv = s.nv ∧ (updSup f s).rails = s.rails ∧ (updSup f s).chans = s.chans ∧
    (updSup f s).tlrefs = s.tlrefs ∧ (updSup f s).convs = s.convs ∧ (updSup f s).senses = s.senses ∧
    (updSup f s).comps = s.comps ∧ (updSup f s).wins = s.wins ∧ (updSup f s).ports = s.ports ∧
    (updSup f s).sbus = s.sbus ∧ (updSup f s).varips = s.varips ∧ (updSup f s).engines = s.engines ∧
    (updSup f s).binds = s.binds ∧ (updSup f s).evqs = s.evqs ∧ (updSup f s).timers = s.timers ∧
    (updSup f s).evtIns = s.evtIns ∧ (updSup f s).evtOuts = s.evtOuts ∧ (updSup f s).er = s.er ∧
    (updSup f s).sess = s.sess ∧ (updSup f s).host = s.host ∧ (updSup f s).otp = s.otp ∧ (updSup f s).frm = s.frm ∧
    (updSup f s).mem = s.mem ∧ (updSup f s).raised = s.raised ∧ (updSup f s).fresh = s.fresh ∧
    (updSup f s).pending = s.pending := by
  refine ⟨rfl, rfl, rfl, rfl, rfl, rfl, rfl, rfl, rfl, rfl, rfl, rfl, rfl, rfl, rfl, rfl, rfl, rfl, rfl, rfl, rfl,
    rfl, rfl, rfl, rfl, rfl, rfl, rfl, rfl, rfl⟩

/-- updRas changes ras alone. -/
@[simp] theorem updRas_keeps (f : Ras → Ras) (s : State) :
    (updRas f s).regs = s.regs ∧ (updRas f s).tb = s.tb ∧ (updRas f s).fm = s.fm ∧ (updRas f s).nv = s.nv ∧
    (updRas f s).sup = s.sup ∧ (updRas f s).rails = s.rails ∧ (updRas f s).chans = s.chans ∧
    (updRas f s).tlrefs = s.tlrefs ∧ (updRas f s).convs = s.convs ∧ (updRas f s).senses = s.senses ∧
    (updRas f s).comps = s.comps ∧ (updRas f s).wins = s.wins ∧ (updRas f s).ports = s.ports ∧
    (updRas f s).sbus = s.sbus ∧ (updRas f s).varips = s.varips ∧ (updRas f s).engines = s.engines ∧
    (updRas f s).binds = s.binds ∧ (updRas f s).evqs = s.evqs ∧ (updRas f s).timers = s.timers ∧
    (updRas f s).evtIns = s.evtIns ∧ (updRas f s).evtOuts = s.evtOuts ∧ (updRas f s).er = s.er ∧
    (updRas f s).sess = s.sess ∧ (updRas f s).host = s.host ∧ (updRas f s).otp = s.otp ∧ (updRas f s).frm = s.frm ∧
    (updRas f s).mem = s.mem ∧ (updRas f s).raised = s.raised ∧ (updRas f s).fresh = s.fresh ∧
    (updRas f s).pending = s.pending := by
  refine ⟨rfl, rfl, rfl, rfl, rfl, rfl, rfl, rfl, rfl, rfl, rfl, rfl, rfl, rfl, rfl, rfl, rfl, rfl, rfl, rfl, rfl,
    rfl, rfl, rfl, rfl, rfl, rfl, rfl, rfl, rfl⟩

/-- updNv changes nv alone. -/
@[simp] theorem updNv_keeps (f : Nvm → Nvm) (s : State) :
    (updNv f s).regs = s.regs ∧ (updNv f s).tb = s.tb ∧ (updNv f s).fm = s.fm ∧ (updNv f s).ras = s.ras ∧
    (updNv f s).sup = s.sup ∧ (updNv f s).rails = s.rails ∧ (updNv f s).chans = s.chans ∧
    (updNv f s).tlrefs = s.tlrefs ∧ (updNv f s).convs = s.convs ∧ (updNv f s).senses = s.senses ∧
    (updNv f s).comps = s.comps ∧ (updNv f s).wins = s.wins ∧ (updNv f s).ports = s.ports ∧
    (updNv f s).sbus = s.sbus ∧ (updNv f s).varips = s.varips ∧ (updNv f s).engines = s.engines ∧
    (updNv f s).binds = s.binds ∧ (updNv f s).evqs = s.evqs ∧ (updNv f s).timers = s.timers ∧
    (updNv f s).evtIns = s.evtIns ∧ (updNv f s).evtOuts = s.evtOuts ∧ (updNv f s).er = s.er ∧
    (updNv f s).sess = s.sess ∧ (updNv f s).host = s.host ∧ (updNv f s).otp = s.otp ∧ (updNv f s).frm = s.frm ∧
    (updNv f s).mem = s.mem ∧ (updNv f s).raised = s.raised ∧ (updNv f s).fresh = s.fresh ∧
    (updNv f s).pending = s.pending := by
  refine ⟨rfl, rfl, rfl, rfl, rfl, rfl, rfl, rfl, rfl, rfl, rfl, rfl, rfl, rfl, rfl, rfl, rfl, rfl, rfl, rfl, rfl,
    rfl, rfl, rfl, rfl, rfl, rfl, rfl, rfl, rfl⟩

/-- updHost changes host alone. -/
@[simp] theorem updHost_keeps (f : HostSide → HostSide) (s : State) :
    (updHost f s).regs = s.regs ∧ (updHost f s).tb = s.tb ∧ (updHost f s).fm = s.fm ∧ (updHost f s).ras = s.ras ∧
    (updHost f s).nv = s.nv ∧ (updHost f s).sup = s.sup ∧ (updHost f s).rails = s.rails ∧
    (updHost f s).chans = s.chans ∧ (updHost f s).tlrefs = s.tlrefs ∧ (updHost f s).convs = s.convs ∧
    (updHost f s).senses = s.senses ∧ (updHost f s).comps = s.comps ∧ (updHost f s).wins = s.wins ∧
    (updHost f s).ports = s.ports ∧ (updHost f s).sbus = s.sbus ∧ (updHost f s).varips = s.varips ∧
    (updHost f s).engines = s.engines ∧ (updHost f s).binds = s.binds ∧ (updHost f s).evqs = s.evqs ∧
    (updHost f s).timers = s.timers ∧ (updHost f s).evtIns = s.evtIns ∧ (updHost f s).evtOuts = s.evtOuts ∧
    (updHost f s).er = s.er ∧ (updHost f s).sess = s.sess ∧ (updHost f s).otp = s.otp ∧ (updHost f s).frm = s.frm ∧
    (updHost f s).mem = s.mem ∧ (updHost f s).raised = s.raised ∧ (updHost f s).fresh = s.fresh ∧
    (updHost f s).pending = s.pending := by
  refine ⟨rfl, rfl, rfl, rfl, rfl, rfl, rfl, rfl, rfl, rfl, rfl, rfl, rfl, rfl, rfl, rfl, rfl, rfl, rfl, rfl, rfl,
    rfl, rfl, rfl, rfl, rfl, rfl, rfl, rfl, rfl⟩

/-- updOtp changes otp alone. -/
@[simp] theorem updOtp_keeps (f : Otp → Otp) (s : State) :
    (updOtp f s).regs = s.regs ∧ (updOtp f s).tb = s.tb ∧ (updOtp f s).fm = s.fm ∧ (updOtp f s).ras = s.ras ∧
    (updOtp f s).nv = s.nv ∧ (updOtp f s).sup = s.sup ∧ (updOtp f s).rails = s.rails ∧
    (updOtp f s).chans = s.chans ∧ (updOtp f s).tlrefs = s.tlrefs ∧ (updOtp f s).convs = s.convs ∧
    (updOtp f s).senses = s.senses ∧ (updOtp f s).comps = s.comps ∧ (updOtp f s).wins = s.wins ∧
    (updOtp f s).ports = s.ports ∧ (updOtp f s).sbus = s.sbus ∧ (updOtp f s).varips = s.varips ∧
    (updOtp f s).engines = s.engines ∧ (updOtp f s).binds = s.binds ∧ (updOtp f s).evqs = s.evqs ∧
    (updOtp f s).timers = s.timers ∧ (updOtp f s).evtIns = s.evtIns ∧ (updOtp f s).evtOuts = s.evtOuts ∧
    (updOtp f s).er = s.er ∧ (updOtp f s).sess = s.sess ∧ (updOtp f s).host = s.host ∧ (updOtp f s).frm = s.frm ∧
    (updOtp f s).mem = s.mem ∧ (updOtp f s).raised = s.raised ∧ (updOtp f s).fresh = s.fresh ∧
    (updOtp f s).pending = s.pending := by
  refine ⟨rfl, rfl, rfl, rfl, rfl, rfl, rfl, rfl, rfl, rfl, rfl, rfl, rfl, rfl, rfl, rfl, rfl, rfl, rfl, rfl, rfl,
    rfl, rfl, rfl, rfl, rfl, rfl, rfl, rfl, rfl⟩

/-- updFrm changes frm alone. -/
@[simp] theorem updFrm_keeps (f : Foreman → Foreman) (s : State) :
    (updFrm f s).regs = s.regs ∧ (updFrm f s).tb = s.tb ∧ (updFrm f s).fm = s.fm ∧ (updFrm f s).ras = s.ras ∧
    (updFrm f s).nv = s.nv ∧ (updFrm f s).sup = s.sup ∧ (updFrm f s).rails = s.rails ∧
    (updFrm f s).chans = s.chans ∧ (updFrm f s).tlrefs = s.tlrefs ∧ (updFrm f s).convs = s.convs ∧
    (updFrm f s).senses = s.senses ∧ (updFrm f s).comps = s.comps ∧ (updFrm f s).wins = s.wins ∧
    (updFrm f s).ports = s.ports ∧ (updFrm f s).sbus = s.sbus ∧ (updFrm f s).varips = s.varips ∧
    (updFrm f s).engines = s.engines ∧ (updFrm f s).binds = s.binds ∧ (updFrm f s).evqs = s.evqs ∧
    (updFrm f s).timers = s.timers ∧ (updFrm f s).evtIns = s.evtIns ∧ (updFrm f s).evtOuts = s.evtOuts ∧
    (updFrm f s).er = s.er ∧ (updFrm f s).sess = s.sess ∧ (updFrm f s).host = s.host ∧ (updFrm f s).otp = s.otp ∧
    (updFrm f s).mem = s.mem ∧ (updFrm f s).raised = s.raised ∧ (updFrm f s).fresh = s.fresh ∧
    (updFrm f s).pending = s.pending := by
  refine ⟨rfl, rfl, rfl, rfl, rfl, rfl, rfl, rfl, rfl, rfl, rfl, rfl, rfl, rfl, rfl, rfl, rfl, rfl, rfl, rfl, rfl,
    rfl, rfl, rfl, rfl, rfl, rfl, rfl, rfl, rfl⟩

/-- updSess changes sess alone. -/
@[simp] theorem updSess_keeps (x : Nat) (f : Session → Session) (s : State) :
    (updSess x f s).regs = s.regs ∧ (updSess x f s).tb = s.tb ∧ (updSess x f s).fm = s.fm ∧
    (updSess x f s).ras = s.ras ∧ (updSess x f s).nv = s.nv ∧ (updSess x f s).sup = s.sup ∧
    (updSess x f s).rails = s.rails ∧ (updSess x f s).chans = s.chans ∧ (updSess x f s).tlrefs = s.tlrefs ∧
    (updSess x f s).convs = s.convs ∧ (updSess x f s).senses = s.senses ∧ (updSess x f s).comps = s.comps ∧
    (updSess x f s).wins = s.wins ∧ (updSess x f s).ports = s.ports ∧ (updSess x f s).sbus = s.sbus ∧
    (updSess x f s).varips = s.varips ∧ (updSess x f s).engines = s.engines ∧ (updSess x f s).binds = s.binds ∧
    (updSess x f s).evqs = s.evqs ∧ (updSess x f s).timers = s.timers ∧ (updSess x f s).evtIns = s.evtIns ∧
    (updSess x f s).evtOuts = s.evtOuts ∧ (updSess x f s).er = s.er ∧ (updSess x f s).host = s.host ∧
    (updSess x f s).otp = s.otp ∧ (updSess x f s).frm = s.frm ∧ (updSess x f s).mem = s.mem ∧
    (updSess x f s).raised = s.raised ∧ (updSess x f s).fresh = s.fresh ∧ (updSess x f s).pending = s.pending := by
  refine ⟨rfl, rfl, rfl, rfl, rfl, rfl, rfl, rfl, rfl, rfl, rfl, rfl, rfl, rfl, rfl, rfl, rfl, rfl, rfl, rfl, rfl,
    rfl, rfl, rfl, rfl, rfl, rfl, rfl, rfl, rfl⟩

/-- spend changes fresh alone. -/
@[simp] theorem spend_keeps  (s : State) :
    (spend  s).regs = s.regs ∧ (spend  s).tb = s.tb ∧ (spend  s).fm = s.fm ∧ (spend  s).ras = s.ras ∧
    (spend  s).nv = s.nv ∧ (spend  s).sup = s.sup ∧ (spend  s).rails = s.rails ∧ (spend  s).chans = s.chans ∧
    (spend  s).tlrefs = s.tlrefs ∧ (spend  s).convs = s.convs ∧ (spend  s).senses = s.senses ∧
    (spend  s).comps = s.comps ∧ (spend  s).wins = s.wins ∧ (spend  s).ports = s.ports ∧ (spend  s).sbus = s.sbus ∧
    (spend  s).varips = s.varips ∧ (spend  s).engines = s.engines ∧ (spend  s).binds = s.binds ∧
    (spend  s).evqs = s.evqs ∧ (spend  s).timers = s.timers ∧ (spend  s).evtIns = s.evtIns ∧
    (spend  s).evtOuts = s.evtOuts ∧ (spend  s).er = s.er ∧ (spend  s).sess = s.sess ∧ (spend  s).host = s.host ∧
    (spend  s).otp = s.otp ∧ (spend  s).frm = s.frm ∧ (spend  s).mem = s.mem ∧ (spend  s).raised = s.raised ∧
    (spend  s).pending = s.pending := by
  refine ⟨rfl, rfl, rfl, rfl, rfl, rfl, rfl, rfl, rfl, rfl, rfl, rfl, rfl, rfl, rfl, rfl, rfl, rfl, rfl, rfl, rfl,
    rfl, rfl, rfl, rfl, rfl, rfl, rfl, rfl, rfl⟩

/-- setFld changes regs alone. -/
@[simp] theorem setFld_keeps (a : Nat) (f : Bits) (v : Nat) (s : State) :
    (setFld a f v s).tb = s.tb ∧ (setFld a f v s).fm = s.fm ∧ (setFld a f v s).ras = s.ras ∧
    (setFld a f v s).nv = s.nv ∧ (setFld a f v s).sup = s.sup ∧ (setFld a f v s).rails = s.rails ∧
    (setFld a f v s).chans = s.chans ∧ (setFld a f v s).tlrefs = s.tlrefs ∧ (setFld a f v s).convs = s.convs ∧
    (setFld a f v s).senses = s.senses ∧ (setFld a f v s).comps = s.comps ∧ (setFld a f v s).wins = s.wins ∧
    (setFld a f v s).ports = s.ports ∧ (setFld a f v s).sbus = s.sbus ∧ (setFld a f v s).varips = s.varips ∧
    (setFld a f v s).engines = s.engines ∧ (setFld a f v s).binds = s.binds ∧ (setFld a f v s).evqs = s.evqs ∧
    (setFld a f v s).timers = s.timers ∧ (setFld a f v s).evtIns = s.evtIns ∧
    (setFld a f v s).evtOuts = s.evtOuts ∧ (setFld a f v s).er = s.er ∧ (setFld a f v s).sess = s.sess ∧
    (setFld a f v s).host = s.host ∧ (setFld a f v s).otp = s.otp ∧ (setFld a f v s).frm = s.frm ∧
    (setFld a f v s).mem = s.mem ∧ (setFld a f v s).raised = s.raised ∧ (setFld a f v s).fresh = s.fresh ∧
    (setFld a f v s).pending = s.pending := by
  refine ⟨rfl, rfl, rfl, rfl, rfl, rfl, rfl, rfl, rfl, rfl, rfl, rfl, rfl, rfl, rfl, rfl, rfl, rfl, rfl, rfl, rfl,
    rfl, rfl, rfl, rfl, rfl, rfl, rfl, rfl, rfl⟩

/-- setFlag changes regs alone. -/
@[simp] theorem setFlag_keeps (a : Nat) (f : Bits) (b : Bool) (s : State) :
    (setFlag a f b s).tb = s.tb ∧ (setFlag a f b s).fm = s.fm ∧ (setFlag a f b s).ras = s.ras ∧
    (setFlag a f b s).nv = s.nv ∧ (setFlag a f b s).sup = s.sup ∧ (setFlag a f b s).rails = s.rails ∧
    (setFlag a f b s).chans = s.chans ∧ (setFlag a f b s).tlrefs = s.tlrefs ∧ (setFlag a f b s).convs = s.convs ∧
    (setFlag a f b s).senses = s.senses ∧ (setFlag a f b s).comps = s.comps ∧ (setFlag a f b s).wins = s.wins ∧
    (setFlag a f b s).ports = s.ports ∧ (setFlag a f b s).sbus = s.sbus ∧ (setFlag a f b s).varips = s.varips ∧
    (setFlag a f b s).engines = s.engines ∧ (setFlag a f b s).binds = s.binds ∧ (setFlag a f b s).evqs = s.evqs ∧
    (setFlag a f b s).timers = s.timers ∧ (setFlag a f b s).evtIns = s.evtIns ∧
    (setFlag a f b s).evtOuts = s.evtOuts ∧ (setFlag a f b s).er = s.er ∧ (setFlag a f b s).sess = s.sess ∧
    (setFlag a f b s).host = s.host ∧ (setFlag a f b s).otp = s.otp ∧ (setFlag a f b s).frm = s.frm ∧
    (setFlag a f b s).mem = s.mem ∧ (setFlag a f b s).raised = s.raised ∧ (setFlag a f b s).fresh = s.fresh ∧
    (setFlag a f b s).pending = s.pending := by
  refine ⟨rfl, rfl, rfl, rfl, rfl, rfl, rfl, rfl, rfl, rfl, rfl, rfl, rfl, rfl, rfl, rfl, rfl, rfl, rfl, rfl, rfl,
    rfl, rfl, rfl, rfl, rfl, rfl, rfl, rfl, rfl⟩

/-- addFld changes regs alone. -/
@[simp] theorem addFld_keeps (a : Nat) (f : Bits) (n : Nat) (s : State) :
    (addFld a f n s).tb = s.tb ∧ (addFld a f n s).fm = s.fm ∧ (addFld a f n s).ras = s.ras ∧
    (addFld a f n s).nv = s.nv ∧ (addFld a f n s).sup = s.sup ∧ (addFld a f n s).rails = s.rails ∧
    (addFld a f n s).chans = s.chans ∧ (addFld a f n s).tlrefs = s.tlrefs ∧ (addFld a f n s).convs = s.convs ∧
    (addFld a f n s).senses = s.senses ∧ (addFld a f n s).comps = s.comps ∧ (addFld a f n s).wins = s.wins ∧
    (addFld a f n s).ports = s.ports ∧ (addFld a f n s).sbus = s.sbus ∧ (addFld a f n s).varips = s.varips ∧
    (addFld a f n s).engines = s.engines ∧ (addFld a f n s).binds = s.binds ∧ (addFld a f n s).evqs = s.evqs ∧
    (addFld a f n s).timers = s.timers ∧ (addFld a f n s).evtIns = s.evtIns ∧
    (addFld a f n s).evtOuts = s.evtOuts ∧ (addFld a f n s).er = s.er ∧ (addFld a f n s).sess = s.sess ∧
    (addFld a f n s).host = s.host ∧ (addFld a f n s).otp = s.otp ∧ (addFld a f n s).frm = s.frm ∧
    (addFld a f n s).mem = s.mem ∧ (addFld a f n s).raised = s.raised ∧ (addFld a f n s).fresh = s.fresh ∧
    (addFld a f n s).pending = s.pending := by
  refine ⟨rfl, rfl, rfl, rfl, rfl, rfl, rfl, rfl, rfl, rfl, rfl, rfl, rfl, rfl, rfl, rfl, rfl, rfl, rfl, rfl, rfl,
    rfl, rfl, rfl, rfl, rfl, rfl, rfl, rfl, rfl⟩

/-- incFld changes regs alone. -/
@[simp] theorem incFld_keeps (a : Nat) (f : Bits) (s : State) :
    (incFld a f s).tb = s.tb ∧ (incFld a f s).fm = s.fm ∧ (incFld a f s).ras = s.ras ∧ (incFld a f s).nv = s.nv ∧
    (incFld a f s).sup = s.sup ∧ (incFld a f s).rails = s.rails ∧ (incFld a f s).chans = s.chans ∧
    (incFld a f s).tlrefs = s.tlrefs ∧ (incFld a f s).convs = s.convs ∧ (incFld a f s).senses = s.senses ∧
    (incFld a f s).comps = s.comps ∧ (incFld a f s).wins = s.wins ∧ (incFld a f s).ports = s.ports ∧
    (incFld a f s).sbus = s.sbus ∧ (incFld a f s).varips = s.varips ∧ (incFld a f s).engines = s.engines ∧
    (incFld a f s).binds = s.binds ∧ (incFld a f s).evqs = s.evqs ∧ (incFld a f s).timers = s.timers ∧
    (incFld a f s).evtIns = s.evtIns ∧ (incFld a f s).evtOuts = s.evtOuts ∧ (incFld a f s).er = s.er ∧
    (incFld a f s).sess = s.sess ∧ (incFld a f s).host = s.host ∧ (incFld a f s).otp = s.otp ∧
    (incFld a f s).frm = s.frm ∧ (incFld a f s).mem = s.mem ∧ (incFld a f s).raised = s.raised ∧
    (incFld a f s).fresh = s.fresh ∧ (incFld a f s).pending = s.pending := by
  refine ⟨rfl, rfl, rfl, rfl, rfl, rfl, rfl, rfl, rfl, rfl, rfl, rfl, rfl, rfl, rfl, rfl, rfl, rfl, rfl, rfl, rfl,
    rfl, rfl, rfl, rfl, rfl, rfl, rfl, rfl, rfl⟩

/-- orWord changes regs alone. -/
@[simp] theorem orWord_keeps (a m : Nat) (s : State) :
    (orWord a m s).tb = s.tb ∧ (orWord a m s).fm = s.fm ∧ (orWord a m s).ras = s.ras ∧ (orWord a m s).nv = s.nv ∧
    (orWord a m s).sup = s.sup ∧ (orWord a m s).rails = s.rails ∧ (orWord a m s).chans = s.chans ∧
    (orWord a m s).tlrefs = s.tlrefs ∧ (orWord a m s).convs = s.convs ∧ (orWord a m s).senses = s.senses ∧
    (orWord a m s).comps = s.comps ∧ (orWord a m s).wins = s.wins ∧ (orWord a m s).ports = s.ports ∧
    (orWord a m s).sbus = s.sbus ∧ (orWord a m s).varips = s.varips ∧ (orWord a m s).engines = s.engines ∧
    (orWord a m s).binds = s.binds ∧ (orWord a m s).evqs = s.evqs ∧ (orWord a m s).timers = s.timers ∧
    (orWord a m s).evtIns = s.evtIns ∧ (orWord a m s).evtOuts = s.evtOuts ∧ (orWord a m s).er = s.er ∧
    (orWord a m s).sess = s.sess ∧ (orWord a m s).host = s.host ∧ (orWord a m s).otp = s.otp ∧
    (orWord a m s).frm = s.frm ∧ (orWord a m s).mem = s.mem ∧ (orWord a m s).raised = s.raised ∧
    (orWord a m s).fresh = s.fresh ∧ (orWord a m s).pending = s.pending := by
  refine ⟨rfl, rfl, rfl, rfl, rfl, rfl, rfl, rfl, rfl, rfl, rfl, rfl, rfl, rfl, rfl, rfl, rfl, rfl, rfl, rfl, rfl,
    rfl, rfl, rfl, rfl, rfl, rfl, rfl, rfl, rfl⟩

/-- clrWord changes regs alone. -/
@[simp] theorem clrWord_keeps (a m : Nat) (s : State) :
    (clrWord a m s).tb = s.tb ∧ (clrWord a m s).fm = s.fm ∧ (clrWord a m s).ras = s.ras ∧
    (clrWord a m s).nv = s.nv ∧ (clrWord a m s).sup = s.sup ∧ (clrWord a m s).rails = s.rails ∧
    (clrWord a m s).chans = s.chans ∧ (clrWord a m s).tlrefs = s.tlrefs ∧ (clrWord a m s).convs = s.convs ∧
    (clrWord a m s).senses = s.senses ∧ (clrWord a m s).comps = s.comps ∧ (clrWord a m s).wins = s.wins ∧
    (clrWord a m s).ports = s.ports ∧ (clrWord a m s).sbus = s.sbus ∧ (clrWord a m s).varips = s.varips ∧
    (clrWord a m s).engines = s.engines ∧ (clrWord a m s).binds = s.binds ∧ (clrWord a m s).evqs = s.evqs ∧
    (clrWord a m s).timers = s.timers ∧ (clrWord a m s).evtIns = s.evtIns ∧ (clrWord a m s).evtOuts = s.evtOuts ∧
    (clrWord a m s).er = s.er ∧ (clrWord a m s).sess = s.sess ∧ (clrWord a m s).host = s.host ∧
    (clrWord a m s).otp = s.otp ∧ (clrWord a m s).frm = s.frm ∧ (clrWord a m s).mem = s.mem ∧
    (clrWord a m s).raised = s.raised ∧ (clrWord a m s).fresh = s.fresh ∧ (clrWord a m s).pending = s.pending := by
  refine ⟨rfl, rfl, rfl, rfl, rfl, rfl, rfl, rfl, rfl, rfl, rfl, rfl, rfl, rfl, rfl, rfl, rfl, rfl, rfl, rfl, rfl,
    rfl, rfl, rfl, rfl, rfl, rfl, rfl, rfl, rfl⟩

/-- updRail changes rails alone. -/
@[simp] theorem updRail_keeps (r : Nat) (f : Rail → Rail) (s : State) :
    (updRail r f s).regs = s.regs ∧ (updRail r f s).tb = s.tb ∧ (updRail r f s).fm = s.fm ∧
    (updRail r f s).ras = s.ras ∧ (updRail r f s).nv = s.nv ∧ (updRail r f s).sup = s.sup ∧
    (updRail r f s).chans = s.chans ∧ (updRail r f s).tlrefs = s.tlrefs ∧ (updRail r f s).convs = s.convs ∧
    (updRail r f s).senses = s.senses ∧ (updRail r f s).comps = s.comps ∧ (updRail r f s).wins = s.wins ∧
    (updRail r f s).ports = s.ports ∧ (updRail r f s).sbus = s.sbus ∧ (updRail r f s).varips = s.varips ∧
    (updRail r f s).engines = s.engines ∧ (updRail r f s).binds = s.binds ∧ (updRail r f s).evqs = s.evqs ∧
    (updRail r f s).timers = s.timers ∧ (updRail r f s).evtIns = s.evtIns ∧ (updRail r f s).evtOuts = s.evtOuts ∧
    (updRail r f s).er = s.er ∧ (updRail r f s).sess = s.sess ∧ (updRail r f s).host = s.host ∧
    (updRail r f s).otp = s.otp ∧ (updRail r f s).frm = s.frm ∧ (updRail r f s).mem = s.mem ∧
    (updRail r f s).raised = s.raised ∧ (updRail r f s).fresh = s.fresh ∧ (updRail r f s).pending = s.pending := by
  refine ⟨rfl, rfl, rfl, rfl, rfl, rfl, rfl, rfl, rfl, rfl, rfl, rfl, rfl, rfl, rfl, rfl, rfl, rfl, rfl, rfl, rfl,
    rfl, rfl, rfl, rfl, rfl, rfl, rfl, rfl, rfl⟩

/-- updChan changes chans alone. -/
@[simp] theorem updChan_keeps (n : Nat) (f : Chan → Chan) (s : State) :
    (updChan n f s).regs = s.regs ∧ (updChan n f s).tb = s.tb ∧ (updChan n f s).fm = s.fm ∧
    (updChan n f s).ras = s.ras ∧ (updChan n f s).nv = s.nv ∧ (updChan n f s).sup = s.sup ∧
    (updChan n f s).rails = s.rails ∧ (updChan n f s).tlrefs = s.tlrefs ∧ (updChan n f s).convs = s.convs ∧
    (updChan n f s).senses = s.senses ∧ (updChan n f s).comps = s.comps ∧ (updChan n f s).wins = s.wins ∧
    (updChan n f s).ports = s.ports ∧ (updChan n f s).sbus = s.sbus ∧ (updChan n f s).varips = s.varips ∧
    (updChan n f s).engines = s.engines ∧ (updChan n f s).binds = s.binds ∧ (updChan n f s).evqs = s.evqs ∧
    (updChan n f s).timers = s.timers ∧ (updChan n f s).evtIns = s.evtIns ∧ (updChan n f s).evtOuts = s.evtOuts ∧
    (updChan n f s).er = s.er ∧ (updChan n f s).sess = s.sess ∧ (updChan n f s).host = s.host ∧
    (updChan n f s).otp = s.otp ∧ (updChan n f s).frm = s.frm ∧ (updChan n f s).mem = s.mem ∧
    (updChan n f s).raised = s.raised ∧ (updChan n f s).fresh = s.fresh ∧ (updChan n f s).pending = s.pending := by
  refine ⟨rfl, rfl, rfl, rfl, rfl, rfl, rfl, rfl, rfl, rfl, rfl, rfl, rfl, rfl, rfl, rfl, rfl, rfl, rfl, rfl, rfl,
    rfl, rfl, rfl, rfl, rfl, rfl, rfl, rfl, rfl⟩

/-- updConv changes convs alone. -/
@[simp] theorem updConv_keeps (c : Nat) (f : Conv → Conv) (s : State) :
    (updConv c f s).regs = s.regs ∧ (updConv c f s).tb = s.tb ∧ (updConv c f s).fm = s.fm ∧
    (updConv c f s).ras = s.ras ∧ (updConv c f s).nv = s.nv ∧ (updConv c f s).sup = s.sup ∧
    (updConv c f s).rails = s.rails ∧ (updConv c f s).chans = s.chans ∧ (updConv c f s).tlrefs = s.tlrefs ∧
    (updConv c f s).senses = s.senses ∧ (updConv c f s).comps = s.comps ∧ (updConv c f s).wins = s.wins ∧
    (updConv c f s).ports = s.ports ∧ (updConv c f s).sbus = s.sbus ∧ (updConv c f s).varips = s.varips ∧
    (updConv c f s).engines = s.engines ∧ (updConv c f s).binds = s.binds ∧ (updConv c f s).evqs = s.evqs ∧
    (updConv c f s).timers = s.timers ∧ (updConv c f s).evtIns = s.evtIns ∧ (updConv c f s).evtOuts = s.evtOuts ∧
    (updConv c f s).er = s.er ∧ (updConv c f s).sess = s.sess ∧ (updConv c f s).host = s.host ∧
    (updConv c f s).otp = s.otp ∧ (updConv c f s).frm = s.frm ∧ (updConv c f s).mem = s.mem ∧
    (updConv c f s).raised = s.raised ∧ (updConv c f s).fresh = s.fresh ∧ (updConv c f s).pending = s.pending := by
  refine ⟨rfl, rfl, rfl, rfl, rfl, rfl, rfl, rfl, rfl, rfl, rfl, rfl, rfl, rfl, rfl, rfl, rfl, rfl, rfl, rfl, rfl,
    rfl, rfl, rfl, rfl, rfl, rfl, rfl, rfl, rfl⟩

/-- enterMode changes regs alone. -/
@[simp] theorem enterMode_keeps (m : Nat) (s : State) :
    (enterMode m s).tb = s.tb ∧ (enterMode m s).fm = s.fm ∧ (enterMode m s).ras = s.ras ∧
    (enterMode m s).nv = s.nv ∧ (enterMode m s).sup = s.sup ∧ (enterMode m s).rails = s.rails ∧
    (enterMode m s).chans = s.chans ∧ (enterMode m s).tlrefs = s.tlrefs ∧ (enterMode m s).convs = s.convs ∧
    (enterMode m s).senses = s.senses ∧ (enterMode m s).comps = s.comps ∧ (enterMode m s).wins = s.wins ∧
    (enterMode m s).ports = s.ports ∧ (enterMode m s).sbus = s.sbus ∧ (enterMode m s).varips = s.varips ∧
    (enterMode m s).engines = s.engines ∧ (enterMode m s).binds = s.binds ∧ (enterMode m s).evqs = s.evqs ∧
    (enterMode m s).timers = s.timers ∧ (enterMode m s).evtIns = s.evtIns ∧ (enterMode m s).evtOuts = s.evtOuts ∧
    (enterMode m s).er = s.er ∧ (enterMode m s).sess = s.sess ∧ (enterMode m s).host = s.host ∧
    (enterMode m s).otp = s.otp ∧ (enterMode m s).frm = s.frm ∧ (enterMode m s).mem = s.mem ∧
    (enterMode m s).raised = s.raised ∧ (enterMode m s).fresh = s.fresh ∧ (enterMode m s).pending = s.pending := by
  refine ⟨rfl, rfl, rfl, rfl, rfl, rfl, rfl, rfl, rfl, rfl, rfl, rfl, rfl, rfl, rfl, rfl, rfl, rfl, rfl, rfl, rfl,
    rfl, rfl, rfl, rfl, rfl, rfl, rfl, rfl, rfl⟩

end Sys2Proof.Machine
end

