-- ==== Sys2Proof/Laws/Regs.lean ====
section
/-! SUPPORT. What a read of a table, a register or a field gives after a write of one: the laws every later proof about
registers rests on. -/

namespace Sys2Proof.Machine

/-! ## Tables -/

theorem tget_tdel {α : Type} (d : Nat → α) (t : Tab α) (k j : Nat) :
    tget d (tdel t k) j = if j = k then d k else tget d t j := by
  induction t with
  | nil => simp only [tdel, tget]; split <;> simp_all
  | cons e t ih =>
    obtain ⟨i, v⟩ := e
    simp only [tdel]
    by_cases h : i = k
    · rw [if_pos h, ih]
      by_cases hj : j = k
      · simp [hj]
      · have hk : ¬ k = j := fun e => hj e.symm
        simp [tget, hj, h, hk]
    · rw [if_neg h]
      simp only [tget, ih]
      by_cases hj : j = k
      · have : ¬ i = j := fun x => h (x.trans hj)
        simp [hj, h]
      · simp [hj]

theorem tget_tins_ne {α : Type} (d : Nat → α) (t : Tab α) (k j : Nat) (x : α) (h : j ≠ k) :
    tget d (tins t k x) j = tget d t j := by
  have hk : ¬ k = j := fun e => h e.symm
  induction t with
  | nil => simp [tins, tget, hk]
  | cons e t ih =>
    obtain ⟨i, v⟩ := e
    simp only [tins]
    split
    · simp [tget, hk]
    · simp only [tget, ih]

theorem tget_tins_eq {α : Type} (d : Nat → α) (t : Tab α) (k : Nat) (x : α) (h : ∀ e ∈ t, e.1 ≠ k) :
    tget d (tins t k x) k = x := by
  induction t with
  | nil => simp [tins, tget]
  | cons e t ih =>
    obtain ⟨i, v⟩ := e
    have hi : ¬ i = k := h (i, v) (by simp)
    simp only [tins]
    split
    · simp [tget]
    · simp only [tget, if_neg hi]
      exact ih fun e he => h e (by simp [he])

theorem tdel_key_ne {α : Type} {t : Tab α} {k : Nat} : ∀ e ∈ tdel t k, e.1 ≠ k := by
  induction t with
  | nil => simp [tdel]
  | cons e t ih =>
    obtain ⟨i, v⟩ := e
    unfold tdel
    split
    · exact ih
    · intro e he
      simp only [List.mem_cons] at he
      rcases he with rfl | he
      · assumption
      · exact ih e he

/-- A table read after one of its entries is set. -/
theorem tget_tset {α : Type} [DecidableEq α] (d : Nat → α) (t : Tab α) (k : Nat) (x : α) (j : Nat) :
    tget d (tset d t k x) j = if j = k then x else tget d t j := by
  unfold tset
  split
  · rename_i h
    rw [tget_tdel]
    split <;> simp_all
  · by_cases hj : j = k
    · rw [if_pos hj, hj, tget_tins_eq _ _ _ _ tdel_key_ne]
    · rw [if_neg hj, tget_tins_ne _ _ _ _ _ hj, tget_tdel, if_neg hj]

@[simp] theorem tget_tset_self {α : Type} [DecidableEq α] (d : Nat → α) (t : Tab α) (k : Nat) (x : α) :
    tget d (tset d t k x) k = x := by simp [tget_tset]

/-! ## Fields of a word -/

theorem putBits_lt (w v n : Nat) (f : Bits) (hw : w < 2 ^ n) (h : f.lo ≤ f.hi) (hn : f.hi < n) :
    putBits w f v < 2 ^ n := by
  unfold putBits
  have e1 : 2 ^ f.lo * 2 ^ (f.hi - f.lo + 1) = 2 ^ (f.hi + 1) := by rw [← Nat.pow_add]; congr 1; omega
  have e2 : 2 ^ (f.hi + 1) * 2 ^ (n - f.hi - 1) = 2 ^ n := by rw [← Nat.pow_add]; congr 1; omega
  have p1 : 0 < 2 ^ f.lo := Nat.two_pow_pos _
  have p2 : 0 < 2 ^ (f.hi - f.lo + 1) := Nat.two_pow_pos _
  have a1 : w % 2 ^ f.lo < 2 ^ f.lo := Nat.mod_lt _ p1
  have a2 : v % 2 ^ (f.hi - f.lo + 1) + 1 ≤ 2 ^ (f.hi - f.lo + 1) := Nat.mod_lt _ p2
  have a3 : w / 2 ^ (f.hi + 1) + 1 ≤ 2 ^ (n - f.hi - 1) :=
    (Nat.div_lt_iff_lt_mul (Nat.two_pow_pos _)).mpr (by rw [Nat.mul_comm, e2]; exact hw)
  have b2 := Nat.mul_le_mul_left (2 ^ f.lo) a2
  have b3 := Nat.mul_le_mul_left (2 ^ (f.hi + 1)) a3
  rw [e1] at b2
  rw [e2] at b3
  rw [Nat.mul_add] at b2 b3
  omega

/-- A field read after a write of the same field. -/
theorem getBits_putBits (w v : Nat) (f : Bits) (h : f.lo ≤ f.hi) :
    getBits (putBits w f v) f = v % 2 ^ (f.hi - f.lo + 1) := by
  unfold getBits putBits
  have e1 : 2 ^ (f.hi + 1) = 2 ^ f.lo * 2 ^ (f.hi - f.lo + 1) := by rw [← Nat.pow_add]; congr 1; omega
  have p1 : 0 < 2 ^ f.lo := Nat.two_pow_pos _
  rw [e1, Nat.mul_assoc, Nat.add_assoc, ← Nat.mul_add, Nat.add_mul_div_left _ _ p1,
    Nat.div_eq_of_lt (Nat.mod_lt _ p1), Nat.zero_add, Nat.add_mul_mod_self_left, Nat.mod_mod]

theorem putBits_div (w v : Nat) (f : Bits) (h : f.lo ≤ f.hi) :
    putBits w f v / 2 ^ (f.hi + 1) = w / 2 ^ (f.hi + 1) := by
  unfold putBits
  have e1 : 2 ^ f.lo * 2 ^ (f.hi - f.lo + 1) = 2 ^ (f.hi + 1) := by rw [← Nat.pow_add]; congr 1; omega
  have p0 : 0 < 2 ^ (f.hi + 1) := Nat.two_pow_pos _
  have a1 : w % 2 ^ f.lo < 2 ^ f.lo := Nat.mod_lt _ (Nat.two_pow_pos _)
  have a2 : v % 2 ^ (f.hi - f.lo + 1) + 1 ≤ 2 ^ (f.hi - f.lo + 1) := Nat.mod_lt _ (Nat.two_pow_pos _)
  have b2 := Nat.mul_le_mul_left (2 ^ f.lo) a2
  rw [e1, Nat.mul_add] at b2
  rw [Nat.add_mul_div_left _ _ p0, Nat.div_eq_of_lt (by omega), Nat.zero_add]

theorem putBits_mod (w v : Nat) (f : Bits) (h : f.lo ≤ f.hi) : putBits w f v % 2 ^ f.lo = w % 2 ^ f.lo := by
  unfold putBits
  have e1 : 2 ^ (f.hi + 1) = 2 ^ f.lo * 2 ^ (f.hi - f.lo + 1) := by rw [← Nat.pow_add]; congr 1; omega
  rw [e1, Nat.mul_assoc, Nat.add_assoc, ← Nat.mul_add, Nat.add_mul_mod_self_left, Nat.mod_mod]

/-- A field read after a write of a field that shares no bit with it. -/
theorem getBits_putBits_ne (w v : Nat) (f g : Bits) (h : f.lo ≤ f.hi) (hg : g.lo ≤ g.hi)
    (d : g.hi < f.lo ∨ f.hi < g.lo) : getBits (putBits w f v) g = getBits w g := by
  unfold getBits
  rcases d with d | d
  · have e : 2 ^ g.lo * 2 ^ (g.hi - g.lo + 1) = 2 ^ (g.hi + 1) := by rw [← Nat.pow_add]; congr 1; omega
    have k : ∀ x, x % 2 ^ f.lo % 2 ^ (g.hi + 1) = x % 2 ^ (g.hi + 1) := fun x =>
      Nat.mod_mod_of_dvd x (Nat.pow_dvd_pow 2 (by omega))
    rw [← Nat.mod_mul_right_div_self, ← Nat.mod_mul_right_div_self, e, ← k (putBits w f v), putBits_mod w v f h, k]
  · have e : 2 ^ g.lo = 2 ^ (f.hi + 1) * 2 ^ (g.lo - (f.hi + 1)) := by rw [← Nat.pow_add]; congr 1; omega
    rw [e, ← Nat.div_div_eq_div_mul, ← Nat.div_div_eq_div_mul, putBits_div w v f h]

/-! ## Registers -/

theorem rd_lt (s : State) (a : Nat) : rd s a < 2 ^ 32 := (tget regReset s.regs a).isLt

/-- A register read after a write of one. -/
theorem rd_wr (a v : Nat) (s : State) (b : Nat) : rd (wr a v s) b = if b = a then v % 2 ^ 32 else rd s b := by
  unfold rd wr
  rw [tget_tset]
  split <;> simp

@[simp] theorem rd_wr_self (a v : Nat) (s : State) : rd (wr a v s) a = v % 2 ^ 32 := by simp [rd_wr]

theorem rd_wr_ne (a v : Nat) (s : State) (b : Nat) (h : b ≠ a) : rd (wr a v s) b = rd s b := by simp [rd_wr, h]

theorem rd_setFld_ne (a : Nat) (f : Bits) (v : Nat) (s : State) (b : Nat) (h : b ≠ a) :
    rd (setFld a f v s) b = rd s b := rd_wr_ne _ _ _ _ h

theorem fld_wr_ne (a v : Nat) (s : State) (b : Nat) (g : Bits) (h : b ≠ a) : fld (wr a v s) b g = fld s b g := by
  simp [fld, rd_wr_ne, h]

/-- A field read after a write of the same field. -/
theorem fld_setFld_self (a : Nat) (f : Bits) (v : Nat) (s : State) (h : f.lo ≤ f.hi) (hn : f.hi < 32) :
    fld (setFld a f v s) a f = v % 2 ^ (f.hi - f.lo + 1) := by
  unfold fld setFld
  rw [rd_wr_self, Nat.mod_eq_of_lt (putBits_lt _ _ _ _ (rd_lt _ _) h hn), getBits_putBits _ _ _ h]

theorem fld_setFld_ne (a : Nat) (f : Bits) (v : Nat) (s : State) (b : Nat) (g : Bits) (h : b ≠ a) :
    fld (setFld a f v s) b g = fld s b g := fld_wr_ne _ _ _ _ _ h

/-- A field read after a write of another field of its register. -/
theorem fld_setFld_other (a : Nat) (f g : Bits) (v : Nat) (s : State) (h : f.lo ≤ f.hi) (hn : f.hi < 32)
    (hg : g.lo ≤ g.hi) (d : g.hi < f.lo ∨ f.hi < g.lo) : fld (setFld a f v s) a g = fld s a g := by
  unfold fld setFld
  rw [rd_wr_self, Nat.mod_eq_of_lt (putBits_lt _ _ _ _ (rd_lt _ _) h hn), getBits_putBits_ne _ _ _ _ h hg d]

/-- A flag read after it is set. -/
theorem flag_setFlag_self (a : Nat) (f : Bits) (b : Bool) (s : State) (h : f.lo ≤ f.hi) (hn : f.hi < 32) :
    flag (setFlag a f b s) a f = b := by
  unfold flag setFlag
  rw [fld_setFld_self _ _ _ _ h hn]
  have : 2 ≤ 2 ^ (f.hi - f.lo + 1) := by
    have := Nat.pow_le_pow_right (n := 2) (by omega) (show 1 ≤ f.hi - f.lo + 1 by omega)
    simpa using this
  cases b
  · simp [b2n]
  · simp [b2n, Nat.mod_eq_of_lt (show 1 < 2 ^ (f.hi - f.lo + 1) by omega)]

/-! ## Units -/

theorem railOf_updRail (k : Nat) (f : Rail → Rail) (s : State) (j : Nat) :
    railOf (updRail k f s) j = if j = k then f (railOf s k) else railOf s j := tget_tset _ _ _ _ _

theorem chanOf_updChan (k : Nat) (f : Chan → Chan) (s : State) (j : Nat) :
    chanOf (updChan k f s) j = if j = k then f (chanOf s k) else chanOf s j := tget_tset _ _ _ _ _

theorem convOf_updConv (k : Nat) (f : Conv → Conv) (s : State) (j : Nat) :
    convOf (updConv k f s) j = if j = k then f (convOf s k) else convOf s j := tget_tset _ _ _ _ _

theorem senseOf_updSense (k : Nat) (f : Sense → Sense) (s : State) (j : Nat) :
    senseOf (updSense k f s) j = if j = k then f (senseOf s k) else senseOf s j := tget_tset _ _ _ _ _

theorem compOf_updComp (k : Nat) (f : Comp → Comp) (s : State) (j : Nat) :
    compOf (updComp k f s) j = if j = k then f (compOf s k) else compOf s j := tget_tset _ _ _ _ _

theorem winOf_updWin (k : Nat) (f : Window → Window) (s : State) (j : Nat) :
    winOf (updWin k f s) j = if j = k then f (winOf s k) else winOf s j := tget_tset _ _ _ _ _

theorem portOf_updPort (k : Nat) (f : Port → Port) (s : State) (j : Nat) :
    portOf (updPort k f s) j = if j = k then f (portOf s k) else portOf s j := tget_tset _ _ _ _ _

theorem sbusOf_updSbus (k : Nat) (f : Sbus → Sbus) (s : State) (j : Nat) :
    sbusOf (updSbus k f s) j = if j = k then f (sbusOf s k) else sbusOf s j := tget_tset _ _ _ _ _

theorem varipOf_updVarip (k : Nat) (f : Varip → Varip) (s : State) (j : Nat) :
    varipOf (updVarip k f s) j = if j = k then f (varipOf s k) else varipOf s j := tget_tset _ _ _ _ _

theorem engOf_updEng (k : Nat) (f : Engine → Engine) (s : State) (j : Nat) :
    engOf (updEng k f s) j = if j = k then f (engOf s k) else engOf s j := tget_tset _ _ _ _ _

theorem sessOf_updSess (k : Nat) (f : Session → Session) (s : State) (j : Nat) :
    sessOf (updSess k f s) j = if j = k then f (sessOf s k) else sessOf s j := tget_tset _ _ _ _ _

@[simp] theorem bindOf_updBind (q k : Nat) (f : Binding → Binding) (s : State) :
    bindOf (updBind q k f s) q k = f (bindOf s q k) := tget_tset_self _ _ _ _

@[simp] theorem timerOf_updTimer (q k : Nat) (f : Timer → Timer) (s : State) :
    timerOf (updTimer q k f s) q k = f (timerOf s q k) := tget_tset_self _ _ _ _

@[simp] theorem evtInOf_updEvtIn (q k : Nat) (f : EvtIn → EvtIn) (s : State) :
    evtInOf (updEvtIn q k f s) q k = f (evtInOf s q k) := tget_tset_self _ _ _ _

@[simp] theorem evtOutOf_updEvtOut (q k : Nat) (f : EvtOut → EvtOut) (s : State) :
    evtOutOf (updEvtOut q k f s) q k = f (evtOutOf s q k) := tget_tset_self _ _ _ _

/-! ## Registers under the updates of units -/

@[simp] theorem rd_updSense (q : Nat) (f : Sense → Sense) (s : State) (y : Nat) : rd (updSense q f s) y = rd s y := rfl
@[simp] theorem fld_updSense (q : Nat) (f : Sense → Sense) (s : State) (y : Nat)
    (g : Bits) : fld (updSense q f s) y g = fld s y g := rfl

@[simp] theorem rd_updComp (w : Nat) (f : Comp → Comp) (s : State) (y : Nat) : rd (updComp w f s) y = rd s y := rfl
@[simp] theorem fld_updComp (w : Nat) (f : Comp → Comp) (s : State) (y : Nat)
    (g : Bits) : fld (updComp w f s) y g = fld s y g := rfl

@[simp] theorem rd_updWin (n : Nat) (f : Window → Window) (s : State) (y : Nat) : rd (updWin n f s) y = rd s y := rfl
@[simp] theorem fld_updWin (n : Nat) (f : Window → Window) (s : State) (y : Nat)
    (g : Bits) : fld (updWin n f s) y g = fld s y g := rfl

@[simp] theorem rd_updPort (n : Nat) (f : Port → Port) (s : State) (y : Nat) : rd (updPort n f s) y = rd s y := rfl
@[simp] theorem fld_updPort (n : Nat) (f : Port → Port) (s : State) (y : Nat)
    (g : Bits) : fld (updPort n f s) y g = fld s y g := rfl

@[simp] theorem rd_updSbus (q : Nat) (f : Sbus → Sbus) (s : State) (y : Nat) : rd (updSbus q f s) y = rd s y := rfl
@[simp] theorem fld_updSbus (q : Nat) (f : Sbus → Sbus) (s : State) (y : Nat)
    (g : Bits) : fld (updSbus q f s) y g = fld s y g := rfl

@[simp] theorem rd_updVarip (v : Nat) (f : Varip → Varip) (s : State) (y : Nat) : rd (updVarip v f s) y = rd s y := rfl
@[simp] theorem fld_updVarip (v : Nat) (f : Varip → Varip) (s : State) (y : Nat)
    (g : Bits) : fld (updVarip v f s) y g = fld s y g := rfl

@[simp] theorem rd_updEng (e : Nat) (f : Engine → Engine) (s : State) (y : Nat) : rd (updEng e f s) y = rd s y := rfl
@[simp] theorem fld_updEng (e : Nat) (f : Engine → Engine) (s : State) (y : Nat)
    (g : Bits) : fld (updEng e f s) y g = fld s y g := rfl

@[simp] theorem rd_updBind (q b : Nat) (f : Binding → Binding) (s : State)
    (y : Nat) : rd (updBind q b f s) y = rd s y := rfl
@[simp] theorem fld_updBind (q b : Nat) (f : Binding → Binding) (s : State) (y : Nat)
    (g : Bits) : fld (updBind q b f s) y g = fld s y g := rfl

@[simp] theorem rd_updTimer (q m : Nat) (f : Timer → Timer) (s : State) (y : Nat) : rd (updTimer q m f s) y = rd s y :=
  rfl
@[simp] theorem fld_updTimer (q m : Nat) (f : Timer → Timer) (s : State) (y : Nat)
    (g : Bits) : fld (updTimer q m f s) y g = fld s y g := rfl

@[simp] theorem rd_updEvtIn (q x : Nat) (f : EvtIn → EvtIn) (s : State) (y : Nat) : rd (updEvtIn q x f s) y = rd s y :=
  rfl
@[simp] theorem fld_updEvtIn (q x : Nat) (f : EvtIn → EvtIn) (s : State) (y : Nat)
    (g : Bits) : fld (updEvtIn q x f s) y g = fld s y g := rfl

@[simp] theorem rd_updEvtOut (q o : Nat) (f : EvtOut → EvtOut) (s : State)
    (y : Nat) : rd (updEvtOut q o f s) y = rd s y := rfl
@[simp] theorem fld_updEvtOut (q o : Nat) (f : EvtOut → EvtOut) (s : State) (y : Nat)
    (g : Bits) : fld (updEvtOut q o f s) y g = fld s y g := rfl

@[simp] theorem rd_updEr (f : Recorder → Recorder) (s : State) (y : Nat) : rd (updEr f s) y = rd s y := rfl
@[simp] theorem fld_updEr (f : Recorder → Recorder) (s : State) (y : Nat)
    (g : Bits) : fld (updEr f s) y g = fld s y g := rfl

@[simp] theorem rd_updTb (f : TimeBase → TimeBase) (s : State) (y : Nat) : rd (updTb f s) y = rd s y := rfl
@[simp] theorem fld_updTb (f : TimeBase → TimeBase) (s : State) (y : Nat)
    (g : Bits) : fld (updTb f s) y g = fld s y g := rfl

@[simp] theorem rd_updFm (f : FaultMgr → FaultMgr) (s : State) (y : Nat) : rd (updFm f s) y = rd s y := rfl
@[simp] theorem fld_updFm (f : FaultMgr → FaultMgr) (s : State) (y : Nat)
    (g : Bits) : fld (updFm f s) y g = fld s y g := rfl

@[simp] theorem rd_updSup (f : Supply → Supply) (s : State) (y : Nat) : rd (updSup f s) y = rd s y := rfl
@[simp] theorem fld_updSup (f : Supply → Supply) (s : State) (y : Nat) (g : Bits) : fld (updSup f s) y g = fld s y g :=
  rfl

@[simp] theorem rd_updRas (f : Ras → Ras) (s : State) (y : Nat) : rd (updRas f s) y = rd s y := rfl
@[simp] theorem fld_updRas (f : Ras → Ras) (s : State) (y : Nat) (g : Bits) : fld (updRas f s) y g = fld s y g := rfl

@[simp] theorem rd_updNv (f : Nvm → Nvm) (s : State) (y : Nat) : rd (updNv f s) y = rd s y := rfl
@[simp] theorem fld_updNv (f : Nvm → Nvm) (s : State) (y : Nat) (g : Bits) : fld (updNv f s) y g = fld s y g := rfl

@[simp] theorem rd_updHost (f : HostSide → HostSide) (s : State) (y : Nat) : rd (updHost f s) y = rd s y := rfl
@[simp] theorem fld_updHost (f : HostSide → HostSide) (s : State) (y : Nat)
    (g : Bits) : fld (updHost f s) y g = fld s y g := rfl

@[simp] theorem rd_updOtp (f : Otp → Otp) (s : State) (y : Nat) : rd (updOtp f s) y = rd s y := rfl
@[simp] theorem fld_updOtp (f : Otp → Otp) (s : State) (y : Nat) (g : Bits) : fld (updOtp f s) y g = fld s y g := rfl

@[simp] theorem rd_updFrm (f : Foreman → Foreman) (s : State) (y : Nat) : rd (updFrm f s) y = rd s y := rfl
@[simp] theorem fld_updFrm (f : Foreman → Foreman) (s : State) (y : Nat)
    (g : Bits) : fld (updFrm f s) y g = fld s y g := rfl

@[simp] theorem rd_updSess (x : Nat) (f : Session → Session) (s : State) (y : Nat) : rd (updSess x f s) y = rd s y :=
  rfl
@[simp] theorem fld_updSess (x : Nat) (f : Session → Session) (s : State) (y : Nat)
    (g : Bits) : fld (updSess x f s) y g = fld s y g := rfl

@[simp] theorem rd_spend (s : State) (y : Nat) : rd (spend s) y = rd s y := rfl
@[simp] theorem fld_spend (s : State) (y : Nat) (g : Bits) : fld (spend s) y g = fld s y g := rfl

@[simp] theorem rd_updRail (r : Nat) (f : Rail → Rail) (s : State) (y : Nat) : rd (updRail r f s) y = rd s y := rfl
@[simp] theorem fld_updRail (r : Nat) (f : Rail → Rail) (s : State) (y : Nat)
    (g : Bits) : fld (updRail r f s) y g = fld s y g := rfl

@[simp] theorem rd_updChan (n : Nat) (f : Chan → Chan) (s : State) (y : Nat) : rd (updChan n f s) y = rd s y := rfl
@[simp] theorem fld_updChan (n : Nat) (f : Chan → Chan) (s : State) (y : Nat)
    (g : Bits) : fld (updChan n f s) y g = fld s y g := rfl

@[simp] theorem rd_updConv (c : Nat) (f : Conv → Conv) (s : State) (y : Nat) : rd (updConv c f s) y = rd s y := rfl
@[simp] theorem fld_updConv (c : Nat) (f : Conv → Conv) (s : State) (y : Nat)
    (g : Bits) : fld (updConv c f s) y g = fld s y g := rfl

end Sys2Proof.Machine
end

