-- ==== Sys2Proof/Laws/Canon.lean ====
section
/-! SUPPORT. The canonical form of a table, and the sound states: what every operation keeps of the memory, the pins,
the fuses and the queue. -/

namespace Sys2Proof.Machine

theorem tdel_all {α : Type} {t : Tab α} {P : Nat × α → Bool} {k : Nat} (h : t.all P = true) :
    (tdel t k).all P = true := by
  induction t with
  | nil => rfl
  | cons e t ih =>
    obtain ⟨i, v⟩ := e
    simp only [List.all_cons, Bool.and_eq_true] at h
    unfold tdel
    split
    · exact ih h.2
    · simp [h.1, ih h.2]

theorem tdel_canon {α : Type} [DecidableEq α] {d : Nat → α} {t : Tab α} (k : Nat) (h : tcanon d t = true) :
    tcanon d (tdel t k) = true := by
  induction t with
  | nil => rfl
  | cons e t ih =>
    obtain ⟨i, v⟩ := e
    simp only [tcanon, Bool.and_eq_true] at h
    unfold tdel
    split
    · exact ih h.2
    · simp only [tcanon, Bool.and_eq_true]
      exact ⟨⟨h.1.1, tdel_all h.1.2⟩, ih h.2⟩

theorem tins_all {α : Type} {t : Tab α} {P : Nat × α → Bool} {k : Nat} {x : α} (h : t.all P = true)
    (hx : P (k, x) = true) :
    (tins t k x).all P = true := by
  induction t with
  | nil => simp [tins, hx]
  | cons e t ih =>
    obtain ⟨i, v⟩ := e
    simp only [List.all_cons, Bool.and_eq_true] at h
    unfold tins
    split
    · simp [hx, h.1, h.2]
    · simp [h.1, ih h.2]

theorem tins_canon {α : Type} [DecidableEq α] {d : Nat → α} {t : Tab α} {k : Nat} {x : α} (h : tcanon d t = true)
    (hk : ∀ e ∈ t, e.1 ≠ k) (hx : x ≠ d k) :
    tcanon d (tins t k x) = true := by
  induction t with
  | nil => simp [tins, tcanon, hx]
  | cons e t ih =>
    obtain ⟨i, v⟩ := e
    have h' := h
    simp only [tcanon, Bool.and_eq_true] at h
    have hne : i ≠ k := hk (i, v) (by simp)
    unfold tins
    split
    · rename_i hlt
      simp only [tcanon, Bool.and_eq_true, decide_eq_true_eq]
      refine ⟨⟨hx, ?_⟩, by simpa [tcanon, Bool.and_eq_true, decide_eq_true_eq] using h⟩
      simp only [List.all_cons, Bool.and_eq_true, decide_eq_true_eq, List.all_eq_true]
      refine ⟨hlt, fun y hy => ?_⟩
      have := List.all_eq_true.mp h.1.2 y hy
      simp only [decide_eq_true_eq] at this
      omega
    · rename_i hlt
      simp only [tcanon, Bool.and_eq_true]
      refine ⟨⟨h.1.1, tins_all h.1.2 (by simp; omega)⟩, ih h.2 (fun e he => hk e (by simp [he]))⟩

/-- Setting an entry keeps a table canonical. -/
theorem tset_canon {α : Type} [DecidableEq α] {d : Nat → α} {t : Tab α} (k : Nat) (x : α) (h : tcanon d t = true) :
    tcanon d (tset d t k x) = true := by
  unfold tset
  split
  · exact tdel_canon k h
  · exact tins_canon (tdel_canon k h) tdel_key_ne ‹_›

/-- Leaving out entries keeps a table canonical. -/
theorem filter_canon {α : Type} [DecidableEq α] {d : Nat → α} {t : Tab α} (P : Nat × α → Bool)
    (h : tcanon d t = true) :
    tcanon d (t.filter P) = true := by
  induction t with
  | nil => rfl
  | cons e t ih =>
    obtain ⟨i, v⟩ := e
    simp only [tcanon, Bool.and_eq_true] at h
    rw [List.filter_cons]
    split
    · simp only [tcanon, Bool.and_eq_true]
      refine ⟨⟨h.1.1, ?_⟩, ih h.2⟩
      rw [List.all_eq_true]
      intro y hy
      exact List.all_eq_true.mp h.1.2 y (List.mem_filter.mp hy).1
    · exact ih h.2

/-! ## Sound states -/

/-- What a run of operations keeps: the memory's canonical form, if mem asks for it; the sides of every channel apart,
if pins asks for it; no fuse of otp restored; and the queue. -/
structure Kept where
  mem : Bool
  pins : Bool
  otp : Otp
  queue : List Instr

/-- Fuses b can follow fuses a: none has been restored (R348). -/
def Blown (a b : Otp) : Prop :=
  a.arb ≤ b.arb ∧ (∀ k, bitAt a.rev k = true → bitAt b.rev k = true) ∧
    (a.owner = true → b.owner = true ∧ b.ownerDigest = a.ownerDigest)

theorem Blown.refl (a : Otp) : Blown a a := ⟨Nat.le_refl _, fun _ h => h, fun h => ⟨h, rfl⟩⟩

theorem Blown.trans {a b c : Otp} (h : Blown a b) (k : Blown b c) : Blown a c :=
  ⟨Nat.le_trans h.1 k.1, fun n e => k.2.1 n (h.2.1 n e),
    fun e => ⟨(k.2.2 (h.2.2 e).1).1, (k.2.2 (h.2.2 e).1).2.trans (h.2.2 e).2⟩⟩

/-- Nothing but the fuses that once blown stay so counts (R348). -/
theorem blown_same {a b : Otp} (h1 : a.arb ≤ b.arb) (h2 : b.rev = a.rev) (h3 : b.owner = a.owner)
    (h4 : b.ownerDigest = a.ownerDigest) : Blown a b :=
  ⟨h1, fun k h => by rw [h2, h], fun h => ⟨h3.trans h, h4⟩⟩

theorem blown_rev (o : Otp) (k : Nat) : Blown o { o with rev := o.rev ||| 2 ^ k } :=
  ⟨Nat.le_refl _, fun n h => by
    simp only [bitAt, beq_iff_eq] at h ⊢
    have t (x : Nat) : x / 2 ^ n % 2 = 1 ↔ x.testBit n = true := by simp [Nat.testBit_eq_decide_div_mod_eq]
    rw [t] at h ⊢
    simp [h], fun h => ⟨h, rfl⟩⟩

theorem blown_owner (o : Otp) (d : List Nat) :
    Blown o (if o.owner then o else { o with owner := true, ownerDigest := d }) :=
  ⟨by split <;> exact Nat.le_refl _, fun n h => by split <;> exact h, fun h => by rw [if_pos h]; exact ⟨h, rfl⟩⟩

/-- The sides stand apart, of the sides and the on-edges that the guard holds. -/
def ApartC (hs ls : Bool) (pendHs pendLs : Nat) : Prop :=
  ¬(hs = true ∧ ls = true) ∧ (pendHs ≠ 0 → hs = false ∧ ls = false ∧ pendLs = 0) ∧ (pendLs ≠ 0 → hs = false)

/-- Nothing but the sides and those edges counts. -/
theorem apart_mk (b1 b2 b3 b4 b5 b6 b7 b8 b9 b10 b11 b12 b13 hs ls b16 b17 ph pl b20 b21 b22 b23 b24 b25 b26 b27
      b28 b29 b30 b31 b32 b33 b34 b35) :
    Apart (Chan.mk b1 b2 b3 b4 b5 b6 b7 b8 b9 b10 b11 b12 b13 hs ls b16 b17 ph pl b20 b21 b22 b23 b24 b25
      b26 b27 b28 b29 b30 b31 b32 b33 b34 b35) = ApartC hs ls ph pl := propext Iff.rfl

theorem apart_c (c : Chan) : ApartC c.hs c.ls c.pendHs c.pendLs = Apart c := propext Iff.rfl

theorem apart_ite {c : Prop} [Decidable c] {a b : Chan} (ha : Apart a) (hb : Apart b) : Apart (if c then a else b) := by
  split <;> assumption

theorem init_apart : Apart Chan.init := by simp [Apart, Chan.init]

theorem hsOffAt_hs (x : Nat) (c : Chan) : (hsOffAt x c).hs = false := by
  unfold hsOffAt
  split
  · rfl
  · exact Bool.not_eq_true _ ▸ ‹_›

theorem hsOffAt_ls (x : Nat) (c : Chan) : (hsOffAt x c).ls = c.ls := by unfold hsOffAt; split <;> rfl

theorem hsOffAt_pendLs (x : Nat) (c : Chan) : (hsOffAt x c).pendLs = c.pendLs := by unfold hsOffAt; split <;> rfl

theorem bothOffAt_apart (x : Nat) (c : Chan) : Apart (bothOffAt x c) := by
  unfold bothOffAt hsOffAt lsOffAt
  (repeat' split) <;> simp_all [Apart]

/-- The guard keeps the sides apart at the start of every period (R108, R109). -/
theorem pulsesWith_apart (g dt wmin : Nat) (lsen : Bool) (x len on : Nat) (c : Chan) (h : Apart c) :
    Apart (pulsesWith g dt wmin lsen x len on c) := by
  obtain ⟨h, -, -⟩ := h
  unfold pulsesWith hsOffAt lsOffAt
  dsimp only
  (repeat' split) <;> simp_all [Apart]

theorem shortenPulse_apart (dt wmin : Nat) (lsen : Bool) (b on : Nat) (c : Chan) (h : Apart c) :
    Apart (shortenPulse dt wmin lsen b on c) := by
  unfold shortenPulse
  dsimp only
  (repeat' split) <;> simp_all [Apart]

/-- Setting an entry keeps the sides of every channel apart where the entry's stand apart. -/
theorem tset_apart {t : Tab Chan} (k : Nat) {x : Chan} (h : ∀ n, Apart (tget (fun _ => Chan.init) t n)) (hx : Apart x) :
    ∀ n, Apart (tget (fun _ => Chan.init) (tset (fun _ => Chan.init) t k x) n) := by
  intro n
  rw [tget_tset]
  split
  · exact hx
  · exact h n

/-- What p names holds of the state. -/
def Sound (p : Kept) (s : State) : Prop :=
  (p.mem = true → tcanon (fun _ => 0#8) s.mem = true) ∧ (p.pins = true → ∀ n, Apart (chanOf s n)) ∧
    Blown p.otp s.otp ∧ s.pending = p.queue

/-- The same of a memory, channels, fuses and a queue. -/
def SoundC (p : Kept) (cs : Tab Chan) (o : Otp) (m : List Host.Cell) (q : List Instr) : Prop :=
  (p.mem = true → tcanon (fun _ => 0#8) m = true) ∧
    (p.pins = true → ∀ n, Apart (tget (fun _ => Chan.init) cs n)) ∧ Blown p.otp o ∧ q = p.queue

/-- Nothing but the memory, the channels, the fuses and the queue counts. -/
theorem sound_mk (p a1 a2 a3 a4 a5 a6 a7 cs a9 a10 a11 a12 a13 a14 a15 a16 a17 a18 a19 a20 a21 a22 a23 a24 a25 o a27 m
      a29 a30 q) :
    Sound p (State.mk a1 a2 a3 a4 a5 a6 a7 cs a9 a10 a11 a12 a13 a14 a15 a16 a17 a18 a19 a20 a21 a22
      a23 a24 a25 o a27 m a29 a30 q) = SoundC p cs o m q := rfl

theorem sound_c (p s) : SoundC p s.chans s.otp s.mem s.pending = Sound p s := rfl

theorem ok_ite {p} {c : Prop} [Decidable c] {a b : State} (ha : Sound p a) (hb : Sound p b) :
    Sound p (if c then a else b) := by split <;> assumption

theorem ok_ite1 {α} {p} {c : Prop} [Decidable c] {a b : State × α} (ha : Sound p a.1) (hb : Sound p b.1) :
    Sound p (if c then a else b).1 := by split <;> assumption

theorem forAll_ok {α} {p} (xs : List α) {f : α → State → State} {s : State}
    (hf : ∀ x s, Sound p s → Sound p (f x s)) (h : Sound p s) :
    Sound p (forAll xs f s) := by
  unfold forAll
  induction xs generalizing s with
  | nil => exact h
  | cons x xs ih => exact ih (hf x s h)

theorem ok_pair {α} {p} {x : State × α} {s : State} {v : α} (e : x = (s, v)) (h : Sound p x.1) :
    Sound p s := by rw [e] at h; exact h

theorem foldl_ok {α} {p} (xs : List α) {f : State → α → State} {s : State}
    (hf : ∀ x s, Sound p s → Sound p (f s x)) (h : Sound p s) :
    Sound p (xs.foldl f s) := by
  induction xs generalizing s with
  | nil => exact h
  | cons x xs ih => exact ih (hf x s h)

theorem foldl_ok1 {α β} {p} (xs : List α) {f : State × β → α → State × β} {x : State × β}
    (hf : ∀ x a, Sound p x.1 → Sound p (f x a).1) (h : Sound p x.1) : Sound p (xs.foldl f x).1 := by
  induction xs generalizing x with
  | nil => exact h
  | cons a xs ih => exact ih (hf x a h)

theorem sound_of_some {α} {p} {s t : State} {a b : α} (e : some (s, a) = some (t, b)) (h : Sound p s) :
    Sound p t := by
  cases e; exact h

theorem getD_ok {pq} {o : Option State} {s : State} (ho : ∀ t, o = some t → Sound pq t) (hyp : Sound pq s) :
    Sound pq (o.getD s) := by
  cases o with
  | none => exact hyp
  | some t => exact ho t rfl

end Sys2Proof.Machine
end

