-- ==== Sys2Proof/Laws/Commands.lean ====
section
/-! SUPPORT. What the shared forms of a command answer: its effect where its occurrence condition holds, or where its
master may make the access. -/

namespace Sys2Proof.Machine

theorem act_eq {g : Bool} {s t : State} (h : g = true) : act g s t = .next t := by simp [act, h]

theorem live_eq {g : Bool} {s t : State} (ha : alive s = true) (h : g = true) : live g s t = .next t := by
  simp [live, act, ha, h]

theorem regWriteBy_eq {m : Master} {a : Nat} {s t : State} (h : CanWrite s m a) : regWriteBy m a s t = .next t := by
  simp [regWriteBy, live, act, h.1, h.2]

theorem regReadBy_eq {m : Master} {a : Nat} {s t : State} (h : CanRead s m a) : regReadBy m a s t = .next t := by
  simp [regReadBy, live, act, h.1, h.2]

/-- A conditional effect answers with its effect or with the state as it was, and with nothing else. -/
theorem act_next {g : Bool} {s t u : State} (h : act g s t = .next u) : u = if g then t else s := by
  cases h; rfl

theorem live_next {g : Bool} {s t u : State} (h : live g s t = .next u) : u = if alive s && g then t else s :=
  act_next h

/-- A command whose answer is known runs. -/
theorem runs_of_eq {c : Instr} {s t : State} {P : State → Prop} (h : exec c s = .next t) (p : P t) : Runs c s P :=
  ⟨t, h, p⟩

/-! ## Frames over registers -/

theorem keepsRegs_refl (as : List Nat) (s : State) : KeepsRegs as s s := fun _ _ => rfl

theorem keepsRegs_trans {as : List Nat} {s t u : State} (h : KeepsRegs as s t) (k : KeepsRegs as t u) :
    KeepsRegs as s u := fun a ha => (k a ha).trans (h a ha)

theorem keepsRegs_wr {as : List Nat} {s t : State} (a v : Nat) (h : KeepsRegs as s t) (m : a ∈ as) :
    KeepsRegs as s (wr a v t) := fun b hb => by
  have e : b ≠ a := fun e => hb (by rw [e]; exact m)
  rw [rd_wr_ne a v t b e]
  exact h b hb

theorem keepsRegs_setFld {as : List Nat} {s t : State} (a : Nat) (f : Bits) (v : Nat) (h : KeepsRegs as s t)
    (m : a ∈ as) : KeepsRegs as s (setFld a f v t) := keepsRegs_wr a _ h m

theorem keepsRegs_setFlag {as : List Nat} {s t : State} (a : Nat) (f : Bits) (b : Bool) (h : KeepsRegs as s t)
    (m : a ∈ as) : KeepsRegs as s (setFlag a f b t) := keepsRegs_wr a _ h m

/-- Writes of registers compose into a change of registers alone. -/
theorem onlyRegs_refl (as : List Nat) (s : State) : OnlyRegs as s s :=
  ⟨keepsRegs_refl as s, fun _ _ => rfl, rfl⟩

theorem onlyRegs_wr {as : List Nat} {s t : State} (a v : Nat) (h : OnlyRegs as s t) (m : a ∈ as) :
    OnlyRegs as s (wr a v t) := ⟨keepsRegs_wr a v h.1 m, h.2.1, by
  have e := h.2.2
  simp only [wr]
  rw [e]⟩

/-- A flag raised is a change of its register and of its mark alone (R10). -/
theorem onlyRegs_raiseWord {as : List Nat} {s t : State} (a v : Nat) (h : OnlyRegs as s t) (m : a ∈ as) :
    OnlyRegs as s (raiseWord a v t) := by
  refine onlyRegs_wr a _ ⟨h.1, fun b hb => ?_, ?_⟩ m
  · have e : b ≠ a := fun e => hb (by rw [e]; exact m)
    simp only [raisedIn, tget_tset, if_neg e]
    exact h.2.1 b hb
  · have e := h.2.2
    rw [e]

theorem onlyRegs_raiseFlag {as : List Nat} {s t : State} (a : Nat) (f : Bits) (h : OnlyRegs as s t) (m : a ∈ as) :
    OnlyRegs as s (raiseFlag a f t) := onlyRegs_raiseWord a _ h m

theorem onlyRegs_setFld {as : List Nat} {s t : State} (a : Nat) (f : Bits) (v : Nat) (h : OnlyRegs as s t)
    (m : a ∈ as) : OnlyRegs as s (setFld a f v t) := onlyRegs_wr a _ h m

theorem onlyRegs_setFlag {as : List Nat} {s t : State} (a : Nat) (f : Bits) (b : Bool) (h : OnlyRegs as s t)
    (m : a ∈ as) : OnlyRegs as s (setFlag a f b t) := onlyRegs_wr a _ h m

theorem onlyRegs_incFld {as : List Nat} {s t : State} (a : Nat) (f : Bits) (h : OnlyRegs as s t)
    (m : a ∈ as) : OnlyRegs as s (incFld a f t) := onlyRegs_wr a _ h m

/-! ## The sectors of the NVM -/

theorem mem_physSectors {p : Nat} : p ∈ physSectors ↔ p < 2048 := by
  delta physSectors; exact List.mem_range

theorem mem_logSectors {l : Nat} : l ∈ logSectors ↔ l < 1984 := by
  delta logSectors; exact List.mem_range

end Sys2Proof.Machine
end

