-- ==== Sys2Proof/Laws/KeepOps.lean ====
section
/-! SUPPORT. The named operations over registers and units keep what Kept names: the canonical memory, the sides
apart, the fuses blown, and the queue. -/

namespace Sys2Proof.Machine

theorem wr_ok {pq} (a v : Nat) (s : State) (hyp : Sound pq s) : Sound pq (wr a v s) := by
  unfold wr
  simp only [sound_mk, sound_c, hyp]

theorem setFld_ok {pq} (a : Nat) (f : Bits) (v : Nat) (s : State) (hyp : Sound pq s) : Sound pq (setFld a f v s) := by
  unfold setFld
  simp only [wr_ok, hyp]

theorem setFlag_ok {pq} (a : Nat) (f : Bits) (b : Bool) (s : State) (hyp : Sound pq s) :
    Sound pq (setFlag a f b s) := by
  unfold setFlag
  simp only [setFld_ok, hyp]

theorem addFld_ok {pq} (a : Nat) (f : Bits) (n : Nat) (s : State) (hyp : Sound pq s) : Sound pq (addFld a f n s) := by
  unfold addFld
  simp only [setFld_ok, hyp]

theorem incFld_ok {pq} (a : Nat) (f : Bits) (s : State) (hyp : Sound pq s) : Sound pq (incFld a f s) := by
  unfold incFld
  simp only [addFld_ok, hyp]

theorem orWord_ok {pq} (a m : Nat) (s : State) (hyp : Sound pq s) : Sound pq (orWord a m s) := by
  unfold orWord
  simp only [wr_ok, hyp]

theorem clrWord_ok {pq} (a m : Nat) (s : State) (hyp : Sound pq s) : Sound pq (clrWord a m s) := by
  unfold clrWord
  simp only [wr_ok, hyp]

theorem raiseWord_ok {pq} (a m : Nat) (s : State) (hyp : Sound pq s) : Sound pq (raiseWord a m s) :=
  orWord_ok a m _ hyp

theorem raiseFlag_ok {pq} (a : Nat) (f : Bits) (s : State) (hyp : Sound pq s) : Sound pq (raiseFlag a f s) := by
  unfold raiseFlag
  simp only [raiseWord_ok, hyp]

theorem lowerWord_ok {pq} (a m : Nat) (s : State) (hyp : Sound pq s) : Sound pq (lowerWord a m s) := by
  unfold lowerWord
  simp only [clrWord_ok, hyp]

theorem plainWrite_ok {pq} (a v : Nat) (s : State) (hyp : Sound pq s) : Sound pq (plainWrite a v s) := by
  unfold plainWrite
  (repeat' split) <;> simp only [wr_ok, hyp]

theorem setRail_ok {pq} (r : Nat) (x : Rail) (s : State) (hyp : Sound pq s) : Sound pq (setRail r x s) := by
  unfold setRail
  simp only [sound_mk, sound_c, hyp]

theorem updRail_ok {pq} (r : Nat) (f : Rail → Rail) (s : State) (hyp : Sound pq s) : Sound pq (updRail r f s) := by
  unfold updRail
  simp only [setRail_ok, hyp]

theorem setChan_ok {pq} (n : Nat) (x : Chan) (s : State) (hyp : Sound pq s) (hx : pq.pins = true → Apart x) :
    Sound pq (setChan n x s) :=
  ⟨hyp.1, fun e => tset_apart n (hyp.2.1 e) (hx e), hyp.2.2⟩

/-- A change of a channel that keeps its sides apart. -/
theorem updChan_ok {pq} (n : Nat) (f : Chan → Chan) (s : State) (hyp : Sound pq s)
    (hf : Apart (chanOf s n) → Apart (f (chanOf s n))) : Sound pq (updChan n f s) :=
  setChan_ok n _ s hyp fun e => hf (hyp.2.1 e n)

theorem setConv_ok {pq} (c : Nat) (x : Conv) (s : State) (hyp : Sound pq s) : Sound pq (setConv c x s) := by
  unfold setConv
  simp only [sound_mk, sound_c, hyp]

theorem updConv_ok {pq} (c : Nat) (f : Conv → Conv) (s : State) (hyp : Sound pq s) : Sound pq (updConv c f s) := by
  unfold updConv
  simp only [setConv_ok, hyp]

theorem updSense_ok {pq} (q : Nat) (f : Sense → Sense) (s : State) (hyp : Sound pq s) :
    Sound pq (updSense q f s) := by
  unfold updSense
  simp only [sound_mk, sound_c, hyp]

theorem updComp_ok {pq} (w : Nat) (f : Comp → Comp) (s : State) (hyp : Sound pq s) : Sound pq (updComp w f s) := by
  unfold updComp
  simp only [sound_mk, sound_c, hyp]

theorem updWin_ok {pq} (n : Nat) (f : Window → Window) (s : State) (hyp : Sound pq s) : Sound pq (updWin n f s) := by
  unfold updWin
  simp only [sound_mk, sound_c, hyp]

theorem updPort_ok {pq} (n : Nat) (f : Port → Port) (s : State) (hyp : Sound pq s) : Sound pq (updPort n f s) := by
  unfold updPort
  simp only [sound_mk, sound_c, hyp]

theorem updSbus_ok {pq} (q : Nat) (f : Sbus → Sbus) (s : State) (hyp : Sound pq s) : Sound pq (updSbus q f s) := by
  unfold updSbus
  simp only [sound_mk, sound_c, hyp]

theorem updVarip_ok {pq} (v : Nat) (f : Varip → Varip) (s : State) (hyp : Sound pq s) :
    Sound pq (updVarip v f s) := by
  unfold updVarip
  simp only [sound_mk, sound_c, hyp]

theorem updEng_ok {pq} (e : Nat) (f : Engine → Engine) (s : State) (hyp : Sound pq s) : Sound pq (updEng e f s) := by
  unfold updEng
  simp only [sound_mk, sound_c, hyp]

theorem updBind_ok {pq} (q b : Nat) (f : Binding → Binding) (s : State) (hyp : Sound pq s) :
    Sound pq (updBind q b f s) := by
  unfold updBind
  simp only [sound_mk, sound_c, hyp]

theorem updTimer_ok {pq} (q m : Nat) (f : Timer → Timer) (s : State) (hyp : Sound pq s) :
    Sound pq (updTimer q m f s) := by
  unfold updTimer
  simp only [sound_mk, sound_c, hyp]

theorem updEvtIn_ok {pq} (q x : Nat) (f : EvtIn → EvtIn) (s : State) (hyp : Sound pq s) :
    Sound pq (updEvtIn q x f s) := by
  unfold updEvtIn
  simp only [sound_mk, sound_c, hyp]

theorem updEvtOut_ok {pq} (q o : Nat) (f : EvtOut → EvtOut) (s : State) (hyp : Sound pq s) :
    Sound pq (updEvtOut q o f s) := by
  unfold updEvtOut
  simp only [sound_mk, sound_c, hyp]

theorem updEr_ok {pq} (f : Recorder → Recorder) (s : State) (hyp : Sound pq s) : Sound pq (updEr f s) := by
  unfold updEr
  simp only [sound_mk, sound_c, hyp]

theorem updTb_ok {pq} (f : TimeBase → TimeBase) (s : State) (hyp : Sound pq s) : Sound pq (updTb f s) := by
  unfold updTb
  simp only [sound_mk, sound_c, hyp]

theorem updFm_ok {pq} (f : FaultMgr → FaultMgr) (s : State) (hyp : Sound pq s) : Sound pq (updFm f s) := by
  unfold updFm
  simp only [sound_mk, sound_c, hyp]

theorem updSup_ok {pq} (f : Supply → Supply) (s : State) (hyp : Sound pq s) : Sound pq (updSup f s) := by
  unfold updSup
  simp only [sound_mk, sound_c, hyp]

theorem updRas_ok {pq} (f : Ras → Ras) (s : State) (hyp : Sound pq s) : Sound pq (updRas f s) := by
  unfold updRas
  simp only [sound_mk, sound_c, hyp]

theorem updNv_ok {pq} (f : Nvm → Nvm) (s : State) (hyp : Sound pq s) : Sound pq (updNv f s) := by
  unfold updNv
  simp only [sound_mk, sound_c, hyp]

theorem updHost_ok {pq} (f : HostSide → HostSide) (s : State) (hyp : Sound pq s) : Sound pq (updHost f s) := by
  unfold updHost
  simp only [sound_mk, sound_c, hyp]

/-- A change of the fuses that restores none. -/
theorem updOtp_ok {pq} (f : Otp → Otp) (s : State) (hyp : Sound pq s) (hf : Blown s.otp (f s.otp)) :
    Sound pq (updOtp f s) :=
  ⟨hyp.1, hyp.2.1, hyp.2.2.1.trans hf, hyp.2.2.2⟩

theorem updFrm_ok {pq} (f : Foreman → Foreman) (s : State) (hyp : Sound pq s) : Sound pq (updFrm f s) := by
  unfold updFrm
  simp only [sound_mk, sound_c, hyp]

theorem updSess_ok {pq} (x : Nat) (f : Session → Session) (s : State) (hyp : Sound pq s) :
    Sound pq (updSess x f s) := by
  unfold updSess
  simp only [sound_mk, sound_c, hyp]

theorem spend_ok {pq} (s : State) (hyp : Sound pq s) : Sound pq (spend s) := by
  unfold spend
  simp only [sound_mk, sound_c, hyp]

theorem enterMode_ok {pq} (m : Nat) (s : State) (hyp : Sound pq s) : Sound pq (enterMode m s) := by
  unfold enterMode
  simp only [setFld_ok, hyp]

theorem setLineOf_ok {pq} (q i m : Nat) (s : State) (hyp : Sound pq s) : Sound pq (setLineOf q i m s) := by
  unfold setLineOf
  simp only [raiseWord_ok, hyp]

theorem setLine_ok {pq} (q m : Nat) (s : State) (hyp : Sound pq s) : Sound pq (setLine q m s) := by
  unfold setLine
  simp +contextual (maxDischargeDepth := 200) only [forAll_ok, ok_ite, implies_true, setLineOf_ok, hyp]

theorem settleMode_ok {pq} (s : State) (hyp : Sound pq s) : Sound pq (settleMode s) := by
  unfold settleMode
  simp (maxDischargeDepth := 200) only [ok_ite, enterMode_ok, hyp]

theorem setCond_ok {pq} (i : Nat) (b : Bool) (s : State) (hyp : Sound pq s) : Sound pq (setCond i b s) := by
  unfold setCond
  simp (maxDischargeDepth := 200) only [ok_ite, settleMode_ok, orWord_ok, clrWord_ok, hyp]

theorem capture_ok {pq} (x : Rep) (f : FecInfo) (s : State) (hyp : Sound pq s) : Sound pq (capture x f s) := by
  unfold capture
  simp (maxDischargeDepth := 200) only [ok_ite, incFld_ok, wr_ok, hyp]

theorem countClass_ok {pq} (cls : Nat) (s : State) (hyp : Sound pq s) : Sound pq (countClass cls s) := by
  unfold countClass
  (repeat' split) <;> simp only [incFld_ok, hyp]

theorem raiseAlert_ok {pq} (s : State) (hyp : Sound pq s) : Sound pq (raiseAlert s) := by
  unfold raiseAlert
  simp only [setFlag_ok, updFm_ok, hyp]

theorem fileRecord_ok {pq} (rc : FaultRec) (s : State) (hyp : Sound pq s) : Sound pq (fileRecord rc s) := by
  unfold fileRecord
  simp (maxDischargeDepth := 200) only [ok_ite, addFld_ok, updFm_ok, incFld_ok, hyp]

theorem report_ok {pq} (x : Rep) (s : State) (hyp : Sound pq s) : Sound pq (report x s) := by
  unfold report
  (repeat' split) <;> simp +contextual (maxDischargeDepth := 200) only [forAll_ok, implies_true, countClass_ok,
    fileRecord_ok, capture_ok, raiseAlert_ok, setLine_ok, setFlag_ok, hyp]

theorem accessError_ok {pq} (m addr type size kind : Nat) (s : State) (hyp : Sound pq s) :
    Sound pq (accessError m addr type size kind s) := by
  unfold accessError
  simp only [report_ok, hyp]

theorem raiseDue_ok {pq} (e num addr info : Nat) (s : State) (hyp : Sound pq s) :
    Sound pq (raiseDue e num addr info s) := by
  unfold raiseDue
  (repeat' split) <;> simp only [updEng_ok, hyp]

theorem busError_ok {pq} (m : Master) (a : Nat) (write : Bool) (cause : Nat) (s : State) (hyp : Sound pq s) :
    Sound pq (busError m a write cause s) := by
  unfold busError
  (repeat' split) <;> simp only [raiseDue_ok, hyp]

theorem refuseAccess_ok {pq} (m : Master) (a : Nat) (write : Bool) (s : State) (hyp : Sound pq s) :
    Sound pq (refuseAccess m a write s) := by
  unfold refuseAccess
  simp only [busError_ok, accessError_ok, hyp]

end Sys2Proof.Machine
end

