-- ==== Sys2Proof/Laws/KeepMemory.lean ====
section
/-! SUPPORT. The operations of Machine/Memory.lean keep what Kept names: the canonical memory, the sides apart, the
fuses blown, and the queue. -/

namespace Sys2Proof.Machine


/-- Bytes written one after the other keep the memory canonical. -/

theorem foldl_tset_canon {α β : Type} [DecidableEq β] {d : Nat → β} (xs : List α) (key : α → Nat) (val : α → β)
    {t : Tab β} (h : tcanon d t = true) : tcanon d (xs.foldl (fun t x => tset d t (key x) (val x)) t) = true := by
  induction xs generalizing t with
  | nil => exact h
  | cons x xs ih => exact ih (tset_canon (key x) (val x) h)

theorem setMark_ok {pq} (g : Nat) (b : Bool) (s : State) (hyp : Sound pq s) : Sound pq (setMark g b s) := by
  unfold setMark
  (repeat' split) <;> simp only [orWord_ok, clrWord_ok, hyp]

theorem setByte_ok {pq} (a b : Nat) (s : State) (hyp : Sound pq s) : Sound pq (setByte a b s) := by
  unfold setByte
  rw [sound_mk]
  exact ⟨fun e => tset_canon _ _ (hyp.1 e), hyp.2⟩

theorem setValue_ok {pq} (a n v : Nat) (s : State) (hyp : Sound pq s) : Sound pq (setValue a n v s) := by
  unfold setValue
  simp +contextual (maxDischargeDepth := 200) only [forAll_ok, implies_true, setByte_ok, hyp]

theorem setWritten_ok {pq} (k a : Nat) (b : Bool) (s : State) (hyp : Sound pq s) : Sound pq (setWritten k a b s) := by
  unfold setWritten
  simp only [updRas_ok, hyp]

theorem setUpset_ok {pq} (a v : Nat) (s : State) (hyp : Sound pq s) : Sound pq (setUpset a v s) := by
  unfold setUpset
  simp only [updRas_ok, hyp]

theorem logError_ok {pq} (x : ElogEntry) (s : State) (hyp : Sound pq s) : Sound pq (logError x s) := by
  unfold logError
  simp only [updRas_ok, hyp]

theorem correctWord_ok {pq} (k a : Nat) (scrub : Bool) (s : State) (hyp : Sound pq s) :
    Sound pq (correctWord k a scrub s) := by
  unfold correctWord
  simp (maxDischargeDepth := 200) only [ok_ite, spend_ok, setUpset_ok, logError_ok, updRas_ok,
    incFld_ok, report_ok, hyp]

theorem strikeWord_ok {pq} (a : Nat) (u : Upset) (s : State) (hyp : Sound pq s) : Sound pq (strikeWord a u s).1 := by
  unfold strikeWord
  (repeat' split) <;> simp only [setUpset_ok, hyp]

theorem touchWord_ok {pq} (m k a type size : Nat) (scrub : Bool) (u : Upset) (s : State) (hyp : Sound pq s) :
    Sound pq (touchWord m k a type size scrub u s).1 := by
  unfold touchWord
  with_reducible
    repeat'
      first
      | assumption | dsimp only | apply logError_ok | apply incFld_ok | apply report_ok | apply strikeWord_ok
      | apply correctWord_ok | apply spend_ok | apply ok_ite | apply ok_ite1 | refine forAll_ok _ (fun _ _ _ => ?_) ?_
      | refine foldl_ok _ (fun _ _ _ => ?_) ?_ | refine ok_pair ‹_ = (_, _)› ?_ | extract_lets | split
      | dsimp +zetaDelta only

theorem storeWord_ok {pq} (m k a n v size : Nat) (u : Upset) (s : State)
    (hyp : Sound pq s) : Sound pq (storeWord m k a n v size u s).1 := by
  unfold storeWord
  with_reducible
    repeat'
      first
      | assumption | dsimp only | apply setValue_ok | apply setWritten_ok | apply setUpset_ok | apply touchWord_ok
      | apply ok_ite | apply ok_ite1 | refine forAll_ok _ (fun _ _ _ => ?_) ?_
      | refine foldl_ok _ (fun _ _ _ => ?_) ?_ | refine ok_pair ‹_ = (_, _)› ?_ | extract_lets | split
      | dsimp +zetaDelta only

theorem storeBytes_ok {pq} (m a : Nat) (bytes : List Nat) (s : State) (hyp : Sound pq s) :
    Sound pq (storeBytes m a bytes s) := by
  unfold storeBytes
  with_reducible
    repeat'
      first
      | assumption | dsimp only | apply storeWord_ok | refine forAll_ok _ (fun _ _ _ => ?_) ?_ | split

theorem loadBytes_ok {pq} (m a n : Nat) (s : State) (hyp : Sound pq s) : Sound pq (loadBytes m a n s).1 := by
  unfold loadBytes
  refine foldl_ok1 _ (fun x i hx => ?_) hyp
  dsimp only
  split
  · exact touchWord_ok _ _ _ _ _ _ _ _ hx
  · exact hx

theorem scrubRead_ok {pq} (u : Upset) (s : State) (hyp : Sound pq s) : Sound pq (scrubRead u s) := by
  unfold scrubRead
  (repeat' split) <;> simp (maxDischargeDepth := 200) only [incFld_ok, updRas_ok, touchWord_ok,
    hyp]

theorem elogRead_ok {pq} (s : State) (hyp : Sound pq s) : Sound pq (elogRead s) := by
  unfold elogRead
  (repeat' split) <;> simp (maxDischargeDepth := 200) only [wr_ok, updRas_ok, hyp]

end Sys2Proof.Machine
end

