-- ==== Sys2Proof/Laws/KeepEngine.lean ====
section
/-! SUPPORT. The operations of Machine/Engine.lean keep what Kept names: the canonical memory, the sides apart, the
fuses blown, and the queue. -/

namespace Sys2Proof.Machine

theorem setEngState_ok {pq} (e st : Nat) (s : State) (hyp : Sound pq s) : Sound pq (setEngState e st s) := by
  unfold setEngState
  simp only [setFld_ok, hyp]

theorem showEngine_ok {pq} (e : Nat) (s : State) (hyp : Sound pq s) : Sound pq (showEngine e s) := by
  unfold showEngine
  simp (maxDischargeDepth := 200) only [setFlag_ok, setFld_ok, hyp]

theorem showEpc_ok {pq} (e pc : Nat) (s : State) (hyp : Sound pq s) : Sound pq (showEpc e pc s) := by
  unfold showEpc
  simp only [setFld_ok, hyp]

theorem restartFrom_ok {pq} (h e : Nat) (s : State) (hyp : Sound pq s) : Sound pq (restartFrom h e s) := by
  unfold restartFrom
  simp (maxDischargeDepth := 200) only [updEng_ok, setEngState_ok, showEngine_ok, hyp]

theorem restartEngine_ok {pq} (e : Nat) (s : State) (hyp : Sound pq s) : Sound pq (restartEngine e s) := by
  unfold restartEngine
  simp only [restartFrom_ok, hyp]

theorem stopEngine_ok {pq} (e st : Nat) (s : State) (hyp : Sound pq s) : Sound pq (stopEngine e st s) := by
  unfold stopEngine
  simp (maxDischargeDepth := 200) only [updEng_ok, setEngState_ok, showEngine_ok, hyp]

theorem ownCodeStore_ok {pq} (e : Nat) (o : MemOp) (s : State) (hyp : Sound pq s) : Sound pq (ownCodeStore e o s) := by
  unfold ownCodeStore
  simp +contextual (maxDischargeDepth := 200) only [forAll_ok, ok_ite, implies_true, raiseDue_ok, updEng_ok, hyp]

theorem ectlWrite_ok {pq} (e v : Nat) (s : State) (hyp : Sound pq s) : Sound pq (ectlWrite e v s) := by
  unfold ectlWrite
  simp +contextual (maxDischargeDepth := 200) only [forAll_ok, implies_true, showEngine_ok, updEng_ok,
    plainWrite_ok, hyp]

theorem sigWrite_ok {pq} (m : Master) (e v : Nat) (s : State) (hyp : Sound pq s) : Sound pq (sigWrite m e v s) := by
  unfold sigWrite
  (repeat' split) <;> simp only [setLineOf_ok, hyp]

end Sys2Proof.Machine
end

