-- ==== Sys2Proof/Laws/KeepBindings.lean ====
section
/-! SUPPORT. The operations of Machine/Bindings.lean keep what Kept names: the canonical memory, the sides apart, the
fuses blown, and the queue. -/

namespace Sys2Proof.Machine

theorem setBindState_ok {pq} (q b st : Nat) (s : State) (hyp : Sound pq s) : Sound pq (setBindState q b st s) := by
  unfold setBindState
  simp only [setFld_ok, hyp]

theorem manage_ok {pq} (q : Nat) (is : List Nat) (v : Nat) (s : State) (hyp : Sound pq s) :
    Sound pq (manage q is v s) := by
  unfold manage
  simp +contextual (maxDischargeDepth := 200) only [forAll_ok, implies_true, updFm_ok, hyp]

theorem setMembers_ok {pq} (q b : Nat) (ms : List Nat) (s : State) (hyp : Sound pq s) :
    Sound pq (setMembers q b ms s) := by
  unfold setMembers
  simp (maxDischargeDepth := 200) only [setFld_ok, hyp]

theorem settleBindings_ok {pq} (s : State) (hyp : Sound pq s) : Sound pq (settleBindings s) := by
  unfold settleBindings
  simp only [setCond_ok, hyp]

theorem bindEvent_ok {pq} (q b code i : Nat) (s : State) (hyp : Sound pq s) : Sound pq (bindEvent q b code i s) := by
  unfold bindEvent
  with_reducible
    repeat'
      first
      | assumption | simp only [sound_mk, sound_c] | apply setLine_ok | apply updBind_ok | apply report_ok
      | apply ok_ite

theorem showLast_ok {pq} (q b kind member pc : Nat) (s : State) (hyp : Sound pq s) :
    Sound pq (showLast q b kind member pc s) := by
  unfold showLast
  simp only [wr_ok, hyp]

theorem dropUnit_ok {pq} (q b : Nat) (s : State) (hyp : Sound pq s) : Sound pq (dropUnit q b s) := by
  unfold dropUnit
  (repeat' split) <;> simp only [clrWord_ok, setFld_ok, hyp]

theorem takeUnit_ok {pq} (q b u : Nat) (s : State) (hyp : Sound pq s) : Sound pq (takeUnit q b u s) := by
  unfold takeUnit
  simp only [orWord_ok, setFld_ok, hyp]

theorem catchUp_ok {pq} (q b : Nat) (s : State) (hyp : Sound pq s) : Sound pq (catchUp q b s) := by
  unfold catchUp
  (repeat' split) <;> simp (maxDischargeDepth := 200) only [updBind_ok, updEng_ok, setEngState_ok, hyp]

theorem replayBinding_ok {pq} (q b : Nat) (s : State) (hyp : Sound pq s) : Sound pq (replayBinding q b s) := by
  unfold replayBinding
  simp +contextual (maxDischargeDepth := 200) only [forAll_ok, implies_true, catchUp_ok, updEng_ok, hyp]

theorem bindCmdEnd_ok {pq} (q b : Nat) (s : State) (hyp : Sound pq s) : Sound pq (bindCmdEnd q b s) := by
  unfold bindCmdEnd
  simp (maxDischargeDepth := 200) only [ok_ite, updBind_ok, setFlag_ok, hyp]

theorem haltMembers_ok {pq} (q : Nat) (ms : List Nat) (s : State) (hyp : Sound pq s) :
    Sound pq (haltMembers q ms s) := by
  unfold haltMembers
  simp +contextual (maxDischargeDepth := 200) only [forAll_ok, implies_true, stopEngine_ok, hyp]

theorem dropCopy_ok {pq} (q b : Nat) (s : State) (hyp : Sound pq s) : Sound pq (dropCopy q b s) := by
  unfold dropCopy
  simp (maxDischargeDepth := 200) only [ok_ite, updBind_ok, haltMembers_ok, hyp]

theorem dropHandover_ok {pq} (q b : Nat) (s : State) (hyp : Sound pq s) : Sound pq (dropHandover q b s) := by
  unfold dropHandover
  simp +contextual (maxDischargeDepth := 200) only [forAll_ok, ok_ite, implies_true, updBind_ok, bindCmdEnd_ok, hyp]

theorem bindOut_ok {pq} (q b : Nat) (s : State) (hyp : Sound pq s) : Sound pq (bindOut q b s) := by
  unfold bindOut
  simp (maxDischargeDepth := 200) only [dropCopy_ok, haltMembers_ok, dropUnit_ok, setBindState_ok, dropHandover_ok,
    bindCmdEnd_ok, updBind_ok, bindEvent_ok, settleBindings_ok, hyp]

theorem lastingMismatch_ok {pq} (q b : Nat) (s : State) (hyp : Sound pq s) : Sound pq (lastingMismatch q b s) := by
  unfold lastingMismatch
  (repeat' split) <;> simp +contextual (maxDischargeDepth := 200) only [forAll_ok, implies_true, bindOut_ok,
    dropCopy_ok, haltMembers_ok, setBindState_ok, setMembers_ok, updEng_ok, setEngState_ok, showEngine_ok,
    updBind_ok, replayBinding_ok, bindEvent_ok, settleBindings_ok, hyp]

theorem pairMismatch_ok {pq} (q b : Nat) (s : State) (hyp : Sound pq s) : Sound pq (pairMismatch q b s) := by
  unfold pairMismatch
  simp (maxDischargeDepth := 200) only [ok_ite, lastingMismatch_ok, setBindState_ok, updBind_ok, replayBinding_ok,
    hyp]

theorem startCopy_ok {pq} (q b i code : Nat) (s : State) (hyp : Sound pq s) : Sound pq (startCopy q b i code s) := by
  unfold startCopy
  simp (maxDischargeDepth := 200) only [updBind_ok, updEng_ok, setBindState_ok, hyp]

theorem joinMember_ok {pq} (q b i : Nat) (s : State) (hyp : Sound pq s) : Sound pq (joinMember q b i s) := by
  unfold joinMember
  simp (maxDischargeDepth := 200) only [updEng_ok, setEngState_ok, showEngine_ok, setMembers_ok, manage_ok,
      updBind_ok, hyp]

theorem rejoinFormer_ok {pq} (q b i : Nat) (s : State) (hyp : Sound pq s) : Sound pq (rejoinFormer q b i s) := by
  unfold rejoinFormer
  simp only [startCopy_ok, updBind_ok, hyp]

theorem pass2Done_ok {pq} (q b : Nat) (s : State) (hyp : Sound pq s) : Sound pq (pass2Done q b s) := by
  unfold pass2Done
  with_reducible (repeat' (first
    | assumption | apply joinMember_ok | apply updBind_ok | apply setBindState_ok | apply bindCmdEnd_ok
    | apply incFld_ok | apply bindEvent_ok | apply rejoinFormer_ok | apply settleBindings_ok | split))

theorem oddMember_ok {pq} (q b i : Nat) (s : State) (hyp : Sound pq s) : Sound pq (oddMember q b i s) := by
  unfold oddMember
  with_reducible
    repeat'
      first
      | assumption | dsimp only | apply updEng_ok | apply setMembers_ok | apply startCopy_ok | apply stopEngine_ok
      | apply clrWord_ok | apply bindEvent_ok | apply settleBindings_ok | apply updBind_ok | split

theorem bindForm_ok {pq} (q b : Nat) (s : State) (hyp : Sound pq s) : Sound pq (bindForm q b s) := by
  unfold bindForm
  with_reducible (repeat' (first
    | assumption | simp only [sound_mk, sound_c] | apply setMembers_ok | apply setFld_ok | apply updEng_ok
    | apply setBindState_ok | apply takeUnit_ok | apply restartFrom_ok | apply manage_ok | apply settleBindings_ok
    | refine forAll_ok _ (fun _ _ _ => ?_) ?_ | split))

theorem bindRelease_ok {pq} (q b : Nat) (s : State) (hyp : Sound pq s) : Sound pq (bindRelease q b s) := by
  unfold bindRelease
  with_reducible (repeat' (first
    | assumption | simp only [sound_mk, sound_c] | apply dropCopy_ok | apply haltMembers_ok | apply manage_ok
    | apply dropUnit_ok | apply setMembers_ok | apply setBindState_ok | apply dropHandover_ok | apply bindCmdEnd_ok
    | apply settleBindings_ok))

theorem bindJoin_ok {pq} (q b i : Nat) (s : State) (hyp : Sound pq s) : Sound pq (bindJoin q b i s) := by
  unfold bindJoin
  (repeat' split) <;> simp (maxDischargeDepth := 200) only [takeUnit_ok, settleBindings_ok, startCopy_ok,
    updBind_ok, hyp]

theorem bdCommand_ok {pq} (q op b i arg : Nat) (s : State) (hyp : Sound pq s) :
    Sound pq (bdCommand q op b i arg s) := by
  unfold bdCommand
  simp (maxDischargeDepth := 200) only [ok_ite, setFld_ok, bindForm_ok, wr_ok, bindRelease_ok, updBind_ok,
    setFlag_ok, bindJoin_ok, hyp]

theorem moveCheck_ok {pq} (q b : Nat) (s : State) (hyp : Sound pq s) : Sound pq (moveCheck q b s) := by
  unfold moveCheck
  with_reducible (repeat' (first
    | assumption | dsimp only | apply dropUnit_ok | apply replayBinding_ok | apply bindEvent_ok | apply takeUnit_ok
    | apply bindCmdEnd_ok | apply dropCopy_ok | apply haltMembers_ok | apply setMembers_ok | apply setBindState_ok
    | apply updBind_ok | apply settleBindings_ok | split))

theorem checkerAlarm_ok {pq} (q u : Nat) (s : State) (hyp : Sound pq s) : Sound pq (checkerAlarm q u s) := by
  unfold checkerAlarm
  with_reducible
    repeat'
      first
      | assumption | dsimp only | apply orWord_ok | apply moveCheck_ok | split

theorem reformBinding_ok {pq} (q b : Nat) (s : State) (hyp : Sound pq s) : Sound pq (reformBinding q b s) := by
  unfold reformBinding
  (repeat' split) <;> simp (maxDischargeDepth := 200) only [settleBindings_ok, rejoinFormer_ok, takeUnit_ok, hyp]

theorem bdCfgWrite_ok {pq} (q v : Nat) (s : State) (hyp : Sound pq s) : Sound pq (bdCfgWrite q v s) := by
  unfold bdCfgWrite
  simp (maxDischargeDepth := 200) only [ok_ite, clrWord_ok, raiseFlag_ok, setFld_ok, setFlag_ok, hyp]

theorem evqRead_ok {pq} (q : Nat) (s : State) (hyp : Sound pq s) : Sound pq (evqRead q s) := by
  unfold evqRead
  with_reducible
    repeat'
      first
      | assumption | simp only [sound_mk, sound_c] | apply wr_ok | split

end Sys2Proof.Machine
end

