-- ==== Sys2Proof/Laws/KeepChannel.lean ====
section
/-! SUPPORT. The operations of Machine/Channel.lean keep what Kept names: the canonical memory, the sides apart, the
fuses blown, and the queue. -/

namespace Sys2Proof.Machine

theorem pwmWref_ok {pq} (n : Nat) (s : State) (hyp : Sound pq s) : Sound pq (pwmWref n s) := by
  unfold pwmWref
  simp only [raiseFlag_ok, hyp]

theorem blockPins_ok {pq} (n : Nat) (s : State) (hyp : Sound pq s) : Sound pq (blockPins n s) := by
  unfold blockPins
  simp only [ok_ite, updChan_ok, bothOffAt_apart, implies_true, hyp]

theorem startPeriod_ok {pq} (n x len on gx : Nat) (s : State)
    (hyp : Sound pq s) : Sound pq (startPeriod n x len on gx s) := by
  unfold startPeriod
  refine wr_ok _ _ _ (wr_ok _ _ _ (wr_ok _ _ _ (setChan_ok _ _ _ hyp fun e => ?_)))
  have h := hyp.2.1 e n
  exact apart_ite (by simp only [apart_mk, apart_c, h]) (apart_ite (bothOffAt_apart _ _) (pulsesWith_apart _ _ _ _ _
      _ _ _
    (by simp only [apart_mk, apart_c, h])))

theorem beginPeriod_ok {pq} (n x len on : Nat) (s : State) (hyp : Sound pq s) : Sound pq (beginPeriod n x len on s) :=
  by
  unfold beginPeriod
  simp only [startPeriod_ok, hyp]

theorem showRef_ok {pq} (n ref : Nat) (s : State) (hyp : Sound pq s) : Sound pq (showRef n ref s) := by
  unfold showRef
  simp (maxDischargeDepth := 200) only [wr_ok, updChan_ok, apart_mk, apart_c, imp_self, hyp]

theorem takeBuffer_ok {pq} (n x : Nat) (s : State) (hyp : Sound pq s) : Sound pq (takeBuffer n x s) := by
  unfold takeBuffer
  simp +contextual (maxDischargeDepth := 200) only [apart_ite, implies_true, updChan_ok, apart_mk, apart_c,
      imp_self, hyp]

theorem armFirst_ok {pq} (n : Nat) (s : State) (hyp : Sound pq s) : Sound pq (armFirst n s) := by
  unfold armFirst
  simp only [ok_ite, updChan_ok, apart_mk, apart_c, imp_self, hyp]

theorem loadBuffer_ok {pq} (n per on ofs : Nat) (s : State) (hyp : Sound pq s) :
    Sound pq (loadBuffer n per on ofs s) := by
  unfold loadBuffer
  simp (maxDischargeDepth := 200) only [ok_ite, pwmWref_ok, updChan_ok, apart_mk, apart_c, imp_self, armFirst_ok,
      wr_ok, hyp]

theorem loopLoad_ok {pq} (n per on ofs : Nat) (s : State) (hyp : Sound pq s) :
    Sound pq (loopLoad n per on ofs s) := by
  unfold loopLoad
  simp (maxDischargeDepth := 200) only [wr_ok, loadBuffer_ok, hyp]

theorem stopChan_ok {pq} (n : Nat) (s : State) (hyp : Sound pq s) : Sound pq (stopChan n s) := by
  unfold stopChan
  simp only [updChan_ok, apart_mk, apart_c, bothOffAt_apart, implies_true, hyp]

theorem forcePins_ok {pq} (n : Nat) (s : State) (hyp : Sound pq s) : Sound pq (forcePins n s) := by
  unfold forcePins
  refine updChan_ok _ _ _ hyp fun h => ?_
  refine apart_ite ?_ ?_
  · simp only [apart_mk, apart_c, bothOffAt_apart]
  · (repeat' apply apart_ite) <;> simp [apart_mk, ApartC, hsOffAt_hs]

theorem latchTrip_ok {pq} (n src : Nat) (s : State) (hyp : Sound pq s) : Sound pq (latchTrip n src s) := by
  unfold latchTrip
  simp (maxDischargeDepth := 200) only [setFlag_ok, setFld_ok, incFld_ok, forcePins_ok, updChan_ok, apart_mk,
      apart_c, imp_self, report_ok, setLine_ok, hyp]

theorem unlatch_ok {pq} (n : Nat) (atReload : Bool) (s : State) (hyp : Sound pq s) :
    Sound pq (unlatch n atReload s) := by
  unfold unlatch
  simp +contextual (maxDischargeDepth := 200) only [apart_ite, implies_true, setFlag_ok, updChan_ok, apart_mk,
      apart_c, imp_self, hyp]

theorem clearLatchOff_ok {pq} (n : Nat) (s : State) (hyp : Sound pq s) : Sound pq (clearLatchOff n s) := by
  unfold clearLatchOff
  simp (maxDischargeDepth := 200) only [setFlag_ok, setFld_ok, unlatch_ok, hyp]

end Sys2Proof.Machine
end

