-- ==== Sys2Proof/Laws/KeepPortOps.lean ====
section
/-! SUPPORT. The operations of Machine/PortOps.lean keep what Kept names: the canonical memory, the sides apart, the
fuses blown, and the queue. -/

namespace Sys2Proof.Machine

theorem disagree_ok {pq} (d : Disagree) (s : State) (hyp : Sound pq s) : Sound pq (disagree d s) := by
  unfold disagree
  simp only [ok_ite, updFm_ok, hyp]

theorem sendIdent_ok {pq} (n : Nat) (s : State) (hyp : Sound pq s) : Sound pq (sendIdent n s) := by
  unfold sendIdent
  simp only [updPort_ok, hyp]

theorem noCurrent_ok {pq} (n : Nat) (s : State) (hyp : Sound pq s) : Sound pq (noCurrent n s) := by
  unfold noCurrent
  simp only [wr_ok, hyp]

theorem portReport_ok {pq} (n event cls persist : Nat) (s : State) (hyp : Sound pq s) :
    Sound pq (portReport n event cls persist s) := by
  unfold portReport
  simp only [report_ok, hyp]

theorem withPort_ok {pq} (n : Nat) {f : State → State} {s : State} (hf : ∀ s, Sound pq s → Sound pq (f s))
    (hyp : Sound pq s) :
    Sound pq (withPort n f s) := by
  have h1 : Sound pq (f s) := hf s hyp
  unfold withPort
  generalize f s = t at h1
  simp (maxDischargeDepth := 200) only [ok_ite, updPort_ok, setFld_ok, setFlag_ok, setLine_ok, portReport_ok,
    raiseFlag_ok, disagree_ok, sendIdent_ok, noCurrent_ok, blockPins_ok, h1]

theorem settlePort_ok {pq} (n : Nat) (s : State) (hyp : Sound pq s) : Sound pq (settlePort n s) :=
  withPort_ok n (fun _ h => h) hyp

end Sys2Proof.Machine
end

