-- ==== Sys2Proof/Laws/KeepRail.lean ====
section
/-! SUPPORT. The operations of Machine/Rail.lean keep what Kept names: the canonical memory, the sides apart, the
fuses blown, and the queue. -/

namespace Sys2Proof.Machine

theorem setActive_ok {pq} (r j n : Nat) (b : Bool) (s : State) (hyp : Sound pq s) :
    Sound pq (setActive r j n b s) := by
  unfold setActive
  simp (maxDischargeDepth := 200) only [settlePort_ok, setFlag_ok, hyp]

theorem setOwned_ok {pq} (n r : Nat) (b : Bool) (s : State) (hyp : Sound pq s) : Sound pq (setOwned n r b s) := by
  unfold setOwned
  simp (maxDischargeDepth := 200) only [ok_ite, setFlag_ok, setFld_ok, settlePort_ok, hyp]

theorem parkPort_ok {pq} (r n : Nat) (s : State) (hyp : Sound pq s) : Sound pq (parkPort r n s) := by
  unfold parkPort
  simp only [ok_ite, loopLoad_ok, hyp]

theorem showLanes_ok {pq} (r : Nat) (s : State) (hyp : Sound pq s) : Sound pq (showLanes r s) := by
  unfold showLanes
  simp only [setFld_ok, hyp]

theorem putOutcome_ok {pq} (r flags step kstep : Nat) (s : State) (hyp : Sound pq s) :
    Sound pq (putOutcome r flags step kstep s) := by
  unfold putOutcome
  simp (maxDischargeDepth := 200) only [wr_ok, updRail_ok, setLine_ok, hyp]

theorem putCut_ok {pq} (r : Nat) (x : Lane) (s : State) (hyp : Sound pq s) : Sound pq (putCut r x s) := by
  unfold putCut
  simp only [spend_ok, putOutcome_ok, hyp]

theorem cutLane_ok {pq} (r j : Nat) (s : State) (hyp : Sound pq s) : Sound pq (cutLane r j s) := by
  unfold cutLane
  simp (maxDischargeDepth := 200) only [ok_ite, updRail_ok, putCut_ok, showLanes_ok, hyp]

theorem cutLanes_ok {pq} (r : Nat) (s : State) (hyp : Sound pq s) : Sound pq (cutLanes r s) := by
  unfold cutLanes
  simp +contextual (maxDischargeDepth := 200) only [forAll_ok, implies_true, cutLane_ok, hyp]

theorem stopRail_ok {pq} (r st : Nat) (s : State) (hyp : Sound pq s) : Sound pq (stopRail r st s) := by
  unfold stopRail
  simp +contextual (maxDischargeDepth := 200) only [forAll_ok, implies_true, setActive_ok, parkPort_ok, setFld_ok,
    setFlag_ok, updRail_ok, cutLanes_ok, hyp]

theorem settleUnderfloor_ok {pq} (s : State) (hyp : Sound pq s) : Sound pq (settleUnderfloor s) := by
  unfold settleUnderfloor
  simp only [setCond_ok, hyp]

theorem settleConverter_ok {pq} (s : State) (hyp : Sound pq s) : Sound pq (settleConverter s) := by
  unfold settleConverter
  simp only [setCond_ok, hyp]

theorem seqMark_ok {pq} (s : State) (hyp : Sound pq s) : Sound pq (seqMark s) := by
  unfold seqMark
  simp only [ok_ite, updSup_ok, hyp]

theorem latchRail_ok {pq} (r : Nat) (s : State) (hyp : Sound pq s) : Sound pq (latchRail r s) := by
  unfold latchRail
  simp (maxDischargeDepth := 200) only [ok_ite, updRail_ok, seqMark_ok, settleConverter_ok, settleUnderfloor_ok,
    stopRail_ok, hyp]

theorem railOff_ok {pq} (r : Nat) (s : State) (hyp : Sound pq s) : Sound pq (railOff r s) := by
  unfold railOff
  simp +contextual (maxDischargeDepth := 200) only [forAll_ok, implies_true, stopRail_ok, seqMark_ok,
    settleConverter_ok, settleUnderfloor_ok, setOwned_ok, hyp]

theorem tripChan_ok {pq} (n src : Nat) (s : State) (hyp : Sound pq s) : Sound pq (tripChan n src s) := by
  unfold tripChan
  refine settlePort_ok _ _ ?_
  have h := latchTrip_ok n src s hyp
  refine ok_ite ?_ h
  have h2 : ∀ x,
    Sound pq (report x (setFlag (Reg.PW_TSTAT (quireOf n) (localOf n)) Fld.PW_TSTAT_LOFF true (latchTrip n src s))) :=
    fun x => report_ok x _ (setFlag_ok _ _ _ _ h)
  extract_lets
  split
  · exact ok_ite (latchRail_ok _ _ (updHost_ok _ _ (h2 _))) (updHost_ok _ _ (h2 _))
  · exact h2 _

theorem pulseRail_ok {pq} (r : Nat) (s : State) (hyp : Sound pq s) : Sound pq (pulseRail r s) := by
  unfold pulseRail
  simp +contextual (maxDischargeDepth := 200) only [forAll_ok, ok_ite, implies_true, updFm_ok, tripChan_ok,
    latchRail_ok, hyp]

theorem rtResult_ok {pq} (r result : Nat) (s : State) (hyp : Sound pq s) : Sound pq (rtResult r result s) := by
  unfold rtResult
  simp only [setFld_ok, hyp]

theorem rtClear_ok {pq} (r : Nat) (s : State) (hyp : Sound pq s) : Sound pq (rtClear r s) := by
  unfold rtClear
  simp +contextual (maxDischargeDepth := 200) only [forAll_ok, ok_ite, implies_true, settlePort_ok,
    clearLatchOff_ok, railOff_ok, hyp]

theorem rtClrcnt_ok {pq} (r : Nat) (s : State) (hyp : Sound pq s) : Sound pq (rtClrcnt r s) := by
  unfold rtClrcnt
  simp (maxDischargeDepth := 200) only [updRail_ok, wr_ok, hyp]

theorem rtCommand_ok {pq} (op r : Nat) (bySeq : Bool) (s : State) (hyp : Sound pq s) :
    Sound pq (rtCommand op r bySeq s) := by
  unfold rtCommand
  simp (maxDischargeDepth := 200) only [ok_ite, rtResult_ok, rtClear_ok, rtClrcnt_ok, updSup_ok, setFlag_ok,
    updRail_ok, hyp]

end Sys2Proof.Machine
end

