-- ==== Sys2Proof/Laws/KeepSequence.lean ====
section
/-! SUPPORT. The operations of Machine/Sequence.lean keep what Kept names: the canonical memory, the sides apart, the
fuses blown, and the queue. -/

namespace Sys2Proof.Machine

theorem seqIssue_ok {pq} (op r : Nat) (s : State) (hyp : Sound pq s) : Sound pq (seqIssue op r s) := by
  unfold seqIssue
  simp only [ok_ite, updSup_ok, rtCommand_ok, hyp]

theorem stopRamp_ok {pq} (r : Nat) (s : State) (hyp : Sound pq s) : Sound pq (stopRamp r s) := by
  unfold stopRamp
  simp only [ok_ite, updRail_ok, hyp]

theorem startShutdown_ok {pq} (cause : Nat) (s : State) (hyp : Sound pq s) : Sound pq (startShutdown cause s) := by
  unfold startShutdown
  simp +contextual (maxDischargeDepth := 200) only [forAll_ok, ok_ite, implies_true, wr_ok, report_ok, enterMode_ok,
    setFlag_ok, updSup_ok, stopRamp_ok, seqMark_ok, seqIssue_ok, hyp]

theorem seqFail_ok {pq} (r : Nat) (s : State) (hyp : Sound pq s) : Sound pq (seqFail r s) := by
  unfold seqFail
  simp only [startShutdown_ok, setFld_ok, hyp]

theorem seqEnable_ok {pq} (r : Nat) (s : State) (hyp : Sound pq s) : Sound pq (seqEnable r s) := by
  unfold seqEnable
  simp (maxDischargeDepth := 200) only [ok_ite, seqIssue_ok, seqFail_ok, hyp]

theorem unsafeLatch_ok {pq} (r : Nat) (s : State) (hyp : Sound pq s) : Sound pq (unsafeLatch r s) := by
  unfold unsafeLatch
  simp (maxDischargeDepth := 200) only [ok_ite, pulseRail_ok, report_ok, startShutdown_ok, hyp]

theorem unsafeConverter_ok {pq} (r : Nat) (s : State) (hyp : Sound pq s) : Sound pq (unsafeConverter r s) := by
  unfold unsafeConverter
  simp (maxDischargeDepth := 200) only [ok_ite, settleConverter_ok, report_ok, updRail_ok, unsafeLatch_ok, hyp]

end Sys2Proof.Machine
end

