-- ==== Sys2Proof/Laws/KeepSenseOps.lean ====
section
/-! SUPPORT. The operations of Machine/SenseOps.lean keep what Kept names: the canonical memory, the sides apart, the
fuses blown, and the queue. -/

namespace Sys2Proof.Machine

theorem showCur_ok {pq} (q c : Nat) (lo hi : Int) (s : State) (hyp : Sound pq s) :
    Sound pq (showCur q c lo hi s) := by
  unfold showCur
  simp only [wr_ok, hyp]

theorem latchSide_ok {pq} (q c : Nat) (upper : Bool) (s : State) (hyp : Sound pq s) :
    Sound pq (latchSide q c upper s) := by
  unfold latchSide
  simp (maxDischargeDepth := 200) only [ok_ite, setFlag_ok, incFld_ok, report_ok, setLine_ok, hyp]

theorem burstFire_ok {pq} (r : Nat) (s : State) (hyp : Sound pq s) : Sound pq (burstFire r s) := by
  unfold burstFire
  simp (maxDischargeDepth := 200) only [ok_ite, incFld_ok, setLine_ok, updRail_ok, hyp]

theorem burstFrom_ok {pq} (q c : Nat) (s : State) (hyp : Sound pq s) : Sound pq (burstFrom q c s) := by
  unfold burstFrom
  simp +contextual (maxDischargeDepth := 200) only [forAll_ok, ok_ite, implies_true, burstFire_ok, hyp]

theorem clearSide_ok {pq} (q c : Nat) (upper : Bool) (s : State) (hyp : Sound pq s) :
    Sound pq (clearSide q c upper s) := by
  unfold clearSide
  simp only [ok_ite, setFlag_ok, hyp]

theorem periodClear_ok {pq} (q p : Nat) (s : State) (hyp : Sound pq s) : Sound pq (periodClear q p s) := by
  unfold periodClear
  simp +contextual (maxDischargeDepth := 200) only [forAll_ok, ok_ite, implies_true, clearSide_ok, hyp]

theorem countHeld_ok {pq} (q c t : Nat) (s : State) (hyp : Sound pq s) : Sound pq (countHeld q c t s) := by
  unfold countHeld
  simp only [updComp_ok, addFld_ok, hyp]

theorem startTracking_ok {pq} (q c : Nat) (s : State) (hyp : Sound pq s) : Sound pq (startTracking q c s) := by
  unfold startTracking
  simp only [showCur_ok, updComp_ok, hyp]

theorem plainThresholds_ok {pq} (q c : Nat) (s : State) (hyp : Sound pq s) : Sound pq (plainThresholds q c s) := by
  unfold plainThresholds
  simp only [setFlag_ok, wr_ok, hyp]

theorem adoptThresholds_ok {pq} (q c t : Nat) (s : State) (hyp : Sound pq s) : Sound pq (adoptThresholds q c t s) := by
  unfold adoptThresholds
  simp (maxDischargeDepth := 200) only [ok_ite, showCur_ok, countHeld_ok, setFlag_ok, updComp_ok, hyp]

theorem trackTick_ok {pq} (q c t : Nat) (lo hi : Int) (s : State) (hyp : Sound pq s) :
    Sound pq (trackTick q c t lo hi s) := by
  unfold trackTick
  simp (maxDischargeDepth := 200) only [updComp_ok, hyp]

theorem plausTick_ok {pq} (q c : Nat) (a : Int) (s : State) (hyp : Sound pq s) : Sound pq (plausTick q c a s) := by
  unfold plausTick
  simp only [ok_ite, updComp_ok, hyp]

theorem comparatorTick_ok {pq} (q c : Nat) (x : TickSnap) (s : State) (hyp : Sound pq s) :
    Sound pq (comparatorTick q c x s) := by
  unfold comparatorTick
  simp (maxDischargeDepth := 200) only [ok_ite, adoptThresholds_ok, trackTick_ok, updComp_ok, plausTick_ok, hyp]

theorem takeTicks_ok {pq} (q c t : Nat) (s : State) (hyp : Sound pq s) : Sound pq (takeTicks q c t s) := by
  unfold takeTicks
  simp +contextual (maxDischargeDepth := 200) only [forAll_ok, implies_true, adoptThresholds_ok, comparatorTick_ok, hyp]

theorem comparatorTicks_ok {pq} (q t : Nat) (s : State) (hyp : Sound pq s) : Sound pq (comparatorTicks q t s) := by
  unfold comparatorTicks
  simp +contextual (maxDischargeDepth := 200) only [forAll_ok, implies_true, takeTicks_ok, hyp]

end Sys2Proof.Machine
end

