-- ==== Sys2Proof/Laws/KeepLoop.lean ====
section
/-! SUPPORT. The operations of Machine/Loop.lean keep what Kept names: the canonical memory, the sides apart, the
fuses blown, and the queue. -/

namespace Sys2Proof.Machine

theorem intentTick_ok {pq} (r k : Nat) (s : State) (hyp : Sound pq s) : Sound pq (intentTick r k s).1 := by
  unfold intentTick
  simp (maxDischargeDepth := 200) only [ok_ite, updRail_ok, showLanes_ok, setFlag_ok, wr_ok, incFld_ok, hyp]

theorem setCount_ok {pq} (r n : Nat) (s : State) (hyp : Sound pq s) : Sound pq (setCount r n s) := by
  unfold setCount
  with_reducible
    repeat'
      first
      | assumption | dsimp only | apply setActive_ok | refine forAll_ok _ (fun _ _ _ => ?_) ?_
      | refine foldl_ok _ (fun _ _ _ => ?_) ?_ | split

theorem dropLost_ok {pq} (r : Nat) (s : State) (hyp : Sound pq s) : Sound pq (dropLost r s) := by
  unfold dropLost
  simp +contextual (maxDischargeDepth := 200) only [forAll_ok, implies_true, setActive_ok, hyp]

theorem showCounts_ok {pq} (r : Nat) (s : State) (hyp : Sound pq s) : Sound pq (showCounts r s) := by
  unfold showCounts
  simp +contextual (maxDischargeDepth := 200) only [forAll_ok, implies_true, setFld_ok, setFlag_ok, hyp]

theorem checkFloor_ok {pq} (r : Nat) (s : State) (hyp : Sound pq s) : Sound pq (checkFloor r s) := by
  unfold checkFloor
  simp (maxDischargeDepth := 200) only [ok_ite, setFlag_ok, settleUnderfloor_ok, report_ok, hyp]

theorem noteSet_ok {pq} (r : Nat) (s : State) (hyp : Sound pq s) : Sound pq (noteSet r s) := by
  unfold noteSet
  simp only [updRail_ok, hyp]

theorem stageMember_ok {pq} (r j n a count : Nat) (d : Int) (s : State)
    (hyp : Sound pq s) : Sound pq (stageMember r j n a count d s) := by
  unfold stageMember
  simp (maxDischargeDepth := 200) only [ok_ite, spend_ok, setFld_ok, wr_ok, setFlag_ok, loopLoad_ok, hyp]

theorem noteClamp_ok {pq} (r : Nat) (acted : Bool) (s : State) (hyp : Sound pq s) : Sound pq (noteClamp r acted s) := by
  unfold noteClamp
  simp only [wr_ok, setFlag_ok, hyp]

theorem stageRail_ok {pq} (r : Nat) (s : State) (hyp : Sound pq s) : Sound pq (stageRail r s) := by
  unfold stageRail
  simp +contextual (maxDischargeDepth := 200) only [forAll_ok, implies_true, setFlag_ok, stageMember_ok,
      parkPort_ok, noteClamp_ok, updRail_ok, hyp]

theorem endWalks_ok {pq} (r : Nat) (s : State) (hyp : Sound pq s) : Sound pq (endWalks r s) := by
  unfold endWalks
  simp +contextual (maxDischargeDepth := 200) only [forAll_ok, ok_ite, implies_true, updChan_ok, apart_mk, apart_c,
      imp_self, setFlag_ok, updRail_ok, hyp]

theorem burstRegs_ok {pq} (r t : Nat) (s : State) (hyp : Sound pq s) : Sound pq (burstRegs r t s) := by
  unfold burstRegs
  simp (maxDischargeDepth := 200) only [ok_ite, updRail_ok, addFld_ok, wr_ok, hyp]

theorem afterBurst_ok {pq} (r t : Nat) (s : State) (hyp : Sound pq s) : Sound pq (afterBurst r t s) := by
  unfold afterBurst
  simp (maxDischargeDepth := 200) only [ok_ite, updRail_ok, setCount_ok, burstRegs_ok, hyp]

theorem countStep_ok {pq} (r t : Nat) (s : State) (hyp : Sound pq s) : Sound pq (countStep r t s) := by
  unfold countStep
  simp (maxDischargeDepth := 200) only [ok_ite, checkFloor_ok, dropLost_ok, setCount_ok, updRail_ok, incFld_ok,
      showCounts_ok, noteSet_ok, hyp]

theorem wearTick_ok {pq} (r : Nat) (s : State) (hyp : Sound pq s) : Sound pq (wearTick r s) := by
  unfold wearTick
  simp only [updRail_ok, hyp]

theorem rotateTick_ok {pq} (r : Nat) (w : Waiting) (s : State) (hyp : Sound pq s) : Sound pq (rotateTick r w s) := by
  unfold rotateTick
  simp only [ok_ite, updRail_ok, hyp]

theorem finishIndex_ok {pq} (r : Nat) (w : Waiting) (id : Int) (s : State) (hyp : Sound pq s) :
    Sound pq (finishIndex r w id s) := by
  unfold finishIndex
  simp (maxDischargeDepth := 200) only [ok_ite, updRail_ok, countStep_ok, endWalks_ok, afterBurst_ok, wearTick_ok,
      rotateTick_ok, unsafeLatch_ok, noteClamp_ok, stageRail_ok, hyp]

theorem settleIndices_ok {pq} (fuel r : Nat) (s : State) (hyp : Sound pq s) : Sound pq (settleIndices fuel r s) := by
  induction fuel generalizing s with
  | zero => exact hyp
  | succ n ih =>
    unfold settleIndices
    split
    · exact ok_ite (ih _ (finishIndex_ok _ _ _ _ (updRail_ok _ _ _ hyp))) hyp
    · exact hyp

theorem presentIndex_ok {pq} (r k : Nat) (e u iff_ itot : Int) (s : State) (hyp : Sound pq s) :
    Sound pq (presentIndex r k e u iff_ itot s) := by
  unfold presentIndex
  simp (maxDischargeDepth := 200) only [wr_ok, setLine_ok, hyp]

theorem restTick_ok {pq} (r t : Nat) (s : State) (hyp : Sound pq s) : Sound pq (restTick r t s) := by
  unfold restTick
  simp (maxDischargeDepth := 200) only [wr_ok, setFlag_ok, burstRegs_ok, hyp]

theorem railTick_ok {pq} (r k t : Nat) (s : State) (hyp : Sound pq s) : Sound pq (railTick r k t s) := by
  unfold railTick
  extract_lets st
  refine ok_ite (restTick_ok _ _ _ hyp) ?_
  extract_lets
  rename_i q l x e tick s0 vramp itot vout rs
  have h0 : Sound pq s0 := forAll_ok _ (fun y s h => ok_ite h (noCurrent_ok _ _ h)) hyp
  split
  extract_lets vset den dac err
  split
  extract_lets x1 x2 s1
  have h1 : Sound pq s1 := setFlag_ok _ _ _ _ (setFlag_ok _ _ _ _ (setRail_ok _ _ _ h0))
  split
  rename_i _ s2 iff_ e2
  have h2 : Sound pq s2 := ok_pair e2 (intentTick_ok r k s1 h1)
  extract_lets ic eil s3 s4 takes sub w s5 s6
  have h3 : Sound pq s3 := setFlag_ok _ _ _ _ (setFlag_ok _ _ _ _ h2)
  have h4 : Sound pq s4 := ok_ite (presentIndex_ok _ _ _ _ _ _ _ h3) h3
  have h6 : Sound pq s6 := settleIndices_ok _ _ _ (updRail_ok _ _ _ h4)
  exact ok_ite (railOff_ok _ _ h6) (ok_ite (setFld_ok _ _ _ _ h6) h6)

theorem clearRsy_ok {pq} (n : Nat) (s : State) (hyp : Sound pq s) : Sound pq (clearRsy n s) := by
  unfold clearRsy
  simp (maxDischargeDepth := 200) only [ok_ite, setFlag_ok, updPort_ok, hyp]

theorem controlTick_ok {pq} (q t : Nat) (s : State) (hyp : Sound pq s) : Sound pq (controlTick q t s) := by
  unfold controlTick
  dsimp only
  with_reducible (repeat' (first
    | assumption | apply updTb_ok | apply clearRsy_ok | apply setFld_ok | apply railTick_ok
    | refine forAll_ok _ (fun _ _ _ => ?_) ?_))

theorem pgRise_ok {pq} (r : Nat) (s : State) (hyp : Sound pq s) : Sound pq (pgRise r s) := by
  unfold pgRise
  simp (maxDischargeDepth := 200) only [ok_ite, setFlag_ok, setFld_ok, updFm_ok, seqMark_ok, updSup_ok, hyp]

theorem pgFall_ok {pq} (r : Nat) (s : State) (hyp : Sound pq s) : Sound pq (pgFall r s) := by
  unfold pgFall
  simp (maxDischargeDepth := 200) only [ok_ite, setFlag_ok, report_ok, hyp]

theorem phaseDrop_ok {pq} (r : Nat) (s : State) (hyp : Sound pq s) : Sound pq (phaseDrop r s) := by
  unfold phaseDrop
  simp (maxDischargeDepth := 200) only [setCount_ok, updRail_ok, showCounts_ok, stageRail_ok, noteSet_ok, hyp]

theorem rotation_ok {pq} (r : Nat) (s : State) (hyp : Sound pq s) : Sound pq (rotation r s) := by
  unfold rotation
  with_reducible (repeat' (first
    | assumption | dsimp only | apply setActive_ok | apply showCounts_ok | apply stageRail_ok | apply noteSet_ok
    | apply updRail_ok | split))

theorem wearCount_ok {pq} (r j : Nat) (s : State) (hyp : Sound pq s) : Sound pq (wearCount r j s) := by
  unfold wearCount
  simp only [incFld_ok, updRail_ok, hyp]

theorem submit_ok {pq} (r k : Nat) (sub : Option Int) (s : State) (hyp : Sound pq s) :
    Sound pq (submit r k sub s) := by
  unfold submit
  refine ok_ite (incFld_ok _ _ _ hyp) ?_
  split
  · exact ok_ite (incFld_ok _ _ _ hyp) (settleIndices_ok _ _ _ (updRail_ok _ _ _ hyp))
  · exact incFld_ok _ _ _ hyp

theorem missDeadline_ok {pq} (r : Nat) (s : State) (hyp : Sound pq s) : Sound pq (missDeadline r s) := by
  unfold missDeadline
  exact settleIndices_ok _ _ _ (updRail_ok _ _ _ (report_ok _ _ (incFld_ok _ _ _ hyp)))

theorem endEil_ok {pq} (r : Nat) (s : State) (hyp : Sound pq s) : Sound pq (endEil r s) := by
  unfold endEil
  simp (maxDischargeDepth := 200) only [setFlag_ok, updRail_ok, hyp]

theorem nopWaiting_ok {pq} (r : Nat) (s : State) (hyp : Sound pq s) : Sound pq (nopWaiting r s) :=
  settleIndices_ok _ _ _ (updRail_ok _ _ _ hyp)

theorem cselWrite_ok {pq} (r v : Nat) (s : State) (hyp : Sound pq s) : Sound pq (cselWrite r v s) := by
  unfold cselWrite
  simp (maxDischargeDepth := 200) only [ok_ite, setFlag_ok, updRail_ok, hyp]

theorem coefSwapApply_ok {pq} (r k : Nat) (s : State) (hyp : Sound pq s) : Sound pq (coefSwapApply r k s) := by
  unfold coefSwapApply
  simp (maxDischargeDepth := 200) only [setFld_ok, setFlag_ok, wr_ok, updRail_ok, hyp]

theorem takeWaiting_ok {pq} (s : State) (hyp : Sound pq s) : Sound pq (takeWaiting s) := by
  unfold takeWaiting
  (repeat' split) <;> simp (maxDischargeDepth := 200) only [ok_ite, rtCommand_ok, updSup_ok, seqFail_ok, seqMark_ok,
    hyp]

theorem rebuildTable_ok {pq} (r : Nat) (e : RailEntry) (s : State) (hyp : Sound pq s) :
    Sound pq (rebuildTable r e s) := by
  unfold rebuildTable
  simp +contextual (maxDischargeDepth := 200) only [forAll_ok, implies_true, wr_ok, hyp]

theorem removeMembers_ok {pq} (r : Nat) (e : RailEntry) (s : State) (hyp : Sound pq s) :
    Sound pq (removeMembers r e s) := by
  unfold removeMembers
  simp +contextual (maxDischargeDepth := 200) only [forAll_ok, implies_true, setOwned_ok, setActive_ok, parkPort_ok,
      hyp]

theorem applyCommit_ok {pq} (r t : Nat) (s : State) (hyp : Sound pq s) : Sound pq (applyCommit r t s) := by
  unfold applyCommit
  simp +contextual (maxDischargeDepth := 200) only [forAll_ok, implies_true, rebuildTable_ok, removeMembers_ok,
      updRail_ok, setOwned_ok, hyp]

theorem applyEnable_ok {pq} (r t : Nat) (s : State) (hyp : Sound pq s) : Sound pq (applyEnable r t s) := by
  unfold applyEnable
  simp +contextual (maxDischargeDepth := 200) only [forAll_ok, implies_true, rebuildTable_ok, updRail_ok, setFld_ok,
      setOwned_ok, hyp]

theorem applyDisable_ok {pq} (r : Nat) (s : State) (hyp : Sound pq s) : Sound pq (applyDisable r s) := by
  unfold applyDisable
  simp (maxDischargeDepth := 200) only [cutLanes_ok, updRail_ok, setFld_ok, setFlag_ok, hyp]

theorem enterEnable_ok {pq} (r t : Nat) (s : State) (hyp : Sound pq s) : Sound pq (enterEnable r t s) := by
  unfold enterEnable
  simp (maxDischargeDepth := 200) only [ok_ite, updTb_ok, applyEnable_ok, latchRail_ok, hyp]

theorem entryApply_ok {pq} (r k t : Nat) (s : State) (hyp : Sound pq s) : Sound pq (entryApply r k t s) := by
  unfold entryApply
  simp (maxDischargeDepth := 200) only [ok_ite, applyCommit_ok, enterEnable_ok, applyDisable_ok, wr_ok, setFlag_ok,
      updRail_ok, updSup_ok, hyp]

end Sys2Proof.Machine
end

