-- ==== Sys2Proof/Laws/KeepReload.lean ====
section
/-! SUPPORT. The operations of Machine/Reload.lean keep what Kept names: the canonical memory, the sides apart, the
fuses blown, and the queue. -/

namespace Sys2Proof.Machine

theorem reloadTrip_ok {pq} (n : Nat) (s : State) (hyp : Sound pq s) : Sound pq (reloadTrip n s) := by
  unfold reloadTrip
  simp +contextual (maxDischargeDepth := 200) only [ok_ite, apart_ite, implies_true, periodClear_ok, updChan_ok,
      apart_mk, apart_c, imp_self, unlatch_ok, hyp]

theorem reloadQuiet_ok {pq} (n : Nat) (s : State) (hyp : Sound pq s) : Sound pq (reloadQuiet n s) := by
  unfold reloadQuiet
  simp only [updChan_ok, apart_mk, apart_c, imp_self, hyp]

theorem reloadDead_ok {pq} (n : Nat) (s : State) (hyp : Sound pq s) : Sound pq (reloadDead n s) := by
  unfold reloadDead
  simp only [setFld_ok, updChan_ok, apart_mk, apart_c, imp_self, hyp]

theorem swapLines_ok {pq} (n : Nat) (s : State) (hyp : Sound pq s) : Sound pq (swapLines n s) := by
  unfold swapLines
  simp (maxDischargeDepth := 200) only [ok_ite, updChan_ok, apart_mk, apart_c, imp_self, wr_ok, hyp]

theorem reloadActs_ok {pq} (n : Nat) (s : State) (hyp : Sound pq s) : Sound pq (reloadActs n s) := by
  unfold reloadActs
  simp (maxDischargeDepth := 200) only [reloadQuiet_ok, reloadTrip_ok, reloadDead_ok, swapLines_ok, hyp]

end Sys2Proof.Machine
end

