-- ==== Sys2Proof/Laws/KeepLanding.lean ====
section
/-! SUPPORT. The operations of Machine/Landing.lean keep what Kept names: the canonical memory, the sides apart, the
fuses blown, and the queue. -/

namespace Sys2Proof.Machine

theorem burstMember_ok {pq} (r n a count x : Nat) (s : State)
    (hyp : Sound pq s) : Sound pq (burstMember r n a count x s) := by
  unfold burstMember
  simp (maxDischargeDepth := 200) only [reloadActs_ok, updChan_ok, apart_mk, apart_c, imp_self, showRef_ok,
      settlePort_ok, startPeriod_ok, hyp]

theorem burstStart_ok {pq} (r : Nat) (s : State) (hyp : Sound pq s) : Sound pq (burstStart r s) := by
  unfold burstStart
  simp +contextual (maxDischargeDepth := 200) only [forAll_ok, ok_ite, implies_true, spend_ok, updRail_ok,
      burstMember_ok, setFlag_ok, hyp]

theorem dropHint_ok {pq} (r : Nat) (why : Option Bits) (s : State) (hyp : Sound pq s) :
    Sound pq (dropHint r why s) := by
  unfold dropHint
  (repeat' split) <;> simp only [incFld_ok, raiseFlag_ok, hyp]

theorem takeHint_ok {pq} (r : Nat) (h : HintWord) (t j : Nat) (s : State) (hyp : Sound pq s) :
    Sound pq (takeHint r h t j s) := by
  unfold takeHint
  simp (maxDischargeDepth := 200) only [ok_ite, updRail_ok, putCut_ok, incFld_ok, showLanes_ok, hyp]

theorem deliverHint_ok {pq} (h : HintWord) (s : State) (hyp : Sound pq s) : Sound pq (deliverHint h s) := by
  unfold deliverHint
  with_reducible
    repeat'
      first
      | assumption | dsimp only | apply dropHint_ok | apply incFld_ok | apply report_ok | apply takeHint_ok | split

theorem setTrust_ok {pq} (r t : Nat) (v : Nat) (s : State) (hyp : Sound pq s) : Sound pq (setTrust r t v s) := by
  unfold setTrust
  simp only [setFld_ok, setFlag_ok, hyp]

theorem penalise_ok {pq} (r t : Nat) (s : State) (hyp : Sound pq s) : Sound pq (penalise r t s) := by
  unfold penalise
  simp only [setTrust_ok, hyp]

theorem writeOutcome_ok {pq} (r j : Nat) (s : State) (hyp : Sound pq s) : Sound pq (writeOutcome r j s) := by
  unfold writeOutcome
  simp +contextual (maxDischargeDepth := 200) only [forAll_ok, ok_ite, implies_true, putOutcome_ok, penalise_ok,
      showLanes_ok, updRail_ok, hyp]

theorem cutEntry_ok {pq} (r t : Nat) (s : State) (hyp : Sound pq s) : Sound pq (cutEntry r t s) := by
  unfold cutEntry
  simp +contextual (maxDischargeDepth := 200) only [forAll_ok, ok_ite, implies_true, cutLane_ok, hyp]

theorem partWrite_ok {pq} (r t v : Nat) (s : State) (hyp : Sound pq s) : Sound pq (partWrite r t v s) := by
  unfold partWrite
  simp (maxDischargeDepth := 200) only [ok_ite, raiseFlag_ok, plainWrite_ok, setTrust_ok, cutEntry_ok, hyp]

theorem imCtrlWrite_ok {pq} (r v : Nat) (s : State) (hyp : Sound pq s) : Sound pq (imCtrlWrite r v s) := by
  unfold imCtrlWrite
  simp (maxDischargeDepth := 200) only [ok_ite, plainWrite_ok, cutLanes_ok, hyp]

theorem imClrcnt_ok {pq} (r : Nat) (s : State) (hyp : Sound pq s) : Sound pq (imClrcnt r s) := by
  unfold imClrcnt
  simp only [wr_ok, hyp]

theorem burstClrcnt_ok {pq} (r : Nat) (s : State) (hyp : Sound pq s) : Sound pq (burstClrcnt r s) := by
  unfold burstClrcnt
  simp only [wr_ok, setFld_ok, hyp]

end Sys2Proof.Machine
end

