-- ==== Sys2Proof/Laws/KeepNvm.lean ====
section
/-! SUPPORT. The operations of Machine/Nvm.lean keep what Kept names: the canonical memory, the sides apart, the fuses
blown, and the queue. -/

namespace Sys2Proof.Machine

theorem programCw_ok {pq} (p c : Nat) (bytes : List Nat) (s : State) (hyp : Sound pq s) :
    Sound pq (programCw p c bytes s) := by
  unfold programCw
  simp only [updNv_ok, hyp]

theorem programFrom_ok {pq} (p c : Nat) (bytes : List Nat) (s : State) (hyp : Sound pq s) :
    Sound pq (programFrom p c bytes s) := by
  unfold programFrom
  simp +contextual (maxDischargeDepth := 200) only [forAll_ok, implies_true, programCw_ok, hyp]

theorem blankSector_ok {pq} (p : Nat) (s : State) (hyp : Sound pq s) : Sound pq (blankSector p s) := by
  unfold blankSector
  simp only [updNv_ok, hyp]

theorem showWear_ok {pq} (s : State) (hyp : Sound pq s) : Sound pq (showWear s) := by
  unfold showWear
  simp only [wr_ok, hyp]

theorem eraseSector_ok {pq} (p : Nat) (s : State) (hyp : Sound pq s) : Sound pq (eraseSector p s) := by
  unfold eraseSector
  simp (maxDischargeDepth := 200) only [blankSector_ok, updNv_ok, showWear_ok, hyp]

theorem retireSector_ok {pq} (p sect : Nat) (s : State) (hyp : Sound pq s) : Sound pq (retireSector p sect s) := by
  unfold retireSector
  simp (maxDischargeDepth := 200) only [ok_ite, updNv_ok, incFld_ok, setFld_ok, showWear_ok, report_ok, hyp]

theorem remap_ok {pq} (sect p : Nat) (s : State) (hyp : Sound pq s) : Sound pq (remap sect p s) := by
  unfold remap
  simp only [updNv_ok, hyp]

theorem copySector_ok {pq} (o p : Nat) (s : State) (hyp : Sound pq s) : Sound pq (copySector o p s) := by
  unfold copySector
  simp (maxDischargeDepth := 200) only [ok_ite, programFrom_ok, blankSector_ok, updNv_ok, hyp]

theorem nvSource_ok {pq} (n : Nat) (s : State) (hyp : Sound pq s) : Sound pq (nvSource n s).1 := by
  unfold nvSource
  dsimp only
  split
  · exact accessError_ok _ _ _ _ _ s hyp
  · refine foldl_ok1 _ (fun x i hx => ?_) hyp
    split
    · exact touchWord_ok _ _ _ _ _ _ _ _ hx
    · exact hx

theorem nvEnd_ok {pq} (ok : Bool) (s : State) (hyp : Sound pq s) : Sound pq (nvEnd ok s) := by
  unfold nvEnd
  simp (maxDischargeDepth := 200) only [updNv_ok, setFlag_ok, setFld_ok, hyp]

theorem nvBegin_ok {pq} (op sect first n : Nat) (s : State)
    (hyp : Sound pq s) : Sound pq (nvBegin op sect first n s) := by
  unfold nvBegin
  with_reducible (repeat' (first
    | assumption | dsimp only | apply nvSource_ok | apply nvEnd_ok | apply setFlag_ok | apply updNv_ok
    | apply eraseSector_ok | refine ok_pair ‹_ = (_, _)› ?_ | split))

theorem nvCommand_ok {pq} (op sect : Nat) (s : State) (hyp : Sound pq s) : Sound pq (nvCommand op sect s) := by
  unfold nvCommand
  simp (maxDischargeDepth := 200) only [ok_ite, setFld_ok, updNv_ok, setFlag_ok, nvBegin_ok, hyp]

theorem nvResume_ok {pq} (s : State) (hyp : Sound pq s) : Sound pq (nvResume s) := by
  unfold nvResume
  (repeat' split) <;> simp only [nvBegin_ok, updNv_ok, hyp]

theorem sectorDone_ok {pq} (sect p : Nat) (data : List Nat) (ok : Bool) (s : State) (hyp : Sound pq s) :
    Sound pq (sectorDone sect p data ok s) := by
  unfold sectorDone
  simp (maxDischargeDepth := 200) only [ok_ite, nvEnd_ok, programFrom_ok, remap_ok, retireSector_ok, hyp]

theorem nvRefresh_ok {pq} (sect p : Nat) (dirty : Bool) (s : State) (hyp : Sound pq s) :
    Sound pq (nvRefresh sect p dirty s) := by
  unfold nvRefresh
  simp (maxDischargeDepth := 200) only [ok_ite, eraseSector_ok, copySector_ok, remap_ok, incFld_ok, updNv_ok, hyp]

theorem nvReadCw_ok {pq} (m a sect c flips : Nat) (s : State) (hyp : Sound pq s) :
    Sound pq (nvReadCw m a sect c flips s).1 := by
  unfold nvReadCw
  simp (maxDischargeDepth := 200) only [ok_ite1, updNv_ok, incFld_ok, report_ok, hyp]

theorem nvTouch_ok {pq} (m first n : Nat) (s : State) (hyp : Sound pq s) : Sound pq (nvTouch m first n s) := by
  unfold nvTouch
  with_reducible (repeat' (first | assumption | apply nvReadCw_ok | refine forAll_ok _ (fun _ _ _ => ?_) ?_ | split))

theorem nvWindowRead_ok {pq} (m a flips : Nat) (s : State) (hyp : Sound pq s) :
    Sound pq (nvWindowRead m a flips s).1 := by
  unfold nvWindowRead
  simp only [ok_ite1, nvReadCw_ok, hyp]

theorem clearSector_ok {pq} (sect : Nat) (s : State) (hyp : Sound pq s) : Sound pq (clearSector sect s) := by
  unfold clearSector
  (repeat' split) <;> simp only [remap_ok, eraseSector_ok, hyp]

theorem writeSlot_ok {pq} (sect : Nat) (ds : List (List Nat)) (s : State) (hyp : Sound pq s) :
    ∀ t, writeSlot sect ds s = some t → Sound pq t := by
  induction ds generalizing sect s with
  | nil => intro t e; unfold writeSlot at e; cases e; exact hyp
  | cons d ds ih =>
    intro t e
    unfold writeSlot at e
    split at e
    · exact ih _ _ (remap_ok _ _ _ (programFrom_ok _ _ _ _ (ok_ite (eraseSector_ok _ _ hyp) hyp))) t e
    · cases e

theorem failSector_ok {pq} (sect : Nat) (s : State) (hyp : Sound pq s) : Sound pq (failSector sect s) := by
  unfold failSector
  (repeat' split) <;> simp only [retireSector_ok, eraseSector_ok, hyp]

theorem ringAppend_ok {pq} (base pos : Nat) (bytes : List Nat) (s : State)
    (hyp : Sound pq s) : Sound pq (ringAppend base pos bytes s) := by
  unfold ringAppend
  simp (maxDischargeDepth := 200) only [ok_ite, clearSector_ok, programCw_ok, hyp]

theorem commitLifetime_ok {pq} (s : State) (hyp : Sound pq s) : Sound pq (commitLifetime s) := by
  unfold commitLifetime
  simp only [ringAppend_ok, updTb_ok, hyp]

theorem recordRas_ok {pq} (row : Bool) (k u : Nat) (s : State) (hyp : Sound pq s) : Sound pq (recordRas row k u s) := by
  unfold recordRas
  simp (maxDischargeDepth := 200) only [ok_ite, ringAppend_ok, updRas_ok, hyp]

theorem logAppend_ok {pq} (x : FaultRec) (s : State) (hyp : Sound pq s) : Sound pq (logAppend x s) := by
  unfold logAppend
  simp only [ringAppend_ok, updFm_ok, hyp]

end Sys2Proof.Machine
end

