-- ==== Sys2Proof/Laws/KeepFolioOps.lean ====
section
/-! SUPPORT. The operations of Machine/FolioOps.lean keep what Kept names: the canonical memory, the sides apart, the
fuses blown, and the queue. -/

namespace Sys2Proof.Machine

theorem dirAppend_ok {pq} (key : Nat) (x : DirRec) (s : State) (hyp : Sound pq s) : Sound pq (dirAppend key x s) := by
  unfold dirAppend
  simp only [ringAppend_ok, updFrm_ok, hyp]

theorem recordDir_ok {pq} (key : Nat) (s : State) (hyp : Sound pq s) : Sound pq (recordDir key s) := by
  unfold recordDir
  simp +contextual (maxDischargeDepth := 200) only [forAll_ok, implies_true, dirAppend_ok, hyp]

theorem setDir_ok {pq} (t i : Nat) (x : DirRec) (s : State) (hyp : Sound pq s) : Sound pq (setDir t i x s) := by
  unfold setDir
  simp (maxDischargeDepth := 200) only [ok_ite, updFrm_ok, recordDir_ok, hyp]

theorem flushDir_ok {pq} (s : State) (hyp : Sound pq s) : Sound pq (flushDir s) := by
  unfold flushDir
  simp +contextual (maxDischargeDepth := 200) only [forAll_ok, implies_true, updFrm_ok, recordDir_ok, hyp]

theorem loadDir_ok {pq} (s : State) (hyp : Sound pq s) : Sound pq (loadDir s) := by
  unfold loadDir
  simp only [updFrm_ok, hyp]

theorem readFolio_ok {pq} (sect count : Nat) (s : State) (hyp : Sound pq s) : Sound pq (readFolio sect count s) := by
  unfold readFolio
  simp only [nvTouch_ok, hyp]

theorem fillMemory_ok {pq} (k a n : Nat) (bytes : List Nat) (s : State) (hyp : Sound pq s) :
    Sound pq (fillMemory k a n bytes s) := by
  unfold fillMemory
  refine forAll_ok _ (fun g t ht => setMark_ok g true t ht) (updRas_ok _ _ ?_)
  exact ⟨fun e => foldl_tset_canon _ (fun (x : Nat × Nat) => a + x.1) (fun x => BitVec.ofNat 8 x.2)
    (filter_canon _ (hyp.1 e)), hyp.2⟩

theorem loadImage_ok {pq} (e image k : Nat) (f : List Nat) (s : State) (hyp : Sound pq s) :
    Sound pq (loadImage e image k f s) := by
  unfold loadImage
  simp (maxDischargeDepth := 200) only [fillMemory_ok, updEng_ok, hyp]

theorem writeRailWords_ok {pq} (r : Nat) (ws : List (Nat × Nat)) (s : State) (hyp : Sound pq s) :
    Sound pq (writeRailWords r ws s) := by
  unfold writeRailWords
  simp +contextual (maxDischargeDepth := 200) only [forAll_ok, implies_true, plainWrite_ok, hyp]

theorem writeSlotValues_ok {pq} (body : List Nat) (r : Nat) (s : State) (hyp : Sound pq s) :
    Sound pq (writeSlotValues body r s) := by
  unfold writeSlotValues
  simp (maxDischargeDepth := 200) only [plainWrite_ok, imCtrlWrite_ok, hyp]

theorem writeSequence_ok {pq} (body : List Nat) (s : State) (hyp : Sound pq s) : Sound pq (writeSequence body s) := by
  unfold writeSequence
  simp +contextual (maxDischargeDepth := 200) only [forAll_ok, implies_true, plainWrite_ok, hyp]

theorem writeCoef_ok {pq} (body : List Nat) (r k : Nat) (s : State) (hyp : Sound pq s) :
    Sound pq (writeCoef body r k s) := by
  unfold writeCoef
  simp +contextual (maxDischargeDepth := 200) only [forAll_ok, implies_true, wr_ok, hyp]

end Sys2Proof.Machine
end

