-- ==== Sys2Proof/Laws/KeepPwm.lean ====
section
/-! SUPPORT. The operations of Machine/Pwm.lean keep what Kept names: the canonical memory, the sides apart, the fuses
blown, and the queue. -/

namespace Sys2Proof.Machine

theorem stageWrite_ok {pq} (n a : Nat) (f : Bits) (v : Nat) (s : State) (hyp : Sound pq s) :
    Sound pq (stageWrite n a f v s) := by
  unfold stageWrite
  simp (maxDischargeDepth := 200) only [ok_ite, pwmWref_ok, setFlag_ok, plainWrite_ok, hyp]

theorem perStage_ok {pq} (n v : Nat) (s : State) (hyp : Sound pq s) : Sound pq (perStage n v s) := by
  unfold perStage
  simp only [stageWrite_ok, hyp]

theorem onStage_ok {pq} (n v : Nat) (s : State) (hyp : Sound pq s) : Sound pq (onStage n v s) := by
  unfold onStage
  simp only [stageWrite_ok, hyp]

theorem ofsStage_ok {pq} (n v : Nat) (s : State) (hyp : Sound pq s) : Sound pq (ofsStage n v s) := by
  unfold ofsStage
  simp only [stageWrite_ok, hyp]

theorem checkedLoad_ok {pq} (n : Nat) {f : State → State} {s : State} (hf : ∀ s, Sound pq s → Sound pq (f s))
    (hyp : Sound pq s) : Sound pq (checkedLoad n f s) := by
  unfold checkedLoad
  exact ok_ite (pwmWref_ok _ _ hyp)
    (ok_ite (ok_ite (raiseWord_ok _ _ _ hyp) (hf _ (raiseWord_ok _ _ _ hyp))) (hf _ hyp))

theorem loadChan_ok {pq} (n : Nat) (s : State) (hyp : Sound pq s) : Sound pq (loadChan n s) := by
  unfold loadChan
  simp only [loadBuffer_ok, hyp]

theorem loadAll_ok {pq} (q mask : Nat) (s : State) (hyp : Sound pq s) : Sound pq (loadAll q mask s) :=
  forAll_ok _ (fun _ _ h => checkedLoad_ok _ (fun _ h => loadChan_ok _ _ h) h) hyp

theorem leaveWalk_apart {c : Chan} (h : Apart c) : Apart (leaveWalk c) := by
  unfold leaveWalk
  simp only [apart_ite, apart_mk, apart_c, h]

theorem reloadPeriod_ok {pq} (n x : Nat) (s : State) (hyp : Sound pq s) : Sound pq (reloadPeriod n x s).1 := by
  unfold reloadPeriod
  simp +contextual (maxDischargeDepth := 200) only [ok_ite, ok_ite1, leaveWalk_apart, implies_true, takeBuffer_ok,
      updChan_ok, apart_mk, apart_c, imp_self, hyp]

theorem reloadAt_ok {pq} (n x : Nat) (s : State) (hyp : Sound pq s) : Sound pq (reloadAt n x s) := by
  unfold reloadAt
  simp (maxDischargeDepth := 200) only [reloadPeriod_ok, reloadActs_ok, beginPeriod_ok, showRef_ok, settlePort_ok,
      hyp]

theorem firstPeriod_ok {pq} (n : Nat) (s : State) (hyp : Sound pq s) : Sound pq (firstPeriod n s) := by
  unfold firstPeriod
  simp only [updChan_ok, apart_mk, apart_c, imp_self, reloadAt_ok, hyp]

theorem guardEdge_ok {pq} (n : Nat) (s : State) (due : guardDue s n = true) (hyp : Sound pq s) :
    Sound pq (guardEdge n s) := by
  unfold guardEdge
  refine updChan_ok _ _ _ hyp fun h => ?_
  revert due
  unfold guardDue Apart at *
  split <;> simp_all [dueAt]
  rintro (⟨a, b⟩ | ⟨a, -⟩)
  · simp_all
  · exact ⟨h.2.2 a, Decidable.byContradiction fun c => a (h.2.1 c).2.2⟩

theorem hsEnd_ok {pq} (n : Nat) (s : State) (hyp : Sound pq s) : Sound pq (hsEnd n s) := by
  unfold hsEnd
  refine updChan_ok _ _ _ hyp fun h => ?_
  unfold Apart at h ⊢
  dsimp only
  (repeat' split) <;> simp_all [hsOffAt_hs, hsOffAt_ls, hsOffAt_pendLs]

theorem immediateChan_ok {pq} (n : Nat) (s : State) (hyp : Sound pq s) : Sound pq (immediateChan n s) := by
  unfold immediateChan
  simp +contextual (maxDischargeDepth := 200) only [ok_ite, loadBuffer_ok, shortenPulse_apart, implies_true,
      updChan_ok, apart_mk, apart_c, imp_self, reloadActs_ok, beginPeriod_ok, settlePort_ok, wr_ok, hyp]

theorem immediateLoad_ok {pq} (q mask : Nat) (s : State) (hyp : Sound pq s) : Sound pq (immediateLoad q mask s) :=
  forAll_ok _ (fun _ _ h => checkedLoad_ok _ (fun _ h => immediateChan_ok _ _ h) h) hyp

theorem setMode_ok {pq} (n md : Nat) (s : State) (hyp : Sound pq s) : Sound pq (setMode n md s) := by
  unfold setMode
  simp (maxDischargeDepth := 200) only [ok_ite, setFld_ok, updChan_ok, apart_mk, apart_c, imp_self, swapLines_ok,
      stopChan_ok, armFirst_ok, settlePort_ok, hyp]

theorem cfgWrite_ok {pq} (n v : Nat) (s : State) (hyp : Sound pq s) : Sound pq (cfgWrite n v s) := by
  unfold cfgWrite
  simp (maxDischargeDepth := 200) only [ok_ite, setFld_ok, plainWrite_ok, pwmWref_ok, setMode_ok, hyp]

theorem tlrefCommit_ok {pq} (q v : Nat) (s : State) (hyp : Sound pq s) : Sound pq (tlrefCommit q v s) := by
  unfold tlrefCommit
  repeat'
    first
    | assumption | apply wr_ok | apply ok_ite | refine forAll_ok _ (fun _ _ _ => ?_) ?_ | split
    | dsimp +zetaDelta only

theorem dtaWrite_ok {pq} (n v : Nat) (s : State) (hyp : Sound pq s) : Sound pq (dtaWrite n v s) := by
  unfold dtaWrite
  simp (maxDischargeDepth := 200) only [ok_ite, raiseFlag_ok, plainWrite_ok, updChan_ok, apart_mk, apart_c,
      imp_self, hyp]

theorem deadObserve_ok {pq} (n obs : Nat) (s : State) (hyp : Sound pq s) : Sound pq (deadObserve n obs s) := by
  unfold deadObserve
  simp (maxDischargeDepth := 200) only [ok_ite, setFld_ok, incFld_ok, setFlag_ok, updChan_ok, apart_mk, apart_c,
      imp_self, hyp]

theorem clearRefused_ok {pq} (n : Nat) (s : State) (hyp : Sound pq s) : Sound pq (clearRefused n s) := by
  unfold clearRefused
  simp only [raiseFlag_ok, hyp]

theorem tripClear_ok {pq} (n : Nat) (s : State) (hyp : Sound pq s) : Sound pq (tripClear n s) := by
  unfold tripClear
  simp (maxDischargeDepth := 200) only [ok_ite, clearRefused_ok, settlePort_ok, unlatch_ok, hyp]

theorem loffClear_ok {pq} (n : Nat) (s : State) (hyp : Sound pq s) : Sound pq (loffClear n s) := by
  unfold loffClear
  simp (maxDischargeDepth := 200) only [ok_ite, clearRefused_ok, settlePort_ok, clearLatchOff_ok, hyp]

theorem calMap_ok {pq} (n g : Nat) (ok : Bool) (resid : Nat) (s : State) (hyp : Sound pq s) :
    Sound pq (calMap n g ok resid s) := by
  unfold calMap
  simp (maxDischargeDepth := 200) only [ok_ite, setFld_ok, updChan_ok, apart_mk, apart_c, imp_self, swapLines_ok,
      raiseFlag_ok, report_ok, hyp]

end Sys2Proof.Machine
end

