-- ==== Sys2Proof/Laws/KeepSense.lean ====
section
/-! SUPPORT. The operations of Machine/Sense.lean keep what Kept names: the canonical memory, the sides apart, the
fuses blown, and the queue. -/

namespace Sys2Proof.Machine

theorem seqCommit_ok {pq} (q : Nat) (s : State) (hyp : Sound pq s) : Sound pq (seqCommit q s) := by
  unfold seqCommit
  simp (maxDischargeDepth := 200) only [ok_ite, setFld_ok, setFlag_ok, updSense_ok, hyp]

theorem restartUnit_ok {pq} (q c f : Nat) (s : State) (hyp : Sound pq s) : Sound pq (restartUnit q c f s) := by
  unfold restartUnit
  simp only [setFlag_ok, updConv_ok, hyp]

theorem showShort_ok {pq} (q : Nat) (s : State) (hyp : Sound pq s) : Sound pq (showShort q s) := by
  unfold showShort
  simp +contextual (maxDischargeDepth := 200) only [forAll_ok, implies_true, setFlag_ok, hyp]

theorem activateTable_ok {pq} (q c log : Nat) (tab : List Nat) (s : State) (hyp : Sound pq s) :
    Sound pq (activateTable q c log tab s) := by
  unfold activateTable
  simp +contextual (maxDischargeDepth := 200) only [forAll_ok, implies_true, wr_ok, setFld_ok, updConv_ok,
    restartUnit_ok, hyp]

theorem activateTables_ok {pq} (q : Nat) (s : State) (hyp : Sound pq s) : Sound pq (activateTables q s) := by
  unfold activateTables
  simp (maxDischargeDepth := 200) only [activateTable_ok, setFlag_ok, showShort_ok, updSense_ok, hyp]

theorem showOutput_ok {pq} (q c f k : Nat) (o : Int) (s : State) (hyp : Sound pq s) :
    Sound pq (showOutput q c f k o s) := by
  unfold showOutput
  simp only [setFld_ok, updConv_ok, hyp]

theorem filterTake_ok {pq} (q c f k : Nat) (emit : Bool) (tag dac : Nat) (v : Int) (s : State) (hyp : Sound pq s) :
    Sound pq (filterTake q c f k emit tag dac v s) := by
  unfold filterTake
  simp (maxDischargeDepth := 200) only [ok_ite, updConv_ok, showOutput_ok, hyp]

theorem fcfgWrite_ok {pq} (q c f v : Nat) (s : State) (hyp : Sound pq s) : Sound pq (fcfgWrite q c f v s) := by
  unfold fcfgWrite
  simp (maxDischargeDepth := 200) only [ok_ite, raiseFlag_ok, restartUnit_ok, plainWrite_ok, hyp]

theorem showUnit_ok {pq} (q c f : Nat) (k : Option Nat) (s : State) (hyp : Sound pq s) :
    Sound pq (showUnit q c f k s) := by
  unfold showUnit
  (repeat' split) <;> simp only [showOutput_ok, hyp]

theorem settle_ok {pq} (q c f : Nat) (s : State) (hyp : Sound pq s) : Sound pq (settle q c f s) := by
  unfold settle
  simp only [setFlag_ok, showUnit_ok, hyp]

theorem takeEstimates_ok {pq} (q c : Nat) (est : List SliceEst) (s : State)
    (hyp : Sound pq s) : Sound pq (takeEstimates q c est s) := by
  unfold takeEstimates
  simp only [updConv_ok, hyp]

theorem failConverter_ok {pq} (q c : Nat) (s : State) (hyp : Sound pq s) : Sound pq (failConverter q c s) := by
  unfold failConverter
  simp +contextual (maxDischargeDepth := 200) only [forAll_ok, ok_ite, implies_true, setFlag_ok, report_ok,
    unsafeConverter_ok, hyp]

theorem retireSlice_ok {pq} (q c i : Nat) (s : State) (hyp : Sound pq s) : Sound pq (retireSlice q c i s) := by
  unfold retireSlice
  simp (maxDischargeDepth := 200) only [ok_ite, setFld_ok, report_ok, settleConverter_ok, setLine_ok, failConverter_ok,
    hyp]

theorem applyEstimates_ok {pq} (q c : Nat) (s : State) (hyp : Sound pq s) : Sound pq (applyEstimates q c s) := by
  unfold applyEstimates
  simp +contextual (maxDischargeDepth := 200) only [forAll_ok, ok_ite, implies_true, updConv_ok, retireSlice_ok,
    wr_ok, hyp]

theorem sretWrite_ok {pq} (q c v : Nat) (s : State) (hyp : Sound pq s) : Sound pq (sretWrite q c v s) := by
  unfold sretWrite
  with_reducible
    repeat'
      first
      | assumption | apply updConv_ok

theorem retireAsked_ok {pq} (q c : Nat) (s : State) (hyp : Sound pq s) : Sound pq (retireAsked q c s) := by
  unfold retireAsked
  with_reducible
    repeat'
      first
      | assumption | apply retireSlice_ok | apply updConv_ok | refine forAll_ok _ (fun _ _ _ => ?_) ?_

theorem windowSample_ok {pq} (n : Nat) (x : Int) (s : State) (hyp : Sound pq s) : Sound pq (windowSample n x s) := by
  unfold windowSample
  simp (maxDischargeDepth := 200) only [ok_ite, setFld_ok, updWin_ok, setFlag_ok, incFld_ok, hyp]

theorem auxOutputs_ok {pq} (q c input : Nat) (s : State) (hyp : Sound pq s) : Sound pq (auxOutputs q c input s) := by
  unfold auxOutputs
  simp +contextual (maxDischargeDepth := 200) only [forAll_ok, ok_ite, implies_true, windowSample_ok, hyp]

theorem takeCheck_ok {pq} (q c len : Nat) (check : Bool) (v : Int) (s : State) (hyp : Sound pq s) :
    Sound pq (takeCheck q c len check v s) := by
  unfold takeCheck
  simp only [updConv_ok, hyp]

theorem feedStream_ok {pq} (q c k tag : Nat) (v : Int) (s : State) (hyp : Sound pq s) :
    Sound pq (feedStream q c k tag v s) := by
  unfold feedStream
  with_reducible
    repeat'
      first
      | assumption | dsimp only | apply updConv_ok | apply filterTake_ok | apply auxOutputs_ok | split

theorem widenBy_ok {pq} (q c k : Nat) (v : Int) (s : State) (hyp : Sound pq s) : Sound pq (widenBy q c k v s) := by
  unfold widenBy
  simp only [ok_ite, updConv_ok, hyp]

theorem snapshot_ok {pq} (q c : Nat) (s : State) (hyp : Sound pq s) : Sound pq (snapshot q c s) := by
  unfold snapshot
  simp only [updConv_ok, hyp]

theorem holdSample_ok {pq} (q c k : Nat) (check : Bool) (s : State)
    (hyp : Sound pq s) : Sound pq (holdSample q c k check s) := by
  unfold holdSample
  simp (maxDischargeDepth := 200) only [ok_ite, incFld_ok, setFlag_ok, feedStream_ok, widenBy_ok, hyp]

theorem aggregate_ok {pq} (q c code : Nat) (s : State) (hyp : Sound pq s) : Sound pq (aggregate q c code s) := by
  unfold aggregate
  with_reducible (repeat' (first
    | assumption | dsimp only | apply updConv_ok | apply raiseFlag_ok | apply takeCheck_ok | apply feedStream_ok
    | apply widenBy_ok | apply holdSample_ok | apply snapshot_ok | apply comparatorTicks_ok | split))

theorem mismatch_ok {pq} (q : Nat) (s : State) (hyp : Sound pq s) : Sound pq (mismatch q s) := by
  unfold mismatch
  simp (maxDischargeDepth := 200) only [ok_ite, setFld_ok, raiseFlag_ok, setFlag_ok, setLine_ok, report_ok, hyp]

theorem crossCheck_ok {pq} (q : Nat) (s : State) (hyp : Sound pq s) : Sound pq (crossCheck q s) := by
  unfold crossCheck
  with_reducible
    repeat'
      first
      | assumption | apply setFld_ok | apply setFlag_ok | apply updSense_ok | apply mismatch_ok | apply ok_ite

theorem useThresholds_ok {pq} (q c : Nat) (was : Bool) (s : State) (hyp : Sound pq s) :
    Sound pq (useThresholds q c was s) := by
  unfold useThresholds
  simp (maxDischargeDepth := 200) only [ok_ite, startTracking_ok, plainThresholds_ok, hyp]

theorem wcCfgWrite_ok {pq} (q c v : Nat) (s : State) (hyp : Sound pq s) : Sound pq (wcCfgWrite q c v s) := by
  unfold wcCfgWrite
  simp (maxDischargeDepth := 200) only [ok_ite, takeTicks_ok, raiseFlag_ok, plainWrite_ok, countHeld_ok, updComp_ok,
      setFlag_ok, useThresholds_ok, burstFrom_ok, hyp]

theorem undoClear_ok {pq} (q c : Nat) (upper : Bool) (s : State) (hyp : Sound pq s) :
    Sound pq (undoClear q c upper s) := by
  unfold undoClear
  simp (maxDischargeDepth := 200) only [ok_ite, setFlag_ok, raiseFlag_ok, hyp]

theorem raiseSide_ok {pq} (q c : Nat) (upper : Bool) (s : State)
    (hyp : Sound pq s) : Sound pq (raiseSide q c upper s) := by
  unfold raiseSide
  simp (maxDischargeDepth := 200) only [ok_ite, undoClear_ok, setFlag_ok, updComp_ok, latchSide_ok, burstFrom_ok, hyp]

theorem wcCross_ok {pq} (q c : Nat) (x : Int) (s : State) (hyp : Sound pq s) : Sound pq (wcCross q c x s) := by
  unfold wcCross
  simp (maxDischargeDepth := 200) only [ok_ite, raiseSide_ok, hyp]

theorem wcFall_ok {pq} (q c : Nat) (x : Int) (s : State) (hyp : Sound pq s) : Sound pq (wcFall q c x s) := by
  unfold wcFall
  simp (maxDischargeDepth := 200) only [ok_ite, setFlag_ok, hyp]

theorem wcClear_ok {pq} (q c : Nat) (upper : Bool) (s : State) (hyp : Sound pq s) : Sound pq (wcClear q c upper s) := by
  unfold wcClear
  simp (maxDischargeDepth := 200) only [ok_ite, raiseFlag_ok, setFlag_ok, updComp_ok, hyp]

theorem markStuck_ok {pq} (q c : Nat) (upper : Bool) (s : State) (hyp : Sound pq s) :
    Sound pq (markStuck q c upper s) := by
  unfold markStuck
  simp (maxDischargeDepth := 200) only [updComp_ok, raiseFlag_ok, report_ok, hyp]

theorem markImpl_ok {pq} (q c : Nat) (s : State) (hyp : Sound pq s) : Sound pq (markImpl q c s) := by
  unfold markImpl
  simp (maxDischargeDepth := 200) only [updComp_ok, raiseFlag_ok, report_ok, hyp]

theorem boundWrite_ok {pq} (q c : Nat) (upper : Bool) (v : Nat) (s : State) (hyp : Sound pq s) :
    Sound pq (boundWrite q c upper v s) := by
  unfold boundWrite
  simp only [ok_ite, raiseFlag_ok, plainWrite_ok, hyp]

theorem toppClear_ok {pq} (q c : Nat) (s : State) (hyp : Sound pq s) : Sound pq (toppClear q c s) := by
  unfold toppClear
  simp only [wr_ok, countHeld_ok, hyp]

theorem ocpCfgWrite_ok {pq} (n v : Nat) (s : State) (hyp : Sound pq s) : Sound pq (ocpCfgWrite n v s) := by
  unfold ocpCfgWrite
  simp (maxDischargeDepth := 200) only [ok_ite, plainWrite_ok, setFlag_ok, updWin_ok, hyp]

theorem trkWrite_ok {pq} (q c v : Nat) (s : State) (hyp : Sound pq s) : Sound pq (trkWrite q c v s) := by
  unfold trkWrite
  simp (maxDischargeDepth := 200) only [countHeld_ok, takeTicks_ok, useThresholds_ok, plainWrite_ok, hyp]

theorem thrWrite_ok {pq} (q c v : Nat) (s : State) (hyp : Sound pq s) : Sound pq (thrWrite q c v s) := by
  unfold thrWrite
  simp (maxDischargeDepth := 200) only [ok_ite, plainWrite_ok, takeTicks_ok, plainThresholds_ok, hyp]

end Sys2Proof.Machine
end

