-- ==== Sys2Proof/Laws/KeepRecorder.lean ====
section
/-! SUPPORT. The operations of Machine/Recorder.lean keep what Kept names: the canonical memory, the sides apart, the
fuses blown, and the queue. -/

namespace Sys2Proof.Machine

theorem erPut_ok {pq} (a v : Nat) (s : State) (hyp : Sound pq s) : Sound pq (erPut a v s) := by
  unfold erPut
  simp only [storeWord_ok, hyp]

theorem erPuts_ok {pq} (a : Nat) (ws : List Nat) (s : State) (hyp : Sound pq s) : Sound pq (erPuts a ws s) := by
  unfold erPuts
  simp +contextual (maxDischargeDepth := 200) only [forAll_ok, implies_true, erPut_ok, hyp]

theorem erRead_ok {pq} (a : Nat) (s : State) (hyp : Sound pq s) : Sound pq (erRead a s).1 := by
  unfold erRead
  simp only [touchWord_ok, hyp]

theorem putExtreme_ok {pq} (a : Nat) (v : Int) (pcc hrs : Nat) (s : State) (hyp : Sound pq s) :
    Sound pq (putExtreme a v pcc hrs s) := by
  unfold putExtreme
  simp only [erPuts_ok, hyp]

theorem countSample_ok {pq} (c a : Nat) (v : Int) (pcc hrs : Nat) (s : State) (hyp : Sound pq s) :
    Sound pq (countSample c a v pcc hrs s) := by
  unfold countSample
  simp (maxDischargeDepth := 200) only [ok_ite, erRead_ok, erPut_ok, putExtreme_ok, hyp]

theorem clearHistograms_ok {pq} (s : State) (hyp : Sound pq s) : Sound pq (clearHistograms s) :=
  ⟨fun e => filter_canon _ (hyp.1 e), hyp.2⟩

theorem resetExtreme_ok {pq} (a v : Nat) (s : State) (hyp : Sound pq s) : Sound pq (resetExtreme a v s) := by
  unfold resetExtreme
  simp only [storeWord_ok, hyp]

theorem clearExtremes_ok {pq} (s : State) (hyp : Sound pq s) : Sound pq (clearExtremes s) := by
  unfold clearExtremes
  simp +contextual (maxDischargeDepth := 200) only [forAll_ok, implies_true, resetExtreme_ok, hyp]

theorem copySet_ok {pq} (s : State) (hyp : Sound pq s) : Sound pq (copySet s) := by
  unfold copySet
  (repeat' split) <;> simp +contextual (maxDischargeDepth := 200) only [forAll_ok, implies_true, touchWord_ok,
      updEr_ok, hyp]

theorem erPerform_ok {pq} (w : ErWork) (s : State) (hyp : Sound pq s) : Sound pq (erPerform w s) := by
  unfold erPerform
  (repeat' split) <;> simp only [countSample_ok, erPuts_ok, clearHistograms_ok, clearExtremes_ok, copySet_ok, hyp]

theorem erDo_ok {pq} (w : ErWork) (s : State) (hyp : Sound pq s) : Sound pq (erDo w s) := by
  unfold erDo
  simp only [ok_ite, erPerform_ok, updEr_ok, hyp]

theorem erResume_ok {pq} (s : State) (hyp : Sound pq s) : Sound pq (erResume s) := by
  unfold erResume
  simp +contextual (maxDischargeDepth := 200) only [forAll_ok, implies_true, erPerform_ok, updEr_ok, hyp]

theorem recordSample_ok {pq} (c : Nat) (v : Int) (s : State) (hyp : Sound pq s) : Sound pq (recordSample c v s) := by
  unfold recordSample
  simp only [erDo_ok, hyp]

theorem setExc_ok {pq} (c : Nat) (x : Excursion) (s : State) (hyp : Sound pq s) : Sound pq (setExc c x s) := by
  unfold setExc
  simp only [updEr_ok, hyp]

theorem logExcursion_ok {pq} (c : Nat) (x : Excursion) (trunc : Bool) (s : State) (hyp : Sound pq s) :
    Sound pq (logExcursion c x trunc s) := by
  unfold logExcursion
  simp (maxDischargeDepth := 200) only [ok_ite, incFld_ok, erDo_ok, setFld_ok, hyp]

theorem endExcursion_ok {pq} (c : Nat) (trunc : Bool) (s : State) (hyp : Sound pq s) :
    Sound pq (endExcursion c trunc s) := by
  unfold endExcursion
  simp (maxDischargeDepth := 200) only [ok_ite, logExcursion_ok, setExc_ok, hyp]

theorem trackExcursion_ok {pq} (c : Nat) (v : Int) (s : State) (hyp : Sound pq s) :
    Sound pq (trackExcursion c v s) := by
  unfold trackExcursion
  simp (maxDischargeDepth := 200) only [ok_ite, setExc_ok, endExcursion_ok, hyp]

theorem missSample_ok {pq} (c : Nat) (v : Int) (s : State) (hyp : Sound pq s) : Sound pq (missSample c v s) := by
  unfold missSample
  simp (maxDischargeDepth := 200) only [ok_ite, incFld_ok, setExc_ok, hyp]

theorem takeSample_ok {pq} (c : Nat) (tj : Int) (s : State) (hyp : Sound pq s) : Sound pq (takeSample c tj s) := by
  unfold takeSample
  with_reducible
    repeat'
      first
      | assumption | dsimp only | apply updEr_ok | apply setExc_ok | apply endExcursion_ok | apply missSample_ok
      | apply trackExcursion_ok | apply recordSample_ok | split

theorem endInvalid_ok {pq} (s : State) (hyp : Sound pq s) : Sound pq (endInvalid s) := by
  unfold endInvalid
  simp +contextual (maxDischargeDepth := 200) only [forAll_ok, ok_ite, implies_true, setExc_ok, endExcursion_ok, hyp]

theorem erChWrite_ok {pq} (c v : Nat) (s : State) (hyp : Sound pq s) : Sound pq (erChWrite c v s) := by
  unfold erChWrite
  simp (maxDischargeDepth := 200) only [ok_ite, plainWrite_ok, setExc_ok, endExcursion_ok, hyp]

theorem erCtrlWrite_ok {pq} (v : Nat) (s : State) (hyp : Sound pq s) : Sound pq (erCtrlWrite v s) := by
  unfold erCtrlWrite
  simp +contextual (maxDischargeDepth := 200) only [forAll_ok, ok_ite, implies_true, plainWrite_ok, updEr_ok,
    endExcursion_ok, hyp]

theorem startCommit_ok {pq} (s : State) (hyp : Sound pq s) : Sound pq (startCommit s) := by
  unfold startCommit
  simp (maxDischargeDepth := 200) only [updEr_ok, setFlag_ok, erDo_ok, hyp]

theorem dueCommit_ok {pq} (s : State) (hyp : Sound pq s) : Sound pq (dueCommit s) := by
  unfold dueCommit
  simp (maxDischargeDepth := 200) only [ok_ite, raiseFlag_ok, updEr_ok, startCommit_ok, hyp]

theorem finishCommit_ok {pq} (x : RecSet) (s : State) (hyp : Sound pq s) : Sound pq (finishCommit x s) := by
  unfold finishCommit
  have h := setFlag_ok Reg.ER_STAT Fld.ER_STAT_BUSY false _ (updEr_ok (fun r => { r with commit := none }) _ hyp)
  dsimp only
  split
  · exact wr_ok _ _ _ (updEr_ok _ _ (writeSlot_ok _ _ _ h _ ‹_›))
  · exact h

theorem endCommit_ok {pq} (s : State) (hyp : Sound pq s) : Sound pq (endCommit s) := by
  unfold endCommit
  (repeat' split) <;> simp only [finishCommit_ok, hyp]

theorem commitNow_ok {pq} (s : State) (hyp : Sound pq s) : Sound pq (commitNow s) := by
  unfold commitNow
  simp (maxDischargeDepth := 200) only [endCommit_ok, startCommit_ok, hyp]

theorem erCommand_ok {pq} (op : Nat) (s : State) (hyp : Sound pq s) : Sound pq (erCommand op s) := by
  unfold erCommand
  simp (maxDischargeDepth := 200) only [ok_ite, dueCommit_ok, erDo_ok, setFld_ok, wr_ok, hyp]

end Sys2Proof.Machine
end

