-- ==== Sys2Proof/Laws/KeepPower.lean ====
section
/-! SUPPORT. The operations of Machine/Power.lean keep what Kept names: the canonical memory, the sides apart, the
fuses blown, and the queue. -/

namespace Sys2Proof.Machine

theorem showSupply_ok {pq} (a mv : Nat) (first : Bool) (s : State) (hyp : Sound pq s) :
    Sound pq (showSupply a mv first s) := by
  unfold showSupply
  simp (maxDischargeDepth := 200) only [ok_ite, setFld_ok, hyp]

theorem supplySample_ok {pq} (first : Bool) (s : State) (hyp : Sound pq s) : Sound pq (supplySample first s) := by
  unfold supplySample
  simp (maxDischargeDepth := 200) only [updSup_ok, showSupply_ok, hyp]

theorem setSupplies_ok {pq} (vcore vio vaux : Nat) (s : State) (hyp : Sound pq s) :
    Sound pq (setSupplies vcore vio vaux s) := by
  unfold setSupplies
  simp only [updSup_ok, hyp]

theorem swapIdle_ok {pq} (n : Nat) (s : State) (hyp : Sound pq s) : Sound pq (swapIdle n s) := by
  unfold swapIdle
  simp only [ok_ite, swapLines_ok, hyp]

theorem freezeCal_ok {pq} (b : Bool) (s : State) (hyp : Sound pq s) : Sound pq (freezeCal b s) := by
  unfold freezeCal
  simp +contextual (maxDischargeDepth := 200) only [forAll_ok, ok_ite, implies_true, setFlag_ok, swapIdle_ok,
    updConv_ok, hyp]

theorem unpark_ok {pq} (s : State) (hyp : Sound pq s) : Sound pq (unpark s) := by
  unfold unpark
  simp +contextual (maxDischargeDepth := 200) only [forAll_ok, ok_ite, implies_true, setBindState_ok, hyp]

theorem showMissed_ok {pq} (s : State) (hyp : Sound pq s) : Sound pq (showMissed s) := by
  unfold showMissed
  (repeat' split) <;> simp only [setFld_ok, hyp]

theorem shedTo_ok {pq} (new : Nat) (s : State) (hyp : Sound pq s) : Sound pq (shedTo new s) := by
  unfold shedTo
  (repeat' split) <;> simp +contextual (maxDischargeDepth := 200) only [forAll_ok, ok_ite, implies_true, setFld_ok,
      report_ok, setCond_ok, freezeCal_ok, cutLanes_ok, startCommit_ok, nopWaiting_ok, unpark_ok, updSup_ok,
      startShutdown_ok, showMissed_ok, hyp]

theorem shedCause_ok {pq} (s : State) (hyp : Sound pq s) : Sound pq (shedCause s) := by
  unfold shedCause
  simp +contextual (maxDischargeDepth := 200) only [forAll_ok, ok_ite, implies_true, wr_ok, updFm_ok, updSup_ok,
      stopRamp_ok, hyp]

theorem shedChange_ok {pq} (ths : List Threshold) (crossed : Bool) (vcore vio vaux : Nat) (s : State)
    (hyp : Sound pq s) : Sound pq (shedChange ths crossed vcore vio vaux s) := by
  unfold shedChange
  simp (maxDischargeDepth := 200) only [ok_ite, setSupplies_ok, updSup_ok, shedTo_ok, shedCause_ok, hyp]

theorem startStep_ok {pq} (x : Nat × Nat × Nat) (s : State) (hyp : Sound pq s) : Sound pq (startStep x s) := by
  unfold startStep
  simp (maxDischargeDepth := 200) only [ok_ite, setFld_ok, updSup_ok, seqEnable_ok, hyp]

theorem openGroup_ok {pq} (s : State) (hyp : Sound pq s) : Sound pq (openGroup s) := by
  unfold openGroup
  with_reducible
    repeat'
      first
      | assumption | dsimp only | apply updSup_ok | split

theorem seqAdvance_ok {pq} (s : State) (hyp : Sound pq s) : Sound pq (seqAdvance s) := by
  unfold seqAdvance
  simp +contextual (maxDischargeDepth := 200) only [forAll_ok, implies_true, openGroup_ok, seqMark_ok, startStep_ok,
    hyp]

theorem seqStart_ok {pq} (s : State) (hyp : Sound pq s) : Sound pq (seqStart s) := by
  unfold seqStart
  simp (maxDischargeDepth := 200) only [ok_ite, setFld_ok, setFlag_ok, updSup_ok, enterMode_ok, seqAdvance_ok, hyp]

theorem expectOn_ok {pq} (r : Nat) (s : State) (hyp : Sound pq s) : Sound pq (expectOn r s) := by
  unfold expectOn
  simp only [updFm_ok, hyp]

theorem expectOff_ok {pq} (r : Nat) (s : State) (hyp : Sound pq s) : Sound pq (expectOff r s) := by
  unfold expectOff
  simp only [updFm_ok, hyp]

theorem autoStart_ok {pq} (s : State) (hyp : Sound pq s) : Sound pq (autoStart s) := by
  unfold autoStart
  simp +contextual (maxDischargeDepth := 200) only [forAll_ok, implies_true, wr_ok, expectOn_ok, updFm_ok,
    seqStart_ok, hyp]

theorem seqEnd_ok {pq} (s : State) (hyp : Sound pq s) : Sound pq (seqEnd s) := by
  unfold seqEnd
  simp only [setFlag_ok, enterMode_ok, hyp]

theorem downGroup_ok {pq} (s : State) (hyp : Sound pq s) : Sound pq (downGroup s) := by
  unfold downGroup
  (repeat' split) <;> simp +contextual (maxDischargeDepth := 200) only [forAll_ok, implies_true, updSup_ok,
    setFld_ok, seqMark_ok, seqIssue_ok, hyp]

theorem speedMeasure_ok {pq} (u v : Nat) (s : State) (hyp : Sound pq s) : Sound pq (speedMeasure u v s) := by
  unfold speedMeasure
  simp (maxDischargeDepth := 200) only [ok_ite, setFld_ok, updSup_ok, raiseFlag_ok, hyp]

theorem minReset_ok {pq} (a : Nat) (s : State) (hyp : Sound pq s) : Sound pq (minReset a s) := by
  unfold minReset
  simp only [setFld_ok, hyp]

end Sys2Proof.Machine
end

