-- ==== Sys2Proof/Laws/KeepReset.lean ====
section
/-! SUPPORT. The operations of Machine/Reset.lean keep what Kept names: the canonical memory, the sides apart, the
fuses blown, and the queue. -/

namespace Sys2Proof.Machine

theorem cutNvm_ok {pq} (s : State) (hyp : Sound pq s) : Sound pq (cutNvm s) := by
  unfold cutNvm
  (repeat' split) <;> simp (maxDischargeDepth := 200) only [ok_ite, spend_ok, programFrom_ok, programCw_ok,
    updNv_ok, hyp]

theorem cutFuses_ok {pq} (s : State) (hyp : Sound pq s) : Sound pq (cutFuses s) := by
  unfold cutFuses
  have h : Sound pq (if s.otp.op = 0 then s else spend s) := ok_ite hyp (spend_ok _ hyp)
  generalize (if s.otp.op = 0 then s else spend s) = t at h ⊢
  dsimp only
  split
  · exact updOtp_ok _ _ h (blown_same (Nat.le_add_right _ _) rfl rfl rfl)
  · refine updOtp_ok _ _ h ?_
    split
    · exact blown_rev _ _
    · exact Blown.refl _
  · refine updOtp_ok _ _ h ?_
    split
    · exact ⟨Nat.le_refl _, fun _ h => h, fun h => by simp_all⟩
    · exact Blown.refl _
  · exact updOtp_ok _ _ h (Blown.refl _)

theorem heldIn_ok {pq} (h : Hold) (s : State) (hyp : Sound pq s) : Sound pq (heldIn h s) :=
  ⟨fun _ => rfl, fun _ _ => init_apart, (cutFuses_ok _ (cutNvm_ok _ hyp)).2.2⟩

theorem goDormant_ok {pq} (s : State) (hyp : Sound pq s) : Sound pq (goDormant s) := by
  unfold goDormant
  simp only [enterMode_ok, heldIn_ok, hyp]

theorem showDigest_ok {pq} (a : Nat) (d : List Nat) (s : State) (hyp : Sound pq s) : Sound pq (showDigest a d s) := by
  unfold showDigest
  simp +contextual (maxDischargeDepth := 200) only [forAll_ok, implies_true, wr_ok, hyp]

theorem showOtp_ok {pq} (s : State) (hyp : Sound pq s) : Sound pq (showOtp s) := by
  unfold showOtp
  simp +contextual (maxDischargeDepth := 200) only [forAll_ok, implies_true, setFld_ok, setFlag_ok, showDigest_ok,
    hyp]

theorem applySpares_ok {pq} (s : State) (hyp : Sound pq s) : Sound pq (applySpares s) := by
  unfold applySpares
  simp +contextual (maxDischargeDepth := 200) only [forAll_ok, implies_true, setFld_ok, hyp]

theorem showNvm_ok {pq} (s : State) (hyp : Sound pq s) : Sound pq (showNvm s) := by
  unfold showNvm
  simp (maxDischargeDepth := 200) only [setFld_ok, showWear_ok, hyp]

theorem readRecords_ok {pq} (s : State) (hyp : Sound pq s) : Sound pq (readRecords s) := by
  unfold readRecords
  simp (maxDischargeDepth := 200) only [nvTouch_ok, loadDir_ok, hyp]

theorem clearMemories_ok {pq} (s : State) (hyp : Sound pq s) : Sound pq (clearMemories s) := by
  unfold clearMemories
  simp +contextual (maxDischargeDepth := 200) only [forAll_ok, implies_true, fillMemory_ok, hyp]

theorem restoreRecorder_ok {pq} (s : State) (hyp : Sound pq s) : Sound pq (restoreRecorder s) := by
  unfold restoreRecorder
  split
  · rename_i x _
    have h := nvTouch_ok 128 (placeSector x.place) 5376 s hyp
    refine setFlag_ok _ _ _ _ (setFld_ok _ _ _ _ (wr_ok _ _ _ ?_))
    exact ⟨fun e => foldl_tset_canon _ (fun (c : Host.Cell) => c.1) (fun c => c.2) (h.1 e), h.2⟩
  · exact hyp

theorem foremanEvent_ok {pq} (event cls unit : Nat) (s : State) (hyp : Sound pq s) :
    Sound pq (foremanEvent event cls unit s) := by
  unfold foremanEvent
  simp only [report_ok, hyp]

theorem runForeman_ok {pq} (k : Nat) (f : List Nat) (s : State) (hyp : Sound pq s) : Sound pq (runForeman k f s) := by
  unfold runForeman
  simp (maxDischargeDepth := 200) only [storeBytes_ok, showDigest_ok, wr_ok, updFrm_ok, hyp]

theorem folioFails_ok {pq} (event result : Nat) (s : State) (hyp : Sound pq s) :
    Sound pq (folioFails event result s) := by
  unfold folioFails
  simp only [report_ok, hyp]

theorem bootDir_ok {pq} (t i k : Nat) (s : State) (hyp : Sound pq s) : Sound pq (bootDir t i k s) := by
  unfold bootDir
  simp (maxDischargeDepth := 200) only [ok_ite, setDir_ok, updFrm_ok, hyp]

theorem bootSelect_ok {pq} (t i ev : Nat) (s : State) (hyp : Sound pq s) : Sound pq (bootSelect t i ev s).1 := by
  unfold bootSelect
  with_reducible (repeat' (first
    | assumption | dsimp only | apply readFolio_ok | apply bootDir_ok | apply folioFails_ok | split))

theorem bootForeman_ok {pq} (s : State) (hyp : Sound pq s) : Sound pq (bootForeman s) := by
  unfold bootForeman
  with_reducible (repeat' (first
    | assumption | dsimp only | apply bootSelect_ok | apply runForeman_ok | apply readFolio_ok
    | apply foremanEvent_ok | apply updFrm_ok | refine ok_pair ‹_ = (_, _)› ?_ | split))

theorem bootRails_ok {pq} (s : State) (hyp : Sound pq s) : Sound pq (bootRails s) := by
  unfold bootRails
  with_reducible
    repeat'
      first
      | assumption | apply bootSelect_ok | apply writeSlotValues_ok | apply writeRailWords_ok | apply updFrm_ok
      | apply writeSequence_ok | apply foremanEvent_ok | refine forAll_ok _ (fun _ _ _ => ?_) ?_
      | refine ok_pair ‹_ = (_, _)› ?_ | split

theorem bootCoefs_ok {pq} (s : State) (hyp : Sound pq s) : Sound pq (bootCoefs s) := by
  unfold bootCoefs
  with_reducible
    repeat'
      first
      | assumption | apply bootSelect_ok | apply writeCoef_ok | refine forAll_ok _ (fun _ _ _ => ?_) ?_
      | refine ok_pair ‹_ = (_, _)› ?_ | split

theorem bootProfile_ok {pq} (s : State) (hyp : Sound pq s) : Sound pq (bootProfile s) := by
  unfold bootProfile
  with_reducible (repeat' (first
    | assumption | apply bootSelect_ok | apply updFrm_ok | refine ok_pair ‹_ = (_, _)› ?_ | split))

theorem selectImages_ok {pq} (s : State) (hyp : Sound pq s) : Sound pq (selectImages s).1 := by
  unfold selectImages
  refine foldl_ok1 _ (fun x i hx => ?_) hyp
  have h := bootSelect_ok 1 i 5 x.1 hx
  split
  · exact ok_pair ‹_› h
  · exact ok_ite (folioFails_ok _ _ _ (ok_pair ‹_› h)) (ok_pair ‹_› h)

theorem loadPlan_ok {pq} (i k : Nat) (f : List Nat) (s : State) (hyp : Sound pq s) : Sound pq (loadPlan i k f s) := by
  unfold loadPlan
  simp +contextual (maxDischargeDepth := 200) only [forAll_ok, ok_ite, implies_true, loadImage_ok, hyp]

theorem formPlan_ok {pq} (s : State) (hyp : Sound pq s) : Sound pq (formPlan s) := by
  unfold formPlan
  simp +contextual (maxDischargeDepth := 200) only [forAll_ok, ok_ite, implies_true, bdCommand_ok, setFlag_ok, hyp]

theorem startSingles_ok {pq} (s : State) (hyp : Sound pq s) : Sound pq (startSingles s) := by
  unfold startSingles
  simp +contextual (maxDischargeDepth := 200) only [forAll_ok, ok_ite, implies_true, restartEngine_ok, hyp]

theorem bootEngines_ok {pq} (s : State) (hyp : Sound pq s) : Sound pq (bootEngines s) := by
  unfold bootEngines
  simp +contextual (maxDischargeDepth := 200) only [forAll_ok, ok_ite, implies_true, selectImages_ok, bdCfgWrite_ok,
      loadPlan_ok, startSingles_ok, formPlan_ok, hyp]

theorem releaseEngines_ok {pq} (s : State) (hyp : Sound pq s) : Sound pq (releaseEngines s) := by
  unfold releaseEngines
  simp +contextual (maxDischargeDepth := 200) only [forAll_ok, implies_true, setEngState_ok, hyp]

theorem planViews_ok {pq} (s : State) (hyp : Sound pq s) : Sound pq (planViews s) := by
  unfold planViews
  simp +contextual (maxDischargeDepth := 200) only [forAll_ok, implies_true, manage_ok, hyp]

theorem bootRest_ok {pq} (s : State) (hyp : Sound pq s) : Sound pq (bootRest s) := by
  unfold bootRest
  simp (maxDischargeDepth := 200) only [ok_ite, bootRails_ok, bootProfile_ok, bootCoefs_ok, releaseEngines_ok,
      bootEngines_ok, planViews_ok, hyp]

theorem enterBoot_ok {pq} (s : State) (hyp : Sound pq s) : Sound pq (enterBoot s) := by
  unfold enterBoot
  simp (maxDischargeDepth := 200) only [updTb_ok, setFlag_ok, wr_ok, readRecords_ok, showOtp_ok, showNvm_ok,
    applySpares_ok, clearMemories_ok, restoreRecorder_ok, bootForeman_ok, bootRest_ok, hyp]

theorem warmBoot_ok {pq} (s : State) (hyp : Sound pq s) : Sound pq (warmBoot s) := by
  unfold warmBoot
  simp only [enterBoot_ok, heldIn_ok, hyp]

theorem coldBoot_ok {pq} (s : State) (hyp : Sound pq s) : Sound pq (coldBoot s) := by
  unfold coldBoot
  simp (maxDischargeDepth := 200) only [enterBoot_ok, updTb_ok, heldIn_ok, hyp]

end Sys2Proof.Machine
end

