-- ==== Sys2Proof/Laws/KeepMailbox.lean ====
section
/-! SUPPORT. The operations of Machine/Mailbox.lean keep what Kept names: the canonical memory, the sides apart, the
fuses blown, and the queue. -/

namespace Sys2Proof.Machine

theorem settleAlert_ok {pq} (s : State) (hyp : Sound pq s) : Sound pq (settleAlert s) := by
  unfold settleAlert
  simp only [ok_ite, updHost_ok, hyp]

theorem setPhase_ok {pq} (x p : Nat) (s : State) (hyp : Sound pq s) : Sound pq (setPhase x p s) := by
  unfold setPhase
  simp only [setFld_ok, hyp]

theorem freeSession_ok {pq} (x : Nat) (s : State) (hyp : Sound pq s) : Sound pq (freeSession x s) := by
  unfold freeSession
  simp (maxDischargeDepth := 200) only [ok_ite, setFld_ok, updSess_ok, updHost_ok, updFrm_ok, hyp]

theorem respond_ok {pq} (x status : Nat) (payload : List Nat) (s : State) (hyp : Sound pq s) :
    Sound pq (respond x status payload s) := by
  unfold respond
  (repeat' split) <;> simp only [updSess_ok, hyp]

theorem respondRail_ok {pq} (x r : Nat) (s : State) (hyp : Sound pq s) : Sound pq (respondRail x r s) := by
  unfold respondRail
  (repeat' split) <;> simp only [updSess_ok, hyp]

theorem respondRefused_ok {pq} (x block result : Nat) (s : State) (hyp : Sound pq s) :
    Sound pq (respondRefused x block result s) := by
  unfold respondRefused
  simp only [respond_ok, hyp]

theorem breakClaim_ok {pq} (x op : Nat) (payload : List Nat) (s : State) (hyp : Sound pq s) :
    Sound pq (breakClaim x op payload s) := by
  unfold breakClaim
  simp only [ok_ite, updSess_ok, hyp]

theorem takeRequest_ok {pq} (x : Nat) (bs : List Nat) (s : State) (hyp : Sound pq s) :
    Sound pq (takeRequest x bs s) := by
  unfold takeRequest
  with_reducible
    repeat'
      first
      | assumption | dsimp only | apply setPhase_ok | apply updSess_ok | apply breakClaim_ok | split

theorem busyPost_ok {pq} (x : Nat) (s : State) (hyp : Sound pq s) : Sound pq (busyPost x s) := by
  unfold busyPost
  simp (maxDischargeDepth := 200) only [loadBytes_ok, storeBytes_ok, setPhase_ok, raiseWord_ok, settleAlert_ok, hyp]

theorem busyResponse_ok {pq} (x : Nat) (s : State) (hyp : Sound pq s) : Sound pq (busyResponse x s) := by
  unfold busyResponse
  simp only [ok_ite, updSess_ok, busyPost_ok, hyp]

theorem busyResume_ok {pq} (s : State) (hyp : Sound pq s) : Sound pq (busyResume s) := by
  unfold busyResume
  simp +contextual (maxDischargeDepth := 200) only [forAll_ok, implies_true, busyPost_ok, updSess_ok, hyp]

theorem ringDoorbell_ok {pq} (v x : Nat) (s : State) (hyp : Sound pq s) : Sound pq (ringDoorbell v x s) := by
  unfold ringDoorbell
  simp (maxDischargeDepth := 200) only [ok_ite, raiseFlag_ok, busyResponse_ok, setPhase_ok, raiseWord_ok,
      updSess_ok, hyp]

theorem ringAll_ok {pq} (v mask : Nat) (s : State) (hyp : Sound pq s) : Sound pq (ringAll v mask s) := by
  unfold ringAll
  simp +contextual (maxDischargeDepth := 200) only [forAll_ok, implies_true, ringDoorbell_ok, hyp]

theorem freqClear_ok {pq} (x : Nat) (s : State) (hyp : Sound pq s) : Sound pq (freqClear x s) := by
  unfold freqClear
  simp (maxDischargeDepth := 200) only [ok_ite, clrWord_ok, loadBytes_ok, takeRequest_ok, hyp]

theorem takeAsked_ok {pq} (x : Nat) (s : State) (hyp : Sound pq s) : Sound pq (takeAsked x s) := by
  unfold takeAsked
  simp (maxDischargeDepth := 200) only [ok_ite, freqClear_ok, updHost_ok, hyp]

theorem freqWrite_ok {pq} (mask : Nat) (s : State) (hyp : Sound pq s) : Sound pq (freqWrite mask s) := by
  unfold freqWrite
  simp +contextual (maxDischargeDepth := 200) only [forAll_ok, ok_ite, implies_true, takeAsked_ok, hyp]

theorem deliver_ok {pq} (m x : Nat) (bs : List Nat) (s : State) (hyp : Sound pq s) : Sound pq (deliver m x bs s) := by
  unfold deliver
  with_reducible (repeat' (first
    | assumption | apply storeBytes_ok | apply updHost_ok | apply setPhase_ok | apply raiseWord_ok
    | apply settleAlert_ok | apply ok_ite))

theorem postResponse_ok {pq} (x : Nat) (r : Response) (s : State) (hyp : Sound pq s) :
    Sound pq (postResponse x r s) := by
  unfold postResponse
  simp (maxDischargeDepth := 200) only [ok_ite, deliver_ok, updSess_ok, setFld_ok, freeSession_ok, hyp]

theorem postSession_ok {pq} (x : Nat) (s : State) (hyp : Sound pq s) : Sound pq (postSession x s) := by
  unfold postSession
  (repeat' split) <;> simp only [updSess_ok, incFld_ok, postResponse_ok, hyp]

theorem updateOrigin_ok {pq} (s : State) (hyp : Sound pq s) : Sound pq (updateOrigin s) := by
  unfold updateOrigin
  simp only [ok_ite, updFrm_ok, hyp]

theorem hrdyClear_ok {pq} (x : Nat) (s : State) (hyp : Sound pq s) : Sound pq (hrdyClear x s) := by
  unfold hrdyClear
  simp (maxDischargeDepth := 200) only [ok_ite, clrWord_ok, settleAlert_ok, setPhase_ok, hyp]

theorem restartForeman_ok {pq} (s : State) (hyp : Sound pq s) : Sound pq (restartForeman s) := by
  unfold restartForeman
  simp +contextual (maxDischargeDepth := 200) only [forAll_ok, ok_ite, implies_true, freeSession_ok, updSess_ok,
      setPhase_ok, wr_ok, setFlag_ok, updFrm_ok, updHost_ok, hyp]

end Sys2Proof.Machine
end

