-- ==== Sys2Proof/Laws/KeepPorts.lean ====
section
/-! SUPPORT. The operations of Machine/Ports.lean keep what Kept names: the canonical memory, the sides apart, the
fuses blown, and the queue. -/

namespace Sys2Proof.Machine

theorem showSbus_ok {pq} (q : Nat) (s : State) (hyp : Sound pq s) : Sound pq (showSbus q s) := by
  unfold showSbus
  simp (maxDischargeDepth := 200) only [setFld_ok, setFlag_ok, wr_ok, hyp]

theorem askBus_ok {pq} (q a what : Nat) (bytes : List Nat) (s : State) (hyp : Sound pq s) :
    Sound pq (askBus q a what bytes s) := by
  unfold askBus
  simp only [showSbus_ok, updSbus_ok, hyp]

theorem writeCtrl_ok {pq} (n what v : Nat) (ul : Bool) (s : State) (hyp : Sound pq s) :
    Sound pq (writeCtrl n what v ul s) := by
  unfold writeCtrl
  simp only [askBus_ok, updPort_ok, hyp]

theorem busDo_ok {pq} (n what : Nat) (s : State) (hyp : Sound pq s) : Sound pq (busDo n what s) := by
  unfold busDo
  (repeat' split) <;> simp only [askBus_ok, writeCtrl_ok, hyp]

theorem writeProfile_ok {pq} (n : Nat) (rate : Bool) (s : State) (hyp : Sound pq s) :
    Sound pq (writeProfile n rate s) := by
  unfold writeProfile
  (repeat' split) <;> simp (maxDischargeDepth := 200) only [askBus_ok, writeCtrl_ok, hyp]

theorem setMgmt_ok {pq} (n v : Nat) (s : State) (hyp : Sound pq s) : Sound pq (setMgmt n v s) := by
  unfold setMgmt
  simp +contextual (maxDischargeDepth := 200) only [implies_true, withPort_ok, setFld_ok, hyp]

theorem toIdent_ok {pq} (n : Nat) (s : State) (hyp : Sound pq s) : Sound pq (toIdent n s) := by
  unfold toIdent
  simp +contextual (maxDischargeDepth := 200) only [implies_true, showSbus_ok, withPort_ok, updPort_ok, noCurrent_ok,
    setFlag_ok, hyp]

theorem countLost_ok {pq} (n i : Nat) (f : Frame) (s : State) (hyp : Sound pq s) : Sound pq (countLost n i f s) := by
  unfold countLost
  simp only [incFld_ok, hyp]

theorem takeCurrent_ok {pq} (n j : Nat) (v : Int) (s : State) (hyp : Sound pq s) : Sound pq (takeCurrent n j v s) := by
  unfold takeCurrent
  simp (maxDischargeDepth := 200) only [ok_ite, wr_ok, updPort_ok, windowSample_ok, hyp]

theorem takeStatus_ok {pq} (n w : Nat) (s : State) (hyp : Sound pq s) : Sound pq (takeStatus n w s) := by
  unfold takeStatus
  simp +contextual (maxDischargeDepth := 200) only [ok_ite, implies_true, deadObserve_ok, wr_ok, portReport_ok,
      busDo_ok, withPort_ok, updPort_ok, toIdent_ok, hyp]

theorem takeFrame_ok {pq} (n j : Nat) (f : Frame) (s : State) (hyp : Sound pq s) : Sound pq (takeFrame n j f s) := by
  unfold takeFrame
  (repeat' split) <;> simp (maxDischargeDepth := 200) only [setFld_ok, updPort_ok, takeCurrent_ok, wr_ok,
    takeStatus_ok, hyp]

theorem beginAttempts_ok {pq} (n : Nat) (s : State) (hyp : Sound pq s) : Sound pq (beginAttempts n s) := by
  unfold beginAttempts
  simp (maxDischargeDepth := 200) only [setFlag_ok, noCurrent_ok, updPort_ok, hyp]

theorem sampleLost_ok {pq} (n : Nat) (s : State) (hyp : Sound pq s) : Sound pq (sampleLost n s) := by
  unfold sampleLost
  simp only [incFld_ok, beginAttempts_ok, hyp]

theorem align_ok {pq} (n : Nat) (s : State) (hyp : Sound pq s) : Sound pq (align n s) := by
  unfold align
  simp only [setFlag_ok, updPort_ok, hyp]

theorem searchFrame_ok {pq} (n : Nat) (f : Frame) (s : State) (hyp : Sound pq s) : Sound pq (searchFrame n f s) := by
  unfold searchFrame
  simp (maxDischargeDepth := 200) only [ok_ite, countLost_ok, updPort_ok, align_ok, hyp]

theorem uplinkFrame_ok {pq} (n : Nat) (f : Frame) (s : State) (hyp : Sound pq s) : Sound pq (uplinkFrame n f s) := by
  unfold uplinkFrame
  simp (maxDischargeDepth := 200) only [ok_ite, updPort_ok, takeFrame_ok, countLost_ok, sampleLost_ok,
    searchFrame_ok, hyp]

theorem uplinkBits_ok {pq} (n w : Nat) (s : State) (hyp : Sound pq s) : Sound pq (uplinkBits n w s) := by
  unfold uplinkBits
  simp only [uplinkFrame_ok, updPort_ok, hyp]

theorem uplinkDeadline_ok {pq} (n t : Nat) (s : State) (hyp : Sound pq s) : Sound pq (uplinkDeadline n t s) := by
  unfold uplinkDeadline
  simp (maxDischargeDepth := 200) only [ok_ite, wr_ok, updPort_ok, incFld_ok, portReport_ok, hyp]

theorem resyncSuccess_ok {pq} (n : Nat) (s : State) (hyp : Sound pq s) : Sound pq (resyncSuccess n s) := by
  unfold resyncSuccess
  refine withPort_ok n (fun _ h => updPort_ok _ _ _ h) (align_ok _ _ ?_)
  split
  · exact portReport_ok _ _ _ _ _ (incFld_ok _ _ _ hyp)
  · exact portReport_ok _ _ _ _ _ (incFld_ok _ _ _ hyp)

theorem attemptFail_ok {pq} (n : Nat) (s : State) (hyp : Sound pq s) : Sound pq (attemptFail n s) := by
  unfold attemptFail
  simp +contextual (maxDischargeDepth := 200) only [ok_ite, implies_true, busDo_ok, updPort_ok, setFlag_ok,
      incFld_ok, portReport_ok, withPort_ok, hyp]

theorem retryStart_ok {pq} (n : Nat) (s : State) (hyp : Sound pq s) : Sound pq (retryStart n s) := by
  unfold retryStart
  simp only [updPort_ok, hyp]

theorem ppResult_ok {pq} (q r : Nat) (s : State) (hyp : Sound pq s) : Sound pq (ppResult q r s) := by
  unfold ppResult
  simp only [setFld_ok, hyp]

theorem isolatePort_ok {pq} (n : Nat) (s : State) (hyp : Sound pq s) : Sound pq (isolatePort n s) := by
  unfold isolatePort
  simp +contextual (maxDischargeDepth := 200) only [ok_ite, implies_true, updSbus_ok, withPort_ok, updPort_ok,
      setFld_ok, busDo_ok, hyp]

theorem ppIsolate_ok {pq} (n : Nat) (s : State) (hyp : Sound pq s) : Sound pq (ppIsolate n s) := by
  unfold ppIsolate
  simp (maxDischargeDepth := 200) only [ok_ite, ppResult_ok, isolatePort_ok, hyp]

theorem ppUnisolate_ok {pq} (n : Nat) (s : State) (hyp : Sound pq s) : Sound pq (ppUnisolate n s) := by
  unfold ppUnisolate
  simp (maxDischargeDepth := 200) only [ok_ite, ppResult_ok, toIdent_ok, setFld_ok, hyp]

theorem ppResync_ok {pq} (n : Nat) (s : State) (hyp : Sound pq s) : Sound pq (ppResync n s) := by
  unfold ppResync
  simp (maxDischargeDepth := 200) only [ok_ite, ppResult_ok, beginAttempts_ok, hyp]

theorem ppRebind_ok {pq} (n : Nat) (s : State) (hyp : Sound pq s) : Sound pq (ppRebind n s) := by
  unfold ppRebind
  simp (maxDischargeDepth := 200) only [ok_ite, ppResult_ok, toIdent_ok, hyp]

theorem nextNonce_ok {pq} (q : Nat) (s : State) (hyp : Sound pq s) : Sound pq (nextNonce q s) := by
  unfold nextNonce
  simp +contextual (maxDischargeDepth := 200) only [forAll_ok, implies_true, sendIdent_ok, updSbus_ok, setFld_ok, hyp]

theorem bindStage_ok {pq} (n t : Nat) (s : State) (hyp : Sound pq s) : Sound pq (bindStage n t s) := by
  unfold bindStage
  simp (maxDischargeDepth := 200) only [updPort_ok, busDo_ok, writeProfile_ok, hyp]

theorem tryBind_ok {pq} (q t : Nat) (idv : Bool) (word : Nat) (s : State) (hyp : Sound pq s) :
    Sound pq (tryBind q t idv word s) := by
  unfold tryBind
  simp (maxDischargeDepth := 200) only [ok_ite, raiseFlag_ok, report_ok, bindStage_ok, hyp]

theorem giveAddress_ok {pq} (q : Nat) (s : State) (hyp : Sound pq s) : Sound pq (giveAddress q s) := by
  unfold giveAddress
  (repeat' split) <;> simp only [raiseFlag_ok, askBus_ok, updSbus_ok, hyp]

theorem runEntdaa_ok {pq} (q : Nat) (s : State) (hyp : Sound pq s) : Sound pq (runEntdaa q s) := by
  unfold runEntdaa
  simp +contextual (maxDischargeDepth := 200) only [forAll_ok, implies_true, giveAddress_ok, hyp]

theorem hotJoin_ok {pq} (q : Nat) (s : State) (hyp : Sound pq s) : Sound pq (hotJoin q s) := by
  unfold hotJoin
  simp only [runEntdaa_ok, updSbus_ok, hyp]

theorem dridRead_ok {pq} (q t : Nat) (d : List Nat) (s : State) (hyp : Sound pq s) : Sound pq (dridRead q t d s) := by
  unfold dridRead
  simp (maxDischargeDepth := 200) only [ok_ite, askBus_ok, raiseFlag_ok, updSbus_ok, hyp]

theorem busOutcome_ok {pq} (q a : Nat) (temp : Bool) (y : Reply) (s : State)
    (hyp : Sound pq s) : Sound pq (busOutcome q a temp y s) := by
  unfold busOutcome
  simp (maxDischargeDepth := 200) only [ok_ite, report_ok, setMgmt_ok, hyp]

theorem bindingRound_ok {pq} (q : Nat) (reports : List StageReport) (s : State) (hyp : Sound pq s) :
    Sound pq (bindingRound q reports s) := by
  unfold bindingRound
  simp +contextual (maxDischargeDepth := 200) only [forAll_ok, implies_true, nextNonce_ok, busOutcome_ok,
      raiseFlag_ok, report_ok, tryBind_ok, hyp]

theorem bindComplete_ok {pq} (n : Nat) (s : State) (hyp : Sound pq s) : Sound pq (bindComplete n s) := by
  unfold bindComplete
  simp +contextual (maxDischargeDepth := 200) only [implies_true, showSbus_ok, withPort_ok, updPort_ok, setFlag_ok,
    hyp]

theorem stageIbi_ok {pq} (q : Nat) (temp : Bool) (a cause : Nat) (s : State)
    (hyp : Sound pq s) : Sound pq (stageIbi q temp a cause s) := by
  unfold stageIbi
  simp (maxDischargeDepth := 200) only [ok_ite, incFld_ok, setLine_ok, updSbus_ok, showSbus_ok, setMgmt_ok, hyp]

theorem xcmdWrite_ok {pq} (q v : Nat) (s : State) (hyp : Sound pq s) : Sound pq (xcmdWrite q v s) := by
  unfold xcmdWrite
  simp (maxDischargeDepth := 200) only [ok_ite, setFld_ok, plainWrite_ok, showSbus_ok, setFlag_ok, updSbus_ok, hyp]

theorem xferData_ok {pq} (q count : Nat) (d : List Nat) (s : State) (hyp : Sound pq s) :
    Sound pq (xferData q count d s) := by
  unfold xferData
  simp +contextual (maxDischargeDepth := 200) only [forAll_ok, implies_true, setFld_ok, hyp]

theorem faultSeen_ok {pq} (q v : Nat) (d : List Nat) (s : State) (hyp : Sound pq s) :
    Sound pq (faultSeen q v d s) := by
  unfold faultSeen
  simp (maxDischargeDepth := 200) only [ok_ite, setMgmt_ok, hyp]

theorem xferComplete_ok {pq} (q : Nat) (y : Reply) (d : List Nat) (s : State)
    (hyp : Sound pq s) : Sound pq (xferComplete q y d s) := by
  unfold xferComplete
  simp (maxDischargeDepth := 200) only [ok_ite, updSbus_ok, setFlag_ok, setFld_ok, showSbus_ok, busOutcome_ok,
    faultSeen_ok, xferData_ok, hyp]

theorem addressMoved_ok {pq} (n : Nat) (s : State) (hyp : Sound pq s) : Sound pq (addressMoved n s) := by
  unfold addressMoved
  simp (maxDischargeDepth := 200) only [ok_ite, showSbus_ok, updSbus_ok, askBus_ok, hyp]

theorem ownDone_ok {pq} (q a what : Nat) (d : List Nat) (s : State) (hyp : Sound pq s) :
    Sound pq (ownDone q a what d s) := by
  unfold ownDone
  (repeat' split) <;> simp only [ok_ite, setMgmt_ok, dridRead_ok, addressMoved_ok, updPort_ok, runEntdaa_ok, hyp]

theorem ownCut_ok {pq} (n what : Nat) (s : State) (hyp : Sound pq s) : Sound pq (ownCut n what s) := by
  unfold ownCut
  simp (maxDischargeDepth := 200) only [ok_ite, showSbus_ok, updPort_ok, updSbus_ok, hyp]

theorem ownComplete_ok {pq} (q : Nat) (y : Reply) (d : List Nat) (s : State) (hyp : Sound pq s) :
    Sound pq (ownComplete q y d s) := by
  unfold ownComplete
  (repeat' split) <;> simp (maxDischargeDepth := 200) only [showSbus_ok, updSbus_ok, busOutcome_ok, ownDone_ok,
    ownCut_ok, hyp]

theorem ibiqRead_ok {pq} (q : Nat) (s : State) (hyp : Sound pq s) : Sound pq (ibiqRead q s) := by
  unfold ibiqRead
  simp only [showSbus_ok, updSbus_ok, hyp]

end Sys2Proof.Machine
end

