-- ==== Sys2Proof/Laws/KeepFaults.lean ====
section
/-! SUPPORT. The operations of Machine/Faults.lean keep what Kept names: the canonical memory, the sides apart, the
fuses blown, and the queue. -/

namespace Sys2Proof.Machine

theorem takeReport_ok {pq} (x : Report) (s : State) (hyp : Sound pq s) : Sound pq (takeReport x s) := by
  unfold takeReport
  simp (maxDischargeDepth := 200) only [ok_ite, unsafeConverter_ok, unsafeLatch_ok, report_ok, hyp]

theorem queueRead_ok {pq} (s : State) (hyp : Sound pq s) : Sound pq (queueRead s) := by
  unfold queueRead
  (repeat' split) <;> simp +contextual (maxDischargeDepth := 200) only [forAll_ok, implies_true, updFm_ok, wr_ok, hyp]

theorem appendRecord_ok {pq} (x : FaultRec) (s : State) (hyp : Sound pq s) : Sound pq (appendRecord x s) := by
  unfold appendRecord
  simp (maxDischargeDepth := 200) only [ok_ite, logAppend_ok, updFm_ok, updSup_ok, hyp]

theorem fecClear_ok {pq} (s : State) (hyp : Sound pq s) : Sound pq (fecClear s) := by
  unfold fecClear
  simp +contextual (maxDischargeDepth := 200) only [forAll_ok, implies_true, wr_ok, hyp]

theorem endPulse_ok {pq} (r : Nat) (s : State) (hyp : Sound pq s) : Sound pq (endPulse r s) := by
  unfold endPulse
  simp only [updFm_ok, hyp]

theorem availClear_ok {pq} (s : State) (hyp : Sound pq s) : Sound pq (availClear s) := by
  unfold availClear
  simp +contextual (maxDischargeDepth := 200) only [forAll_ok, implies_true, wr_ok, updFm_ok, hyp]

theorem breach_ok {pq} (r : Nat) (s : State) (hyp : Sound pq s) : Sound pq (breach r s) := by
  unfold breach
  simp only [clrWord_ok, hyp]

theorem breachAll_ok {pq} (s : State) (hyp : Sound pq s) : Sound pq (breachAll s) := by
  unfold breachAll
  simp +contextual (maxDischargeDepth := 200) only [forAll_ok, implies_true, breach_ok, hyp]

theorem disqRead_ok {pq} (s : State) (hyp : Sound pq s) : Sound pq (disqRead s) := by
  unfold disqRead
  (repeat' split) <;> simp only [wr_ok, updFm_ok, hyp]

theorem findDisagreements_ok {pq} (s : State) (hyp : Sound pq s) : Sound pq (findDisagreements s) := by
  unfold findDisagreements
  simp +contextual (maxDischargeDepth := 200) only [forAll_ok, ok_ite, implies_true, disagree_ok, report_ok, hyp]

theorem haltEngine_ok {pq} (e : Nat) (s : State) (hyp : Sound pq s) : Sound pq (haltEngine e s) := by
  unfold haltEngine
  simp only [updFm_ok, stopEngine_ok, hyp]

theorem abortBinding_ok {pq} (q b : Nat) (s : State) (hyp : Sound pq s) : Sound pq (abortBinding q b s).1 := by
  unfold abortBinding
  simp only [ok_ite1, bindRelease_ok, hyp]

theorem abortEngine_ok {pq} (e : Nat) (s : State) (hyp : Sound pq s) : Sound pq (abortEngine e s).1 := by
  unfold abortEngine
  (repeat' split) <;> simp only [abortBinding_ok, haltEngine_ok, hyp]

theorem reconcile_ok {pq} (d : Disagree) (s : State) (hyp : Sound pq s) : Sound pq (reconcile d s) := by
  unfold reconcile
  with_reducible (repeat' (first
    | assumption | dsimp only | apply ppIsolate_ok | apply busDo_ok | apply abortEngine_ok | apply updFm_ok
    | apply rtCommand_ok | split))

theorem passEntry_ok {pq} (x : Listed) (s : State) (hyp : Sound pq s) : Sound pq (passEntry x s) := by
  unfold passEntry
  with_reducible
    repeat'
      first
      | assumption | apply reconcile_ok | apply updFm_ok | apply report_ok | apply ok_ite

theorem reconcilePass_ok {pq} (s : State) (hyp : Sound pq s) : Sound pq (reconcilePass s) := by
  unfold reconcilePass
  simp +contextual (maxDischargeDepth := 200) only [forAll_ok, implies_true, findDisagreements_ok, updFm_ok,
    passEntry_ok, setCond_ok, hyp]

theorem wdogRestart_ok {pq} (s : State) (hyp : Sound pq s) : Sound pq (wdogRestart s) := by
  unfold wdogRestart
  simp only [updFm_ok, hyp]

theorem readImage_ok {pq} (k : Nat) (s : State) (hyp : Sound pq s) : Sound pq (readImage k s) := by
  unfold readImage
  simp only [ok_ite, readFolio_ok, hyp]

theorem loadFirst_ok {pq} (xs : List (Nat × Option (List Nat))) (s : State) (hyp : Sound pq s) :
    Sound pq (loadFirst xs s) := by
  induction xs generalizing s with
  | nil => exact updFrm_ok _ _ hyp
  | cons x xs ih =>
    obtain ⟨k, _ | f⟩ := x
    · exact ih _ (readImage_ok k s hyp)
    · exact runForeman_ok k f _ (readImage_ok k s hyp)

theorem reloadForeman_ok {pq} (s : State) (hyp : Sound pq s) : Sound pq (reloadForeman s) :=
  ok_ite (updFrm_ok _ _ hyp) (loadFirst_ok _ _ hyp)

theorem reloadResume_ok {pq} (s : State) (hyp : Sound pq s) : Sound pq (reloadResume s) :=
  ok_ite (loadFirst_ok _ _ (updFrm_ok _ _ hyp)) hyp

theorem watchdog_ok {pq} (s : State) (hyp : Sound pq s) : Sound pq (watchdog s) := by
  unfold watchdog
  have h := foremanEvent_ok 3 2 0 _ (setFld_ok Reg.FM_WDCFG Fld.FM_WDCFG_RST (min 127 ((recentRestarts s).length + 1)) _
    (updFm_ok (fun f => { f with wdogTimes := (restartForeman s).tb.ns :: recentRestarts s }) _
      (restartForeman_ok _ hyp)))
  exact ok_ite (loadFirst_ok _ _ h) (foremanEvent_ok _ _ _ _ (loadFirst_ok _ _ h))

theorem foremanLost_ok {pq} (c : Nat) (s : State) (hyp : Sound pq s) : Sound pq (foremanLost c s) := by
  unfold foremanLost
  simp (maxDischargeDepth := 200) only [report_ok, setFlag_ok, startShutdown_ok, hyp]

theorem coreOdd_ok {pq} (c : Nat) (s : State) (hyp : Sound pq s) : Sound pq (coreOdd c s) := by
  unfold coreOdd
  simp (maxDischargeDepth := 200) only [ok_ite, updFm_ok, report_ok, setCond_ok, hyp]

end Sys2Proof.Machine
end

