-- ==== Sys2Proof/Laws/KeepTimeBase.lean ====
section
/-! SUPPORT. The operations of Machine/TimeBase.lean keep what Kept names: the canonical memory, the sides apart, the
fuses blown, and the queue. -/

namespace Sys2Proof.Machine

theorem refclkLost_ok {pq} (s : State) (hyp : Sound pq s) : Sound pq (refclkLost s) := by
  unfold refclkLost
  simp (maxDischargeDepth := 200) only [setFlag_ok, incFld_ok, report_ok, setCond_ok, hyp]

theorem recalibrate_ok {pq} (n : Nat) (s : State) (hyp : Sound pq s) : Sound pq (recalibrate n s) := by
  unfold recalibrate
  simp (maxDischargeDepth := 200) only [ok_ite, updChan_ok, apart_mk, apart_c, imp_self, swapLines_ok, hyp]

theorem refclkBack_ok {pq} (s : State) (hyp : Sound pq s) : Sound pq (refclkBack s) := by
  unfold refclkBack
  simp +contextual (maxDischargeDepth := 200) only [forAll_ok, implies_true, setFlag_ok, recalibrate_ok, report_ok,
    setCond_ok, hyp]

theorem commitHours_ok {pq} (s : State) (hyp : Sound pq s) : Sound pq (commitHours s) := by
  unfold commitHours
  simp only [updSup_ok, commitLifetime_ok, hyp]

theorem qtickWrite_ok {pq} (q v : Nat) (s : State) (hyp : Sound pq s) : Sound pq (qtickWrite q v s) := by
  unfold qtickWrite
  simp (maxDischargeDepth := 200) only [ok_ite, plainWrite_ok, raiseFlag_ok, updTb_ok, hyp]

theorem applyPeriod_ok {pq} (q : Nat) (s : State) (hyp : Sound pq s) : Sound pq (applyPeriod q s) := by
  unfold applyPeriod
  simp (maxDischargeDepth := 200) only [updTb_ok, setFld_ok, showShort_ok, hyp]

end Sys2Proof.Machine
end

