-- ==== Sys2Proof/Laws/KeepTimers.lean ====
section
/-! SUPPORT. The operations of Machine/Timers.lean keep what Kept names: the canonical memory, the sides apart, the
fuses blown, and the queue. -/

namespace Sys2Proof.Machine

theorem settleTimer_ok {pq} (q m t : Nat) (s : State) (hyp : Sound pq s) : Sound pq (settleTimer q m t s) := by
  unfold settleTimer
  simp only [updTimer_ok, hyp]

theorem settleNow_ok {pq} (q m : Nat) (s : State) (hyp : Sound pq s) : Sound pq (settleNow q m s) := by
  unfold settleNow
  simp only [settleTimer_ok, hyp]

theorem tmEvent_ok {pq} (q m b : Nat) (s : State) (hyp : Sound pq s) : Sound pq (tmEvent q m b s) := by
  unfold tmEvent
  simp (maxDischargeDepth := 200) only [ok_ite, raiseWord_ok, setLine_ok, hyp]

theorem driveOutputs_ok {pq} (q m : Nat) (zero : Bool) (s : State) (hyp : Sound pq s) :
    Sound pq (driveOutputs q m zero s) := by
  unfold driveOutputs
  simp +contextual (maxDischargeDepth := 200) only [forAll_ok, ok_ite, implies_true, updEvtOut_ok, hyp]

theorem timerZero_ok {pq} (q m : Nat) (s : State) (hyp : Sound pq s) : Sound pq (timerZero q m s) := by
  unfold timerZero
  simp (maxDischargeDepth := 200) only [settleNow_ok, updTimer_ok, tmEvent_ok, driveOutputs_ok, hyp]

theorem showCompare_ok {pq} (q m : Nat) (s : State) (hyp : Sound pq s) : Sound pq (showCompare q m s) := by
  unfold showCompare
  simp only [wr_ok, hyp]

theorem timerCompare_ok {pq} (q m : Nat) (s : State) (hyp : Sound pq s) : Sound pq (timerCompare q m s) := by
  unfold timerCompare
  simp (maxDischargeDepth := 200) only [settleNow_ok, updTimer_ok, showCompare_ok, tmEvent_ok, driveOutputs_ok, hyp]

theorem takeMatch_ok {pq} (q m : Nat) (s : State) (hyp : Sound pq s) : Sound pq (takeMatch q m s) := by
  unfold takeMatch
  simp only [ok_ite, timerCompare_ok, hyp]

theorem tmLoad_ok {pq} (q m : Nat) (s : State) (hyp : Sound pq s) : Sound pq (tmLoad q m s) := by
  unfold tmLoad
  simp only [updTimer_ok, settleNow_ok, hyp]

theorem showQueue_ok {pq} (q m : Nat) (s : State) (hyp : Sound pq s) : Sound pq (showQueue q m s) := by
  unfold showQueue
  simp only [setFld_ok, hyp]

theorem capture1_ok {pq} (q m e : Nat) (s : State) (hyp : Sound pq s) : Sound pq (capture1 q m e s) := by
  unfold capture1
  simp (maxDischargeDepth := 200) only [ok_ite, settleNow_ok, updTimer_ok, showQueue_ok, tmEvent_ok, hyp]

theorem dropLate_ok {pq} (q m : Nat) (s : State) (hyp : Sound pq s) : Sound pq (dropLate q m s) := by
  unfold dropLate
  (repeat' split) <;> simp only [updTimer_ok, tmEvent_ok, hyp]

theorem capPop_ok {pq} (q m : Nat) (s : State) (hyp : Sound pq s) : Sound pq (capPop q m s) := by
  unfold capPop
  with_reducible (repeat' (first
    | assumption | dsimp only | apply wr_ok | apply updTimer_ok | apply showQueue_ok | apply tmEvent_ok | split))

theorem cmpsetCommit_ok {pq} (q m lo : Nat) (s : State) (hyp : Sound pq s) : Sound pq (cmpsetCommit q m lo s) := by
  unfold cmpsetCommit
  simp (maxDischargeDepth := 200) only [takeMatch_ok, settleNow_ok, updTimer_ok, wr_ok, showCompare_ok, hyp]

theorem rldCommit_ok {pq} (q m lo : Nat) (s : State) (hyp : Sound pq s) : Sound pq (rldCommit q m lo s) := by
  unfold rldCommit
  simp (maxDischargeDepth := 200) only [takeMatch_ok, settleNow_ok, updTimer_ok, wr_ok, hyp]

theorem rldHold_ok {pq} (q m hi : Nat) (s : State) (hyp : Sound pq s) : Sound pq (rldHold q m hi s) := by
  unfold rldHold
  simp only [updTimer_ok, hyp]

theorem cmpHold_ok {pq} (q m hi : Nat) (s : State) (hyp : Sound pq s) : Sound pq (cmpHold q m hi s) := by
  unfold cmpHold
  simp only [updTimer_ok, hyp]

theorem tmCfgWrite_ok {pq} (q m v : Nat) (s : State) (hyp : Sound pq s) : Sound pq (tmCfgWrite q m v s) := by
  unfold tmCfgWrite
  simp only [plainWrite_ok, settleNow_ok, hyp]

theorem tmCmdWrite_ok {pq} (q m v : Nat) (s : State) (hyp : Sound pq s) : Sound pq (tmCmdWrite q m v s) := by
  unfold tmCmdWrite
  simp (maxDischargeDepth := 200) only [ok_ite, capture1_ok, tmLoad_ok, hyp]

theorem resolveChange_ok {pq} (q x : Nat) (s : State) (hyp : Sound pq s) : Sound pq (resolveChange q x s) := by
  unfold resolveChange
  simp (maxDischargeDepth := 200) only [ok_ite, incFld_ok, updEvtIn_ok, hyp]

theorem pinTransition_ok {pq} (q x : Nat) (level : Bool) (s : State) (hyp : Sound pq s) :
    Sound pq (pinTransition q x level s) := by
  unfold pinTransition
  simp (maxDischargeDepth := 200) only [ok_ite, updEvtIn_ok, resolveChange_ok, incFld_ok, hyp]

theorem takeComing_ok {pq} (q x : Nat) (s : State) (hyp : Sound pq s) : Sound pq (takeComing q x s) := by
  unfold takeComing
  (repeat' split) <;> simp (maxDischargeDepth := 200) only [ok_ite, updEvtIn_ok, pinTransition_ok, hyp]

theorem acceptEdge_ok {pq} (q x : Nat) (s : State) (hyp : Sound pq s) : Sound pq (acceptEdge q x s) := by
  unfold acceptEdge
  simp +contextual (maxDischargeDepth := 200) only [forAll_ok, ok_ite, implies_true, settleTimer_ok, setFlag_ok,
    updEvtIn_ok, capture1_ok, hyp]

theorem drivePin_ok {pq} (q o t : Nat) (s : State) (hyp : Sound pq s) : Sound pq (drivePin q o t s) := by
  unfold drivePin
  (repeat' split) <;> simp +contextual (maxDischargeDepth := 200) only [forAll_ok, ok_ite, implies_true, updEvtIn_ok,
    hyp]

theorem drivePins_ok {pq} (s : State) (hyp : Sound pq s) : Sound pq (drivePins s) := by
  unfold drivePins
  simp +contextual (maxDischargeDepth := 200) only [forAll_ok, implies_true, drivePin_ok, hyp]

theorem outcfgWrite_ok {pq} (q o v : Nat) (s : State) (hyp : Sound pq s) : Sound pq (outcfgWrite q o v s) := by
  unfold outcfgWrite
  simp only [drivePin_ok, plainWrite_ok, hyp]

theorem outputChange_ok {pq} (q o : Nat) (s : State) (hyp : Sound pq s) : Sound pq (outputChange q o s) := by
  unfold outputChange
  simp only [updEvtOut_ok, drivePin_ok, hyp]

end Sys2Proof.Machine
end

