-- ==== Sys2Proof/Laws/KeepBoot.lean ====
section
/-! SUPPORT. The operations of Machine/Boot.lean keep what Kept names: the canonical memory, the sides apart, the
fuses blown, and the queue. -/

namespace Sys2Proof.Machine

theorem firstSamples_ok {pq} (vcore vio vaux : Nat) (s : State) (hyp : Sound pq s) :
    Sound pq (firstSamples vcore vio vaux s) := by
  unfold firstSamples
  simp only [supplySample_ok, setSupplies_ok, hyp]

theorem bootComplete_ok {pq} (s : State) (hyp : Sound pq s) : Sound pq (bootComplete s) := by
  unfold bootComplete
  with_reducible (repeat' (first
    | assumption | dsimp only | apply enterMode_ok | apply setFlag_ok | apply drivePins_ok | apply flushDir_ok
    | apply wdogRestart_ok | apply settlePort_ok | apply report_ok | apply autoStart_ok
    | refine forAll_ok _ (fun _ _ _ => ?_) ?_ | split))

theorem orderly_ok {pq} (s : State) (hyp : Sound pq s) : Sound pq (orderly s) := by
  unfold orderly
  simp +contextual (maxDischargeDepth := 200) only [forAll_ok, ok_ite, implies_true, commitNow_ok,
    commitLifetime_ok, appendRecord_ok, hyp]

theorem shutdownEnd_ok {pq} (s : State) (hyp : Sound pq s) : Sound pq (shutdownEnd s) := by
  unfold shutdownEnd
  simp +contextual (maxDischargeDepth := 200) only [forAll_ok, ok_ite, implies_true, orderly_ok, setFlag_ok,
    goDormant_ok, warmBoot_ok, settlePort_ok, enterMode_ok, hyp]

end Sys2Proof.Machine
end

