-- ==== Sys2Proof/Laws/KeepFolios.lean ====
section
/-! SUPPORT. The operations of Machine/Folios.lean keep what Kept names: the canonical memory, the sides apart, the
fuses blown, and the queue. -/

namespace Sys2Proof.Machine

theorem folioLoad_ok {pq} (x : Nat) (p : List Nat) (s : State) (hyp : Sound pq s) : Sound pq (folioLoad x p s) := by
  unfold folioLoad
  simp (maxDischargeDepth := 200) only [ok_ite, respond_ok, storeBytes_ok, updFrm_ok, hyp]

theorem folioVerify_ok {pq} (x : Nat) (p : List Nat) (s : State) (hyp : Sound pq s) :
    Sound pq (folioVerify x p s) := by
  unfold folioVerify
  refine ok_ite (respond_ok _ _ _ _ hyp) (ok_ite (respond_ok _ _ _ _ hyp) ?_)
  have h := loadBytes_ok 128 bufferBase (le p 0 4) s hyp
  generalize loadBytes 128 bufferBase (le p 0 4) s = z at h ⊢
  obtain ⟨t, f, good⟩ := z
  exact respond_ok _ _ _ _ (updFrm_ok _ _ h)

theorem recordSlot_ok {pq} (k : Nat) (s : State) (hyp : Sound pq s) : Sound pq (recordSlot k s) := by
  unfold recordSlot
  simp only [setDir_ok, updFrm_ok, hyp]

theorem updateIdle_ok {pq} (s : State) (hyp : Sound pq s) : Sound pq (updateIdle s) := by
  unfold updateIdle
  simp only [updFrm_ok, hyp]

theorem installOtp_ok {pq} (x : Nat) (f : List Nat) (ok : Bool) (s : State) (hyp : Sound pq s) :
    Sound pq (installOtp x f ok s) := by
  unfold installOtp
  refine ok_ite ?_ ?_
  · split
    · exact respond_ok _ _ _ _ hyp
    · rename_i o
      refine ok_ite (respondRefused_ok _ _ _ _ hyp) (respond_ok _ _ _ _ (updateIdle_ok _ (showOtp_ok _
        (updOtp_ok _ _ hyp ⟨Nat.le_refl _, fun _ h => h, fun h => absurd h o⟩))))
  · simp (maxDischargeDepth := 200) only [ok_ite, respond_ok, respondRefused_ok, updOtp_ok, blown_rev, showOtp_ok,
      updateIdle_ok, hyp]

theorem folioInstall_ok {pq} (x : Nat) (ok : Bool) (s : State) (hyp : Sound pq s) :
    Sound pq (folioInstall x ok s) := by
  unfold folioInstall
  refine ok_ite (respond_ok _ _ _ _ hyp) ?_
  have h := loadBytes_ok 128 bufferBase s.frm.update.len s hyp
  generalize loadBytes 128 bufferBase s.frm.update.len s = z at h ⊢
  obtain ⟨s1, f, good⟩ := z
  refine ok_ite (installOtp_ok _ _ _ _ h) ?_
  extract_lets d k at_ s2
  have h2 : Sound pq s2 := setDir_ok _ _ _ _ h
  refine ok_ite (respondRefused_ok _ _ _ _ h2) (ok_ite (respondRefused_ok _ _ _ _ (failSector_ok _ _ h2)) ?_)
  split
  · exact respondRefused_ok _ _ _ _ h2
  · rename_i t e
    have ht := readFolio_ok at_.1 at_.2 _ (writeSlot_ok _ _ _ h2 t e)
    have h3 := respond_ok x stOK [k, 0, 0, 0] _ (recordSlot_ok k _ ht)
    exact ok_ite (ok_ite (bootRest_ok _ (bootForeman_ok _ h3)) h3) (respondRefused_ok _ _ _ _ ht)

theorem makeActive_ok {pq} (t i k secs : Nat) (s : State) (hyp : Sound pq s) :
    Sound pq (makeActive t i k secs s) := by
  unfold makeActive
  simp only [setDir_ok, updFrm_ok, hyp]

theorem setPlan_ok {pq} (q j v : Nat) (s : State) (hyp : Sound pq s) : Sound pq (setPlan q j v s) := by
  unfold setPlan
  simp only [updFrm_ok, hyp]

theorem endActivation_ok {pq} {answer : Nat → State → State} {s : State}
    (hf : ∀ x s, Sound pq s → Sound pq (answer x s))
    (hyp : Sound pq s) : Sound pq (endActivation answer s) := by
  unfold endActivation
  have h := updFrm_ok (fun f => { f with act := Activation.init }) s hyp
  have h2 := ok_ite (c := s.frm.act.revert = true) h (updateIdle_ok _ h)
  exact ok_ite h2 (hf _ _ h2)

theorem startShadow_ok {pq} (q b k : Nat) (f : List Nat) (s : State) (hyp : Sound pq s) :
    Sound pq (startShadow q b k f s) := by
  unfold startShadow
  simp (maxDischargeDepth := 200) only [loadImage_ok, setFlag_ok, bdCommand_ok, updFrm_ok, hyp]

theorem reloadSingle_ok {pq} (i k : Nat) (f : List Nat) (e : Nat) (s : State) (hyp : Sound pq s) :
    Sound pq (reloadSingle i k f e s) := by
  unfold reloadSingle
  simp (maxDischargeDepth := 200) only [restartEngine_ok, loadImage_ok, stopEngine_ok, hyp]

theorem nextBinding_ok {pq} (s : State) (hyp : Sound pq s) : Sound pq (nextBinding s) := by
  unfold nextBinding
  extract_lets a
  split
  · refine ok_ite ?_ hyp
    split
    · exact ok_ite hyp (startShadow_ok _ _ _ _ _ (updFrm_ok _ _ hyp))
    · exact endActivation_ok (fun _ _ h => respond_ok _ _ _ _ h) hyp
  · exact ok_ite hyp (endActivation_ok (fun _ _ h => respond_ok _ _ _ _ h)
      (makeActive_ok _ _ _ _ _ (forAll_ok _ (fun _ _ h => reloadSingle_ok _ _ _ _ _ h) hyp)))

theorem activateImage_ok {pq} (x i k secs : Nat) (revert : Bool) (s : State) (hyp : Sound pq s) :
    Sound pq (activateImage x i k secs revert s) := by
  unfold activateImage
  simp only [nextBinding_ok, updFrm_ok, hyp]

theorem releaseShadow_ok {pq} (s : State) (hyp : Sound pq s) : Sound pq (releaseShadow s) := by
  unfold releaseShadow
  simp only [ok_ite, bdCommand_ok, bindRelease_ok, hyp]

theorem handOver_ok {pq} (s : State) (hyp : Sound pq s) : Sound pq (handOver s) := by
  unfold handOver
  simp +contextual (maxDischargeDepth := 200) only [ok_ite, implies_true, bdCommand_ok, endActivation_ok,
      respondRefused_ok, releaseShadow_ok, updFrm_ok, hyp]

theorem handedOver_ok {pq} (s : State) (hyp : Sound pq s) : Sound pq (handedOver s) := by
  unfold handedOver
  simp +contextual (maxDischargeDepth := 200) only [ok_ite, implies_true, endActivation_ok, respondRefused_ok,
      releaseShadow_ok, setPlan_ok, makeActive_ok, updFrm_ok, nextBinding_ok, hyp]

theorem dropShadow_ok {pq} (s : State) (hyp : Sound pq s) : Sound pq (dropShadow s) := by
  unfold dropShadow
  simp +contextual (maxDischargeDepth := 200) only [implies_true, endActivation_ok, respondRefused_ok,
      releaseShadow_ok, hyp]

theorem activateForeman_ok {pq} (x k secs : Nat) (revert : Bool) (s : State)
    (hyp : Sound pq s) : Sound pq (activateForeman x k secs revert s) := by
  unfold activateForeman
  simp (maxDischargeDepth := 200) only [ok_ite, respond_ok, storeBytes_ok, updFrm_ok, setFlag_ok, updateOrigin_ok, hyp]

theorem writeSnapshot_ok {pq} (s : State) (hyp : Sound pq s) : Sound pq (writeSnapshot s) := by
  unfold writeSnapshot
  simp only [spend_ok, storeBytes_ok, hyp]

theorem bufferImage_ok {pq} (s : State) (hyp : Sound pq s) : Sound pq (bufferImage s).1 := by
  unfold bufferImage
  dsimp only
  exact loadBytes_ok _ _ _ s hyp

theorem foremanUpdated_ok {pq} (s : State) (hyp : Sound pq s) : Sound pq (foremanUpdated s) := by
  have h := bufferImage_ok _ (writeSnapshot_ok _ hyp)
  unfold foremanUpdated
  generalize bufferImage (writeSnapshot s) = y at h ⊢
  exact wdogRestart_ok _ (setFlag_ok _ _ _ _ (endActivation_ok (fun _ _ h => h)
    (makeActive_ok _ _ _ _ _ (runForeman_ok _ _ _ h))))

theorem foremanReverted_ok {pq} (s : State) (hyp : Sound pq s) : Sound pq (foremanReverted s) := by
  unfold foremanReverted
  simp +contextual (maxDischargeDepth := 200) only [implies_true, setDir_ok, updFrm_ok, writeSnapshot_ok,
    endActivation_ok, foremanEvent_ok, runForeman_ok, hyp]

theorem respondSwap_ok {pq} (x r : Nat) (s : State) (hyp : Sound pq s) : Sound pq (respondSwap x r s) := by
  unfold respondSwap
  (repeat' split) <;> simp only [updSess_ok, hyp]

theorem activateCoef_ok {pq} (r k : Nat) (s : State) (hyp : Sound pq s) : Sound pq (activateCoef r k s) := by
  unfold activateCoef
  simp only [cselWrite_ok, writeCoef_ok, hyp]

theorem activateProfile_ok {pq} (k : Nat) (s : State) (hyp : Sound pq s) : Sound pq (activateProfile k s) := by
  unfold activateProfile
  simp +contextual (maxDischargeDepth := 200) only [forAll_ok, implies_true, updFrm_ok, writeProfile_ok, hyp]

theorem commitNext_ok {pq} (s : State) (hyp : Sound pq s) : Sound pq (commitNext s) := by
  unfold commitNext
  (repeat' split) <;> simp +contextual (maxDischargeDepth := 200) only [ok_ite, implies_true, endActivation_ok,
      respond_ok, rtCommand_ok, updFrm_ok, respondRefused_ok, hyp]

theorem activateRails_ok {pq} (x k secs : Nat) (revert : Bool) (s : State) (hyp : Sound pq s) :
    Sound pq (activateRails x k secs revert s) := by
  unfold activateRails
  simp +contextual (maxDischargeDepth := 200) only [forAll_ok, implies_true, writeSlotValues_ok, writeRailWords_ok,
      writeSequence_ok, makeActive_ok, updFrm_ok, commitNext_ok, hyp]

theorem activationTick_ok {pq} (s : State) (hyp : Sound pq s) : Sound pq (activationTick s) := by
  unfold activationTick
  simp (maxDischargeDepth := 200) only [ok_ite, commitNext_ok, nextBinding_ok, handedOver_ok, hyp]

theorem activateLive_ok {pq} (x t i k secs : Nat) (revert : Bool) (s : State)
    (hyp : Sound pq s) : Sound pq (activateLive x t i k secs revert s) := by
  unfold activateLive
  (repeat' split) <;> simp (maxDischargeDepth := 200) only [readFolio_ok, makeActive_ok, activateImage_ok,
    activateForeman_ok, activateCoef_ok, respondSwap_ok, updateIdle_ok, activateProfile_ok, respond_ok,
    activateRails_ok, hyp]

theorem folioActivate_ok {pq} (x : Nat) (p : List Nat) (s : State)
    (hyp : Sound pq s) : Sound pq (folioActivate x p s) := by
  unfold folioActivate
  simp (maxDischargeDepth := 200) only [ok_ite, respond_ok, setDir_ok, updateIdle_ok, breachAll_ok, activateLive_ok,
    hyp]

theorem folioConfirm_ok {pq} (x : Nat) (p : List Nat) (s : State) (hyp : Sound pq s) : Sound pq (folioConfirm x p s) :=
  by
  unfold folioConfirm
  simp (maxDischargeDepth := 200) only [ok_ite, respond_ok, setDir_ok, updFrm_ok, readFolio_ok, showOtp_ok, updOtp_ok,
    blown_same, Nat.le_max_left, hyp]

theorem restartLocked_ok {pq} (e : Nat) (s : State) (hyp : Sound pq s) : Sound pq (restartLocked e s) := by
  unfold restartLocked
  with_reducible (repeat' (first
    | assumption | dsimp only | apply readFolio_ok | apply stopEngine_ok | apply loadImage_ok | apply bdCommand_ok
    | apply restartEngine_ok | split))

theorem abortedTrial_ok {pq} (s : State) (hyp : Sound pq s) : Sound pq (abortedTrial s) := by
  unfold abortedTrial
  simp (maxDischargeDepth := 200) only [ok_ite, makeActive_ok, setDir_ok, hyp]

theorem abortUpdate_ok {pq} (s : State) (hyp : Sound pq s) : Sound pq (abortUpdate s).1 := by
  unfold abortUpdate
  simp +contextual (maxDischargeDepth := 200) only [ok_ite, ok_ite1, implies_true, endActivation_ok, respond_ok,
      abortedTrial_ok, updateIdle_ok, updFrm_ok, releaseShadow_ok, hyp]

end Sys2Proof.Machine
end

