-- ==== Sys2Proof/Laws/KeepLyheuf.lean ====
section
/-! SUPPORT. The operations of Machine/Lyheuf.lean keep what Kept names: the canonical memory, the sides apart, the
fuses blown, and the queue. -/

namespace Sys2Proof.Machine

theorem allOff_ok {pq} (s : State) (hyp : Sound pq s) : Sound pq (allOff s) := by
  unfold allOff
  simp +contextual (maxDischargeDepth := 200) only [forAll_ok, implies_true, expectOff_ok, updFm_ok, hyp]

theorem dormantFromStandby_ok {pq} (s : State) (hyp : Sound pq s) : Sound pq (dormantFromStandby s) := by
  unfold dormantFromStandby
  simp +contextual (maxDischargeDepth := 200) only [forAll_ok, implies_true, wr_ok, report_ok, goDormant_ok,
    commitNow_ok, commitLifetime_ok, appendRecord_ok, hyp]

theorem setModeTo_ok {pq} (x : Nat) (p : List Nat) (s : State) (hyp : Sound pq s) : Sound pq (setModeTo x p s) := by
  unfold setModeTo
  simp (maxDischargeDepth := 200) only [ok_ite, respond_ok, allOff_ok, dormantFromStandby_ok, dueCommit_ok,
      startShutdown_ok, hyp]

theorem openSession_ok {pq} (x : Nat) (s : State) (hyp : Sound pq s) : Sound pq (openSession x s) := by
  unfold openSession
  simp (maxDischargeDepth := 200) only [ok_ite, respond_ok, setFld_ok, updSess_ok, hyp]

theorem giveNonce_ok {pq} (x : Nat) (s : State) (hyp : Sound pq s) : Sound pq (giveNonce x s) := by
  unfold giveNonce
  simp (maxDischargeDepth := 200) only [spend_ok, updSess_ok, respond_ok, hyp]

theorem grantOwner_ok {pq} (x take : Nat) (s : State) (hyp : Sound pq s) : Sound pq (grantOwner x take s) := by
  unfold grantOwner
  (repeat' split) <;> simp (maxDischargeDepth := 200) only [respond_ok, setFld_ok, hyp]

theorem joinClaim_ok {pq} (x : Nat) (p : List Nat) (s : State) (hyp : Sound pq s) : Sound pq (joinClaim x p s) := by
  unfold joinClaim
  simp (maxDischargeDepth := 200) only [ok_ite, updSess_ok, grantOwner_ok, respond_ok, incFld_ok, hyp]

theorem claimOwner_ok {pq} (x : Nat) (p : List Nat) (s : State) (hyp : Sound pq s) : Sound pq (claimOwner x p s) := by
  unfold claimOwner
  simp (maxDischargeDepth := 200) only [ok_ite, respond_ok, grantOwner_ok, updSess_ok, joinClaim_ok, hyp]

theorem hostPolicy_ok {pq} (pmbw : Bool) (haen : Nat) (s : State) (hyp : Sound pq s) :
    Sound pq (hostPolicy pmbw haen s) := by
  unfold hostPolicy
  simp (maxDischargeDepth := 200) only [settleAlert_ok, plainWrite_ok, setFlag_ok, hyp]

theorem commitIfRuns_ok {pq} (r : Nat) (s : State) (hyp : Sound pq s) : Sound pq (commitIfRuns r s).1 := by
  unfold commitIfRuns
  simp only [ok_ite1, rtCommand_ok, hyp]

theorem railSet_ok {pq} (x : Nat) (p : List Nat) (s : State) (hyp : Sound pq s) : Sound pq (railSet x p s) := by
  unfold railSet
  with_reducible
    repeat'
      first
      | assumption | dsimp only | apply respond_ok | apply commitIfRuns_ok | apply writeRailWords_ok
      | apply respondRail_ok | apply respondRefused_ok | split

theorem viewOn_ok {pq} (r : Nat) (s : State) (hyp : Sound pq s) : Sound pq (viewOn r s) := by
  unfold viewOn
  simp only [expectOn_ok, updFm_ok, hyp]

theorem viewRefused_ok {pq} (r : Nat) (s : State) (hyp : Sound pq s) : Sound pq (viewRefused r s) := by
  unfold viewRefused
  simp only [ok_ite, viewOn_ok, hyp]

theorem hostEnable_ok {pq} (r : Nat) (s : State) (hyp : Sound pq s) : Sound pq (hostEnable r s).1 := by
  unfold hostEnable
  simp (maxDischargeDepth := 200) only [ok_ite1, seqStart_ok, wr_ok, viewOn_ok, rtCommand_ok, viewRefused_ok, hyp]

theorem hostDisable_ok {pq} (r : Nat) (s : State) (hyp : Sound pq s) : Sound pq (hostDisable r s).1 := by
  unfold hostDisable
  simp (maxDischargeDepth := 200) only [ok_ite1, rtCommand_ok, expectOff_ok, updFm_ok, hyp]

theorem railAnswer_ok {pq} (x : Nat) (p : List Nat) {f : Nat → State → State × Nat × Nat} {s : State}
    (hf : ∀ r s, Sound pq s → Sound pq (f r s).1) (hyp : Sound pq s) : Sound pq (railAnswer x p f s) := by
  unfold railAnswer
  split
  · have h := hf ‹Nat› s hyp
    split
    exact ok_ite (respondRail_ok _ _ _ (ok_pair ‹_› h)) (respondRefused_ok _ _ _ _ (ok_pair ‹_› h))
  · exact respond_ok _ _ _ _ hyp

theorem railClear_ok {pq} (x : Nat) (p : List Nat) (s : State) (hyp : Sound pq s) : Sound pq (railClear x p s) := by
  unfold railClear
  (repeat' split) <;> simp (maxDischargeDepth := 200) only [ok_ite, rtCommand_ok, respond_ok, respondRefused_ok, hyp]

theorem railPolicy_ok {pq} (x r : Nat) (y : Policy) (s : State) (hyp : Sound pq s) :
    Sound pq (railPolicy x r y s) := by
  unfold railPolicy
  (repeat' split) <;> simp +contextual (maxDischargeDepth := 200) only [forAll_ok, ok_ite, implies_true, setFld_ok,
    setFlag_ok, commitIfRuns_ok, respond_ok, respondRefused_ok, partWrite_ok, wr_ok, cselWrite_ok, hyp]

theorem phaseCmd_ok {pq} (x op n : Nat) (s : State) (hyp : Sound pq s) : Sound pq (phaseCmd x op n s) := by
  unfold phaseCmd
  (repeat' split) <;> simp (maxDischargeDepth := 200) only [ok_ite, ppIsolate_ok, ppUnisolate_ok, ppResync_ok,
    ppRebind_ok, respond_ok, respondRefused_ok, hyp]

theorem bindingCmd_ok {pq} (x q op b i arg : Nat) (s : State) (hyp : Sound pq s) :
    Sound pq (bindingCmd x q op b i arg s) := by
  unfold bindingCmd
  simp (maxDischargeDepth := 200) only [ok_ite, bdCommand_ok, respond_ok, respondRefused_ok, hyp]

theorem telemStream_ok {pq} (x : Nat) (qs : List (BitVec 8 × BitVec 8)) (us : Nat) (s : State) (hyp : Sound pq s) :
    Sound pq (telemStream x qs us s) := by
  unfold telemStream
  simp (maxDischargeDepth := 200) only [ok_ite, respond_ok, updHost_ok, hyp]

theorem putRecord_ok {pq} (y : Nat × Nat) (v : Int) (s : State) (hyp : Sound pq s) : Sound pq (putRecord y v s) := by
  unfold putRecord
  simp only [updHost_ok, setFld_ok, hyp]

theorem streamRecords_ok {pq} (tj : List (BitVec 32)) (s : State) (hyp : Sound pq s) :
    Sound pq (streamRecords tj s) := by
  unfold streamRecords
  simp +contextual (maxDischargeDepth := 200) only [forAll_ok, implies_true, putRecord_ok, updHost_ok, hyp]

theorem recRead_ok {pq} (x off n : Nat) (s : State) (hyp : Sound pq s) : Sound pq (recRead x off n s) := by
  unfold recRead
  simp (maxDischargeDepth := 200) only [ok_ite, respond_ok, loadBytes_ok, hyp]

theorem faultLog_ok {pq} (x : Nat) (p : List Nat) (s : State) (hyp : Sound pq s) : Sound pq (faultLog x p s) := by
  unfold faultLog
  simp (maxDischargeDepth := 200) only [ok_ite, respond_ok, nvTouch_ok, hyp]

theorem faultClear_ok {pq} (s : State) (hyp : Sound pq s) : Sound pq (faultClear s) := by
  unfold faultClear
  simp +contextual (maxDischargeDepth := 200) only [forAll_ok, implies_true, clearSector_ok, updFm_ok, fecClear_ok,
    setFlag_ok, hyp]

theorem respondPart_ok {pq} (x : Nat) (blob : List Nat) (part : Nat) (s : State) (hyp : Sound pq s) :
    Sound pq (respondPart x blob part s) := by
  unfold respondPart
  (repeat' split) <;> simp only [respond_ok, hyp]

theorem attest_ok {pq} (x : Nat) (p : List Nat) (s : State) (hyp : Sound pq s) : Sound pq (attest x p s) := by
  unfold attest
  simp (maxDischargeDepth := 200) only [ok_ite, respond_ok, readFolio_ok, respondPart_ok, updFrm_ok, spend_ok, hyp]

theorem abortPending_ok {pq} (t : Nat) (hw : Bool) (s : State) (hyp : Sound pq s) : Sound pq (abortPending t hw s) := by
  unfold abortPending
  (repeat' split) <;> simp (maxDischargeDepth := 200) only [ok_ite, abortUpdate_ok, clrWord_ok, deliver_ok, setFld_ok,
    updSess_ok, freeSession_ok, hyp]

theorem abortSession_ok {pq} (t : Nat) (hw : Bool) (f : Nat → Bool) (s : State) (hyp : Sound pq s) :
    Sound pq (abortSession t hw f s).1 := by
  unfold abortSession
  (repeat' split) <;> simp only [ok_ite1, abortPending_ok, hyp]

theorem abortBus_ok {pq} (q : Nat) (s : State) (hyp : Sound pq s) : Sound pq (abortBus q s).1 := by
  unfold abortBus
  simp +contextual (maxDischargeDepth := 200) only [forAll_ok, ok_ite, ok_ite1, implies_true, setFlag_ok, setFld_ok,
      showSbus_ok, updSbus_ok, ownCut_ok, hyp]

theorem abortSupervision_ok {pq} (r : Nat) (s : State) (hyp : Sound pq s) : Sound pq (abortSupervision r s).1 := by
  unfold abortSupervision
  simp only [ok_ite1, endEil_ok, hyp]

theorem abortTarget_ok {pq} (t i : Nat) (hw : Bool) (f : Nat → Bool) (s : State) (hyp : Sound pq s) :
    Sound pq (abortTarget t i hw f s).1 := by
  unfold abortTarget
  (repeat' split) <;> simp only [abortSession_ok, abortSupervision_ok, abortEngine_ok, abortBinding_ok, abortBus_ok,
    abortUpdate_ok, hyp]

theorem firmwareAbort_ok {pq} (x : Nat) (p : List Nat) (s : State) (hyp : Sound pq s) :
    Sound pq (firmwareAbort x p s) := by
  unfold firmwareAbort
  simp (maxDischargeDepth := 200) only [ok_ite, respond_ok, abortTarget_ok, hyp]

end Sys2Proof.Machine
end

