-- ==== Sys2Proof/Laws/KeepHwAbort.lean ====
section
/-! SUPPORT. The operations of Machine/HwAbort.lean keep what Kept names: the canonical memory, the sides apart, the
fuses blown, and the queue. -/

namespace Sys2Proof.Machine

theorem hwAbortEffect_ok {pq} (t i arg : Nat) (s : State) (hyp : Sound pq s) :
    Sound pq (hwAbortEffect t i arg s).1 := by
  unfold hwAbortEffect
  simp (maxDischargeDepth := 200) only [ok_ite1, reloadForeman_ok, restartForeman_ok, abortTarget_ok, hyp]

theorem hwAbort_ok {pq} (t i arg : Nat) (s : State) (hyp : Sound pq s) : Sound pq (hwAbort t i arg s) := by
  unfold hwAbort
  simp (maxDischargeDepth := 200) only [ok_ite, raiseFlag_ok, hwAbortEffect_ok, breachAll_ok, setFlag_ok, setFld_ok,
      updHost_ok, hyp]

theorem hwAbortDone_ok {pq} (s : State) (hyp : Sound pq s) : Sound pq (hwAbortDone s) := by
  unfold hwAbortDone
  simp (maxDischargeDepth := 200) only [setFlag_ok, raiseFlag_ok, setFld_ok, settleAlert_ok, report_ok, hyp]

end Sys2Proof.Machine
end

