-- ==== Sys2Proof/Laws/KeepSecurity.lean ====
section
/-! SUPPORT. The operations of Machine/Security.lean keep what Kept names: the canonical memory, the sides apart, the
fuses blown, and the queue. -/

namespace Sys2Proof.Machine

theorem scCommand_ok {pq} (op arg : Nat) (s : State) (hyp : Sound pq s) : Sound pq (scCommand op arg s) := by
  unfold scCommand
  simp (maxDischargeDepth := 200) only [ok_ite, setFld_ok, setFlag_ok, updOtp_ok, blown_same, Nat.le_refl, hyp]

theorem blowFuses_ok {pq} (s : State) (hyp : Sound pq s) : Sound pq (blowFuses s) := by
  unfold blowFuses
  split
  · exact updOtp_ok _ _ hyp (blown_same (by simp [Nat.le_max_left]) rfl rfl rfl)
  · exact updOtp_ok _ _ hyp (blown_rev _ _)
  · exact updOtp_ok _ _ hyp (blown_owner _ _)

theorem failFuses_ok {pq} (s : State) (hyp : Sound pq s) : Sound pq (failFuses s) := by
  unfold failFuses
  simp (maxDischargeDepth := 200) only [ok_ite, updOtp_ok, blown_same, Nat.le_add_right, spend_ok, hyp]

theorem fuseDone_ok {pq} (ok : Bool) (s : State) (hyp : Sound pq s) : Sound pq (fuseDone ok s) := by
  unfold fuseDone
  simp (maxDischargeDepth := 200) only [ok_ite, blowFuses_ok, failFuses_ok, updOtp_ok, blown_same, Nat.le_refl,
      showOtp_ok, setFlag_ok, setFld_ok, hyp]

theorem jobRead_ok {pq} (a n : Nat) (s : State) (hyp : Sound pq s) : Sound pq (jobRead a n s).1 := by
  unfold jobRead
  (repeat' split) <;> simp only [accessError_ok, loadBytes_ok, hyp]

theorem jobMessage_ok {pq} (s : State) (hyp : Sound pq s) : Sound pq (jobMessage s).1 := by
  unfold jobMessage
  simp only [ok_ite1, jobRead_ok, hyp]

theorem jobStart_ok {pq} (op dst : Nat) (bs : List Nat) (r : Nat) (s : State) (hyp : Sound pq s) :
    Sound pq (jobStart op dst bs r s) := by
  unfold jobStart
  simp only [setFlag_ok, updFrm_ok, hyp]

theorem jobSha3_ok {pq} (s : State) (hyp : Sound pq s) : Sound pq (jobSha3 s) := by
  unfold jobSha3
  simp only [jobMessage_ok, jobStart_ok, hyp]

theorem jobVerify_ok {pq} (s : State) (hyp : Sound pq s) : Sound pq (jobVerify s) := by
  unfold jobVerify
  simp (maxDischargeDepth := 200) only [jobMessage_ok, jobRead_ok, jobStart_ok, hyp]

theorem jobSign_ok {pq} (s : State) (hyp : Sound pq s) : Sound pq (jobSign s) := by
  unfold jobSign
  simp (maxDischargeDepth := 200) only [jobMessage_ok, jobStart_ok, spend_ok, hyp]

theorem jobRun_ok {pq} (op : Nat) (s : State) (hyp : Sound pq s) : Sound pq (jobRun op s) := by
  unfold jobRun
  (repeat' split) <;> simp only [jobSha3_ok, jobVerify_ok, jobSign_ok, hyp]

theorem scJob_ok {pq} (op : Nat) (s : State) (hyp : Sound pq s) : Sound pq (scJob op s) := by
  unfold scJob
  simp (maxDischargeDepth := 200) only [ok_ite, setFld_ok, updFrm_ok, setFlag_ok, jobRun_ok, hyp]

theorem scResume_ok {pq} (s : State) (hyp : Sound pq s) : Sound pq (scResume s) := by
  unfold scResume
  simp (maxDischargeDepth := 200) only [ok_ite, jobRun_ok, updFrm_ok, hyp]

theorem jobWrite_ok {pq} (s : State) (hyp : Sound pq s) : Sound pq (jobWrite s).1 := by
  unfold jobWrite
  with_reducible
    repeat'
      first
      | assumption | dsimp only | apply accessError_ok | apply storeBytes_ok | split

theorem jobDone_ok {pq} (s : State) (hyp : Sound pq s) : Sound pq (jobDone s) := by
  unfold jobDone
  simp (maxDischargeDepth := 200) only [jobWrite_ok, setFlag_ok, setFld_ok, updFrm_ok, hyp]

end Sys2Proof.Machine
end

