-- ==== Sys2Proof/Laws/KeepRetire.lean ====
section
/-! SUPPORT. The operations of Machine/Retire.lean keep what Kept names: the canonical memory, the sides apart, the
fuses blown, and the queue. -/

namespace Sys2Proof.Machine

theorem mrBegin_ok {pq} (k : Nat) (op : RasOp) (s : State) (hyp : Sound pq s) : Sound pq (mrBegin k op s) := by
  unfold mrBegin
  simp (maxDischargeDepth := 200) only [updRas_ok, setFlag_ok, hyp]

theorem mrEnd_ok {pq} (k : Nat) (s : State) (hyp : Sound pq s) : Sound pq (mrEnd k s) := by
  unfold mrEnd
  simp (maxDischargeDepth := 200) only [updRas_ok, setFlag_ok, hyp]

theorem mrCommand_ok {pq} (op k unit : Nat) (mig : Bool) (s : State)
    (hyp : Sound pq s) : Sound pq (mrCommand op k unit mig s) := by
  unfold mrCommand
  with_reducible (repeat' (first
    | assumption | apply setFld_ok | apply mrBegin_ok | apply updRas_ok | apply incFld_ok | apply recordRas_ok
    | apply ok_ite))

theorem copyWords_ok {pq} (k a n : Nat) (s : State) (hyp : Sound pq s) : Sound pq (copyWords k a n s) := by
  unfold copyWords
  simp +contextual (maxDischargeDepth := 200) only [forAll_ok, ok_ite, implies_true, correctWord_ok, spend_ok,
    logError_ok, setWritten_ok, setUpset_ok, hyp]

theorem retireDone_ok {pq} (k u : Nat) (s : State) (hyp : Sound pq s) : Sound pq (retireDone k u s) := by
  unfold retireDone
  simp (maxDischargeDepth := 200) only [copyWords_ok, updRas_ok, incFld_ok, recordRas_ok, mrEnd_ok, hyp]

theorem resume_ok {pq} (s : State) (hyp : Sound pq s) : Sound pq (resume s) := by
  unfold resume
  simp (maxDischargeDepth := 200) only [erResume_ok, reloadResume_ok, busyResume_ok, nvResume_ok, scResume_ok, hyp]

theorem applySoftRows_ok {pq} (k : Nat) (s : State) (hyp : Sound pq s) : Sound pq (applySoftRows k s) := by
  unfold applySoftRows
  simp (maxDischargeDepth := 200) only [updRas_ok, addFld_ok, setFld_ok, hyp]

theorem clearPageCounts_ok {pq} (k : Nat) (s : State) (hyp : Sound pq s) : Sound pq (clearPageCounts k s) := by
  unfold clearPageCounts
  simp only [updRas_ok, hyp]

theorem discardBank_ok {pq} (k : Nat) (s : State) (hyp : Sound pq s) : Sound pq (discardBank k s) := by
  unfold discardBank
  refine forAll_ok _ (fun g t ht => setMark_ok g false t ht) (updRas_ok _ _ ?_)
  rw [sound_mk]
  exact ⟨fun e => filter_canon _ (hyp.1 e), hyp.2⟩

theorem fillBuffer_ok {pq} (k b : Nat) (s : State) (hyp : Sound pq s) : Sound pq (fillBuffer k b s) := by
  unfold fillBuffer
  with_reducible
    repeat'
      first
      | assumption | dsimp only | apply setValue_ok | apply setWritten_ok | apply setUpset_ok | apply ok_ite
      | apply ok_ite1 | refine forAll_ok _ (fun _ _ _ => ?_) ?_ | refine foldl_ok _ (fun _ _ _ => ?_) ?_
      | refine ok_pair ‹_ = (_, _)› ?_ | extract_lets | split | dsimp +zetaDelta only

theorem bankResetDone_ok {pq} (k : Nat) (mig : Option Nat) (s : State) (hyp : Sound pq s) :
    Sound pq (bankResetDone k mig s) := by
  unfold bankResetDone
  (repeat' split) <;> simp (maxDischargeDepth := 200) only [copyWords_ok, fillBuffer_ok, discardBank_ok,
    applySoftRows_ok, clearPageCounts_ok, mrEnd_ok, hyp]

end Sys2Proof.Machine
end

