-- ==== Sys2Proof/Laws/KeepVarip.lean ====
section
/-! SUPPORT. The operations of Machine/Varip.lean keep what Kept names: the canonical memory, the sides apart, the
fuses blown, and the queue. -/

namespace Sys2Proof.Machine

theorem showMembers_ok {pq} (v : Nat) (s : State) (hyp : Sound pq s) : Sound pq (showMembers v s) := by
  unfold showMembers
  simp only [setFld_ok, hyp]

theorem slotEnter_ok {pq} (v i st : Nat) (s : State) (hyp : Sound pq s) : Sound pq (slotEnter v i st s) := by
  unfold slotEnter
  simp only [showMembers_ok, setFld_ok, hyp]

theorem slotRevoke_ok {pq} (v i : Nat) (s : State) (hyp : Sound pq s) : Sound pq (slotRevoke v i s) := by
  unfold slotRevoke
  simp only [updVarip_ok, hyp]

theorem slotGone_ok {pq} (v : Nat) (s : State) (hyp : Sound pq s) : Sound pq (slotGone v s) := by
  unfold slotGone
  simp only [incFld_ok, raiseWord_ok, hyp]

theorem varipCycle_ok {pq} (v : Nat) (s : State) (hyp : Sound pq s) : Sound pq (varipCycle v s) := by
  unfold varipCycle
  with_reducible
    repeat'
      first
      | assumption | apply setFld_ok | apply slotEnter_ok | apply updVarip_ok | split

theorem slotMiss_ok {pq} (v i : Nat) (s : State) (hyp : Sound pq s) : Sound pq (slotMiss v i s) := by
  unfold slotMiss
  simp (maxDischargeDepth := 200) only [ok_ite, setFld_ok, slotGone_ok, slotEnter_ok, slotRevoke_ok, hyp]

theorem slotHeard_ok {pq} (v i : Nat) (s : State) (hyp : Sound pq s) : Sound pq (slotHeard v i s) := by
  unfold slotHeard
  simp (maxDischargeDepth := 200) only [ok_ite, setFld_ok, incFld_ok, raiseWord_ok, slotEnter_ok, hyp]

theorem hintSlot_ok {pq} (v i w : Nat) (s : State) (hyp : Sound pq s) : Sound pq (hintSlot v i w s) := by
  unfold hintSlot
  with_reducible
    repeat'
      first
      | assumption | dsimp only | apply updVarip_ok | apply slotMiss_ok | apply incFld_ok | apply slotHeard_ok
      | apply setFld_ok | split

theorem joinWord_ok {pq} (v w : Nat) (s : State) (hyp : Sound pq s) : Sound pq (joinWord v w s) := by
  unfold joinWord
  simp (maxDischargeDepth := 200) only [ok_ite, updVarip_ok, incFld_ok, hyp]

theorem vbRefuse_ok {pq} (v : Nat) (s : State) (hyp : Sound pq s) : Sound pq (vbRefuse v s) := by
  unfold vbRefuse
  simp only [raiseFlag_ok, hyp]

theorem vbReopen_ok {pq} (v i : Nat) (s : State) (hyp : Sound pq s) : Sound pq (vbReopen v i s) := by
  unfold vbReopen
  simp only [ok_ite, slotEnter_ok, vbRefuse_ok, hyp]

theorem vbEvict_ok {pq} (v i : Nat) (s : State) (hyp : Sound pq s) : Sound pq (vbEvict v i s) := by
  unfold vbEvict
  simp (maxDischargeDepth := 200) only [ok_ite, slotGone_ok, slotEnter_ok, slotRevoke_ok, vbRefuse_ok, hyp]

theorem slotConfigure_ok {pq} (v i : Nat) (on en : Bool) (s : State) (hyp : Sound pq s) :
    Sound pq (slotConfigure v i on en s) := by
  unfold slotConfigure
  simp (maxDischargeDepth := 200) only [ok_ite, slotEnter_ok, slotRevoke_ok, hyp]

theorem vbCfgWrite_ok {pq} (p v : Nat) (s : State) (hyp : Sound pq s) : Sound pq (vbCfgWrite p v s) := by
  unfold vbCfgWrite
  simp +contextual (maxDischargeDepth := 200) only [forAll_ok, ok_ite, implies_true, plainWrite_ok, setFld_ok,
      raiseFlag_ok, slotConfigure_ok, updVarip_ok, hyp]

end Sys2Proof.Machine
end

