-- ==== Sys2Proof/Laws/KeepSpine.lean ====
section
/-! SUPPORT. The operations of Machine/Spine.lean keep what Kept names: the canonical memory, the sides apart, the
fuses blown, and the queue. -/

namespace Sys2Proof.Machine

theorem writeTB_ok {pq} (c : RegCell) (a v : Nat) (s : State) (hyp : Sound pq s) : Sound pq (writeTB c a v s) := by
  unfold writeTB
  simp only [ok_ite, qtickWrite_ok, plainWrite_ok, hyp]

theorem writeFM_ok {pq} (c : RegCell) (a v : Nat) (s : State) (hyp : Sound pq s) : Sound pq (writeFM c a v s) := by
  unfold writeFM
  (repeat' split) <;> simp (maxDischargeDepth := 200) only [ok_ite, setFlag_ok, wr_ok, fecClear_ok, wdogRestart_ok,
    plainWrite_ok, pulseRail_ok, availClear_ok, hyp]

theorem writeER_ok {pq} (c : RegCell) (a v : Nat) (s : State) (hyp : Sound pq s) : Sound pq (writeER c a v s) := by
  unfold writeER
  (repeat' split) <;> simp only [erCtrlWrite_ok, erCommand_ok, erChWrite_ok, plainWrite_ok, hyp]

theorem writeSM_ok {pq} (c : RegCell) (a v : Nat) (s : State) (hyp : Sound pq s) : Sound pq (writeSM c a v s) := by
  unfold writeSM
  (repeat' split) <;> simp only [minReset_ok, seqStart_ok, setFld_ok, plainWrite_ok, hyp]

theorem writeVB_ok {pq} (c : RegCell) (a v : Nat) (s : State) (hyp : Sound pq s) : Sound pq (writeVB c a v s) := by
  unfold writeVB
  (repeat' split) <;> simp (maxDischargeDepth := 200) only [ok_ite, vbCfgWrite_ok, vbReopen_ok, vbEvict_ok,
    vbRefuse_ok, wr_ok, plainWrite_ok, hyp]

theorem writeMB_ok {pq} (c : RegCell) (a v : Nat) (s : State) (hyp : Sound pq s) : Sound pq (writeMB c a v s) := by
  unfold writeMB
  (repeat' split) <;> simp only [settleAlert_ok, plainWrite_ok, updateOrigin_ok, postSession_ok, freqWrite_ok,
    wr_ok, hyp]

theorem writeNV_ok {pq} (c : RegCell) (a v : Nat) (s : State) (hyp : Sound pq s) : Sound pq (writeNV c a v s) := by
  unfold writeNV
  (repeat' split) <;> simp only [nvCommand_ok, wr_ok, plainWrite_ok, hyp]

theorem writeSC_ok {pq} (c : RegCell) (a v : Nat) (s : State) (hyp : Sound pq s) : Sound pq (writeSC c a v s) := by
  unfold writeSC
  (repeat' split) <;> simp only [setFlag_ok, scCommand_ok, scJob_ok, plainWrite_ok, hyp]

theorem writeMR_ok {pq} (c : RegCell) (a v : Nat) (s : State) (hyp : Sound pq s) : Sound pq (writeMR c a v s) := by
  unfold writeMR
  (repeat' split) <;> simp only [mrCommand_ok, plainWrite_ok, hyp]

theorem writeRT_ok {pq} (c : RegCell) (a v : Nat) (s : State) (hyp : Sound pq s) : Sound pq (writeRT c a v s) := by
  unfold writeRT
  (repeat' split) <;> simp only [rtCommand_ok, plainWrite_ok, hyp]

theorem writeLU_ok {pq} (c : RegCell) (a v : Nat) (s : State) (hyp : Sound pq s) : Sound pq (writeLU c a v s) := by
  unfold writeLU
  (repeat' split) <;> simp only [ok_ite, cselWrite_ok, raiseFlag_ok, plainWrite_ok, submit_ok, burstFire_ok,
      imCtrlWrite_ok, imClrcnt_ok, burstClrcnt_ok, partWrite_ok, setTrust_ok, hyp]

theorem writePW_ok {pq} (c : RegCell) (a v : Nat) (s : State) (hyp : Sound pq s) : Sound pq (writePW c a v s) := by
  unfold writePW
  (repeat' split) <;> simp only [immediateLoad_ok, loadAll_ok, tlrefCommit_ok, cfgWrite_ok, perStage_ok, onStage_ok,
    ofsStage_ok, dtaWrite_ok, wr_ok, tripClear_ok, loffClear_ok, plainWrite_ok, hyp]

theorem writeAD_ok {pq} (c : RegCell) (a v : Nat) (s : State) (hyp : Sound pq s) : Sound pq (writeAD c a v s) := by
  unfold writeAD
  (repeat' split) <;> simp (maxDischargeDepth := 200) only [ok_ite, seqCommit_ok, plainWrite_ok, setFld_ok, wr_ok,
    sretWrite_ok, fcfgWrite_ok, hyp]

theorem writeWC_ok {pq} (c : RegCell) (a v : Nat) (s : State) (hyp : Sound pq s) : Sound pq (writeWC c a v s) := by
  unfold writeWC
  (repeat' split) <;> simp only [wcCfgWrite_ok, thrWrite_ok, wcClear_ok, trkWrite_ok, boundWrite_ok, toppClear_ok,
      wr_ok, ocpCfgWrite_ok, setFld_ok, plainWrite_ok, hyp]

theorem writePP_ok {pq} (c : RegCell) (a v : Nat) (s : State) (hyp : Sound pq s) : Sound pq (writePP c a v s) := by
  unfold writePP
  (repeat' split) <;> simp +contextual (maxDischargeDepth := 200) only [implies_true, ppIsolate_ok, ppUnisolate_ok,
    ppResync_ok, ppRebind_ok, ppResult_ok, withPort_ok, plainWrite_ok, wr_ok, hyp]

theorem writeTM_ok {pq} (c : RegCell) (a v : Nat) (s : State) (hyp : Sound pq s) : Sound pq (writeTM c a v s) := by
  unfold writeTM
  (repeat' split) <;> simp only [wr_ok, outcfgWrite_ok, tmCfgWrite_ok, tmCmdWrite_ok, rldCommit_ok, rldHold_ok,
    cmpsetCommit_ok, cmpHold_ok, plainWrite_ok, hyp]

theorem writeBD_ok {pq} (m : Master) (c : RegCell) (a v : Nat) (s : State) (hyp : Sound pq s) :
    Sound pq (writeBD m c a v s) := by
  unfold writeBD
  (repeat' split) <;> simp only [bdCfgWrite_ok, bdCommand_ok, ectlWrite_ok, sigWrite_ok, plainWrite_ok, hyp]

theorem writeSB_ok {pq} (c : RegCell) (a v : Nat) (s : State) (hyp : Sound pq s) : Sound pq (writeSB c a v s) := by
  unfold writeSB
  (repeat' split) <;> simp only [xcmdWrite_ok, wr_ok, plainWrite_ok, hyp]

theorem regWrite_ok {pq} (m : Master) (a v : Nat) (s : State) (hyp : Sound pq s) : Sound pq (regWrite m a v s) := by
  unfold regWrite
  (repeat' split) <;> simp only [writeTB_ok, writeFM_ok, writeER_ok, writeSM_ok, writeVB_ok, writeMB_ok, writeNV_ok,
    writeSC_ok, writeMR_ok, writeRT_ok, writeLU_ok, writePW_ok, writeAD_ok, writeWC_ok, writePP_ok, writeTM_ok,
    writeBD_ok, writeSB_ok, hyp]

theorem readEffect_ok {pq} (c : RegCell) (s : State) (hyp : Sound pq s) : Sound pq (readEffect c s) := by
  unfold readEffect
  (repeat' split) <;> simp only [queueRead_ok, disqRead_ok, elogRead_ok, capPop_ok, evqRead_ok, hyp]

theorem regRead_ok {pq} (a : Nat) (s : State) (hyp : Sound pq s) : Sound pq (regRead a s).1 := by
  unfold regRead
  (repeat' split) <;> simp only [ibiqRead_ok, readEffect_ok, hyp]

theorem spineRead_ok {pq} (m : Master) (a size type : Nat) (u : Upset) (s : State) (hyp : Sound pq s) :
    Sound pq (spineRead m a size type u s).1 := by
  unfold spineRead
  with_reducible
    repeat'
      first
      | assumption | dsimp only | apply accessError_ok | apply regRead_ok | apply nvWindowRead_ok | apply touchWord_ok
      | split

theorem spineWrite_ok {pq} (m : Master) (a size v : Nat) (u : Upset) (s : State)
    (hyp : Sound pq s) : Sound pq (spineWrite m a size v u s).1 := by
  unfold spineWrite
  with_reducible (repeat' (first
    | assumption | apply accessError_ok | apply regWrite_ok | apply ownCodeStore_ok | apply storeWord_ok | split))

theorem masterWrite_ok {pq} (m : Master) (a v : Nat) (u : Upset) (s : State) (hyp : Sound pq s) :
    Sound pq (masterWrite m a v u s) := by
  unfold masterWrite
  with_reducible (repeat' (first
    | assumption | dsimp only | apply spineWrite_ok | apply busError_ok | apply accessError_ok
    | refine ok_pair ‹_ = (_, _)› ?_ | split))

end Sys2Proof.Machine
end

