-- ==== Sys2Proof/Laws/KeepAccess.lean ====
section
/-! SUPPORT. The operations of Machine/Access.lean keep what Kept names: the canonical memory, the sides apart, the
fuses blown, and the queue. -/

namespace Sys2Proof.Machine

theorem pushInput_ok {pq} (w : Who) (v : Input) (s : State) (hyp : Sound pq s) : Sound pq (pushInput w v s) := by
  unfold pushInput
  simp +contextual (maxDischargeDepth := 200) only [forAll_ok, implies_true, updEng_ok, hyp]

theorem logInput_ok {pq} (w : Who) (v : Input) (s : State) (hyp : Sound pq s) : Sound pq (logInput w v s) := by
  unfold logInput
  (repeat' split) <;> simp only [updBind_ok, hyp]

theorem takeInput_ok {pq} (w : Who) {world : State → State × Input} {s : State}
    (hf : ∀ s, Sound pq s → Sound pq (world s).1) (hyp : Sound pq s) :
    ∀ t v, takeInput w world s = some (t, v) → Sound pq t := by
  intro t v e
  unfold takeInput at e
  split at e
  · have h := hf s hyp
    cases e' : world s with
    | mk a b => rw [e'] at e h; cases e; exact h
  · split at e
    · have h := updEng_ok w.e (fun y => { y with fifo := ‹List Input› }) s hyp
      dsimp only at e
      split at e
      · cases e; exact h
      · split at e
        · cases e; exact pushInput_ok _ _ _ h
        · cases e
    · split at e
      · have h := hf s hyp
        cases e' : world s with
        | mk a b => rw [e'] at e h; cases e; exact pushInput_ok _ _ _ (logInput_ok _ _ _ h)
      · cases e

theorem refusedAccess_ok {pq} (w : Who) (priv : Nat) (write : Bool) (n : Nat) (x : Exc) (s : State)
    (hyp : Sound pq s) :
    Sound pq (refusedAccess w priv write n x s) := by
  unfold refusedAccess
  simp only [accessError_ok, hyp]

theorem engineRead_ok {pq} (w : Who) (x : Arch) (a n : Nat) (u : Upset) (s : State) (hyp : Sound pq s) :
    Sound pq (engineRead w x a n u s).1 := by
  unfold engineRead
  with_reducible
    repeat'
      first
      | assumption | dsimp only | apply spineRead_ok | split

theorem readParts_ok {pq} (w : Who) (x : Arch) (n : Nat) (ps : List Part) (u : Upset) (s : State) (hyp : Sound pq s) :
    Sound pq (readParts w x n ps u s).1 := by
  induction ps generalizing u s with
  | nil => exact hyp
  | cons p ps ih =>
    unfold readParts
    have h := engineRead_ok w x (spineAddr w.home p.addr) p.size u s hyp
    split
    · exact ok_pair ‹_› h
    · have h2 := ih .none _ (ok_pair ‹_› h)
      split
      · exact ok_pair ‹_› h2
      · exact h2

theorem loadInput_ok {pq} (w : Who) (x : Arch) (a n : Nat) (u : Upset) (s : State) (hyp : Sound pq s) :
    Sound pq (loadInput w x a n u s).1 := by
  unfold loadInput
  split
  · exact refusedAccess_ok _ _ _ _ _ _ hyp
  · exact readParts_ok _ _ _ _ _ _ hyp

theorem engineLoad_ok {pq} (w : Who) (x : Arch) (a n : Nat) (u : Upset) (s : State) (hyp : Sound pq s) :
    ∀ t v, engineLoad w x a n u s = some (t, v) → Sound pq t := by
  intro t v e
  have h := takeInput_ok w (world := loadInput w x a n u) (fun s hs => loadInput_ok w x a n u s hs) hyp
  unfold engineLoad at e
  split at e
  · cases e; exact hyp
  · split at e
    · cases e
    · split at e
      · cases e; exact h _ _ ‹_›
      · cases e; exact h _ _ ‹_›
      · cases e

theorem performOp_ok {pq} (home : Nat) (o : MemOp) (u : Upset) (s : State)
    (hyp : Sound pq s) : Sound pq (performOp home o u s).1 := by
  unfold performOp
  with_reducible
    repeat'
      first
      | assumption | apply storeWord_ok | apply spineWrite_ok | refine ok_pair ‹_ = (_, _)› ?_ | split

theorem performOps_ok {pq} (home : Nat) (u : Upset) (os : List MemOp) (s : State) (hyp : Sound pq s) :
    Sound pq (performOps home u os s).1 := by
  induction os generalizing u s with
  | nil => exact hyp
  | cons o os ih =>
    unfold performOps
    have h := performOp_ok home o u s hyp
    split
    · exact ih _ _ (ok_pair ‹_› h)
    · exact ok_pair ‹_› h

end Sys2Proof.Machine
end

