-- ==== Sys2Proof/Laws/KeepEntry.lean ====
section
/-! SUPPORT. The operations of Machine/Entry.lean keep what Kept names: the canonical memory, the sides apart, the
fuses blown, and the queue. -/

namespace Sys2Proof.Machine

theorem descInput_ok {pq} (w : Who) (x : Arch) (n : Nat) (s : State) (hyp : Sound pq s) :
    Sound pq (descInput w x n s).1 := by
  unfold descInput
  simp only [touchWord_ok, hyp]

theorem readDesc_ok {pq} (w : Who) (x : Arch) (n : Nat) (s : State) (hyp : Sound pq s) :
    ∀ t v, readDesc w x n s = some (t, v) → Sound pq t := by
  intro t v e
  have h := takeInput_ok w (world := descInput w x n) (fun s hs => descInput_ok w x n s hs) hyp
  unfold readDesc at e
  split at e
  · cases e
  · split at e
    · cases e; exact h _ _ ‹_›
    · cases e

theorem doubleFault_ok {pq} (w : Who) (x : Arch) (c : Exc) (pc kind : Nat) (s : State) (hyp : Sound pq s) :
    ∀ t y, doubleFault w x c pc kind s = some (t, y) → Sound pq t := by
  intro t y e
  unfold doubleFault at e
  split at e
  · exact sound_of_some e hyp
  · have h := readDesc_ok w x 0 s hyp
    split at e
    · cases e
    · exact sound_of_some e (h _ _ ‹_›)
    · have h2 := h _ _ ‹_›
      dsimp only at e
      repeat' split at e
      all_goals first | exact sound_of_some e h2 | cases e

theorem enterException_ok {pq} (w : Who) (x : Arch) (c : Exc) (pc kind : Nat) (s : State) (hyp : Sound pq s) :
    ∀ t y, enterException w x c pc kind s = some (t, y) → Sound pq t := by
  intro t y e
  unfold enterException at e
  split at e
  · exact doubleFault_ok _ _ _ _ _ _ hyp _ _ e
  · have h := readDesc_ok w x c.num s hyp
    split at e
    · cases e
    · exact doubleFault_ok _ _ _ _ _ _ (h _ _ ‹_›) _ _ e
    · have h2 := h _ _ ‹_›
      split at e
      · exact doubleFault_ok _ _ _ _ _ _ h2 _ _ e
      · split at e
        · exact sound_of_some e h2
        · extract_lets f at e
          split at e
          · cases e
          · split at e
            · obtain ⟨r, hr, e'⟩ := Option.map_eq_some_iff.mp e
              cases e'
              exact doubleFault_ok _ _ _ _ _ _ h2 _ _ hr
            · exact sound_of_some e h2

theorem frameInput_ok {pq} (w : Who) (x : Arch) (f : Nat) (is : List Nat) (s : State) (hyp : Sound pq s) :
    Sound pq (frameInput w x f is s).1 := by
  induction is generalizing s with
  | nil => exact hyp
  | cons i is ih =>
    unfold frameInput
    have h := engineRead_ok w x (spineAddr w.home (offset f (8 * i))) 8 .none s hyp
    dsimp only
    split
    · exact ok_pair ‹_› h
    · have h2 := ih _ (ok_pair ‹_› h)
      split
      · exact ok_pair ‹_› h2
      · exact h2

theorem returnFrom_ok {pq} (w : Who) (x : Arch) (s : State) (hyp : Sound pq s) :
    ∀ t v, returnFrom w x s = some (t, v) → Sound pq t := by
  intro t v e
  have h := takeInput_ok w (world := frameInput w x (x.efp / 8 * 8) (List.range 5))
    (fun s hs => frameInput_ok w x _ _ s hs) hyp
  unfold returnFrom at e
  split at e
  · cases e; exact hyp
  · split at e
    · cases e; exact hyp
    · dsimp only at e
      split at e
      · cases e; exact hyp
      · split at e
        · cases e
        · split at e
          · cases e; exact h _ _ ‹_›
          · have h2 := h _ _ ‹_›
            split at e
            · cases e; exact h2
            · cases e; exact h2
          · cases e

end Sys2Proof.Machine
end

