-- ==== Sys2Proof/Laws/KeepExec.lean ====
section
/-! SUPPORT. The operations of Machine/Exec.lean keep what Kept names: the canonical memory, the sides apart, the
fuses blown, and the queue. -/

namespace Sys2Proof.Machine

theorem done_ok {pq} {s : State} {y : Eff} (hyp : Sound pq s) : ∀ t z, done s y = some (t, z) → Sound pq t := by
  intro t z e; cases e; exact hyp

theorem raises_ok {pq} {s : State} {y : Eff} {c : Exc} (hyp : Sound pq s) :
    ∀ t z, raises s y c = some (t, z) → Sound pq t := by
  intro t z e; cases e; exact hyp

theorem loadOp_ok {pq} (w : Who) (x : Arch) (d : Width) (g a : Nat) (ofs post : Int) (u : Upset) (s : State) (y : Eff)
    (hyp : Sound pq s) : ∀ t z, loadOp w x d g a ofs post u s y = some (t, z) → Sound pq t := by
  intro t z e
  unfold loadOp at e
  have h := engineLoad_ok w x (memAddr x a ofs) d.bytes u s hyp
  dsimp only at e
  split at e
  · cases e
  · exact raises_ok (h _ _ ‹_›) _ _ e
  · split at e
    · exact done_ok (h _ _ ‹_›) _ _ e
    · exact done_ok (h _ _ ‹_›) _ _ e

theorem storeOp_ok {pq} (w : Who) (x : Arch) (d : Width) (g a : Nat) (ofs post : Int) (u : Upset) (s : State)
    (y : Eff) (hyp : Sound pq s) : ∀ t z, storeOp w x d g a ofs post u s y = some (t, z) → Sound pq t := by
  intro t z e
  unfold storeOp at e
  dsimp only at e
  split at e
  · exact raises_ok hyp _ _ e
  · split at e
    · cases e
    · split at e
      · exact raises_ok hyp _ _ e
      · exact done_ok hyp _ _ e

theorem callWindow_ok {pq} (x : Arch) (ofs : Int) (s : State) (y : Eff) (hyp : Sound pq s) :
    ∀ t z, callWindow x ofs s y = some (t, z) → Sound pq t := by
  intro t z e
  unfold callWindow at e
  (repeat' split at e) <;> first | exact raises_ok hyp _ _ e | exact done_ok hyp _ _ e

theorem returnWindow_ok {pq} (x : Arch) (s : State) (y : Eff) (hyp : Sound pq s) :
    ∀ t z, returnWindow x s y = some (t, z) → Sound pq t := by
  intro t z e
  unfold returnWindow at e
  (repeat' split at e) <;> first | exact raises_ok hyp _ _ e | exact done_ok hyp _ _ e

theorem moveFromSpecial_ok {pq} (w : Who) (x : Arch) (d n : Nat) (s : State) (y : Eff) (hyp : Sound pq s) :
    ∀ t z, moveFromSpecial w x d n s y = some (t, z) → Sound pq t := by
  intro t z e
  unfold moveFromSpecial at e
  split at e
  · exact raises_ok hyp _ _ e
  · split at e
    · exact raises_ok hyp _ _ e
    · split at e
      · extract_lets word at e
        split at e
        · exact done_ok (takeInput_ok w (world := fun s => (s, .data (word s))) (fun s hs => hs) hyp _ _ ‹_›) _ _ e
        · cases e
      · exact done_ok hyp _ _ e

theorem moveToSpecial_ok {pq} (x : Arch) (n a : Nat) (s : State) (y : Eff) (hyp : Sound pq s) :
    ∀ t z, moveToSpecial x n a s y = some (t, z) → Sound pq t := by
  intro t z e
  unfold moveToSpecial at e
  (repeat' split at e) <;> first | exact raises_ok hyp _ _ e | exact done_ok hyp _ _ e

theorem saveGroups_ok {pq} (w : Who) (x0 : Arch) (a : Nat) (gs : List Nat) (s : State) (y : Eff) (hyp : Sound pq s) :
    ∀ t z, saveGroups w x0 a gs s y = some (t, z) → Sound pq t := by
  induction gs generalizing y with
  | nil => exact done_ok hyp
  | cons g gs ih =>
    intro t z e
    unfold saveGroups at e
    dsimp only at e
    split at e
    · exact raises_ok hyp _ _ e
    · exact raises_ok hyp _ _ e
    · exact ih _ _ _ e

theorem saveContext_ok {pq} (w : Who) (x : Arch) (a : Nat) (s : State) (y : Eff) (hyp : Sound pq s) :
    ∀ t z, saveContext w x a s y = some (t, z) → Sound pq t := by
  intro t z e
  unfold saveContext at e
  split at e
  · exact raises_ok hyp _ _ e
  · split at e
    · cases e
    · exact saveGroups_ok _ _ _ _ _ _ hyp _ _ e

theorem areaInput_ok {pq} (w : Who) (x : Arch) (a : Nat) (os : List Nat) (s : State) (hyp : Sound pq s) :
    Sound pq (areaInput w x a os s).1 := by
  induction os generalizing s with
  | nil => exact hyp
  | cons o os ih =>
    unfold areaInput
    have h := engineRead_ok w x (spineAddr w.home (offset a o)) 8 .none s hyp
    dsimp only
    split
    · exact ok_pair ‹_› h
    · exact ih _ (ok_pair ‹_› h)

theorem areaWorld_ok {pq} (w : Who) (x : Arch) (a : Nat) (os : List Nat) (s : State) (hyp : Sound pq s) :
    Sound pq (areaWorld w x a os s).1 := by
  unfold areaWorld
  have h := areaInput_ok w x a os s hyp
  split
  · exact ok_pair ‹_› h
  · exact ok_pair ‹_› h

theorem loadContext_ok {pq} (w : Who) (x : Arch) (a : Nat) (s : State) (y : Eff) (hyp : Sound pq s) :
    ∀ t z, loadContext w x a s y = some (t, z) → Sound pq t := by
  intro t z e
  unfold loadContext at e
  split at e
  · exact raises_ok hyp _ _ e
  · extract_lets gs os at e
    have h := takeInput_ok w (world := areaWorld w x a os) (fun s hs => areaWorld_ok w x a os s hs) hyp
    split at e
    · exact done_ok hyp _ _ e
    · split at e
      · cases e
      · split at e
        · exact done_ok (h _ _ ‹_›) _ _ e
        · exact raises_ok (h _ _ ‹_›) _ _ e
        · cases e

theorem returnOp_ok {pq} (w : Who) (x : Arch) (s : State) (y : Eff) (hyp : Sound pq s) :
    ∀ t z, returnOp w x s y = some (t, z) → Sound pq t := by
  intro t z e
  unfold returnOp at e
  have h := returnFrom_ok w x s hyp
  split at e
  · cases e
  · exact raises_ok (h _ _ ‹_›) _ _ e
  · exact done_ok (h _ _ ‹_›) _ _ e

theorem sysOp_ok {pq} (w : Who) (x : Arch) (o : Op) (s : State) (y : Eff) (hyp : Sound pq s) :
    ∀ t z, sysOp w x o s y = some (t, z) → Sound pq t := by
  intro t z e
  unfold sysOp at e
  split at e
  · exact done_ok hyp _ _ e
  · exact done_ok hyp _ _ e
  · exact done_ok hyp _ _ e
  · exact raises_ok hyp _ _ e
  · exact returnOp_ok _ _ _ _ hyp _ _ e
  · exact done_ok hyp _ _ e
  · exact saveContext_ok _ _ _ _ _ hyp _ _ e
  · exact loadContext_ok _ _ _ _ _ hyp _ _ e
  · exact done_ok hyp _ _ e

theorem runOp_ok {pq} (w : Who) (x : Arch) (u : Upset) (o : Op) (s : State) (y : Eff) (hyp : Sound pq s) :
    ∀ t z, runOp w x u o s y = some (t, z) → Sound pq t := by
  intro t z e
  unfold runOp at e
  split at e <;> first
    | exact done_ok hyp _ _ e
    | exact loadOp_ok _ _ _ _ _ _ _ _ _ _ hyp _ _ e
    | exact storeOp_ok _ _ _ _ _ _ _ _ _ _ hyp _ _ e
    | exact callWindow_ok _ _ _ _ hyp _ _ e
    | exact returnWindow_ok _ _ _ hyp _ _ e
    | exact moveFromSpecial_ok _ _ _ _ _ _ hyp _ _ e
    | exact moveToSpecial_ok _ _ _ _ _ hyp _ _ e
    | skip
  split at e
  · exact raises_ok hyp _ _ e
  · split at e
    · exact raises_ok hyp _ _ e
    · exact sysOp_ok _ _ _ _ _ hyp _ _ e

theorem runOps_ok {pq} (w : Who) (x : Arch) (u : Upset) (os : List Op) (s : State) (y : Eff) (hyp : Sound pq s) :
    ∀ t z, runOps w x u os s y = some (t, z) → Sound pq t := by
  induction os generalizing s y with
  | nil => exact done_ok hyp
  | cons o os ih =>
    intro t z e
    unfold runOps at e
    have h := runOp_ok w x u o s y hyp
    split at e
    · exact ih _ _ (h _ _ ‹_›) _ _ e
    · exact h _ _ e

theorem bundleEffect_ok {pq} (w : Who) (x : Arch) (u : Upset) (xs : List Op) (s : State) (hyp : Sound pq s) :
    ∀ t z, bundleEffect w x u xs s = some (t, z) → Sound pq t := by
  intro t z e
  unfold bundleEffect at e
  have h := runOps_ok w x u xs s (Eff.at { x with pc := x.pc + 4 }) hyp
  split at e
  · exact sound_of_some e (h _ _ ‹_›)
  · split at e
    · exact sound_of_some e (h _ _ ‹_›)
    · exact sound_of_some e (h _ _ ‹_›)
  · cases e

end Sys2Proof.Machine
end

