-- ==== Sys2Proof/Laws/KeepEngineRows.lean ====
section
/-! SUPPORT. The operations of Machine/EngineRows.lean keep what Kept names: the canonical memory, the sides apart,
the fuses blown, and the queue. -/

namespace Sys2Proof.Machine

theorem fetchTouch_ok {pq} (w : Who) (x : Arch) (s : State) (hyp : Sound pq s) : Sound pq (fetchTouch w x s) := by
  unfold fetchTouch
  simp only [ok_ite, touchWord_ok, hyp]

theorem showArch_ok {pq} (e : Nat) (x : Arch) (s : State) (hyp : Sound pq s) : Sound pq (showArch e x s) := by
  unfold showArch
  simp (maxDischargeDepth := 200) only [setFlag_ok, setFld_ok, hyp]

theorem showCause_ok {pq} (e n : Nat) (s : State) (hyp : Sound pq s) : Sound pq (showCause e n s) := by
  unfold showCause
  simp only [ok_ite, setFld_ok, hyp]

theorem enterLockout_ok {pq} (e n pc : Nat) (s : State) (hyp : Sound pq s) : Sound pq (enterLockout e n pc s) := by
  unfold enterLockout
  simp (maxDischargeDepth := 200) only [stopEngine_ok, showCause_ok, report_ok, hyp]

theorem makeStop_ok {pq} (e stop cause pc : Nat) (s : State) (hyp : Sound pq s) :
    Sound pq (makeStop e stop cause pc s) := by
  unfold makeStop
  (repeat' split) <;> simp only [setEngState_ok, stopEngine_ok, enterLockout_ok, hyp]

theorem takeEff_ok {pq} (e : Nat) (y : Eff) (s : State) (hyp : Sound pq s) : Sound pq (takeEff e y s) := by
  unfold takeEff
  simp only [updEng_ok, hyp]

theorem reportRefused_ok {pq} (home : Nat) (ps : List (Nat × Nat)) (s : State)
    (hyp : Sound pq s) : Sound pq (reportRefused home ps s) := by
  unfold reportRefused
  simp +contextual (maxDischargeDepth := 200) only [forAll_ok, implies_true, accessError_ok, hyp]

theorem retireSingle_ok {pq} (w : Who) (pc exc : Nat) (y : Eff) (s : State) (hyp : Sound pq s) :
    Sound pq (retireSingle w pc exc y s).1 := by
  unfold retireSingle
  have h := performOps_ok w.home y.upset y.ops _ (takeEff_ok w.e y _ (reportRefused_ok w.home y.refused _ hyp))
  split
  · exact ok_pair ‹_› h
  · have h2 := updEng_ok w.e (fun z => { z with stores := z.stores + acked w.home y.ops }) _ (ok_pair ‹_› h)
    exact showEngine_ok _ _ (makeStop_ok _ _ _ _ _ (showCause_ok _ _ _ (ok_ite (showEpc_ok _ _ _ h2) h2)))

theorem retireMember_ok {pq} (w : Who) (pc exc irq : Nat) (y : Eff) (s0 s : State) (h0 : Sound pq s0)
    (hyp : Sound pq s) : Sound pq (retireMember w pc exc irq y s0 s) := by
  unfold retireMember
  exact ok_ite (updEng_ok _ _ _ h0) (updEng_ok _ _ _ hyp)

theorem retire_ok {pq} (w : Who) (pc exc irq : Nat) (y : Eff) (s0 s : State) (h0 : Sound pq s0) (hyp : Sound pq s) :
    Sound pq (retire w pc exc irq y s0 s) := by
  unfold retire
  exact ok_ite (retireSingle_ok _ _ _ _ _ hyp) (retireMember_ok _ _ _ _ _ _ _ h0 hyp)

theorem takeException_ok {pq} (w : Who) (c : Exc) (pc : Nat) (y : Eff) (s0 s : State) (h0 : Sound pq s0)
    (hyp : Sound pq s) : ∀ t, takeException w c pc y s0 s = some t → Sound pq t := by
  intro t e
  unfold takeException at e
  split at e
  · cases e
  · have h := enterException_ok w y.x c (if c.next then pc + 4 else pc) 0 s hyp
    split at e
    · cases e; exact retire_ok _ _ _ _ _ _ _ h0 (h _ _ ‹_›)
    · cases e

theorem finishSingle_ok {pq} (w : Who) (x : Arch) (xs : List Op) (y : Eff) (s : State) (hyp : Sound pq s) :
    ∀ t, finishSingle w x xs y s = some t → Sound pq t := by
  intro t e
  unfold finishSingle at e
  have h := retireSingle_ok w x.pc 0 y s hyp
  split at e
  · cases e; exact ok_pair ‹_› h
  · have h2 := updEng_ok w.e (fun _ => engOf s w.e) _ (ok_pair ‹_› h)
    exact takeException_ok _ _ _ _ _ _ h2 h2 _ e

theorem runBundle_ok {pq} (w : Who) (u : Upset) (xs : List Op) (s0 s : State) (h0 : Sound pq s0) (hyp : Sound pq s) :
    ∀ t, runBundle w u xs s0 s = some t → Sound pq t := by
  intro t e
  unfold runBundle at e
  dsimp only at e
  split at e
  · cases e
  · have h := bundleEffect_ok w (engOf s0 w.e).arch u xs s hyp
    split at e
    · cases e
    · exact takeException_ok _ _ _ _ _ _ h0 (h _ _ ‹_›) _ e
    · split at e
      · exact finishSingle_ok _ _ _ _ _ (h _ _ ‹_›) _ e
      · cases e; exact retireMember_ok _ _ _ _ _ _ _ h0 (h _ _ ‹_›)

theorem standStill_ok {pq} (w : Who) (xs : List Op) (s : State) (hyp : Sound pq s) :
    Sound pq (standStill w xs s) := by
  unfold standStill
  simp only [ok_ite, updEng_ok, hyp]

theorem nextBundle_ok {pq} (r : Row) (w : Who) (x : Arch) (u : Upset) (s : State) (hyp : Sound pq s) :
    Sound pq (nextBundle r w x u s) := by
  unfold nextBundle
  have hf := fetchTouch_ok w x s hyp
  split
  · exact hyp
  · exact getD_ok (takeException_ok _ _ _ _ _ _ hyp hf) (standStill_ok _ _ _ hyp)
  · exact ok_ite (getD_ok (runBundle_ok _ _ _ _ _ hyp hf) (standStill_ok _ _ _ hyp)) hyp

theorem excInput_ok {pq} (w : Who) (s : State) (hyp : Sound pq s) :
    ∀ t c, excInput w s = some (t, c) → Sound pq t := by
  intro t c e
  unfold excInput at e
  dsimp only at e
  split at e
  · rename_i h
    cases e
    exact takeInput_ok w (fun s hs => updEng_ok w.e (fun z => { z with due := none }) s hs) hyp _ _ h
  · cases e

theorem takeDue_ok {pq} (w : Who) (c : Exc) (x : Arch) (s0 s : State) (h0 : Sound pq s0) (hyp : Sound pq s) :
    ∀ t, takeDue w c x s0 s = some t → Sound pq t := by
  intro t e
  unfold takeDue at e
  have h := enterException_ok w x c x.pc (if x.rkind = 2 then 2 else 0) s hyp
  split at e
  · cases e
  · split at e
    · cases e; exact retire_ok _ _ _ _ _ _ _ h0 (h _ _ ‹_›)
    · cases e

theorem engineStep_ok {pq} (r : Row) (e : Nat) (u : Upset) (s : State) (hyp : Sound pq s) :
    Sound pq (engineStep r e u s) := by
  unfold engineStep
  dsimp only
  split
  · exact hyp
  · split
    · split
      · have h := excInput_ok _ _ hyp _ _ ‹_›
        exact getD_ok (takeDue_ok _ _ _ _ _ hyp h) (standStill_ok _ _ _ hyp)
      · exact hyp
    · exact nextBundle_ok _ _ _ _ _ hyp

theorem landResult_ok {pq} (e p v : Nat) (sat : Bool) (s : State) (hyp : Sound pq s) :
    Sound pq (landResult e p v sat s) := by
  unfold landResult
  simp only [updEng_ok, hyp]

theorem longComplete_ok {pq} (e : Nat) (s : State) (hyp : Sound pq s) : Sound pq (longComplete e s) := by
  unfold longComplete
  (repeat' split) <;> simp only [updEng_ok, landResult_ok, hyp]

theorem loadReturn_ok {pq} (e : Nat) (s : State) (hyp : Sound pq s) : Sound pq (loadReturn e s) := by
  unfold loadReturn
  (repeat' split) <;> simp only [updEng_ok, landResult_ok, hyp]

theorem storeDone_ok {pq} (e : Nat) (s : State) (hyp : Sound pq s) : Sound pq (storeDone e s) := by
  unfold storeDone
  simp only [updEng_ok, hyp]

theorem interruptInput_ok {pq} (w : Who) (x : Arch) (s : State) (hyp : Sound pq s) :
    ∀ t z, interruptInput w x s = some (t, z) → Sound pq t := by
  intro t z e
  unfold interruptInput at e
  dsimp only at e
  split at e
  · split at e
    · have h := takeInput_ok w (world := fun s => (s, .data 0)) (fun s hs => hs) hyp
      split at e
      · exact sound_of_some e (h _ _ ‹_›)
      · cases e
    · cases e
  · cases e
  · split at e
    · cases e
    · split at e
      · cases e
      · rename_i m _
        have h := takeInput_ok w (world := fun s' => (s', .irq m (engOf s w.e).cnt)) (fun s hs => hs) hyp
        split at e
        · exact sound_of_some e (h _ _ ‹_›)
        · cases e

theorem takeInterrupt_ok {pq} (w : Who) (s0 : State) (hyp : Sound pq s0) :
    ∀ t, takeInterrupt w s0 = some t → Sound pq t := by
  intro t e
  unfold takeInterrupt at e
  dsimp only at e
  split at e
  · cases e
  · have h := interruptInput_ok w (engOf s0 w.e).arch s0 hyp
    split at e
    · cases e
    · rename_i s m world _
      have h2 := enterException_ok w (engOf s0 w.e).arch (Exc.plain (32 + m)) (engOf s0 w.e).arch.pc
        (engOf s0 w.e).arch.rkind s (h _ _ ‹_›)
      split at e
      · cases e
      · have h3 := h2 _ _ ‹_›
        cases e
        exact retire_ok _ _ _ _ _ _ _ hyp (ok_ite (clrWord_ok _ _ _ h3) h3)

theorem interruptTaken_ok {pq} (e : Nat) (s : State) (hyp : Sound pq s) : Sound pq (interruptTaken e s) := by
  unfold interruptTaken
  exact ok_ite (getD_ok (takeInterrupt_ok _ _ hyp) hyp) hyp

theorem wakeInput_ok {pq} (w : Who) (s : State) (hyp : Sound pq s) : ∀ t, wakeInput w s = some t → Sound pq t := by
  intro t e
  have h := takeInput_ok w (world := fun s' => (s', .wake (engOf s w.e).cnt)) (fun s hs => hs) hyp
  unfold wakeInput at e
  dsimp only at e
  split at e
  · split at e
    · obtain ⟨⟨a, b⟩, e1, rfl⟩ := Option.map_eq_some_iff.mp e; exact h _ _ e1
    · cases e
  · cases e
  · split at e
    · obtain ⟨⟨a, b⟩, e1, rfl⟩ := Option.map_eq_some_iff.mp e; exact h _ _ e1
    · cases e

theorem wakeEngine_ok {pq} (e : Nat) (s : State) (hyp : Sound pq s) : Sound pq (wakeEngine e s) := by
  unfold wakeEngine
  dsimp only
  split
  · split
    · have h := setEngState_ok e 0 _ (wakeInput_ok _ _ hyp _ ‹_›)
      exact ok_ite (getD_ok (takeInterrupt_ok _ _ h) h) h
    · exact hyp
  · exact hyp

end Sys2Proof.Machine
end

