-- ==== Sys2Proof/Laws/KeepCompare.lean ====
section
/-! SUPPORT. The operations of Machine/Compare.lean keep what Kept names: the canonical memory, the sides apart, the
fuses blown, and the queue. -/

namespace Sys2Proof.Machine

theorem commitOp_ok {pq} (q b home : Nat) (o : MemOp) (u : Upset) (s : State) (hyp : Sound pq s) :
    Sound pq (commitOp q b home o u s).1 := by
  unfold commitOp
  simp (maxDischargeDepth := 200) only [ok_ite, ok_ite1, incFld_ok, performOp_ok, updEng_ok, hyp]

theorem commitOps_ok {pq} (q b home : Nat) (os : List MemOp) (u : Upset) (s : State) (hyp : Sound pq s) :
    Sound pq (commitOps q b home os u s).1 := by
  induction os generalizing s u with
  | nil => exact hyp
  | cons o os ih =>
    unfold commitOps
    have h := commitOp_ok q b home o u s hyp
    split
    · exact ih _ _ (ok_pair ‹_› h)
    · exact ok_pair ‹_› h

theorem commitMember_ok {pq} (q : Nat) (r : Rec) (i : Nat) (s : State) (hyp : Sound pq s) :
    Sound pq (commitMember q r i s) := by
  unfold commitMember
  simp (maxDischargeDepth := 200) only [ok_ite, updEng_ok, showEpc_ok, showCause_ok, showArch_ok, hyp]

theorem settleRetry_ok {pq} (q b : Nat) (s : State) (hyp : Sound pq s) : Sound pq (settleRetry q b s) := by
  unfold settleRetry
  simp (maxDischargeDepth := 200) only [ok_ite, updBind_ok, setBindState_ok, incFld_ok, bindEvent_ok, hyp]

theorem abortRecord_ok {pq} (q b : Nat) (r : Rec) (o : MemOp) (s : State)
    (hyp : Sound pq s) : Sound pq (abortRecord q b r o s) := by
  unfold abortRecord
  simp +contextual (maxDischargeDepth := 200) only [forAll_ok, implies_true, updBind_ok, replayBinding_ok, updEng_ok,
    hyp]

theorem commitRecord_ok {pq} (q b : Nat) (ms : List Nat) (late : Bool) (r : Rec) (u : Upset) (s : State)
    (hyp : Sound pq s) : Sound pq (commitRecord q b ms late r u s) := by
  unfold commitRecord
  have h := commitOps_ok q b (eng q (fld s (Reg.BD_BSTAT q b) Fld.BD_BSTAT_HOME)) r.ops u s hyp
  dsimp only
  split
  · exact abortRecord_ok _ _ _ _ _ (ok_pair ‹_› h)
  · have h2 := ok_pair ‹_› h
    simp +contextual (maxDischargeDepth := 200) only [forAll_ok, implies_true, commitMember_ok, updBind_ok,
      reportRefused_ok, makeStop_ok, settleRetry_ok, h2]

theorem comparePair_ok {pq} (q b : Nat) (x y : Vote) (kind : Nat) (u : Upset) (s : State) (hyp : Sound pq s) :
    Sound pq (comparePair q b x y kind u s) := by
  unfold comparePair
  simp (maxDischargeDepth := 200) only [ok_ite, commitRecord_ok, bindEvent_ok, pairMismatch_ok, showLast_ok, hyp]

theorem compareThree_ok {pq} (q b : Nat) (x y z : Vote) (kind : Nat) (u : Upset) (s : State) (hyp : Sound pq s) :
    Sound pq (compareThree q b x y z kind u s) := by
  unfold compareThree
  (repeat' split) <;> simp (maxDischargeDepth := 200) only [ok_ite, commitRecord_ok, showLast_ok, lastingMismatch_ok,
    oddMember_ok, bindEvent_ok, pairMismatch_ok, hyp]

theorem compareTwo_ok {pq} (q b : Nat) (x y : Vote) (u : Upset) (s : State) (hyp : Sound pq s) :
    Sound pq (compareTwo q b x y u s) := by
  unfold compareTwo
  simp only [ok_ite, commitRecord_ok, hyp]

theorem compareLate_ok {pq} (q b : Nat) (z : Vote) (r : Rec) (kind : Nat) (s : State)
    (hyp : Sound pq s) : Sound pq (compareLate q b z r kind s) := by
  unfold compareLate
  simp (maxDischargeDepth := 200) only [ok_ite, commitMember_ok, updBind_ok, makeStop_ok, oddMember_ok, showLast_ok,
    hyp]

theorem compareRecords_ok {pq} (q b : Nat) (d : Nat → Bool) (kind : Nat) (u : Upset) (s : State) (hyp : Sound pq s) :
    Sound pq (compareRecords q b d kind u s) := by
  unfold compareRecords
  with_reducible (repeat' (first
    | assumption | dsimp only | apply commitRecord_ok | apply comparePair_ok | apply compareLate_ok
    | apply compareThree_ok | apply compareTwo_ok | split))

theorem splitAct_ok {pq} (q b : Nat) (s : State) (hyp : Sound pq s) : Sound pq (splitAct q b s) := by
  unfold splitAct
  with_reducible (repeat' (first
    | assumption | dsimp only | apply setMembers_ok | apply updEng_ok | apply setEngState_ok | apply showEngine_ok
    | apply updBind_ok | apply bindCmdEnd_ok | apply bindEvent_ok | apply settleBindings_ok | split))

theorem handoverAct_ok {pq} (q a t : Nat) (s : State) (hyp : Sound pq s) : Sound pq (handoverAct q a t s) := by
  unfold handoverAct
  simp (maxDischargeDepth := 200) only [setFlag_ok, updBind_ok, bindCmdEnd_ok, bindRelease_ok, bindEvent_ok, hyp]

theorem shedRelease_ok {pq} (q b : Nat) (s : State) (hyp : Sound pq s) : Sound pq (shedRelease q b s) := by
  unfold shedRelease
  simp (maxDischargeDepth := 200) only [haltMembers_ok, setMembers_ok, updBind_ok, bindEvent_ok, hyp]

theorem raiseBindev_ok {pq} (q b : Nat) (s : State) (hyp : Sound pq s) : Sound pq (raiseBindev q b s) := by
  unfold raiseBindev
  simp +contextual (maxDischargeDepth := 200) only [forAll_ok, ok_ite, implies_true, updBind_ok, updEng_ok,
      setEngState_ok, hyp]

theorem shedAct_ok {pq} (q b : Nat) (s : State) (hyp : Sound pq s) : Sound pq (shedAct q b s) := by
  unfold shedAct
  simp (maxDischargeDepth := 200) only [ok_ite, setBindState_ok, updBind_ok, shedRelease_ok, startCopy_ok, hyp]

theorem commandAct_ok {pq} (q b : Nat) (s : State) (hyp : Sound pq s) : Sound pq (commandAct q b s) := by
  unfold commandAct
  with_reducible
    repeat'
      first
      | assumption | dsimp only | apply splitAct_ok | apply handoverAct_ok | apply bindRelease_ok | split

theorem boundaryAct_ok {pq} (q b : Nat) (s : State) (hyp : Sound pq s) : Sound pq (boundaryAct q b s) := by
  unfold boundaryAct
  simp (maxDischargeDepth := 200) only [ok_ite, updBind_ok, commandAct_ok, shedAct_ok, raiseBindev_ok, hyp]

end Sys2Proof.Machine
end

