-- ==== Sys2Proof/Laws/KeepTransports.lean ====
section
/-! SUPPORT. The operations of Machine/Transports.lean keep what Kept names: the canonical memory, the sides apart,
the fuses blown, and the queue. -/

namespace Sys2Proof.Machine

theorem answer_ok {pq} (bs : List Nat) (s : State) (hyp : Sound pq s) : Sound pq (answer bs s) := by
  unfold answer
  simp only [updHost_ok, hyp]

theorem answerSmb_ok {pq} (code : Nat) (bs : List Nat) (s : State)
    (hyp : Sound pq s) : Sound pq (answerSmb code bs s) := by
  unfold answerSmb
  simp only [updHost_ok, hyp]

theorem nack_ok {pq} (s : State) (hyp : Sound pq s) : Sound pq (nack s) := by
  unfold nack
  simp only [updHost_ok, hyp]

theorem hostRegWrite_ok {pq} (via : Via) (a v : Nat) (s : State) (hyp : Sound pq s) :
    Sound pq (hostRegWrite via a v s) := by
  unfold hostRegWrite
  (repeat' split) <;> simp +contextual (maxDischargeDepth := 200) only [forAll_ok, implies_true, ringAll_ok,
    hrdyClear_ok, settleAlert_ok, plainWrite_ok, incFld_ok, hwAbort_ok, hyp]

theorem hostPut_ok {pq} (via : Via) (a : Nat) (bs : List Nat) (s : State) (hyp : Sound pq s) :
    Sound pq (hostPut via a bs s) := by
  unfold hostPut
  simp (maxDischargeDepth := 200) only [ok_ite, storeBytes_ok, raiseFlag_ok, hostRegWrite_ok, hyp]

theorem hostWrite_ok {pq} (via : Via) (a : Nat) (bs : List Nat) (s : State) (hyp : Sound pq s) :
    Sound pq (hostWrite via a bs s) := by
  unfold hostWrite
  simp +contextual (maxDischargeDepth := 200) only [forAll_ok, implies_true, hostPut_ok, hyp]

theorem ringRead_ok {pq} (n o : Nat) (s : State) (hyp : Sound pq s) : Sound pq (ringRead n o s).1 := by
  induction n generalizing o s with
  | zero => exact hyp
  | succ n ih =>
    unfold ringRead
    exact ih _ _ (ok_ite (updHost_ok _ _ hyp) hyp)

theorem hostGet_ok {pq} (via : Via) (a n : Nat) (s : State) (hyp : Sound pq s) : Sound pq (hostGet via a n s).1 := by
  unfold hostGet
  exact ok_ite1 (loadBytes_ok _ _ _ _ hyp) (ok_ite1 (ok_ite1 hyp (raiseFlag_ok _ _ _ hyp))
    (ok_ite1 (ringRead_ok _ _ _ hyp) hyp))

theorem hostRead_ok {pq} (via : Via) (a n : Nat) (s : State) (hyp : Sound pq s) :
    Sound pq (hostRead via a n s).1 := by
  unfold hostRead
  exact foldl_ok1 _ (fun x p hx => hostGet_ok via p.1 p.2 x.1 hx) hyp

theorem setHostAddr_ok {pq} (k a : Nat) (s : State) (hyp : Sound pq s) : Sound pq (setHostAddr k a s) := by
  unfold setHostAddr
  simp only [updHost_ok, hyp]

theorem privateWrite_ok {pq} (bs : List Nat) (s : State) (hyp : Sound pq s) : Sound pq (privateWrite bs s) := by
  unfold privateWrite
  simp (maxDischargeDepth := 200) only [ok_ite, answer_ok, hostWrite_ok, setHostAddr_ok, hyp]

theorem privateRead_ok {pq} (n : Nat) (s : State) (hyp : Sound pq s) : Sound pq (privateRead n s) := by
  unfold privateRead
  simp (maxDischargeDepth := 200) only [hostRead_ok, setHostAddr_ok, answer_ok, hyp]

theorem setDa_ok {pq} (da : Nat) (s : State) (hyp : Sound pq s) : Sound pq (setDa da s) := by
  unfold setDa
  simp only [answer_ok, setFld_ok, hyp]

theorem setEvents_ok {pq} (on : Bool) (bits : Nat) (s : State) (hyp : Sound pq s) :
    Sound pq (setEvents on bits s) := by
  unfold setEvents
  simp (maxDischargeDepth := 200) only [ok_ite, answer_ok, updHost_ok, hyp]

theorem mbxWrite_ok {pq} (bs : List Nat) (s : State) (hyp : Sound pq s) : Sound pq (mbxWrite bs s) := by
  unfold mbxWrite
  simp (maxDischargeDepth := 200) only [setHostAddr_ok, hostWrite_ok, answer_ok, hyp]

theorem mbxRead_ok {pq} (n : Nat) (s : State) (hyp : Sound pq s) : Sound pq (mbxRead n s) := by
  unfold mbxRead
  simp (maxDischargeDepth := 200) only [hostRead_ok, setHostAddr_ok, answerSmb_ok, hyp]

theorem mctpLyheuf_ok {pq} (v endpoint : Nat) (bs : List Nat) (s : State) (hyp : Sound pq s) :
    Sound pq (mctpLyheuf v endpoint bs s) := by
  unfold mctpLyheuf
  simp (maxDischargeDepth := 200) only [ok_ite, raiseFlag_ok, storeBytes_ok, loadBytes_ok, updSess_ok,
      takeRequest_ok, hyp]

end Sys2Proof.Machine
end

