-- ==== Sys2Proof/Laws/KeepPmbus.lean ====
section
/-! SUPPORT. The operations of Machine/Pmbus.lean keep what Kept names: the canonical memory, the sides apart, the
fuses blown, and the queue. -/

namespace Sys2Proof.Machine

theorem cmlFaultAt_ok {pq} (r b : Nat) (s : State) (hyp : Sound pq s) : Sound pq (cmlFaultAt r b s) := by
  unfold cmlFaultAt
  simp only [updHost_ok, hyp]

theorem cmlFault_ok {pq} (b : Nat) (s : State) (hyp : Sound pq s) : Sound pq (cmlFault b s) := by
  unfold cmlFault
  simp only [cmlFaultAt_ok, hyp]

theorem pmbRail_ok {pq} {f : Nat → State → State × Nat × Nat} (r : Nat) {s : State}
    (hf : ∀ r s, Sound pq s → Sound pq (f r s).1) (hyp : Sound pq s) : Sound pq (pmbRail f r s) := by
  unfold pmbRail
  have h := hf r s hyp
  split
  exact ok_ite (ok_pair ‹_› h) (cmlFaultAt_ok _ _ _ (ok_pair ‹_› h))

theorem voutWrite_ok {pq} (r target : Nat) (s : State) (hyp : Sound pq s) : Sound pq (voutWrite r target s) := by
  unfold voutWrite
  simp (maxDischargeDepth := 200) only [ok_ite, commitIfRuns_ok, setFld_ok, cmlFaultAt_ok, wr_ok, hyp]

theorem pmbPerform_ok {pq} (j : PmbJob) (s : State) (hyp : Sound pq s) : Sound pq (pmbPerform j s) := by
  unfold pmbPerform
  split
  · exact pmbRail_ok _ hostEnable_ok hyp
  · exact pmbRail_ok _ hostDisable_ok hyp
  · exact voutWrite_ok _ _ _ hyp
  · exact ok_ite (rtCommand_ok _ _ _ _ hyp) hyp

theorem pmbAsk_ok {pq} (j : PmbJob) (s : State) (hyp : Sound pq s) : Sound pq (pmbAsk j s) := by
  unfold pmbAsk
  simp only [ok_ite, pmbPerform_ok, updHost_ok, hyp]

theorem pmbTick_ok {pq} (s : State) (hyp : Sound pq s) : Sound pq (pmbTick s) := by
  unfold pmbTick
  (repeat' split) <;> simp only [pmbPerform_ok, updHost_ok, hyp]

theorem clearStatus_ok {pq} (s : State) (hyp : Sound pq s) : Sound pq (clearStatus s) := by
  unfold clearStatus
  simp only [updHost_ok, hyp]

end Sys2Proof.Machine
end

