-- ==== Sys2Proof/Laws/KeepIdle.lean ====
section
/-! SUPPORT. The operations of Machine/Idle.lean keep what Kept names: the canonical memory, the sides apart, the
fuses blown, and the queue. -/

namespace Sys2Proof.Machine

theorem unavailTick_ok {pq} (r : Nat) (s : State) (hyp : Sound pq s) : Sound pq (unavailTick r s) := by
  unfold unavailTick
  simp (maxDischargeDepth := 200) only [ok_ite, updFm_ok, incFld_ok, hyp]

theorem observeRail_ok {pq} (r : Nat) (s : State) (hyp : Sound pq s) : Sound pq (observeRail r s) := by
  unfold observeRail
  simp only [ok_ite, breach_ok, hyp]

theorem syncLate_ok {pq} (i : Nat) (s : State) (hyp : Sound pq s) : Sound pq (syncLate i s) := by
  unfold syncLate
  (repeat' split) <;> simp only [takeComing_ok, hyp]

theorem pulseLate_ok {pq} (r : Nat) (s : State) (hyp : Sound pq s) : Sound pq (pulseLate r s) := by
  unfold pulseLate
  simp only [ok_ite, endPulse_ok, hyp]

theorem endTick_ok {pq} (s : State) (hyp : Sound pq s) : Sound pq (endTick s) := by
  unfold endTick
  simp +contextual (maxDischargeDepth := 200) only [forAll_ok, ok_ite, implies_true, pulseLate_ok, dropLate_ok,
    syncLate_ok, endInvalid_ok, observeRail_ok, hyp]

theorem foremanTick_ok {pq} (s : State) (hyp : Sound pq s) : Sound pq (foremanTick s) := by
  unfold foremanTick
  simp (maxDischargeDepth := 200) only [ok_ite, pmbTick_ok, activationTick_ok, hyp]

theorem supplyTick_ok {pq} (s : State) (hyp : Sound pq s) : Sound pq (supplyTick s) := by
  unfold supplyTick
  simp only [ok_ite, supplySample_ok, hyp]

theorem idleTick_ok {pq} (s : State) (hyp : Sound pq s) : Sound pq (idleTick s) := by
  unfold idleTick
  with_reducible (repeat' (first
    | assumption | simp only [sound_mk, sound_c] | apply updTb_ok | apply unavailTick_ok | apply endTick_ok
    | apply foremanTick_ok | apply supplyTick_ok | apply ok_ite | refine forAll_ok _ (fun _ _ _ => ?_) ?_))

end Sys2Proof.Machine
end

