-- ==== Sys2Proof/Laws/Memory.lean ====
section
/-! SUPPORT. Every operation that changes memory keeps its canonical form, State.reset has it, and a read after a write
gives what was written (R297 to R299). -/

namespace Sys2Proof.Machine

/-! ## Memory.wf -/

/-- A canonical memory is sound in that respect, -/
theorem sound_of_wf {s : State} (h : Memory.wf s = true) : Sound ⟨true, false, s.otp, s.pending⟩ s :=
  ⟨fun _ => h, fun e => Bool.noConfusion e, Blown.refl _, rfl⟩

/-- and so are channels whose sides stand apart (R108), -/
theorem sound_of_apart {s : State} (h : ∀ n, Apart (chanOf s n)) : Sound ⟨false, true, s.otp, s.pending⟩ s :=
  ⟨fun e => Bool.noConfusion e, fun _ => h, Blown.refl _, rfl⟩

/-- and any fuses (R348). -/
theorem sound_of_fuses (s : State) : Sound ⟨false, false, s.otp, s.pending⟩ s :=
  ⟨fun e => Bool.noConfusion e, fun e => Bool.noConfusion e, Blown.refl _, rfl⟩

/-- A store of one word keeps the memory canonical. -/
theorem storeWord_wf {s : State} (m k a n v size : Nat) (u : Upset) (h : Memory.wf s = true) :
    Memory.wf (storeWord m k a n v size u s).1 = true :=
  (storeWord_ok m k a n v size u s (sound_of_wf h)).1 rfl

theorem setByte_wf {s : State} (a b : Nat) (h : Memory.wf s = true) : Memory.wf (setByte a b s) = true :=
  (setByte_ok a b s (sound_of_wf h)).1 rfl

theorem setValue_wf {s : State} (a n v : Nat) (h : Memory.wf s = true) : Memory.wf (setValue a n v s) = true :=
  (setValue_ok a n v s (sound_of_wf h)).1 rfl

theorem storeBytes_wf {s : State} (m a : Nat) (bytes : List Nat) (h : Memory.wf s = true) :
    Memory.wf (storeBytes m a bytes s) = true := (storeBytes_ok m a bytes s (sound_of_wf h)).1 rfl

theorem loadBytes_wf {s : State} (m a n : Nat) (h : Memory.wf s = true) :
    Memory.wf (loadBytes m a n s).1 = true := (loadBytes_ok m a n s (sound_of_wf h)).1 rfl

theorem discardBank_wf {s : State} (k : Nat) (h : Memory.wf s = true) : Memory.wf (discardBank k s) = true :=
  (discardBank_ok k s (sound_of_wf h)).1 rfl

theorem fillBuffer_wf {s : State} (k b : Nat) (h : Memory.wf s = true) : Memory.wf (fillBuffer k b s) = true :=
  (fillBuffer_ok k b s (sound_of_wf h)).1 rfl

theorem clearHistograms_wf {s : State} (h : Memory.wf s = true) : Memory.wf (clearHistograms s) = true :=
  (clearHistograms_ok s (sound_of_wf h)).1 rfl

theorem fillMemory_wf {s : State} (k a n : Nat) (bytes : List Nat) (h : Memory.wf s = true) :
    Memory.wf (fillMemory k a n bytes s) = true := (fillMemory_ok k a n bytes s (sound_of_wf h)).1 rfl

theorem restoreRecorder_wf {s : State} (h : Memory.wf s = true) : Memory.wf (restoreRecorder s) = true :=
  (restoreRecorder_ok s (sound_of_wf h)).1 rfl

theorem reset_wf : Memory.wf State.reset = true := rfl

/-! ## Reads after writes -/

/-- A byte read after a byte is written. -/
theorem memByte_setByte (a b c : Nat) (s : State) :
    memByte (setByte a b s) c = if c = a then b % 256 else memByte s c := by
  simp only [memByte, setByte, tget_tset]
  split <;> simp

/-- Bytes outside those a value covers are left alone. -/
theorem memByte_setValue_ne (a n v c : Nat) (s : State) (h : c < a ∨ a + n ≤ c) :
    memByte (setValue a n v s) c = memByte s c := by
  have key : ∀ (xs : List (Nat × Nat)) (s : State), (∀ x ∈ xs, a + x.1 ≠ c) →
      memByte (forAll xs (fun x s => setByte (a + x.1) x.2 s) s) c = memByte s c := by
    intro xs
    induction xs with
    | nil => intro s _; rfl
    | cons x xs ih =>
      intro s hx
      have e := ih (setByte (a + x.1) x.2 s) fun y hy => hx y (by simp [hy])
      simp only [forAll, List.foldl_cons] at e ⊢
      rw [e, memByte_setByte, if_neg fun q => hx x (by simp) q.symm]
  refine key _ s fun x hx => ?_
  have := List.mem_range.mp (List.of_mem_zip hx).1
  omega

end Sys2Proof.Machine
end

