-- ==== Sys2Proof/Tests/Slice0.lean ====
section
/-! SUPPORT. The author's own tests: an ill-formed command that its check refuses, single steps on small states, and for
each statement a state and operands that meet its hypotheses. -/

namespace Sys2Proof.Tests

open Sys2Proof Sys2Proof.Machine

set_option Elab.async false

/-! ## Small states -/

/-- The device out of reset in mode m, 4,096 ns after BOOT. -/
def up (m : Nat) : State :=
  enterMode m { State.reset with tb := { TimeBase.init with hold := .none, ns := 4096 } }

/-- The first Foreman core. -/
def f0 : Master := .foreman 0

/-- Engine 3 of quire 0 at a privilege level. -/
def e3 (p : Priv) : Master := .engine 3 p

/-! ## Rails and the loop -/

/-- Rail 0 with ports 0 and 1 in stage-link mode, an entry that passes the checks of R44, and a sensed output. -/
def rail0 (s : State) : State :=
  let e : RailEntry := {
    cfg := 0, m0 := 3, m1 := 0, m2 := 0, m3 := 0, vref := 0x00643A98, ll := 0x00020032,
    period := 0x4E200, ilim := 0x0BB8012C, phlim := 0x02BC0000, nph := 0x00010200, adapt := 0x12C0C840,
    pgood := 0x00280032 }
  s |> wr (Reg.RT_MEMB 0 0) e.m0 |> wr (Reg.RT_VREF 0) e.vref |> wr (Reg.RT_LL 0) e.ll
    |> wr (Reg.RT_PERIOD 0) e.period |> wr (Reg.RT_ILIM 0) e.ilim |> wr (Reg.RT_PHLIM 0) e.phlim
    |> wr (Reg.RT_NPH 0) e.nph |> wr (Reg.RT_ADAPT 0) e.adapt |> wr (Reg.RT_PGOOD 0) e.pgood
    |> wr (Reg.LU_IFS 0 0) 0x1000 |> setFld (Reg.PW_CFG 0 0) Fld.PW_CFG_MODE 1
      |> setFld (Reg.PW_CFG 0 1) Fld.PW_CFG_MODE 1
    |> setFlag (Reg.AD_SEQ 0 0 0) Fld.AD_SEQ_WIDE true
    |> setFld (Reg.PP_STAT 0 0) Fld.PP_STAT_STATE 2 |> setFld (Reg.PP_STAT 0 1) Fld.PP_STAT_STATE 2
    |> updRail 0 fun x => { x with entry := e }

/-- Rail 0 in state st (R47). -/
def railIn (st : Nat) : State := setFld (Reg.RT_STATE 0) Fld.RT_STATE_STATE st (rail0 (up 4))

/-- Rail 0 in ON with an accepted command. -/
def railWith (st cmd : Nat) : State :=
  setFlag Reg.RT_CMDSTAT Fld.RT_CMDSTAT_BUSY true (updRail 0 (fun x => { x with cmd := cmd, next := x.entry })
    (railIn st))

theorem witness_RailCommandsAccepted : alive (railIn 2) = true ∧ mayReach f0 Reg.RT_CMD true = true ∧
    rtCheck (railIn 2) 1 0 false = 0 ∧ rtCheck (railIn 0) 2 0 false = 0 ∧ rtCheck (railIn 2) 3 0 false = 0 ∧
    rtCheck (railIn 4) 4 0 false = 0 ∧ rtCheck (railIn 2) 5 0 false = 0 := by decide +kernel

theorem witness_RailCommandsRefused : alive (railIn 0) = true ∧ rtCheck (railIn 0) 1 0 false = 3 ∧
    rtCheck (railIn 2) 2 0 false = 3 ∧ rtCheck (railIn 4) 3 0 false = 3 ∧ rtCheck (railIn 2) 4 0 false = 3 ∧
    rtCheck (railWith 2 1) 5 0 false = 2 := by decide +kernel

theorem witness_RailEntriesApply : nextTick (railWith 2 1) 0 = some 4096 ∧ railState (railWith 2 1) 0 = 2 ∧
    (railOf (railWith 2 1) 0).cmd = 1 ∧ (railOf (railWith 0 2) 0).cmd = 2 ∧ (railOf (railWith 2 3) 0).cmd = 3 := by
  decide +kernel

/-- The supply monitor waits to disable rail 0. -/
def monitorWaits : State :=
  updSup (fun y => { y with run := { y.run with waiting := [(3, 0)] } }) (railIn 2)

theorem witness_RailEntriesApply_waiting : monitorWaits.sup.run.waiting = [(3, 0)] ∧
    flag monitorWaits Reg.RT_CMDSTAT Fld.RT_CMDSTAT_BUSY = false ∧
    fld (rtCommand 3 0 true (updSup (fun y => { y with run := { y.run with waiting := [] } }) monitorWaits))
      Reg.RT_CMDSTAT Fld.RT_CMDSTAT_RESULT = 0 := by decide +kernel

/-- Rail 0 in state st with members 0 and 1 active as listed, and its loop state changed by f. -/
def railActs (st : Nat) (a0 a1 : Bool) (f : Rail → Rail) : State :=
  updRail 0 f (setFlag (mbrStat 0 0) Fld.LU_MBR_STAT_ACTIVE a0 (setFlag (mbrStat 0 1) Fld.LU_MBR_STAT_ACTIVE a1 (railIn st)))

theorem witness_LoopEventsRun_tick : nextTick (up 4) 0 = some 4096 ∧ mode (up 4) = 4 ∧
    tickReady (up 4) 0 (indexAt (up 4) 0 4096) 4096 = true ∧
    nextTick (comparatorTicks 0 (now (up 4) + 1) (up 4)) 0 = some 4096 ∧
    tickNow { up 4 with tb := { (up 4).tb with ns := 4097, qtaken := [(0, 4097)] } } 0 = none := by decide +kernel

theorem witness_LoopEventsRun_pg : pgRiseDue (railActs 1 true true
    fun x => { x with pgFrom := 1, tickAt := 60001 }) 0 = true ∧
    pgFallDue (setFlag (Reg.RT_STATE 0) Fld.RT_STATE_PG true (railActs 2 true true
      fun x => { x with pgBad := 8 })) 0 = true ∧
    pgFallDue (setFlag (Reg.RT_STATE 0) Fld.RT_STATE_PG true (railActs 1 true true
      fun x => { x with pgBad := 8 })) 0 = true := by
  decide +kernel

theorem witness_LoopEventsRun_count : dropDue (railActs 2 true true fun x => { x with dwell := 64 }) 0 = true ∧
    rotationDue (railActs 2 true false fun x => { x with rotate := true }) 0 = true ∧
    greatestBy (scoreKey (railActs 2 true false id) 0) (activeMembers (railActs 2 true false id) 0) = some (0, 0) ∧
    wearDue (railActs 2 true true fun x => { x with wearTicks := [(1, 1024)] }) 0 1 = true := by decide +kernel

/-- Rail 0 with two presented indices that wait for a submission. -/
def eilWaits : State :=
  setFlag (Reg.LU_RSTAT 0 0) Fld.LU_RSTAT_EIL_ACT true (wr (Reg.LU_LMB_NEW 0 0) 8 (railActs 2 true true
    fun x => { x with
    missRun := 64, fell := true,
    wait := [{ k := 7, at_ := 3968, ic := 0, vout := 0, sub := none, due := 4090, missed := false, cfg := TickCfg.init },
      { k := 8, at_ := 3984, ic := 0, vout := 0, sub := none, due := 5000, missed := false, cfg := TickCfg.init }] }))

theorem witness_EngineInLoopEventsRun : mayReach (e3 .user) (Reg.LU_LMB_TAG 0 0) true = true ∧
    serialAfter 8 (rd eilWaits (Reg.LU_LMB_NEW 0 0)) = false ∧ serialAfter 9 (rd eilWaits (Reg.LU_LMB_NEW 0 0)) = true ∧
    ((railOf eilWaits 0).wait.map fun w => (w.k, w.sub)) = [(7, none), (8, none)] ∧
    ((railOf eilWaits 0).wait.map fun w => decide (eilWaits.tb.ns < w.due)) = [false, true] ∧
    ((railOf eilWaits 0).wait.find? fun w => w.k == 6).isNone = true ∧
    ((railOf (updRail 0 (fun x => { x with wait := x.wait.drop 1 }) eilWaits) 0).wait.map (·.k)) = [8] ∧
      deadlineMissed eilWaits 0 = true ∧ fallbackDue eilWaits 0 = true ∧
    flag eilWaits (Reg.LU_CSEL 0 0) Fld.LU_CSEL_PEND = false ∧
    flag (setFlag (Reg.LU_CSEL 0 0) Fld.LU_CSEL_PEND true eilWaits) (Reg.LU_CSEL 0 0) Fld.LU_CSEL_PEND = true :=
      by decide +kernel

/-! ## Bursts and hints -/

/-- Rail 0 in ON with bursts enabled and the loop state changed by f. -/
def bursts (f : Rail → Rail) : State := setFlag (Reg.LU_BURST 0 0) Fld.LU_BURST_EN true (railActs 2 true true f)

theorem witness_BurstCommandsRun : mayReach (e3 .user) (Reg.LU_BURST_SW 0 0) true = true ∧
    flag (bursts id) (Reg.LU_BURST 0 0) Fld.LU_BURST_EN = true ∧ regulating (bursts id) 0 = true ∧
    (railOf (bursts id) 0).holdEnd ≤ fine (bursts id) ∧ (railOf (bursts id) 0).fired = 0 ∧
    (bursts id).tb.ns + 1 ∉ (railOf (bursts id) 0).more ∧
    (railOf (bursts fun x => { x with fired := 4097 }) 0).fired = (bursts fun x => { x with fired := 4097 }).tb.ns + 1 ∧
    fine (bursts id) < (railOf (bursts fun x => { x with holdEnd := 2000000 }) 0).holdEnd ∧
    burstStartDue (bursts fun x => { x with fired := 4090 }) 0 = true ∧
    holdoffOver (setFlag (Reg.LU_BURST_STAT 0 0) Fld.LU_BURST_STAT_HELD true (bursts id)) 0 = true := by decide +kernel

/-- A hint of 600 A for rail 0 from partner 26 whose slot ended 96 ns ago. -/
def hint0 : HintWord := { rail := 0, partner := 26, dI := 1200, lead := 40, conf := 7, tEnd := 4000 }

/-- Rail 0 in ON with the mixer enabled, partner 26 in entry 0, and the hint on its way. -/
def mixer (h : HintWord) : State :=
  railActs 2 true true id |> setFlag (Reg.LU_IM_CTRL 0 0) Fld.LU_IM_CTRL_EN true |> wr (Reg.LU_IM_PART 0 0 0) 0x9A0020FF
    |> wr (Reg.LU_IM_TRUST 0 0 0) 0xF0 |> updVarip 3 fun x => { x with flight := [h] }

/-- The hints that a check of R83 turns away: late, with no free lane, and at a mixer that is off. -/
theorem witness_IntentMixerCommandsRun_refused :
    (let h := { hint0 with tEnd := 0 }; hintTick (mixer h) 0 h.tEnd ≤ now (mixer h) ∧
      partnerEntry (mixer h) 0 26 = some 0) ∧
    (let s := updRail 0 (fun x => { x with lanes := x.lanes.map fun y => { y with busy := true, partner := 25 } })
      (mixer hint0);
      laneFor (railOf s 0) 26 (indexAt s 0 (hintTick s 0 4000)) = none ∧ partnerEntry s 0 26 = some 0) ∧
    flag (up 4) (Reg.LU_IM_CTRL 0 0) Fld.LU_IM_CTRL_EN = false ∧
      shed (setFld Reg.SM_MODE Fld.SM_MODE_SHED 3 (mixer hint0)) = 3 ∧
    getBits 0x1A0020FF Fld.LU_IM_PART_VALID = 0 ∧
    getBits 0x1A0020FF Fld.LU_IM_PART_TMIN ≤ getBits 0x1A0020FF Fld.LU_IM_PART_TMAX := by decide +kernel

theorem witness_IntentMixerCommandsRun : (varipOf (mixer hint0) 3).flight = [hint0] ∧ shed (mixer hint0) = 0 ∧
    regulating (mixer hint0) 0 = true ∧ flag (mixer hint0) (Reg.LU_IM_CTRL 0 0) Fld.LU_IM_CTRL_EN = true ∧
    partnerEntry (mixer hint0) 0 26 = some 0 ∧ partnerEntry (mixer hint0) 0 27 = none ∧
    now (mixer hint0) < hintTick (mixer hint0) 0 4000 ∧
    laneFor (railOf (mixer hint0) 0) 26 (indexAt (mixer hint0) 0 (hintTick (mixer hint0) 0 4000)) = some 0 ∧
    mayReach (e3 .user) (Reg.LU_IM_PART 0 0 0) true = true ∧
    (railOf (railActs 2 true true fun x => { x with
      lanes := setNth x.lanes 2 { Lane.init with busy := true, ended := true } }) 0).lanes.any outcomeDue = true := by
  decide +kernel

/-- The worked example of chapter 3: S = trunc(1,200 x 200 x 240 x 8 / 2,048) = 225,000. -/
theorem test_weighted_step : weightedStep 1200 240 7 = 225000 ∧ weightedStep 1200 160 5 = 112500 := by decide

/-! ## PWM channels -/

/-- Channel 17 in stage-link mode with period, on-time and offset staged as masked. -/
def pwm (mask : Nat) : State :=
  up 4 |> setFld (Reg.PW_CFG 1 1) Fld.PW_CFG_MODE 1 |> wr (Reg.PW_PER_STG 1 1) 320000 |> wr (Reg.PW_ON_STG 1 1) 64000
    |> wr (Reg.PW_STGMASK 1 1) mask

/-- Engine 9, of quire 1. -/
def e9 : Master := .engine 9 .user

theorem witness_StagingWritesAndLoads : mayReach e9 (Reg.PW_PER_STG 1 1) true = true ∧
    mayReach e9 (Reg.PW_LOADALL 1) true = true ∧ owned (pwm 3) 17 = false ∧
    owned (setFlag (Reg.PW_CFG 1 1) Fld.PW_CFG_OWNED true (pwm 3)) 17 = true ∧ torn (pwm 3) 17 = false ∧
    torn (pwm 1) 17 = true ∧ flag (pwm 1) (Reg.PW_CTRL 1) Fld.PW_CTRL_STRICT = true ∧
    32000 ≤ perOf (stagedPer (pwm 3) 17) := by decide +kernel

/-- Channel 17 with its state changed by f. -/
def chan17 (f : Chan → Chan) : State := updChan 17 f (pwm 0)

theorem witness_ChannelEventsRun : mayReach e9 (Reg.PW_CFG 1 1) true = true ∧ mayReach e9 (Reg.PW_DTA 1 1) true = true ∧
    mayReach e9 (Reg.PW_TLREF_LO 1) true = true ∧
    firstDue (chan17 fun c => { c with first := 1048577, live := false }) 17 = true ∧
    reloadDue (chan17 fun c => { c with live := true, s := 700000, len := 320000 }) 17 = true ∧
    dueAt (chan17 id) (chanOf (chan17 fun c => { c with pendHs := 1048577 }) 17).pendHs = true ∧
    dueAt (chan17 id) (chanOf (chan17 fun c => { c with hs := true, endHs := 1048577 }) 17).endHs = true ∧
    getBits 0x02001000 Fld.PW_DTA_DTMAX < getBits 0x02001000 Fld.PW_DTA_DTMIN ∧
    calFrozen (pwm 0) 1 = false ∧ pwmMode (pwm 0) 17 = 1 := by decide +kernel

/-- Channel 17 with the OCP source enabled and asserting or not, its latch set or not. -/
def tripped (src latch : Bool) : State :=
  pwm 0 |> setFlag (Reg.PW_TRIP 1 1) Fld.PW_TRIP_OCPEN true |> setFlag (Reg.WC_OCPSTAT 1 1) Fld.WC_OCPSTAT_ASSERT src
    |> setFlag (Reg.PW_TSTAT 1 1) Fld.PW_TSTAT_LATCHED latch

theorem witness_TripCommandsRun : tripDue (tripped true false) 17 = true ∧ tripSources (tripped true true) 17 = 4096 ∧
    tripSources (tripped false true) 17 = 0 ∧ latched (tripped false true) 17 = true ∧
    latchOff (tripped false true) 17 = false ∧ mayReach e9 (Reg.PW_TCLR 1 1) true = true ∧
    quietDue (updChan 17 (fun c => { c with quiet := 1024 })
      (setFld (Reg.PW_TSTAT 1 1) Fld.PW_TSTAT_RCNT 2 (tripped false false))) 17
      = true := by decide +kernel

theorem witness_TripCommandsRun_latchedOff :
    (let s := updChan 17 (fun c => c) (setFlag (Reg.PW_TSTAT 1 1) Fld.PW_TSTAT_LOFF true (tripped true true));
      latchOff s 17 = true ∧ tripSources s 17 ≠ 0) ∧ latchOff (tripped true true) 17 = false := by decide +kernel

theorem witness_GuardKeepsTheSidesApart_step : Apart (chanOf (up 4) 17) ∧
    Apart { Chan.init with ls := true, pendLs := 0 } ∧
    Apart { Chan.init with pendHs := 5 } ∧ ¬Apart { Chan.init with hs := true, ls := true } := by
  unfold Apart; decide +kernel

theorem witness_GuardKeepsTheSidesApart :
    (decidePulses 2048 512 true 1000000 320000 20000 { Chan.init with ls := true, hsOff := 900000 }).pendHs = 1002049 := by
  decide

/-- The worked example of chapter 4: a member moves from offset 47,058 to 34,042 of 320,000, and its period is
1,199.15625 ns. -/
theorem test_lattice_move : latticeLen 0 34042 320000 (320000 * 5 + 47058) = 306984 := by decide

/-- The table of R110: DT 8 ns and MINPW 2 ns at ON = 10 ns give an HS pulse of 2 ns after the guard. -/
theorem test_guard_first_pulse : (decidePulses 2048 512 true 0 320000 2560 { Chan.init with ls := true }).pendHs = 2049 ∧
    (decidePulses 2048 512 true 0 320000 2560 { Chan.init with ls := true }).endHs = 2561 := by decide

/-! ## Sensing -/

/-- Quire 0 with staged tables of length 1: converter A samples input 0 in the wide range, B input 2. -/
def staged : State :=
  up 4 |> wr (Reg.AD_SEQ_STG 0 0 0) (putBits 0 Fld.AD_SEQ_WIDE 1)
    |> wr (Reg.AD_SEQ_STG 0 1 0) (putBits (putBits 0 Fld.AD_SEQ_INPUT 2) Fld.AD_SEQ_WIDE 1)
    |> setFld (Reg.AD_CTRL 0) Fld.AD_CTRL_VINC 1

theorem witness_SequenceCommandsRun : mayReach f0 (Reg.AD_SEQCMT 0) true = true ∧
    mayReach f0 (Reg.AD_FCFG 0 0 1) true = true ∧
    mayReach f0 (Reg.AD_HOLDS 0 0) true = true ∧ seqCheck staged 0 = 0 ∧
    seqCheck (setFlag (Reg.AD_SEQST 0) Fld.AD_SEQST_BUSY true staged) 0 = 1 ∧
    (senseOf (updSense 0 (fun x => { x with commitAt := 4097 }) staged) 0).commitAt ≤ now staged + 1 ∧
    badFcfg staged 0 0 1 (putBits 0 Fld.AD_FCFG_N 5) = true ∧ badFcfg staged 0 0 1 (putBits 0 Fld.AD_FCFG_N 2) = false ∧
    settleDue (updConv 0 (fun x => { x with units := tset (fun _ => Filter.init) x.units 1 { Filter.init with count := 1000 } })
      staged) 0 0 1 = true ∧ sampleDue staged 0 0 = true := by decide +kernel

theorem witness_SliceCommandsRun : mayReach f0 (Reg.AD_SRET 0 0) true = true ∧ adFrozen staged 0 0 = false ∧
    blockOver { staged with tb := { staged.tb with ns := 2097152 } } 0 0 = true ∧
    fld staged (Reg.AD_STAT 0 0) Fld.AD_STAT_RETIRED = 0 ∧
    [⟨0, 0, 0⟩, ⟨-16, 5, 1⟩, ⟨0, 0, 0⟩, ⟨0, 0, 0⟩].any (outOfLimits staged 0) = false ∧
    (convOf (updConv 0 (fun x => { x with estAt := 4097 }) staged) 0).estAt ≤ now staged + 1 ∧
    now staged % tickNs staged 0 = 0 ∧
    crossDue (updConv 0 (fun x => { x with chkCycle := 3 })
      (updConv 1 (fun x => { x with chkCycle := 3 }) staged)) 0 = true := by
  decide +kernel

/-- The example of R130: a slice 3.4 % high in gain, 2,228 units of 2^-16, lies outside a limit of 20 thousandths. -/
theorem test_slice_out_of_limits :
    outOfLimits (wr (Reg.AD_SLIM 0) (putBits 0 Fld.AD_SLIM_GAIN 20) (up 4)) 0 ⟨0, 2228, 0⟩ = true := by decide +kernel

/-- Comparator 0 of quire 0, absolute on input 0, enabled at instant 0 with thresholds 100 to 200. -/
def comp0 (raw : Bool) : State :=
  up 4 |> setFlag (Reg.WC_CFG 0 0) Fld.WC_CFG_EN true |> setFlag (Reg.WC_STAT 0 0) Fld.WC_STAT_LORAW raw
    |> wr (Reg.WC_THR 0 0) (putBits (putBits 0 Fld.WC_THR_LO 100) Fld.WC_THR_HI 200)
    |> plainThresholds 0 0 |> setFld (Reg.WC_PLAUS 0 0) Fld.WC_PLAUS_STK 1

theorem witness_ComparatorCommandsRun : mayReach f0 (Reg.WC_CFG 0 0) true = true ∧
    mayReach f0 (Reg.WC_CLR 0 0) true = true ∧
    mayReach f0 (Reg.WC_TBNDH 0 0) true = true ∧ mayReach f0 (Reg.WC_OCPSTAT 0 0) true = true ∧
    badWcCfg (putBits 0 Fld.WC_CFG_INPUT 6) = true ∧ badWcCfg 0 = false ∧ wcTick (comp0 false) 0 0 = true ∧
    sideRises (comp0 false) 0 0 false 0 = true ∧ sideFalls (comp0 true) 0 0 false (101 * 81920) = true ∧
    stuckDue (comp0 true) 0 0 false = true ∧
    (let s := setFlag (Reg.WC_STAT 0 0) Fld.WC_STAT_LOLAT true (setFlag (Reg.WC_CFG 0 0) Fld.WC_CFG_LOEN false (comp0 false));
      flag s (Reg.WC_STAT 0 0) Fld.WC_STAT_LOLAT = true ∧ lowerTrip s 0 0 = false ∧
      getBits (putBits (putBits 0 Fld.WC_CFG_EN 1) Fld.WC_CFG_LOEN 1) Fld.WC_CFG_LOEN = 1 ∧
      badWcCfg (putBits (putBits 0 Fld.WC_CFG_EN 1) Fld.WC_CFG_LOEN 1) = false) ∧
        implDue (updComp 0 (fun x => { x with impl := 9 }) (comp0 false)) 0 0 = true := by
  decide +kernel

theorem witness_TrackedThresholdsStayInBounds :
    let s := setFlag (Reg.WC_CFG 0 0) Fld.WC_CFG_MODE true (comp0 false)
    let u := setFlag (Reg.WC_TRK 0 0) Fld.WC_TRK_EN true (updComp 0 (fun x => { x with useAt := 4096 }) s)
    relative s 0 0 = true ∧ tracking u 0 0 = true ∧ (compOf u 0).useAt ≠ 0 ∧ (compOf u 0).useAt ≤ 4096 ∧
    (trackBounds s 0 0).1 ≤ (trackBounds s 0 0).2.1 ∧ (trackBounds s 0 0).2.2.1 ≤ (trackBounds s 0 0).2.2.2 :=
      by decide +kernel

/-! ## Phase ports -/

/-- The frame of the example of R153, in a slot whose number is 5 modulo 32. -/
def currentFrame : Frame := { valid := true, comma := false, tag := 0x25, hi := 0x2A, lo := 0xF8, crc := 0x62 }

/-- The CRC of R153's example. -/
theorem test_frame_crc : frameCrcOk currentFrame = true := by decide

/-- Port 17 bound and aligned in data-path state d, its uplink state changed by f. -/
def port17 (d : Nat) (f : Port → Port) : State :=
  up 4 |> setFlag (ppStat 17) Fld.PP_STAT_ALIGNED true |> setFlag (ppStat 17) Fld.PP_STAT_BOUND true
    |> setFld (ppStat 17) Fld.PP_STAT_STATE d |> updPort 17 (fun p => f { p with dp := d })

theorem witness_UplinkFramesReachThePort : listening (port17 2 id) 17 = true ∧
    frameGood currentFrame 5 true = true ∧ frameGood currentFrame 6 true = false ∧
    (portOf (port17 2 fun p => { p with lost := 2 }) 17).lost = 2 ∧ mayReach e9 (ppCounter 17 0) true = true ∧
    frameType { currentFrame with tag := 0x40 } = 2 := by decide +kernel

theorem witness_FrameCrcFindsErrors : frameCrcOk { currentFrame with lo := 0xF9 } = false := by decide

/-- A missed sample: port 0 of rail 0 in ON, with an aligned uplink and the deadline of the tick passed. -/
def missed : State :=
  let s := railWith 2 1 |> setFlag (ppStat 0) Fld.PP_STAT_ALIGNED true |> setFlag (ppStat 0) Fld.PP_STAT_BOUND true
  setFlag (Reg.PW_CFG 0 0) Fld.PW_CFG_OWNED true { s with tb := { s.tb with ns := 4142, qtaken := tset (fun _ => 0) s.tb.qtaken 0 4081 } }

theorem witness_PortEventsRun : missedTick missed 0 = some 4096 ∧
    resyncDone (port17 2 fun p => { p with attempt := 1, seen := 33 }) 17 = true ∧
    attemptOver (updPort 17 (fun p => { p with attempt := 1 }) { up 4 with tb := { (up 4).tb with ns := 9000 } }) 17 = true ∧
    vacant (setFld (ppStat 17) Fld.PP_STAT_MGMT 1 (port17 5 fun p => { p with exhausted := true })) 17 = true ∧
    mayReach e9 (Reg.PP_CMD 1) true = true ∧ (portOf (port17 6 id) 17).dp = 6 := by decide +kernel

theorem witness_StageBusCommandsRun : busOn (up 4) 1 = true ∧ flag (up 4) (Reg.SB_CTRL 1) Fld.SB_CTRL_HJEN = true ∧
    freeTemp (up 4) 1 = some 0 ∧ freeTemp (updSbus 1 (fun x => { x with temps := List.range 16 }) (up 4)) 1 = none ∧
    roundDue (updSbus 1 (fun x => { x with temps := [0] })
      { port17 1 id with tb := { (up 4).tb with ns := 10000000 } }) 1 = true ∧
    bindLate (setFlag (ppStat 17) Fld.PP_STAT_ALIGNED false (port17 1 fun p => { p with binding := 7 })) 17 = true ∧
    xferTarget (port17 2 id) 1 (xcmdOp 1 1) = true ∧ xferTarget (port17 2 id) 1 (xcmdOp 2 1) = false ∧
    mayReach e9 (Reg.SB_XCMD 1) true = true ∧ mayReach e9 (Reg.SB_IBIQ 1) false = true := by decide +kernel

/-! ## The Varip bus -/

/-- Port 3 enabled, in its cycle at instant 4,000 with slot 2 in state st after run misses, at instant ns. -/
def vb3 (st run ns : Nat) : State :=
  let s := { up 4 with tb := { (up 4).tb with ns := ns } }
  s |> setFlag (Reg.VB_CFG 3) Fld.VB_CFG_EN true |> setFld (Reg.VB_SLOT 3 2) Fld.VB_SLOT_STATE st
    |> setFld (Reg.VB_SLOT 3 2) Fld.VB_SLOT_MISSRUN run |> updVarip 3 (fun x => { x with start := 4001, open_ := true })

/-- The hint of the worked example of chapter 7, and its class. -/
theorem test_hint_word : classifyHint (vb3 2 0 4840) 3 2 0x4C4B028E41 = .good ∧
    (hintOf (varipOf (vb3 2 0 4840) 3) 3 2 0x4C4B028E41).dI = 1200 ∧
    (hintOf (varipOf (vb3 2 0 4840) 3) 3 2 0x4C4B028E41).lead = 40 := by decide +kernel

theorem witness_VaripCommandsRun : cycleDue (vb3 2 0 6000) 3 = true ∧ slotDue (vb3 2 7 4840) 3 2 = true ∧
    slotDue (vb3 1 0 4840) 3 2 = true ∧ classifyHint (vb3 2 0 4840) 3 2 0 = .empty ∧
    classifyHint (vb3 2 7 4840) 3 2 0x4C4B028E40 = .badCrc ∧ joinWindow (vb3 2 0 5960) 3 = true ∧
    classifyHint (vb3 2 0 4840) 3 2 (0x4C4B028E41 + 2 ^ 37) ≠ .good ∧ slotState (vb3 1 7 4840) 3 2 = 1 ∧
    slotState (vb3 0 7 4840) 3 2 = 0 ∧ fld (vb3 1 7 4840) (Reg.VB_SLOT 3 2) Fld.VB_SLOT_MISSRUN = 7 ∧
    classifyHint (wr (Reg.VB_RAILS 3) 0 (vb3 2 0 4840)) 3 2 0x4C4B028E41 = .refused ∧
    crc8 0xFF [0x128D / 256] = 0x128D % 256 ∧ mayReach f0 (Reg.VB_CMD 3) true = true ∧
    mayReach f0 (vbCounter 3 2) true = true := by decide +kernel

theorem witness_BeaconsAreGood : beaconWord 31 true true false 0 0 / 256 = 0xD31FC000 := by decide +kernel

/-! ## Engines -/

/-- Engine 0 running at Monitor with the words ws from address 0 of its instruction memory on and the state that f
makes. -/
def engineAt (ws : List Nat) (f : Arch → Arch) : State :=
  let s := forAll ((List.range ws.length).zip ws) (fun x s =>
    setWritten 0 (0x10100000 + 4 * x.1) true (setValue (0x10100000 + 4 * x.1) 4 x.2 s))
    (setFld (Reg.BD_ESTAT 0 0) Fld.BD_ESTAT_STATE 0 (up 4))
  updEng 0 (fun z => { z with arch := f { z.arch with priv := 2 } }) s

/-- The state engineAt makes is one in which engine 0 issues the bundle xs. -/
abbrev issuing (ws : List Nat) (f : Arch → Arch) (xs : List Op) : Prop := Issues (engineAt ws f) 0 xs

theorem witness_EngineRegisterBundlesRun :
    issuing [(encodeLong (.alu .adds .adds 1 (.reg 2) (.reg 3))).getD 1] id [.alu .adds .adds 1 (.reg 2) (.reg 3)] ∧
    issuing [(encodeLong (.callw 16)).getD 1] id [.callw 16] ∧ issuing [(encodeLong (.mfs 3 5)).getD 1] id [.mfs 3 5] ∧
    issuing [(encodeLong (.mts 0 3)).getD 1] id [.mts 0 3] ∧ issuing [(encodeLong (.switch 2)).getD 1] id [.switch 2] ∧
    issuing [(encodeLong .retw).getD 1] (fun x => x.setLive 0 2) [.retw] ∧
    issuing [(encodeLong (.rep true 4096)).getD 1, 0] id [.rep true 4096] ∧ issuing [0] id [.nop] := by
  unfold issuing Issues; decide +kernel

theorem witness_EngineLongAndStopBundlesRun :
    issuing [(encodeLong (.div 2 1 2 3)).getD 1] id [.div 2 1 2 3] ∧
      issuing [(encodeLong (.sqrt 1 2 3)).getD 1] id [.sqrt 1 2 3] ∧
    issuing [(encodeLong .fence).getD 1] id [.fence] ∧ issuing [(encodeLong .wait).getD 1] id [.wait] ∧
    issuing [(encodeLong .halt).getD 1] id [.halt] ∧ issuing [(encodeLong .flushI).getD 1] id [.flushI] ∧
    (performOps 0 .none [⟨0x10100100, 7, 4, true⟩] (engineAt [] id)).2.2 = false := by
  unfold issuing Issues; decide +kernel

/-- An engine whose data memory holds 0x80FF at address 0x8100. -/
def withData (ws : List Nat) (f : Arch → Arch) : State :=
  setWritten 0 0x10108100 true (setValue 0x10108100 4 0x80FF (engineAt ws f))

theorem witness_EngineMemoryBundlesRun :
    Issues (withData [(encodeLong (.load .half 1 2 0x100 0)).getD 1] fun x => x.setAt (x.place 2) 0x8000) 0
      [.load .half 1 2 0x100 0] ∧
    (engineLoad (whoOf (withData [] id) 0) { (engOf (withData [] id) 0).arch with priv := 2 } 0x8100 2 .none
      (withData [] id)).map (·.2) = some (.inr 0x80FF) ∧
    (let s := withData [(encodeLong (.store .half 1 2 0x100 0)).getD 1] fun x => x.setAt (x.place 2) 0x8000;
      Issues s 0 [.store .half 1 2 0x100 0] ∧ accessFault s (whoOf s 0) 2 true 0x8100 2 = none ∧
      partsHeld s (whoOf s 0) 0x8100 2 = false ∧
      placeOps (whoOf s 0) (storeOps (whoOf s 0) 0x8100 2 0) [] = some ([], [⟨0x10108100, 0, 2, false⟩]) ∧
      (performOps 0 .none [⟨0x10108100, 0, 2, false⟩] s).2.2 = false) := by
  unfold Issues; decide +kernel

theorem witness_context :
    issuing [(encodeLong (.savectx 2)).getD 1] (fun x => x.setAt (x.place 2) 0x8000) [.savectx 2] ∧
    issuing [(encodeLong (.loadctx 2)).getD 1] (fun x => x.setAt (x.place 2) 0x8000) [.loadctx 2] ∧
    ((saveContext (whoOf (engineAt [] id) 0) (engOf (engineAt [] id) 0).arch 0x8000 (engineAt [] id)
      (Eff.at (engOf (engineAt [] id) 0).arch)).map fun r =>
        ((performOps 0 r.2.1.upset r.2.1.ops (takeEff 0 r.2.1 r.1)).2.2, r.2.1.stop, r.2.2)) = some (false, 0, none) :=
          by
  unfold issuing Issues; decide +kernel

theorem witness_PairedSlotsReadBeforeEither :
    issuing [pairWord ((encodeShort (.alu .adds .adds 1 (.reg 1) (.reg 2))).getD 0)
      ((encodeShort (.alu .mov .mov 2 (.reg 3) (.imm 0))).getD 0)]
      id [.alu .adds .adds 1 (.reg 1) (.reg 2), .alu .mov .mov 2 (.reg 3) (.imm 0)] ∧
    legalPair 0 (.alu .adds .adds 1 (.reg 1) (.reg 2)) (.alu .mov .mov 2 (.reg 3) (.imm 0)) = true := by
  unfold issuing Issues; decide +kernel

theorem witness_RepeatedBundleRunsItsCount :
    issuing [(encodeLong (.alu .add .add 1 (.reg 1) (.reg 2))).getD 1] (fun x => x.setRep 4096 3)
      [.alu .add .add 1 (.reg 1) (.reg 2)] := by
  unfold issuing Issues; decide +kernel

/-- A descriptor at number n of engine 0's table: handler 0x100, sp 0x8800, Monitor, PRI 1. -/
def withDesc (n : Nat) (s : State) : State :=
  let a := 0x1010FC00 + 16 * n
  s |> setValue a 8 (0x100 + 2 ^ 32 * 0x8800) |> setWritten 0 a true
    |> setValue (a + 8) 8 (2 ^ 31 + 2 * 2 ^ 26 + 2 ^ 24 + 7 * 2 ^ 16) |> setWritten 0 (a + 8) true

/-- Engine 0 about to take exception n, its stack pointer at 0x9000. -/
def entering (ws : List Nat) (n : Nat) (f : Arch → Arch) : State :=
  withDesc n (engineAt ws fun x => f (x.setAt (x.homePlace 14) 0x9000))

theorem witness_EngineEntriesAndReturns :
    (let s := entering [(encodeLong (.trap 9)).getD 1] 25 id;
      Issues s 0 [.trap 9] ∧
      ((enterException (whoOf s 0) (engOf s 0).arch { Exc.plain 25 with next := true } 4 0 s).map fun r =>
        (r.2.x.pc, r.2.x.efp, r.2.ops.length)) = some (0x100, 0x9000 - 40 + 1, 5)) ∧
    (let s := entering [(encodeLong .halt).getD 1] 5 fun x => { x with priv := 0 };
      let s := wr (Reg.BD_RGN_ATTR 0 0 0) (2 ^ 31 + 31 * 2 ^ 16 + 7) s;
      (enterException (whoOf s 0) (engOf s 0).arch (Exc.plain 5) 0 0 s).isSome = true) ∧
    (let s := entering [0] 33 id |> wr (Reg.BD_IEN 0 0) 2 |> wr (Reg.BD_IPEND 0 0) 2;
      mayStep s (whoOf s 0) = true ∧ (takeInterrupt (whoOf s 0) s).isSome = true ∧
      (wakeInput (whoOf s 0) (setEngState 0 1 s)).isSome = true) ∧
    issuing [(encodeLong .retx).getD 1] (fun x => { x with bank := 4 }) [.retx] := by
  unfold issuing Issues; decide +kernel

theorem witness_roundTrip : encodeLong (.mfp 10 0 30 true true) = some 0x33400378 ∧
    encodeShort (.mul 1 0 3 7) = some 0x54DC ∧ encodeShort (.alu .mov .mov 7 (.reg 6) (.imm 0)) = some 0x05D8 ∧
    pairWord 0x54DC 0x05D8 = 0xD4DC0BB0 := by decide +kernel

/-! ## Bindings -/

/-- Slot 0 of quire 0 in state st with members ms, a unit, and a free half otherwise. -/
def slot0 (st : Nat) (ms : List Nat) (f : Binding → Binding) : State :=
  forAll (List.range 8) (fun i s => setEngState i (if ms.contains i then 0 else 2) s) (up 4)
    |> setMembers 0 0 ms |> setBindState 0 0 st |> takeUnit 0 0 0 |> updBind 0 0 f

/-- The record of one bundle. -/
def rec0 : Rec := { pc := 4, post := Arch.init, ops := [], exc := 0, stop := 0, cause := 0, irq := 0, refused := [] }

/-- Slot 0 as a pair whose members hold records r1 and r2. -/
def pair0 (r1 r2 : Rec) : State :=
  slot0 2 [0, 1] id |> updEng 0 (fun z => { z with buf := [r1] }) |> updEng 1 (fun z => { z with buf := [r2] })

theorem witness_BindingCommandsRun : mayReach f0 (Reg.BD_CMD 0) true = true ∧ bdCheck (slot0 0 [] id) 0 1 0 0 0 = 0 ∧
    bdCheck (slot0 2 [0, 1] id) 0 1 0 0 0 = 3 ∧ bdCheck (slot0 2 [0] id) 0 3 0 1 0 = 0 ∧
    bdCheck (slot0 2 [0, 1] id) 0 5 0 0 0 = 0 ∧ bdCheck (slot0 1 [0, 1] id) 0 5 0 0 0 = 0 ∧
    bdCheck (slot0 2 [0, 1] id) 0 6 0 0 0 = 0 ∧
    (let a := 0x10108000;
      bdCheck (slot0 2 [0, 1] id |> setValue a 8 (0x100 + 2 ^ 32 * 0x8800) |> setWritten 0 a true
        |> setValue (a + 8) 8 (2 ^ 31 + 2 * 2 ^ 26) |> setWritten 0 (a + 8) true) 0 2 0 0 0 = 0) ∧
    bdCheck (slot0 2 [0, 1] id |> setMembers 0 2 [4, 5] |> setBindState 0 2 2
      |> setFlag (Reg.BD_BCTL 0 2) Fld.BD_BCTL_MUTE true)
      0 4 0 0 2 = 0 ∧
    bound (slot0 2 [0, 1] id) 0 1 = true ∧ ectlAllows f0 (Reg.BD_ECTL 0 1) = true ∧
      mayReach f0 (Reg.BD_ECTL 0 1) true = true ∧
    mayReach f0 (Reg.BD_RGN_ATTR 0 1 15) true = true ∧ mayReach f0 (Reg.BD_SIG 0 1) true = true ∧
    sharers (slot0 2 [0, 1] id) 0 = [0, 1] ∧ mayReach f0 (Reg.BD_EVQ 0) false = true := by decide +kernel

theorem witness_BindingEventsRun : atBoundary (slot0 2 [0, 1] id) 0 0 = true ∧ mayCommit (pair0 rec0 rec0) 0 0 = true ∧
    slotMembers (pair0 rec0 rec0) 0 0 = [0, 1] ∧
      (bindOf (slot0 4 [0] fun y => { y with copyTo := 2, pass1 := true, hold := true }) 0 0).hold = true ∧
    slotFormed (up 4) 0 0 = false ∧
    inputsHeld (slot0 2 [0, 1] fun y => { y with log := [(0, .irq 0 0)] }) 0 0 = true ∧
      (unitOf (slot0 2 [0, 1] id) 0 0).isSome = true ∧ bindState (slot0 5 [0] id) 0 0 = 5 := by
  decide +kernel

/-- Slot 0 as a triad whose first two members hold equal records and whose third holds the records rs. -/
def triad0 (rs : List Rec) : State :=
  slot0 2 [0, 1, 2] id |> updEng 0 (fun z => { z with buf := [rec0] }) |> updEng 1 (fun z => { z with buf := [rec0] })
    |> updEng 2 (fun z => { z with buf := rs })

theorem witness_ADifferenceNeverCommits :
    voteAt (pair0 rec0 { rec0 with pc := 8 }) 0 0 (fun _ => false) 0 = some ⟨0, rec0, false⟩ ∧
    voteAt (pair0 rec0 { rec0 with pc := 8 }) 0 0 (fun _ => false) 1 = some ⟨1, { rec0 with pc := 8 }, false⟩ ∧
    (slotMembers (pair0 rec0 { rec0 with pc := 8 }) 0 0).length = 2 ∧
    Vote.same ⟨0, rec0, false⟩ ⟨1, { rec0 with pc := 8 }, false⟩ = false ∧
      Vote.same ⟨0, rec0, false⟩ ⟨1, rec0, false⟩ = true ∧
    slotMembers (triad0 []) 0 0 = [0, 1, 2] ∧ (bindOf (triad0 []) 0 0).past = [] ∧
    voteAt (triad0 [{ rec0 with pc := 8 }]) 0 0 (fun _ => false) 2 = some ⟨2, { rec0 with pc := 8 }, false⟩ ∧
    voteAt (triad0 []) 0 0 (fun _ => false) 2 = none ∧
    (bindOf (updBind 0 0 (fun y => { y with past := [rec0] }) (triad0 [{ rec0 with pc := 8 }])) 0 0).past = [rec0] ∧
    (Vote.altered ⟨2, { rec0 with pc := 8 }, false⟩ || Vote.record ⟨2, { rec0 with pc := 8 }, false⟩ != rec0) = true :=
      by
  decide +kernel

/-! ## Timers and the recorder -/

/-- Timer 2 of quire 6 as in the worked example of chapter 11, with its counter v at the last settled instant. -/
def timer2 (v c : Nat) (f : Timer → Timer) : State :=
  wr (Reg.TM_INT 6 2) 30000 (setFlag (Reg.TM_CFG 6 2) Fld.TM_CFG_EN true (updTimer 6 2 (fun x =>
    f { x with rld := 99999, c := c, base := v, at_ := 4095, zeroTaken := false, cmpTaken := false }) (up 4)))

/-- EVT input 5 of quire 6 changed by f. -/
def evt5 (f : EvtIn → EvtIn) : State := updEvtIn 6 5 f (up 4)

theorem witness_TimerCommandsRun : zeroDue (timer2 1 0 id) 6 2 = true ∧ compareDue (timer2 90001 90000 id) 6 2 = true ∧
    mayReach f0 (Reg.TM_CMD 6 2) true = true ∧ (timerOf (timer2 7 0 id) 6 2).capAt ≠ 4097 ∧
    (timerOf (timer2 7 0 fun x => { x with queue := [(9, 4), (8, 5), (7, 6), (6, 7)] }) 6 2).queue.length = 4 ∧
    mayReach f0 (Reg.TM_CAPPOP 6 2) false = true ∧ mayReach f0 (Reg.TM_CMPSET_LO 6 2) true = true ∧
    mayReach f0 (Reg.TM_RLD_LO 6 2) true = true ∧ (evtInOf (evt5 id) 6 5).sync ≠ true ∧
    resolverFree (evt5 id) 6 5 = true ∧ resolverFree (evt5 fun x => { x with rAt := 4095 }) 6 5 = false ∧
    resolverFree (evt5 fun x => { x with rAt := 4090, sync := true }) 6 5 = true ∧
    edgeDue (evt5 fun x => { x with rAt := 4090, r := true }) 6 5 = true ∧
    evtStuckDue (setFld (Reg.TM_EVTF 6 5) Fld.TM_EVTF_STK 1 (evt5 fun x => { x with fAt := 2048 })) 6 5 = true ∧
    outputDue (updEvtOut 6 1 (fun x => { x with due := [4096] }) (up 4)) 6 1 = true ∧
    (evtOutOf (updEvtOut 6 1 (fun x => { x with pulseEnd := 4097 }) (up 4)) 6 1).pulseEnd = 4097 ∧
    mayReach f0 (Reg.TM_EVTCNT 6 5) true = true := by decide +kernel

/-- The worked example of chapter 11: the match at 90,000 leaves C = 60,000, and the one at 0 leaves 70,000. -/
theorem test_compare_steps : stepCompare 90000 30000 99999 = 60000 ∧ stepCompare 0 30000 99999 = 70000 ∧
    (timerOf (timerCompare 6 2 (timer2 90001 90000 id)) 6 2).c = 60000 := by decide +kernel

theorem witness_CompareStepsKeepTheirDistance : countDown false 99999 90000 30000 = 60000 ∧
    countDown false 99999 0 30000 = 70000 := by decide +kernel

/-- The device in mode m with the Foreman serving. -/
def served (m : Nat) : State := setFlag Reg.MB_HSTAT Fld.MB_HSTAT_FBUSY false (up m)

/-- Channel 3 records the junction temperature of quire 0, with ER_CTRL as given. -/
def chan3 (ctrl : Nat) : State :=
  up 4 |> wr (Reg.ER_CH 3) (2 ^ 31 + 2 ^ 30 + 7 * 2 ^ 24) |> wr Reg.ER_CTRL ctrl

theorem witness_SamplesCountOnceAndKeepExtremes : erFrozen (chan3 0x80000006) = false ∧
    recorderDue (chan3 0x80000006) 3 = true ∧
    sourceValue (chan3 0x80000006) 7 0 640 = some 640 ∧ fld (chan3 0x80000006) (Reg.ER_CH 3) Fld.ER_CH_SRC = 7 ∧
    (chan3 0x80000006).er.todo = [] ∧ (chan3 0x80000006).ras.op = .none ∧
    mayReach f0 Reg.ER_CMD true = true ∧ flag (up 4) Reg.ER_STAT Fld.ER_STAT_BUSY = false := by decide +kernel

/-- Words of recorder memory that a sample of channel 3 reads are written once BOOT has filled it. -/
theorem witness_SamplesCountOnceAndKeepExtremes_words :
    let s := updRas (fun x => { x with filled := [(752 + 400, true), (752 + 400 + 1, true), (752 + 400 + 2, true)] })
      (chan3 0x80000006)
    ∀ a ∈ [histAddr 3 (binOf 640 (sx 32 (rd s (Reg.ER_BASE 3))) (fld s (Reg.ER_CH 3) Fld.ER_CH_SHIFT)), minAddr 3,
      minAddr 3 + 8,
      maxAddr 3, maxAddr 3 + 8], erGood s a = true := by decide +kernel

theorem witness_RecorderCommandsRun : shed (up 4) < 3 ∧ flag (startCommit (up 4)) Reg.ER_STAT Fld.ER_STAT_BUSY = true ∧
    shed (setFld Reg.SM_MODE Fld.SM_MODE_SHED 4 (up 4)) = 4 ∧ erFrozen (chan3 0xC0000006) = true ∧
    recorderDue (chan3 0xC0000006) 3 = true ∧ foremanServes (served 4) = true ∧
    autoCommitDue (updEr (fun x => { x with autoAt := 0 }) { served 4 with tb := { (served 4).tb with ns := 3600000000000 } }) = true ∧
    (startCommit (up 4)).er.commit.isSome = true ∧ (startCommit (up 4)).er.todo = [] ∧
      nvClosed (startCommit (up 4)) = false ∧
    (up 4).ras.flips = [] ∧ (up 4).ras.upset = [] ∧ rangeHeld (up 4) 0x50000000 0x8000 = false ∧
    rangeHeld (updRas (fun x => { x with op := .retire 168 3 }) (up 4)) 0x50000000 0x8000 = true := by decide +kernel

/-! ## Memories -/

/-- Engine 53 is halted. -/
def bank53 : State := setFld (Reg.BD_ESTAT 6 5) Fld.BD_ESTAT_STATE 2 (up 4)

/-- One word of quire 6's shared memory, written, with an error of the given kind. -/
def shared6 (e : Nat) : State := up 4 |> setValue 0x16002000 8 0x1234567800000000 |> setWritten 134 0x16002000 true
    |> setUpset 0x16002000 e

theorem witness_MemoryCommandsRun : mayReach f0 Reg.MR_CMD true = true ∧ mrCheck (up 4) 1 200 0 false = 3 ∧
    mrCheck (up 4) 2 134 1024 false = 3 ∧ mrCheck (up 4) 3 144 0 false = 3 ∧ mrCheck (up 4) 1 134 255 false = 0 ∧
    mrCheck (up 4) 2 134 1023 false = 0 ∧ mrCheck (up 4) 3 134 0 true = 0 ∧ mrCheck bank53 3 53 0 false = 0 ∧
    (mrCommand 1 134 9 false (up 4)).ras.op = .retire 134 9 ∧ (mrCommand 3 134 0 false (up 4)).ras.op = .brst 134 none ∧
    (mrCommand 3 134 0 true (up 4)).ras.op = .brst 134 (some 0x40000000) ∧
    (let s := setMark 608 true (shared6 0); scrubDue s = true ∧ scrubTarget s = some (0x16000000, false)) ∧
    (let s := updRas (fun x => { x with scrub := 0x16002000 }) (setMark 608 true (shared6 0));
      scrubTarget s = some (0x16002000, false) ∧ bankOf 0x16002000 = some 134 ∧ wordWritten s 134 0x16002000 = true ∧
      wordUpset s 0x16002000 = 0) ∧
    mayReach f0 Reg.MR_ELOG false = true ∧
    (touchWord 53 134 0x16002000 0 2 false .none (shared6 2)).1.ras.elog.length = 1 := by decide +kernel

/-- The worked example of chapter 12: a word store to 0x1600_2004 leaves 0x1234_5678_0000_0000, and the word at
0x1600_2008 stays unwritten. -/
theorem test_shared_store :
    (let r := storeWord 53 134 0x16002004 4 0x12345678 2 .none (up 4);
      r.2 = .good ∧ memValue r.1 0x16002000 8 = 0x1234567800000000 ∧ wordWritten r.1 134 0x16002000 = true ∧
      (touchWord 53 134 0x16002008 0 2 false .none r.1).2 = .unwritten) ∧ granuleOf 53 0x16158000 = 214 :=
        by decide +kernel

theorem witness_WritesMergeIntoTheirWord : bankOf 0x16002004 = some 134 ∧ wordUpset (shared6 2) 0x16002004 = 2 ∧
    (storeWord 53 134 0x16002004 4 1 2 .none (shared6 2)).2 = .bad ∧
    (storeWord 53 134 0x16002004 4 1 2 .single (shared6 0)).2 = .good ∧
    2 ≤ wordUpset (strikeWord 0x16002004 .single (shared6 1)).1 0x16002004 ∧
    (storeWord 53 134 0x16002000 8 1 3 .none (shared6 2)).2 = .good ∧
    (touchWord 53 134 0x16002000 0 2 false .single (shared6 1)).2 = .bad := by decide +kernel

/-- Foreman memory holds 4 KiB of data at its start, 32 bytes of which are written words. -/
def source32 : State :=
  forAll (List.range 4) (fun i s => s |> setValue (0x20000000 + 8 * i) 8 (i + 1)
    |> setWritten 144 (0x20000000 + 8 * i) true)
    (wr Reg.NV_SRC 0x20000000 (up 4))

theorem witness_NvmCommandsRun : mayReach f0 Reg.NV_CMD true = true ∧ nvCheck (up 4) 1 1984 = 3 ∧
    nvCheck source32 1 528 = 0 ∧
    (nvSource 32 source32).2.isSome = true ∧ sourceHeld source32 32 = false ∧
    sourceHeld (updRas (fun x => { x with op := .retire 144 0 }) source32) 32 = true ∧
      (nvCommand 1 528 source32).nv.op = .append 528 0 (toBytes 8 1 ++ toBytes 8 2 ++ toBytes 8 3 ++ toBytes 8 4) ∧
    nvClosed (up 4) = false ∧ nvClosed (wr Reg.FM_SHUTCAUSE 4 (up 6)) = true ∧
    mayReach f0 Reg.NV_ECC true = true ∧ mayReadNvm f0 = true := by decide +kernel

/-- Logical sector 528 has left its physical sector for sector 1,984. -/
def moved528 : State := remap 528 1984 (up 4)

theorem witness_NvmCommandsRun_background : nvDirty moved528 528 = true ∧ nvMapped moved528 528 = false ∧
    (tget (fun _ => 0) (updNv (fun x => { x with flips := [(528 * 128, 2)] }) (up 4)).nv.flips 67584) = 2 :=
      by decide +kernel

theorem witness_ASectorChangesWholeOrNotAtAll : nvMapped (up 4) 1984 = false ∧ factoryFresh (up 4) 1984 = false ∧
    (up 4).nv.cells = [] ∧
    (List.replicate 4096 7).length = 4096 := by decide +kernel

/-- A device whose physical sector 1,984 has been erased 1,001 times. -/
def worn : State := updNv (fun x => { x with wear := [(1984, 1001)] }) (up 4)

set_option maxRecDepth 100000 in
theorem witness_NvmCommandsRun_level : freshSector (up 4) = some (1984, false) ∧ levelPair worn = some (0, 1984) ∧
    nvCheck (up 4) 2 528 = 0 := by decide +kernel

/-! ## The mailbox and the transports -/

/-- Session 3 in phase ph and state st, opened over SPI, in mode m with the Foreman serving. -/
def sess3 (m st ph : Nat) (f : Session → Session) : State :=
  served m |> setFld (Reg.MB_SESS 3) Fld.MB_SESS_STATE st |> setFld (Reg.MB_SESS 3) Fld.MB_SESS_XPORT 3 |> setPhase 3 ph
    |> updSess 3 (fun y => f { y with via := 3 })

/-- Session 3 has a request of opcode op and payload p in EXEC. -/
def inExec (m st op : Nat) (p : List Nat) : State :=
  sess3 m st 2 fun y => { y with req := some { session := 3, seq := 7, op := op, payload := p } }

/-- The response of the worked example of chapter 13 before its post. -/
def answer7 : Response := { session := 3, seq := 7, op := 0x0203, flags := 1, status := 0, payload := [], done := true, rail := 13 }

theorem witness_MailboxCommandsRun : viaUp (served 4) .spi = true ∧ mode (served 7) = 7 ∧
    viaUp (served 7) .smbus = true ∧
    doorbellRefused (sess3 4 2 1 id) 3 3 = true ∧ doorbellRefused (sess3 4 2 0 id) 3 3 = false ∧
    doorbellRefused (up 4) 3 3 = false ∧ flag (up 4) Reg.MB_HSTAT Fld.MB_HSTAT_FBUSY = true ∧
    flag (served 4) Reg.MB_HSTAT Fld.MB_HSTAT_FBUSY = false ∧
      bitAt (rd (wr Reg.MB_HRDY 8 (sess3 4 2 3 id)) Reg.MB_HRDY) 3 = true ∧
    flag (hwAbort 1 3 7 (served 4)) Reg.MB_HWASTAT Fld.MB_HWASTAT_BUSY = true ∧ abortIndexOk 1 16 = false ∧
    abortIndexOk 7 0 = true ∧ flag (served 4) Reg.MB_HWASTAT Fld.MB_HWASTAT_BUSY = false ∧
      mayReach f0 Reg.MB_FREQ true = true ∧
    foremanServes (sess3 4 2 1 id) = true ∧ sessPhase (sess3 4 2 1 id) 3 = 1 ∧ mayReach f0 Reg.MB_FPOST true = true ∧
    canPost (sess3 4 2 2 fun y => { y with ready := some answer7 }) 3 = true ∧
      canPost (sess3 4 2 2 fun y => { y with late := true }) 3 = true ∧
    bitAt (raisedIn (raiseWord Reg.MB_HRDY 8 (sess3 4 2 3 id)) Reg.MB_HRDY) 3 = true ∧
    bitAt (raisedIn (sess3 4 2 3 id) Reg.MB_HRDY) 3 = false ∧ windowsHeld (sess3 4 2 1 id) 3 = false ∧
    windowsHeld (updRas (fun x => { x with op := .retire 144 (0x1E6000 / 1024) }) (sess3 4 2 1 id)) 3 = true ∧
    takesAsked (sess3 4 2 1 id) 3 = true ∧ windowOp (sess3 4 2 1 id) 3 ≠ 0x0F01 ∧
      (∀ y, y < 16 → y ≠ 3 → sessPhase (sess3 4 2 1 id) y ≠ 1) ∧
    rangeHeld (sess3 4 2 1 id) (reqWindow 3) 4096 = false ∧
    rangeHeld (updRas (fun x => { x with op := .retire 144 (0x1E6000 / 1024) }) (sess3 4 2 1 id))
      (reqWindow 3) 4096 = true ∧
    (sessOf (sess3 4 2 2 fun y => { y with ready := some answer7 }) 3).late = false ∧
    (hwAbort 1 3 7 (served 4)).host.abort < 16 ∧ idleOver (sess3 4 1 0 fun y => { y with reqAt := 0 }) 3 = false ∧
    idleOver { sess3 4 1 0 id with tb := { (served 4).tb with ns := 60000000000 } } 3 = true ∧
    streamDue (updHost (fun h => { h with stream := [(2, 12)], streamNs := 4096 }) (served 4)) = true ∧
    mayReach f0 Reg.MB_CNT true = true := by decide +kernel

/-- The request of the worked example of chapter 13: session 3 enables rail 12. -/
theorem test_request_frame : checkRequest (sess3 4 2 1 fun y => { y with based := true }) 3
      ([1, 3, 7, 0, 3, 2, 0, 0, 4, 0, 0, 0, 0, 0, 0, 0, 12, 0, 0, 0] ++
        toBytes 4 (crc32 [1, 3, 7, 0, 3, 2, 0, 0, 4, 0, 0, 0, 0, 0, 0, 0, 12, 0, 0, 0])) = some (stSEQ, false) ∧
    checkRequest (setFld (Reg.MB_SESS 3) Fld.MB_SESS_SEQ 6 (sess3 4 2 1 fun y => { y with based := true })) 3
      (message 3 7 0x0203 0 0 [12, 0, 0, 0]) = none := by decide +kernel

theorem witness_LyheufCommandsRun : serving (inExec 4 2 0x0102 []) 3 0x0102 = true ∧
    tableFree (inExec 4 2 0x0203 []) = true ∧
    (∀ op, op ∈ [0x0101, 0x0103, 0x0110, 0x0111, 0x0112, 0x0113, 0x0114, 0x0201, 0x0202, 0x0203, 0x0204, 0x0205,
      0x0206, 0x0301,
      0x0302, 0x0401, 0x0402, 0x0601, 0x0602, 0x0701, 0x0702, 0x0801, 0x0802, 0x0901, 0x0902, 0x0F01] →
      serving (inExec 4 2 op [1, 0, 0, 0]) 3 op = true) ∧
    rangeHeld (inExec 4 2 0x0701 []) 0x50000000 64 = false ∧ (inExec 2 2 0x0103 [2, 0, 0, 0]).nv.op = .none ∧
    (inExec 4 2 0x0901 []).nv.flips = [] ∧ serving (inExec 6 2 0x0103 [2, 0, 0, 0]) 3 0x0103 = true ∧
    commitFree (inExec 2 2 0x0103 [2, 0, 0, 0]) = true ∧
      commitFree (setFld Reg.SM_MODE Fld.SM_MODE_SHED 3 (inExec 2 2 0x0103 [2, 0, 0, 0])) = false ∧
    quantitiesOk [(5, 255), (8, 2)] = true ∧ quantitiesOk [(8, 3)] = false ∧ quantitiesOk [(9, 0)] = false ∧
    nvClosed (inExec 4 2 0x0802 []) = false ∧ windowsHeld (inExec 4 2 0x0F01 [1, 3, 7, 0]) 3 = false ∧
      mode (inExec 2 2 0x0103 [2, 0, 0, 0]) = 2 ∧
    serving (inExec 2 2 0x0103 [2, 0, 0, 0]) 3 0x0103 = true ∧ sessState (inExec 4 0 0x0110 []) 3 = 0 ∧
    (sessOf (inExec 4 0 0x0110 []) 3).via = 3 ∧ (inExec 4 1 0x0113 [0, 0, 0, 0]).otp.owner = false ∧
    sessState (inExec 4 1 0x0113 [0, 0, 0, 0]) 5 ≠ 2 ∧ railArg [12, 0, 0, 0] = some 12 ∧ railArg [32, 0, 0, 0] = none ∧
    flag (inExec 4 2 0x0206 []) (Reg.LU_CSEL 12 0) Fld.LU_CSEL_PEND = false := by decide +kernel

theorem witness_LyheufFramesAreChecked : sessState (sess3 4 2 1
    fun y => { y with stored := [1], lastOp := 0x0203 }) 3 ≠ 0 ∧
    (sessOf (sess3 4 2 1 fun y => { y with stored := [1], lastOp := 0x0203 }) 3).stored ≠ [] ∧
    fld (sess3 4 2 1 id) (Reg.MB_SESS 3) Fld.MB_SESS_SEQ = 0 ∧ (message 3 0 0x0203 0 0 [12, 0, 0, 0]).length = 24 := by
  decide +kernel

theorem witness_HostTransportCommandsRun : viaUp (served 4) .i3c = true ∧ viaUp (served 4) .smbus = true ∧
    i3cDa (served 4) = 0 ∧
    i3cDa (setFld Reg.MB_I3CCFG Fld.MB_I3CCFG_DA 9 (served 4)) ≠ 0 ∧ 0x7F ∉ cccCodes ∧
      pecHolds (served 4) .absent = true ∧
    pecHolds (served 4) .bad = false ∧ smbAlert (updHost (fun h => { h with pmbAlert := true }) (served 4)) = true ∧
    smbAlert (served 4) = false ∧ viaUp (served 4) (mctpVia (.smbus .good)) = true ∧
    viaUp (served 4) (mctpVia .i3c) = true ∧
    lyheufOverMctp (served 4) [0x7F, 0, 0, 0, 0, 1, 3] = true ∧ sessPhase (sess3 4 2 1 id) (0x6000 / 0x2000) ≠ 0 ∧
    hostReg 0x20004 = true ∧
    hostHeld (served 4) 0x6000 [1, 2] = false ∧ takesAsked (served 4) 3 = true ∧
    hostHeld (updRas (fun x => { x with op := .retire 144 (0x1E6000 / 1024) }) (served 4)) 0x20010 [0xA5, 1, 3,
      7] = false ∧
    windowHeld (served 4) 0x6000 64 = false ∧
    windowHeld (updRas (fun x => { x with op := .retire 144 (0x1E6000 / 1024) }) (served 4)) 0x6000 64 = true ∧
      fld (served 4) Reg.MB_I3CCFG Fld.MB_I3CCFG_SA = 0x4C := by decide +kernel

/-- PMBus writes are allowed. -/
def pmbOn (s : State) : State := setFlag Reg.MB_SMBCFG Fld.MB_SMBCFG_PMBW true s

theorem witness_PmbusCommandsRun : tableFree (pmbOn (served 4)) = true ∧ foremanServes (pmbOn (served 4)) = true ∧
    flag (pmbOn (served 4)) Reg.MB_SMBCFG Fld.MB_SMBCFG_PMBW = true ∧
      flag (served 4) Reg.MB_SMBCFG Fld.MB_SMBCFG_PMBW = false ∧
    railRuns (pmbOn (served 4)) 12 = false ∧ railRuns (railIn 2) 0 = true ∧ railState (railIn 4) 0 = 4 ∧
      0xD1 ∈ readCodes ∧
    (pmbOn (served 4)).host.pmb = [] ∧ tableFree (railWith 2 1) = false ∧ foremanServes (pmbOn (up 4)) = false ∧
    0xFF ∉ writeCodes ∧ 0xFF ∉ readCodes ∧ members (served 4) 0 = [] ∧ members (railIn 2) 0 ≠ [] := by decide +kernel

/-- The examples of R332: VOUT_COMMAND 12,288 gives TARGET = 15,000, and READ_IOUT at 1,000 A returns 0x03E8. -/
theorem test_pmbus_numbers : roundAwayDiv (12288 * 625) 512 = 15000 ∧
    fld (voutWrite 0 15000 (served 4)) (Reg.RT_VREF 0) Fld.RT_VREF_TARGET = 15000 ∧
    linear11 (1000 * 400) 400 = 0x03E8 := by decide +kernel

/-! ## Folios and the security block -/

/-- Session 3, as owner, has a folio request in EXEC and an update in phase ph. -/
def folio (op : Nat) (p : List Nat) (ph : Nat) : State :=
  updFrm (fun f => { f with update := { f.update with phase := ph, session := 3, target := 3, inst := 12, slot := 1 } }) (inExec 4 2 op p)

theorem witness_FolioCommandsRun : serving (folio 0x0501 [0, 0, 0, 0, 0, 0, 0, 0] 0) 3 0x0501 = true ∧
    (sessOf (folio 0x0501 [] 0) 3).req = some { session := 3, seq := 7, op := 0x0501, payload := [] } ∧
    updateTaken (folio 0x0501 [] 1) 3 = false ∧ updateTaken (folio 0x0501 [] 1) 4 = true ∧
    (∀ op, op ∈ [0x0502, 0x0503, 0x0504, 0x0505, 0x0506] → serving (folio op [] 2) 3 op = true) ∧
    (folio 0x0503 [] 2).nv.op = .none ∧ rangeHeld (folio 0x0503 [] 2) bufferBase 0 = false ∧
    activationWaits (folio 0x0504 [] 3) 3 12 = false ∧ rangeHeld (folio 0x0501 [] 0) bufferBase 4000 = false ∧
    someTrial (makeActive 3 12 1 600 (folio 0x0505 [3, 12, 1, 0] 0)) = true ∧
    (dirOf (makeActive 3 12 1 600 (folio 0x0505 [3, 12, 0, 0] 0)) 3 12).state = 2 ∧ instances 3 = 32 ∧ instances 6 = 0 ∧
    (let a := updFrm (fun f => { f with act := { f.act with kind := 1, stage := 1, since := 1, ready := 0x16168100, limit := 100 } }) (served 4);
      shadowLate a = true ∧ quireFree a 0 = true ∧ foremanHeld a = false ∧ imageHeld a 51 = false ∧
        nvClosed a = false ∧ shadowReady (setValue 0x16168100 4 1 a) = true) ∧
    trialOver { makeActive 3 12 1 600 (served 4) with tb := { (served 4).tb with ns := 700000000000 } } 3 12 = true ∧
    (let l := updFrm (fun f => { f with plan := List.replicate 256 5 }) (setEngState 51 3 (served 4));
      engState l 51 = 3 ∧ plannedImage l 6 3 = 5) ∧
    updating (updFrm (fun f => { f with act := { f.act with kind := 2, since := 1 } }) (up 4)) = true :=
      by decide +kernel

theorem witness_SecurityCommandsRun : mayReach f0 Reg.SC_CMD true = true ∧ scCheck (up 4) 1 65 = 3 ∧
    scCheck (up 4) 1 9 = 0 ∧
    scCheck (up 4) 2 4 = 3 ∧ scCheck (up 4) 2 1 = 0 ∧ scCheck (up 4) 3 0 = 0 ∧ (scCommand 1 9 (up 4)).otp.op = 1 ∧
    (scCommand 2 1 (up 4)).otp.op = 2 ∧ (scCommand 3 0 (up 4)).otp.op = 3 ∧ mayReach f0 Reg.SC_JOB true = true ∧
    flag (up 4) Reg.SC_JOB Fld.SC_JOB_BUSY = false ∧ jobHeld (up 4) 1 = false ∧
    (let s := wr Reg.SC_JLEN 64 (wr Reg.SC_JSRC 0x20000000 (updRas (fun x => { x with op := .retire 144 0 }) (up 4)));
      jobHeld s 1 = true) ∧ (jobStart 1 0 [] 2 (up 4)).frm.jobResult < 16 ∧
    (jobStart 1 0 [] 2 (up 4)).frm.jobWait = false ∧ rangeHeld (jobStart 1 0 [] 2 (up 4)) 0 0 = false ∧
      flag (jobStart 1 0 [] 2 (up 4)) Reg.SC_JOB Fld.SC_JOB_BUSY = true ∧
    mayReach f0 Reg.SC_LOCK true = true := by decide +kernel

theorem witness_FusesAreOnlyBlown : exec (.scFuseDone true)
    (scCommand 1 9 (up 4)) = .next (fuseDone true (scCommand 1 9 (up 4))) ∧
    (fuseDone true (scCommand 1 9 (up 4))).otp.arb = 9 ∧
      (heldIn .none (fuseDone true (scCommand 1 9 (up 4)))).otp.arb = 9 := by
  refine ⟨?_, by decide +kernel⟩
  exact congrArg Host.Outcome.next (if_pos (by decide +kernel))

/-! ## The fault manager -/

/-- A report of class U from the memory RAS controller, for bank 3. -/
def report3 : Report := { src := 8, event := 4, cls := 2, unit := 3, detail := 0, persist := 0, addr := 0, master := 0, type := 0, size := 0, kind := 0 }

theorem witness_FaultManagerCommandsRun : reportKnown report3 = true ∧ ¬(report3.src = 1 ∧ report3.event = 2) ∧
    mayReach f0 Reg.FM_Q false = true ∧ (takeReport report3 (served 4)).fm.q.length = 1 ∧
    (nextRecord (takeReport report3 (served 4))).isSome = true ∧ (takeReport report3 (served 4)).nv.op = .none ∧
    (∀ a, a ∈ [Reg.FM_ACK, Reg.FM_FEC_CLR, Reg.FM_QDROP, Reg.FM_LOGDROP, Reg.FM_CMD, Reg.FM_TRIP, Reg.FM_WDOG] →
      mayReach f0 a true = true) ∧
    mayReach f0 Reg.FM_DISQ false = true ∧
    pulseOver (updFm (fun f => { f with pulse := [(3, 1)], pulseAt := [(3, 4089)] }) (up 4)) 3 = true ∧
    (let a := updFm (fun f => { f with quietAt := 0 })
      (takeReport report3 (setFlag Reg.FM_CTRL Fld.FM_CTRL_FNU false (up 5)));
      flag a Reg.FM_STAT Fld.FM_STAT_ALERT = true ∧ mode a = 5 ∧ rd a Reg.FM_DEGR = 0 ∧ a.fm.quietAt ≤ a.tb.ns) ∧
    (updFm (fun f => { f with passAt := 0 }) { served 4 with tb := { (served 4).tb with ns := 1000000 } }).fm.passAt + 1000000 ≤ 1000000 ∧
    flag (served 4) Reg.FM_WDCFG Fld.FM_WDCFG_EN = true ∧
    (let a := wr Reg.FM_WDCFG (putBits (putBits 0 Fld.FM_WDCFG_EN 1) Fld.FM_WDCFG_MS 2) (served 4);
      let a := updFm (fun f => { f with wdogAt := 0 }) { a with tb := { a.tb with ns := 2000000 } };
      flag a Reg.FM_WDCFG Fld.FM_WDCFG_EN = true ∧ foremanServes a = true ∧
        a.fm.wdogAt + max 1 (fld a Reg.FM_WDCFG Fld.FM_WDCFG_MS) * 1000000 ≤ a.tb.ns) ∧
          (restartForeman (served 4)).frm.restarting = true ∧ (restartForeman (served 4)).frm.reload = false ∧
    foremanHeld (served 4) = false ∧
    bitAt (served 4).fm.retired 1 = false ∧ (updFm (fun f => { f with retired := 1 }) (served 4)).fm.retired ≠ 0 := by
  decide +kernel

/-- A record of class C with number n. -/
def corrected (n : Nat) : FaultRec :=
  recordOf (updFm (fun f => { f with seq := n }) (up 4)) { src := 8, event := 1, cls := 1, unit := 3 }

theorem witness_FaultManagerCommandsRun_queue : ((List.range 64).map corrected).length = 64 ∧ (corrected 9).cls = 1 ∧
    (recordOf (up 4) (repOf report3)).cls = 2 := by decide +kernel

/-! ## The supplies -/

/-- A device in mode m with a sequencing run. -/
def running (m : Nat) (x : SeqRun) : State :=
  setFlag Reg.SM_SEQSTAT Fld.SM_SEQSTAT_BUSY true (updSup (fun y => { y with run := x }) (up m))

/-- A device in SHUTDOWN with cause c that began at TB_NS 0, now at 1 ms. -/
def down (c : Nat) : State := wr Reg.FM_SHUTCAUSE c { up 6 with tb := { (up 6).tb with ns := 1000000 } }

/-- The supply monitor has taken n samples of VCORE at mv, with the set of crossed thresholds given. -/
def sampled (n mv crossed m : Nat) : State :=
  forAll (List.range n) (fun _ s => supplySample false s)
    (setSupplies mv 1800 3300 (updSup (fun y => { y with crossed := crossed }) (up m)))

theorem witness_PowerCommandsRun : thresholdMoves (sampled 2 690 0 4) true (.vcore 0) = true ∧
    thresholdMoves (sampled 1 690 0 4) true (.vcore 0) = false ∧
      thresholdMoves (sampled 64 715 2 5) false (.vcore 0) = true ∧
    thresholdMoves (sampled 63 715 2 5) false (.vcore 0) = false ∧
    mayReach f0 Reg.SM_SEQCMD true = true ∧ mode (up 4) ≠ 2 ∧
    flag (setFlag Reg.SM_SEQSTAT Fld.SM_SEQSTAT_BUSY true (up 2)) Reg.SM_SEQSTAT Fld.SM_SEQSTAT_BUSY = true ∧
    tableInvalid (setFld Reg.SM_SEQHDR Fld.SM_SEQHDR_NSTEP 33 (up 2)) = true ∧ tableInvalid (up 2) = false ∧
    seqDue (running 3 { SeqRun.init with done := true, groups := [[(0, 0, 0)]] }) = true ∧
    pgMissed (running 3 { SeqRun.init with started := [(3, 0)], applied := [(3, 1)] }) 3 = false ∧
    pgMissed { running 3 { SeqRun.init with started := [(3, 0)], applied := [(3, 1)] } with
      tb := { (up 3).tb with ns := 100000 } } 3 = true ∧
    seqOver (running 3 { SeqRun.init with final := true, done := true }) = true ∧
    downDue (running 6 { SeqRun.init with done := true, groups := [[]] }) = true := by decide +kernel

theorem witness_PowerCommandsRun_down : (∀ c ∈ [1, 2, 3, 4, 5, 7], rd (down c) Reg.FM_SHUTCAUSE = c ∧
    alive (down c) = true ∧
      mode (down c) = 6 ∧ railsDown (down c) = true ∧ appendsOver (down c) = true ∧ nvIdle (down c) = true ∧
        commitWaits (down c) = false) ∧
    commitWaits (setFlag Reg.MB_HSTAT Fld.MB_HSTAT_FBUSY false (setFld Reg.SM_MODE Fld.SM_MODE_SHED 3 (down 1))) = true ∧
    (down 4).sup.shutAt + 1000000 ≤ (down 4).tb.ns := by decide +kernel

theorem witness_PowerCommandsRun_pins : flag (up 2) Reg.SM_PGIN Fld.SM_PGIN_LEVEL = false ∧
    (let s := setFlag Reg.SM_SEQHDR Fld.SM_SEQHDR_AUTOSTART true (up 2);
      mode s = 2 ∧ flag s Reg.SM_SEQHDR Fld.SM_SEQHDR_AUTOSTART = true) ∧
    (let s := setFlag Reg.SM_SEQHDR Fld.SM_SEQHDR_SHUTLOSS true (setFlag Reg.SM_PGIN Fld.SM_PGIN_LEVEL true (up 4));
      flag s Reg.SM_PGIN Fld.SM_PGIN_LEVEL = true ∧ flag s Reg.SM_SEQHDR Fld.SM_SEQHDR_SHUTLOSS = true ∧ mode s = 4) ∧
    { (up 4).tb with ns := 20000 }.ns % 10000 = 0 ∧
    tget (fun _ => false) (updSup (fun y => { y with measured := [(16, true)] }) (up 4)).sup.measured 16 = true ∧
    tget (fun _ => false) (up 4).sup.measured 16 = false ∧
    (∀ pin ∈ [SupplyPin.vcore, .vio, .vaux], mayReach f0 (supplyReg pin) true = true) ∧
    mayReach f0 Reg.SM_PGIN true = true := by decide +kernel

/-- The worked example of chapter 16: measured VCORE 0.679 V is below level 2, which recovers at 0.695 V. -/
theorem test_shed_levels : (let s := shedChange [.vcore 0, .vcore 1] true 679 1800 3300 (up 4);
      shed s = 2 ∧ mode s = 5 ∧ thresholdMoves (sampled 64 694 6 5) false (.vcore 1) = false ∧
      thresholdMoves (sampled 64 695 6 5) false (.vcore 1) = true ∧
        shed (shedChange [.vcore 1] false 695 1800 3300 s) = 1) := by
  decide +kernel

/-! ## Resets, the time base and the step -/

/-- The device as power-on reset releases it into BOOT, with nothing installed. -/
def held (h : Hold) : State := { up 4 with tb := { TimeBase.init with hold := h } }

theorem witness_ResetAndTimeBaseCommandsRun : alive (up 4) = true ∧
    (masterAddr f0 0x30090000) % 4 = 0 ∧ (spineAllows (up 4) f0 0x30090000 4 true &&
      writable (up 4) 0x30090000) = true ∧
    isRegister 0x30090000 = true ∧ spineAllows (up 4) (e3 .user) 0x30090000 4 true = false ∧
    (held .por).tb.hold = .por ∧ (up 4).tb.hold ≠ .por ∧ mode (up 4) ≠ 0 ∧ (held .resetN).tb.hold = .resetN ∧
    (up 0).tb.hold = .none ∧ mode (up 0) = 0 ∧ alive (up 1) = true ∧ mode (up 1) = 1 ∧ (up 1).frm.recovery = false ∧
    (updFrm (fun x => { x with image := 0 }) (up 1)).frm.image < 3 ∧ mode (up 2) = 2 ∧ (up 2).tb.factoryBlown = false ∧
    flag (up 4) Reg.TB_STAT Fld.TB_STAT_HOLD = false ∧ flag (refclkLost (up 4)) Reg.TB_STAT Fld.TB_STAT_HOLD = true ∧
    (up 4).nv.op = .none ∧ (up 4).otp.op = 0 := by decide +kernel

theorem witness_ResetAndTimeBaseCommandsRun_releases :
    (⟨true, 2000000, true⟩ : Release).resetN = true ∧ (⟨.vcore, 540, 1000⟩ : Sag).mv.toNat < 550 ∧
    (⟨.vaux, 2850, 0⟩ : Sag).mv.toNat < 2900 ∧ mode (up 7) = 7 := by decide +kernel

theorem witness_ResetAndTimeBaseCommandsRun_time :
    (let s := updTb (fun b => { b with hrs := 3600 }) (served 4);
      foremanServes s = true ∧ s.nv.op = .none ∧ hoursDue s = true) ∧
    mayReach f0 (Reg.TB_QTICK 5) true = true ∧ (List.range 32).any (railUses (up 4) 5) = false ∧
    (List.range 32).any (railUses (railIn 2) (homeOf 0)) = true ∧
    periodDue (qtickWrite 5 2 { up 4 with tb := { (up 4).tb with ns := 100 } }) 5 = false ∧
    (let s := qtickWrite 5 2 { up 4 with tb := { (up 4).tb with ns := 100 } };
      periodDue { s with tb := { s.tb with ns := 128 } } 5 = true) := by decide +kernel

theorem witness_AStepRunsTheFrontCommand : (up 4).pending = [] ∧ (served 4).frm.act.kind = 0 ∧
    (served 4).host.pmb = [] ∧ alive (up 4) = true ∧ alive (held .resetN) = false := by
  decide +kernel

theorem witness_StepKeepsMemoryAndQueue : Memory.wf { up 4 with mem := [(3, 1#8), (9, 2#8)], pending := [.resetNFall] } = true ∧
    Memory.wf { up 4 with mem := [(9, 2#8), (3, 1#8)] } = false ∧ Memory.wf { up 4 with mem := [(3, 0#8)] } = false :=
      by
  decide +kernel

theorem witness_StepKeepsMemoryAndQueue_step :
    step { up 4 with mem := [(3, 1#8)], pending := [.resetNFall] } = .next (heldIn .resetN { up 4 with mem := [(3, 1#8)] }) :=
  congrArg Host.Outcome.next (if_pos (by decide +kernel))

end Sys2Proof.Tests
end

section
/-! Every command of the device keeps the sound states: what a command answers is its shared form around operations
that the laws of Laws/Keep<Module>.lean speak of, so one line per command names the operations' laws. -/

namespace Sys2Proof.Machine

/-! ## Sound answers -/

/-- The next state that o answers with, if it answers with one, is sound. -/
def SoundOut (p : Kept) (o : Out) : Prop := ∀ t, o = .next t → Sound p t

theorem next_sound {p s} (h : Sound p s) : SoundOut p (.next s) := fun _ e => Host.Outcome.next.inj e ▸ h

theorem soundOut_ite {p} {c : Prop} [Decidable c] {a b : Out} (ha : SoundOut p a) (hb : SoundOut p b) :
    SoundOut p (if c then a else b) := by split <;> assumption

/-- A conditional effect needs to be sound only where its condition holds. -/
theorem act_sound_of {p g s t} (h : Sound p s) (ht : g = true → Sound p t) : SoundOut p (act g s t) := by
  refine next_sound ?_
  split
  · exact ht ‹_›
  · exact h

theorem act_sound {p g s t} (h : Sound p s) (ht : Sound p t) : SoundOut p (act g s t) := act_sound_of h fun _ => ht

theorem live_sound_of {p g s t} (h : Sound p s) (ht : g = true → Sound p t) : SoundOut p (live g s t) :=
  act_sound_of h fun e => ht (Bool.and_eq_true_iff.mp e).2

theorem live_sound {p g s t} (h : Sound p s) (ht : Sound p t) : SoundOut p (live g s t) := act_sound h ht

/-! ## The shared forms of a command -/

theorem regWriteBy_sound {p m a s t} (h : Sound p s) (ht : Sound p t) : SoundOut p (regWriteBy m a s t) :=
  live_sound h (ok_ite ht (refuseAccess_ok _ _ _ _ h))

theorem regReadBy_sound {p m a s t} (h : Sound p s) (ht : Sound p t) : SoundOut p (regReadBy m a s t) :=
  live_sound h (ok_ite ht (refuseAccess_ok _ _ _ _ h))

theorem ectlBy_sound {p m a s t} (h : Sound p s) (ht : Sound p t) : SoundOut p (ectlBy m a s t) :=
  live_sound h (ok_ite ht (refuseAccess_ok _ _ _ _ h))

theorem lyheuf_sound {p x op s t} (h : Sound p s) (ht : Sound p t) : SoundOut p (lyheuf x op s t) := act_sound h ht

theorem lyheufSized_sound {p x op n s f} (h : Sound p s) (hf : ∀ l, Sound p (f l s)) :
    SoundOut p (lyheufSized x op n s f) := act_sound h (ok_ite (hf _) (respond_ok _ _ _ _ h))

theorem i3c_sound {p g s t} (h : Sound p s) (ht : Sound p t) : SoundOut p (i3c g s t) :=
  act_sound h (ok_ite ht (nack_ok _ h))

theorem ccc_sound {p g s t} (h : Sound p s) (ht : Sound p t) : SoundOut p (ccc g s t) :=
  act_sound h (updHost_ok _ _ (ok_ite ht (nack_ok _ h)))

theorem smbWrite_sound {p g pec s t} (h : Sound p s) (ht : Sound p t) : SoundOut p (smbWrite g pec s t) :=
  act_sound h (ok_ite ht (nack_ok _ h))

theorem pmbRead_sound {p code bs s} (h : Sound p s) : SoundOut p (pmbRead code bs s) :=
  act_sound h (answerSmb_ok _ _ _ h)

theorem pmbWrite_sound {p pec s t} (h : Sound p s) (ht : Sound p t) : SoundOut p (pmbWrite pec s t) :=
  smbWrite_sound h (ok_ite (answer_ok _ _ (cmlFault_ok _ _ h)) (ok_ite (answer_ok _ _ ht) (nack_ok _ h)))

theorem spiWrite_sound {p a bs s} (h : Sound p s) : SoundOut p (spiWrite a bs s) :=
  act_sound h (answer_ok _ _ (hostWrite_ok _ _ _ _ h))

theorem spiRead_sound {p a n s} (h : Sound p s) : SoundOut p (spiRead a n s) :=
  act_sound h (answer_ok _ _ (hostRead_ok _ _ _ _ h))

theorem mctp_sound {p bus s t} (h : Sound p s) (ht : Sound p t) : SoundOut p (mctp bus s t) := by
  cases bus with
  | i3c => exact act_sound h ht
  | smbus pec => exact smbWrite_sound h ht

/-! ## Commands that look into the state before they act -/

theorem execControlTick_sound {p s} (q : Fin 16) (h : Sound p s) : SoundOut p (execControlTick q s) := by
  have h' := comparatorTicks_ok q (now s + 1) s h
  refine live_sound h ?_
  split
  · exact controlTick_ok _ _ _ h'
  · exact h'

theorem execCoefSwapApply_sound {p s} (r : Fin 32) (h : Sound p s) : SoundOut p (execCoefSwapApply r s) := by
  unfold execCoefSwapApply
  split
  · exact live_sound h (coefSwapApply_ok _ _ _ h)
  · exact next_sound h

theorem execRailEntryApply_sound {p s} (r : Fin 32) (h : Sound p s) : SoundOut p (execRailEntryApply r s) := by
  unfold execRailEntryApply
  split
  · exact live_sound h (entryApply_ok _ _ _ _ h)
  · exact next_sound h

theorem execHintDelivery_sound {p s} (v : Fin 16) (h : Sound p s) : SoundOut p (execHintDelivery v s) := by
  unfold execHintDelivery
  split
  · exact live_sound h (deliverHint_ok _ _ (updVarip_ok _ _ _ h))
  · exact next_sound h

theorem execUplinkDeadline_sound {p s} (n : Fin 256) (h : Sound p s) : SoundOut p (execUplinkDeadline n s) := by
  unfold execUplinkDeadline
  split
  · exact live_sound h (uplinkDeadline_ok _ _ _ h)
  · exact next_sound h

theorem execEvtPinTransition_sound {p s} (q : Fin 16) (x : Fin 32) (level : Bool) (h : Sound p s) :
    SoundOut p (execEvtPinTransition q x level s) := by
  unfold execEvtPinTransition
  split
  · exact live_sound h (takeComing_ok _ _ _ h)
  · exact live_sound h (pinTransition_ok _ _ _ _ h)

theorem execRecorderCommitDone_sound {p s} (h : Sound p s) : SoundOut p (execRecorderCommitDone s) := by
  unfold execRecorderCommitDone
  split
  · exact live_sound h (finishCommit_ok _ _ h)
  · exact next_sound h

theorem execPageRetireDone_sound {p s} (h : Sound p s) : SoundOut p (execPageRetireDone s) := by
  unfold execPageRetireDone
  split
  · exact live_sound h (resume_ok _ (retireDone_ok _ _ _ h))
  · exact next_sound h

theorem execBankResetDone_sound {p s} (h : Sound p s) : SoundOut p (execBankResetDone s) := by
  unfold execBankResetDone
  split
  · exact live_sound h (resume_ok _ (bankResetDone_ok _ _ _ h))
  · exact next_sound h

theorem execNvAppendDone_sound {p s} (ok : Bool) (h : Sound p s) : SoundOut p (execNvAppendDone ok s) := by
  unfold execNvAppendDone
  split
  · exact live_sound h (nvEnd_ok _ _ (programFrom_ok _ _ _ _ h))
  · exact next_sound h

theorem execNvSectorDone_sound {p s} (ok : Bool) (h : Sound p s) : SoundOut p (execNvSectorDone ok s) := by
  unfold execNvSectorDone
  split
  · exact live_sound h (sectorDone_ok _ _ _ _ _ h)
  · exact live_sound h (sectorDone_ok _ _ _ _ _ h)
  · exact next_sound h

theorem execStaticWearLevel_sound {p s} (h : Sound p s) : SoundOut p (execStaticWearLevel s) := by
  unfold execStaticWearLevel
  split
  · exact live_sound h (remap_ok _ _ _ (copySector_ok _ _ _ h))
  · exact next_sound h

theorem execNvmRefresh_sound {p s} (sect : BitVec 11) (h : Sound p s) : SoundOut p (execNvmRefresh sect s) := by
  unfold execNvmRefresh
  split
  · exact live_sound h (nvRefresh_ok _ _ _ _ h)
  · exact next_sound h

theorem execNvmWindowRead_sound {p s} (m : Master) (a : BitVec 32) (flips : Fin 4) (h : Sound p s) :
    SoundOut p (execNvmWindowRead m a flips s) := by
  have hr := nvWindowRead_ok (masterOf s m) a.toNat flips.val s h
  refine live_sound h (ok_ite ?_ (refuseAccess_ok _ _ _ _ h))
  split
  · exact ok_pair ‹_› hr
  · exact busError_ok _ _ _ _ _ (ok_pair ‹_› hr)

theorem execRailGet_sound {p s} (x : Fin 16) (h : Sound p s) : SoundOut p (execRailGet x s) := by
  refine lyheufSized_sound h fun l => ?_
  split
  · exact respond_ok _ _ _ _ h
  · exact respond_ok _ _ _ _ h

theorem execFolioDir_sound {p s} (x : Fin 16) (h : Sound p s) : SoundOut p (execFolioDir x s) := by
  refine lyheufSized_sound h fun l => ?_
  exact ok_ite (respond_ok _ _ _ _ h) (ok_ite (respond_ok _ _ _ _ h) (respond_ok _ _ _ _ h))

theorem execGetCert_sound {p s} (x : Fin 16) (h : Sound p s) : SoundOut p (execGetCert x s) := by
  refine lyheufSized_sound h fun l => ?_
  exact ok_ite (respondPart_ok _ _ _ _ (nvTouch_ok _ _ _ _ h)) (respond_ok _ _ _ _ h)

theorem execPage_sound {p s} (w : Option (BitVec 8)) (pec : Pec) (h : Sound p s) : SoundOut p (execPage w pec s) := by
  cases w with
  | none => exact pmbRead_sound h
  | some v => exact smbWrite_sound h (answer_ok _ _ (ok_ite (updHost_ok _ _ h) (cmlFault_ok _ _ h)))

theorem execOperation_sound {p s} (w : Option (BitVec 8)) (pec : Pec) (h : Sound p s) :
    SoundOut p (execOperation w pec s) := by
  cases w with
  | none => exact pmbRead_sound h
  | some v => exact pmbWrite_sound h (ok_ite (pmbAsk_ok _ _ h) (ok_ite (pmbAsk_ok _ _ h) (cmlFault_ok _ _ h)))

theorem execVoutCommand_sound {p s} (w : Option (BitVec 16)) (pec : Pec) (h : Sound p s) :
    SoundOut p (execVoutCommand w pec s) := by
  cases w with
  | none => exact pmbRead_sound h
  | some v => exact pmbWrite_sound h (ok_ite (cmlFault_ok _ _ h) (pmbAsk_ok _ _ h))

theorem execFaultLogAppend_sound {p s} (h : Sound p s) : SoundOut p (execFaultLogAppend s) := by
  unfold execFaultLogAppend
  split
  · exact live_sound h (appendRecord_ok _ _ h)
  · exact next_sound h

/-! ## Every command -/

/-- Whatever a command answers with is sound where the state before it is. -/
theorem exec_sound {p} (c : Instr) (s : State) (h : Sound p s) : SoundOut p (exec c s) := by
  cases c with
  -- Resets and the time base
  | regWrite m a v => exact live_sound h (masterWrite_ok _ _ _ _ _ h)
  | powerOnResetRelease vcore vio vaux refclk =>
    have hboot := firstSamples_ok vcore.toNat vio.toNat vaux.toNat _ (coldBoot_ok _ h)
    exact act_sound h (ok_ite hboot (refclkLost_ok _ hboot))
  | brownOut supply => exact act_sound h (heldIn_ok _ _ h)
  | resetNFall => exact live_sound h (heldIn_ok _ _ h)
  | resetNRelease vcore vio vaux => exact act_sound h (firstSamples_ok _ _ _ _ (warmBoot_ok _ h))
  | wake => exact act_sound h (heldIn_ok _ _ h)
  | bootComplete => exact live_sound h (bootComplete_ok _ h)
  | jtagFactoryRequest => exact live_sound h (updTb_ok _ _ (ok_ite (drivePins_ok _ (enterMode_ok _ _ h)) h))
  | refclkLoss => exact live_sound h (refclkLost_ok _ h)
  | refclkRestored => exact live_sound h (refclkBack_ok _ h)
  | hoursCommit => exact live_sound h (commitHours_ok _ h)
  | tbQtickWrite m q v => exact regWriteBy_sound h (qtickWrite_ok _ _ _ h)
  | qtickPeriodApply q => exact live_sound h (applyPeriod_ok _ _ h)
  -- Rails and the voltage loop
  | controlTick q => exact execControlTick_sound _ h
  | pgRise r => exact live_sound h (pgRise_ok _ _ h)
  | pgFall r => exact live_sound h (pgFall_ok _ _ h)
  | phaseDrop r => exact live_sound h (phaseDrop_ok _ _ h)
  | rotationTick r => exact live_sound h (rotation_ok _ _ h)
  | wearIncrement r j => exact live_sound h (wearCount_ok _ _ _ h)
  | engineDeadlineExpiry r => exact live_sound h (missDeadline_ok _ _ h)
  | eilFallback r => exact live_sound h (report_ok _ _ (raiseFlag_ok _ _ _ (endEil_ok _ _ h)))
  | luLmbTag m r v | luLmbNop m r v => exact regWriteBy_sound h (submit_ok _ _ _ _ h)
  | coefSwap m r v => exact regWriteBy_sound h (cselWrite_ok _ _ _ h)
  | coefSwapApply r => exact execCoefSwapApply_sound _ h
  | rtCommit m r | rtEnable m r | rtDisable m r | rtClear m r | rtClrcnt m r =>
    exact regWriteBy_sound h (rtCommand_ok _ _ _ _ h)
  | supplyMonitorCmdTaken => exact live_sound h (takeWaiting_ok _ h)
  | railEntryApply r => exact execRailEntryApply_sound _ h
  -- The transient landing
  | burstSwFire m r v => exact regWriteBy_sound h (ok_ite (burstFire_ok _ _ h) h)
  | burstStart r => exact live_sound h (burstStart_ok _ _ h)
  | burstHoldoffEnd r => exact live_sound h (setFlag_ok _ _ _ _ h)
  | hintDelivery v => exact execHintDelivery_sound _ h
  | outcomeRecord r => exact live_sound h (forAll_ok _ (fun j s h => writeOutcome_ok _ j s h) h)
  | imTrustWrite m r t v => exact regWriteBy_sound h (setTrust_ok _ _ _ _ h)
  | imPartWrite m r t v => exact regWriteBy_sound h (partWrite_ok _ _ _ _ h)
  | imCtrlWrite m r v => exact regWriteBy_sound h (imCtrlWrite_ok _ _ _ h)
  | imClrcnt m r => exact regWriteBy_sound h (imClrcnt_ok _ _ h)
  | burstClrcnt m r => exact regWriteBy_sound h (burstClrcnt_ok _ _ h)
  -- PWM channels
  | loadall m q mask => exact regWriteBy_sound h (loadAll_ok _ _ _ h)
  | immediateLoad m q mask => exact regWriteBy_sound h (immediateLoad_ok _ _ _ h)
  | perStgWrite m n v => exact regWriteBy_sound h (perStage_ok _ _ _ h)
  | onStgWrite m n v => exact regWriteBy_sound h (onStage_ok _ _ _ h)
  | ofsStgWrite m n v => exact regWriteBy_sound h (ofsStage_ok _ _ _ h)
  | modeWrite m n v => exact regWriteBy_sound h (cfgWrite_ok _ _ _ h)
  | channelFirstPeriod n => exact live_sound h (firstPeriod_ok _ _ h)
  | pwmReload n => exact live_sound h (reloadAt_ok _ _ _ h)
  | guardOnEdge n => exact live_sound_of h fun due => guardEdge_ok _ _ due h
  | tlrefCommit m q v => exact regWriteBy_sound h (tlrefCommit_ok _ _ _ h)
  | dtaWrite m n v => exact regWriteBy_sound h (dtaWrite_ok _ _ _ h)
  | tripAssert n => exact live_sound h (tripChan_ok _ _ _ h)
  | tripClear m n => exact regWriteBy_sound h (tripClear_ok _ _ h)
  | loffClear m n => exact regWriteBy_sound h (loffClear_ok _ _ h)
  | rcntQuietReset n => exact live_sound h (setFld_ok _ _ _ _ h)
  | calMapComplete n g ok resid => exact live_sound h (calMap_ok _ _ _ _ _ h)
  | dtoppClear m n | tcntClear m n => exact regWriteBy_sound h (wr_ok _ _ _ h)
  -- Sensing
  | seqCommit m q => exact regWriteBy_sound h (seqCommit_ok _ _ h)
  | seqTableActivate q => exact live_sound h (activateTables_ok _ _ h)
  | fcfgWrite m q c f v => exact regWriteBy_sound h (fcfgWrite_ok _ _ _ _ _ h)
  | filterSettle q c f => exact live_sound h (settle_ok _ _ _ _ h)
  | sliceEstimateComplete q c e0 e1 e2 e3 => exact live_sound h (takeEstimates_ok _ _ _ _ h)
  | sliceEstimateApply q c => exact live_sound h (applyEstimates_ok _ _ _ h)
  | adSretWrite m q c v => exact regWriteBy_sound h (sretWrite_ok _ _ _ _ h)
  | sliceRetire q c => exact live_sound h (retireAsked_ok _ _ _ h)
  | crossCheck q => exact live_sound h (crossCheck_ok _ _ h)
  | holdsClear m q c => exact regWriteBy_sound h (wr_ok _ _ _ h)
  | wcCfgWrite m q c v => exact regWriteBy_sound h (wcCfgWrite_ok _ _ _ _ h)
  | wcThresholdCross q c x => exact live_sound h (wcCross_ok _ _ _ _ (takeTicks_ok _ _ _ _ h))
  | wcClearLo m q c | wcClearHi m q c => exact regWriteBy_sound h (wcClear_ok _ _ _ _ h)
  | wcStuck q c upper => exact live_sound h (markStuck_ok _ _ _ _ h)
  | wcImpl q c => exact live_sound h (markImpl_ok _ _ _ h)
  | wcBoundWrite m q c upper v => exact regWriteBy_sound h (boundWrite_ok _ _ _ _ _ h)
  | wcToppClear m q c => exact regWriteBy_sound h (toppClear_ok _ _ _ h)
  | wcCntClear m q c => exact regWriteBy_sound h (wr_ok _ _ _ h)
  | ocpstatClear m n => exact regWriteBy_sound h (setFld_ok _ _ _ _ h)
  | ocpcntClear m n => exact regWriteBy_sound h (wr_ok _ _ _ h)
  -- Phase ports and stage buses
  | uplinkFrame n w => exact live_sound h (uplinkBits_ok _ _ _ h)
  | uplinkDeadline n => exact execUplinkDeadline_sound _ h
  | resyncSuccess n => exact live_sound h (resyncSuccess_ok _ _ h)
  | resyncAttemptFail n => exact live_sound h (attemptFail_ok _ _ h)
  | resyncRetryStart n => exact live_sound h (retryStart_ok _ _ h)
  | portVacated n => exact live_sound h (toIdent_ok _ _ (setMgmt_ok _ _ _ h))
  | isolate m n => exact regWriteBy_sound h (ppIsolate_ok _ _ h)
  | unisolate m n => exact regWriteBy_sound h (ppUnisolate_ok _ _ h)
  | resync m n => exact regWriteBy_sound h (ppResync_ok _ _ h)
  | rebind m n => exact regWriteBy_sound h (ppRebind_ok _ _ h)
  | ppCounterClear m n k => exact regWriteBy_sound h (wr_ok _ _ _ h)
  | hotJoin q pid bcr dcr => exact live_sound h (hotJoin_ok _ _ h)
  | bindingRound q reports => exact live_sound h (bindingRound_ok _ _ _ h)
  | stageBindComplete n => exact live_sound h (bindComplete_ok _ _ h)
  | bindAlignTimeout n => exact live_sound h (withPort_ok _ (fun _ h => updPort_ok _ _ _ h) h)
  | stageIbi q temp a cause => exact live_sound h (stageIbi_ok _ _ _ _ _ h)
  | sbXferRead m q v | sbXferWrite m q v => exact regWriteBy_sound h (xcmdWrite_ok _ _ _ h)
  | sbXferComplete q own ok retries d0 d1 d2 d3 =>
    exact live_sound h (ok_ite (ownComplete_ok _ _ _ _ h) (xferComplete_ok _ _ _ _ h))
  | sbIbiqRead m q => exact regReadBy_sound h (ibiqRead_ok _ _ h)
  | sbIbicntClear m q => exact regWriteBy_sound h (wr_ok _ _ _ h)
  -- Varip ports
  | varipCycle v => exact live_sound h (varipCycle_ok _ _ h)
  | hintSlot v ix w => exact live_sound h (hintSlot_ok _ _ _ _ h)
  | joinWord v w => exact live_sound h (joinWord_ok _ _ _ h)
  | vbReopen m v ix => exact regWriteBy_sound h (vbReopen_ok _ _ _ h)
  | vbEvict m v ix => exact regWriteBy_sound h (vbEvict_ok _ _ _ h)
  | vbCfgWrite m p v => exact regWriteBy_sound h (vbCfgWrite_ok _ _ _ h)
  | vbCounterClear m v k => exact regWriteBy_sound h (wr_ok _ _ _ h)
  -- Engines
  | nop e | mov e | neg e | abs e | not e | add e | adds e | sub e | subs e | and e | or e | xor e | andn e
  | shl e | shr e | sar e | shls e | ror e | min e | max e | minu e | maxu e | slt e | sltu e | mullo e | cmp e
  | tst e | addi e | andi e | ori e | xori e | movi e | shli e | shri e | sari e | cmpi e | movl e | movh e
  | sats e | stw e | sth e | stb e | mul e | mac e | msu e | mulu e | macu e | mfp e | mtp e | divs e | divu e
  | divq e | rems e | remu e | sqrtu e | sqrtq e | b e | call e | callw e | jr e | callr e | ret e | retw e
  | rep e | repi e | mfs e | mts e | fence e | flushI e | wait e | halt e | trap e | retx e | switch e
  | savectx e | loadctx e =>
    exact live_sound h (engineStep_ok _ _ _ _ h)
  | ldw e u | ldh e u | ldhu e u | ldb e u | ldbu e u => exact live_sound h (engineStep_ok _ _ _ _ h)
  | longOpComplete e => exact live_sound h (longComplete_ok _ _ h)
  | loadDataReturn e => exact live_sound h (loadReturn_ok _ _ h)
  | storeAck e => exact live_sound h (storeDone_ok _ _ h)
  | waitWake e => exact live_sound h (wakeEngine_ok _ _ h)
  | interruptTaken e => exact live_sound h (interruptTaken_ok _ _ h)
  | bdRgnWrite m e r w v => exact ectlBy_sound h (plainWrite_ok _ _ _ h)
  | bdEctlWrite m e v => exact ectlBy_sound h (ectlWrite_ok _ _ _ h)
  | bdSigWrite m e v => exact ectlBy_sound h (sigWrite_ok _ _ _ _ h)
  -- Bindings
  | form m q b | split m q b => exact regWriteBy_sound h (bdCommand_ok _ _ _ _ _ _ h)
  | join m q b ix => exact regWriteBy_sound h (bdCommand_ok _ _ _ _ _ _ h)
  | handover m q b arg => exact regWriteBy_sound h (bdCommand_ok _ _ _ _ _ _ h)
  | release m q b | bdClrcnt m q b => exact regWriteBy_sound h (bdCommand_ok _ _ _ _ _ _ h)
  | commitBoundary q b => exact live_sound h (boundaryAct_ok _ _ _ h)
  | recordCompare q b d0 d1 d2 kind => exact live_sound h (compareRecords_ok _ _ _ _ _ _ h)
  | stateCopyPass1Done q b => exact live_sound h (updBind_ok _ _ _ _ h)
  | checkerAlarm q u => exact live_sound h (checkerAlarm_ok _ _ _ h)
  | replayParityError q b both => exact live_sound h (ok_ite (bindOut_ok _ _ _ h) (moveCheck_ok _ _ _ h))
  | checkerUnitFreed q b => exact live_sound h (reformBinding_ok _ _ _ h)
  | bdEvqRead m q => exact regReadBy_sound h (evqRead_ok _ _ h)
  | bdCfgWrite m q v => exact regWriteBy_sound h (bdCfgWrite_ok _ _ _ h)
  -- Timers and EVT pins
  | timerZero q m => exact live_sound h (timerZero_ok _ _ _ h)
  | timerCompare q m => exact live_sound h (timerCompare_ok _ _ _ h)
  | tmLoad m q t => exact regWriteBy_sound h (tmLoad_ok _ _ _ h)
  | tmCapture m q t => exact regWriteBy_sound h (capture1_ok _ _ _ _ h)
  | tmCappopRead m q t => exact regReadBy_sound h (capPop_ok _ _ _ h)
  | tmCmpsetCommit m q t v => exact regWriteBy_sound h (cmpsetCommit_ok _ _ _ _ h)
  | tmRldCommit m q t v => exact regWriteBy_sound h (rldCommit_ok _ _ _ _ h)
  | evtPinTransition q x level => exact execEvtPinTransition_sound _ _ _ h
  | evtResolveWindowEnd q x => exact live_sound h (resolveChange_ok _ _ _ h)
  | evtAcceptedEdge q x => exact live_sound h (acceptEdge_ok _ _ _ h)
  | evtStuck q x => exact live_sound h (report_ok _ _ (updEvtIn_ok _ _ _ _ (raiseFlag_ok _ _ _ h)))
  | evtOutputChange q o => exact live_sound h (outputChange_ok _ _ _ h)
  | evtPulseEnd q o => exact live_sound h (drivePin_ok _ _ _ _ (updEvtOut_ok _ _ _ _ h))
  | evtcntClear m q x => exact regWriteBy_sound h (wr_ok _ _ _ h)
  -- The event recorder
  | recorderSample c t => exact live_sound h (takeSample_ok _ _ _ h)
  | erCommit m | erHclr m | erXtclr m | erLclr m | erClrcnt m => exact regWriteBy_sound h (erCommand_ok _ _ h)
  | recorderAutoCommit => exact live_sound h (dueCommit_ok _ (updEr_ok _ _ h))
  | recorderCommitDone => exact execRecorderCommitDone_sound h
  -- Memories and NVM
  | scrubRead u => exact live_sound h (scrubRead_ok _ _ h)
  | mrRetire m k u | mrRowadd m k u => exact regWriteBy_sound h (mrCommand_ok _ _ _ _ _ h)
  | mrBrst m k mig => exact regWriteBy_sound h (mrCommand_ok _ _ _ _ _ h)
  | pageRetireDone => exact execPageRetireDone_sound h
  | bankResetDone => exact execBankResetDone_sound h
  | mrElogRead m => exact regReadBy_sound h (elogRead_ok _ h)
  | nvAppend m sect | nvSector m sect | nvErase m sect => exact regWriteBy_sound h (nvCommand_ok _ _ _ h)
  | nvAppendDone ok => exact execNvAppendDone_sound _ h
  | nvSectorDone ok => exact execNvSectorDone_sound _ h
  | backgroundEraseDone p ok => exact live_sound h (ok_ite (eraseSector_ok _ _ h) (retireSector_ok _ _ _ h))
  | staticWearLevel => exact execStaticWearLevel_sound h
  | nvmWindowRead m a flips => exact execNvmWindowRead_sound _ _ _ h
  | nvmRefresh sect => exact execNvmRefresh_sound _ h
  | nvEccClear m => exact regWriteBy_sound h (wr_ok _ _ _ h)
  -- The mailbox
  | mbDoorbell v ring => exact act_sound h (ringAll_ok _ _ _ h)
  | mbFreqClear m mask => exact regWriteBy_sound h (freqWrite_ok _ _ h)
  | mbFpost m x => exact regWriteBy_sound h (ok_ite (updateOrigin_ok _ (postSession_ok _ _ h)) h)
  | mbHrdyClear v mask => exact act_sound h (forAll_ok _ (fun x s h => hrdyClear_ok x s h) h)
  -- Lyheuf commands
  | getInfo x => exact lyheuf_sound h (respond_ok _ _ _ _ h)
  | getStatus x => exact lyheufSized_sound h fun _ => respond_ok _ _ _ _ h
  | setMode x => exact soundOut_ite (next_sound h) (lyheufSized_sound h fun _ => setModeTo_ok _ _ _ h)
  | sessionOpen x => exact lyheuf_sound h (openSession_ok _ _ h)
  | sessionClose x => exact lyheuf_sound h (updSess_ok _ _ _ (respond_ok _ _ _ _ h))
  | getNonce x => exact lyheuf_sound h (giveNonce_ok _ _ h)
  | claimOwner x => exact lyheuf_sound h (claimOwner_ok _ _ _ h)
  | setHostpol x pmbw haen => exact lyheuf_sound h (respond_ok _ _ _ _ (hostPolicy_ok _ _ _ h))
  | railGet x => exact execRailGet_sound _ h
  | railSet x => exact soundOut_ite (lyheuf_sound h (railSet_ok _ _ _ h)) (next_sound h)
  | railEnable x => exact soundOut_ite (lyheufSized_sound h fun _ => railAnswer_ok _ _ hostEnable_ok h) (next_sound h)
  | railDisable x =>
    exact soundOut_ite (lyheufSized_sound h fun _ => railAnswer_ok _ _ hostDisable_ok h) (next_sound h)
  | railClear x => exact soundOut_ite (lyheufSized_sound h fun _ => railClear_ok _ _ _ h) (next_sound h)
  | railPolicy x r y => exact soundOut_ite (lyheuf_sound h (railPolicy_ok _ _ _ _ h)) (next_sound h)
  | phaseGet x n => exact lyheuf_sound h (respond_ok _ _ _ _ h)
  | phaseCmd x op n => exact lyheuf_sound h (phaseCmd_ok _ _ _ _ h)
  | engineGet x e => exact lyheuf_sound h (respond_ok _ _ _ _ h)
  | bindingCmd x q op b ix arg => exact lyheuf_sound h (bindingCmd_ok _ _ _ _ _ _ _ h)
  | folioLoad x => exact soundOut_ite (next_sound h) (lyheuf_sound h (folioLoad_ok _ _ _ h))
  | folioVerify x => exact soundOut_ite (next_sound h) (lyheufSized_sound h fun _ => folioVerify_ok _ _ _ h)
  | folioInstall x ok => exact soundOut_ite (lyheufSized_sound h fun _ => folioInstall_ok _ _ _ h) (next_sound h)
  | folioActivate x => exact soundOut_ite (next_sound h) (lyheufSized_sound h fun _ => folioActivate_ok _ _ _ h)
  | folioConfirm x => exact lyheufSized_sound h fun _ => folioConfirm_ok _ _ _ h
  | folioDir x => exact execFolioDir_sound _ h
  | telemRead x qs tj => exact lyheuf_sound h (ok_ite (respond_ok _ _ _ _ h) (respond_ok _ _ _ _ h))
  | telemStream x qs us => exact lyheuf_sound h (telemStream_ok _ _ _ _ h)
  | telemStreamRecord tj => exact live_sound h (streamRecords_ok _ _ h)
  | recRead x off n => exact soundOut_ite (next_sound h) (lyheuf_sound h (recRead_ok _ _ _ _ h))
  | recCmd x op => exact lyheuf_sound h (respond_ok _ _ _ _ (erCommand_ok _ _ h))
  | faultLog x => exact lyheufSized_sound h fun _ => faultLog_ok _ _ _ h
  | faultClear x => exact soundOut_ite (next_sound h) (lyheuf_sound h (respond_ok _ _ _ _ (faultClear_ok _ h)))
  | attest x => exact lyheufSized_sound h fun _ => attest_ok _ _ _ h
  | getCert x => exact execGetCert_sound _ h
  | abort x => exact soundOut_ite (next_sound h) (lyheuf_sound h (firmwareAbort_ok _ _ _ h))
  | sessionIdleTimeout x => exact live_sound h (ok_ite (updSess_ok _ _ _ h) (freeSession_ok _ _ h))
  | hwabortSession v ix arg | hwabortSupervision v ix arg | hwabortEngine v ix arg | hwabortBinding v ix arg
  | hwabortStageBus v ix arg | hwabortFolio v ix arg | hwabortForeman v ix arg =>
    exact act_sound h (hwAbort_ok _ _ _ _ h)
  | hwAbortComplete => exact live_sound h (hwAbortDone_ok _ h)
  | mbCntClear m => exact regWriteBy_sound h (wr_ok _ _ _ h)
  -- Host transports
  | i3cPrivateWrite bs => exact soundOut_ite (next_sound h) (i3c_sound h (privateWrite_ok _ _ h))
  | i3cPrivateRead n => exact soundOut_ite (next_sound h) (i3c_sound h (privateRead_ok _ _ h))
  | cccEntdaa da => exact ccc_sound h (setDa_ok _ _ h)
  | cccSetdasa sa da => exact ccc_sound h (setDa_ok _ _ h)
  | cccSetnewda da new => exact ccc_sound h (setDa_ok _ _ h)
  | cccRstdaa => exact ccc_sound h (setDa_ok _ _ h)
  | cccEnec bits | cccDisec bits => exact ccc_sound h (setEvents_ok _ _ _ h)
  | cccGetpid | cccGetbcr | cccGetdcr => exact ccc_sound h (answer_ok _ _ h)
  | cccGetstatus => exact ccc_sound h (answer_ok _ _ (spend_ok _ h))
  | cccSetmwl n | cccSetmrl n => exact ccc_sound h (answer_ok _ _ (updHost_ok _ _ h))
  | cccGetmwl | cccGetmrl | cccGetmxds => exact ccc_sound h (answer_ok _ _ h)
  | cccEnthdr0 => exact i3c_sound h (answer_ok _ _ (updHost_ok _ _ h))
  | cccUnsupported code => exact act_sound h (nack_ok _ h)
  | mbxAddr bs pec => exact smbWrite_sound h (answer_ok _ _ (setHostAddr_ok _ _ _ h))
  | mbxDataWrite bs pec => exact soundOut_ite (next_sound h) (smbWrite_sound h (mbxWrite_ok _ _ h))
  | mbxDataRead n => exact soundOut_ite (next_sound h) (act_sound h (ok_ite (mbxRead_ok _ _ h) (nack_ok _ h)))
  | alertResponse => exact act_sound h (ok_ite (answer_ok _ _ (updHost_ok _ _ h)) (nack_ok _ h))
  | spiWrite a bs => exact spiWrite_sound h
  | spiRead a n => exact spiRead_sound h
  | spiQuadWrite a bs => exact spiWrite_sound h
  | spiQuadRead a n => exact spiRead_sound h
  | spiStatus => exact act_sound h (answer_ok _ _ h)
  | setEndpointId bus eid => exact mctp_sound h (ok_ite (answer_ok _ _ h) (answer_ok _ _ (setFld_ok _ _ _ _ h)))
  | getEndpointId bus | getMctpVersionSupport bus | getMessageTypeSupport bus | getVendorDefinedMessageSupport bus =>
    exact mctp_sound h (answer_ok _ _ h)
  | mctpLyheufMessage bus endpoint bs => exact mctp_sound h (ok_ite (mctpLyheuf_ok _ _ _ _ h) h)
  -- PMBus
  | page w pec => exact execPage_sound _ _ h
  | operation w pec => exact execOperation_sound _ _ h
  | onOffConfig => exact pmbRead_sound h
  | clearFaults pec =>
    exact smbWrite_sound h (answer_ok _ _ (ok_ite (pmbAsk_ok _ _ (clearStatus_ok _ h)) (clearStatus_ok _ h)))
  | capability | voutMode => exact pmbRead_sound h
  | voutCommand w pec => exact execVoutCommand_sound _ _ h
  | statusByte | statusWord | statusVout | statusIout | statusTemperature | statusCml | readVin | readVout
  | readIout =>
    exact pmbRead_sound h
  | readTemperature1 => exact soundOut_ite (act_sound h (answerSmb_ok _ _ _ (spend_ok _ h))) (pmbRead_sound h)
  | pmbusRevision | mfrId | mfrModel | mfrRevision => exact pmbRead_sound h
  | pmbusInvalidCommand code write pec =>
    have hcml := cmlFault_ok 7 s h
    exact soundOut_ite (next_sound h) (soundOut_ite (smbWrite_sound h (answer_ok _ _ hcml))
      (act_sound h (nack_ok _ hcml)))
  -- The security block
  | scArbset m arg | scRevoke m arg => exact regWriteBy_sound h (scCommand_ok _ _ _ h)
  | scOwnerprog m => exact regWriteBy_sound h (scCommand_ok _ _ _ h)
  | scFuseDone ok => exact live_sound h (fuseDone_ok _ _ h)
  | scSha3 m | scVerify m | scSign m => exact regWriteBy_sound h (scJob_ok _ _ h)
  | scJobDone => exact live_sound h (jobDone_ok _ h)
  | scLockWrite m => exact regWriteBy_sound h (setFlag_ok _ _ _ _ h)
  -- Folios
  | trialExpiry t ix => exact live_sound h (activateLive_ok _ _ _ _ _ _ _ (foremanEvent_ok _ _ _ _ h))
  | shadowReady => exact live_sound h (handOver_ok _ h)
  | shadowReadyTimeout => exact live_sound h (dropShadow_ok _ h)
  | foremanUpdateDone => exact live_sound h (foremanUpdated_ok _ h)
  | foremanUpdateTimeout => exact live_sound h (foremanReverted_ok _ h)
  | lockoutRestart e => exact live_sound h (restartLocked_ok _ _ h)
  -- The fault manager
  | faultReport x => exact live_sound h (takeReport_ok _ _ h)
  | fmQRead m => exact regReadBy_sound h (queueRead_ok _ h)
  | faultLogAppend => exact execFaultLogAppend_sound h
  | fmAck m => exact regWriteBy_sound h (setFlag_ok _ _ _ _ h)
  | fmFecClr m => exact regWriteBy_sound h (fecClear_ok _ h)
  | fmQdropClear m | fmLogdropClear m => exact regWriteBy_sound h (wr_ok _ _ _ h)
  | fmWdog m => exact regWriteBy_sound h (wdogRestart_ok _ h)
  | watchdogExpiry => exact live_sound h (watchdog_ok _ h)
  | quietPeriodEnd => exact live_sound h (settleMode_ok _ (incFld_ok _ _ _ (setFlag_ok _ _ _ _ h)))
  | reconcilePass => exact live_sound h (reconcilePass_ok _ h)
  | fmTripGo m r => exact regWriteBy_sound h (pulseRail_ok _ _ h)
  | fmRecclr m => exact regWriteBy_sound h (wr_ok _ _ _ h)
  | fmAvclr m => exact regWriteBy_sound h (availClear_ok _ h)
  | fmDisqRead m => exact regReadBy_sound h (disqRead_ok _ h)
  | foremanCoreMismatch c => exact live_sound h (ok_ite (coreOdd_ok _ _ h) (foremanLost_ok _ _ h))
  -- Supplies
  | shedLevelChange ths crossed vcore vaux => exact live_sound h (shedChange_ok _ _ _ _ _ _ h)
  | seqStart m => exact regWriteBy_sound h (seqStart_ok _ h)
  | seqGroupStart => exact live_sound h (seqAdvance_ok _ h)
  | seqPgTimeout r => exact live_sound h (seqFail_ok _ _ h)
  | sequenceEnd => exact live_sound h (seqEnd_ok _ h)
  | shutdownGroupDisable => exact live_sound h (downGroup_ok _ h)
  | shutdownComplete => exact live_sound h (ok_ite (ok_ite (dueCommit_ok _ h) h) (shutdownEnd_ok _ h))
  | shed6AppendTimeout => exact live_sound h (shutdownEnd_ok _ h)
  | pwrgdInRise => exact live_sound h (ok_ite (autoStart_ok _ (setFlag_ok _ _ _ _ h)) (setFlag_ok _ _ _ _ h))
  | pwrgdInFall =>
    have hfall := incFld_ok Reg.SM_PGIN Fld.SM_PGIN_FALLS _ (setFlag_ok Reg.SM_PGIN Fld.SM_PGIN_LEVEL false s h)
    exact live_sound h (ok_ite (startShutdown_ok _ _ hfall) hfall)
  | speedMeasure u v => exact live_sound h (speedMeasure_ok _ _ _ h)
  | smSupplyMinReset m supply => exact regWriteBy_sound h (minReset_ok _ _ h)
  | smPginClear m => exact regWriteBy_sound h (setFld_ok _ _ _ _ h)
  -- Events of several units
  | aggregateSample q c code => exact live_sound h (aggregate_ok _ _ _ _ h)
  | rawStateFall q c x => exact live_sound h (wcFall_ok _ _ _ _ (takeTicks_ok _ _ _ _ h))
  | hsOffEdge n => exact live_sound h (hsEnd_ok _ _ h)
  | pass2Complete q b => exact live_sound h (pass2Done_ok _ _ _ h)
  | foremanServesAgain => exact live_sound h (updFm_ok _ _ (updFrm_ok _ _ (setFlag_ok _ _ _ _ h)))
  | tripLinePulseEnd r => exact live_sound h (endPulse_ok _ _ h)

/-- A step keeps a sound state sound, the queue apart, which it takes the front from. -/
theorem step_sound {mem pins otp} {s t : State} (h : Sound ⟨mem, pins, otp, s.pending⟩ s) (e : step s = .next t) :
    Sound ⟨mem, pins, otp, s.pending.tail⟩ t := by
  obtain ⟨hmem, hpins, hotp, -⟩ := h
  unfold step at e
  split at e
  case h_1 hq =>
    cases e
    exact idleTick_ok s ⟨hmem, hpins, hotp, by rw [hq]; rfl⟩
  case h_2 c rest hq =>
    have hrest : Sound ⟨mem, pins, otp, s.pending.tail⟩ { s with pending := rest } :=
      ⟨hmem, hpins, hotp, by rw [hq]; rfl⟩
    exact exec_sound c _ hrest t e

/-- Settles O4: the canonical memory and the queue are two of the things that every command and every idle tick keep of
a sound state. -/
theorem stepKeepsMemoryAndQueue : Obligations.StepKeepsMemoryAndQueue := by
  unfold Obligations.StepKeepsMemoryAndQueue
  intro s t hwf e
  obtain ⟨hmem, -, -, hqueue⟩ := step_sound (sound_of_wf hwf) e
  exact ⟨hmem rfl, hqueue⟩

end Sys2Proof.Machine
end

section
/-! What the resets, the time base and a register write leave alone, and what a field reads after a plain write. -/

namespace Sys2Proof.Machine

/-! ## What an operation leaves alone

An operation that changes some parts of the state only is said to keep the state beside those parts: the state with the
parts blanked. Such facts are equations, so runs of operations compose by rewriting. -/

/-- What each effect keeps, all of them keep. -/
theorem forAll_keeps {α β : Type} (g : State → β) (xs : List α) {f : α → State → State}
    (hf : ∀ x s, g (f x s) = g s) (s : State) : g (forAll xs f s) = g s := by
  unfold forAll
  induction xs generalizing s with
  | nil => rfl
  | cons x xs ih => exact (ih (f x s)).trans (hf x s)

theorem keepsRegs_forAll {α : Type} {as : List Nat} (xs : List α) {f : α → State → State}
    (hf : ∀ x ∈ xs, ∀ s, KeepsRegs as s (f x s)) (s : State) : KeepsRegs as s (forAll xs f s) := by
  induction xs generalizing s with
  | nil => exact keepsRegs_refl as s
  | cons x xs ih =>
    exact keepsRegs_trans (hf x (by simp) s) (ih (fun y hy => hf y (by simp [hy])) (f x s))

/-- The state beside the registers, the marks of their flags and the fault manager. -/
def besideFaults (s : State) : State := { s with regs := [], raised := [], fm := FaultMgr.init }

@[simp] theorem besideFaults_wr (a v : Nat) (s : State) : besideFaults (wr a v s) = besideFaults s := (rfl)
@[simp] theorem besideFaults_setFld (a : Nat) (f : Bits) (v : Nat) (s : State) :
    besideFaults (setFld a f v s) = besideFaults s := besideFaults_wr a _ s
@[simp] theorem besideFaults_setFlag (a : Nat) (f : Bits) (b : Bool) (s : State) :
    besideFaults (setFlag a f b s) = besideFaults s := besideFaults_setFld a f _ s
@[simp] theorem besideFaults_addFld (a : Nat) (f : Bits) (n : Nat) (s : State) :
    besideFaults (addFld a f n s) = besideFaults s := besideFaults_setFld a f _ s
@[simp] theorem besideFaults_incFld (a : Nat) (f : Bits) (s : State) :
    besideFaults (incFld a f s) = besideFaults s := besideFaults_addFld a f 1 s
@[simp] theorem besideFaults_orWord (a m : Nat) (s : State) : besideFaults (orWord a m s) = besideFaults s :=
  besideFaults_wr a _ s
@[simp] theorem besideFaults_clrWord (a m : Nat) (s : State) : besideFaults (clrWord a m s) = besideFaults s :=
  besideFaults_wr a _ s
@[simp] theorem besideFaults_raiseWord (a m : Nat) (s : State) : besideFaults (raiseWord a m s) = besideFaults s :=
  besideFaults_orWord a m _
@[simp] theorem besideFaults_updFm (f : FaultMgr → FaultMgr) (s : State) :
    besideFaults (updFm f s) = besideFaults s := (rfl)

@[simp] theorem besideFaults_enterMode (m : Nat) (s : State) : besideFaults (enterMode m s) = besideFaults s := by
  simp [enterMode]

@[simp] theorem besideFaults_raiseAlert (s : State) : besideFaults (raiseAlert s) = besideFaults s := by
  simp [raiseAlert]

@[simp] theorem besideFaults_setLine (q m : Nat) (s : State) : besideFaults (setLine q m s) = besideFaults s := by
  refine forAll_keeps besideFaults _ (fun i s => ?_) s
  split <;> simp [setLineOf]

@[simp] theorem besideFaults_countClass (cls : Nat) (s : State) : besideFaults (countClass cls s) = besideFaults s := by
  unfold countClass
  split <;> simp

@[simp] theorem besideFaults_fileRecord (rc : FaultRec) (s : State) :
    besideFaults (fileRecord rc s) = besideFaults s := by
  unfold fileRecord
  dsimp only
  split
  · simp
  · split <;> simp

@[simp] theorem besideFaults_capture (x : Rep) (f : FecInfo) (s : State) :
    besideFaults (capture x f s) = besideFaults s := by
  unfold capture
  split <;> simp

/-- A report changes the registers and the fault manager alone (R369 to R377). -/
@[simp] theorem besideFaults_report (x : Rep) (s : State) : besideFaults (report x s) = besideFaults s := by
  have hlines (s : State) : besideFaults (forAll (noticeQuires x) (fun q s => setLine q 19 s) s) = besideFaults s :=
    forAll_keeps besideFaults _ (fun q s => besideFaults_setLine q 19 s) s
  unfold report
  cases x.fec <;> dsimp only <;> split
  case none.isTrue | some.isTrue => simp
  case none.isFalse | some.isFalse => split <;> simp [hlines]

@[simp] theorem besideFaults_setCond (i : Nat) (b : Bool) (s : State) :
    besideFaults (setCond i b s) = besideFaults s := by
  unfold setCond settleMode
  (repeat' split) <;> simp

theorem mem_eq_of_besideFaults {s t : State} (h : besideFaults t = besideFaults s) : t.mem = s.mem := by
  have := congrArg State.mem h
  exact this

theorem tb_eq_of_besideFaults {s t : State} (h : besideFaults t = besideFaults s) : t.tb = s.tb := by
  have := congrArg State.tb h
  exact this

/-- An access error and the bus error that it is for an engine change no memory (R38). -/
theorem busError_accessError_mem (m : Master) (a : Nat) (write : Bool) (cause k addr type size kind : Nat) (s : State) :
    (busError m a write cause (accessError k addr type size kind s)).mem = s.mem := by
  have h : (accessError k addr type size kind s).mem = s.mem := mem_eq_of_besideFaults (besideFaults_report _ s)
  cases m with
  | foreman core => exact h
  | engine e priv => exact h

/-- The state beside the NVM, the registers that show it, and the count of the free values taken. -/
def besideNvm (s : State) : State := { s with regs := [], nv := Nvm.init, fresh := 0 }

@[simp] theorem besideNvm_updNv (f : Nvm → Nvm) (s : State) : besideNvm (updNv f s) = besideNvm s := (rfl)
@[simp] theorem besideNvm_programCw (p c : Nat) (bytes : List Nat) (s : State) :
    besideNvm (programCw p c bytes s) = besideNvm s := (rfl)
@[simp] theorem besideNvm_spend (s : State) : besideNvm (spend s) = besideNvm s := (rfl)
@[simp] theorem besideNvm_remap (sect p : Nat) (s : State) : besideNvm (remap sect p s) = besideNvm s := (rfl)
@[simp] theorem besideNvm_eraseSector (p : Nat) (s : State) : besideNvm (eraseSector p s) = besideNvm s := (rfl)

@[simp] theorem besideNvm_programFrom (p c : Nat) (bytes : List Nat) (s : State) :
    besideNvm (programFrom p c bytes s) = besideNvm s :=
  forAll_keeps besideNvm _ (fun i s => besideNvm_programCw p (c + i) _ s) s

@[simp] theorem besideNvm_clearSector (sect : Nat) (s : State) : besideNvm (clearSector sect s) = besideNvm s := by
  unfold clearSector
  split
  · rw [besideNvm_remap]
    split <;> simp
  · simp

/-- An append to a ring of the NVM changes nothing else but what shows it (R310). -/
@[simp] theorem besideNvm_ringAppend (base pos : Nat) (bytes : List Nat) (s : State) :
    besideNvm (ringAppend base pos bytes s) = besideNvm s := by
  unfold ringAppend
  rw [besideNvm_programCw]
  split <;> simp

@[simp] theorem besideNvm_cutNvm (s : State) : besideNvm (cutNvm s) = besideNvm s := by
  unfold cutNvm
  split
  case h_3 =>
    rw [besideNvm_updNv]
    split <;> simp
  all_goals rfl

theorem cutNvm_of_idle {s : State} (h : s.nv.op = .none) : cutNvm s = s := by
  unfold cutNvm
  rw [h]

/-- The state beside the fuses and the count of the free values taken. -/
def besideFuses (s : State) : State := { s with otp := Otp.init, fresh := 0 }

theorem besideFuses_cutFuses (s : State) : besideFuses (cutFuses s) = besideFuses s := by
  unfold cutFuses
  by_cases h : s.otp.op = 0
  · simp only [h, if_true]
    rfl
  · simp only [h, if_false]
    split <;> rfl

theorem cutFuses_otp_of_idle {s : State} (h : s.otp.op = 0) : (cutFuses s).otp = s.otp := by
  have hop : { s.otp with op := 0 } = s.otp := by rw [← h]
  unfold cutFuses
  simp only [h, if_true]
  exact hop


/-! ## Fields after a plain write (R7, R10) -/

theorem testBit_getBits (w : Nat) (f : Bits) (j : Nat) :
    (getBits w f).testBit j = (decide (j < f.hi - f.lo + 1) && w.testBit (f.lo + j)) := by
  rw [getBits, Nat.testBit_mod_two_pow, Nat.testBit_div_two_pow, Nat.add_comm j]

theorem testBit_maxBits (f : Bits) (j : Nat) : (maxBits f).testBit j = decide (j < f.hi - f.lo + 1) := by
  rw [maxBits, Nat.testBit_two_pow_sub_one]

/-- Two words agree in a field where they agree in its bits. -/
theorem getBits_congr {w x : Nat} {f : Bits}
    (h : ∀ j, j < f.hi - f.lo + 1 → w.testBit (f.lo + j) = x.testBit (f.lo + j)) : getBits w f = getBits x f := by
  refine Nat.eq_of_testBit_eq fun j => ?_
  rw [testBit_getBits, testBit_getBits]
  by_cases hj : j < f.hi - f.lo + 1
  · rw [h j hj]
  · simp [hj]

/-- A mask that holds all of field f has every bit of it. -/
theorem testBit_of_getBits_max {w : Nat} {f : Bits} {j : Nat} (h : getBits w f = maxBits f) (hj : j < f.hi - f.lo + 1) :
    w.testBit (f.lo + j) = true := by
  have e := testBit_getBits w f j
  rw [h, testBit_maxBits] at e
  simpa [hj] using e.symm

/-- A mask that holds nothing of field f has no bit of it. -/
theorem testBit_of_getBits_zero {w : Nat} {f : Bits} {j : Nat} (h : getBits w f = 0) (hj : j < f.hi - f.lo + 1) :
    w.testBit (f.lo + j) = false := by
  have e := testBit_getBits w f j
  rw [h, Nat.zero_testBit] at e
  simpa [hj] using e.symm

theorem testBit_ones (i : Nat) (h : i < 32) : (0xFFFFFFFF : Nat).testBit i = true := by
  rw [show (0xFFFFFFFF : Nat) = 2 ^ 32 - 1 from rfl, Nat.testBit_two_pow_sub_one]
  simp [h]

/-- A bit of a register after a write: what the write gives an RW bit, else what stood, and cleared where W1C says. -/
theorem testBit_written (row : RegRow) (locked : Bool) (held old v i : Nat) (h : i < 32) :
    (written row locked held old v).testBit i =
      ((if row.rw.testBit i || (!locked && row.rwl.testBit i) then v.testBit i else old.testBit i) &&
        !(row.w1c.testBit i && v.testBit i && !held.testBit i)) := by
  unfold written
  cases locked <;>
    simp only [Nat.testBit_and, Nat.testBit_or, Nat.testBit_xor, testBit_ones i h, if_true, if_false,
      Bool.false_eq_true] <;>
    cases row.rw.testBit i <;> cases row.rwl.testBit i <;> cases v.testBit i <;> cases old.testBit i <;> simp

theorem fld_wr_self (a v : Nat) (s : State) (f : Bits) (h : f.lo ≤ f.hi) (hn : f.hi < 32) :
    fld (wr a v s) a f = getBits v f := by
  unfold fld
  rw [rd_wr_self]
  refine getBits_congr fun j hj => ?_
  rw [Nat.testBit_mod_two_pow]
  simp [show f.lo + j < 32 by omega]

/-- A plain write gives an RW field what it writes. -/
theorem fld_plainWrite_rw {a v : Nat} {s : State} {f : Bits} {row : RegRow} (hrow : regRow a = some row)
    (h : f.lo ≤ f.hi) (hn : f.hi < 32) (hrw : getBits row.rw f = maxBits f) (hw1c : getBits row.w1c f = 0) :
    fld (plainWrite a v s) a f = getBits v f := by
  unfold plainWrite
  rw [hrow]
  refine (fld_wr_self a _ s f h hn).trans (getBits_congr fun j hj => ?_)
  rw [testBit_written _ _ _ _ _ _ (by omega), testBit_of_getBits_max hrw hj, testBit_of_getBits_zero hw1c hj]
  simp

/-- A plain write leaves a read-only field. -/
theorem fld_plainWrite_ro {a v : Nat} {s : State} {f : Bits} {row : RegRow} (hrow : regRow a = some row)
    (h : f.lo ≤ f.hi) (hn : f.hi < 32) (hrw : getBits row.rw f = 0) (hrwl : getBits row.rwl f = 0)
    (hw1c : getBits row.w1c f = 0) : fld (plainWrite a v s) a f = fld s a f := by
  unfold plainWrite
  rw [hrow]
  refine (fld_wr_self a _ s f h hn).trans (getBits_congr fun j hj => ?_)
  rw [testBit_written _ _ _ _ _ _ (by omega), testBit_of_getBits_zero hrw hj, testBit_of_getBits_zero hrwl hj,
    testBit_of_getBits_zero hw1c hj]
  simp

theorem onlyRegs_plainWrite {as : List Nat} {s t : State} (a v : Nat) (h : OnlyRegs as s t) (m : a ∈ as) :
    OnlyRegs as s (plainWrite a v t) := by
  unfold plainWrite
  split
  · exact onlyRegs_wr a _ h m
  · exact h

/-- A flag that hardware raises reads set. -/
theorem flag_raiseFlag_self (a k : Nat) (s : State) (h : k < 32) : flag (raiseFlag a ⟨k, k⟩ s) a ⟨k, k⟩ = true := by
  have hbit : (fld (raiseFlag a ⟨k, k⟩ s) a ⟨k, k⟩).testBit 0 = true := by
    unfold raiseFlag raiseWord orWord
    rw [fld_wr_self a _ _ ⟨k, k⟩ (Nat.le_refl k) h, testBit_getBits]
    simp [Nat.testBit_or]
  unfold flag
  rw [bne_iff_ne]
  intro e
  rw [e] at hbit
  simp at hbit

/-- A flag that hardware raises leaves the other fields of its register. -/
theorem fld_raiseFlag_other (a k : Nat) (s : State) (g : Bits) (hg : g.lo ≤ g.hi) (hn : g.hi < 32)
    (d : g.hi < k ∨ k < g.lo) : fld (raiseFlag a ⟨k, k⟩ s) a g = fld s a g := by
  unfold raiseFlag raiseWord orWord
  refine (fld_wr_self a _ _ g hg hn).trans (getBits_congr fun j hj => ?_)
  rw [Nat.testBit_or, Nat.testBit_two_pow_of_ne (show k ≠ g.lo + j by omega), Bool.or_false]
  rfl

end Sys2Proof.Machine
end

section
/-! The commands of the whole device: a register write, the resets, REFCLK, the lifetime record and the tick periods. -/

namespace Sys2Proof.Machine

/-- A command that acts only on a device out of reset does nothing to one that is not. -/
theorem live_of_not_alive {g : Bool} {s t : State} (h : alive s = false) : live g s t = .next s := by
  simp [live, act, h]

theorem live_of_not {g : Bool} {s t : State} (h : g = false) : live g s t = .next s := by simp [live, act, h]

theorem alive_of_dormant {s : State} (h : mode s = 0) : alive s = false := by simp [alive, h]

/-! ## REG_WRITE (R7, R36, R38) -/

/-- A master's write that the spine takes, to a register, has the register's effect. -/
theorem masterWrite_of_register {m : Master} {a v : Nat} {u : Upset} {s : State} (hx : masterAddr m a % 4 = 0)
    (hr : (spineAllows s m (masterAddr m a) 4 true && writable s (masterAddr m a)) = true)
    (hreg : isRegister (masterAddr m a) = true) : masterWrite m a v u s = regWrite m (masterAddr m a) v s := by
  simp [masterWrite, spineWrite, hx, hr, hreg]

/-- A master's write that is not aligned, or that the spine refuses, is an access error and an engine's bus error. -/
theorem masterWrite_of_refused {m : Master} {a v : Nat} {u : Upset} {s : State}
    (h : masterAddr m a % 4 ≠ 0 ∨ (spineAllows s m (masterAddr m a) 4 true && writable s (masterAddr m a)) = false) :
    masterWrite m a v u s = busError m a true 1 (accessError (masterOf s m) (masterAddr m a) 1 2 1 s) := by
  have hlog : Nat.log2 4 = 2 := by decide
  by_cases hx : masterAddr m a % 4 = 0
  · have hr := h.resolve_left (not_not_intro hx)
    simp only [masterWrite, spineWrite, hx, hr, hlog, if_true, Bool.not_false]
  · simp [masterWrite, hx]

theorem exec_regWrite {s : State} {m : Master} {a v : BitVec 32} {u : Upset} (ha : alive s = true)
    (hh : writeHeld s m a.toNat = false) :
    exec (.regWrite m a ⟨v, u⟩) s = .next (masterWrite m a.toNat v.toNat u s) := live_eq ha (by simp [hh])

/-! ## Resets (R31, R391 to R393) -/

/-- A hold takes the time base, the record sets, the directory and the fuses from what a cut-short NVM command and a
cut-short fuse command leave, and they leave them as they were (R32). -/
theorem heldIn_keeps (h : Hold) (s : State) :
    (heldIn h s).tb.hrs = s.tb.hrs ∧ (heldIn h s).tb.pcc = s.tb.pcc ∧ (heldIn h s).er.sets = s.er.sets ∧
      (heldIn h s).frm.dir = s.frm.dir := by
  have hnvm := besideNvm_cutNvm s
  have hfuses := besideFuses_cutFuses (cutNvm s)
  have htb : (cutFuses (cutNvm s)).tb = s.tb := (congrArg State.tb hfuses :).trans (congrArg State.tb hnvm :)
  have her : (cutFuses (cutNvm s)).er = s.er := (congrArg State.er hfuses :).trans (congrArg State.er hnvm :)
  have hfrm : (cutFuses (cutNvm s)).frm = s.frm := (congrArg State.frm hfuses :).trans (congrArg State.frm hnvm :)
  exact ⟨(congrArg TimeBase.hrs htb :), (congrArg TimeBase.pcc htb :), (congrArg Recorder.sets her :),
    (congrArg Foreman.dir hfrm :)⟩

/-- With no NVM command in progress a hold keeps the NVM. -/
theorem heldIn_nv (h : Hold) {s : State} (hop : s.nv.op = .none) : (heldIn h s).nv = s.nv := by
  have e := congrArg State.nv (besideFuses_cutFuses (cutNvm s))
  rw [cutNvm_of_idle hop] at e
  exact (congrArg (fun x => (cutFuses x).nv) (cutNvm_of_idle hop)).trans e

/-- With no fuse command in progress a hold keeps the fuses. -/
theorem heldIn_otp (h : Hold) {s : State} (hop : s.otp.op = 0) : (heldIn h s).otp = s.otp := by
  have e : (cutNvm s).otp = s.otp := (congrArg State.otp (besideNvm_cutNvm s) :)
  exact (cutFuses_otp_of_idle (by rw [e, hop])).trans e

theorem runs_brownOut {s : State} {sag : Sag} (hold : s.tb.hold ≠ .por) (h : brownOut s sag = true) :
    Runs (.brownOut sag) s fun t => t = heldIn .por s ∧ t.tb.hold = .por :=
  runs_of_eq (act_eq (by simp [hold, h])) ⟨rfl, rfl⟩

theorem runs_resetNFall {s : State} (h : alive s = true) :
    Runs .resetNFall s fun t => t = heldIn .resetN s ∧ t.tb.hold = .resetN ∧ t.regs = [] ∧ t.mem = [] ∧
      t.tb.hrs = s.tb.hrs ∧ t.tb.pcc = s.tb.pcc ∧ t.er.sets = s.er.sets ∧ t.frm.dir = s.frm.dir ∧
      (s.nv.op = .none → t.nv = s.nv) ∧ (s.otp.op = 0 → t.otp = s.otp) := by
  obtain ⟨hhrs, hpcc, hsets, hdir⟩ := heldIn_keeps .resetN s
  exact runs_of_eq (live_eq h rfl)
    ⟨rfl, rfl, rfl, rfl, hhrs, hpcc, hsets, hdir, heldIn_nv .resetN, heldIn_otp .resetN⟩

/-! ## The JTAG port (R30, R32) -/

/-- The state beside the EVT inputs. -/
def besideInputs (s : State) : State := { s with evtIns := [] }

theorem besideInputs_drivePin (q o t : Nat) (s : State) : besideInputs (drivePin q o t s) = besideInputs s := by
  unfold drivePin
  split
  · refine forAll_keeps besideInputs _ (fun p s => ?_) s
    dsimp only
    split <;> split <;> rfl
  · rfl

/-- Driving the EVT pins changes the EVT inputs alone (R284). -/
theorem besideInputs_drivePins (s : State) : besideInputs (drivePins s) = besideInputs s :=
  forAll_keeps besideInputs _ (fun i s => besideInputs_drivePin (i / 2) (i % 2) s.tb.ns s) s

theorem rd_drivePins (s : State) (a : Nat) : rd (drivePins s) a = rd s a :=
  (congrArg (rd · a) (besideInputs_drivePins s) :)

theorem mode_enterMode (m : Nat) (s : State) (h : m < 8) : mode (enterMode m s) = m := by
  unfold mode enterMode
  rw [fld_setFld_ne _ _ _ _ _ _ (by decide), fld_setFld_self _ _ _ _ (by decide) (by decide)]
  exact Nat.mod_eq_of_lt h

/-- A FACTORY request that is taken. -/
theorem enterFactory_keeps (s : State) :
    let t := drivePins (enterMode 7 s)
    mode t = 7 ∧ KeepsRegs [Reg.SM_MODE, Reg.MB_HSTAT] s t ∧ t.fm = s.fm ∧ t.mem = s.mem := by
  have hpins := besideInputs_drivePins (enterMode 7 s)
  refine ⟨?_, fun a ha => ?_, (congrArg State.fm hpins :), (congrArg State.mem hpins :)⟩
  · exact (congrArg (getBits · Fld.SM_MODE_MODE) (rd_drivePins _ _)).trans (mode_enterMode 7 s (by decide))
  · have hmode : KeepsRegs [Reg.SM_MODE, Reg.MB_HSTAT] s (enterMode 7 s) :=
      keepsRegs_setFld _ _ _ (keepsRegs_setFld _ _ _ (keepsRegs_refl _ _) (by simp)) (by simp)
    rw [rd_drivePins, hmode a ha]

theorem runs_jtagFactoryRequest {s : State} (ha : alive s = true) (hm : mode s ≠ 7) :
    Runs .jtagFactoryRequest s fun t =>
      ((mode s = 1 ∨ mode s = 2) ∧ s.tb.factoryBlown = false → mode t = 7 ∧ t.tb.jtagRefused = false ∧
        KeepsRegs [Reg.SM_MODE, Reg.MB_HSTAT] s t ∧ t.fm = s.fm ∧ t.mem = s.mem) ∧
      (¬((mode s = 1 ∨ mode s = 2) ∧ s.tb.factoryBlown = false) →
        t = { s with tb := { s.tb with jtagRefused := true } }) := by
  have hiff : ((mode s == 1 || mode s == 2) && !s.tb.factoryBlown) = true ↔
      (mode s = 1 ∨ mode s = 2) ∧ s.tb.factoryBlown = false := by simp
  refine runs_of_eq (live_eq ha (by simpa using hm)) ⟨fun h => ?_, fun h => ?_⟩
  · obtain ⟨hmode, hregs, hfm, hmem⟩ := enterFactory_keeps s
    rw [hiff.mpr h]
    exact ⟨hmode, rfl, hregs, hfm, hmem⟩
  · rw [Bool.eq_false_iff.mpr (mt hiff.mp h)]
    rfl

/-! ## REFCLK and the lifetime record (R19, R24) -/

theorem recalibrate_tb (n : Nat) (s : State) : (recalibrate n s).tb = s.tb := by
  unfold recalibrate swapLines
  dsimp only
  (repeat' split) <;> rfl

theorem recalibrateAll_report_tb (x : Rep) (i : Nat) (b : Bool) (s : State) :
    (s |> forAll (List.range 256) recalibrate |> report x |> setCond i b).tb = s.tb := by
  rw [tb_eq_of_besideFaults (besideFaults_setCond i b _), tb_eq_of_besideFaults (besideFaults_report x _),
    forAll_keeps State.tb _ recalibrate_tb]

/-- REFCLK comes back with no step in TB_NS. -/
theorem refclkBack_ns (s : State) : (refclkBack s).tb.ns = s.tb.ns := by
  have hstat : (s |> setFlag Reg.TB_STAT Fld.TB_STAT_LOCK true |> setFlag Reg.TB_STAT Fld.TB_STAT_HOLD false).tb =
      s.tb := tb_eq_of_besideFaults (by simp)
  exact congrArg TimeBase.ns ((recalibrateAll_report_tb _ _ _ _).trans hstat)

/-- The lifetime record shows the counts as they are, at the ring's next place. -/
theorem commitHours_record (s : State) :
    (commitHours s).tb.nvHrs = s.tb.hrs ∧ (commitHours s).tb.lives.head? = some (s.tb.nvPos, s.tb.hrs, s.tb.pcc) := by
  have htb : (ringAppend 0 s.tb.nvPos (lifetimeBytes s.tb.hrs s.tb.pcc) s).tb = s.tb :=
    (congrArg State.tb (besideNvm_ringAppend 0 s.tb.nvPos (lifetimeBytes s.tb.hrs s.tb.pcc) s) :)
  constructor
  · exact (congrArg TimeBase.hrs htb :)
  · exact (congrArg (fun b : TimeBase => some (b.nvPos, b.hrs, b.pcc)) htb :)

/-! ## The control tick periods (R20, R21) -/

/-- The row of TB_QTICK: PERIOD is RW, REFUSED is W1C, and the rest is read-only (R406). -/
theorem regRow_tbQtick (q : Fin 16) : regRow (Reg.TB_QTICK q) = some ⟨0x100, [(16, 4)], 0, 3, 0x80000000, 0⟩ := by
  revert q
  decide +kernel

theorem plainWrite_tbQtick (q : Fin 16) (v : Nat) (s : State) :
    fld (plainWrite (Reg.TB_QTICK q) v s) (Reg.TB_QTICK q) Fld.TB_QTICK_PERIOD = getBits v Fld.TB_QTICK_PERIOD ∧
      fld (plainWrite (Reg.TB_QTICK q) v s) (Reg.TB_QTICK q) Fld.TB_QTICK_ACTIVE =
        fld s (Reg.TB_QTICK q) Fld.TB_QTICK_ACTIVE ∧
      OnlyRegs [Reg.TB_QTICK q] s (plainWrite (Reg.TB_QTICK q) v s) :=
  ⟨fld_plainWrite_rw (regRow_tbQtick q) (by decide) (by decide) (by decide) (by decide),
    fld_plainWrite_ro (regRow_tbQtick q) (by decide) (by decide) (by decide) (by decide) (by decide),
    onlyRegs_plainWrite _ _ (onlyRegs_refl _ s) (by simp)⟩

theorem runs_tbQtickWrite {s : State} {m : Master} {q : Fin 16} {v : BitVec 32} {P : State → Prop}
    (h : CanWrite s m (Reg.TB_QTICK q)) (p : P (qtickWrite q v.toNat s)) : Runs (.tbQtickWrite m q v) s P :=
  runs_of_eq (regWriteBy_eq h) p

theorem qtickWrite_same {q v : Nat} {s : State}
    (h : getBits v Fld.TB_QTICK_PERIOD = fld s (Reg.TB_QTICK q) Fld.TB_QTICK_PERIOD) :
    qtickWrite q v s = plainWrite (Reg.TB_QTICK q) v s := by simp [qtickWrite, h]

theorem qtickWrite_used {q v : Nat} {s : State}
    (h : getBits v Fld.TB_QTICK_PERIOD ≠ fld s (Reg.TB_QTICK q) Fld.TB_QTICK_PERIOD)
    (hu : (List.range 32).any (railUses s q) = true) :
    qtickWrite q v s = raiseFlag (Reg.TB_QTICK q) Fld.TB_QTICK_REFUSED s := by
  simp only [qtickWrite, if_neg h, if_pos hu]

theorem qtickWrite_free {q v : Nat} {s : State}
    (h : getBits v Fld.TB_QTICK_PERIOD ≠ fld s (Reg.TB_QTICK q) Fld.TB_QTICK_PERIOD)
    (hu : (List.range 32).any (railUses s q) = false) :
    qtickWrite q v s = updTb (fun b => { b with qwrite := tset (fun _ => 0) b.qwrite q s.tb.ns })
      (plainWrite (Reg.TB_QTICK q) v s) := by
  simp only [qtickWrite, if_neg h, hu, Bool.false_eq_true, if_false]

theorem showShort_tb (q : Nat) (s : State) : (showShort q s).tb = s.tb := by
  refine forAll_keeps State.tb _ (fun c s => ?_) s
  rfl

theorem showShort_mem (q : Nat) (s : State) : (showShort q s).mem = s.mem :=
by
  refine forAll_keeps State.mem _ (fun c s => ?_) s
  rfl

theorem keepsRegs_showShort (q : Nat) (s : State) : KeepsRegs [Reg.AD_STAT q 0, Reg.AD_STAT q 1] s (showShort q s) :=
  keepsRegs_forAll _ (fun c hc s => keepsRegs_setFlag _ _ _ (keepsRegs_refl _ s) (by
    simp only [List.mem_cons, List.not_mem_nil, or_false] at hc
    rcases hc with rfl | rfl <;> simp)) s

/-- The device once quire q counts its ticks anew from this instant and its present sample index (R20). -/
def rebase (q : Nat) (s : State) : State :=
  updTb (fun b => { b with
    qbaseNs := tset (fun _ => 0) b.qbaseNs q s.tb.ns, qbaseIdx := tset (fun _ => 0) b.qbaseIdx q (index s q),
    qold := tset (fun _ => 0) b.qold q (fld s (Reg.TB_QTICK q) Fld.TB_QTICK_ACTIVE) }) s

/-- A period takes effect in three parts: the new base, the active period, and what AD_STAT shows of it. -/
theorem applyPeriod_eq (q : Nat) (s : State) :
    applyPeriod q s = showShort q (setFld (Reg.TB_QTICK q) Fld.TB_QTICK_ACTIVE
      (fld s (Reg.TB_QTICK q) Fld.TB_QTICK_PERIOD) (rebase q s)) := rfl

theorem index_lt (s : State) (q : Nat) : index s q < 2 ^ 32 := by
  unfold index indexAt
  dsimp only
  split <;> exact Nat.mod_lt _ (by decide)

/-- Counting anew leaves the sample index where it stands, whatever the period is from now on. -/
theorem index_of_rebased {q : Nat} {s t : State} (h : t.tb = (rebase q s).tb) : index t q = index s q := by
  have hbase : tickBase t q = t.tb.ns := by simp [tickBase, h, rebase, updTb]
  have hidx : tget (fun _ => 0) t.tb.qbaseIdx q = index s q := by simp [h, rebase, updTb]
  calc index t q = index s q % 2 ^ 32 := by simp [index, indexAt, hbase, hidx]
    _ = index s q := Nat.mod_eq_of_lt (index_lt s q)

/-- A period that takes effect is the active one, the sample index stands where it stood, and nothing but TB_QTICK and
AD_STAT has changed in the registers. -/
theorem applyPeriod_effect (q : Fin 16) (s : State) :
    fld (applyPeriod q s) (Reg.TB_QTICK q) Fld.TB_QTICK_ACTIVE = fld s (Reg.TB_QTICK q) Fld.TB_QTICK_PERIOD ∧
      index (applyPeriod q s) q = index s q ∧
      KeepsRegs [Reg.TB_QTICK q, Reg.AD_STAT q 0, Reg.AD_STAT q 1] s (applyPeriod q s) ∧
      (applyPeriod q s).mem = s.mem := by
  have hne : Reg.TB_QTICK q ∉ [Reg.AD_STAT q 0, Reg.AD_STAT q 1] := by
    simp only [Reg.TB_QTICK, Reg.AD_STAT, quireBlock, List.mem_cons, List.not_mem_nil, or_false]
    omega
  rw [applyPeriod_eq]
  refine ⟨?_, index_of_rebased (showShort_tb q _), fun b hb => ?_, showShort_mem q _⟩
  · rw [fld, keepsRegs_showShort q _ _ hne]
    refine (fld_setFld_self _ _ _ _ (by decide) (by decide)).trans ?_
    exact Nat.mod_mod _ _
  · obtain ⟨hqt, hstat⟩ := not_or.mp (mt List.mem_cons.mpr hb)
    rw [keepsRegs_showShort q _ _ hstat]
    exact rd_setFld_ne _ _ _ _ b hqt

/-- Settles O1, a clause at a time. -/
theorem resetAndTimeBaseCommandsRun : Obligations.ResetAndTimeBaseCommandsRun := by
  unfold Obligations.ResetAndTimeBaseCommandsRun
  intro s m a v u vcore vio vaux release sag q qt p used x reach free
  refine ⟨?_, ?_, ?_, ?_, ?_, ?_, ?_, runs_resetNFall, ?_, ?_, ?_, ?_, runs_jtagFactoryRequest, ?_, ?_, ?_, ?_, ?_, ?_,
    ?_, ?_⟩
  -- REG_WRITE to a register
  · intro ⟨ha, hh⟩ hx hr hreg
    exact runs_of_eq (exec_regWrite ha hh) (masterWrite_of_register hx hr hreg)
  -- REG_WRITE refused
  · intro ⟨ha, hh⟩ hr
    exact runs_of_eq (exec_regWrite ha hh)
      ⟨masterWrite_of_refused hr, by rw [masterWrite_of_refused hr, busError_accessError_mem]⟩
  -- POWER_ON_RESET_RELEASE
  · intro hold hcore hio haux hreset hns
    refine runs_of_eq (act_eq (by simp [*])) ⟨fun h => ?_, fun h => ?_⟩ <;> simp [h]
  -- BROWN_OUT of VCORE, then of VAUX
  · intro hold hmode hsup hns hmv
    exact runs_brownOut hold (by simp [brownOut, *])
  · intro hold hmode hsup hmv
    exact runs_brownOut hold (by rcases hmode with hmode | hmode <;> simp [brownOut, *])
  · intro hold hsup hns hmv
    exact runs_brownOut hold (by simp [brownOut, *])
  · intro hold hmode hsup hmv
    exact runs_brownOut hold (by simp [brownOut, *])
  -- RESET_N_FALL in DORMANT
  · intro hold hmode
    exact runs_of_eq (live_of_not_alive (alive_of_dormant hmode)) rfl
  -- RESET_N_RELEASE
  · intro hold
    exact runs_of_eq (act_eq (by simp [hold])) rfl
  -- WAKE
  · intro hold hmode
    exact runs_of_eq (act_eq (by simp [hold, hmode])) rfl
  -- BOOT_COMPLETE
  · intro ha hmode hrec himage
    exact runs_of_eq (live_eq ha (by simp [hmode, hrec, himage])) rfl
  -- JTAG_FACTORY_REQUEST in FACTORY
  · intro ha hmode
    exact runs_of_eq (live_of_not (by simp [hmode])) rfl
  -- REFCLK_LOSS
  · intro ha hhold
    exact runs_of_eq (live_eq ha (by simp [hhold])) rfl
  -- REFCLK_RESTORED
  · intro ha hhold
    exact runs_of_eq (live_eq ha hhold) ⟨rfl, refclkBack_ns s⟩
  -- HOURS_COMMIT
  · intro ha hserves hop hdue
    exact runs_of_eq (live_eq ha (by simp [hserves, hop, hdue])) ⟨rfl, commitHours_record s⟩
  -- TB_QTICK_WRITE of the same period, of one refused, of one taken
  · intro hw hp
    exact runs_tbQtickWrite hw (by rw [qtickWrite_same hp]; exact plainWrite_tbQtick q v.toNat s)
  · intro hw hp hused
    refine runs_tbQtickWrite hw ?_
    rw [qtickWrite_used hp hused]
    exact ⟨fld_raiseFlag_other _ 31 s _ (by decide) (by decide) (by decide), flag_raiseFlag_self _ 31 s (by decide),
      onlyRegs_raiseFlag _ _ (onlyRegs_refl _ s) (by simp [qt])⟩
  · intro hw hp hused
    obtain ⟨hperiod, hactive, hregs, -, hrest⟩ := plainWrite_tbQtick q v.toNat s
    refine runs_tbQtickWrite hw ?_
    rw [qtickWrite_free hp hused]
    exact ⟨hperiod, hactive, hregs, (congrArg State.mem hrest :)⟩
  -- QTICK_PERIOD_APPLY
  · intro ha hdue
    exact runs_of_eq (live_eq ha hdue) (applyPeriod_effect q s)

end Sys2Proof.Machine
end

section
/-! What a read of the state after reset gives: a register's reset value, an erased byte of the NVM. -/

namespace Sys2Proof.Machine

/-! ## The state after reset (R29, R308, R391) -/

/-- No register has been written, so each holds what its table gives for reset. -/
theorem rd_reset (a : Nat) : rd State.reset a = (regReset a).toNat := rfl

theorem memByte_reset (a : Nat) : memByte State.reset a = 0 := rfl

theorem wordWritten_reset (k a : Nat) : wordWritten State.reset k a = false := rfl

/-- No sector has been remapped. -/
theorem nvPhys_reset (k : Nat) : nvPhys State.reset k = k := rfl

theorem factoryFresh_reset {k : Nat} (hgolden : ¬(400 ≤ k ∧ k < 528)) (hcert : ¬(1504 ≤ k ∧ k < 1512)) :
    factoryFresh State.reset k = false := by simp [factoryFresh, hgolden, hcert]

/-- A sector that manufacture has not written reads erased. -/
theorem nvByte_reset {k : Nat} (o : Nat) (hgolden : ¬(400 ≤ k ∧ k < 528)) (hcert : ¬(1504 ≤ k ∧ k < 1512)) :
    nvByte State.reset k o = 255 := by
  unfold nvByte
  rw [nvPhys_reset, factoryFresh_reset hgolden hcert]
  rfl

theorem rd_reset_tbQtick : ∀ q, q < 16 → rd State.reset (Reg.TB_QTICK q) = 0 := by decide +kernel

/-- Settles O3. -/
theorem resetIsAsTheRulesState : Obligations.ResetIsAsTheRulesState := by
  unfold Obligations.ResetIsAsTheRulesState
  have hmode : rd State.reset Reg.SM_MODE = 1 := by decide +kernel
  have hshed : rd State.reset Reg.SM_SHEDCFG = 8 := by decide +kernel
  have hseq : rd State.reset Reg.SM_SEQMASK = 0xFFFFFFFF := by decide +kernel
  have hspeed : rd State.reset Reg.SM_SPDCFG = 0x258 := by decide +kernel
  have hstat : rd State.reset Reg.TB_STAT = 0 := by decide +kernel
  have hns : State.reset.tb.ns = 0 := rfl
  have hhold : State.reset.tb.hold = .por := rfl
  have hdead : alive State.reset = false := by simp [alive, hhold]
  exact ⟨rd_reset, hmode, hshed, hseq, hspeed, hstat, rd_reset_tbQtick, hns, hhold, hdead, rfl, reset_wf,
    memByte_reset, wordWritten_reset, fun _ o hgolden hcert => nvByte_reset o hgolden hcert, rfl⟩

end Sys2Proof.Machine
end

section
/-! How a single engine runs a bundle of one operation: what its command answers where the engine issues, and what the
retirement of the bundle's effect leaves alone. -/

namespace Sys2Proof.Machine

/-! ## Updates of one engine -/

@[simp] theorem engOf_updEng_self (e : Nat) (f : Engine → Engine) (s : State) :
    engOf (updEng e f s) e = f (engOf s e) := by rw [engOf_updEng, if_pos rfl]

theorem keepsEngines_updEng (e : Nat) (f : Engine → Engine) (s : State) : KeepsEngines e s (updEng e f s) :=
  fun k hk => by rw [engOf_updEng, if_neg hk]

theorem keepsEngines_trans {e : Nat} {s t u : State} (h : KeepsEngines e s t) (k : KeepsEngines e t u) :
    KeepsEngines e s u := fun j hj => (k j hj).trans (h j hj)

theorem onlyRegs_trans {as : List Nat} {s t u : State} (h : OnlyRegs as s t) (k : OnlyRegs as t u) :
    OnlyRegs as s u := by
  obtain ⟨hregs, hraised, hrest⟩ := h
  obtain ⟨kregs, kraised, krest⟩ := k
  refine ⟨keepsRegs_trans hregs kregs, fun a ha => (kraised a ha).trans (hraised a ha), ?_⟩
  rw [krest, hrest]

/-- A change of registers alone leaves every engine as it was, -/
theorem engOf_of_onlyRegs {as : List Nat} {s t : State} (h : OnlyRegs as s t) (k : Nat) : engOf t k = engOf s k := by
  obtain ⟨-, -, hrest⟩ := h
  rw [hrest]
  rfl

/-- and every byte of memory. -/
theorem mem_of_onlyRegs {as : List Nat} {s t : State} (h : OnlyRegs as s t) : t.mem = s.mem := by
  obtain ⟨-, -, hrest⟩ := h
  rw [hrest]

theorem keepsEngines_of_onlyRegs {as : List Nat} {e : Nat} {s t : State} (h : OnlyRegs as s t) : KeepsEngines e s t :=
  fun k _ => engOf_of_onlyRegs h k

/-! ## What BD_ESTAT and BD_EPC show (R212, R221) -/

/-- The registers that show engine e's state. -/
def statRegs (e : Nat) : List Nat := [Reg.BD_ESTAT (e / 8) (e % 8), Reg.BD_EPC (e / 8) (e % 8)]

theorem bdEstat_mem_statRegs (e : Nat) : Reg.BD_ESTAT (e / 8) (e % 8) ∈ statRegs e := by simp [statRegs]
theorem bdEpc_mem_statRegs (e : Nat) : Reg.BD_EPC (e / 8) (e % 8) ∈ statRegs e := by simp [statRegs]

theorem bdEpc_ne_bdEstat (e : Nat) : Reg.BD_EPC (e / 8) (e % 8) ≠ Reg.BD_ESTAT (e / 8) (e % 8) := by
  unfold Reg.BD_EPC Reg.BD_ESTAT
  omega

section
variable {as : List Nat} {s t : State} {e : Nat} (h : OnlyRegs as s t)
include h

theorem onlyRegs_showEpc (pc : Nat) (m : Reg.BD_EPC (e / 8) (e % 8) ∈ as) : OnlyRegs as s (showEpc e pc t) :=
  onlyRegs_setFld _ _ _ h m

theorem onlyRegs_setEngState (st : Nat) (m : Reg.BD_ESTAT (e / 8) (e % 8) ∈ as) :
    OnlyRegs as s (setEngState e st t) := onlyRegs_setFld _ _ _ h m

theorem onlyRegs_showEngine (m : Reg.BD_ESTAT (e / 8) (e % 8) ∈ as) : OnlyRegs as s (showEngine e t) :=
  onlyRegs_setFld _ _ _ (onlyRegs_setFld _ _ _ (onlyRegs_setFld _ _ _ (onlyRegs_setFlag _ _ _ h m) m) m) m

end

theorem fld_showEpc (e pc : Nat) (s : State) :
    fld (showEpc e pc s) (Reg.BD_EPC (e / 8) (e % 8)) Fld.BD_EPC_PC = pc % 2 ^ 15 :=
  fld_setFld_self _ _ _ _ (by decide) (by decide)

theorem engState_setEngState (e st : Nat) (s : State) : engState (setEngState e st s) e = st % 8 :=
  fld_setFld_self _ _ _ _ (by decide) (by decide)

/-- STATE is none of the fields that show the architected state. -/
theorem engState_showEngine (e : Nat) (s : State) : engState (showEngine e s) e = engState s e := by
  unfold showEngine engState setFlag
  dsimp only
  iterate 4 rw [fld_setFld_other _ _ _ _ _ (by decide) (by decide) (by decide) (by decide)]

theorem engState_stopEngine (e st : Nat) (s : State) : engState (stopEngine e st s) e = st % 8 := by
  unfold stopEngine
  rw [engState_showEngine, engState_setEngState]

theorem keepsEngines_stopEngine (e st : Nat) (s : State) : KeepsEngines e s (stopEngine e st s) := by
  have hregs (u : State) : OnlyRegs (statRegs e) u (showEngine e (setEngState e st u)) :=
    onlyRegs_showEngine (onlyRegs_setEngState (onlyRegs_refl _ u) st (bdEstat_mem_statRegs e)) (bdEstat_mem_statRegs e)
  exact keepsEngines_trans (keepsEngines_updEng e _ s) (keepsEngines_of_onlyRegs (hregs _))

theorem mem_stopEngine (e st : Nat) (s : State) : (stopEngine e st s).mem = s.mem := rfl

/-! ## Retiring a single engine's effect (R212, R299) -/

/-- Engine e counts the writes os that the spine has yet to acknowledge (R14). -/
def countStores (e : Nat) (os : List MemOp) (s : State) : State :=
  updEng e (fun z => { z with stores := z.stores + acked e os }) s

/-- A count of stores changes the engine's count alone. -/
theorem engOf_countStores (e : Nat) (os : List MemOp) (s : State) :
    engOf (countStores e os s) e = { engOf s e with stores := (engOf s e).stores + acked e os } :=
  engOf_updEng_self e _ s

theorem keepsEngines_countStores (e : Nat) (os : List MemOp) (s : State) : KeepsEngines e s (countStores e os s) :=
  keepsEngines_updEng e _ s

theorem mem_countStores (e : Nat) (os : List MemOp) (s : State) : (countStores e os s).mem = s.mem := rfl

/-- The state once the writes of effect y of the bundle at pc have left state s: engine e counts the stores to be
acknowledged, BD_EPC names the bundle, and the engine makes its stop. -/
def settleEff (e pc : Nat) (y : Eff) (s : State) : State :=
  countStores e y.ops s |> showEpc e pc |> showCause e y.cause |> makeStop e y.stop y.cause pc |> showEngine e

/-- An effect with no refused write, whose writes are all performed, retires. -/
theorem retireSingle_of_performed {w : Who} {pc n : Nat} {y : Eff} {s s1 : State} (hhome : w.home = w.e)
    (hrefused : y.refused = []) (hops : performOps w.e y.upset y.ops (takeEff w.e y s) = (s1, n, false)) :
    retireSingle w pc 0 y s = (settleEff w.e pc y s1, none) := by
  unfold retireSingle
  rw [hhome, hrefused, show reportRefused w.e [] s = s from rfl, hops]
  rfl

/-- Where no cause is shown, settling is this. -/
theorem settleEff_of_no_cause {e pc : Nat} {y : Eff} (s : State) (hcause : y.cause = 0) :
    settleEff e pc y s = showEngine e (makeStop e y.stop 0 pc (showEpc e pc (countStores e y.ops s))) := by
  unfold settleEff
  rw [hcause]
  rfl

theorem makeStop_halt (e cause pc : Nat) (s : State) : makeStop e 2 cause pc s = stopEngine e 2 s := rfl

/-- No stop, and the stop of WAIT, change what BD_ESTAT shows alone. -/
theorem onlyRegs_makeStop {as : List Nat} {s : State} {e stop pc : Nat} (hstop : stop = 0 ∨ stop = 1)
    (m : Reg.BD_ESTAT (e / 8) (e % 8) ∈ as) : OnlyRegs as s (makeStop e stop 0 pc s) := by
  rcases hstop with rfl | rfl
  · exact onlyRegs_refl as s
  · exact onlyRegs_setEngState (onlyRegs_refl as s) 1 m

section
variable {e pc : Nat} {y : Eff} (s : State) (hcause : y.cause = 0)
include hcause

/-- Where the engine does not stop for good, settling changes the two registers that show the engine alone, -/
theorem onlyRegs_settleEff (hstop : y.stop = 0 ∨ y.stop = 1) :
    OnlyRegs (statRegs e) (countStores e y.ops s) (settleEff e pc y s) := by
  rw [settleEff_of_no_cause s hcause]
  have hepc := onlyRegs_showEpc (onlyRegs_refl (statRegs e) (countStores e y.ops s)) pc (bdEpc_mem_statRegs e)
  exact onlyRegs_showEngine (onlyRegs_trans hepc (onlyRegs_makeStop hstop (bdEstat_mem_statRegs e)))
    (bdEstat_mem_statRegs e)

/-- and BD_EPC names the bundle. -/
theorem fld_bdEpc_settleEff (hstop : y.stop = 0 ∨ y.stop = 1) :
    fld (settleEff e pc y s) (Reg.BD_EPC (e / 8) (e % 8)) Fld.BD_EPC_PC = pc % 2 ^ 15 := by
  rw [settleEff_of_no_cause s hcause]
  generalize countStores e y.ops s = s1
  have hkeeps : KeepsRegs [Reg.BD_ESTAT (e / 8) (e % 8)] (showEpc e pc s1)
      (showEngine e (makeStop e y.stop 0 pc (showEpc e pc s1))) :=
    (onlyRegs_showEngine (onlyRegs_makeStop hstop (by simp)) (by simp)).1
  calc fld _ (Reg.BD_EPC (e / 8) (e % 8)) Fld.BD_EPC_PC
      = fld (showEpc e pc s1) (Reg.BD_EPC (e / 8) (e % 8)) Fld.BD_EPC_PC :=
        congrArg (getBits · Fld.BD_EPC_PC) (hkeeps _ (by simp [bdEpc_ne_bdEstat]))
    _ = pc % 2 ^ 15 := fld_showEpc e pc s1

theorem settleEff_keeps (hstop : y.stop = 0 ∨ y.stop = 1) :
    (engOf (settleEff e pc y s) e).arch = (engOf s e).arch ∧ (settleEff e pc y s).mem = s.mem := by
  have hshows := onlyRegs_settleEff (e := e) (pc := pc) s hcause hstop
  refine ⟨?_, (mem_of_onlyRegs hshows).trans (mem_countStores e y.ops s)⟩
  rw [engOf_of_onlyRegs hshows, engOf_countStores]

theorem engState_settleEff_wait (hstop : y.stop = 1) : engState (settleEff e pc y s) e = 1 := by
  rw [settleEff_of_no_cause s hcause, hstop, engState_showEngine]
  exact engState_setEngState e 1 _

/-- HALT stops the engine, and leaves the other engines and memory alone (R241). -/
theorem settleEff_halt (hstop : y.stop = 2) : engState (settleEff e pc y s) e = 2 ∧
    (settleEff e pc y s).mem = s.mem ∧ KeepsEngines e s (settleEff e pc y s) := by
  rw [settleEff_of_no_cause s hcause, hstop, makeStop_halt]
  generalize hs1 : showEpc e pc (countStores e y.ops s) = s1
  have hepc : OnlyRegs (statRegs e) (countStores e y.ops s) s1 :=
    hs1 ▸ onlyRegs_showEpc (onlyRegs_refl _ _) pc (bdEpc_mem_statRegs e)
  have hshow := onlyRegs_showEngine (onlyRegs_refl (statRegs e) (stopEngine e 2 s1)) (bdEstat_mem_statRegs e)
  refine ⟨?_, ?_, ?_⟩
  · rw [engState_showEngine, engState_stopEngine]
  · rw [mem_of_onlyRegs hshow, mem_stopEngine, mem_of_onlyRegs hepc, mem_countStores]
  · exact keepsEngines_trans (keepsEngines_countStores e y.ops s)
      (keepsEngines_trans (keepsEngines_of_onlyRegs hepc)
        (keepsEngines_trans (keepsEngines_stopEngine e 2 s1) (keepsEngines_of_onlyRegs hshow)))

end

/-- The engine in state z once the effect y has taken place. -/
def Engine.take (z : Engine) (y : Eff) : Engine :=
  { z with arch := y.x, base := y.x, loads := z.loads ++ y.loads, long := if y.long.isSome then y.long else z.long }

theorem takeEff_eq (e : Nat) (y : Eff) (s : State) : takeEff e y s = updEng e (fun z => z.take y) s := rfl

/-- An effect that writes nothing and does not stop the engine for good retires with nothing changed but the engine. -/
theorem retired_settleEff {e : Nat} {y : Eff} (s : State) (hops : y.ops = []) (hcause : y.cause = 0)
    (hstop : y.stop = 0 ∨ y.stop = 1) :
    Retired e ((engOf s e).take y) s (settleEff e (engOf s e).arch.pc y (takeEff e y s)) := by
  have hshows := onlyRegs_settleEff (e := e) (pc := (engOf s e).arch.pc) (takeEff e y s) hcause hstop
  have hkeeps : KeepsEngines e s (countStores e y.ops (takeEff e y s)) :=
    keepsEngines_trans (keepsEngines_updEng e _ s) (keepsEngines_countStores e y.ops _)
  refine ⟨?_, fun k hk => ?_, ?_, hshows.1, fld_bdEpc_settleEff _ hcause hstop⟩
  · rw [engOf_of_onlyRegs hshows, engOf_countStores, takeEff_eq, engOf_updEng_self, hops]
    rfl
  · rw [engOf_of_onlyRegs hshows, hkeeps k hk]
  · rw [mem_of_onlyRegs hshows, mem_countStores]
    rfl

/-- The same of an effect that starts no load and no long operation. -/
theorem retired_settleEff_of_idle {e : Nat} {y : Eff} (s : State) (hops : y.ops = []) (hloads : y.loads = [])
    (hlong : y.long = none) (hcause : y.cause = 0) (hstop : y.stop = 0 ∨ y.stop = 1) :
    Retired e { engOf s e with arch := y.x, base := y.x } s
      (settleEff e (engOf s e).arch.pc y (takeEff e y s)) := by
  have htake : (engOf s e).take y = { engOf s e with arch := y.x, base := y.x } := by
    simp [Engine.take, hloads, hlong]
  exact htake ▸ retired_settleEff s hops hcause hstop

/-! ## A bundle of one operation (R187, R212) -/

/-- What the arrays show a bundle of row r: u for the rows of the loads and stores, and nothing for the others. -/
def rowUpset (r : Row) (u : Upset) : Upset :=
  match r with
  | .ldw | .ldh | .ldhu | .ldb | .ldbu | .stw | .sth | .stb => u
  | _ => .none

/-- The command of a row steps its engine under that row. -/
theorem exec_rowCommand (r : Row) (e : Fin 128) (u : Upset) (s : State) :
    exec (rowCommand r e u) s = live true s (engineStep r e (rowUpset r u) s) := by
  cases r <;> rfl

/-- Engine e as it runs in no binding. -/
def Who.single (e : Nat) : Who := ⟨e, e, none, 0⟩

theorem whoOf_of_single {s : State} {e : Nat} (h : (whoOf s e).slot = none) : whoOf s e = Who.single e := by
  unfold whoOf at h ⊢
  split at h
  · cases h
  · rfl

theorem spells_row (o : Op) : spells o.row [o] = true := by
  unfold spells
  split <;> simp_all

/-- State x with the next bundle's address, which a bundle's effect begins with (R187). -/
abbrev Arch.next (x : Arch) : Arch := { x with pc := x.pc + 4 }

/-- A bundle of one operation that completes with effect y has that effect, outside a repeat. -/
theorem bundleEffect_of_done {w : Who} {x : Arch} {u : Upset} {o : Op} {s t : State} {y : Eff} (hrep : x.rkind = 0)
    (hop : runOp w x u o s (Eff.at x.next) = done t y) :
    bundleEffect w x u [o] s = some (t, y, none) := by
  have hops : runOps w x u [o] s (Eff.at x.next) = done t y := by
    rw [runOps, hop]
    rfl
  rw [bundleEffect, hops]
  simp [done, advance, hrep]

section
variable {s : State} {e : Fin 128} {u : Upset} {o : Op} {y : Eff} {t : State}

/-- Where a single engine issues one operation that completes with effect y, and the writes of y are performed, the
command of the operation's row retires the bundle. -/
theorem exec_of_issues {n : Nat} {s1 : State} (h : Issues s e [o]) (hrep : (engOf s e).arch.rkind = 0)
    (hop : runOp (Who.single e) (engOf s e).arch (rowUpset o.row u) o s (Eff.at (engOf s e).arch.next) = done t y)
    (hrefused : y.refused = []) (hops : performOps e y.upset y.ops (takeEff e y t) = (s1, n, false)) :
    exec (rowCommand o.row e u) s = .next (settleEff e (engOf s e).arch.pc y s1) := by
  obtain ⟨halive, hslot, hmay, hevent, hexc, hfetch, htouch, hwaits⟩ := h
  rw [whoOf_of_single hslot] at hmay hevent hexc hfetch htouch hwaits
  have hrun : runBundle (Who.single e) (rowUpset o.row u) [o] s s =
      some (settleEff e (engOf s e).arch.pc y s1) := by
    have hretire := retireSingle_of_performed (w := Who.single e) (pc := (engOf s e).arch.pc) rfl hrefused hops
    have heff := bundleEffect_of_done hrep hop
    simp only [runBundle, finishSingle, Who.single] at hwaits hretire heff ⊢
    simp [hwaits, heff, hretire]
  rw [exec_rowCommand, live_eq halive rfl, engineStep, whoOf_of_single hslot]
  simp [hmay, hevent, hexc, nextBundle, hfetch, htouch, spells_row, hrun]

/-- The same of an operation that writes nothing and leaves the rest of the device alone. -/
theorem runs_of_issues {P : State → Prop} (h : Issues s e [o]) (hrep : (engOf s e).arch.rkind = 0)
    (hop : runOp (Who.single e) (engOf s e).arch (rowUpset o.row u) o s (Eff.at (engOf s e).arch.next) = done s y)
    (hrefused : y.refused = []) (hops : y.ops = [])
    (p : P (settleEff e (engOf s e).arch.pc y (takeEff e y s))) : Runs (rowCommand o.row e u) s P :=
  runs_of_eq (exec_of_issues h hrep hop hrefused (n := 0) (by rw [hops]; rfl)) p

end

/-! ## Long operations, FENCE, WAIT, HALT and FLUSH.I (R199, R203, R215, R236, R241) -/

/-- A SYS operation whose privilege holds does what sysOp says. -/
theorem runOp_sys {w : Who} {x : Arch} {u : Upset} {o : Op} (s : State) (y : Eff)
    (ho : o ∈ [Op.fence, .wait, .halt, .flushI]) (hpriv : sysLevel o ≤ x.priv) :
    runOp w x u o s y = sysOp w x o s y := by
  simp only [List.mem_cons, List.not_mem_nil, or_false] at ho
  rcases ho with rfl | rfl | rfl | rfl <;> simp [runOp, Op.row, Nat.not_lt.mpr hpriv]

theorem take_longResult (z : Engine) (e : Nat) (x y : Arch) (d : Nat) (r : Nat × Bool) :
    z.take ((Eff.at y).longResult (Who.single e) x d r) =
      { z with arch := y, base := y, long := some (x.place d, r.1, r.2) } := by
  simp [Engine.take, Eff.longResult, Who.single, Eff.at]

/-- FENCE issues where no load and no store is on its way. -/
theorem idle_of_issues_fence {s : State} {e : Fin 128} (h : Issues s e [.fence]) :
    (engOf s e).loads = [] ∧ (engOf s e).stores = 0 := by
  obtain ⟨-, hslot, -, -, -, -, -, hwaits⟩ := h
  rw [whoOf_of_single hslot] at hwaits
  simp [waits, Who.single] at hwaits
  obtain ⟨-, hidle, -⟩ := hwaits
  exact hidle

section
variable {s : State} {e : Fin 128} {u : Upset} (hrep : (engOf s e).arch.rkind = 0)
include hrep

/-- A divide or square root of a single engine starts the long-operation unit with its result r. -/
theorem runs_longOp {o : Op} {d : Nat} {r : Nat × Bool} (h : Issues s e [o])
    (hop : ∀ y, runOp (Who.single e) (engOf s e).arch (rowUpset o.row u) o s y =
      done s (y.longResult (Who.single e) (engOf s e).arch d r)) :
    Runs (rowCommand o.row e u) s (Retired e { engOf s e with
      arch := (engOf s e).arch.next, base := (engOf s e).arch.next,
      long := some ((engOf s e).arch.place d, r.1, r.2) } s) := by
  refine runs_of_issues h hrep (hop _) rfl rfl ?_
  rw [← take_longResult]
  exact retired_settleEff s rfl rfl (.inl rfl)

theorem runs_fence (h : Issues s e [.fence]) : Runs (.fence e) s fun t =>
    (engOf s e).loads = [] ∧ (engOf s e).stores = 0 ∧
      Retired e { engOf s e with arch := (engOf s e).arch.next, base := (engOf s e).arch.next } s t := by
  obtain ⟨hloads, hstores⟩ := idle_of_issues_fence h
  exact runs_of_issues (u := .none) h hrep (runOp_sys s _ (by simp) (Nat.zero_le _)) rfl rfl
    ⟨hloads, hstores, retired_settleEff_of_idle s rfl rfl rfl rfl (.inl rfl)⟩

theorem runs_wait (h : Issues s e [.wait]) : Runs (.wait e) s fun t => engState t e = 1 ∧
    Retired e { engOf s e with arch := (engOf s e).arch.next, base := (engOf s e).arch.next } s t :=
  runs_of_issues (u := .none) h hrep (runOp_sys s _ (by simp) (Nat.zero_le _)) rfl rfl
    ⟨engState_settleEff_wait _ rfl rfl, retired_settleEff_of_idle s rfl rfl rfl rfl (.inr rfl)⟩

theorem runs_halt (h : Issues s e [.halt]) (hpriv : (engOf s e).arch.priv = 2) :
    Runs (.halt e) s fun t => engState t e = 2 ∧ t.mem = s.mem ∧ KeepsEngines e s t := by
  refine runs_of_issues (u := .none) h hrep (runOp_sys s _ (by simp) (Nat.le_of_eq hpriv.symm)) rfl rfl ?_
  generalize hy : ({ Eff.at (engOf s e).arch.next with stop := 2 } : Eff) = y
  obtain ⟨hstate, hmem, hengines⟩ := settleEff_halt (e := e) (pc := (engOf s e).arch.pc) (y := y) (takeEff e y s)
    (by rw [← hy]; rfl) (by rw [← hy])
  exact ⟨hstate, hmem, keepsEngines_trans (keepsEngines_updEng e _ s) hengines⟩

/-- FLUSH.I performs the writes of the code-write buffer, whose end state is s1, and empties it. -/
theorem runs_flushI {n : Nat} {s1 : State} (h : Issues s e [.flushI]) (hpriv : 1 ≤ (engOf s e).arch.priv)
    (hwrites : performOps e .none ((engOf s e).arch.cwb.flatMap CodeWrite.ops)
      (takeEff e (Eff.at { (engOf s e).arch.next with cwb := [] }) s) = (s1, n, false)) :
    Runs (.flushI e) s fun t => (engOf t e).arch = (engOf s1 e).arch ∧ t.mem = s1.mem :=
  runs_of_eq (exec_of_issues (u := .none) h hrep (runOp_sys s _ (by simp) hpriv) rfl hwrites)
    (settleEff_keeps s1 rfl (.inl rfl))

end

/-! ## Results that return later (R14, R202, R203) -/

theorem updEng_effect (e : Nat) (f : Engine → Engine) (s : State) :
    engOf (updEng e f s) e = f (engOf s e) ∧ KeepsEngines e s (updEng e f s) ∧ (updEng e f s).regs = s.regs ∧
      (updEng e f s).mem = s.mem :=
  ⟨engOf_updEng_self e f s, keepsEngines_updEng e f s, rfl, rfl⟩

/-- A pending result lands in its place, and f takes it off what engine e waits for. -/
theorem updEng_landResult_effect (e p v : Nat) (b : Bool) (f : Engine → Engine) (s : State) :
    let x := ((engOf s e).arch.setAt p v).satIf b
    let t := updEng e f (landResult e p v b s)
    engOf t e = f { engOf s e with arch := x, base := x } ∧ KeepsEngines e s t ∧ t.regs = s.regs ∧ t.mem = s.mem := by
  obtain ⟨hland, hlandKeeps, -, -⟩ := updEng_effect e
    (fun z => let x := (z.arch.setAt p v).satIf b; { z with arch := x, base := x }) s
  obtain ⟨hoff, hoffKeeps, -, -⟩ := updEng_effect e f (landResult e p v b s)
  exact ⟨hoff.trans (congrArg f hland), keepsEngines_trans hlandKeeps hoffKeeps, rfl, rfl⟩

theorem longComplete_of_some {e p v : Nat} {b : Bool} {s : State} (h : (engOf s e).long = some (p, v, b)) :
    longComplete e s = updEng e (fun z => { z with long := none }) (landResult e p v b s) := by
  simp only [longComplete, h]

theorem loadReturn_of_cons {e p v : Nat} {rest : List (Nat × Nat)} {s : State}
    (h : (engOf s e).loads = (p, v) :: rest) :
    loadReturn e s = updEng e (fun z => { z with loads := rest }) (landResult e p v false s) := by
  simp only [loadReturn, h]

/-- Settles O30, a clause at a time. -/
theorem engineLongAndStopBundlesRun : Obligations.EngineLongAndStopBundlesRun := by
  unfold Obligations.EngineLongAndStopBundlesRun
  intro s e u k d g h p v b
  refine ⟨fun o r hor hrep hissues => ?_, fun c z1 rest halive hc => ?_, runs_fence, runs_wait, runs_halt,
    fun n s1 hrep hissues hpriv hwrites => runs_flushI hrep hissues hpriv hwrites⟩
  -- A divide, a square root
  · simp only [List.mem_cons, List.not_mem_nil, or_false, Prod.mk.injEq] at hor
    rcases hor with ⟨rfl, rfl⟩ | ⟨rfl, rfl⟩
    · exact runs_longOp hrep hissues fun _ => rfl
    · exact runs_longOp hrep hissues fun _ => rfl
  -- LONG_OP_COMPLETE, LOAD_DATA_RETURN, STORE_ACK
  · rcases hc with ⟨rfl, hlong, rfl⟩ | ⟨rfl, hloads, rfl⟩ | ⟨rfl, rfl⟩
    · refine runs_of_eq (live_eq halive rfl) ?_
      rw [longComplete_of_some hlong]
      exact updEng_landResult_effect e p v b _ s
    · refine runs_of_eq (live_eq halive rfl) ?_
      rw [loadReturn_of_cons hloads]
      exact updEng_landResult_effect e p v false _ s
    · exact runs_of_eq (live_eq halive rfl) (updEng_effect e _ s)

end Sys2Proof.Machine
end

section
/-! Rules about single fields that the proofs about the rails share: a flag and a saturating count after a write of
their register, and what a state that differs in its registers alone still holds. -/

namespace Sys2Proof.Machine

/-! ## Flags and counts -/

theorem flag_of_fld_eq {s t : State} {a : Nat} {f : Bits} (h : fld t a f = fld s a f) : flag t a f = flag s a f :=
  congrArg (· != 0) h

theorem fld_of_keepsRegs {as : List Nat} {s t : State} {a : Nat} (f : Bits) (h : KeepsRegs as s t) (ha : a ∉ as) :
    fld t a f = fld s a f := congrArg (getBits · f) (h a ha)

/-- A count reads one more after it is counted up, held at its largest value. -/
theorem fld_incFld_self (a : Nat) (f : Bits) (s : State) (h : f.lo ≤ f.hi) (hn : f.hi < 32) :
    fld (incFld a f s) a f = min (fld s a f + 1) (maxBits f) := by
  have hpos : 0 < 2 ^ (f.hi - f.lo + 1) := Nat.two_pow_pos _
  refine (fld_setFld_self a f _ s h hn).trans (Nat.mod_eq_of_lt ?_)
  unfold maxBits
  omega

/-- The whole word of a register as a field is the word. -/
theorem fld_wordBits (s : State) (a : Nat) : fld s a wordBits = rd s a := by
  have hlt := rd_lt s a
  simp only [fld, getBits, wordBits, Nat.pow_zero, Nat.div_one]
  exact Nat.mod_eq_of_lt hlt

theorem rd_incFld_wordBits (a : Nat) (s : State) : rd (incFld a wordBits s) a = min (rd s a + 1) 0xFFFFFFFF := by
  have h := fld_incFld_self a wordBits s (by decide) (by decide)
  rwa [fld_wordBits, fld_wordBits] at h

/-- Sample indices count modulo 2 ^ 32. -/
theorem indexAt_lt (s : State) (q ns : Nat) : indexAt s q ns < 2 ^ 32 := by
  unfold indexAt
  dsimp only
  split <;> exact Nat.mod_lt _ (by decide)

theorem onlyRegs_mono {as bs : List Nat} {s t : State} (hsub : as ⊆ bs) (h : OnlyRegs as s t) : OnlyRegs bs s t := by
  obtain ⟨hregs, hraised, hrest⟩ := h
  exact ⟨fun a ha => hregs a fun h => ha (hsub h), fun a ha => hraised a fun h => ha (hsub h), hrest⟩

/-! ## Rails -/

@[simp] theorem railOf_setFlag (a : Nat) (f : Bits) (b : Bool) (s : State) (r : Nat) :
    railOf (setFlag a f b s) r = railOf s r := (rfl)

@[simp] theorem railOf_updRail_self (r : Nat) (f : Rail → Rail) (s : State) :
    railOf (updRail r f s) r = f (railOf s r) := by rw [railOf_updRail, if_pos rfl]

end Sys2Proof.Machine
end

section
/-! The commands of the rail table: the checks of R44, what a refused command shows, and what an accepted one does
(R43 to R47, R73). -/

namespace Sys2Proof.Machine

/-! ## RT_CMDSTAT (R44, R73) -/

/-- The checks of R44 are numbered from 1 to 9. -/
theorem rtCheck_le (s : State) (op r : Nat) (bySeq : Bool) : rtCheck s op r bySeq ≤ 9 := by
  unfold rtCheck
  dsimp only
  repeat' split
  all_goals decide

/-- RT_CMDSTAT shows the result and the rail, keeps BUSY, and is the one register that changes. -/
theorem rtResult_effect {r result : Nat} (s : State) (hr : r < 32) (hresult : result ≤ 9) :
    fld (rtResult r result s) Reg.RT_CMDSTAT Fld.RT_CMDSTAT_RESULT = result ∧
      fld (rtResult r result s) Reg.RT_CMDSTAT Fld.RT_CMDSTAT_RAIL = r ∧
      flag (rtResult r result s) Reg.RT_CMDSTAT Fld.RT_CMDSTAT_BUSY = flag s Reg.RT_CMDSTAT Fld.RT_CMDSTAT_BUSY ∧
      OnlyRegs [Reg.RT_CMDSTAT] s (rtResult r result s) := by
  unfold rtResult
  refine ⟨?_, ?_, flag_of_fld_eq ?_,
    onlyRegs_setFld _ _ _ (onlyRegs_setFld _ _ _ (onlyRegs_refl _ s) (by simp)) (by simp)⟩
  · exact (fld_setFld_self _ _ _ _ (by decide) (by decide)).trans
      (Nat.mod_eq_of_lt (Nat.lt_of_le_of_lt hresult (by decide)))
  · rw [fld_setFld_other _ _ _ _ _ (by decide) (by decide) (by decide) (by decide)]
    exact (fld_setFld_self _ _ _ _ (by decide) (by decide)).trans (Nat.mod_eq_of_lt hr)
  · rw [fld_setFld_other _ _ _ _ _ (by decide) (by decide) (by decide) (by decide),
      fld_setFld_other _ _ _ _ _ (by decide) (by decide) (by decide) (by decide)]

theorem updRail_rtResult (r k result : Nat) (f : Rail → Rail) (s : State) :
    updRail r f (rtResult k result s) = rtResult k result (updRail r f s) := rfl

/-- A refused command shows its result and does nothing more. -/
theorem rtCommand_of_refused {op r : Nat} {bySeq : Bool} {s : State} (h : rtCheck s op r bySeq ≠ 0) :
    rtCommand op r bySeq s = rtResult r (rtCheck s op r bySeq) s := by
  simp [rtCommand, h]

/-- The commands that a Foreman core or an engine gives the rail table run the checks of R44 for its write of RT_CMD. -/
theorem exec_rtCommand {s : State} {m : Master} {r : Fin 32} {op : Nat} {c : Instr} (hw : CanWrite s m Reg.RT_CMD)
    (hc : (op, c) ∈ [(1, Instr.rtCommit m r), (2, .rtEnable m r), (3, .rtDisable m r), (4, .rtClear m r),
      (5, .rtClrcnt m r)]) : exec c s = .next (rtCommand op r false s) := by
  simp only [List.mem_cons, List.not_mem_nil, or_false, Prod.mk.injEq] at hc
  rcases hc with ⟨rfl, rfl⟩ | ⟨rfl, rfl⟩ | ⟨rfl, rfl⟩ | ⟨rfl, rfl⟩ | ⟨rfl, rfl⟩ <;> exact regWriteBy_eq hw

/-- Settles O6: a refused command only has its result shown. -/
theorem railCommandsRefused : Obligations.RailCommandsRefused := by
  unfold Obligations.RailCommandsRefused
  intro s m r op c hw hc hrefused
  refine runs_of_eq (exec_rtCommand hw hc) ?_
  rw [rtCommand_of_refused hrefused]
  exact rtResult_effect s r.isLt (rtCheck_le s op r false)

/-! ## Accepted commands (R43, R45, R47, R73) -/

/-- The rail table's registers stand apart from RT_CMDSTAT, so the entry they hold outlasts its writes. -/
theorem readEntry_of_keepsRegs {s t : State} (r : Nat) (h : KeepsRegs [Reg.RT_CMDSTAT] s t) :
    readEntry t r = readEntry s r := by
  have hkeep : ∀ a, Reg.RT_CMDSTAT < a → rd t a = rd s a := fun a ha => h a (by simp; omega)
  simp only [readEntry, RailEntry.mk.injEq]
  refine ⟨?_, ?_, ?_, ?_, ?_, ?_, ?_, ?_, ?_, ?_, ?_, ?_, ?_⟩ <;> refine hkeep _ ?_ <;>
    simp only [Reg.RT_CMDSTAT, Reg.RT_CFG, Reg.RT_MEMB, Reg.RT_VREF, Reg.RT_LL, Reg.RT_PERIOD, Reg.RT_ILIM,
      Reg.RT_PHLIM, Reg.RT_NPH, Reg.RT_ADAPT, Reg.RT_PGOOD] <;> omega

/-- A rail with command op accepted, which carries entry e. -/
def Rail.accept (x : Rail) (op : Nat) (e : RailEntry) (bySeq : Bool) : Rail :=
  { x with cmd := op, next := e, bySeq := bySeq, latchAt := 0 }

@[simp] theorem accept_cmd (op : Nat) (e : RailEntry) (bySeq : Bool) (x : Rail) :
    (x.accept op e bySeq).cmd = op := (rfl)
@[simp] theorem accept_next (op : Nat) (e : RailEntry) (bySeq : Bool) (x : Rail) :
    (x.accept op e bySeq).next = e := (rfl)

/-- An accepted COMMIT, ENABLE or DISABLE waits, BUSY, with the entry that the registers hold; beside that it notes at
most in the supply monitor's run that the host disables the rail. -/
theorem rtCommand_of_entry {op r : Nat} {bySeq : Bool} {s : State} (hop : op ≤ 3) (hr : r < 32)
    (h : rtCheck s op r bySeq = 0) :
    ∃ f : Supply → Supply, rtCommand op r bySeq s = setFlag Reg.RT_CMDSTAT Fld.RT_CMDSTAT_BUSY true
      (updRail r (fun x => x.accept op (readEntry s r) bySeq) (updSup f (rtResult r 0 s))) := by
  obtain ⟨-, -, -, hregs, -, -⟩ := rtResult_effect s hr (Nat.zero_le 9)
  have hentry : readEntry (rtResult r 0 s) r = readEntry s r := readEntry_of_keepsRegs r hregs
  have h4 : op ≠ 4 := by omega
  have h5 : op ≠ 5 := by omega
  simp only [rtCommand, h, bne_self_eq_false, Bool.false_eq_true, if_false, h4, h5]
  split
  · exact ⟨_, by rw [← hentry]; rfl⟩
  · exact ⟨id, by rw [← hentry]; rfl⟩

/-- What RT_CMDSTAT, the rail and the rest of the device hold after such a command. -/
theorem rtCommand_entry_effect {op r : Nat} {bySeq : Bool} {s : State} (hop : op ≤ 3) (hr : r < 32)
    (h : rtCheck s op r bySeq = 0) :
    let t := rtCommand op r bySeq s
    flag t Reg.RT_CMDSTAT Fld.RT_CMDSTAT_BUSY = true ∧ fld t Reg.RT_CMDSTAT Fld.RT_CMDSTAT_RESULT = 0 ∧
      fld t Reg.RT_CMDSTAT Fld.RT_CMDSTAT_RAIL = r ∧ (railOf t r).cmd = op ∧ (railOf t r).next = readEntry s r ∧
      KeepsRegs [Reg.RT_CMDSTAT] s t ∧ t.mem = s.mem ∧ t.chans = s.chans := by
  obtain ⟨hresult, hrail, -, hregs, -, -⟩ := rtResult_effect s hr (Nat.zero_le 9)
  obtain ⟨f, heq⟩ := rtCommand_of_entry hop hr h
  have hkeep : KeepsRegs [Reg.RT_CMDSTAT] s (updRail r (fun x => x.accept op (readEntry s r) bySeq)
      (updSup f (rtResult r 0 s))) := fun a ha => by rw [rd_updRail, rd_updSup, hregs a ha]
  rw [heq]
  refine ⟨flag_setFlag_self _ _ _ _ (by decide) (by decide), ?_, ?_, by simp, by simp,
    keepsRegs_setFlag _ _ _ hkeep (by simp), by simp [rtResult], by simp [rtResult]⟩
  · rw [setFlag, fld_setFld_other _ _ _ _ _ (by decide) (by decide) (by decide) (by decide), fld_updRail, fld_updSup,
      hresult]
  · rw [setFlag, fld_setFld_other _ _ _ _ _ (by decide) (by decide) (by decide) (by decide), fld_updRail, fld_updSup,
      hrail]

theorem rtCommand_of_clear {r : Nat} {bySeq : Bool} {s : State} (h : rtCheck s 4 r bySeq = 0) :
    rtCommand 4 r bySeq s = rtClear r (rtResult r 0 s) := by simp [rtCommand, h]

theorem rtCommand_of_clrcnt {r : Nat} {bySeq : Bool} {s : State} (h : rtCheck s 5 r bySeq = 0) :
    rtCommand 5 r bySeq s = rtClrcnt r (rtResult r 0 s) := by simp [rtCommand, h]

/-- CLRCNT zeroes the three counts, and changes no register beside them; the tick that ILIM was last counted in is
forgotten. -/
theorem rtClrcnt_effect (r : Nat) (s : State) :
    rd (rtClrcnt r s) (Reg.RT_MISS r) = 0 ∧ rd (rtClrcnt r s) (Reg.RT_OPPOSE r) = 0 ∧
      rd (rtClrcnt r s) (Reg.RT_ILIMCNT r) = 0 ∧
      OnlyRegs [Reg.RT_MISS r, Reg.RT_OPPOSE r, Reg.RT_ILIMCNT r] (updRail r (fun x => { x with ilimWas := 0 }) s)
        (rtClrcnt r s) := by
  have hmo : Reg.RT_MISS r ≠ Reg.RT_OPPOSE r := by simp [Reg.RT_MISS, Reg.RT_OPPOSE]
  have hmi : Reg.RT_MISS r ≠ Reg.RT_ILIMCNT r := by simp [Reg.RT_MISS, Reg.RT_ILIMCNT]
  have hoi : Reg.RT_OPPOSE r ≠ Reg.RT_ILIMCNT r := by simp [Reg.RT_OPPOSE, Reg.RT_ILIMCNT]
  unfold rtClrcnt
  refine ⟨?_, ?_, rd_wr_self _ _ _, onlyRegs_wr _ _ (onlyRegs_wr _ _ (onlyRegs_wr _ _ (onlyRegs_refl _ _) (by simp))
    (by simp)) (by simp)⟩
  · exact (rd_wr_ne _ _ _ _ hmi).trans ((rd_wr_ne _ _ _ _ hmo).trans (rd_wr_self _ _ _))
  · exact (rd_wr_ne _ _ _ _ hoi).trans (rd_wr_self _ _ _)

/-- Settles O5, a clause at a time. -/
theorem railCommandsAccepted : Obligations.RailCommandsAccepted := by
  unfold Obligations.RailCommandsAccepted
  intro s m r hw
  refine ⟨fun op c hc hok => ?_, fun hok => ?_, fun hok => ?_⟩
  -- COMMIT, ENABLE, DISABLE
  · have hop : op ≤ 3 := by
      simp only [List.mem_cons, List.not_mem_nil, or_false, Prod.mk.injEq] at hc
      omega
    exact runs_of_eq (exec_rtCommand hw (List.mem_append_left [(4, .rtClear m r), (5, .rtClrcnt m r)] hc))
      (rtCommand_entry_effect hop r.isLt hok)
  -- CLEAR
  · exact runs_of_eq (exec_rtCommand hw (by simp)) (rtCommand_of_clear hok)
  -- CLRCNT
  · refine runs_of_eq (exec_rtCommand hw (r := r) (op := 5) (by simp)) ?_
    rw [rtCommand_of_clrcnt hok]
    obtain ⟨hmiss, hoppose, hilim, hcounts⟩ := rtClrcnt_effect r (rtResult r 0 s)
    rw [updRail_rtResult] at hcounts
    have hother : Reg.RT_CMDSTAT ∉ [Reg.RT_MISS r, Reg.RT_OPPOSE r, Reg.RT_ILIMCNT r] := by
      simp only [Reg.RT_CMDSTAT, Reg.RT_MISS, Reg.RT_OPPOSE, Reg.RT_ILIMCNT, List.mem_cons, List.not_mem_nil, or_false]
      omega
    obtain ⟨hresult, -, -, hshown⟩ :=
      rtResult_effect (updRail r (fun x => { x with ilimWas := 0 }) s) r.isLt (Nat.zero_le 9)
    exact ⟨hmiss, hoppose, hilim, (fld_of_keepsRegs _ hcounts.1 hother).trans hresult,
      onlyRegs_trans (onlyRegs_mono (by simp) hshown) (onlyRegs_mono (by simp) hcounts)⟩

/-! ## The applying index (R45 to R47, R72) -/

/-- RT_APPLIED shows index k, and the rail table is free again (R45). -/
def showApplied (r k : Nat) (s : State) : State :=
  updRail r (fun x => { x with cmd := 0 })
    (setFlag Reg.RT_CMDSTAT Fld.RT_CMDSTAT_BUSY false (wr (Reg.RT_APPLIED r) k s))

section
variable {s : State} {r k t : Nat} (hlatched : railState s r ≠ 4)
include hlatched

theorem entryApply_of_commit (hoff : railState s r ≠ 0) (hcmd : (railOf s r).cmd = 1) :
    entryApply r k t s = showApplied r k (applyCommit r t s) := by
  simp [entryApply, showApplied, hlatched, hoff, hcmd]

theorem entryApply_of_enable (hcmd : (railOf s r).cmd = 2) :
    entryApply r k t s = updSup (fun y => { y with run := { y.run with
      applied := tset (fun _ => 0) y.run.applied r (t + 1) } }) (showApplied r k (enterEnable r t s)) := by
  simp [entryApply, showApplied, hlatched, hcmd]

theorem entryApply_of_disable (hoff : railState s r ≠ 0) (hcmd : (railOf s r).cmd = 3) :
    entryApply r k t s = showApplied r k (applyDisable r s) := by
  simp [entryApply, showApplied, hlatched, hoff, hcmd]

end

/-- An accepted command acts at the next tick of the rail's home quire. -/
theorem exec_railEntryApply {s : State} {r : Fin 32} {t : Nat} (ha : alive s = true)
    (htick : nextTick s (homeOf r) = some t) (hcmd : (railOf s r).cmd ≠ 0) :
    exec (.railEntryApply r) s = .next (entryApply r (indexAt s (homeOf r) t) t s) := by
  show execRailEntryApply r s = _
  simp only [execRailEntryApply, htick]
  exact live_eq ha (by simpa using hcmd)

/-- A waiting command that the checks of R44 let pass is followed by the sequence alone. -/
theorem takeWaiting_of_accepted {s v : State} {op r : Nat} {rest : List (Nat × Nat)}
    (hwait : s.sup.run.waiting = (op, r) :: rest)
    (hv : rtCommand op r true (updSup (fun y => { y with run := { y.run with waiting := rest } }) s) = v)
    (hok : fld v Reg.RT_CMDSTAT Fld.RT_CMDSTAT_RESULT = 0) : takeWaiting s = seqMark v := by
  simp [takeWaiting, hwait, hv, hok]

/-- Settles O7, a clause at a time. -/
theorem railEntriesApply : Obligations.RailEntriesApply := by
  unfold Obligations.RailEntriesApply
  intro s r t ha htick k settled
  have run : ∀ {P : State → Prop}, (railOf s r).cmd ≠ 0 → P (entryApply r k t s) → Runs (.railEntryApply r) s P :=
    fun hcmd p => runs_of_eq (exec_railEntryApply ha htick hcmd) p
  refine ⟨fun hlatched hoff hcmd => ?_, fun hlatched hcmd => ?_, fun hlatched hoff hcmd => ?_,
    fun op rest hwait hfree => ?_⟩
  -- COMMIT, ENABLE, DISABLE
  · exact run (by simp [hcmd]) (entryApply_of_commit hlatched hoff hcmd)
  · exact run (by simp [hcmd]) (entryApply_of_enable hlatched hcmd)
  · exact run (by simp [hcmd]) (entryApply_of_disable hlatched hoff hcmd)
  -- SUPPLY_MONITOR_CMD_TAKEN
  · intro v hok
    exact runs_of_eq (live_eq ha (by simp [hwait, hfree])) (takeWaiting_of_accepted hwait rfl hok)

end Sys2Proof.Machine
end

section
/-! The events of the voltage loop: the control tick, power good, phase drop, rotation and wear (R48, R49, R56, R60 to
R62, R75). -/

namespace Sys2Proof.Machine

/-! ## The control tick (R56) -/

theorem tickNow_of_ready {s : State} {q t : Nat} (htick : nextTick s q = some t)
    (hready : tickReady s q (indexAt s q t) t = true) : tickNow s q = some t := by
  simp [tickNow, htick, hready]

/-- The comparators take their ticks, and then the loop unit computes the tick that can be, if there is one. -/
theorem exec_controlTick {s c : State} {q : Fin 16} (ha : alive s = true) (hm : 2 ≤ mode s)
    (hc : comparatorTicks q (now s + 1) s = c) :
    exec (.controlTick q) s = .next ((tickNow c q).elim c fun t => controlTick q t c) := by
  show execControlTick q s = _
  unfold execControlTick
  dsimp only
  rw [live_eq ha (decide_eq_true hm), hc]
  cases tickNow c q <;> rfl

/-! ## Power good (R48) -/

/-- The sequence takes note of its rails in the supply monitor's own state alone. -/
theorem seqMark_eq_updSup (s : State) : ∃ f : Supply → Supply, seqMark s = updSup f s := by
  unfold seqMark
  dsimp only
  split
  · exact ⟨_, rfl⟩
  · exact ⟨id, rfl⟩

@[simp] theorem fld_seqMark (s : State) (a : Nat) (f : Bits) : fld (seqMark s) a f = fld s a f := by
  obtain ⟨g, hmark⟩ := seqMark_eq_updSup s
  rw [hmark, fld_updSup]

@[simp] theorem seqMark_mem (s : State) : (seqMark s).mem = s.mem := by
  obtain ⟨f, hmark⟩ := seqMark_eq_updSup s
  rw [hmark]
  rfl

/-- A rise sets PG, which stays set where the rail enters ON with it. -/
theorem pgRise_effect (r : Nat) (s : State) :
    flag (pgRise r s) (Reg.RT_STATE r) Fld.RT_STATE_PG = true ∧ (pgRise r s).mem = s.mem := by
  have hpg : flag (setFlag (Reg.RT_STATE r) Fld.RT_STATE_PG true s) (Reg.RT_STATE r) Fld.RT_STATE_PG = true :=
    flag_setFlag_self _ _ _ _ (by decide) (by decide)
  simp only [pgRise, flag, fld_seqMark, fld_updSup, fld_updFm, seqMark_mem]
  split
  · exact ⟨(flag_of_fld_eq (fld_setFld_other _ _ _ _ _ (by decide) (by decide) (by decide) (by decide))).trans hpg,
      by simp⟩
  · exact ⟨hpg, by simp⟩

/-- A fall clears PG; in ON it is reported. -/
theorem pgFall_of_on {r : Nat} {s : State} (h : railState s r = 2) :
    pgFall r s = report { src := 0x10, event := 3, cls := 2, unit := r }
      (setFlag (Reg.RT_STATE r) Fld.RT_STATE_PG false s) := by simp [pgFall, h]

theorem pgFall_of_not_on {r : Nat} {s : State} (h : railState s r ≠ 2) :
    pgFall r s = setFlag (Reg.RT_STATE r) Fld.RT_STATE_PG false s := by simp [pgFall, h]

/-! ## Rotation and wear (R62) -/

/-- A rotation swaps the two members that the scores choose, and stages the tick again. -/
theorem rotation_of_some {r : Nat} {s : State} {x y : Nat × Nat}
    (hout : greatestBy (scoreKey s r) (activeMembers s r) = some y)
    (hin : leastBy (scoreKey s r) ((availMembers s r).filter (fun z => !memberActive s r z.1)) = some x) :
    rotation r s = showCounts r (stageRail r (noteSet r (updRail r (fun z => { z with rotate := false })
      (setActive r y.1 y.2 false (setActive r x.1 x.2 true s))))) := by
  simp only [rotation, hout, hin]

theorem wearCount_effect (r j : Nat) (s : State) :
    rd (wearCount r j s) (mbrWear r j) = min (rd s (mbrWear r j) + 1) 0xFFFFFFFF ∧
      KeepsRegs [mbrWear r j] s (wearCount r j s) ∧ (wearCount r j s).mem = s.mem := by
  unfold wearCount
  refine ⟨rd_incFld_wordBits _ _, fun a ha => ?_, by simp⟩
  exact (rd_setFld_ne _ _ _ _ a (by simpa using ha)).trans (rd_updRail _ _ _ _)

/-- Settles O8, an event at a time. -/
theorem loopEventsRun : Obligations.LoopEventsRun := by
  unfold Obligations.LoopEventsRun
  intro s r ha
  refine ⟨fun q hm => ⟨fun t htick hready => ?_, fun hnone => ?_⟩, fun hdue => ?_, fun hdue hstate => ?_,
    fun hdue hstate => ?_, fun hdue => ?_, fun x y hdue hout hin => ?_, fun j hdue => ?_⟩
  -- CONTROL_TICK
  · refine runs_of_eq (exec_controlTick ha hm rfl) ?_
    rw [tickNow_of_ready htick hready, Option.elim_some]
    rfl
  · refine runs_of_eq (exec_controlTick ha hm rfl) ?_
    rw [hnone, Option.elim_none]
  -- PG_RISE
  · exact runs_of_eq (live_eq ha hdue) (pgRise_effect r s)
  -- PG_FALL outside ON and in ON
  · refine runs_of_eq (live_eq ha hdue) ?_
    rw [pgFall_of_not_on hstate]
    exact ⟨flag_setFlag_self _ _ _ _ (by decide) (by decide), onlyRegs_setFlag _ _ _ (onlyRegs_refl _ s) (by simp)⟩
  · exact runs_of_eq (live_eq ha hdue) (pgFall_of_on hstate)
  -- PHASE_DROP
  · exact runs_of_eq (live_eq ha hdue) rfl
  -- ROTATION_TICK
  · exact runs_of_eq (live_eq ha hdue) (rotation_of_some hout hin)
  -- WEAR_INCREMENT
  · exact runs_of_eq (live_eq ha hdue) (wearCount_effect r j s)

end Sys2Proof.Machine
end

section
/-! The engine in the loop: submissions, missed deadlines, the fallback and the coefficient banks (R55, R65 to R68,
R72). -/

namespace Sys2Proof.Machine

/-! ## Submissions (R66, R67) -/

/-- Waiting index w once sub is submitted for index k. -/
def Waiting.take (k : Nat) (sub : Option Int) (w : Waiting) : Waiting :=
  if w.k = k then { w with sub := some sub } else w

theorem take_missed (k : Nat) (sub : Option Int) (w : Waiting) : (w.take k sub).missed = w.missed := by
  unfold Waiting.take
  split <;> rfl

theorem take_of_ne {k : Nat} {w : Waiting} (sub : Option Int) (h : w.k ≠ k) : w.take k sub = w := if_neg h

theorem take_sub_isSome {k : Nat} {w : Waiting} (sub : Option Int) (h : w.k = k) :
    (w.take k sub).sub.isSome = true := by
  simp [Waiting.take, h]

section
variable {s : State} {r k : Nat} {sub : Option Int}

theorem submit_of_future (h : serialAfter k (rd s (Reg.LU_LMB_NEW (homeOf r) (slotOf r))) = true) :
    submit r k sub s = incFld (Reg.LU_CERR (homeOf r) (slotOf r)) Fld.LU_CERR_BADTAG s := by
  simp only [submit, h, if_true]

variable (hpresented : serialAfter k (rd s (Reg.LU_LMB_NEW (homeOf r) (slotOf r))) = false)
include hpresented

/-- A submission is late unless its index waits without one and has not passed its deadline. -/
theorem submit_of_late (h : ∀ w, (railOf s r).wait.find? (fun w => w.k == k) = some w →
      w.sub.isSome = true ∨ w.due ≤ s.tb.ns) :
    submit r k sub s = incFld (Reg.LU_CERR (homeOf r) (slotOf r)) Fld.LU_CERR_LATE s := by
  simp only [submit, hpresented, Bool.false_eq_true, if_false]
  split
  · next w hfind => exact if_pos (h w hfind)
  · rfl

/-- A submission in time is held for its index, and what can settle then does. -/
theorem submit_of_waiting {w : Waiting} (hfind : (railOf s r).wait.find? (fun w => w.k == k) = some w)
    (hnone : w.sub = none) (hdue : s.tb.ns < w.due) :
    submit r k sub s =
      settleIndices 64 r (updRail r (fun x => { x with wait := x.wait.map (Waiting.take k sub) }) s) := by
  have hnot : ¬(w.sub.isSome = true ∨ w.due ≤ s.tb.ns) := by simp [hnone, hdue]
  simp only [submit, hpresented, Bool.false_eq_true, if_false, hfind, if_neg hnot]
  rfl

end

/-- Nothing settles while the oldest index waits for its submission. -/
theorem settleIndices_of_waiting {s : State} {r : Nat} {w : Waiting} {rest : List Waiting} (n : Nat)
    (hwait : (railOf s r).wait = w :: rest) (hnone : w.sub = none) : settleIndices n r s = s := by
  cases n with
  | zero => rfl
  | succ n => simp only [settleIndices, hwait, hnone, Option.isSome_none, Bool.false_eq_true, if_false]

/-- The oldest index settles once it has its submission, and then those behind it in order. -/
theorem settleIndices_of_submitted {s : State} {r : Nat} {w : Waiting} {rest : List Waiting} (n : Nat)
    (hwait : (railOf s r).wait = w :: rest) (hsub : w.sub.isSome = true) :
    settleIndices (n + 1) r s = settleIndices n r (finishIndex r w (demandOf w) (updRail r (fun x =>
      noteMiss (fld s (Reg.LU_DEADLINE (homeOf r)) Fld.LU_DEADLINE_RUN) w.missed { x with wait := rest }) s)) := by
  simp only [settleIndices, hwait, hsub, if_true]

section
variable {s : State} {r k : Nat} (sub : Option Int)
  (hpresented : serialAfter k (rd s (Reg.LU_LMB_NEW (homeOf r) (slotOf r))) = false)
include hpresented

/-- A submission for an index behind one that is not settled is held, and nothing else changes. -/
theorem submit_behind {w0 w1 : Waiting} {rest : List Waiting} (hwait : (railOf s r).wait = w0 :: w1 :: rest)
    (hnone0 : w0.sub = none) (hnone1 : w1.sub = none) (hk0 : w0.k ≠ k) (hk1 : w1.k = k) (hdue : s.tb.ns < w1.due) :
    submit r k sub s = updRail r (fun x => { x with wait := x.wait.map (Waiting.take k sub) }) s := by
  have hfind : (railOf s r).wait.find? (fun w => w.k == k) = some w1 := by simp [hwait, hk0, hk1]
  rw [submit_of_waiting hpresented hfind hnone1 hdue]
  refine settleIndices_of_waiting 64 (w := w0) (rest := (w1 :: rest).map (Waiting.take k sub)) ?_ hnone0
  rw [railOf_updRail_self, hwait, List.map_cons, take_of_ne sub hk0]

/-- A submission for the oldest index settles it at once. -/
theorem submit_oldest {w : Waiting} {rest : List Waiting} (hwait : (railOf s r).wait = w :: rest) (hnone : w.sub = none)
    (hk : w.k = k) (hdue : s.tb.ns < w.due) :
    submit r k sub s = settleIndices 63 r (finishIndex r (w.take k sub) (demandOf (w.take k sub)) (updRail r (fun x =>
      noteMiss (fld s (Reg.LU_DEADLINE (homeOf r)) Fld.LU_DEADLINE_RUN) w.missed
        { x with wait := rest.map (Waiting.take k sub) })
      (updRail r (fun x => { x with wait := x.wait.map (Waiting.take k sub) }) s))) := by
  have hfind : (railOf s r).wait.find? (fun w => w.k == k) = some w := by simp [hwait, hk]
  rw [submit_of_waiting hpresented hfind hnone hdue,
    settleIndices_of_submitted 63 (w := w.take k sub) (rest := rest.map (Waiting.take k sub)) ?_
      (take_sub_isSome sub hk), take_missed, fld_updRail]
  rw [railOf_updRail_self, hwait, List.map_cons]

end

/-- The count of LU_CERR that takes a submission back reads one more, and nothing else changes. -/
theorem cerr_counts {q l : Nat} (f : Bits) (s : State) (h : f.lo ≤ f.hi) (hn : f.hi < 32) (hmax : maxBits f = 65535) :
    fld (incFld (Reg.LU_CERR q l) f s) (Reg.LU_CERR q l) f = min (fld s (Reg.LU_CERR q l) f + 1) 65535 ∧
      OnlyRegs [Reg.LU_CERR q l] s (incFld (Reg.LU_CERR q l) f s) :=
  ⟨by rw [fld_incFld_self _ _ _ h hn, hmax], onlyRegs_incFld _ _ (onlyRegs_refl _ s) (by simp)⟩

/-! ## Coefficient banks (R55) -/

/-- A write that asks for a swap sets PEND, and keeps whether the swap zeroes the states. -/
theorem cselWrite_effect {s : State} {r v : Nat} (hswap : getBits v Fld.LU_CSEL_SWAP = 1)
    (hfree : flag s (Reg.LU_CSEL (homeOf r) (slotOf r)) Fld.LU_CSEL_PEND = false) :
    flag (cselWrite r v s) (Reg.LU_CSEL (homeOf r) (slotOf r)) Fld.LU_CSEL_PEND = true ∧
      (railOf (cselWrite r v s) r).swapZero = (getBits v Fld.LU_CSEL_ZERO != 0) ∧
      KeepsRegs [Reg.LU_CSEL (homeOf r) (slotOf r)] s (cselWrite r v s) := by
  simp only [cselWrite, hswap, hfree, Nat.one_ne_zero, Bool.false_eq_true, or_self, if_false]
  exact ⟨flag_setFlag_self _ _ _ _ (by decide) (by decide), by simp,
    keepsRegs_setFlag _ _ _ (fun a _ => rd_updRail _ _ _ _) (by simp)⟩

/-- The swap changes the active bank, and LU_CSIDX shows its index. -/
theorem coefSwapApply_effect (r : Nat) {k : Nat} (s : State) (hk : k < 2 ^ 32) :
    let a := Reg.LU_CSEL (homeOf r) (slotOf r)
    let b := Reg.LU_CSIDX (homeOf r) (slotOf r)
    fld (coefSwapApply r k s) a Fld.LU_CSEL_ACTIVE = 1 - fld s a Fld.LU_CSEL_ACTIVE ∧
      flag (coefSwapApply r k s) a Fld.LU_CSEL_PEND = false ∧ rd (coefSwapApply r k s) b = k ∧
      KeepsRegs [a, b] s (coefSwapApply r k s) := by
  intro a b
  have hab : a ≠ b := by simp [a, b, Reg.LU_CSEL, Reg.LU_CSIDX]
  unfold coefSwapApply
  refine ⟨?_, ?_, ?_, fun y hy => ?_⟩
  · rw [fld_updRail, fld_wr_ne _ _ _ _ _ hab, setFlag,
      fld_setFld_other _ _ _ _ _ (by decide) (by decide) (by decide) (by decide),
      fld_setFld_self _ _ _ _ (by decide) (by decide)]
    exact Nat.mod_eq_of_lt (Nat.lt_of_le_of_lt (Nat.sub_le 1 _) (by decide))
  · refine (flag_of_fld_eq ?_).trans (flag_setFlag_self a _ false
      (setFld a Fld.LU_CSEL_ACTIVE (1 - fld s a Fld.LU_CSEL_ACTIVE) s) (by decide) (by decide))
    rw [fld_updRail, fld_wr_ne _ _ _ _ _ hab]
  · rw [rd_updRail, rd_wr_self, Nat.mod_eq_of_lt hk]
  · rw [rd_updRail]
    exact keepsRegs_wr b k (keepsRegs_setFlag a _ _ (keepsRegs_setFld a _ _ (keepsRegs_refl [a, b] s) (by simp))
      (by simp)) (by simp) y hy

/-- A pending swap acts at the next tick of the rail's home quire. -/
theorem exec_coefSwapApply {s : State} {r : Fin 32} {n : Nat} (ha : alive s = true)
    (htick : nextTick s (homeOf r) = some n)
    (hpend : flag s (Reg.LU_CSEL (homeOf r) (slotOf r)) Fld.LU_CSEL_PEND = true) :
    exec (.coefSwapApply r) s = .next (coefSwapApply r (indexAt s (homeOf r) n) s) := by
  show execCoefSwapApply r s = _
  simp only [execCoefSwapApply, htick]
  exact live_eq ha hpend

/-- Settles O9, a clause at a time. -/
theorem engineInLoopEventsRun : Obligations.EngineInLoopEventsRun := by
  unfold Obligations.EngineInLoopEventsRun
  intro s m r v q l
  refine ⟨fun w0 w1 rest htag hnop hwait hnone0 hnone1 hk0 hk1 hnew hdue => ?_,
    fun w rest htag hnop hwait hnone hk hnew hdue => ?_, fun c hc hw => ?_, fun ha hmissed => ?_, fun ha hfall => ?_,
    fun hw hswap hfree => ?_, fun n ha htick hpend => ?_⟩
  -- A submission behind an unsettled index, and one for the oldest
  · have hheld := fun c => submit_behind c hnew hwait hnone0 hnone1 hk0 hk1 hdue
    exact ⟨runs_of_eq (regWriteBy_eq htag) (hheld _), runs_of_eq (regWriteBy_eq hnop) (hheld _)⟩
  · have hdone := fun c => submit_oldest c hnew hwait hnone hk hdue
    exact ⟨runs_of_eq (regWriteBy_eq htag) (hdone _), runs_of_eq (regWriteBy_eq hnop) (hdone _)⟩
  -- Submissions that are taken back
  · have hexec : ∃ sub, exec c.1 s = .next (submit r v.toNat sub s) := by
      simp only [List.mem_cons, List.not_mem_nil, or_false] at hc
      rcases hc with rfl | rfl
      · exact ⟨_, regWriteBy_eq hw⟩
      · exact ⟨_, regWriteBy_eq hw⟩
    obtain ⟨sub, hexec⟩ := hexec
    refine ⟨fun hnew => runs_of_eq hexec ?_, fun hnew hlate => runs_of_eq hexec ?_⟩
    · rw [submit_of_future hnew]
      exact cerr_counts _ s (by decide) (by decide) (by decide)
    · rw [submit_of_late hnew hlate]
      exact cerr_counts _ s (by decide) (by decide) (by decide)
  -- ENGINE_DEADLINE_EXPIRY, EIL_FALLBACK
  · exact runs_of_eq (live_eq ha hmissed) rfl
  · exact runs_of_eq (live_eq ha hfall) rfl
  -- COEF_SWAP, COEF_SWAP_APPLY
  · exact runs_of_eq (regWriteBy_eq hw) (cselWrite_effect hswap hfree)
  · exact runs_of_eq (exec_coefSwapApply ha htick hpend) (coefSwapApply_effect r s (indexAt_lt s _ n))

end Sys2Proof.Machine
end

section
/-! The arithmetic of the voltage loop: the ranges that saturation and clamps give, and the sums that the residue of a
division keeps (R49, R52 to R54, R57, R58). -/

namespace Sys2Proof.Machine

/-! ## Clamps and saturation -/

theorem clampI_range {lo hi : Int} (x : Int) (h : lo ≤ hi) : lo ≤ clampI lo hi x ∧ clampI lo hi x ≤ hi := by
  unfold clampI
  split
  · exact ⟨Int.le_refl lo, h⟩
  · split <;> constructor <;> omega

theorem satS32_range (x : Int) : -(2 ^ 31) ≤ satS 32 x ∧ satS 32 x < 2 ^ 31 := by
  obtain ⟨hlo, hhi⟩ := clampI_range (lo := -(2 ^ 31)) (hi := 2 ^ 31 - 1) x (by decide)
  exact ⟨hlo, Int.lt_of_le_sub_one hhi⟩

/-! ## The ramp (R49) -/

theorem rampMove_up {v aim : Nat} (step : Nat) (h : v ≤ aim) :
    v ≤ rampMove v aim step ∧ rampMove v aim step ≤ aim := by
  simp only [rampMove, if_pos h]
  omega

theorem rampMove_down {v aim : Nat} (step : Nat) (h : aim ≤ v) :
    aim ≤ rampMove v aim step ∧ rampMove v aim step ≤ v := by
  unfold rampMove
  split <;> omega

/-! ## The compensator (R52 to R54) -/

/-- Every result of the compensator is saturated, and its integrator is held between its limits. -/
theorem compensate_range (s : State) (r : Nat) (e : Int) (x : Rail) :
    let y := (compensate s r e x).1
    let lo := sx 32 (rd s (Reg.LU_ILO (homeOf r) (slotOf r)))
    let hi := sx 32 (rd s (Reg.LU_IHI (homeOf r) (slotOf r)))
    (-(2 ^ 31) ≤ y.ya1 ∧ y.ya1 < 2 ^ 31) ∧ (-(2 ^ 31) ≤ y.yb1 ∧ y.yb1 < 2 ^ 31) ∧
      (-(2 ^ 31) ≤ y.u ∧ y.u < 2 ^ 31) ∧ (lo ≤ hi → lo ≤ y.i ∧ y.i ≤ hi) :=
  ⟨satS32_range _, satS32_range _, satS32_range _, clampI_range _⟩

/-! ## Distribution (R57) -/

/-- The first share takes the residue, so the shares add up to the demand whatever the roundings are. -/
theorem shares_sum (d : Int) {ws : List Nat} (h : ws ≠ []) : (shares d ws).foldl (· + ·) 0 = d := by
  obtain ⟨w, rest, rfl⟩ := List.exists_cons_of_ne_nil h
  simp only [shares, List.map_cons, ← List.sum_eq_foldl, List.sum_cons]
  omega

theorem shares_length (d : Int) (ws : List Nat) : (shares d ws).length = ws.length := by
  cases ws with
  | nil => rfl
  | cons w rest => simp [shares]

/-! ## The per-phase law (R58) -/

/-- The rounding of a quotient that lies between two integers lies between them. -/
theorem roundAwayDiv_range {num den lo hi : Int} (hden : 0 < den) (hpos : 0 ≤ num) (hlo : lo * den ≤ num)
    (hhi : num ≤ hi * den) : lo ≤ roundAwayDiv num den ∧ roundAwayDiv num den ≤ hi := by
  have hden2 : 0 < 2 * den := Int.mul_pos (by decide) hden
  have hlo2 : lo * (2 * den) = 2 * (lo * den) := Int.mul_left_comm lo 2 den
  have hhi2 : (hi + 1) * (2 * den) = 2 * (hi * den) + 2 * den := by
    rw [Int.add_mul, Int.one_mul, Int.mul_left_comm hi 2 den]
  simp only [roundAwayDiv, if_neg (Int.not_lt.mpr hpos), roundUpDiv]
  rw [Int.fdiv_eq_ediv_of_nonneg _ (Int.le_of_lt hden2)]
  constructor
  · exact (Int.le_ediv_iff_mul_le hden2).mpr (by omega)
  · exact Int.lt_add_one_iff.mp ((Int.ediv_lt_iff_lt_mul hden2).mpr (by omega))

/-- The quotient num / den as the law bounds it: 0 below onMin, and no more than top. -/
def lawOnTime (num den onMin top : Int) : Int :=
  if num < onMin * den then 0 else if top * den < num then max 0 top else roundAwayDiv num den

theorem lawOnTime_range {num den onMin top : Int} (hden : 0 < den) (honMin : 0 ≤ onMin) :
    0 ≤ lawOnTime num den onMin top ∧ lawOnTime num den onMin top ≤ max 0 top ∧
      (lawOnTime num den onMin top = 0 ∨ min onMin (max 0 top) ≤ lawOnTime num den onMin top) := by
  unfold lawOnTime
  split
  · exact ⟨Int.le_refl 0, Int.le_max_left 0 top, .inl rfl⟩
  · next hlow =>
    split
    · exact ⟨Int.le_max_left 0 top, Int.le_refl _, .inr (Int.min_le_right _ _)⟩
    · next hhigh =>
      have hpos : 0 ≤ num := Int.le_trans (Int.mul_nonneg honMin (Int.le_of_lt hden)) (Int.not_lt.mp hlow)
      obtain ⟨hlo, hhi⟩ := roundAwayDiv_range hden hpos (Int.not_lt.mp hlow) (Int.not_lt.mp hhigh)
      exact ⟨Int.le_trans honMin hlo, Int.le_trans hhi (Int.le_max_right 0 top),
        .inr (Int.le_trans (Int.min_le_left _ _) hlo)⟩

/-- The law's on-time is a bounded quotient with a positive divisor: the floor of the headroom and the free value that
stands for an unstated quotient see to that. -/
theorem phaseLaw_on (kdi l vin t onMin offMin : Nat) (d i v free : Int) : ∃ num den : Int, 0 < den ∧
    (phaseLaw kdi l vin t onMin offMin d i v free).1 = (lawOnTime num den onMin (t - offMin)).toNat := by
  have hhead : (0 : Int) < if (vin : Int) * 40960 - v < 10240000 then 10240000 else (vin : Int) * 40960 - v := by
    split <;> omega
  by_cases hopen : lawOpen vin v = true
  · exact ⟨free, 1, by decide, by simp [phaseLaw, lawOnTime, hopen]⟩
  · by_cases hv : v < (vin : Int) * 40960
    · have hvin : 0 < (vin : Int) * 40960 := by
        simp only [lawOpen, Bool.and_eq_true, beq_iff_eq, decide_eq_true_eq, not_and] at hopen
        omega
      exact ⟨_, _, Int.mul_pos hhead hvin, by
        simp only [phaseLaw, lawOnTime, if_neg hopen, if_pos hv, decide_eq_true_eq]; rfl⟩
    · exact ⟨_, _, Int.mul_pos hhead Int.one_pos, by
        simp only [phaseLaw, lawOnTime, if_neg hopen, if_neg hv, decide_eq_true_eq]; rfl⟩

/-- Settles O10, a law of the loop at a time. -/
theorem loopArithmeticKeepsItsRanges : Obligations.LoopArithmeticKeepsItsRanges := by
  unfold Obligations.LoopArithmeticKeepsItsRanges
  refine ⟨fun v aim step => ⟨rampMove_up step, rampMove_down step⟩, fun vset den vout => satS32_range _,
    compensate_range, fun d ws h => ⟨shares_sum d h, shares_length d ws⟩,
    fun kdi l vin t onMin offMin d i v free => ?_⟩
  obtain ⟨num, den, hden, hon⟩ := phaseLaw_on kdi l vin t onMin offMin d i v free
  obtain ⟨hpos, htop, hmin⟩ := lawOnTime_range (num := num) (top := t - offMin) hden (Int.natCast_nonneg onMin)
  dsimp only
  rw [hon]
  refine ⟨fun h => ?_, fun h => ?_, ?_⟩ <;> omega

end Sys2Proof.Machine
end

section
/-! A count beside the rest of the device. -/

namespace Sys2Proof.Machine

/-- A count reads one more, held at its largest value, and nothing but its register changes. -/
theorem incFld_effect {a : Nat} {f : Bits} (s : State) (h : f.lo ≤ f.hi) (hn : f.hi < 32) :
    fld (incFld a f s) a f = min (fld s a f + 1) (maxBits f) ∧ OnlyRegs [a] s (incFld a f s) :=
  ⟨fld_incFld_self a f s h hn, onlyRegs_incFld a f (onlyRegs_refl _ s) (by simp)⟩

end Sys2Proof.Machine
end

section
/-! The weight of a hint: what its lane holds once the mixer takes it, and what leaves the lanes alone (R85, R86). -/

namespace Sys2Proof.Machine

/-! ## Lists by index -/

theorem nthD_setNth_self {α : Type} (d y : α) {xs : List α} {j : Nat} (h : j < xs.length) :
    nthD d (setNth xs j y) j = y := by
  induction xs generalizing j with
  | nil => exact absurd h (Nat.not_lt_zero j)
  | cons x xs ih =>
    cases j with
    | zero => rfl
    | succ j => exact ih (Nat.lt_of_succ_lt_succ h)

/-! ## What leaves the lanes alone -/

theorem railOf_eq_of_besideFaults {s t : State} (h : besideFaults t = besideFaults s) (k : Nat) :
    railOf t k = railOf s k := (congrArg (railOf · k) h :)

theorem lanes_updRail {f : Rail → Rail} (hf : ∀ x, (f x).lanes = x.lanes) (r : Nat) (s : State) (k : Nat) :
    (railOf (updRail r f s) k).lanes = (railOf s k).lanes := by
  rw [railOf_updRail]
  split
  · next h => rw [hf, h]
  · rfl

/-- A record that enters the ring leaves every lane (R89). -/
theorem lanes_putOutcome (r flags step kstep : Nat) (s : State) (k : Nat) :
    (railOf (putOutcome r flags step kstep s) k).lanes = (railOf s k).lanes := by
  unfold putOutcome
  rw [railOf_eq_of_besideFaults (besideFaults_setLine _ _ _)]
  refine (lanes_updRail ?_ r _ k).trans (congrArg Rail.lanes (railOf_eq_of_besideFaults ?_ k))
  · exact fun _ => rfl
  · simp

theorem lanes_putCut (r : Nat) (x : Lane) (s : State) (k : Nat) :
    (railOf (putCut r x s) k).lanes = (railOf s k).lanes := lanes_putOutcome _ _ _ _ s k

/-! ## The lane a hint fills -/

theorem laneFor_lt {x : Rail} {partner kh j : Nat} (h : laneFor x partner kh = some j) : j < x.lanes.length := by
  unfold laneFor at h
  split at h
  · next i hfind =>
    obtain rfl := Option.some.inj h
    exact (List.findIdx?_eq_some_iff_findIdx_eq.mp hfind).1
  · exact (List.findIdx?_eq_some_iff_findIdx_eq.mp h).1

/-- The lane holds what newLane makes of the hint, whether or not a hint that it supersedes is recorded. -/
theorem nthD_lanes_takeHint {r t j : Nat} {h : HintWord} {s : State} (hj : j < (railOf s r).lanes.length) :
    nthD Lane.init (railOf (takeHint r h t j s) r).lanes j =
      newLane s r h t (nthD Lane.init (railOf s r).lanes j) := by
  unfold takeHint
  dsimp only
  rw [railOf_eq_of_besideFaults (besideFaults_incFld _ _ _), showLanes,
    railOf_eq_of_besideFaults (besideFaults_setFld _ _ _ _), railOf_updRail_self]
  refine nthD_setNth_self _ _ ?_
  split
  · rwa [lanes_updRail (f := cutHints j) (fun _ => rfl), lanes_putCut]
  · exact hj

/-- With a trust of at most 255 of 256 and a confidence of at most 8 of 8, a step weighs no more than 255/256 of what
was announced: trust and confidence multiply to at most 2040 of 2048. -/
theorem weightedStep_bound (dI : Int) {trust conf : Nat} (htrust : trust ≤ 255) (hconf : conf ≤ 7) :
    256 * (weightedStep dI trust conf).natAbs ≤ 255 * (dI * 200).natAbs := by
  have habs : (weightedStep dI trust conf).natAbs = (dI * 200).natAbs * (trust * (conf + 1)) / 2048 := by
    unfold weightedStep
    rw [Int.natAbs_tdiv, Int.natAbs_mul, Int.natAbs_mul (dI * 200), Nat.mul_assoc]
    rfl
  have hweight : (dI * 200).natAbs * (trust * (conf + 1)) ≤ (dI * 200).natAbs * (255 * 8) :=
    Nat.mul_le_mul_left _ (Nat.mul_le_mul htrust (Nat.succ_le_succ hconf))
  omega

/-! ## HINT_DELIVERY (R83) -/

/-- The oldest hint on its way from a port leaves it for the mixer. -/
theorem exec_hintDelivery {s : State} {p : Fin 16} {h : HintWord} {rest : List HintWord} (ha : alive s = true)
    (hflight : (varipOf s p).flight = h :: rest) :
    exec (.hintDelivery p) s = .next (deliverHint h (updVarip p (fun x => { x with flight := rest }) s)) := by
  show execHintDelivery p s = _
  simp only [execHintDelivery, hflight]
  exact live_eq ha rfl

section
variable {s : State} {r : Nat} {h : HintWord}

theorem deliverHint_of_zero (hstep : h.dI = 0) : deliverHint h s = s := by
  simp only [deliverHint, hstep, if_true]

/-- A mixer that is off, of a rail that does not regulate, or at shed level 3 or above drops every hint. -/
theorem deliverHint_of_closed (hr : h.rail = r) (hstep : h.dI ≠ 0)
    (hclosed : flag s (Reg.LU_IM_CTRL (homeOf r) (slotOf r)) Fld.LU_IM_CTRL_EN = false ∨ regulating s r = false ∨
      3 ≤ shed s) : deliverHint h s = dropHint r none s := by
  subst hr
  simp only [deliverHint, if_neg hstep, if_pos hclosed]

/-- The mixer of rail r is open to hint h: the hint is one of the rail's with a step, and meets the conditions of R83
that do not look at its partner. -/
def HintOpen (s : State) (r : Nat) (h : HintWord) : Prop :=
  h.rail = r ∧ h.dI ≠ 0 ∧ flag s (Reg.LU_IM_CTRL (homeOf r) (slotOf r)) Fld.LU_IM_CTRL_EN = true ∧
    regulating s r = true ∧ shed s < 3

section
variable (hopen : HintOpen s r h)
include hopen

theorem hintOpen_rail : h.rail = r := hopen.1

/-- Neither a step of 0 nor a closed mixer keeps the hint from the checks of its partner. -/
theorem not_closed_of_hintOpen : ¬(h.dI = 0) ∧
    ¬(flag s (Reg.LU_IM_CTRL (homeOf h.rail) (slotOf h.rail)) Fld.LU_IM_CTRL_EN = false ∨
      regulating s h.rail = false ∨ 3 ≤ shed s) := by
  obtain ⟨rfl, hstep, hen, hreg, hshed⟩ := hopen
  simp [hstep, hen, hreg, hshed]

theorem deliverHint_of_noEntry (hentry : partnerEntry s r h.partner = none) :
    deliverHint h s = dropHint r (some Fld.LU_IM_STAT_NOPERM) s := by
  obtain ⟨hstep, hclosed⟩ := not_closed_of_hintOpen hopen
  obtain rfl := hintOpen_rail hopen
  simp only [deliverHint, if_neg hstep, if_neg hclosed, hentry]

variable {t : Nat} (hentry : partnerEntry s r h.partner = some t)
include hentry

theorem deliverHint_of_late (hlate : hintTick s r h.tEnd ≤ now s) :
    deliverHint h s = report { src := 0x10, event := 1, cls := 1, unit := r } (incFld (Reg.RT_MISS r) wordBits
      (dropHint r (some Fld.LU_IM_STAT_LATEDLV) s)) := by
  obtain ⟨hstep, hclosed⟩ := not_closed_of_hintOpen hopen
  obtain rfl := hintOpen_rail hopen
  simp only [deliverHint, if_neg hstep, if_neg hclosed, hentry, if_pos hlate]

variable (hsoon : now s < hintTick s r h.tEnd)
include hsoon

theorem deliverHint_of_full
    (hlane : laneFor (railOf s r) h.partner (indexAt s (homeOf r) (hintTick s r h.tEnd)) = none) :
    deliverHint h s = dropHint r (some Fld.LU_IM_STAT_FULL) s := by
  obtain ⟨hstep, hclosed⟩ := not_closed_of_hintOpen hopen
  obtain rfl := hintOpen_rail hopen
  simp only [deliverHint, if_neg hstep, if_neg hclosed, hentry, if_neg (Nat.not_le.mpr hsoon), hlane]

theorem deliverHint_of_lane {j : Nat}
    (hlane : laneFor (railOf s r) h.partner (indexAt s (homeOf r) (hintTick s r h.tEnd)) = some j) :
    deliverHint h s = takeHint r h t j s := by
  obtain ⟨hstep, hclosed⟩ := not_closed_of_hintOpen hopen
  obtain rfl := hintOpen_rail hopen
  simp only [deliverHint, if_neg hstep, if_neg hclosed, hentry, if_neg (Nat.not_le.mpr hsoon), hlane]

end
end

/-! ## TRUST (R90) -/

theorem imTrust_le (s : State) (a : Nat) : fld s a Fld.LU_IM_TRUST_TRUST ≤ 255 :=
  Nat.le_of_lt_succ (Nat.mod_lt _ (by decide))

theorem railOf_setTrust (r t v : Nat) (s : State) (k : Nat) : railOf (setTrust r t v s) k = railOf s k :=
  railOf_eq_of_besideFaults (by simp [setTrust]) k

/-- Settles O13: the lane a hint takes is newLane of the state at its delivery, the weight is bounded by TRUST's width,
and a TRUST write leaves the rails alone. -/
theorem hintWeightIsFixedAtAcceptance : Obligations.HintWeightIsFixedAtAcceptance := by
  unfold Obligations.HintWeightIsFixedAtAcceptance
  intro s r p h rest t j ha hflight hrail hstep hen hreg hshed hentry hsoon hlane trust
  refine ⟨runs_of_eq (exec_hintDelivery ha hflight) ?_, fun hconf => ?_, fun m i v hw => ?_⟩
  -- The lane at acceptance
  · have hopen : HintOpen (updVarip p (fun x => { x with flight := rest }) s) r h := ⟨hrail, hstep, hen, hreg, hshed⟩
    rw [deliverHint_of_lane hopen hentry hsoon hlane]
    refine Eq.trans (congrArg Lane.step (nthD_lanes_takeHint ?_)) rfl
    exact laneFor_lt hlane
  -- The bound of 255/256
  · exact weightedStep_bound h.dI (imTrust_le s _) hconf
  -- IM_TRUST_WRITE
  · exact runs_of_eq (regWriteBy_eq hw) fun k => congrArg Rail.lanes (railOf_setTrust r i _ s k)

end Sys2Proof.Machine
end

section
/-! Bursts: the request, the start, the end of the holdoff and the counters (R76, R79, R81, R95). -/

namespace Sys2Proof.Machine

/-! ## A request (R76, R81) -/

theorem exec_burstSwFire {s : State} {m : Master} {r : Fin 32} {v : BitVec 32}
    (hw : CanWrite s m (Reg.LU_BURST_SW (homeOf r) (slotOf r))) (hfire : getBits v.toNat Fld.LU_BURST_SW_FIRE = 1) :
    exec (.burstSwFire m r v) s = .next (burstFire r s) :=
  (regWriteBy_eq hw).trans (congrArg Host.Outcome.next (if_pos hfire))

section
variable {s : State} {r : Nat} (hen : flag s (Reg.LU_BURST (homeOf r) (slotOf r)) Fld.LU_BURST_EN = true)
  (hreg : regulating s r = true)
include hen hreg

theorem burstFire_of_held (hheld : fine s < (railOf s r).holdEnd) :
    burstFire r s = incFld (Reg.LU_BURST_STAT (homeOf r) (slotOf r)) Fld.LU_BURST_STAT_SUPP s := by
  simp [burstFire, hen, hreg, hheld]

variable (hfree : (railOf s r).holdEnd ≤ fine s)
include hfree

/-- Two assertions on one 1 ns tick are one burst. -/
theorem burstFire_of_fired (hfired : (railOf s r).fired = s.tb.ns + 1) : burstFire r s = s := by
  simp [burstFire, hen, hreg, Nat.not_lt.mpr hfree, hfired]

theorem burstFire_of_free (hfired : (railOf s r).fired ≠ s.tb.ns + 1) (hmore : s.tb.ns + 1 ∉ (railOf s r).more) :
    burstFire r s = setLine (homeOf r) (12 + slotOf r) (updRail r (fun y =>
      if y.fired = 0 then { y with fired := s.tb.ns + 1 } else { y with more := y.more ++ [s.tb.ns + 1] }) s) := by
  simp [burstFire, hen, hreg, Nat.not_lt.mpr hfree, hfired, hmore]

end

/-! ## The start (R79) -/

/-- Of the ranked members of a set, some pass a test of the member where one of the set does. -/
theorem isEmpty_ranked_filter (P : Nat → Bool) (set : List Nat) :
    (!(((List.range set.length).zip set).filter fun y => P y.2).isEmpty) = set.any P := by
  have hset : ((List.range set.length).zip set).map (·.2) = set := List.map_snd_zip (by simp)
  calc (!(((List.range set.length).zip set).filter fun y => P y.2).isEmpty)
      = ((List.range set.length).zip set).any (fun y => P y.2) := by
        rw [Bool.eq_iff_iff]
        simp [List.filter_eq_nil_iff]
    _ = (((List.range set.length).zip set).map (·.2)).any P := List.any_map.symm
    _ = set.any P := by rw [hset]

/-- What LU_BURST_STAT shows is the last that a start does. -/
theorem burstStart_shows (r : Nat) (s : State) : ∃ t, burstStart r s =
    setFlag (Reg.LU_BURST_STAT (homeOf r) (slotOf r)) Fld.LU_BURST_STAT_WALKING
      ((burstSetAt s r (burstStartAt s r)).any (takesBurst s))
      (setFlag (Reg.LU_BURST_STAT (homeOf r) (slotOf r)) Fld.LU_BURST_STAT_HELD true t) := by
  rw [← isEmpty_ranked_filter]
  exact ⟨_, rfl⟩

theorem burstStart_effect (r : Nat) (s : State) :
    flag (burstStart r s) (Reg.LU_BURST_STAT (homeOf r) (slotOf r)) Fld.LU_BURST_STAT_HELD = true ∧
      flag (burstStart r s) (Reg.LU_BURST_STAT (homeOf r) (slotOf r)) Fld.LU_BURST_STAT_WALKING =
        (burstSetAt s r (burstStartAt s r)).any (takesBurst s) := by
  obtain ⟨t, hshows⟩ := burstStart_shows r s
  rw [hshows]
  constructor
  · exact (flag_of_fld_eq (fld_setFld_other _ _ _ _ _ (by decide) (by decide) (by decide) (by decide))).trans
      (flag_setFlag_self _ _ _ _ (by decide) (by decide))
  · exact flag_setFlag_self _ _ _ _ (by decide) (by decide)

/-! ## The counters (R95) -/

theorem burstClrcnt_effect (r : Nat) (s : State) :
    let c := Reg.LU_BURST_CNT (homeOf r) (slotOf r)
    let st := Reg.LU_BURST_STAT (homeOf r) (slotOf r)
    rd (burstClrcnt r s) c = 0 ∧ fld (burstClrcnt r s) st Fld.LU_BURST_STAT_SUPP = 0 ∧
      OnlyRegs [c, st] s (burstClrcnt r s) := by
  intro c st
  have hne : c ≠ st := by simp [c, st, Reg.LU_BURST_CNT, Reg.LU_BURST_STAT]
  unfold burstClrcnt
  exact ⟨(rd_setFld_ne _ _ _ _ _ hne).trans (rd_wr_self _ _ _), fld_setFld_self _ _ _ _ (by decide) (by decide),
    onlyRegs_setFld _ _ _ (onlyRegs_wr _ _ (onlyRegs_refl _ s) (by simp [c])) (by simp [st])⟩

/-- Settles O11, a command at a time. -/
theorem burstCommandsRun : Obligations.BurstCommandsRun := by
  unfold Obligations.BurstCommandsRun
  intro s m r v q l st
  refine ⟨fun hw hfire hen hreg => ⟨fun hfree hfired hmore => ?_, fun hfree hfired => ?_, fun hheld => ?_⟩,
    fun ha hdue => ?_, fun ha hover => ?_, fun hw => ?_⟩
  -- BURST_SW_FIRE that fires, on the tick of another, in holdoff
  · exact runs_of_eq (exec_burstSwFire hw hfire) (burstFire_of_free hen hreg hfree hfired hmore)
  · exact runs_of_eq (exec_burstSwFire hw hfire) (burstFire_of_fired hen hreg hfree hfired)
  · refine runs_of_eq (exec_burstSwFire hw hfire) ?_
    rw [burstFire_of_held hen hreg hheld]
    exact incFld_effect s (by decide) (by decide)
  -- BURST_START
  · exact runs_of_eq (live_eq ha hdue) ⟨rfl, burstStart_effect r s⟩
  -- BURST_HOLDOFF_END
  · exact runs_of_eq (live_eq ha hover) ⟨flag_setFlag_self _ _ _ _ (by decide) (by decide),
      onlyRegs_setFlag _ _ _ (onlyRegs_refl _ s) (by simp [st, q, l])⟩
  -- BURST_CLRCNT
  · exact runs_of_eq (regWriteBy_eq hw) (burstClrcnt_effect r s)

end Sys2Proof.Machine
end

section
/-! The intent mixer's commands: hints dropped and taken, trust and its bounds, cuts and counters (R83, R86, R87, R89,
R90, R95). -/

namespace Sys2Proof.Machine

/-! ## Hints that are dropped (R83) -/

theorem imStat_ne_imCnt (r : Nat) : imStat r ≠ Reg.LU_IM_CNT (homeOf r) (slotOf r) := by
  simp [imStat, Reg.LU_IM_STAT, Reg.LU_IM_CNT]

/-- A dropped hint is counted; with no reason to show, nothing else changes. -/
theorem dropHint_none_effect (r : Nat) (s : State) :
    let cnt := Reg.LU_IM_CNT (homeOf r) (slotOf r)
    fld (dropHint r none s) cnt Fld.LU_IM_CNT_DROP = min (fld s cnt Fld.LU_IM_CNT_DROP + 1) 65535 ∧
      OnlyRegs [cnt] s (dropHint r none s) :=
  incFld_effect s (by decide) (by decide)

theorem dropHint_some (r : Nat) (f : Bits) (s : State) :
    dropHint r (some f) s = raiseFlag (imStat r) f (dropHint r none s) := rfl

/-- The reason sets bit k of LU_IM_STAT beside the count. -/
theorem dropHint_some_effect (r k : Nat) (s : State) (hk : k < 32) :
    let cnt := Reg.LU_IM_CNT (homeOf r) (slotOf r)
    let u := dropHint r (some ⟨k, k⟩) s
    flag u (imStat r) ⟨k, k⟩ = true ∧ fld u cnt Fld.LU_IM_CNT_DROP = min (fld s cnt Fld.LU_IM_CNT_DROP + 1) 65535 ∧
      OnlyRegs [imStat r, cnt] s u := by
  intro cnt u
  obtain ⟨hcount, hcnt⟩ := dropHint_none_effect r s
  have hstat := onlyRegs_raiseFlag (imStat r) ⟨k, k⟩ (onlyRegs_refl [imStat r] (dropHint r none s)) (by simp)
  refine ⟨flag_raiseFlag_self _ _ _ hk, ?_, onlyRegs_trans (onlyRegs_mono (by simp [cnt]) hcnt)
    (onlyRegs_mono (by simp) hstat)⟩
  exact (fld_of_keepsRegs _ hstat.1 (by simpa using (imStat_ne_imCnt r).symm)).trans hcount

/-! ## TRUST and its bounds (R90) -/

theorem clampN_range {lo hi : Nat} (x : Nat) (h : lo ≤ hi) : lo ≤ clampN lo hi x ∧ clampN lo hi x ≤ hi := by
  unfold clampN
  split
  · exact ⟨Nat.le_refl lo, h⟩
  · split <;> omega

theorem clampN_lt {lo hi n : Nat} (x : Nat) (hlo : lo < n) (hhi : hi < n) : clampN lo hi x < n := by
  unfold clampN
  split
  · exact hlo
  · split <;> omega

theorem imPart_ne_imTrust (r t : Nat) :
    Reg.LU_IM_PART (homeOf r) (slotOf r) t ≠ Reg.LU_IM_TRUST (homeOf r) (slotOf r) t := by
  simp only [Reg.LU_IM_PART, Reg.LU_IM_TRUST]
  omega

/-- TRUST holds the value within its bounds, HELD tells whether a bound acted, and nothing else changes. -/
theorem setTrust_effect (r t v : Nat) (s : State) :
    let pt := Reg.LU_IM_PART (homeOf r) (slotOf r) t
    let tr := Reg.LU_IM_TRUST (homeOf r) (slotOf r) t
    let w := clampN (fld s pt Fld.LU_IM_PART_TMIN) (fld s pt Fld.LU_IM_PART_TMAX) v
    fld (setTrust r t v s) tr Fld.LU_IM_TRUST_TRUST = w ∧ flag (setTrust r t v s) tr Fld.LU_IM_TRUST_HELD = (w != v) ∧
      OnlyRegs [tr] s (setTrust r t v s) := by
  intro pt tr w
  have hw : w < 2 ^ 8 := clampN_lt v (Nat.mod_lt _ (by decide)) (Nat.mod_lt _ (by decide))
  unfold setTrust
  refine ⟨?_, flag_setFlag_self _ _ _ _ (by decide) (by decide),
    onlyRegs_setFlag _ _ _ (onlyRegs_setFld _ _ _ (onlyRegs_refl _ s) (by simp [tr])) (by simp [tr])⟩
  exact (fld_setFld_other _ _ _ _ _ (by decide) (by decide) (by decide) (by decide)).trans
    ((fld_setFld_self _ _ _ _ (by decide) (by decide)).trans (Nat.mod_eq_of_lt hw))

/-- New bounds draw a TRUST that lies outside them to the nearer one. -/
theorem holdTrust_effect {r t lo hi : Nat} {s : State} (h : lo ≤ hi)
    (hlo : fld s (Reg.LU_IM_PART (homeOf r) (slotOf r) t) Fld.LU_IM_PART_TMIN = lo)
    (hhi : fld s (Reg.LU_IM_PART (homeOf r) (slotOf r) t) Fld.LU_IM_PART_TMAX = hi) :
    let tr := Reg.LU_IM_TRUST (homeOf r) (slotOf r) t
    let old := fld s tr Fld.LU_IM_TRUST_TRUST
    let u := if old < lo ∨ hi < old then setTrust r t old s else s
    lo ≤ fld u tr Fld.LU_IM_TRUST_TRUST ∧ fld u tr Fld.LU_IM_TRUST_TRUST ≤ hi ∧ OnlyRegs [tr] s u := by
  intro tr old u
  by_cases hout : old < lo ∨ hi < old
  · obtain ⟨htrust, -, hregs⟩ := setTrust_effect r t old s
    rw [hlo, hhi] at htrust
    obtain ⟨hmin, hmax⟩ := clampN_range old h
    have hu : u = setTrust r t old s := if_pos hout
    rw [hu, htrust]
    exact ⟨hmin, hmax, hregs⟩
  · obtain ⟨hmin, hmax⟩ := not_or.mp hout
    have hu : u = s := if_neg hout
    rw [hu]
    exact ⟨Nat.not_lt.mp hmin, Nat.not_lt.mp hmax, onlyRegs_refl _ s⟩

/-! ## IM_PART_WRITE (R87, R90, R95) -/

/-- The row of LU_IM_PART: VALID, PARTNER and both bounds are RW (R95). -/
theorem regRow_imPart (r : Fin 32) (t : Fin 16) : regRow (Reg.LU_IM_PART (homeOf r) (slotOf r) t) =
    some ⟨0x840, [(2, 0x200), (16, 4)], 0xFF, 0xFF00FFFF, 0, 0⟩ := by
  revert r t
  decide +kernel

theorem plainWrite_imPart (r : Fin 32) (t : Fin 16) (v : Nat) (s : State) :
    let pt := Reg.LU_IM_PART (homeOf r) (slotOf r) t
    fld (plainWrite pt v s) pt Fld.LU_IM_PART_TMIN = getBits v Fld.LU_IM_PART_TMIN ∧
      fld (plainWrite pt v s) pt Fld.LU_IM_PART_TMAX = getBits v Fld.LU_IM_PART_TMAX ∧
      fld (plainWrite pt v s) pt Fld.LU_IM_PART_PARTNER = getBits v Fld.LU_IM_PART_PARTNER ∧
      OnlyRegs [pt] s (plainWrite pt v s) :=
  ⟨fld_plainWrite_rw (regRow_imPart r t) (by decide) (by decide) (by decide) (by decide),
    fld_plainWrite_rw (regRow_imPart r t) (by decide) (by decide) (by decide) (by decide),
    fld_plainWrite_rw (regRow_imPart r t) (by decide) (by decide) (by decide) (by decide),
    onlyRegs_plainWrite _ _ (onlyRegs_refl _ s) (by simp)⟩

/-- Bounds that cross are refused (R90). -/
theorem partWrite_of_crossed {r t v : Nat} {s : State}
    (h : getBits v Fld.LU_IM_PART_TMAX < getBits v Fld.LU_IM_PART_TMIN) :
    partWrite r t v s = raiseFlag (imStat r) Fld.LU_IM_STAT_BADBND s := by
  simp only [partWrite, if_pos h]

section
variable {r t v : Nat} {s : State} (h : getBits v Fld.LU_IM_PART_TMIN ≤ getBits v Fld.LU_IM_PART_TMAX)
include h

theorem partWrite_of_valid (hvalid : getBits v Fld.LU_IM_PART_VALID = 1) :
    let w := plainWrite (Reg.LU_IM_PART (homeOf r) (slotOf r) t) v s
    let old := fld w (Reg.LU_IM_TRUST (homeOf r) (slotOf r) t) Fld.LU_IM_TRUST_TRUST
    partWrite r t v s = if old < getBits v Fld.LU_IM_PART_TMIN ∨ getBits v Fld.LU_IM_PART_TMAX < old then
      setTrust r t old w else w := by
  simp only [partWrite, if_neg (Nat.not_lt.mpr h), hvalid, Nat.one_ne_zero, if_false]

theorem partWrite_of_invalid (hvalid : getBits v Fld.LU_IM_PART_VALID = 0) :
    let w := plainWrite (Reg.LU_IM_PART (homeOf r) (slotOf r) t) v s
    let old := fld w (Reg.LU_IM_TRUST (homeOf r) (slotOf r) t) Fld.LU_IM_TRUST_TRUST
    partWrite r t v s = cutEntry r t (if old < getBits v Fld.LU_IM_PART_TMIN ∨ getBits v Fld.LU_IM_PART_TMAX < old then
      setTrust r t old w else w) := by
  simp only [partWrite, if_neg (Nat.not_lt.mpr h), hvalid, if_true]

end

/-- A valid entry is stored, and its TRUST lies within the new bounds. -/
theorem partWrite_valid_effect {r : Fin 32} {t : Fin 16} {v : Nat} {s : State}
    (h : getBits v Fld.LU_IM_PART_TMIN ≤ getBits v Fld.LU_IM_PART_TMAX)
    (hvalid : getBits v Fld.LU_IM_PART_VALID = 1) :
    let pt := Reg.LU_IM_PART (homeOf r) (slotOf r) t
    let tr := Reg.LU_IM_TRUST (homeOf r) (slotOf r) t
    let u := partWrite r t v s
    getBits v Fld.LU_IM_PART_TMIN ≤ fld u tr Fld.LU_IM_TRUST_TRUST ∧
      fld u tr Fld.LU_IM_TRUST_TRUST ≤ getBits v Fld.LU_IM_PART_TMAX ∧
      fld u pt Fld.LU_IM_PART_PARTNER = getBits v Fld.LU_IM_PART_PARTNER ∧ OnlyRegs [pt, tr] s u := by
  intro pt tr u
  obtain ⟨hlo, hhi, hpartner, hentry⟩ := plainWrite_imPart r t v s
  obtain ⟨hmin, hmax, htrust⟩ := holdTrust_effect h hlo hhi
  have hu := partWrite_of_valid (r := r) (t := t) (s := s) h hvalid
  rw [← hu] at hmin hmax htrust
  refine ⟨hmin, hmax, ?_, onlyRegs_trans (onlyRegs_mono (by simp [pt]) hentry) (onlyRegs_mono (by simp [tr]) htrust)⟩
  exact (fld_of_keepsRegs _ htrust.1 (by simpa using imPart_ne_imTrust r t)).trans hpartner

/-! ## IM_CTRL_WRITE and IM_CLRCNT (R87, R95) -/

theorem imCtrlWrite_of_off {r v : Nat} {s : State} (h : getBits v Fld.LU_IM_CTRL_EN = 0) :
    imCtrlWrite r v s = cutLanes r (plainWrite (Reg.LU_IM_CTRL (homeOf r) (slotOf r)) v s) := by
  simp only [imCtrlWrite, if_pos h]

theorem imClrcnt_effect (r : Nat) (s : State) :
    let c := Reg.LU_IM_CNT (homeOf r) (slotOf r)
    let o := Reg.LU_IM_OPPOSE (homeOf r) (slotOf r)
    rd (imClrcnt r s) c = 0 ∧ rd (imClrcnt r s) o = 0 ∧ OnlyRegs [c, o] s (imClrcnt r s) := by
  intro c o
  have hne : c ≠ o := by simp [c, o, Reg.LU_IM_CNT, Reg.LU_IM_OPPOSE]
  unfold imClrcnt
  exact ⟨(rd_wr_ne _ _ _ _ hne).trans (rd_wr_self _ _ _), rd_wr_self _ _ _,
    onlyRegs_wr _ _ (onlyRegs_wr _ _ (onlyRegs_refl _ s) (by simp [c])) (by simp [o])⟩

/-- Settles O12, a command at a time; a hint, by the check of R83 that it meets. -/
theorem intentMixerCommandsRun : Obligations.IntentMixerCommandsRun := by
  unfold Obligations.IntentMixerCommandsRun
  intro s m r t v q l pt tr cnt
  refine ⟨fun p h rest ha hrail hflight => ?_, fun ha hdue => ?_, fun hw => ?_, fun hw hcross => ?_,
    fun hw hord hvalid => ?_, fun hw hord hvalid => ?_, fun hw hoff => ?_, fun hw => ?_⟩
  -- HINT_DELIVERY
  · intro a
    have run : ∀ {P : State → Prop}, P (deliverHint h a) → Runs (.hintDelivery p) s P :=
      runs_of_eq (exec_hintDelivery ha hflight)
    refine ⟨fun hstep => run (deliverHint_of_zero hstep), fun hstep hclosed => run ?_,
      fun hstep hen hreg hshed => ?_⟩
    -- at a closed mixer
    · rw [deliverHint_of_closed (s := a) hrail hstep hclosed]
      exact dropHint_none_effect r a
    -- at an open one: no entry, late, no lane, a lane
    · have hopen : HintOpen a r h := ⟨hrail, hstep, hen, hreg, hshed⟩
      refine ⟨fun hnone => run ?_, fun e hentry hlate => run (deliverHint_of_late hopen hentry hlate),
        fun e hentry hsoon hfull => run ?_,
        fun e j hentry hsoon hlane => run (deliverHint_of_lane hopen hentry hsoon hlane)⟩
      · rw [deliverHint_of_noEntry hopen hnone]
        exact dropHint_some_effect r 3 a (by decide)
      · rw [deliverHint_of_full hopen hentry hsoon hfull]
        exact dropHint_some_effect r 4 a (by decide)
  -- OUTCOME_RECORD
  · exact runs_of_eq (live_eq ha hdue) rfl
  -- IM_TRUST_WRITE
  · have hv : getBits v.toNat Fld.LU_IM_TRUST_TRUST = v.toNat % 256 := congrArg (· % 256) (Nat.div_one v.toNat)
    refine runs_of_eq (regWriteBy_eq hw) ?_
    rw [hv]
    exact setTrust_effect r t _ s
  -- IM_PART_WRITE with bounds that cross, of a valid entry, of one that is not
  · refine runs_of_eq (regWriteBy_eq hw) ?_
    rw [partWrite_of_crossed hcross]
    exact ⟨flag_raiseFlag_self _ 6 s (by decide), onlyRegs_raiseFlag _ _ (onlyRegs_refl _ s) (by simp)⟩
  · exact runs_of_eq (regWriteBy_eq hw) (partWrite_valid_effect hord hvalid)
  · exact runs_of_eq (regWriteBy_eq hw) (partWrite_of_invalid hord hvalid)
  -- IM_CTRL_WRITE, IM_CLRCNT
  · exact runs_of_eq (regWriteBy_eq hw) (imCtrlWrite_of_off hoff)
  · exact runs_of_eq (regWriteBy_eq hw) (imClrcnt_effect r s)

end Sys2Proof.Machine
end

section
/-! The guard of R108 and R109: a step keeps the sides of every channel apart, and the pulses decided at a reload keep
the dead time. -/

namespace Sys2Proof.Machine

/-! ## Every step (R108) -/

theorem step_keeps_apart {s t : State} (h : ∀ n, Apart (chanOf s n)) (e : step s = .next t) (n : Nat) :
    Apart (chanOf t n) := by
  obtain ⟨-, hpins, -, -⟩ := step_sound (sound_of_apart h) e
  exact hpins rfl n

/-! ## The decision at a reload (R109) -/

/-- What the decision at x makes of channel c, d, keeps the dead time dt: at most one side is on, and a side that turns
on at x, or later from the guard, does so no earlier than dt after the other's last off-edge. -/
def KeepsDeadTime (dt x : Nat) (c d : Chan) : Prop :=
  ¬(d.hs = true ∧ d.ls = true) ∧
    (d.hs = true → c.hs = false → d.lsOff + dt ≤ x) ∧
    (d.pendHs ≠ 0 → d.lsOff + dt + 1 ≤ d.pendHs ∧ d.ls = false) ∧
    (d.ls = true → c.ls = false → d.hsOff + dt ≤ x) ∧
    (d.pendLs ≠ 0 → d.hsOff + dt + 1 ≤ d.pendLs ∧ d.hs = false)

/-- With HS off and nothing held for it, only an LS that turns on can break the dead time. -/
theorem keepsDeadTime_of_hsOff {dt x : Nat} {c d : Chan} (hhs : d.hs = false) (hpendHs : d.pendHs = 0)
    (hls : d.ls = true → c.ls = false → d.hsOff + dt ≤ x) (hpendLs : d.pendLs ≠ 0 → d.hsOff + dt + 1 ≤ d.pendLs) :
    KeepsDeadTime dt x c d := by
  simp only [KeepsDeadTime, hhs, hpendHs]
  exact ⟨by simp, by simp, by simp, hls, by simpa using hpendLs⟩

/-- With LS off and nothing held for it, only an HS that turns on can break the dead time. -/
theorem keepsDeadTime_of_lsOff {dt x : Nat} {c d : Chan} (hls : d.ls = false) (hpendLs : d.pendLs = 0)
    (hhs : d.hs = true → c.hs = false → d.lsOff + dt ≤ x) (hpendHs : d.pendHs ≠ 0 → d.lsOff + dt + 1 ≤ d.pendHs) :
    KeepsDeadTime dt x c d := by
  simp only [KeepsDeadTime, hls, hpendLs]
  exact ⟨by simp, hhs, by simpa using hpendHs, by simp, by simp⟩

/-- A channel on which a period of length len and on-time on starts at x, before its pulses are decided. -/
def Chan.atPeriod (c : Chan) (x len on : Nat) : Chan :=
  { c with s := x, len := len, on := on, pendHs := 0, pendLs := 0, endHs := 0, lsNext := false }

/-- The LS decision of a period without an HS pulse, on a channel with HS off. -/
def lsDecision (dt wmin : Nat) (lsen : Bool) (x len : Nat) (e : Chan) : Chan :=
  if e.ls || !lsen then e
  else if max x (e.hsOff + dt) + wmin ≤ x + len then
    if max x (e.hsOff + dt) = x then { e with ls := true } else { e with pendLs := max x (e.hsOff + dt) + 1 }
  else e

/-- HS turns on at x where the guard asks for nothing, else g later. -/
def hsOnAfter (g x : Nat) (e : Chan) : Chan :=
  if e.hs then e else if g = 0 then { e with hs := true } else { e with pendHs := x + g + 1 }

section
variable (dt wmin x len on : Nat) (lsen : Bool) (c : Chan)

theorem decidePulses_of_short (h : on < hsGuard c dt x + wmin) :
    decidePulses dt wmin lsen x len on c = lsDecision dt wmin lsen x len (hsOffAt x (c.atPeriod x len on)) := if_pos h

/-- A whole HS pulse: beside the on-edge only the end of the pulse and what follows it are set. -/
theorem decidePulses_of_long (h : ¬on < hsGuard c dt x + wmin) : ∃ endHs lsNext,
    decidePulses dt wmin lsen x len on c =
      { hsOnAfter (hsGuard c dt x) x (lsOffAt x (c.atPeriod x len on)) with endHs := endHs, lsNext := lsNext } := by
  unfold decidePulses pulsesWith
  rw [if_neg h]
  by_cases hon : on < len
  · exact ⟨_, _, if_pos hon⟩
  · exact ⟨_, _, if_neg hon⟩

theorem hsOffAt_pendHs : (hsOffAt x c).pendHs = c.pendHs := by unfold hsOffAt; split <;> rfl
theorem lsOffAt_hs : (lsOffAt x c).hs = c.hs := by unfold lsOffAt; split <;> rfl
theorem lsOffAt_pendHs : (lsOffAt x c).pendHs = c.pendHs := by unfold lsOffAt; split <;> rfl
theorem lsOffAt_pendLs : (lsOffAt x c).pendLs = c.pendLs := by unfold lsOffAt; split <;> rfl

theorem lsOffAt_ls : (lsOffAt x c).ls = false := by
  unfold lsOffAt
  split
  · rfl
  · exact Bool.not_eq_true _ ▸ ‹_›

/-- The guard reaches dt beyond the last LS off-edge, be it that of x itself. -/
theorem lsOff_add_le_hsGuard : (lsOffAt x (c.atPeriod x len on)).lsOff + dt ≤ x + hsGuard c dt x := by
  cases hls : c.ls
  · simp only [lsOffAt, hsGuard, Chan.atPeriod, hls, Bool.false_eq_true, if_false]
    omega
  · simp [lsOffAt, hsGuard, Chan.atPeriod, hls]

end

section
variable {dt wmin x len g : Nat} {lsen : Bool} {c e : Chan}

theorem lsDecision_keepsDeadTime (hhs : e.hs = false) (hls : e.ls = c.ls) (hpendHs : e.pendHs = 0)
    (hpendLs : e.pendLs = 0) : KeepsDeadTime dt x c (lsDecision dt wmin lsen x len e) := by
  have hstay : KeepsDeadTime dt x c e :=
    keepsDeadTime_of_hsOff hhs hpendHs (fun hon hoff => by simp [hls, hoff] at hon) (absurd hpendLs)
  unfold lsDecision
  split
  · exact hstay
  · split
    · split
      · next hnow =>
        exact keepsDeadTime_of_hsOff hhs hpendHs (fun _ _ => le_of_le_of_eq (Nat.le_max_right _ _) hnow) (absurd hpendLs)
      · exact keepsDeadTime_of_hsOff hhs hpendHs (fun hon hoff => by simp [hls, hoff] at hon)
          fun _ => Nat.succ_le_succ (Nat.le_max_right _ _)
    · exact hstay

theorem hsOnAfter_keepsDeadTime (hls : e.ls = false) (hhs : e.hs = c.hs) (hpendHs : e.pendHs = 0)
    (hpendLs : e.pendLs = 0) (hguard : e.lsOff + dt ≤ x + g) : KeepsDeadTime dt x c (hsOnAfter g x e) := by
  unfold hsOnAfter
  split
  · exact keepsDeadTime_of_lsOff hls hpendLs (fun hon hoff => by simp [hhs, hoff] at hon) (absurd hpendHs)
  · split
    · next hnow =>
      exact keepsDeadTime_of_lsOff hls hpendLs (fun _ _ => by simpa [hnow] using hguard) (absurd hpendHs)
    · exact keepsDeadTime_of_lsOff hls hpendLs (fun hon hoff => by simp [hhs, hoff] at hon)
        fun _ => Nat.succ_le_succ hguard

end

theorem decidePulses_keepsDeadTime (dt wmin x len on : Nat) (lsen : Bool) (c : Chan) :
    KeepsDeadTime dt x c (decidePulses dt wmin lsen x len on c) := by
  by_cases hshort : on < hsGuard c dt x + wmin
  · rw [decidePulses_of_short _ _ _ _ _ _ _ hshort]
    exact lsDecision_keepsDeadTime (hsOffAt_hs _ _) (hsOffAt_ls _ _) (hsOffAt_pendHs _ _) (hsOffAt_pendLs _ _)
  · obtain ⟨endHs, lsNext, hlong⟩ := decidePulses_of_long dt wmin x len on lsen c hshort
    rw [hlong]
    exact hsOnAfter_keepsDeadTime (lsOffAt_ls _ _) (lsOffAt_hs _ _) (lsOffAt_pendHs _ _) (lsOffAt_pendLs _ _)
      (lsOff_add_le_hsGuard _ _ _ _ _)

/-- Settles O17: the sides stand apart among all that a step keeps of a sound state, and the decision of R109 keeps the
dead time whether or not the on-time leaves room for an HS pulse. -/
theorem guardKeepsTheSidesApart : Obligations.GuardKeepsTheSidesApart := by
  unfold Obligations.GuardKeepsTheSidesApart
  exact ⟨fun s t h e => step_keeps_apart h e,
    fun dt wmin x len on lsen c _ _ _ => decidePulses_keepsDeadTime dt wmin x len on lsen c⟩

end Sys2Proof.Machine
end

section
/-! The lattice rule of R98 and R99: where a period ends, and how far from its nominal length. -/

namespace Sys2Proof.Machine

/-- How far the next lattice point lies after x (R99, R100). -/
def latticeGap (ref ofs per x : Nat) : Nat := (((ref : Int) + (ofs % per : Nat) - x) % per).toNat

/-- The point x is one of the lattice REF + OFS + m PERIOD (R99). -/
def OnLattice (ref ofs per x : Nat) : Prop := ((x : Int) - ref - (ofs % per : Nat)) % per = 0

/-- The length of a period by the gap that follows its nominal end: none, one that is made up by a longer period, or
one so wide that the point before it is nearer. -/
theorem latticeLen_eq (ref ofs per r : Nat) :
    let d := latticeGap ref ofs per (r + per)
    latticeLen ref ofs per r = if d = 0 then per else if 2 * d ≤ per then per + d else d := by
  unfold latticeLen latticeFrom
  dsimp only
  rw [Nat.add_sub_cancel_left]
  rfl

/-- A number is at least as far from 0 as the nearer of the multiples around its residue. -/
theorem min_emod_le_natAbs (y : Int) {n : Int} (hn : 0 < n) : min (y % n) (n - y % n) ≤ y.natAbs := by
  have hdiv := Int.mul_ediv_add_emod y n
  by_cases hneg : y < 0
  · have hbelow : n * (y / n) ≤ n * -1 :=
      Int.mul_le_mul_of_nonneg_left (Int.le_sub_one_of_lt (Int.ediv_neg_of_neg_of_pos hneg hn)) (Int.le_of_lt hn)
    omega
  · have habove : 0 ≤ n * (y / n) :=
      Int.mul_nonneg (Int.le_of_lt hn) (Int.ediv_nonneg (Int.not_lt.mp hneg) (Int.le_of_lt hn))
    omega

section
variable {per : Nat} (hper : 0 < per) (ref ofs x : Nat)
include hper

theorem latticeGap_lt : latticeGap ref ofs per x < per := by
  have := Int.emod_lt_of_pos ((ref : Int) + (ofs % per : Nat) - x) (Int.ofNat_lt.mpr hper)
  unfold latticeGap
  omega

theorem latticeGap_cast : (latticeGap ref ofs per x : Int) = ((ref : Int) + (ofs % per : Nat) - x) % per :=
  Int.toNat_of_nonneg (Int.emod_nonneg _ (Int.ofNat_ne_zero.mpr (Nat.ne_of_gt hper)))

/-- The lattice points lie at the gap and whole periods from any point. -/
theorem onLattice_iff (y : Nat) : OnLattice ref ofs per y ↔ ((y : Int) - x) % per = latticeGap ref ofs per x := by
  have hdiff : ((y : Int) - ref - (ofs % per : Nat)) = y - x - (ref + (ofs % per : Nat) - x) := by omega
  rw [OnLattice, latticeGap_cast hper, Int.emod_eq_emod_iff_emod_sub_eq_zero, hdiff]

/-- A period is within half a period of its nominal length (R99). -/
theorem latticeLen_range : per ≤ 2 * latticeLen ref ofs per x ∧ 2 * latticeLen ref ofs per x ≤ 3 * per := by
  have hlt := latticeGap_lt hper ref ofs (x + per)
  rw [latticeLen_eq]
  split
  · omega
  · split <;> omega

/-- A period ends on the lattice. -/
theorem onLattice_add_latticeLen : OnLattice ref ofs per (x + latticeLen ref ofs per x) := by
  have hlt := latticeGap_lt hper ref ofs (x + per)
  have hres : (latticeGap ref ofs per (x + per) : Int) % per = latticeGap ref ofs per (x + per) :=
    Int.emod_eq_of_lt (Int.natCast_nonneg _) (Int.ofNat_lt.mpr hlt)
  have hend (len : Nat) : ((x + len : Nat) : Int) - (x + per : Nat) = len - per := by omega
  rw [onLattice_iff hper ref ofs (x + per), hend, latticeLen_eq]
  split
  · next hzero => rw [hzero, Int.sub_self, Int.zero_emod, Int.ofNat_zero]
  · split
    · rw [Int.natCast_add, Int.add_comm, Int.add_sub_cancel, hres]
    · rw [Int.sub_emod_right, hres]

theorem latticeLen_of_onLattice (h : OnLattice ref ofs per x) : latticeLen ref ofs per x = per := by
  have hback : ((x : Int) - (x + per : Nat)) = -per := by omega
  rw [onLattice_iff hper ref ofs (x + per), hback, Int.neg_emod_self] at h
  rw [latticeLen_eq, if_pos (Int.ofNat_eq_zero.mp h.symm)]

/-- No lattice point is nearer to the nominal end of a period than its end. -/
theorem latticeLen_nearest {y : Nat} (h : OnLattice ref ofs per y) :
    ((latticeLen ref ofs per x : Int) - per).natAbs ≤ ((y : Int) - x - per).natAbs := by
  have hlt := latticeGap_lt hper ref ofs (x + per)
  have hfar := min_emod_le_natAbs ((y : Int) - (x + per : Nat)) (Int.ofNat_lt.mpr hper)
  rw [(onLattice_iff hper ref ofs (x + per) y).mp h] at hfar
  rw [latticeLen_eq]
  split
  · omega
  · split <;> omega

end

/-- Settles O18: every clause by the gap between the nominal end of the period and the next lattice point. -/
theorem latticePeriodsStayInRange : Obligations.LatticePeriodsStayInRange := by
  unfold Obligations.LatticePeriodsStayInRange
  intro ref ofs per r hper len onLattice
  obtain ⟨hmin, hmax⟩ := latticeLen_range hper ref ofs r
  exact ⟨hmin, hmax, onLattice_add_latticeLen hper ref ofs r, latticeLen_of_onLattice hper ref ofs r,
    fun x => latticeLen_nearest hper ref ofs r⟩

end Sys2Proof.Machine
end

section
/-! The staging and the load buffer of a PWM channel: staged writes, load-alls and immediate loads (R102 to R105,
R107). -/

namespace Sys2Proof.Machine

/-! ## One channel -/

@[simp] theorem chanOf_updChan_self (n : Nat) (f : Chan → Chan) (s : State) :
    chanOf (updChan n f s) n = f (chanOf s n) := tget_tset_self _ _ _ _

/-- A write to a channel that a rail owns, where the channel ignores it, only sets WREF (R96, R102, R105). -/
theorem pwmWref_effect (n : Nat) (s : State) :
    let cfg := Reg.PW_CFG (quireOf n) (localOf n)
    flag (pwmWref n s) cfg Fld.PW_CFG_WREF = true ∧ OnlyRegs [cfg] s (pwmWref n s) :=
  ⟨flag_raiseFlag_self _ 30 s (by decide), onlyRegs_raiseFlag _ _ (onlyRegs_refl _ s) (by simp)⟩

/-! ## Staged writes (R102, R103, R105) -/

theorem stageWrite_of_owned {n : Nat} {s : State} (a : Nat) (f : Bits) (v : Nat) (h : owned s n = true) :
    stageWrite n a f v s = pwmWref n s := if_pos h

/-- A staged write to a channel of software's own: the word at a, and its bit of STGMASK. -/
theorem stageWrite_free_effect {n a : Nat} {f : Bits} {s : State} (v : Nat) (h : owned s n = false)
    (hlo : f.lo ≤ f.hi) (hhi : f.hi < 32) (hne : a ≠ Reg.PW_STGMASK (quireOf n) (localOf n)) :
    let mask := Reg.PW_STGMASK (quireOf n) (localOf n)
    let t := stageWrite n a f v s
    flag t mask f = true ∧ rd t a = rd (plainWrite a v s) a ∧ OnlyRegs [a, mask] s t := by
  intro mask t
  have ht : t = setFlag mask f true (plainWrite a v s) := if_neg (by simp [h])
  rw [ht]
  exact ⟨flag_setFlag_self _ _ _ _ hlo hhi, rd_setFld_ne _ _ _ _ _ hne,
    onlyRegs_setFlag _ _ _ (onlyRegs_plainWrite _ _ (onlyRegs_refl _ s) (by simp)) (by simp [mask])⟩

/-- The three staged writes are one operation, each with its own word and its own bit of STGMASK. -/
theorem exec_stagedWrite {s : State} {m : Master} {n : Fin 256} {v : BitVec 32} {a : Nat} {f : Bits} {c : Instr}
    (hc : (a, f, c) ∈ [(Reg.PW_PER_STG (quireOf n) (localOf n), Fld.PW_STGMASK_PER, Instr.perStgWrite m n v),
      (Reg.PW_ON_STG (quireOf n) (localOf n), Fld.PW_STGMASK_ON, .onStgWrite m n v),
      (Reg.PW_OFS_STG (quireOf n) (localOf n), Fld.PW_STGMASK_OFS, .ofsStgWrite m n v)]) (hw : CanWrite s m a) :
    exec c s = .next (stageWrite n a f v.toNat s) ∧ f.lo ≤ f.hi ∧ f.hi < 32 ∧
      a ≠ Reg.PW_STGMASK (quireOf n) (localOf n) := by
  simp only [List.mem_cons, Prod.mk.injEq, List.not_mem_nil, or_false] at hc
  obtain ⟨rfl, rfl, rfl⟩ | ⟨rfl, rfl, rfl⟩ | ⟨rfl, rfl, rfl⟩ := hc
  · exact ⟨regWriteBy_eq hw, by decide, by decide, by simp [Reg.PW_PER_STG, Reg.PW_STGMASK]⟩
  · exact ⟨regWriteBy_eq hw, by decide, by decide, by simp [Reg.PW_ON_STG, Reg.PW_STGMASK]⟩
  · exact ⟨regWriteBy_eq hw, by decide, by decide, by simp [Reg.PW_OFS_STG, Reg.PW_STGMASK]⟩

/-! ## The load buffer (R102, R103) -/

/-- Setting the first period does nothing, or gives the channel the start of one. -/
theorem armFirst_cases (n : Nat) (s : State) :
    armFirst n s = s ∨ ∃ x, armFirst n s = updChan n (fun c => { c with first := x }) s := by
  unfold armFirst
  extract_lets c per ofs
  split
  · exact .inl rfl
  · exact .inr ⟨_, rfl⟩

theorem rd_armFirst (n : Nat) (s : State) (a : Nat) : rd (armFirst n s) a = rd s a := by
  rcases armFirst_cases n s with h | ⟨x, h⟩
  · rw [h]
  · rw [h, rd_updChan]

theorem chanOf_armFirst (n : Nat) (s : State) : ∃ x, chanOf (armFirst n s) n = { chanOf s n with first := x } := by
  rcases armFirst_cases n s with h | ⟨x, h⟩ <;> rw [h]
  · exact ⟨_, rfl⟩
  · exact ⟨x, chanOf_updChan_self n _ s⟩

/-- The channel with a load taken at ns in its buffer. -/
def Chan.load (c : Chan) (per on ofs ns : Nat) : Chan :=
  { c with bufPer := per, bufOn := on, bufOfs := ofs, bufNew := true, bufNs := ns }

/-- A snapshot whose period is long enough fills the load buffer and clears STGMASK. -/
theorem loadBuffer_effect {n per on ofs : Nat} {s : State} (h : 32000 ≤ perOf per) :
    let mask := Reg.PW_STGMASK (quireOf n) (localOf n)
    let t := loadBuffer n per on ofs s
    (chanOf t n).bufPer = per ∧ (chanOf t n).bufOn = on ∧ (chanOf t n).bufOfs = ofs ∧ (chanOf t n).bufNew = true ∧
      KeepsRegs [mask] s t ∧ rd t mask = 0 := by
  intro mask t
  have ht : t = armFirst n (wr mask 0 (updChan n (·.load per on ofs (now s)) s)) := if_neg (Nat.not_lt.mpr h)
  have hchan : ∃ x, chanOf t n = { (chanOf s n).load per on ofs (now s) with first := x } := by
    obtain ⟨x, hfirst⟩ := chanOf_armFirst n (wr mask 0 (updChan n (·.load per on ofs (now s)) s))
    refine ⟨x, (ht ▸ hfirst).trans (congrArg (fun c : Chan => { c with first := x }) ?_)⟩
    exact chanOf_updChan_self n (·.load per on ofs (now s)) s
  obtain ⟨x, hchan⟩ := hchan
  have hregs (a : Nat) : rd t a = rd (wr mask 0 s) a := by rw [ht, rd_armFirst]; rfl
  rw [hchan]
  refine ⟨rfl, rfl, rfl, rfl, fun a ha => ?_, (hregs mask).trans (rd_wr_self mask 0 s)⟩
  rw [hregs, rd_wr_ne _ _ _ _ (by simpa using ha)]

/-! ## Loads by mask (R103 to R105, R107) -/

theorem localOf_lt (n : Nat) : localOf n < 16 := Nat.mod_lt n (by decide)

theorem ones_two_pow : ∀ p, p < 16 → ones 16 (BitVec.ofNat 16 (2 ^ p)).toNat = [p] := by decide

/-- A mask that names the channel of local port p alone has f act on it alone. -/
theorem forAll_ones_localOf {g n : Nat} (hg : g = quireOf n) (f : Nat → State → State) (s : State) :
    forAll (ones 16 (BitVec.ofNat 16 (2 ^ localOf n)).toNat) (fun p => f (16 * g + p)) s = f n s := by
  have hn : 16 * g + localOf n = n := by rw [hg]; exact Nat.div_add_mod n 16
  rw [ones_two_pow _ (localOf_lt n)]
  exact congrArg (f · s) hn

section
variable {n : Nat} {s : State} (hfree : owned s n = false)
include hfree

theorem checkedLoad_of_whole (f : State → State) (htorn : torn s n = false) : checkedLoad n f s = f s := by
  simp [checkedLoad, hfree, htorn]

/-- A torn load in strict mode is refused: only its bit of PW_TORN.REFUSED shows it (R104). -/
theorem checkedLoad_of_strict (f : State → State) (htorn : torn s n = true)
    (hstrict : flag s (Reg.PW_CTRL (quireOf n)) Fld.PW_CTRL_STRICT = true) :
    checkedLoad n f s = raiseWord (Reg.PW_TORN (quireOf n)) (2 ^ (Fld.PW_TORN_REFUSED.lo + localOf n)) s := by
  simp [checkedLoad, hfree, htorn, hstrict]

end

/-- A bit of a field that hardware raises reads set. -/
theorem bitAt_fld_raiseWord (a : Nat) {f : Bits} {i : Nat} (s : State) (hlo : f.lo ≤ f.hi) (hhi : f.hi < 32)
    (hi : i < f.hi - f.lo + 1) : bitAt (fld (raiseWord a (2 ^ (f.lo + i)) s) a f) i = true := by
  have hbit (w : Nat) : bitAt w i = w.testBit i := by rw [Nat.testBit_eq_decide_div_mod_eq]; rfl
  rw [hbit, raiseWord, orWord, fld_wr_self _ _ _ _ hlo hhi, testBit_getBits, Nat.testBit_or, Nat.testBit_two_pow_self]
  simp [hi]

/-- Settles O14: the three staged writes as one operation, and a load of one channel as what its check lets through. -/
theorem stagingWritesAndLoads : Obligations.StagingWritesAndLoads := by
  unfold Obligations.StagingWritesAndLoads
  intro s m n v q p mask
  refine ⟨fun a f c hc hw => ?_, fun g hg hw hfree => ?_⟩
  -- The staged writes
  · obtain ⟨hexec, hlo, hhi, hne⟩ := exec_stagedWrite hc hw
    refine ⟨fun hfree => runs_of_eq hexec (stageWrite_free_effect _ hfree hlo hhi hne), fun howned => ?_⟩
    refine runs_of_eq hexec ?_
    rw [stageWrite_of_owned _ _ _ howned]
    exact pwmWref_effect n s
  -- The loads
  · have hw' : CanWrite s m (Reg.PW_LOADALL g) := by rwa [hg]
    have hload : loadAll g (BitVec.ofNat 16 (2 ^ p)).toNat s = checkedLoad n (loadChan n) s :=
      forAll_ones_localOf hg (fun k => checkedLoad k (loadChan k)) s
    have himmediate : immediateLoad g (BitVec.ofNat 16 (2 ^ p)).toNat s = checkedLoad n (immediateChan n) s :=
      forAll_ones_localOf hg (fun k => checkedLoad k (immediateChan k)) s
    refine ⟨fun htorn hper => runs_of_eq (regWriteBy_eq hw') ?_, fun htorn hstrict => runs_of_eq (regWriteBy_eq hw') ?_,
      fun htorn => runs_of_eq (regWriteBy_eq hw') (himmediate.trans (checkedLoad_of_whole hfree _ htorn))⟩
    · rw [hload, checkedLoad_of_whole hfree _ htorn]
      exact loadBuffer_effect hper
    · rw [hload, checkedLoad_of_strict hfree _ htorn hstrict]
      exact ⟨bitAt_fld_raiseWord _ s (by decide) (by decide) (localOf_lt n),
        onlyRegs_raiseWord _ _ (onlyRegs_refl _ s) (List.mem_singleton.mpr rfl)⟩

end Sys2Proof.Machine
end

section
/-! The events of a PWM channel: modes, periods, edges, the software timeline, dead time and calibration (R96, R98 to
R100, R108, R111, R112, R122). -/

namespace Sys2Proof.Machine

/-! ## MODE_WRITE (R96, R105) -/

theorem pwmMode_lt (s : State) (n : Nat) : pwmMode s n < 4 := Nat.mod_lt _ (by decide)

/-- The row of PW_CFG: TLSEL, LSEN and MODE are RW, WREF is W1C, and OWNED is read-only (R122). -/
theorem regRow_pwCfg (n : Fin 256) : regRow (Reg.PW_CFG (quireOf n) (localOf n)) =
    some ⟨0x100, [(16, 0x80)], 0x10, 0x33, 0x40000000, 0⟩ := by
  revert n
  decide +kernel

/-- A write to PW_CFG as far as it leaves MODE alone (R96). -/
def cfgKeepMode (n v : Nat) (s : State) : State :=
  setFld (Reg.PW_CFG (quireOf n) (localOf n)) Fld.PW_CFG_MODE (pwmMode s n)
    (plainWrite (Reg.PW_CFG (quireOf n) (localOf n)) v s)

theorem pwmMode_cfgKeepMode (n v : Nat) (s : State) : pwmMode (cfgKeepMode n v s) n = pwmMode s n :=
  (fld_setFld_self _ _ _ _ (by decide) (by decide)).trans (Nat.mod_eq_of_lt (pwmMode_lt s n))

theorem onlyRegs_cfgKeepMode (n v : Nat) (s : State) :
    OnlyRegs [Reg.PW_CFG (quireOf n) (localOf n)] s (cfgKeepMode n v s) :=
  onlyRegs_setFld _ _ _ (onlyRegs_plainWrite _ _ (onlyRegs_refl _ s) (by simp)) (by simp)

/-- No write changes OWNED. -/
theorem owned_cfgKeepMode (n : Fin 256) (v : Nat) (s : State) : owned (cfgKeepMode n v s) n = owned s n :=
  flag_of_fld_eq ((fld_setFld_other _ _ _ _ _ (by decide) (by decide) (by decide) (by decide)).trans
    (fld_plainWrite_ro (regRow_pwCfg n) (by decide) (by decide) (by decide) (by decide) (by decide)))

theorem cfgWrite_of_free {n : Fin 256} {v : Nat} {s : State} (hmode : getBits v Fld.PW_CFG_MODE ≠ 3)
    (hfree : owned s n = false) :
    cfgWrite n v s = setMode n (getBits v Fld.PW_CFG_MODE) (cfgKeepMode n v s) := by
  have hnot : ¬(getBits v Fld.PW_CFG_MODE = 3 ∨
      (owned (cfgKeepMode n v s) n = true ∧ getBits v Fld.PW_CFG_MODE ≠ pwmMode s n)) := by
    simp [hmode, owned_cfgKeepMode, hfree]
  exact if_neg hnot

/-- MODE 3 is none: MODE stays and WREF sets. -/
theorem cfgWrite_reserved_effect {n v : Nat} {s : State} (hmode : getBits v Fld.PW_CFG_MODE = 3) :
    let cfg := Reg.PW_CFG (quireOf n) (localOf n)
    let t := cfgWrite n v s
    flag t cfg Fld.PW_CFG_WREF = true ∧ pwmMode t n = pwmMode s n ∧ OnlyRegs [cfg] s t := by
  intro cfg t
  have ht : t = pwmWref n (cfgKeepMode n v s) := if_pos (.inl hmode)
  obtain ⟨hwref, hregs⟩ := pwmWref_effect n (cfgKeepMode n v s)
  rw [ht]
  refine ⟨hwref, ?_, onlyRegs_trans (onlyRegs_cfgKeepMode n v s) hregs⟩
  exact (fld_raiseFlag_other _ 30 _ _ (by decide) (by decide) (by decide)).trans (pwmMode_cfgKeepMode n v s)

/-! ## Edges (R98, R108) -/

theorem updChan_frame (n : Nat) (f : Chan → Chan) (s : State) :
    (updChan n f s).regs = s.regs ∧ (updChan n f s).mem = s.mem ∧
      ∀ k, k ≠ n → chanOf (updChan n f s) k = chanOf s k :=
  ⟨rfl, rfl, fun k hk => (chanOf_updChan n f s k).trans (if_neg hk)⟩

theorem guardDue_of_hs {s : State} {n : Nat} (h : dueAt s (chanOf s n).pendHs = true) : guardDue s n = true := by
  simp [guardDue, h]

theorem chanOf_guardEdge_of_hs {s : State} {n : Nat} (h : dueAt s (chanOf s n).pendHs = true) :
    chanOf (guardEdge n s) n = { chanOf s n with hs := true, pendHs := 0 } :=
  (chanOf_updChan_self n _ s).trans (if_pos h)

/-- The pulse that ends is off, whether or not LS follows it. -/
theorem chanOf_hsEnd (n : Nat) (s : State) : (chanOf (hsEnd n s) n).hs = false ∧ (chanOf (hsEnd n s) n).endHs = 0 := by
  unfold hsEnd
  rw [chanOf_updChan_self]
  dsimp only
  split
  · split <;> exact ⟨hsOffAt_hs _ _, rfl⟩
  · exact ⟨hsOffAt_hs _ _, rfl⟩

/-! ## TLREF_COMMIT (R99) -/

theorem regs_tlrefCommit (q v : Nat) (s : State) : (tlrefCommit q v s).regs = (wr (Reg.PW_TLREF_LO q) v s).regs := rfl

theorem tlrefs_tlrefCommit (q v : Nat) (s : State) : (tlrefCommit q v s).tlrefs =
    tset (fun _ => 0) s.tlrefs q (rd (wr (Reg.PW_TLREF_LO q) v s) (Reg.PW_TLREF_HI q) * 2 ^ 32 + v) := rfl

theorem rd_tlrefCommit (q v : Nat) (s : State) (a : Nat) :
    rd (tlrefCommit q v s) a = rd (wr (Reg.PW_TLREF_LO q) v s) a := by
  simp only [rd, regs_tlrefCommit]

theorem tlrefCommit_effect (q v : Nat) (s : State) (hv : v < 2 ^ 32) :
    let lo := Reg.PW_TLREF_LO q
    let t := tlrefCommit q v s
    tget (fun _ => 0) t.tlrefs q = rd s (Reg.PW_TLREF_HI q) * 2 ^ 32 + v ∧ rd t lo = v ∧ KeepsRegs [lo] s t := by
  intro lo t
  have hne : Reg.PW_TLREF_HI q ≠ lo := by simp [lo, Reg.PW_TLREF_HI, Reg.PW_TLREF_LO]
  refine ⟨?_, ?_, fun a ha => ?_⟩
  · rw [tlrefs_tlrefCommit, tget_tset_self, rd_wr_ne _ _ _ _ hne]
  · rw [rd_tlrefCommit, rd_wr_self, Nat.mod_eq_of_lt hv]
  · rw [rd_tlrefCommit, rd_wr_ne _ _ _ _ (by simpa using ha)]

/-! ## DTA_WRITE (R111) -/

theorem dtaWrite_crossed_effect {n v : Nat} {s : State}
    (h : getBits v Fld.PW_DTA_DTMAX < getBits v Fld.PW_DTA_DTMIN) :
    let dta := Reg.PW_DTA (quireOf n) (localOf n)
    flag (dtaWrite n v s) dta Fld.PW_DTA_BADBND = true ∧ OnlyRegs [dta] s (dtaWrite n v s) := by
  intro dta
  have ht : dtaWrite n v s = raiseFlag dta Fld.PW_DTA_BADBND s := if_pos h
  rw [ht]
  exact ⟨flag_raiseFlag_self _ 30 s (by decide), onlyRegs_raiseFlag _ _ (onlyRegs_refl _ s) (by simp)⟩

/-- Bounds in order are stored; a start of the adaptation changes the channel alone beside. -/
theorem rd_dtaWrite_of_order {n v : Nat} {s : State} (h : getBits v Fld.PW_DTA_DTMIN ≤ getBits v Fld.PW_DTA_DTMAX)
    (a : Nat) : rd (dtaWrite n v s) a = rd (plainWrite (Reg.PW_DTA (quireOf n) (localOf n)) v s) a := by
  unfold dtaWrite
  dsimp only
  rw [if_neg (Nat.not_lt.mpr h)]
  split
  · rw [rd_updChan]
  · rfl

theorem keepsRegs_dtaWrite_of_order {n v : Nat} {s : State}
    (h : getBits v Fld.PW_DTA_DTMIN ≤ getBits v Fld.PW_DTA_DTMAX) :
    KeepsRegs [Reg.PW_DTA (quireOf n) (localOf n)] s (dtaWrite n v s) := fun a ha =>
  (rd_dtaWrite_of_order h a).trans ((onlyRegs_plainWrite _ v (onlyRegs_refl _ s) (by simp)).1 a ha)

/-! ## CAL_MAP_COMPLETE (R112) -/

/-- A channel that switches keeps its complete map for its next reload. -/
theorem calMap_of_switching {n g resid : Nat} {s : State} (hmode : pwmMode s n ≠ 0)
    (hpark : parkOf (chanOf s n).actOn = false) :
    calMap n g true resid s = updChan n (fun c =>
        { c with shadow := c.shadow ||| 2 ^ g, calRetry := c.calRetry &&& (3 ^^^ 2 ^ g) })
      (setFld (Reg.PW_CAL (quireOf n)) Fld.PW_CAL_RESID resid s) := by
  have hne : Reg.PW_CFG (quireOf n) (localOf n) ≠ Reg.PW_CAL (quireOf n) := by
    simp only [Reg.PW_CFG, Reg.PW_CAL]
    omega
  refine if_neg (not_or.mpr ⟨?_, by simp [hpark]⟩)
  exact fun hzero => hmode ((fld_setFld_ne _ _ _ s _ Fld.PW_CFG_MODE hne).symm.trans hzero)

theorem calMap_switching_effect {n g resid : Nat} {s : State} (hmode : pwmMode s n ≠ 0)
    (hpark : parkOf (chanOf s n).actOn = false) (hresid : resid < 256) :
    let cal := Reg.PW_CAL (quireOf n)
    let t := calMap n g true resid s
    fld t cal Fld.PW_CAL_RESID = resid ∧ (chanOf t n).shadow = ((chanOf s n).shadow ||| 2 ^ g) ∧
      KeepsRegs [cal] s t := by
  intro cal t
  have ht : t = _ := calMap_of_switching hmode hpark
  rw [ht]
  refine ⟨?_, congrArg Chan.shadow (chanOf_updChan_self n _ _), fun a ha => ?_⟩
  · rw [fld_updChan, fld_setFld_self _ _ _ _ (by decide) (by decide)]
    exact Nat.mod_eq_of_lt hresid
  · rw [rd_updChan, rd_setFld_ne _ _ _ _ _ (by simpa using ha)]

/-- Settles O15, an event at a time. -/
theorem channelEventsRun : Obligations.ChannelEventsRun := by
  unfold Obligations.ChannelEventsRun
  intro s m n v q p cfg dta
  refine ⟨fun hw hmode hfree => ?_, fun hw hmode => ?_, fun ha hdue => ?_, fun ha hdue => ?_, fun ha hdue => ?_,
    fun ha hdue => ?_, fun g hw => ?_, fun hw hcross => ?_, fun hw hord => ?_, fun g resid ha hrun hmode hpark => ?_⟩
  -- MODE_WRITE of a mode, of MODE 3
  · exact runs_of_eq (regWriteBy_eq hw) (cfgWrite_of_free hmode hfree)
  · exact runs_of_eq (regWriteBy_eq hw) (cfgWrite_reserved_effect hmode)
  -- CHANNEL_FIRST_PERIOD, PWM_RELOAD
  · exact runs_of_eq (live_eq ha hdue) rfl
  · exact runs_of_eq (live_eq ha hdue) rfl
  -- GUARD_ON_EDGE, HS_OFF_EDGE
  · refine runs_of_eq (live_eq ha (guardDue_of_hs hdue)) ?_
    rw [chanOf_guardEdge_of_hs hdue]
    exact ⟨rfl, rfl, updChan_frame n _ s⟩
  · obtain ⟨hhs, hend⟩ := chanOf_hsEnd n s
    exact runs_of_eq (live_eq ha hdue) ⟨hhs, hend, updChan_frame n _ s⟩
  -- TLREF_COMMIT
  · exact runs_of_eq (regWriteBy_eq hw) (tlrefCommit_effect g _ s v.isLt)
  -- DTA_WRITE with bounds that cross, with bounds in order
  · exact runs_of_eq (regWriteBy_eq hw) (dtaWrite_crossed_effect hcross)
  · exact runs_of_eq (regWriteBy_eq hw) ⟨rd_dtaWrite_of_order hord _, keepsRegs_dtaWrite_of_order hord⟩
  -- CAL_MAP_COMPLETE
  · exact runs_of_eq (live_eq ha (by simpa using hrun)) (calMap_switching_effect hmode hpark resid.isLt)

end Sys2Proof.Machine
end

section
/-! The trips of a PWM channel: the latch, its clears and the counters (R115, R116, R118, R119, R122). -/

namespace Sys2Proof.Machine

/-- A refused clear only sets CLRREF (R118). -/
theorem clearRefused_effect (n : Nat) (s : State) :
    let st := Reg.PW_TSTAT (quireOf n) (localOf n)
    flag (clearRefused n s) st Fld.PW_TSTAT_CLRREF = true ∧ OnlyRegs [st] s (clearRefused n s) :=
  ⟨flag_raiseFlag_self _ 29 s (by decide), onlyRegs_raiseFlag _ _ (onlyRegs_refl _ s) (by simp)⟩

/-! ## PW_TCLR (R118, R119) -/

section
variable {n : Nat} {s : State}

theorem tripClear_of_latchOff (hoff : latchOff s n = true) : tripClear n s = s := if_pos hoff

theorem tripClear_of_source (hoff : latchOff s n = false) (hsrc : tripSources s n ≠ 0) :
    tripClear n s = clearRefused n s := by simp [tripClear, hoff, hsrc]

theorem tripClear_of_latched (hoff : latchOff s n = false) (hlatch : latched s n = true)
    (hsrc : tripSources s n = 0) : tripClear n s = settlePort n (unlatch n false s) := by
  simp [tripClear, hoff, hlatch, hsrc]

theorem loffClear_of_source (hsrc : tripSources s n ≠ 0) : loffClear n s = clearRefused n s := by
  simp [loffClear, hsrc]

theorem loffClear_of_quiet (hsrc : tripSources s n = 0) : loffClear n s = settlePort n (clearLatchOff n s) := by
  simp [loffClear, hsrc]

end

/-! ## The counters (R119, R122) -/

/-- RCNT reads 0 and the latch stands as it was. -/
theorem rcntReset_effect (n : Nat) (s : State) :
    let st := Reg.PW_TSTAT (quireOf n) (localOf n)
    let t := setFld st Fld.PW_TSTAT_RCNT 0 s
    fld t st Fld.PW_TSTAT_RCNT = 0 ∧ latched t n = latched s n ∧ OnlyRegs [st] s t :=
  ⟨fld_setFld_self _ _ _ _ (by decide) (by decide),
    flag_of_fld_eq (fld_setFld_other _ _ _ _ _ (by decide) (by decide) (by decide) (by decide)),
    onlyRegs_setFld _ _ _ (onlyRegs_refl _ s) (by simp)⟩

theorem wr_zero_effect (a : Nat) (s : State) : rd (wr a 0 s) a = 0 ∧ OnlyRegs [a] s (wr a 0 s) :=
  ⟨rd_wr_self a 0 s, onlyRegs_wr a 0 (onlyRegs_refl _ s) (by simp)⟩

/-- Settles O16, a command at a time. -/
theorem tripCommandsRun : Obligations.TripCommandsRun := by
  unfold Obligations.TripCommandsRun
  intro s m n q p st
  refine ⟨fun ha hdue => ?_, fun hw hoff => ?_, fun hw hoff hsrc => ?_, fun hw hsrc => ?_,
    fun hw hoff hlatch hsrc => ?_, fun hw hsrc => ?_, fun ha hdue => ?_, fun hw => ?_, fun hw => ?_⟩
  -- TRIP_ASSERT
  · exact runs_of_eq (live_eq ha hdue) rfl
  -- TRIP_CLEAR of a channel latched off, of one whose source asserts; LOFF_CLEAR of one whose source asserts
  · exact runs_of_eq (regWriteBy_eq hw) (tripClear_of_latchOff hoff)
  · refine runs_of_eq (regWriteBy_eq hw) ?_
    rw [tripClear_of_source hoff hsrc]
    exact clearRefused_effect n s
  · refine runs_of_eq (regWriteBy_eq hw) ?_
    rw [loffClear_of_source hsrc]
    exact clearRefused_effect n s
  -- TRIP_CLEAR of a latched channel, LOFF_CLEAR, with no source asserting
  · exact runs_of_eq (regWriteBy_eq hw) (tripClear_of_latched hoff hlatch hsrc)
  · exact runs_of_eq (regWriteBy_eq hw) (loffClear_of_quiet hsrc)
  -- RCNT_QUIET_RESET, DTOPP_CLEAR, TCNT_CLEAR
  · exact runs_of_eq (live_eq ha hdue) (rcntReset_effect n s)
  · exact runs_of_eq (regWriteBy_eq hw) (wr_zero_effect _ s)
  · exact runs_of_eq (regWriteBy_eq hw) (wr_zero_effect _ s)

end Sys2Proof.Machine
end

section
/-! Threshold tracking: what the control ticks of a comparator leave alone, and the bounds of the thresholds that they
decide (R137, R140). -/

namespace Sys2Proof.Machine

/-! ## Signed fields -/

section
variable {n : Nat} (hn : 0 < n)
include hn

theorem two_pow_eq_double : 2 ^ n = 2 * 2 ^ (n - 1) := by
  rw [← Nat.pow_succ']
  congr 1
  omega

theorem sx_range (w : Nat) : -((2 ^ (n - 1) : Nat) : Int) ≤ sx n w ∧ sx n w < (2 ^ (n - 1) : Nat) := by
  have hdouble := two_pow_eq_double hn
  have hlt : w % 2 ^ n < 2 ^ n := Nat.mod_lt _ (Nat.two_pow_pos n)
  have hcast : (2 : Int) ^ n = (2 ^ n : Nat) := by simp
  unfold sx
  dsimp only
  rw [hcast]
  split <;> omega

/-- A number in the range of n bits reads back from its pattern. -/
theorem sx_pat {x : Int} (hlo : -((2 ^ (n - 1) : Nat) : Int) ≤ x) (hhi : x < (2 ^ (n - 1) : Nat)) :
    sx n (pat n x) = x := by
  have hdouble := two_pow_eq_double hn
  have hcast : (2 : Int) ^ n = (2 ^ n : Nat) := by simp
  unfold sx pat
  rw [hcast]
  by_cases hx : 0 ≤ x
  · have hmod : x % (2 ^ n : Nat) = x := Int.emod_eq_of_lt hx (by omega)
    have hlt : x.toNat < 2 ^ n := by omega
    rw [hmod, Nat.mod_eq_of_lt hlt, if_pos (by omega)]
    omega
  · have hmod : x % (2 ^ n : Nat) = x + (2 ^ n : Nat) := by
      rw [← Int.add_emod_right]
      exact Int.emod_eq_of_lt (by omega) (by omega)
    have hlt : (x + (2 ^ n : Nat)).toNat < 2 ^ n := by omega
    rw [hmod, Nat.mod_eq_of_lt hlt, if_neg (by omega)]
    omega

end

theorem pat_lt (n : Nat) (x : Int) : pat n x < 2 ^ n := by
  have hcast : (2 : Int) ^ n = (2 ^ n : Nat) := by simp
  have hpos := Nat.two_pow_pos n
  have hlt := Int.emod_lt_of_pos x (Int.natCast_pos.mpr hpos)
  unfold pat
  rw [hcast]
  omega

theorem fld_lt (s : State) (a : Nat) (f : Bits) : fld s a f < 2 ^ (f.hi - f.lo + 1) := Nat.mod_lt _ (Nat.two_pow_pos _)

/-! ## The thresholds in use (R137) -/

section
variable (q c : Nat) {lo hi : Int} {s : State}

/-- WC_CUR shows thresholds that fit their fields as they are. -/
theorem thresholds_showCur (hrel : relative s q c = true) (hlo : -512 ≤ lo ∧ lo < 512) (hhi : -512 ≤ hi ∧ hi < 512) :
    (thresholds (showCur q c lo hi s) q c).1 = lo ∧ (thresholds (showCur q c lo hi s) q c).2.1 = hi := by
  have hpl : pat 10 lo < 1024 := pat_lt 10 lo
  have hph : pat 10 hi < 1024 := pat_lt 10 hi
  have hhys : fld s (Reg.WC_THR q c) Fld.WC_THR_HYS < 16 := fld_lt _ _ _
  have hne : Reg.WC_CFG q c ≠ Reg.WC_CUR q c := by simp [Reg.WC_CFG, Reg.WC_CUR]
  have hrel' : relative (showCur q c lo hi s) q c = true :=
    (flag_of_fld_eq (fld_wr_ne _ _ _ _ _ hne)).trans hrel
  have hcur : rd (showCur q c lo hi s) (Reg.WC_CUR q c) =
      pat 10 hi * 2 ^ 20 + fld s (Reg.WC_THR q c) Fld.WC_THR_HYS * 2 ^ 16 + pat 10 lo :=
    (rd_wr_self _ _ _).trans (Nat.mod_eq_of_lt (by omega))
  have hbits : ∀ h y l : Nat, h < 1024 → y < 16 → l < 1024 →
      getBits (h * 2 ^ 20 + y * 2 ^ 16 + l) Fld.WC_CUR_LO = l ∧
      getBits (h * 2 ^ 20 + y * 2 ^ 16 + l) Fld.WC_CUR_HI = h := by
    intro h y l hh hy hl
    simp only [getBits, Fld.WC_CUR_LO, Fld.WC_CUR_HI]
    omega
  obtain ⟨hgetlo, hgethi⟩ := hbits _ _ _ hph hhys hpl
  simp only [thresholds, thrValue, hrel', if_true, hcur, hgetlo, hgethi]
  exact ⟨sx_pat (by decide) hlo.1 hlo.2, sx_pat (by decide) hhi.1 hhi.2⟩

theorem thresholds_of_rd_eq {t : State} (hcur : rd t (Reg.WC_CUR q c) = rd s (Reg.WC_CUR q c))
    (hcfg : rd t (Reg.WC_CFG q c) = rd s (Reg.WC_CFG q c)) : thresholds t q c = thresholds s q c := by
  have hrel : relative t q c = relative s q c := flag_of_fld_eq (congrArg (getBits · _) hcfg)
  simp only [thresholds, thrValue, hcur, hrel]

end

/-! ## What tracking leaves alone (R137, R140) -/

/-- From s to t no register changes but WC_CUR, WC_TOPP and WC_STAT of comparator c of quire q, no flag of WC_STAT but
HELD, and no byte of memory. -/
structure TrackFrame (q c : Nat) (s t : State) : Prop where
  regs : KeepsRegs [Reg.WC_CUR q c, Reg.WC_TOPP q c, Reg.WC_STAT q c] s t
  flags : ∀ k, k < 32 → k ≠ 24 → flag t (Reg.WC_STAT q c) ⟨k, k⟩ = flag s (Reg.WC_STAT q c) ⟨k, k⟩
  mem : t.mem = s.mem

section
variable {q c : Nat} {s t u : State}

theorem TrackFrame.refl (q c : Nat) (s : State) : TrackFrame q c s s := ⟨keepsRegs_refl _ s, fun _ _ _ => rfl, rfl⟩

theorem TrackFrame.trans (h : TrackFrame q c s t) (k : TrackFrame q c t u) : TrackFrame q c s u :=
  ⟨keepsRegs_trans h.regs k.regs, fun i hi hne => (k.flags i hi hne).trans (h.flags i hi hne), k.mem.trans h.mem⟩

theorem TrackFrame.ite {p : Prop} [Decidable p] (ht : TrackFrame q c s t) (hu : TrackFrame q c s u) :
    TrackFrame q c s (if p then t else u) := by
  split
  · exact ht
  · exact hu

theorem trackFrame_updComp (q c w : Nat) (f : Comp → Comp) (s : State) : TrackFrame q c s (updComp w f s) :=
  ⟨fun _ _ => rfl, fun _ _ _ => rfl, rfl⟩

theorem trackFrame_wr_cur (q c v : Nat) (s : State) : TrackFrame q c s (wr (Reg.WC_CUR q c) v s) :=
  ⟨keepsRegs_wr _ _ (keepsRegs_refl _ s) (by simp),
    fun _ _ _ => flag_of_fld_eq (fld_wr_ne _ _ _ _ _ (by simp [Reg.WC_STAT, Reg.WC_CUR])), rfl⟩

theorem trackFrame_wr_topp (q c v : Nat) (s : State) : TrackFrame q c s (wr (Reg.WC_TOPP q c) v s) :=
  ⟨keepsRegs_wr _ _ (keepsRegs_refl _ s) (by simp),
    fun _ _ _ => flag_of_fld_eq (fld_wr_ne _ _ _ _ _ (by simp [Reg.WC_STAT, Reg.WC_TOPP])), rfl⟩

theorem trackFrame_held (q c : Nat) (b : Bool) (s : State) :
    TrackFrame q c s (setFlag (Reg.WC_STAT q c) Fld.WC_STAT_HELD b s) :=
  ⟨keepsRegs_setFlag _ _ _ (keepsRegs_refl _ s) (by simp), fun k hk hne => flag_of_fld_eq
    (fld_setFld_other _ _ ⟨k, k⟩ _ _ (by decide) (by decide) (Nat.le_refl k) (Nat.lt_or_gt_of_ne hne)), rfl⟩

end

section
variable (q c : Nat) (s : State)

theorem trackFrame_showCur (lo hi : Int) : TrackFrame q c s (showCur q c lo hi s) := trackFrame_wr_cur q c _ s

theorem trackFrame_countHeld (t : Nat) : TrackFrame q c s (countHeld q c t s) :=
  (trackFrame_wr_topp q c _ s).trans (trackFrame_updComp q c _ _ _)

theorem trackFrame_startTracking : TrackFrame q c s (startTracking q c s) :=
  (trackFrame_updComp q c _ _ s).trans (trackFrame_showCur q c _ _ _)

theorem trackFrame_plainThresholds : TrackFrame q c s (plainThresholds q c s) :=
  (trackFrame_wr_cur q c _ s).trans (trackFrame_held q c _ _)

/-- A control tick decides thresholds that follow from an envelope and are held within the bounds, and has them wait for
the next tick instant. -/
theorem trackTick_eq (t : Nat) (lo hi : Int) : ∃ (eLo eHi : Nat) (tLo tHi : Int), trackTick q c t lo hi s =
    updComp (8 * q + c) (fun y => { y with
      eLo := eLo, eHi := eHi, tLo := tLo, tHi := tHi,
      nLo := clampI (trackBounds s q c).1 (trackBounds s q c).2.1 tLo,
      nHi := clampI (trackBounds s q c).2.2.1 (trackBounds s q c).2.2.2 tHi, useAt := tickAfter s q t }) s :=
  ⟨_, _, _, _, rfl⟩

theorem trackFrame_trackTick (t : Nat) (lo hi : Int) : TrackFrame q c s (trackTick q c t lo hi s) := by
  obtain ⟨eLo, eHi, tLo, tHi, htick⟩ := trackTick_eq q c s t lo hi
  rw [htick]
  exact trackFrame_updComp q c _ _ s

/-- Thresholds that wait for an instant by t come into use. -/
theorem adoptThresholds_of_due {t : Nat} (htrack : tracking s q c = true) (huse : (compOf s (8 * q + c)).useAt ≠ 0)
    (hdue : (compOf s (8 * q + c)).useAt ≤ t) :
    ∃ b, adoptThresholds q c t s = setFlag (Reg.WC_STAT q c) Fld.WC_STAT_HELD b
      (updComp (8 * q + c) (fun y => { y with useAt := 0 }) (showCur q c
        (clampI (trackBounds s q c).1 (trackBounds s q c).2.1 (compOf s (8 * q + c)).nLo)
        (clampI (trackBounds s q c).2.2.1 (trackBounds s q c).2.2.2 (compOf s (8 * q + c)).nHi)
        (countHeld q c (compOf s (8 * q + c)).useAt s))) :=
  ⟨_, if_pos (by simp [htrack, huse, hdue])⟩

theorem trackFrame_adoptThresholds (t : Nat) : TrackFrame q c s (adoptThresholds q c t s) := by
  by_cases h : tracking s q c && (compOf s (8 * q + c)).useAt != 0 && decide ((compOf s (8 * q + c)).useAt ≤ t)
  · simp only [Bool.and_eq_true, bne_iff_ne, decide_eq_true_eq] at h
    obtain ⟨⟨htrack, huse⟩, hdue⟩ := h
    obtain ⟨b, hadopt⟩ := adoptThresholds_of_due q c s htrack huse hdue
    rw [hadopt]
    exact (((trackFrame_countHeld q c s _).trans (trackFrame_showCur q c _ _ _)).trans
      (trackFrame_updComp q c _ _ _)).trans (trackFrame_held q c b _)
  · have hnone : adoptThresholds q c t s = s := if_neg h
    rw [hnone]
    exact .refl q c s

theorem trackFrame_plausTick (a : Int) : TrackFrame q c s (plausTick q c a s) :=
  .ite (trackFrame_updComp q c _ _ s) (.refl q c s)

theorem trackFrame_comparatorTick (x : TickSnap) : TrackFrame q c s (comparatorTick q c x s) :=
  .trans (trackFrame_adoptThresholds q c s x.ns) (.trans (.ite (trackFrame_trackTick q c _ x.ns _ _) (.refl q c _))
    (.trans (trackFrame_plausTick q c _ _)
      (trackFrame_updComp q c (8 * q + c) (fun y => { y with taken := x.ns + 1 }) _)))

theorem trackFrame_takeTicks (t : Nat) : TrackFrame q c s (takeTicks q c t s) := by
  refine .trans ?_ (trackFrame_adoptThresholds q c _ (now s))
  generalize List.reverse _ = due
  unfold forAll
  induction due generalizing s with
  | nil => exact .refl q c s
  | cons x due ih => exact (trackFrame_comparatorTick q c s x).trans (ih _)

end

/-! ## Thresholds within their bounds (R140) -/

section
variable {s : State} {q c : Nat}

theorem trackBounds_range (s : State) (q c : Nat) :
    -512 ≤ (trackBounds s q c).1 ∧ (trackBounds s q c).2.1 < 512 ∧ -512 ≤ (trackBounds s q c).2.2.1 ∧
      (trackBounds s q c).2.2.2 < 512 :=
  ⟨(sx_range (n := 10) (by decide) _).1, (sx_range (n := 10) (by decide) _).2, (sx_range (n := 10) (by decide) _).1,
    (sx_range (n := 10) (by decide) _).2⟩

/-- The thresholds that u uses lie within the bounds of comparator c of quire q in s. -/
def ThresholdsWithin (s : State) (q c : Nat) (u : State) : Prop :=
  (trackBounds s q c).1 ≤ (thresholds u q c).1 ∧ (thresholds u q c).1 ≤ (trackBounds s q c).2.1 ∧
    (trackBounds s q c).2.2.1 ≤ (thresholds u q c).2.1 ∧ (thresholds u q c).2.1 ≤ (trackBounds s q c).2.2.2

variable (hlow : (trackBounds s q c).1 ≤ (trackBounds s q c).2.1)
  (hhigh : (trackBounds s q c).2.2.1 ≤ (trackBounds s q c).2.2.2)
include hlow hhigh

/-- Thresholds held within their bounds are shown within them. -/
theorem showCur_within {t : State} (hrel : relative t q c = true) (lo hi : Int) :
    ThresholdsWithin s q c (showCur q c (clampI (trackBounds s q c).1 (trackBounds s q c).2.1 lo)
      (clampI (trackBounds s q c).2.2.1 (trackBounds s q c).2.2.2 hi) t) := by
  obtain ⟨hlo0, hlo1⟩ := clampI_range lo hlow
  obtain ⟨hhi0, hhi1⟩ := clampI_range hi hhigh
  obtain ⟨hl0, hl1, hh0, hh1⟩ := trackBounds_range s q c
  obtain ⟨hshowlo, hshowhi⟩ := thresholds_showCur (s := t) q c hrel
    ⟨Int.le_trans hl0 hlo0, Int.lt_of_le_of_lt hlo1 hl1⟩ ⟨Int.le_trans hh0 hhi0, Int.lt_of_le_of_lt hhi1 hh1⟩
  unfold ThresholdsWithin
  rw [hshowlo, hshowhi]
  exact ⟨hlo0, hlo1, hhi0, hhi1⟩

theorem startTracking_within (hrel : relative s q c = true) : ThresholdsWithin s q c (startTracking q c s) :=
  showCur_within hlow hhigh (t := updComp _ _ s) hrel _ _

theorem adoptThresholds_within {t : Nat} (hrel : relative s q c = true) (htrack : tracking s q c = true)
    (huse : (compOf s (8 * q + c)).useAt ≠ 0) (hdue : (compOf s (8 * q + c)).useAt ≤ t) :
    ThresholdsWithin s q c (adoptThresholds q c t s) := by
  obtain ⟨b, hadopt⟩ := adoptThresholds_of_due q c s htrack huse hdue
  have hcfg : Reg.WC_CFG q c ∉ [Reg.WC_CUR q c, Reg.WC_TOPP q c, Reg.WC_STAT q c] := by
    simp [Reg.WC_CFG, Reg.WC_CUR, Reg.WC_TOPP, Reg.WC_STAT]
  have hrel' : relative (countHeld q c (compOf s (8 * q + c)).useAt s) q c = true :=
    (flag_of_fld_eq (fld_of_keepsRegs _ (trackFrame_countHeld q c s _).regs hcfg)).trans hrel
  have hshown := showCur_within hlow hhigh hrel' (compOf s (8 * q + c)).nLo (compOf s (8 * q + c)).nHi
  have hrest : ∀ x : State, thresholds (setFlag (Reg.WC_STAT q c) Fld.WC_STAT_HELD b
      (updComp (8 * q + c) (fun y => { y with useAt := 0 }) x)) q c = thresholds x q c := fun x =>
    thresholds_of_rd_eq q c (rd_setFld_ne _ _ _ _ _ (by simp [Reg.WC_CUR, Reg.WC_STAT]))
      (rd_setFld_ne _ _ _ _ _ (by simp [Reg.WC_CFG, Reg.WC_STAT]))
  unfold ThresholdsWithin at hshown ⊢
  rwa [hadopt, hrest]

/-- The thresholds a control tick decides are held within the bounds, and wait. -/
theorem trackTick_decides (t : Nat) (lo hi : Int) :
    let x := compOf (trackTick q c t lo hi s) (8 * q + c)
    (trackBounds s q c).1 ≤ x.nLo ∧ x.nLo ≤ (trackBounds s q c).2.1 ∧ (trackBounds s q c).2.2.1 ≤ x.nHi ∧
      x.nHi ≤ (trackBounds s q c).2.2.2 ∧ x.useAt = tickAfter s q t := by
  intro x
  obtain ⟨eLo, eHi, tLo, tHi, htick⟩ := trackTick_eq q c s t lo hi
  obtain ⟨hlo0, hlo1⟩ := clampI_range tLo hlow
  obtain ⟨hhi0, hhi1⟩ := clampI_range tHi hhigh
  simp only [x, htick, compOf_updComp, if_true]
  exact ⟨hlo0, hlo1, hhi0, hhi1, trivial⟩

end

/-- Settles O22: what comes into use passes through WC_CUR, which shows thresholds held within their bounds as they
are. -/
theorem trackedThresholdsStayInBounds : Obligations.TrackedThresholdsStayInBounds := by
  unfold Obligations.TrackedThresholdsStayInBounds
  intro s q c t lo hi u w b hrel hlow hhigh
  refine ⟨fun hu => ?_, fun hu => ?_⟩
  -- In use: at the start of tracking, and from the instant the thresholds wait for
  · obtain ⟨hwithin, hframe⟩ : ThresholdsWithin s q c u ∧ TrackFrame q c s u := by
      rcases hu with rfl | ⟨htrack, huse, hdue, rfl⟩
      · exact ⟨startTracking_within hlow hhigh hrel, trackFrame_startTracking q c s⟩
      · exact ⟨adoptThresholds_within hlow hhigh hrel htrack huse hdue, trackFrame_adoptThresholds q c s t⟩
    obtain ⟨hlo0, hlo1, hhi0, hhi1⟩ := hwithin
    exact ⟨hlo0, hlo1, hhi0, hhi1, hframe.regs, hframe.mem⟩
  -- Decided
  · subst hu
    obtain ⟨hlo0, hlo1, hhi0, hhi1, huse⟩ := trackTick_decides hlow hhigh t lo hi
    exact ⟨hlo0, hlo1, hhi0, hhi1, huse, rfl, rfl⟩

end Sys2Proof.Machine
end

section
/-! The sequence tables and the filters of a converter: commits and their checks, activation, settings and settling
(R125 to R127, R133, R144). -/

namespace Sys2Proof.Machine

/-! ## Commits (R127) -/

/-- The checks of R127 are numbered from 1 to 7. -/
theorem seqCheck_le (s : State) (q : Nat) : seqCheck s q ≤ 7 := by
  unfold seqCheck
  dsimp only
  repeat' split
  all_goals decide

theorem fld_seqResult (q r : Nat) (s : State) (h : r ≤ 7) :
    fld (setFld (Reg.AD_SEQST q) Fld.AD_SEQST_RESULT r s) (Reg.AD_SEQST q) Fld.AD_SEQST_RESULT = r :=
  (fld_setFld_self _ _ _ _ (by decide) (by decide)).trans (Nat.mod_eq_of_lt (Nat.lt_of_le_of_lt h (by decide)))

theorem seqCommit_of_refused {q : Nat} {s : State} (h : seqCheck s q ≠ 0) :
    seqCommit q s = setFld (Reg.AD_SEQST q) Fld.AD_SEQST_RESULT (seqCheck s q) s :=
  if_pos (by simpa using h)

/-- A commit that passes its checks shows so, and the staged tables wait. -/
theorem seqCommit_of_passed {q : Nat} {s : State} (h : seqCheck s q = 0) : ∃ tabs, seqCommit q s =
    setFlag (Reg.AD_SEQST q) Fld.AD_SEQST_BUSY true (updSense q (fun x => { x with
      commitAt := ceilDiv (now s + 64) (tickNs s q) * tickNs s q + 1, committed := tabs,
      lenA := stagedLog s q 0, lenB := stagedLog s q 1 }) (setFld (Reg.AD_SEQST q) Fld.AD_SEQST_RESULT 0 s)) := by
  have htick : tickNs (setFld (Reg.AD_SEQST q) Fld.AD_SEQST_RESULT 0 s) q = tickNs s q :=
    congrArg (16 * 2 ^ ·) (fld_setFld_ne _ _ _ _ _ _ (by simp only [Reg.TB_QTICK, Reg.AD_SEQST, quireBlock]; omega))
  have hlog (c : Nat) : stagedLog (setFld (Reg.AD_SEQST q) Fld.AD_SEQST_RESULT 0 s) q c = stagedLog s q c :=
    congrArg (min 4 ·) (fld_setFld_ne _ _ _ _ _ _ (by simp only [Reg.AD_LEN, Reg.AD_SEQST]; omega))
  simp only [seqCommit, h, htick, hlog, bne_self_eq_false, Bool.false_eq_true, if_false]
  exact ⟨_, rfl⟩

theorem senseOf_updSense_self (q : Nat) (f : Sense → Sense) (s : State) :
    senseOf (updSense q f s) q = f (senseOf s q) := tget_tset_self _ _ _ _

theorem senseOf_setFlag (a : Nat) (f : Bits) (b : Bool) (s : State) (q : Nat) :
    senseOf (setFlag a f b s) q = senseOf s q := rfl

theorem seqCommit_passed_effect {q : Nat} {s : State} (h : seqCheck s q = 0) :
    let t := seqCommit q s
    fld t (Reg.AD_SEQST q) Fld.AD_SEQST_RESULT = 0 ∧ flag t (Reg.AD_SEQST q) Fld.AD_SEQST_BUSY = true ∧
      KeepsRegs [Reg.AD_SEQST q] s t ∧
      (senseOf t q).commitAt = ceilDiv (now s + 64) (tickNs s q) * tickNs s q + 1 ∧
      (senseOf t q).lenA = stagedLog s q 0 ∧ (senseOf t q).lenB = stagedLog s q 1 := by
  intro t
  obtain ⟨tabs, ht⟩ := seqCommit_of_passed h
  have hresult := fld_seqResult q 0 s (by decide)
  rw [show t = _ from ht]
  rw [senseOf_setFlag, senseOf_updSense_self]
  refine ⟨?_, flag_setFlag_self _ _ _ _ (by decide) (by decide), ?_, rfl, rfl, rfl⟩
  · exact (fld_setFld_other _ _ _ _ _ (by decide) (by decide) (by decide) (by decide)).trans hresult
  · exact keepsRegs_setFlag _ _ _ (keepsRegs_setFld (Reg.AD_SEQST q) _ _ (keepsRegs_refl _ s) (by simp)) (by simp)

/-- Once both tables are active no commit waits. -/
theorem busy_activateTables (q : Nat) (s : State) :
    flag (activateTables q s) (Reg.AD_SEQST q) Fld.AD_SEQST_BUSY = false := by
  have hne : Reg.AD_SEQST q ∉ [Reg.AD_STAT q 0, Reg.AD_STAT q 1] := by simp [Reg.AD_SEQST, Reg.AD_STAT]
  unfold activateTables
  rw [flag, fld_updSense]
  exact (flag_of_fld_eq (fld_of_keepsRegs _ (keepsRegs_showShort q _) hne)).trans
    (flag_setFlag_self _ _ _ _ (by decide) (by decide))

/-! ## Filter units (R133) -/

/-- A unit that restarts has no settled output. -/
theorem restartUnit_effect (q c f : Nat) (s : State) :
    flag (restartUnit q c f s) (Reg.AD_FOUT q c f) Fld.AD_FOUT_VALID = false ∧
      KeepsRegs [Reg.AD_FOUT q c f] s (restartUnit q c f s) := by
  unfold restartUnit
  exact ⟨flag_setFlag_self _ _ _ _ (by decide) (by decide), keepsRegs_setFlag _ _ _ (fun _ _ => rd_updConv _ _ _ _)
    (by simp)⟩

theorem fcfgWrite_of_bad {q c f v : Nat} {s : State} (h : badFcfg s q c f v = true) :
    fcfgWrite q c f v s = raiseFlag (Reg.AD_STAT q c) Fld.AD_STAT_WREF s := if_pos h

theorem fcfgWrite_of_good {q c f v : Nat} {s : State} (h : badFcfg s q c f v = false) :
    fcfgWrite q c f v s = restartUnit q c f (plainWrite (Reg.AD_FCFG q c f) v s) := if_neg (by simp [h])

theorem fcfgWrite_good_effect {q c v : Nat} {f : Fin 4} {s : State} (h : badFcfg s q c f v = false) :
    let cfg := Reg.AD_FCFG q c f
    let out := Reg.AD_FOUT q c f
    let t := fcfgWrite q c f v s
    rd t cfg = rd (plainWrite cfg v s) cfg ∧ flag t out Fld.AD_FOUT_VALID = false ∧ KeepsRegs [cfg, out] s t := by
  intro cfg out t
  obtain ⟨hvalid, hkeep⟩ := restartUnit_effect q c f (plainWrite cfg v s)
  have hne : cfg ≠ out := by simp only [cfg, out, Reg.AD_FCFG, Reg.AD_FOUT]; omega
  rw [show t = _ from fcfgWrite_of_good h]
  refine ⟨hkeep cfg (by simpa using hne), hvalid, fun a ha => ?_⟩
  obtain ⟨hcfg, hout⟩ : a ≠ cfg ∧ a ≠ out := by simpa using ha
  exact (hkeep a (by simpa using hout)).trans
    ((onlyRegs_plainWrite cfg v (onlyRegs_refl [cfg] s) (by simp)).1 a (by simpa using hcfg))

/-- The output that a unit shows leaves VALID. -/
theorem showOutput_effect (q c f k : Nat) (o : Int) (s : State) :
    flag (showOutput q c f k o s) (Reg.AD_FOUT q c f) Fld.AD_FOUT_VALID =
        flag s (Reg.AD_FOUT q c f) Fld.AD_FOUT_VALID ∧
      KeepsRegs [Reg.AD_FOUT q c f] s (showOutput q c f k o s) := by
  unfold showOutput
  exact ⟨flag_of_fld_eq (fld_setFld_other _ _ _ _ _ (by decide) (by decide) (by decide) (by decide)),
    keepsRegs_setFld _ _ _ (fun _ _ => rd_updConv _ _ _ _) (by simp)⟩

theorem settle_effect (q c f : Nat) (s : State) :
    flag (settle q c f s) (Reg.AD_FOUT q c f) Fld.AD_FOUT_VALID = true ∧
      KeepsRegs [Reg.AD_FOUT q c f] s (settle q c f s) := by
  have hvalid := flag_setFlag_self (Reg.AD_FOUT q c f) Fld.AD_FOUT_VALID true s (by decide) (by decide)
  have hkeep := keepsRegs_setFlag (Reg.AD_FOUT q c f) Fld.AD_FOUT_VALID true (keepsRegs_refl [Reg.AD_FOUT q c f] s)
    (by simp)
  unfold settle
  dsimp only
  generalize unitStream _ f = k
  cases k with
  | none => exact ⟨hvalid, hkeep⟩
  | some k =>
    obtain ⟨hshown, hout⟩ := showOutput_effect q c f k _ (setFlag (Reg.AD_FOUT q c f) Fld.AD_FOUT_VALID true s)
    exact ⟨hshown.trans hvalid, keepsRegs_trans hkeep hout⟩

/-- Settles O19, a command at a time. -/
theorem sequenceCommandsRun : Obligations.SequenceCommandsRun := by
  unfold Obligations.SequenceCommandsRun
  intro s m q c f v code st cfg out
  refine ⟨fun hw hrefused => ?_, fun hw hpassed => ?_, fun ha hwaits hdue => ?_, fun hw hbad => ?_, fun hw hgood => ?_,
    fun ha hdue => ?_, fun ha hdue => ?_, fun hw => ?_⟩
  -- SEQ_COMMIT refused, and passed
  · refine runs_of_eq (regWriteBy_eq hw) ?_
    rw [seqCommit_of_refused hrefused]
    exact ⟨fld_seqResult q _ s (seqCheck_le s q), onlyRegs_setFld _ _ _ (onlyRegs_refl _ s) (by simp [st])⟩
  · exact runs_of_eq (regWriteBy_eq hw) (seqCommit_passed_effect hpassed)
  -- SEQ_TABLE_ACTIVATE
  · exact runs_of_eq (live_eq ha (by simp [hwaits, hdue])) ⟨rfl, busy_activateTables q s⟩
  -- FCFG_WRITE out of range, and in range
  · refine runs_of_eq (regWriteBy_eq hw) ?_
    rw [fcfgWrite_of_bad hbad]
    exact ⟨flag_raiseFlag_self _ 23 s (by decide), onlyRegs_raiseFlag _ _ (onlyRegs_refl _ s) (by simp)⟩
  · exact runs_of_eq (regWriteBy_eq hw) (fcfgWrite_good_effect hgood)
  -- FILTER_SETTLE, AGGREGATE_SAMPLE, HOLDS_CLEAR
  · exact runs_of_eq (live_eq ha hdue) (settle_effect q c f s)
  · exact runs_of_eq (live_eq ha hdue) rfl
  · exact runs_of_eq (regWriteBy_eq hw) (wr_zero_effect _ s)

end Sys2Proof.Machine
end

section
/-! The slices of a converter: the estimates that a block ends with and that AD_SCOR takes, and the slices that retire
(R129 to R132). -/

namespace Sys2Proof.Machine

@[simp] theorem convOf_updConv_self (k : Nat) (f : Conv → Conv) (s : State) :
    convOf (updConv k f s) k = f (convOf s k) := tget_tset_self _ _ _ _

/-! ## Estimates that apply (R129, R130) -/

theorem estWord_lt (e : SliceEst) : estWord e < 2 ^ 32 := by
  have hofs := pat_lt 12 (satS 12 e.ofs)
  have hgain := pat_lt 12 (satS 12 e.gain)
  have hskew := pat_lt 8 (satS 8 e.skew)
  unfold estWord
  omega

/-- Slice y.1 of converter c with its waiting estimate y.2, at the instant that the estimates apply (R129, R130). -/
def applyEstimate (q c : Nat) (y : Nat × SliceEst) (s : State) : State :=
  if bitAt (fld s (Reg.AD_STAT q c) Fld.AD_STAT_RETIRED) y.1 then s
  else if outOfLimits s q y.2 then retireSlice q c y.1 s
  else wr (Reg.AD_SCOR q c y.1) (estWord y.2) s

theorem applyEstimates_eq (q c : Nat) (s : State) : applyEstimates q c s =
    forAll ((List.range 4).zip (convOf s (2 * q + c)).est) (applyEstimate q c)
      (updConv (2 * q + c) (fun x => { x with estAt := 0, est := [] }) s) := rfl

/-- AD_SCOR takes the estimate of a slice. -/
def takeEstimate (q c : Nat) (y : Nat × SliceEst) (s : State) : State := wr (Reg.AD_SCOR q c y.1) (estWord y.2) s

theorem mem_takeEstimate (q c : Nat) (y : Nat × SliceEst) (s : State) : (takeEstimate q c y s).mem = s.mem := by
  simp [takeEstimate]

section
variable {q c : Nat}

theorem outOfLimits_of_rd_eq {s t : State} (h : rd t (Reg.AD_SLIM q) = rd s (Reg.AD_SLIM q)) (e : SliceEst) :
    outOfLimits t q e = outOfLimits s q e := by
  have hfld (f : Bits) : fld t (Reg.AD_SLIM q) f = fld s (Reg.AD_SLIM q) f := congrArg (getBits · f) h
  unfold outOfLimits
  dsimp only
  rw [hfld, hfld, hfld]

theorem applyEstimate_of_within {s : State} {y : Nat × SliceEst}
    (hretired : fld s (Reg.AD_STAT q c) Fld.AD_STAT_RETIRED = 0) (hin : outOfLimits s q y.2 = false) :
    applyEstimate q c y s = takeEstimate q c y s := by simp [applyEstimate, takeEstimate, hretired, hin, bitAt]

theorem forAll_cons {α : Type} (x : α) (xs : List α) (f : α → State → State) (s : State) :
    forAll (x :: xs) f s = forAll xs f (f x s) := rfl

/-- Estimates within the limits of slices that are not retired are all taken: AD_SCOR bears on neither condition. -/
theorem forAll_applyEstimate (ys : List (Nat × SliceEst)) {s : State}
    (hretired : fld s (Reg.AD_STAT q c) Fld.AD_STAT_RETIRED = 0) (hin : ∀ y ∈ ys, outOfLimits s q y.2 = false) :
    forAll ys (applyEstimate q c) s = forAll ys (takeEstimate q c) s := by
  induction ys generalizing s with
  | nil => simp only [forAll, List.foldl_nil]
  | cons y ys ih =>
    have hstat : Reg.AD_STAT q c ≠ Reg.AD_SCOR q c y.1 := by simp only [Reg.AD_STAT, Reg.AD_SCOR]; omega
    have hslim : Reg.AD_SLIM q ≠ Reg.AD_SCOR q c y.1 := by simp only [Reg.AD_SLIM, Reg.AD_SCOR]; omega
    rw [forAll_cons, forAll_cons, applyEstimate_of_within hretired (hin y (by simp))]
    refine ih ?_ fun z hz => ?_
    · rw [takeEstimate, fld_wr_ne _ _ _ _ _ hstat, hretired]
    · rw [takeEstimate, outOfLimits_of_rd_eq (rd_wr_ne _ _ _ _ hslim), hin z (by simp [hz])]

/-- The four estimates stand in the four AD_SCOR words. -/
theorem forAll_takeEstimate_effect (e0 e1 e2 e3 : SliceEst) (s : State) :
    let t := forAll [(0, e0), (1, e1), (2, e2), (3, e3)] (takeEstimate q c) s
    [0, 1, 2, 3].map (fun i => rd t (Reg.AD_SCOR q c i)) = [e0, e1, e2, e3].map estWord ∧
      KeepsRegs [Reg.AD_SCOR q c 0, Reg.AD_SCOR q c 1, Reg.AD_SCOR q c 2, Reg.AD_SCOR q c 3] s t ∧ t.mem = s.mem := by
  intro t
  have hinj (i j : Nat) : Reg.AD_SCOR q c i = Reg.AD_SCOR q c j ↔ i = j := by simp only [Reg.AD_SCOR]; omega
  have hword (e : SliceEst) : estWord e % 4294967296 = estWord e := Nat.mod_eq_of_lt (estWord_lt e)
  refine ⟨?_, keepsRegs_forAll _ (fun y hy s => ?_) s, forAll_keeps State.mem _ (fun y s => mem_takeEstimate q c y s) s⟩
  · simp [t, forAll, takeEstimate, rd_wr, hinj, hword]
  · refine keepsRegs_wr _ _ (keepsRegs_refl _ s) ?_
    simp only [List.mem_cons, List.not_mem_nil, or_false] at hy
    rcases hy with rfl | rfl | rfl | rfl <;> simp

theorem applyEstimates_effect {s : State} {e0 e1 e2 e3 : SliceEst}
    (hest : (convOf s (2 * q + c)).est = [e0, e1, e2, e3])
    (hin : [e0, e1, e2, e3].any (outOfLimits s q) = false)
    (hretired : fld s (Reg.AD_STAT q c) Fld.AD_STAT_RETIRED = 0) :
    let t := applyEstimates q c s
    [0, 1, 2, 3].map (fun i => rd t (Reg.AD_SCOR q c i)) = [e0, e1, e2, e3].map estWord ∧
      KeepsRegs [Reg.AD_SCOR q c 0, Reg.AD_SCOR q c 1, Reg.AD_SCOR q c 2, Reg.AD_SCOR q c 3] s t ∧ t.mem = s.mem := by
  intro t
  have ht : t = forAll [(0, e0), (1, e1), (2, e2), (3, e3)] (takeEstimate q c)
      (updConv (2 * q + c) (fun x => { x with estAt := 0, est := [] }) s) := by
    rw [show t = _ from applyEstimates_eq q c s, hest]
    refine forAll_applyEstimate [(0, e0), (1, e1), (2, e2), (3, e3)] hretired fun y hy => ?_
    exact Bool.eq_false_iff.mpr (List.any_eq_false.mp hin y.2 (List.mem_map_of_mem (f := Prod.snd) hy))
  rw [ht]
  exact forAll_takeEstimate_effect e0 e1 e2 e3 _

end

/-- Settles O20, a command at a time. -/
theorem sliceCommandsRun : Obligations.SliceCommandsRun := by
  unfold Obligations.SliceCommandsRun
  intro s m q c e0 e1 e2 e3 v est cv
  refine ⟨fun ha hfrozen hover => ?_, fun ha hfrozen hwaits hdue hest hin hretired => ?_, fun hw => ?_,
    fun ha hasked htick => ?_, fun ha hdue => ?_⟩
  -- SLICE_ESTIMATE_COMPLETE
  · refine runs_of_eq (live_eq ha (by simp [hfrozen, hover])) ?_
    simp only [takeEstimates, cv, convOf_updConv_self]
    exact ⟨rfl, rfl, rfl, rfl, rfl⟩
  -- SLICE_ESTIMATE_APPLY
  · exact runs_of_eq (live_eq ha (by simp [hfrozen, hwaits, hdue, cv])) (applyEstimates_effect hest hin hretired)
  -- AD_SRET_WRITE
  · refine runs_of_eq (regWriteBy_eq hw) ?_
    simp only [sretWrite, cv, convOf_updConv_self]
    exact ⟨trivial, rfl, rfl⟩
  -- SLICE_RETIRE, CROSS_CHECK
  · exact runs_of_eq (live_eq ha (by simp [hasked, htick, cv])) rfl
  · exact runs_of_eq (live_eq ha hdue) rfl

end Sys2Proof.Machine
end

section
/-! The commands of the window comparators and of the current windows: settings, crossings, falls, clears, bounds and
counters (R136 to R141, R145). -/

namespace Sys2Proof.Machine

/-! ## The bursts that a comparator fires (R76) -/

/-- An event on a line changes BD_IPEND of the engines of its quire alone (R235). -/
theorem keepsRegs_setLine (q m : Nat) (s : State) :
    KeepsRegs ((List.range 8).map (Reg.BD_IPEND q)) s (setLine q m s) := by
  refine keepsRegs_forAll _ (fun i hi s => ?_) s
  split
  · exact keepsRegs_refl _ s
  · exact (onlyRegs_raiseWord _ _ (onlyRegs_refl _ s) (List.mem_map_of_mem hi)).1

theorem mem_setLine (q m : Nat) (s : State) : (setLine q m s).mem = s.mem :=
  mem_eq_of_besideFaults (besideFaults_setLine q m s)

/-- A burst that fires, or is suppressed, leaves memory and the settings of the comparators. -/
theorem burstFire_keeps (r : Nat) (s : State) (q : Nat) (c : Fin 8) :
    rd (burstFire r s) (Reg.WC_CFG q c) = rd s (Reg.WC_CFG q c) ∧ (burstFire r s).mem = s.mem := by
  have hstat : Reg.WC_CFG q c ≠ Reg.LU_BURST_STAT (homeOf r) (slotOf r) := by
    have hl : slotOf r < 2 := Nat.mod_lt r (by decide)
    simp only [Reg.WC_CFG, Reg.LU_BURST_STAT, quireBlock]
    omega
  have hline : Reg.WC_CFG q c ∉ (List.range 8).map (Reg.BD_IPEND (homeOf r)) := by
    simp only [List.mem_map, List.mem_range, not_exists, not_and, Reg.WC_CFG, Reg.BD_IPEND, quireBlock]
    omega
  unfold burstFire
  dsimp only
  split
  · exact ⟨rfl, rfl⟩
  split
  · exact ⟨rd_setFld_ne _ _ _ _ _ hstat, by simp [incFld, addFld, setFld]⟩
  split
  · exact ⟨rfl, rfl⟩
  · exact ⟨(keepsRegs_setLine _ _ _ _ hline).trans (rd_updRail _ _ _ _), (mem_setLine _ _ _).trans rfl⟩

theorem burstFrom_keeps (q : Nat) (c : Fin 8) (s : State) :
    rd (burstFrom q c s) (Reg.WC_CFG q c) = rd s (Reg.WC_CFG q c) ∧ (burstFrom q c s).mem = s.mem := by
  have hkeeps := forAll_keeps (fun s => (rd s (Reg.WC_CFG q c), s.mem)) [0, 1] (f := fun l s =>
    if fld s (Reg.LU_BURST q l) Fld.LU_BURST_WC = c then burstFire (2 * q + l) s else s) (fun l s => ?_) s
  · exact Prod.mk.inj hkeeps
  · split
    · obtain ⟨hcfg, hmem⟩ := burstFire_keeps (2 * q + l) s q c
      rw [hcfg, hmem]
    · rfl

/-! ## WC_CFG_WRITE (R136 to R138) -/

theorem trackFrame_useThresholds (q c : Nat) (was : Bool) (s : State) : TrackFrame q c s (useThresholds q c was s) :=
  .ite (.ite (.refl q c s) (trackFrame_startTracking q c s)) (trackFrame_plainThresholds q c s)

/-- A comparator that is switched off holds no latch, no raw state and no threshold at its bound. -/
def wcOff (q c : Nat) (s : State) : State :=
  s |> setFlag (Reg.WC_STAT q c) Fld.WC_STAT_LOLAT false |> setFlag (Reg.WC_STAT q c) Fld.WC_STAT_HILAT false
    |> setFlag (Reg.WC_STAT q c) Fld.WC_STAT_LORAW false |> setFlag (Reg.WC_STAT q c) Fld.WC_STAT_HIRAW false
    |> setFlag (Reg.WC_STAT q c) Fld.WC_STAT_HELD false

theorem flag_setFlag_other (a k i : Nat) (b : Bool) (s : State) (h : k < 32) (hne : i ≠ k) :
    flag (setFlag a ⟨k, k⟩ b s) a ⟨i, i⟩ = flag s a ⟨i, i⟩ :=
  flag_of_fld_eq (fld_setFld_other _ _ _ _ _ (Nat.le_refl k) h (Nat.le_refl i) (Nat.lt_or_gt_of_ne hne))

theorem wcOff_effect (q c : Nat) (s : State) :
    flag (wcOff q c s) (Reg.WC_STAT q c) Fld.WC_STAT_LOLAT = false ∧ OnlyRegs [Reg.WC_STAT q c] s (wcOff q c s) := by
  have hset : ∀ (f : Bits) {u : State}, OnlyRegs [Reg.WC_STAT q c] s u →
      OnlyRegs [Reg.WC_STAT q c] s (setFlag (Reg.WC_STAT q c) f false u) :=
    fun f _ h => onlyRegs_setFlag _ _ _ h (by simp)
  refine ⟨?_, hset _ (hset _ (hset _ (hset _ (hset _ (onlyRegs_refl _ s)))))⟩
  exact (flag_setFlag_other _ 24 31 _ _ (by decide) (by decide)).trans
    ((flag_setFlag_other _ 28 31 _ _ (by decide) (by decide)).trans
    ((flag_setFlag_other _ 29 31 _ _ (by decide) (by decide)).trans
    ((flag_setFlag_other _ 30 31 _ _ (by decide) (by decide)).trans
    (flag_setFlag_self _ _ _ _ (by decide) (by decide)))))

theorem wcCfgWrite_of_bad {q c v : Nat} {s : State} (h : badWcCfg v = true) :
    wcCfgWrite q c v s = raiseFlag (Reg.WC_STAT q c) Fld.WC_STAT_WREF (takeTicks q c (now s) s) := if_pos h

/-- A setting that is stored: w has its word, x what it changes in the comparator beside, and u the thresholds that are
in use from now on. -/
theorem wcCfgWrite_of_good {q c v : Nat} {s : State} (h : badWcCfg v = false) :
    let a := takeTicks q c (now s) s
    ∃ x u, TrackFrame q c (plainWrite (Reg.WC_CFG q c) v (countHeld q c (now a) a)) x ∧
      TrackFrame q c (if getBits v Fld.WC_CFG_EN = 1 then x else wcOff q c x) u ∧
      wcCfgWrite q c v s = if !lowerTrip a q c && lowerTrip u q c then burstFrom q c u else u := by
  intro a
  by_cases hon : getBits v Fld.WC_CFG_EN = 1
  · simp only [wcCfgWrite, h, hon, Bool.false_eq_true, if_false, if_true, beq_self_eq_true]
    refine ⟨_, _, ?_, trackFrame_useThresholds q c _ _, rfl⟩
    exact (trackFrame_updComp _ _ _ _ _).trans (.ite (trackFrame_updComp _ _ _ _ _) (.refl _ _ _))
  · have hon' : (getBits v Fld.WC_CFG_EN == 1) = false := by simpa using hon
    simp only [wcCfgWrite, h, hon', if_neg hon, Bool.false_eq_true, if_false]
    exact ⟨_, _, trackFrame_updComp _ _ _ _ _, trackFrame_useThresholds q c _ _, rfl⟩

/-- The row of WC_CFG: every field is RW (R145). -/
theorem regRow_wcCfg (q : Fin 16) (c : Fin 8) : regRow (Reg.WC_CFG q c) =
    some ⟨0x100, [(8, 0x40)], 0x3001, 0x873F303F, 0, 0⟩ := by
  revert q c
  decide +kernel

/-- What WC_CFG reads after a plain write hangs on what it, its marks and the lock held. -/
theorem rd_plainWrite_countHeld (q c v t : Nat) (s : State) :
    rd (plainWrite (Reg.WC_CFG q c) v (countHeld q c t s)) (Reg.WC_CFG q c) =
      rd (plainWrite (Reg.WC_CFG q c) v s) (Reg.WC_CFG q c) := by
  have hkeep := (trackFrame_countHeld q c s t).regs
  have hcfg : rd (countHeld q c t s) (Reg.WC_CFG q c) = rd s (Reg.WC_CFG q c) :=
    hkeep _ (by simp [Reg.WC_CFG, Reg.WC_CUR, Reg.WC_TOPP, Reg.WC_STAT])
  have hlock : flag (countHeld q c t s) Reg.SC_LOCK Fld.SC_LOCK_LOCK = flag s Reg.SC_LOCK Fld.SC_LOCK_LOCK :=
    flag_of_fld_eq (fld_of_keepsRegs _ hkeep (by
      simp only [Reg.SC_LOCK, Reg.WC_CUR, Reg.WC_TOPP, Reg.WC_STAT, quireBlock, List.mem_cons, List.not_mem_nil,
        or_false]
      omega))
  have hraised : raisedIn (countHeld q c t s) (Reg.WC_CFG q c) = raisedIn s (Reg.WC_CFG q c) := rfl
  unfold plainWrite
  cases regRow (Reg.WC_CFG q c) with
  | none => exact hcfg
  | some row => simp only [rd_wr_self, hcfg, hlock, hraised]

theorem keepsRegs_mono {as bs : List Nat} {s t : State} (hsub : as ⊆ bs) (h : KeepsRegs as s t) : KeepsRegs bs s t :=
  fun a ha => h a fun h => ha (hsub h)

/-- The registers that a write to WC_CFG of comparator c of quire q may change. -/
def wcCfgRegs (q c : Nat) : List Nat := [Reg.WC_CFG q c, Reg.WC_STAT q c, Reg.WC_CUR q c, Reg.WC_TOPP q c]

theorem TrackFrame.keepsRegs {q c : Nat} {s t : State} (h : TrackFrame q c s t) : KeepsRegs (wcCfgRegs q c) s t :=
  keepsRegs_mono (by simp [wcCfgRegs]) h.regs

theorem TrackFrame.rd_cfg {q c : Nat} {s t : State} (h : TrackFrame q c s t) :
    rd t (Reg.WC_CFG q c) = rd s (Reg.WC_CFG q c) :=
  h.regs _ (by simp [Reg.WC_CFG, Reg.WC_CUR, Reg.WC_TOPP, Reg.WC_STAT])

/-- A comparator that is switched off by EN = 0 keeps its setting, and loses its latches. -/
theorem switched_effect (q c : Nat) (on : Prop) [Decidable on] (x : State) :
    let y := if on then x else wcOff q c x
    flag y (Reg.WC_STAT q c) Fld.WC_STAT_LOLAT = (decide on && flag x (Reg.WC_STAT q c) Fld.WC_STAT_LOLAT) ∧
      OnlyRegs [Reg.WC_STAT q c] x y := by
  intro y
  by_cases hon : on
  · simp only [y, if_pos hon, decide_eq_true hon, Bool.true_and, true_and]
    exact onlyRegs_refl _ x
  · simp only [y, if_neg hon, decide_eq_false hon, Bool.false_and]
    exact wcOff_effect q c x

/-- The device once a setting is stored and its thresholds are in use, before a burst of it: the word is as written,
LOLAT outlasts the write only with EN, and beside WC_CFG no register changes but WC_STAT, WC_CUR and WC_TOPP. -/
theorem wcCfgStored_effect {q c v : Nat} {a x u : State}
    (hx : TrackFrame q c (plainWrite (Reg.WC_CFG q c) v (countHeld q c (now a) a)) x)
    (hu : TrackFrame q c (if getBits v Fld.WC_CFG_EN = 1 then x else wcOff q c x) u) :
    rd u (Reg.WC_CFG q c) = rd (plainWrite (Reg.WC_CFG q c) v a) (Reg.WC_CFG q c) ∧
      flag u (Reg.WC_STAT q c) Fld.WC_STAT_LOLAT =
        (decide (getBits v Fld.WC_CFG_EN = 1) && flag a (Reg.WC_STAT q c) Fld.WC_STAT_LOLAT) ∧
      KeepsRegs (wcCfgRegs q c) a u ∧ u.mem = a.mem := by
  have hcfgstat : Reg.WC_CFG q c ≠ Reg.WC_STAT q c := by simp [Reg.WC_CFG, Reg.WC_STAT]
  have hcount := trackFrame_countHeld q c a (now a)
  obtain ⟨hwrite, -, hwriterest⟩ := onlyRegs_plainWrite (Reg.WC_CFG q c) v
    (onlyRegs_refl [Reg.WC_CFG q c] (countHeld q c (now a) a)) (by simp)
  have hwritemem := (congrArg State.mem hwriterest :)
  obtain ⟨hlatch, hswitch, -, hswitchrest⟩ := switched_effect q c (getBits v Fld.WC_CFG_EN = 1) x
  have hswitchmem := (congrArg State.mem hswitchrest :)
  refine ⟨?_, ?_, ?_, ?_⟩
  · rw [hu.rd_cfg, hswitch _ (by simpa using hcfgstat), hx.rd_cfg, rd_plainWrite_countHeld]
  · have hflagx : flag x (Reg.WC_STAT q c) Fld.WC_STAT_LOLAT = flag a (Reg.WC_STAT q c) Fld.WC_STAT_LOLAT :=
      (hx.flags 31 (by decide) (by decide)).trans
        ((flag_of_fld_eq (fld_of_keepsRegs _ hwrite (by simpa using hcfgstat.symm))).trans
          (hcount.flags 31 (by decide) (by decide)))
    rw [← hflagx, ← hlatch]
    exact hu.flags 31 (by decide) (by decide)
  · exact keepsRegs_trans hcount.keepsRegs (keepsRegs_trans (keepsRegs_mono (by simp [wcCfgRegs]) hwrite)
      (keepsRegs_trans hx.keepsRegs (keepsRegs_trans (keepsRegs_mono (by simp [wcCfgRegs]) hswitch) hu.keepsRegs)))
  · rw [hu.mem, hswitchmem, hx.mem, hwritemem, hcount.mem]

theorem lowerTrip_of_latch_false {s : State} {q c : Nat} (h : flag s (Reg.WC_STAT q c) Fld.WC_STAT_LOLAT = false) :
    lowerTrip s q c = false := by simp [lowerTrip, h]

/-- A setting that is stored; the bursts that name the comparator fire where its lower trip output rises by it. -/
theorem wcCfgWrite_good_effect {q : Fin 16} {c : Fin 8} {v : Nat} {s : State} (h : badWcCfg v = false) :
    let a := takeTicks q c (now s) s
    let t := wcCfgWrite q c v s
    rd t (Reg.WC_CFG q c) = rd (plainWrite (Reg.WC_CFG q c) v a) (Reg.WC_CFG q c) ∧ t.mem = s.mem ∧
      (flag a (Reg.WC_STAT q c) Fld.WC_STAT_LOLAT = false ∨ lowerTrip a q c = true → KeepsRegs (wcCfgRegs q c) s t) ∧
      (flag a (Reg.WC_STAT q c) Fld.WC_STAT_LOLAT = true → lowerTrip a q c = false →
        getBits v Fld.WC_CFG_EN = 1 → getBits v Fld.WC_CFG_LOEN = 1 →
        ∃ u, t = burstFrom q c u ∧ lowerTrip u q c = true ∧ KeepsRegs (wcCfgRegs q c) s u) := by
  intro a t
  have hticks : TrackFrame q c s a := trackFrame_takeTicks q c s (now s)
  obtain ⟨x, u, hx, hu, ht⟩ := wcCfgWrite_of_good (q := q) (c := c) (s := s) h
  obtain ⟨hcfg, hlatch, hregs, hmem⟩ := wcCfgStored_effect hx hu
  have hkeep : KeepsRegs (wcCfgRegs q c) s u := keepsRegs_trans hticks.keepsRegs hregs
  have hburst := burstFrom_keeps q c u
  rw [show t = _ from ht]
  refine ⟨?_, ?_, fun hquiet => ?_, fun hlat htrip hen hloen => ⟨u, ?_⟩⟩
  · split
    · exact hburst.1.trans hcfg
    · exact hcfg
  · split
    · exact hburst.2.trans (hmem.trans hticks.mem)
    · exact hmem.trans hticks.mem
  · rwa [if_neg]
    rcases hquiet with hlat | htrip
    · simp [lowerTrip_of_latch_false (hlatch.trans (by rw [hlat, Bool.and_false]))]
    · simp [a, htrip]
  · have hloenu : flag u (Reg.WC_CFG q c) Fld.WC_CFG_LOEN = true := by
      have hbits : fld u (Reg.WC_CFG q c) Fld.WC_CFG_LOEN = 1 :=
        (congrArg (getBits · Fld.WC_CFG_LOEN) hcfg).trans ((fld_plainWrite_rw (regRow_wcCfg q c) (by decide)
          (by decide) (by decide) (by decide)).trans hloen)
      simp [flag, hbits]
    have htripu : lowerTrip u q c = true := by
      simp only [lowerTrip, hlatch, hloenu, hen, decide_true, Bool.true_and, Bool.and_true]
      exact hlat
    exact ⟨if_pos (by simp [a, htrip, htripu]), htripu, hkeep⟩

/-! ## Crossings and falls (R138, R139) -/

/-- A flag that clears on a condition leaves the other flags of its register, and the rest of the device. -/
theorem clearFlagIf_effect (b : Bool) (a k : Nat) (s : State) (hk : k < 32) :
    let u := if b then setFlag a ⟨k, k⟩ false s else s
    (b = true → flag u a ⟨k, k⟩ = false) ∧ (∀ i, i ≠ k → flag u a ⟨i, i⟩ = flag s a ⟨i, i⟩) ∧ OnlyRegs [a] s u := by
  cases b with
  | false => exact ⟨nofun, fun _ _ => rfl, onlyRegs_refl _ s⟩
  | true => exact ⟨fun _ => flag_setFlag_self _ _ _ _ (Nat.le_refl k) hk,
      fun i hi => flag_setFlag_other a k i false s hk hi, onlyRegs_setFlag _ _ _ (onlyRegs_refl _ s) (by simp)⟩

/-- The sides of a comparator fall where the decision says so, and their latches stay. -/
theorem wcFall_effect (q c : Nat) (x : Int) (s : State) :
    let st := Reg.WC_STAT q c
    let t := wcFall q c x s
    (sideFalls s q c false x = true → flag t st Fld.WC_STAT_LORAW = false) ∧
      (sideFalls s q c true x = true → flag t st Fld.WC_STAT_HIRAW = false) ∧
      flag t st Fld.WC_STAT_LOLAT = flag s st Fld.WC_STAT_LOLAT ∧
      flag t st Fld.WC_STAT_HILAT = flag s st Fld.WC_STAT_HILAT ∧ OnlyRegs [st] s t := by
  intro st t
  obtain ⟨hlo, hloflags, hloregs⟩ := clearFlagIf_effect (sideFalls s q c false x) st 29 s (by decide)
  obtain ⟨hhi, hhiflags, hhiregs⟩ := clearFlagIf_effect (sideFalls s q c true x) st 28
    (if sideFalls s q c false x then setFlag st ⟨29, 29⟩ false s else s) (by decide)
  exact ⟨fun h => (hhiflags 29 (by decide)).trans (hlo h), hhi,
    (hhiflags 31 (by decide)).trans (hloflags 31 (by decide)),
    (hhiflags 30 (by decide)).trans (hloflags 30 (by decide)), onlyRegs_trans hloregs hhiregs⟩

/-! ## Clears (R139, R143) -/

/-- The raw state of a comparator's side. -/
def rawField (upper : Bool) : Bits := if upper then Fld.WC_STAT_HIRAW else Fld.WC_STAT_LORAW

/-- A clear of a side whose raw state stands is refused. -/
theorem wcClear_refused_effect {q c : Nat} {upper : Bool} {s : State}
    (h : flag s (Reg.WC_STAT q c) (rawField upper) = true) :
    let st := Reg.WC_STAT q c
    let t := wcClear q c upper s
    flag t st Fld.WC_STAT_CLRREF = true ∧ flag t st (latchField upper) = flag s st (latchField upper) ∧
      OnlyRegs [st] s t := by
  intro st t
  rw [show t = raiseFlag st Fld.WC_STAT_CLRREF s from if_pos h]
  refine ⟨flag_raiseFlag_self _ 27 s (by decide), flag_of_fld_eq ?_, onlyRegs_raiseFlag _ _ (onlyRegs_refl _ s)
    (by simp)⟩
  cases upper <;> exact fld_raiseFlag_other _ 27 s _ (by decide) (by decide) (by decide)

theorem wcClear_taken_effect {q c : Nat} {upper : Bool} {s : State}
    (h : flag s (Reg.WC_STAT q c) (rawField upper) = false) :
    let st := Reg.WC_STAT q c
    let t := wcClear q c upper s
    flag t st (latchField upper) = false ∧ KeepsRegs [st] s t ∧ t.mem = s.mem := by
  intro st t
  obtain ⟨f, ht⟩ : ∃ f, t = setFlag st (latchField upper) false (updComp (8 * q + c) f s) :=
    ⟨_, if_neg (Bool.eq_false_iff.mp h)⟩
  rw [ht]
  refine ⟨?_, keepsRegs_setFlag _ _ _ (fun _ _ => rd_updComp _ _ _ _) (by simp), by simp [setFlag, setFld]⟩
  cases upper <;> exact flag_setFlag_self _ _ _ _ (by decide) (by decide)

/-- The two clears are one operation, each of its own side. -/
theorem exec_wcClear {s : State} {m : Master} {q : Fin 16} {c : Fin 8} {cmd : Instr} {raw lat : Bits}
    (hc : (cmd, raw, lat) ∈ [(Instr.wcClearLo m q c, Fld.WC_STAT_LORAW, Fld.WC_STAT_LOLAT),
      (.wcClearHi m q c, Fld.WC_STAT_HIRAW, Fld.WC_STAT_HILAT)]) (hw : CanWrite s m (Reg.WC_CLR q c)) :
    ∃ upper, exec cmd s = .next (wcClear q c upper s) ∧ raw = rawField upper ∧ lat = latchField upper := by
  simp only [List.mem_cons, List.not_mem_nil, or_false, Prod.mk.injEq] at hc
  obtain ⟨rfl, rfl, rfl⟩ | ⟨rfl, rfl, rfl⟩ := hc
  · exact ⟨false, regWriteBy_eq hw, rfl, rfl⟩
  · exact ⟨true, regWriteBy_eq hw, rfl, rfl⟩

/-! ## Bounds and counters (R140, R145) -/

theorem boundWrite_of_crossed {q c : Nat} {upper : Bool} {v : Nat} {s : State}
    (h : sx 10 (getBits v Fld.WC_TBND_MAX) < sx 10 (getBits v Fld.WC_TBND_MIN)) :
    boundWrite q c upper v s = raiseFlag (Reg.WC_STAT q c) Fld.WC_STAT_BADBND s := if_pos h

theorem boundWrite_of_order {q c : Nat} {upper : Bool} {v : Nat} {s : State}
    (h : sx 10 (getBits v Fld.WC_TBND_MIN) ≤ sx 10 (getBits v Fld.WC_TBND_MAX)) :
    boundWrite q c upper v s = plainWrite (boundReg q c upper) v s := if_neg (Int.not_lt.mpr h)

theorem toppClear_effect (q c : Nat) (s : State) :
    rd (toppClear q c s) (Reg.WC_TOPP q c) = 0 ∧ KeepsRegs [Reg.WC_TOPP q c] s (toppClear q c s) ∧
      (toppClear q c s).mem = s.mem := by
  have hcount : KeepsRegs [Reg.WC_TOPP q c] s (countHeld q c (now s) s) := fun a ha =>
    rd_setFld_ne _ _ _ _ a (by simpa using ha)
  exact ⟨rd_wr_self _ 0 _, keepsRegs_wr _ 0 hcount (by simp), (trackFrame_countHeld q c s (now s)).mem⟩

/-- The peak of a current window clears beside ASSERT. -/
theorem ocpstatClear_effect (a : Nat) (s : State) :
    let t := setFld a Fld.WC_OCPSTAT_PEAK 0 s
    fld t a Fld.WC_OCPSTAT_PEAK = 0 ∧ flag t a Fld.WC_OCPSTAT_ASSERT = flag s a Fld.WC_OCPSTAT_ASSERT ∧
      OnlyRegs [a] s t :=
  ⟨fld_setFld_self _ _ _ _ (by decide) (by decide),
    flag_of_fld_eq (fld_setFld_other _ _ _ _ _ (by decide) (by decide) (by decide) (by decide)),
    onlyRegs_setFld _ _ _ (onlyRegs_refl _ s) (by simp)⟩

/-- Settles O21, a command at a time. -/
theorem comparatorCommandsRun : Obligations.ComparatorCommandsRun := by
  unfold Obligations.ComparatorCommandsRun
  intro s m q c n up v st x a
  refine ⟨fun hw hbad => ?_, fun hw hgood => ?_, fun ha htick hrises => ?_, fun ha htick hfalls => ?_,
    fun cmd raw lat hc hw => ?_, fun ha hdue => ?_, fun ha hdue => ?_, fun hw hcross => ?_, fun hw hord => ?_,
    fun hw => ?_, fun cmd r hc hw => ?_, fun hw => ?_⟩
  -- WC_CFG_WRITE refused, and stored
  · refine runs_of_eq (regWriteBy_eq hw) ?_
    rw [wcCfgWrite_of_bad hbad]
    exact ⟨flag_raiseFlag_self _ 22 a (by decide), onlyRegs_raiseFlag _ _ (onlyRegs_refl _ a) (by simp [st])⟩
  · exact runs_of_eq (regWriteBy_eq hw) (wcCfgWrite_good_effect hgood)
  -- WC_THRESHOLD_CROSS
  · exact runs_of_eq (live_eq ha (by rw [htick]; exact hrises)) rfl
  -- RAW_STATE_FALL
  · refine runs_of_eq (live_eq ha (by rw [htick]; exact hfalls)) ?_
    obtain ⟨hlo, hhi, hlolat, hhilat, hregs⟩ := wcFall_effect q c x a
    have hticks : TrackFrame q c s a := trackFrame_takeTicks q c s (now s)
    exact ⟨hlo, hhi, hlolat.trans (hticks.flags 31 (by decide) (by decide)),
      hhilat.trans (hticks.flags 30 (by decide) (by decide)), hregs⟩
  -- WC_CLEAR_LO, WC_CLEAR_HI
  · obtain ⟨upper, hexec, rfl, rfl⟩ := exec_wcClear hc hw
    exact ⟨fun hraw => runs_of_eq hexec (wcClear_refused_effect hraw),
      fun hraw => runs_of_eq hexec (wcClear_taken_effect hraw)⟩
  -- WC_STUCK, WC_IMPL
  · exact runs_of_eq (live_eq ha hdue) rfl
  · exact runs_of_eq (live_eq ha hdue) rfl
  -- WC_BOUND_WRITE with bounds that cross, and in order
  · refine runs_of_eq (regWriteBy_eq hw) ?_
    rw [boundWrite_of_crossed hcross]
    exact ⟨flag_raiseFlag_self _ 23 s (by decide), onlyRegs_raiseFlag _ _ (onlyRegs_refl _ s) (by simp [st])⟩
  · exact runs_of_eq (regWriteBy_eq hw) (boundWrite_of_order hord)
  -- WC_TOPP_CLEAR
  · exact runs_of_eq (regWriteBy_eq hw) (toppClear_effect q c s)
  -- WC_CNT_CLEAR, OCPCNT_CLEAR
  · simp only [List.mem_cons, List.not_mem_nil, or_false, Prod.mk.injEq] at hc
    obtain ⟨rfl, rfl⟩ | ⟨rfl, rfl⟩ := hc
    · exact runs_of_eq (regWriteBy_eq hw) (wr_zero_effect _ s)
    · exact runs_of_eq (regWriteBy_eq hw) (wr_zero_effect _ s)
  -- OCPSTAT_CLEAR
  · exact runs_of_eq (regWriteBy_eq hw) (ocpstatClear_effect _ s)

end Sys2Proof.Machine
end

section
/-! The CRC byte of an uplink frame: two frames that differ in a single byte do not share it (R153). -/

namespace Sys2Proof.Machine

/-! ## The CRC-8 of bytes (R153) -/

/-- The register of the CRC-8 before one bit: the polynomial is odd, so an odd register shows that it was added. -/
def crc8BitUndo (c : Nat) : Nat := if c % 2 = 0 then c / 2 else (c ^^^ 0x07) / 2 + 128

theorem crc8BitUndo_crc8Bit : ∀ c < 256, crc8BitUndo (crc8Bit c) = c := by decide +kernel

theorem crc8Bit_lt : ∀ c < 256, crc8Bit c < 256 := by decide +kernel

theorem crc8Bits_lt (xs : List Nat) : ∀ c < 256, xs.foldl (fun c _ => crc8Bit c) c < 256 := by
  induction xs with
  | nil => exact fun _ hc => hc
  | cons x xs ih => exact fun c hc => ih (crc8Bit c) (crc8Bit_lt c hc)

/-- Different registers take any number of bits to different registers. -/
theorem crc8Bits_inj (xs : List Nat) : ∀ c < 256, ∀ d < 256,
    xs.foldl (fun c _ => crc8Bit c) c = xs.foldl (fun c _ => crc8Bit c) d → c = d := by
  induction xs with
  | nil => exact fun _ _ _ _ h => h
  | cons x xs ih =>
    intro c hc d hd h
    have hbit : crc8Bit c = crc8Bit d := ih _ (crc8Bit_lt c hc) _ (crc8Bit_lt d hd) h
    rw [← crc8BitUndo_crc8Bit c hc, hbit, crc8BitUndo_crc8Bit d hd]

theorem xor_cancel_left {x y z : Nat} (h : x ^^^ y = x ^^^ z) : y = z := by
  rw [← Nat.zero_xor y, ← Nat.xor_self x, Nat.xor_assoc, h, ← Nat.xor_assoc, Nat.xor_self, Nat.zero_xor]

section
variable {c d : Nat} (hc : c < 256)
include hc

theorem xor_byte_lt (b : Nat) : c ^^^ b % 256 < 256 :=
  Nat.xor_lt_two_pow (n := 8) hc (Nat.mod_lt b (by decide))

theorem crc8Byte_lt (b : Nat) : crc8Byte c b < 256 := crc8Bits_lt _ _ (xor_byte_lt hc b)

/-- Different registers take a byte to different registers. -/
theorem crc8Byte_ne_of_register_ne (hd : d < 256) (b : Nat) (h : c ≠ d) : crc8Byte c b ≠ crc8Byte d b := by
  intro e
  have hxor : c ^^^ b % 256 = d ^^^ b % 256 := crc8Bits_inj _ _ (xor_byte_lt hc b) _ (xor_byte_lt hd b) e
  rw [Nat.xor_comm c, Nat.xor_comm d] at hxor
  exact h (xor_cancel_left hxor)

/-- Different bytes take a register to different registers. -/
theorem crc8Byte_ne_of_byte_ne {x y : BitVec 8} (h : x ≠ y) : crc8Byte c x.toNat ≠ crc8Byte c y.toNat := by
  intro e
  have hbytes : x.toNat % 256 = y.toNat % 256 :=
    xor_cancel_left (crc8Bits_inj _ _ (xor_byte_lt hc x.toNat) _ (xor_byte_lt hc y.toNat) e)
  rw [Nat.mod_eq_of_lt x.isLt, Nat.mod_eq_of_lt y.isLt] at hbytes
  exact h (BitVec.eq_of_toNat_eq hbytes)

end

/-! ## The CRC of a frame (R153) -/

/-- The CRC of a frame's tag and data bytes. -/
def frameCrc (f : Frame) : Nat := crc8 0xFF [f.tag.toNat, f.hi.toNat, f.lo.toNat]

theorem frameCrc_eq (f : Frame) :
    frameCrc f = crc8Byte (crc8Byte (crc8Byte 0xFF f.tag.toNat) f.hi.toNat) f.lo.toNat := by
  simp only [frameCrc, crc8, List.foldl_cons, List.foldl_nil]

theorem frameCrcOk_iff (f : Frame) : frameCrcOk f = true ↔ frameCrc f = f.crc.toNat := beq_iff_eq

/-- A single changed byte of tag and data changes the CRC: the registers differ from that byte on. -/
theorem frameCrc_ne_of_byte_ne {f g : Frame}
    (h : (g.tag ≠ f.tag ∧ g.hi = f.hi ∧ g.lo = f.lo) ∨ (g.tag = f.tag ∧ g.hi ≠ f.hi ∧ g.lo = f.lo) ∨
      (g.tag = f.tag ∧ g.hi = f.hi ∧ g.lo ≠ f.lo)) : frameCrc g ≠ frameCrc f := by
  have htag : ∀ b : Nat, crc8Byte 0xFF b < 256 := crc8Byte_lt (by decide)
  have hhi : ∀ b k : Nat, crc8Byte (crc8Byte 0xFF b) k < 256 := fun b => crc8Byte_lt (htag b)
  rw [frameCrc_eq, frameCrc_eq]
  rcases h with ⟨hne, ehi, elo⟩ | ⟨etag, hne, elo⟩ | ⟨etag, ehi, hne⟩
  · rw [ehi, elo]
    exact crc8Byte_ne_of_register_ne (hhi _ _) (hhi _ _) _
      (crc8Byte_ne_of_register_ne (htag _) (htag _) _ (crc8Byte_ne_of_byte_ne (by decide) hne))
  · rw [etag, elo]
    exact crc8Byte_ne_of_register_ne (hhi _ _) (hhi _ _) _ (crc8Byte_ne_of_byte_ne (htag _) hne)
  · rw [etag, ehi]
    exact crc8Byte_ne_of_byte_ne (hhi _ _) hne

/-- Settles O26: a change of tag or data changes the CRC and leaves the CRC byte, a change of the CRC byte leaves the
CRC. -/
theorem frameCrcFindsErrors : Obligations.FrameCrcFindsErrors := by
  unfold Obligations.FrameCrcFindsErrors
  intro f g hf hdiff
  rw [frameCrcOk_iff] at hf
  rw [Bool.eq_false_iff, ne_eq, frameCrcOk_iff]
  intro hg
  have hdata : g.crc = f.crc → frameCrc g = frameCrc f := fun ecrc => by rw [hg, hf, ecrc]
  rcases hdiff with ⟨hne, ehi, elo, ecrc⟩ | ⟨etag, hne, elo, ecrc⟩ | ⟨etag, ehi, hne, ecrc⟩ | ⟨etag, ehi, elo, hne⟩
  · exact frameCrc_ne_of_byte_ne (.inl ⟨hne, ehi, elo⟩) (hdata ecrc)
  · exact frameCrc_ne_of_byte_ne (.inr (.inl ⟨etag, hne, elo⟩)) (hdata ecrc)
  · exact frameCrc_ne_of_byte_ne (.inr (.inr ⟨etag, ehi, hne⟩)) (hdata ecrc)
  · have hsame : frameCrc g = frameCrc f := by rw [frameCrc_eq, frameCrc_eq, etag, ehi, elo]
    exact hne (BitVec.eq_of_toNat_eq (by rw [← hg, ← hf, hsame]))

end Sys2Proof.Machine
end

section
/-! The uplink of a phase port: good frames and lost ones, SAMPLE_LOST and the counters (R151 to R154, R158, R171). -/

namespace Sys2Proof.Machine

/-! ## Ports -/

@[simp] theorem portOf_updPort_self (n : Nat) (f : Port → Port) (s : State) :
    portOf (updPort n f s) n = f (portOf s n) := by rw [portOf_updPort, if_pos rfl]

/-- Two updates of a port that agree on what it holds are one. -/
theorem updPort_congr {n : Nat} {f g : Port → Port} {s : State} (h : f (portOf s n) = g (portOf s n)) :
    updPort n f s = updPort n g s := by
  unfold updPort
  rw [h]

theorem keepsRegs_updPort {as : List Nat} {s t : State} (n : Nat) (f : Port → Port) (h : KeepsRegs as s t) :
    KeepsRegs as s (updPort n f t) := fun a ha => (rd_updPort n f t a).trans (h a ha)

theorem portOf_of_onlyRegs {as : List Nat} {s t : State} (h : OnlyRegs as s t) (n : Nat) : portOf t n = portOf s n := by
  obtain ⟨-, -, hrest⟩ := h
  rw [hrest]
  rfl

/-! ## Good frames (R152) -/

theorem frameData_lt (f : Frame) : frameData f < 2 ^ 32 := by
  have hhi := f.hi.isLt
  have hlo := f.lo.isLt
  unfold frameData
  omega

/-- A good temperature or Vin frame shows its data and its slot. -/
theorem takeFrame_of_word {n j ty r : Nat} {f : Frame} (s : State)
    (hr : (ty, r) ∈ [(2, Reg.PP_TEMP (quireOf n) (localOf n)), (3, Reg.PP_VIN (quireOf n) (localOf n))])
    (hty : frameType f = ty) (hj : j % 256 ≠ 0) :
    takeFrame n j f s = wr r (frameData f)
      (updPort n (fun p => { p with lost := 0 }) (setFld (ppStat n) Fld.PP_STAT_SLOT (j % 256) s)) := by
  simp only [List.mem_cons, List.not_mem_nil, or_false, Prod.mk.injEq] at hr
  obtain ⟨rfl, rfl⟩ | ⟨rfl, rfl⟩ := hr <;> simp only [takeFrame, if_neg hj, hty]

theorem takeFrame_word_effect {n j ty r : Nat} {f : Frame} (s : State)
    (hr : (ty, r) ∈ [(2, Reg.PP_TEMP (quireOf n) (localOf n)), (3, Reg.PP_VIN (quireOf n) (localOf n))])
    (hty : frameType f = ty) (hj : j % 256 ≠ 0) :
    rd (takeFrame n j f s) r = frameData f ∧ fld (takeFrame n j f s) (ppStat n) Fld.PP_STAT_SLOT = j % 256 ∧
      KeepsRegs [r, ppStat n] s (takeFrame n j f s) := by
  have hne : ppStat n ≠ r := by
    simp only [List.mem_cons, List.not_mem_nil, or_false, Prod.mk.injEq] at hr
    obtain ⟨-, rfl⟩ | ⟨-, rfl⟩ := hr <;> simp [ppStat, Reg.PP_STAT, Reg.PP_TEMP, Reg.PP_VIN]
  rw [takeFrame_of_word s hr hty hj]
  refine ⟨?_, ?_, keepsRegs_wr _ _ (keepsRegs_updPort _ _ (keepsRegs_setFld _ _ _ (keepsRegs_refl _ s) (by simp)))
    (by simp)⟩
  · rw [rd_wr_self, Nat.mod_eq_of_lt (frameData_lt f)]
  · rw [fld_wr_ne _ _ _ _ _ hne, fld_updPort, fld_setFld_self _ _ _ _ (by decide) (by decide)]
    exact Nat.mod_mod _ _

/-! ## Lost frames (R154, R158) -/

/-- The field of PP_ERR that counts a lost frame of slot i. -/
def lostField (f : Frame) (i : Nat) : Bits :=
  if i ≠ 0 ∧ f.valid = true ∧ f.comma = false ∧ frameCrcOk f = false then Fld.PP_ERR_CRC else Fld.PP_ERR_CODE

/-- Both fields of PP_ERR are 16 bits wide. -/
theorem lostField_bits (f : Frame) (i : Nat) :
    (lostField f i).lo ≤ (lostField f i).hi ∧ (lostField f i).hi < 32 ∧ maxBits (lostField f i) = 65535 := by
  unfold lostField
  split <;> decide

theorem countLost_eq (n i : Nat) (f : Frame) (s : State) :
    countLost n i f s = incFld (Reg.PP_ERR (quireOf n) (localOf n)) (lostField f i) s := by
  simp [countLost, lostField, and_assoc]

theorem fld_countLost (n i : Nat) (f : Frame) (s : State) :
    fld (countLost n i f s) (Reg.PP_ERR (quireOf n) (localOf n)) (lostField f i) =
      min (fld s (Reg.PP_ERR (quireOf n) (localOf n)) (lostField f i) + 1) 65535 := by
  obtain ⟨hle, hlt, hmax⟩ := lostField_bits f i
  rw [countLost_eq, fld_incFld_self _ _ _ hle hlt, hmax]

theorem onlyRegs_countLost (n i : Nat) (f : Frame) (s : State) :
    OnlyRegs [Reg.PP_ERR (quireOf n) (localOf n)] s (countLost n i f s) := by
  rw [countLost_eq]
  exact onlyRegs_incFld _ _ (onlyRegs_refl _ s) (by simp)

/-- Beside RSY and ALIGNED, a set of attempts leaves PP_STAT as it was. -/
theorem fld_beginAttempts (n : Nat) (s : State) (g : Bits) : fld (beginAttempts n s) (ppStat n) g =
    fld (setFlag (ppStat n) Fld.PP_STAT_ALIGNED false (setFlag (ppStat n) Fld.PP_STAT_RSY true s)) (ppStat n) g := by
  have hcur : ppStat n ≠ Reg.PP_CUR (quireOf n) (localOf n) := by simp [ppStat, Reg.PP_STAT, Reg.PP_CUR]
  rw [beginAttempts, fld_updPort, noCurrent, fld_wr_ne _ _ _ _ _ hcur]

theorem keepsRegs_beginAttempts (n : Nat) (s : State) :
    KeepsRegs [ppStat n, Reg.PP_CUR (quireOf n) (localOf n)] s (beginAttempts n s) :=
  keepsRegs_updPort n _ (keepsRegs_wr _ _ (keepsRegs_setFlag _ _ _ (keepsRegs_setFlag _ _ _ (keepsRegs_refl _ s)
    (by simp)) (by simp)) (by simp))

/-- A set of attempts begins with the first: RSY stands, and the port is not aligned. -/
theorem beginAttempts_effect (n : Nat) (s : State) :
    resyncing (beginAttempts n s) n = true ∧ flag (beginAttempts n s) (ppStat n) Fld.PP_STAT_ALIGNED = false ∧
      portState (beginAttempts n s) n = portState s n ∧ (portOf (beginAttempts n s) n).attempt = 1 := by
  refine ⟨?_, ?_, ?_, ?_⟩
  · exact (flag_of_fld_eq (fld_beginAttempts n s _)).trans ((flag_setFlag_other _ 30 31 _ _ (by decide)
      (by decide)).trans (flag_setFlag_self _ _ _ _ (by decide) (by decide)))
  · exact (flag_of_fld_eq (fld_beginAttempts n s _)).trans (flag_setFlag_self _ _ _ _ (by decide) (by decide))
  · exact (fld_beginAttempts n s _).trans ((fld_setFld_other _ _ _ _ _ (by decide) (by decide) (by decide)
      (by decide)).trans (fld_setFld_other _ _ _ _ _ (by decide) (by decide) (by decide) (by decide)))
  · rw [beginAttempts, portOf_updPort_self]

/-- SAMPLE_LOST counts itself in PP_LOSS, and a set of attempts begins. -/
theorem sampleLost_effect (n : Nat) (s : State) :
    let loss := Reg.PP_LOSS (quireOf n) (localOf n)
    let t := sampleLost n s
    resyncing t n = true ∧ flag t (ppStat n) Fld.PP_STAT_ALIGNED = false ∧ portState t n = portState s n ∧
      (portOf t n).attempt = 1 ∧ fld t loss Fld.PP_LOSS_SLOST = min (fld s loss Fld.PP_LOSS_SLOST + 1) 255 ∧
      KeepsRegs [loss, ppStat n, Reg.PP_CUR (quireOf n) (localOf n)] s t := by
  intro loss t
  have hstat : ppStat n ≠ loss := by simp [loss, ppStat, Reg.PP_STAT, Reg.PP_LOSS]
  have hloss : loss ∉ [ppStat n, Reg.PP_CUR (quireOf n) (localOf n)] := by
    simp [loss, ppStat, Reg.PP_LOSS, Reg.PP_STAT, Reg.PP_CUR]
  have hbegin := keepsRegs_beginAttempts n (incFld loss Fld.PP_LOSS_SLOST s)
  obtain ⟨hrsy, haligned, hstate, hattempt⟩ := beginAttempts_effect n (incFld loss Fld.PP_LOSS_SLOST s)
  refine ⟨hrsy, haligned, hstate.trans (fld_setFld_ne _ _ _ _ _ _ hstat), hattempt,
    (fld_of_keepsRegs _ hbegin hloss).trans (fld_incFld_self _ _ _ (by decide) (by decide)), ?_⟩
  exact keepsRegs_trans (onlyRegs_incFld _ _ (onlyRegs_refl _ s) (by simp)).1 (keepsRegs_mono (by simp) hbegin)

/-! ## UPLINK_FRAME (R150, R154, R158, R159) -/

section
variable {n : Nat} {f : Frame} {s : State}

/-- Port n's verdict on a frame in the slot that comes next (R154). -/
def goodNow (s : State) (n : Nat) (f : Frame) : Bool :=
  frameGood f ((portOf s n).slot % 256) (portState s n == 1 || portState s n == 2)

/-- Port n with its next slot counted. -/
def slotTaken (n : Nat) (s : State) : State := updPort n (fun p => { p with slot := p.slot + 1 }) s

theorem uplinkFrame_of_good (hal : flag s (ppStat n) Fld.PP_STAT_ALIGNED = true) (hgood : goodNow s n f = true) :
    uplinkFrame n f s = takeFrame n (portOf s n).slot f (slotTaken n s) := by
  unfold goodNow at hgood
  simp only [uplinkFrame, hal, hgood, if_true]
  rfl

/-- The first and the second lost frame in a row are counted. -/
theorem uplinkFrame_of_lost (hal : flag s (ppStat n) Fld.PP_STAT_ALIGNED = true) (hbad : goodNow s n f = false)
    (hfew : (portOf s n).lost < 2) :
    uplinkFrame n f s = updPort n (fun p => { p with lost := p.lost + 1 })
      (countLost n ((portOf s n).slot % 256) f (slotTaken n s)) := by
  unfold goodNow at hbad
  simp only [uplinkFrame, hal, hbad, if_true, Bool.false_eq_true, if_false, if_pos (Nat.succ_lt_succ hfew)]
  rfl

/-- The third is SAMPLE_LOST. -/
theorem uplinkFrame_of_third (hal : flag s (ppStat n) Fld.PP_STAT_ALIGNED = true) (hbad : goodNow s n f = false)
    (hthird : (portOf s n).lost = 2) :
    uplinkFrame n f s = sampleLost n (countLost n ((portOf s n).slot % 256) f (slotTaken n s)) := by
  unfold goodNow at hbad
  simp only [uplinkFrame, hal, hbad, hthird, if_true, Bool.false_eq_true, if_false]
  rfl

theorem uplinkFrame_of_search (hal : flag s (ppStat n) Fld.PP_STAT_ALIGNED = false)
    (hretry : (portOf s n).retryAt = 0) : uplinkFrame n f s = searchFrame n f s := by
  simp [uplinkFrame, hal, hretry]

/-- What a first or second lost frame leaves. -/
theorem uplinkFrame_lost_effect (hal : flag s (ppStat n) Fld.PP_STAT_ALIGNED = true) (hbad : goodNow s n f = false)
    (hfew : (portOf s n).lost < 2) :
    let err := Reg.PP_ERR (quireOf n) (localOf n)
    let ec := lostField f ((portOf s n).slot % 256)
    let t := uplinkFrame n f s
    fld t err ec = min (fld s err ec + 1) 65535 ∧ (portOf t n).lost = (portOf s n).lost + 1 ∧ KeepsRegs [err] s t := by
  intro err ec t
  rw [show t = _ from uplinkFrame_of_lost hal hbad hfew]
  have hcount := onlyRegs_countLost n ((portOf s n).slot % 256) f (slotTaken n s)
  refine ⟨fld_countLost _ _ _ _, ?_, keepsRegs_updPort _ _ hcount.1⟩
  rw [portOf_updPort_self, portOf_of_onlyRegs hcount, slotTaken, portOf_updPort_self]

/-- What the third leaves: its count in PP_ERR, that of SAMPLE_LOST, and the first attempt begun. -/
theorem uplinkFrame_third_effect (hal : flag s (ppStat n) Fld.PP_STAT_ALIGNED = true) (hbad : goodNow s n f = false)
    (hthird : (portOf s n).lost = 2) :
    let err := Reg.PP_ERR (quireOf n) (localOf n)
    let loss := Reg.PP_LOSS (quireOf n) (localOf n)
    let ec := lostField f ((portOf s n).slot % 256)
    let t := uplinkFrame n f s
    fld t err ec = min (fld s err ec + 1) 65535 ∧ resyncing t n = true ∧
      flag t (ppStat n) Fld.PP_STAT_ALIGNED = false ∧ portState t n = portState s n ∧ (portOf t n).attempt = 1 ∧
      fld t loss Fld.PP_LOSS_SLOST = min (fld s loss Fld.PP_LOSS_SLOST + 1) 255 := by
  intro err loss ec t
  have hstat : ppStat n ∉ [err] := by simp [err, ppStat, Reg.PP_ERR, Reg.PP_STAT]
  have hloss : loss ∉ [err] := by simp [err, loss, Reg.PP_ERR, Reg.PP_LOSS]
  have herr : err ∉ [loss, ppStat n, Reg.PP_CUR (quireOf n) (localOf n)] := by
    simp [err, loss, ppStat, Reg.PP_ERR, Reg.PP_LOSS, Reg.PP_STAT, Reg.PP_CUR]
  obtain ⟨hcount, -, -⟩ := onlyRegs_countLost n ((portOf s n).slot % 256) f (slotTaken n s)
  obtain ⟨hrsy, haligned, hstate, hattempt, hslost, hregs⟩ :=
    sampleLost_effect n (countLost n ((portOf s n).slot % 256) f (slotTaken n s))
  rw [show t = _ from uplinkFrame_of_third hal hbad hthird]
  refine ⟨(fld_of_keepsRegs _ hregs herr).trans (fld_countLost _ _ _ _), hrsy, haligned,
    hstate.trans (fld_of_keepsRegs _ hcount hstat), hattempt, hslost.trans ?_⟩
  rw [fld_of_keepsRegs _ hcount hloss]
  rfl

end

/-- Settles O23: the port carries its running disparity on, and the frame is good, lost or searched for. -/
theorem uplinkFramesReachThePort : Obligations.UplinkFramesReachThePort := by
  unfold Obligations.UplinkFramesReachThePort
  intro s m n w k f s0 q p st err slot a good ec
  have hport : portOf s0 n = { portOf s n with rd := slotRd (portOf s n).rd w.toNat 4 } := portOf_updPort_self _ _ _
  have hslot : (portOf s0 n).slot = slot := by rw [hport]
  have hlost : (portOf s0 n).lost = (portOf s n).lost := by rw [hport]
  have hretry : (portOf s0 n).retryAt = (portOf s n).retryAt := by rw [hport]
  have hgood : goodNow s0 n f = good := by
    unfold goodNow
    rw [hslot]
    rfl
  have ha : slotTaken n s0 = a := updPort_congr (by rw [hslot])
  have hflag : flag s0 st Fld.PP_STAT_ALIGNED = flag s st Fld.PP_STAT_ALIGNED := rfl
  have hec : lostField f ((portOf s0 n).slot % 256) = ec := by
    rw [hslot]
    rfl
  have run : ∀ {P : State → Prop}, alive s = true → listening s n = true → P (uplinkFrame n f s0) →
      Runs (.uplinkFrame n w) s P := fun halive hlisten hP => runs_of_eq (live_eq halive hlisten) hP
  refine ⟨fun halive hlisten hal => ⟨fun hg => ?_, fun hb hfew => ?_, fun hb hthird => ?_⟩,
    fun halive hlisten hal hnone => ?_, fun hw => ?_⟩
  -- A good frame
  · refine run halive hlisten ?_
    rw [uplinkFrame_of_good (hflag.trans hal) (hgood.trans hg), hslot, ha]
    exact ⟨rfl, fun ty r hr hty hj => takeFrame_word_effect a hr hty hj⟩
  -- The first and second lost frame in a row, and the third
  · refine run halive hlisten ?_
    have heffect := uplinkFrame_lost_effect (hflag.trans hal) (hgood.trans hb) (by rwa [hlost])
    rwa [hlost, hec] at heffect
  · refine run halive hlisten ?_
    have heffect := uplinkFrame_third_effect (hflag.trans hal) (hgood.trans hb) (by rwa [hlost])
    rwa [hec] at heffect
  -- A frame while the port searches
  · exact run halive hlisten (uplinkFrame_of_search (hflag.trans hal) (hretry.trans hnone))
  -- PP_COUNTER_CLEAR
  · exact runs_of_eq (regWriteBy_eq hw) (wr_zero_effect _ s)

end Sys2Proof.Machine
end

section
/-! The events of a phase port and PP_CMD: deadlines, resynchronisation, vacated ports, isolation and binding again
(R156, R159, R165, R168, R171). -/

namespace Sys2Proof.Machine

/-! ## The stage bus's own transactions (R159, R162, R172) -/

@[simp] theorem sbusOf_updSbus_self (q : Nat) (f : Sbus → Sbus) (s : State) :
    sbusOf (updSbus q f s) q = f (sbusOf s q) := by rw [sbusOf_updSbus, if_pos rfl]

theorem sbusOf_of_onlyRegs {as : List Nat} {s t : State} (h : OnlyRegs as s t) (q : Nat) : sbusOf t q = sbusOf s q := by
  obtain ⟨-, -, hrest⟩ := h
  rw [hrest]
  rfl

/-- What a stage bus shows of its state, it shows in SB_STAT and SB_IBIQ alone. -/
theorem onlyRegs_showSbus (q : Nat) (s : State) :
    OnlyRegs [Reg.SB_STAT q, Reg.SB_IBIQ q] s (showSbus q s) :=
  onlyRegs_wr _ _ (onlyRegs_setFlag _ _ _ (onlyRegs_setFld _ _ _ (onlyRegs_setFld _ _ _ (onlyRegs_refl _ s) (by simp))
    (by simp)) (by simp)) (by simp)

@[simp] theorem sbusOf_showSbus (q : Nat) (s : State) (k : Nat) : sbusOf (showSbus q s) k = sbusOf s k :=
  sbusOf_of_onlyRegs (onlyRegs_showSbus q s) k

@[simp] theorem portOf_showSbus (q : Nat) (s : State) (n : Nat) : portOf (showSbus q s) n = portOf s n :=
  portOf_of_onlyRegs (onlyRegs_showSbus q s) n

theorem todo_askBus (q a what : Nat) (bytes : List Nat) (s : State) :
    (sbusOf (askBus q a what bytes s) q).todo = (sbusOf s q).todo ++ [⟨a, what, bytes⟩] := by
  rw [askBus, sbusOf_showSbus, sbusOf_updSbus_self]

theorem portOf_askBus (q a what : Nat) (bytes : List Nat) (s : State) (n : Nat) :
    portOf (askBus q a what bytes s) n = portOf s n := by
  rw [askBus, portOf_showSbus]
  rfl

/-! ## Resynchronisation (R159) -/

/-- The CTRL word that the bus writes to the stage of port n to restart its uplink: ULRST = 1, the rest as it is. -/
def ulrstBytes (p : Port) : List Nat := regImage 0x08 [p.ctrl + 2 ^ 14]

theorem busDo_ulrst (n : Nat) (s : State) : busDo n 1 s =
    askBus (quireOf n) (localOf n) 1 (ulrstBytes (portOf s n))
      (updPort n (fun p => { p with ctrl := (portOf s n).ctrl }) s) := rfl

/-- A failed attempt with others left has the stage's uplink restarted, and waits 1 ms for the next. -/
theorem attemptFail_effect {n : Nat} {s : State}
    (hleft : (portOf s n).attempt < fld s (Reg.PP_CTRL (quireOf n)) Fld.PP_CTRL_RSMAX) :
    (portOf (attemptFail n s) n).retryAt = now s + 1000000 + 1 ∧
      (portOf (attemptFail n s) n).attempt = (portOf s n).attempt ∧
      (sbusOf (attemptFail n s) (quireOf n)).todo =
        (sbusOf s (quireOf n)).todo ++ [⟨localOf n, 1, ulrstBytes (portOf s n)⟩] := by
  have hfail : attemptFail n s =
      busDo n 1 (updPort n (fun p => { p with retryAt := s.tb.ns + 1000000 + 1, seen := 0 }) s) :=
    if_pos (Nat.lt_of_lt_of_le hleft (Nat.le_max_right _ _))
  rw [hfail, busDo_ulrst, portOf_askBus, todo_askBus]
  simp only [portOf_updPort_self]
  exact ⟨rfl, trivial, rfl⟩

theorem retryStart_effect (n : Nat) (s : State) :
    (portOf (retryStart n s) n).attempt = (portOf s n).attempt + 1 ∧ (portOf (retryStart n s) n).retryAt = 0 ∧
      (portOf (retryStart n s) n).tryAt = now s ∧ (retryStart n s).regs = s.regs ∧ (retryStart n s).mem = s.mem := by
  simp only [retryStart, portOf_updPort_self]
  exact ⟨trivial, trivial, rfl, rfl, rfl⟩

/-! ## PP_CMD (R165, R168, R171) -/

/-- PP_CMDST shows the result of a command in its field, and that is all that showing it does. -/
theorem ppResult_effect {q r : Nat} (s : State) (hr : r < 16) :
    fld (ppResult q r s) (Reg.PP_CMDST q) Fld.PP_CMDST_RESULT = r ∧ OnlyRegs [Reg.PP_CMDST q] s (ppResult q r s) :=
  ⟨(fld_setFld_self _ _ _ _ (by decide) (by decide)).trans (Nat.mod_eq_of_lt hr),
    onlyRegs_setFld _ _ _ (onlyRegs_refl _ s) (by simp)⟩

/-- Command c of PP_CMD at quire q has effect u where ok allows it, and is refused else. -/
theorem runs_ppCmd {c : Instr} {m : Master} {q : Nat} {ok : Bool} {s u : State} (hw : CanWrite s m (Reg.PP_CMD q))
    (hexec : exec c s = regWriteBy m (Reg.PP_CMD q) s (if ok then ppResult q 0 u else ppResult q 2 s)) :
    (ok = true → Runs c s fun t => t = ppResult q 0 u ∧ fld t (Reg.PP_CMDST q) Fld.PP_CMDST_RESULT = 0) ∧
      (ok = false → Runs c s fun t =>
        fld t (Reg.PP_CMDST q) Fld.PP_CMDST_RESULT = 2 ∧ OnlyRegs [Reg.PP_CMDST q] s t) := by
  refine ⟨fun hok => runs_of_eq (hexec.trans (regWriteBy_eq hw)) ?_,
    fun hno => runs_of_eq (hexec.trans (regWriteBy_eq hw)) ?_⟩
  · rw [if_pos hok]
    exact ⟨rfl, (ppResult_effect u (by decide)).1⟩
  · rw [hno, if_neg Bool.false_ne_true]
    exact ppResult_effect s (by decide)

/-- What is refused where bad is taken where it is not. -/
theorem ite_refused (bad : Bool) (x y : State) : (if bad then x else y) = if !bad then y else x := by cases bad <;> rfl

theorem ppIsolate_eq (n : Nat) (s : State) : ppIsolate n s =
    if (portOf s n).dp != 6 then ppResult (quireOf n) 0 (isolatePort n s) else ppResult (quireOf n) 2 s :=
  ite_refused (isolated s n) _ _

theorem ppUnisolate_eq (n : Nat) (s : State) : ppUnisolate n s =
    if (portOf s n).dp == 6 then ppResult (quireOf n) 0 (toIdent n (setFld (ppStat n) Fld.PP_STAT_MGMT 0 s))
    else ppResult (quireOf n) 2 s := rfl

theorem ppRebind_eq (n : Nat) (s : State) : ppRebind n s =
    if (portOf s n).dp != 6 then ppResult (quireOf n) 0 (toIdent n s) else ppResult (quireOf n) 2 s :=
  ite_refused (isolated s n) _ _

theorem ppResync_eq (n : Nat) (s : State) : ppResync n s =
    if (portOf s n).dp != 6 && !discrete s n then ppResult (quireOf n) 0 (beginAttempts n s)
    else ppResult (quireOf n) 2 s := by
  rw [ppResync, ite_refused, Bool.not_or]
  rfl

/-- The commands of PP_CMD, as runs_ppCmd takes them. -/
theorem exec_ppCmd {s : State} {m : Master} {n : Fin 256} {c : Instr} {ok : Bool} {u : State}
    (hc : (c, ok, u) ∈ [(Instr.isolate m n, (portOf s n).dp != 6, isolatePort n s),
      (.unisolate m n, (portOf s n).dp == 6, toIdent n (setFld (ppStat n) Fld.PP_STAT_MGMT 0 s)),
      (.rebind m n, (portOf s n).dp != 6, toIdent n s),
      (.resync m n, (portOf s n).dp != 6 && !discrete s n, beginAttempts n s)]) :
    exec c s = regWriteBy m (Reg.PP_CMD (quireOf n)) s
      (if ok then ppResult (quireOf n) 0 u else ppResult (quireOf n) 2 s) := by
  simp only [List.mem_cons, List.not_mem_nil, or_false, Prod.mk.injEq] at hc
  obtain ⟨rfl, rfl, rfl⟩ | ⟨rfl, rfl, rfl⟩ | ⟨rfl, rfl, rfl⟩ | ⟨rfl, rfl, rfl⟩ := hc
  · exact congrArg (regWriteBy m _ s) (ppIsolate_eq n s)
  · exact congrArg (regWriteBy m _ s) (ppUnisolate_eq n s)
  · exact congrArg (regWriteBy m _ s) (ppRebind_eq n s)
  · exact congrArg (regWriteBy m _ s) (ppResync_eq n s)

theorem exec_uplinkDeadline {s : State} {n : Fin 256} {t : Nat} (ha : alive s = true) (ht : missedTick s n = some t) :
    exec (.uplinkDeadline n) s = .next (uplinkDeadline n t s) := by
  show execUplinkDeadline n s = _
  simp only [execUplinkDeadline, ht]
  exact live_eq ha rfl

/-- Settles O24, an event at a time; the commands of PP_CMD as one. -/
theorem portEventsRun : Obligations.PortEventsRun := by
  unfold Obligations.PortEventsRun
  intro s m n q p
  refine ⟨fun t0 ha ht => ?_, fun ha hdone => ?_, fun ha hover => ?_, fun ha hwait hdue => ?_, fun ha hvacant => ?_,
    fun c ok u hc hw => ?_⟩
  -- UPLINK_DEADLINE
  · exact runs_of_eq (exec_uplinkDeadline ha ht) rfl
  -- RESYNC_SUCCESS, RESYNC_ATTEMPT_FAIL, RESYNC_RETRY_START
  · exact runs_of_eq (live_eq ha hdone) rfl
  · exact runs_of_eq (live_eq ha hover) ⟨rfl, attemptFail_effect⟩
  · exact runs_of_eq (live_eq ha (by simp [p, hwait, hdue])) (retryStart_effect n s)
  -- PORT_VACATED
  · exact runs_of_eq (live_eq ha hvacant) rfl
  -- ISOLATE, UNISOLATE, REBIND, RESYNC
  · exact runs_ppCmd hw (exec_ppCmd hc)

end Sys2Proof.Machine
end

section
/-! The stage bus: Hot-Joins, the binding of stages, transfers and interrupts (R160 to R162, R167, R169, R172). -/

namespace Sys2Proof.Machine

/-! ## Hot-Joins (R161, R167) -/

theorem giveAddress_of_none {q : Nat} {s : State} (h : freeTemp s q = none) :
    giveAddress q s = raiseFlag (Reg.SB_STAT q) Fld.SB_STAT_POOL s := by simp only [giveAddress, h]

theorem freeTemp_of_onlyRegs {as : List Nat} {s t : State} (h : OnlyRegs as s t) (q : Nat) :
    freeTemp t q = freeTemp s q := by
  unfold freeTemp
  rw [sbusOf_of_onlyRegs h]

/-- ENTDAA for one stage more runs for it last. -/
theorem forAll_range_succ (k : Nat) (f : Nat → State → State) (s : State) :
    forAll (List.range (k + 1)) f s = f k (forAll (List.range k) f s) := by
  simp [forAll, List.range_succ]

/-- With no address free, ENTDAA changes nothing but SB_STAT. -/
theorem onlyRegs_giveAddresses {q : Nat} {s : State} (h : freeTemp s q = none) (k : Nat) :
    OnlyRegs [Reg.SB_STAT q] s (forAll (List.range k) (fun _ s => giveAddress q s) s) := by
  induction k with
  | zero => exact onlyRegs_refl _ s
  | succ k ih =>
    rw [forAll_range_succ, giveAddress_of_none ((freeTemp_of_onlyRegs ih q).trans h)]
    exact onlyRegs_raiseFlag _ _ ih (by simp)

theorem pool_giveAddresses {q : Nat} {s : State} (h : freeTemp s q = none) (k : Nat) :
    flag (forAll (List.range (k + 1)) (fun _ s => giveAddress q s) s) (Reg.SB_STAT q) Fld.SB_STAT_POOL = true := by
  rw [forAll_range_succ, giveAddress_of_none ((freeTemp_of_onlyRegs (onlyRegs_giveAddresses h k) q).trans h)]
  exact flag_raiseFlag_self _ 30 _ (by decide)

/-- With no address free, a stage that asks to join has POOL set. -/
theorem hotJoin_of_none {q : Nat} {s : State} (h : freeTemp s q = none) :
    flag (hotJoin q s) (Reg.SB_STAT q) Fld.SB_STAT_POOL = true ∧ KeepsRegs [Reg.SB_STAT q] s (hotJoin q s) := by
  have hnone : freeTemp (updSbus q (fun x => { x with waiting := x.waiting + 1 }) s) q = none := by
    simpa only [freeTemp, sbusOf_updSbus_self] using h
  rw [hotJoin, runEntdaa, sbusOf_updSbus_self]
  exact ⟨pool_giveAddresses hnone _, (onlyRegs_giveAddresses hnone _).1⟩

/-! ## Transfers of SB_XCMD (R162, R172) -/

/-- The OP of a word whose OP was replaced. -/
theorem getBits_xcmdOp (v : BitVec 32) {op : Nat} (h : op < 4) : getBits (xcmdOp v op) Fld.SB_XCMD_OP = op :=
  (getBits_putBits _ _ _ (by decide)).trans (Nat.mod_eq_of_lt h)

section
variable {q v : Nat} {s t : State}

/-- A write of SB_XCMD moves neither the stages nor the data of a transfer. -/
theorem xferTarget_of_onlyRegs (h : OnlyRegs [Reg.SB_XCMD q] s t) : xferTarget t q v = xferTarget s q v := by
  have hport : getBits v Fld.SB_XCMD_PORT < 16 := Nat.mod_lt _ (by decide)
  have hstat : Reg.PP_STAT q (getBits v Fld.SB_XCMD_PORT) ∉ [Reg.SB_XCMD q] := by
    simp only [Reg.PP_STAT, Reg.SB_XCMD, quireBlock, List.mem_singleton]
    omega
  simp only [xferTarget, sbusOf_of_onlyRegs h, flag_of_fld_eq (fld_of_keepsRegs Fld.PP_STAT_BOUND h.1 hstat)]

theorem xferBytes_of_onlyRegs (h : OnlyRegs [Reg.SB_XCMD q] s t) : xferBytes t q v = xferBytes s q v := by
  have hdata : ∀ i f, fld t (Reg.SB_XDATA q i) f = fld s (Reg.SB_XDATA q i) f := fun i f =>
    fld_of_keepsRegs f h.1 (by
      simp only [Reg.SB_XDATA, Reg.SB_XCMD, List.mem_singleton]
      omega)
  simp only [xferBytes, hdata]

theorem onlyRegs_writeXcmd (q v : Nat) (s : State) :
    OnlyRegs [Reg.SB_XCMD q] s (plainWrite (Reg.SB_XCMD q) v s) := onlyRegs_plainWrite _ _ (onlyRegs_refl _ s) (by simp)

theorem xstat_not_mem_xcmd (q : Nat) : Reg.SB_XSTAT q ∉ [Reg.SB_XCMD q] := by simp [Reg.SB_XSTAT, Reg.SB_XCMD]

theorem xcmdWrite_of_busy (h : flag s (Reg.SB_XSTAT q) Fld.SB_XSTAT_BUSY = true) :
    xcmdWrite q v s = setFld (Reg.SB_XSTAT q) Fld.SB_XSTAT_RESULT 1 s := if_pos h

/-- A transfer asked while one runs shows RESULT 1. -/
theorem xcmdWrite_busy_effect (h : flag s (Reg.SB_XSTAT q) Fld.SB_XSTAT_BUSY = true) :
    fld (xcmdWrite q v s) (Reg.SB_XSTAT q) Fld.SB_XSTAT_RESULT = 1 ∧
      OnlyRegs [Reg.SB_XSTAT q] s (xcmdWrite q v s) := by
  rw [xcmdWrite_of_busy h]
  exact ⟨fld_setFld_self _ _ _ _ (by decide) (by decide), onlyRegs_setFld _ _ _ (onlyRegs_refl _ s) (by simp)⟩

variable (hfree : flag s (Reg.SB_XSTAT q) Fld.SB_XSTAT_BUSY = false)
  (hop : getBits v Fld.SB_XCMD_OP = 1 ∨ getBits v Fld.SB_XCMD_OP = 2)
include hfree hop

/-- A read or write that is asked while none runs is stored, and starts where its stage is there. -/
theorem xcmdWrite_of_free : xcmdWrite q v s =
    if xferTarget s q v then showSbus q (setFlag (Reg.SB_XSTAT q) Fld.SB_XSTAT_BUSY true
      (updSbus q (fun x => { x with xfer := v + 1, sent := xferBytes s q v }) (plainWrite (Reg.SB_XCMD q) v s)))
    else setFld (Reg.SB_XSTAT q) Fld.SB_XSTAT_RESULT 3 (plainWrite (Reg.SB_XCMD q) v s) := by
  have hvalid : (getBits v Fld.SB_XCMD_OP != 1 && getBits v Fld.SB_XCMD_OP != 2) = false := by
    rcases hop with h | h <;> simp [h]
  have hwrite := onlyRegs_writeXcmd q v s
  simp only [xcmdWrite, hfree, hvalid, xferTarget_of_onlyRegs hwrite, xferBytes_of_onlyRegs hwrite, Bool.false_eq_true,
    if_false]
  cases xferTarget s q v <;> simp only [Bool.not_true, Bool.not_false, Bool.false_eq_true, if_true, if_false]

/-- A transfer to a stage that is not there shows RESULT 3 and starts nothing. -/
theorem xcmdWrite_absent_effect (habsent : xferTarget s q v = false) :
    fld (xcmdWrite q v s) (Reg.SB_XSTAT q) Fld.SB_XSTAT_RESULT = 3 ∧
      flag (xcmdWrite q v s) (Reg.SB_XSTAT q) Fld.SB_XSTAT_BUSY = false ∧
      OnlyRegs [Reg.SB_XSTAT q, Reg.SB_XCMD q] s (xcmdWrite q v s) := by
  have hwrite := onlyRegs_writeXcmd q v s
  rw [xcmdWrite_of_free hfree hop, habsent, if_neg Bool.false_ne_true]
  refine ⟨fld_setFld_self _ _ _ _ (by decide) (by decide), (flag_of_fld_eq ?_).trans hfree,
    onlyRegs_setFld _ _ _ (onlyRegs_mono (by simp) hwrite) (by simp)⟩
  exact (fld_setFld_other _ _ _ _ _ (by decide) (by decide) (by decide) (by decide)).trans
    (fld_of_keepsRegs _ hwrite.1 (xstat_not_mem_xcmd q))

/-- A transfer that starts is BUSY, with its word and the bytes it sends. -/
theorem xcmdWrite_start_effect (hthere : xferTarget s q v = true) :
    flag (xcmdWrite q v s) (Reg.SB_XSTAT q) Fld.SB_XSTAT_BUSY = true ∧
      (sbusOf (xcmdWrite q v s) q).xfer = v + 1 ∧ (sbusOf (xcmdWrite q v s) q).sent = xferBytes s q v := by
  have hstat : Reg.SB_XSTAT q ∉ [Reg.SB_STAT q, Reg.SB_IBIQ q] := by simp [Reg.SB_XSTAT, Reg.SB_STAT, Reg.SB_IBIQ]
  rw [xcmdWrite_of_free hfree hop, if_pos hthere]
  refine ⟨(flag_of_fld_eq (fld_of_keepsRegs _ (onlyRegs_showSbus q _).1 hstat)).trans
    (flag_setFlag_self _ _ _ _ (by decide) (by decide)), ?_⟩
  rw [sbusOf_showSbus, sbusOf_of_onlyRegs (onlyRegs_setFlag _ _ _ (onlyRegs_refl [Reg.SB_XSTAT q] _) (by simp)),
    sbusOf_updSbus_self]
  exact ⟨rfl, rfl⟩

end

/-- The read and the write of a stage's registers are one operation, each by its OP. -/
theorem exec_sbXfer {s : State} {m : Master} {q : Fin 16} {v : BitVec 32} {c : Instr} {op : Nat}
    (hc : (c, op) ∈ [(Instr.sbXferRead m q v, 1), (.sbXferWrite m q v, 2)]) (hw : CanWrite s m (Reg.SB_XCMD q)) :
    exec c s = .next (xcmdWrite q (xcmdOp v op) s) ∧
      (getBits (xcmdOp v op) Fld.SB_XCMD_OP = 1 ∨ getBits (xcmdOp v op) Fld.SB_XCMD_OP = 2) := by
  simp only [List.mem_cons, List.not_mem_nil, or_false, Prod.mk.injEq] at hc
  obtain ⟨rfl, rfl⟩ | ⟨rfl, rfl⟩ := hc
  · exact ⟨regWriteBy_eq hw, .inl (getBits_xcmdOp v (by decide))⟩
  · exact ⟨regWriteBy_eq hw, .inr (getBits_xcmdOp v (by decide))⟩

section
variable {s : State} {q : Fin 16} {y : Reply} {d0 d1 d2 d3 : BitVec 16} (ha : alive s = true) (hon : busOn s q = true)
  (hfits : replyFits s q y = true)
include ha hon hfits

theorem exec_sbXferComplete_xcmd (hxfer : (sbusOf s q).xfer ≠ 0) :
    exec (.sbXferComplete q false y.ok y.retries d0 d1 d2 d3) s =
      .next (xferComplete q y [d0.toNat, d1.toNat, d2.toNat, d3.toNat] s) := by
  show execSbXferComplete q false y.ok y.retries d0 d1 d2 d3 s = _
  simp only [execSbXferComplete, Bool.false_eq_true, if_false]
  exact live_eq ha (by simp [hon, hfits, xferRuns, hxfer])

theorem exec_sbXferComplete_own (htodo : (sbusOf s q).todo ≠ []) :
    exec (.sbXferComplete q true y.ok y.retries d0 d1 d2 d3) s =
      .next (ownComplete q y [d0.toNat, d1.toNat, d2.toNat, d3.toNat] s) := by
  show execSbXferComplete q true y.ok y.retries d0 d1 d2 d3 s = _
  simp only [execSbXferComplete, if_true]
  exact live_eq ha (by simp [hon, hfits, xferRuns, htodo])

end

/-! ## Interrupts (R162, R172) -/

/-- A read of SB_IBIQ removes the oldest entry. -/
theorem ibiqRead_effect (q : Nat) (s : State) :
    (sbusOf (ibiqRead q s) q).ibiq = (sbusOf s q).ibiq.drop 1 ∧
      KeepsRegs [Reg.SB_IBIQ q, Reg.SB_STAT q] s (ibiqRead q s) ∧ (ibiqRead q s).mem = s.mem := by
  have hshow := onlyRegs_showSbus q (updSbus q (fun x => { x with ibiq := x.ibiq.drop 1 }) s)
  unfold ibiqRead
  refine ⟨?_, keepsRegs_mono (by simp) hshow.1, (mem_of_onlyRegs hshow :)⟩
  rw [sbusOf_showSbus, sbusOf_updSbus_self]

/-- Settles O25, a command at a time. -/
theorem stageBusCommandsRun : Obligations.StageBusCommandsRun := by
  unfold Obligations.StageBusCommandsRun
  intro s m q n v temp y d0 d1 d2 d3 reports a pid cause bcr dcr x
  refine ⟨fun ha hon hjoin => ?_, fun ha hdue hfits => ?_, fun ha hbound => ?_, fun ha hlate => ?_, fun ha hon => ?_,
    fun c op hc hw => ?_, fun ha hon hfits => ⟨fun hxfer => ?_, fun htodo => ?_⟩, fun hr => ?_, fun hw => ?_⟩
  -- HOT_JOIN, BINDING_ROUND
  · exact runs_of_eq (live_eq ha (by rw [hon, hjoin]; rfl)) ⟨rfl, hotJoin_of_none⟩
  · exact runs_of_eq (live_eq ha (by rw [hdue, hfits]; rfl)) rfl
  -- STAGE_BIND_COMPLETE, BIND_ALIGN_TIMEOUT, STAGE_IBI
  · exact runs_of_eq (live_eq ha (beq_iff_eq.mpr hbound)) rfl
  · exact runs_of_eq (live_eq ha hlate) rfl
  · exact runs_of_eq (live_eq ha hon) rfl
  -- SB_XFER_READ, SB_XFER_WRITE
  · obtain ⟨hexec, hop⟩ := exec_sbXfer hc hw
    exact ⟨fun hbusy => runs_of_eq hexec (xcmdWrite_busy_effect hbusy),
      fun hfree => ⟨fun habsent => runs_of_eq hexec (xcmdWrite_absent_effect hfree hop habsent),
        fun hthere => runs_of_eq hexec (xcmdWrite_start_effect hfree hop hthere)⟩⟩
  -- SB_XFER_COMPLETE of SB_XCMD's transfer, and of the bus's own
  · exact runs_of_eq (exec_sbXferComplete_xcmd ha hon hfits hxfer) rfl
  · exact runs_of_eq (exec_sbXferComplete_own ha hon hfits htodo) rfl
  -- SB_IBIQ_READ, SB_IBICNT_CLEAR
  · exact runs_of_eq (regReadBy_eq hr) (ibiqRead_effect q s)
  · exact runs_of_eq (regWriteBy_eq hw) (wr_zero_effect _ s)

end Sys2Proof.Machine
end

section
/-! Beacons: the word a port sends reads back as its fields and its CRC, and cycle numbers count by one (R174, R177,
R179). -/

namespace Sys2Proof.Machine

/-- The CRC-8 of any bytes is a byte. -/
theorem crc8_lt (bs : List Nat) : ∀ c < 256, crc8 c bs < 256 := by
  induction bs with
  | nil => exact fun _ hc => hc
  | cons b bs ih =>
    intro c hc
    rw [crc8, List.foldl_cons]
    exact ih (crc8Byte c b) (crc8Byte_lt hc b)

/-! ## A word above its CRC byte -/

section
variable {w c : Nat} (hc : c < 256)
include hc

theorem div_word_above_byte (lo : Nat) : (w * 256 + c) / 2 ^ (lo + 8) = w / 2 ^ lo := by
  rw [Nat.add_comm lo 8, Nat.pow_add, ← Nat.div_div_eq_div_mul]
  congr 1
  omega

/-- A field above the lowest byte is one of the word above that byte. -/
theorem getBits_word_above_byte (hi lo : Nat) : getBits (w * 256 + c) ⟨hi + 8, lo + 8⟩ = getBits w ⟨hi, lo⟩ := by
  simp only [getBits, div_word_above_byte hc, Nat.add_sub_add_right]

theorem bitAt_word_above_byte (i : Nat) : bitAt (w * 256 + c) (i + 8) = bitAt w i := by
  simp only [bitAt, div_word_above_byte hc]

end

theorem bitAt_eq_of_div_mod {w i : Nat} {b : Bool} (h : w / 2 ^ i % 2 = b2n b) : bitAt w i = b := by
  rw [bitAt, h]
  cases b <;> rfl

/-! ## The beacon (R177, R179) -/

/-- The 32 bits of a beacon that its CRC covers. -/
def beaconBody (cyc : Nat) (o f g : Bool) (gslot ticket : Nat) : Nat :=
  0xD3 * 2 ^ 24 + cyc * 2 ^ 16 + b2n o * 2 ^ 15 + b2n f * 2 ^ 14 + b2n g * 2 ^ 13 + gslot * 2 ^ 10 + ticket

/-- The CRC of a beacon's four covered bytes. -/
def bodyCrc (w : Nat) : Nat := crc8 0xFF [w / 2 ^ 24, w / 2 ^ 16 % 256, w / 2 ^ 8 % 256, w % 256]

theorem beaconWord_eq (cyc : Nat) (o f g : Bool) (gslot ticket : Nat) :
    beaconWord cyc o f g gslot ticket =
      beaconBody cyc o f g gslot ticket * 256 + bodyCrc (beaconBody cyc o f g gslot ticket) := rfl

theorem bodyCrc_lt (w : Nat) : bodyCrc w < 256 := crc8_lt _ _ (by decide)

theorem b2n_le_one (b : Bool) : b2n b ≤ 1 := by cases b <;> decide

/-- Fields that keep their widths do not overlap in the covered bits. -/
theorem beaconBody_fields {cyc gslot ticket : Nat} (o f g : Bool) (hcyc : cyc < 256) (hslot : gslot < 8)
    (hticket : ticket < 256) :
    let w := beaconBody cyc o f g gslot ticket
    w < 2 ^ 32 ∧ getBits w ⟨31, 24⟩ = 0xD3 ∧ getBits w ⟨23, 16⟩ = cyc ∧ bitAt w 15 = o ∧ bitAt w 14 = f ∧
      bitAt w 13 = g ∧ getBits w ⟨12, 10⟩ = gslot ∧ getBits w ⟨9, 8⟩ = 0 ∧ getBits w ⟨7, 0⟩ = ticket := by
  intro w
  have ho := b2n_le_one o
  have hf := b2n_le_one f
  have hg := b2n_le_one g
  have hw : w = 0xD3 * 2 ^ 24 + cyc * 2 ^ 16 + b2n o * 2 ^ 15 + b2n f * 2 ^ 14 + b2n g * 2 ^ 13 + gslot * 2 ^ 10
    + ticket := rfl
  simp only [getBits]
  refine ⟨?_, ?_, ?_, bitAt_eq_of_div_mod ?_, bitAt_eq_of_div_mod ?_, bitAt_eq_of_div_mod ?_, ?_, ?_, ?_⟩ <;> omega

/-- The covered bytes are the four above the CRC. -/
theorem bodyCrc_eq {w c : Nat} (hw : w < 2 ^ 32) (hc : c < 256) :
    bodyCrc w = crc8 0xFF [getBits (w * 256 + c) ⟨39, 32⟩, getBits (w * 256 + c) ⟨31, 24⟩,
      getBits (w * 256 + c) ⟨23, 16⟩, getBits (w * 256 + c) ⟨15, 8⟩] := by
  have h3 : getBits (w * 256 + c) ⟨39, 32⟩ = w / 2 ^ 24 :=
    (getBits_word_above_byte hc 31 24).trans (Nat.mod_eq_of_lt (Nat.div_lt_of_lt_mul hw))
  have h2 : getBits (w * 256 + c) ⟨31, 24⟩ = w / 2 ^ 16 % 256 := getBits_word_above_byte hc 23 16
  have h1 : getBits (w * 256 + c) ⟨23, 16⟩ = w / 2 ^ 8 % 256 := getBits_word_above_byte hc 15 8
  have h0 : getBits (w * 256 + c) ⟨15, 8⟩ = w % 256 :=
    (getBits_word_above_byte hc 7 0).trans (by simp [getBits])
  rw [h3, h2, h1, h0, bodyCrc]

/-! ## Cycle numbers (R174) -/

/-- The cycle that starts 2,000 ns later is the next one. -/
theorem cycleNumber_next (c phase : Nat) : cycleNumber (c + 2000) phase = (cycleNumber c phase + 1) % 256 := by
  unfold cycleNumber
  rw [Int.fdiv_eq_ediv_of_nonneg _ (by decide), Int.fdiv_eq_ediv_of_nonneg _ (by decide)]
  omega

/-- Settles O28: the fields of the covered bits, each eight bits up in the word, and the CRC byte below them. -/
theorem beaconsAreGood : Obligations.BeaconsAreGood := by
  unfold Obligations.BeaconsAreGood
  refine ⟨fun cyc gslot ticket o f g hcyc hslot hticket => ?_, cycleNumber_next⟩
  have hcrc := bodyCrc_lt (beaconBody cyc o f g gslot ticket)
  obtain ⟨hlt, hsync, hcycle, hopen, hff, hgv, hgslot, hreserved, htick⟩ := beaconBody_fields o f g hcyc hslot hticket
  intro w
  have hw : w = _ := beaconWord_eq cyc o f g gslot ticket
  rw [hw]
  refine ⟨by omega, (getBits_word_above_byte hcrc 31 24).trans hsync,
    (getBits_word_above_byte hcrc 23 16).trans hcycle, (bitAt_word_above_byte hcrc 15).trans hopen,
    (bitAt_word_above_byte hcrc 14).trans hff, (bitAt_word_above_byte hcrc 13).trans hgv,
    (getBits_word_above_byte hcrc 12 10).trans hgslot, (getBits_word_above_byte hcrc 9 8).trans hreserved,
    (getBits_word_above_byte hcrc 7 0).trans htick, ?_⟩
  rw [← bodyCrc_eq hlt hcrc]
  simp only [getBits]
  omega

end Sys2Proof.Machine
end

section
/-! The Varip ports: cycles, hint slots, joins and the commands of VB_CMD (R174, R180 to R186). -/

namespace Sys2Proof.Machine

/-! ## Ports -/

@[simp] theorem varipOf_updVarip_self (v : Nat) (f : Varip → Varip) (s : State) :
    varipOf (updVarip v f s) v = f (varipOf s v) := by rw [varipOf_updVarip, if_pos rfl]

theorem varipOf_of_onlyRegs {as : List Nat} {s t : State} (h : OnlyRegs as s t) (v : Nat) :
    varipOf t v = varipOf s v := by
  obtain ⟨-, -, hrest⟩ := h
  rw [hrest]
  rfl

theorem keepsRegs_updVarip {as : List Nat} {s t : State} (v : Nat) (f : Varip → Varip) (h : KeepsRegs as s t) :
    KeepsRegs as s (updVarip v f t) := fun a ha => (rd_updVarip v f t a).trans (h a ha)

/-- A bit of a register that hardware raises reads set. -/
theorem bitAt_rd_raiseWord (a : Nat) {i : Nat} (s : State) (hi : i < 32) :
    bitAt (rd (raiseWord a (2 ^ i) s) a) i = true := by
  have h := bitAt_fld_raiseWord a (f := wordBits) (i := i) s (by decide) (by decide) hi
  rwa [fld_wordBits, show wordBits.lo + i = i from Nat.zero_add i] at h

section
variable {v : Fin 16} {i : Fin 8}

/-- A slot's register is none of the port's others. -/
theorem vbSlot_ne : Reg.VB_SLOT v i ≠ Reg.VB_STAT v ∧ Reg.VB_SLOT v i ≠ Reg.VB_ERR v ∧
    Reg.VB_SLOT v i ≠ Reg.VB_JCNT v ∧ Reg.VB_SLOT v i ≠ Reg.VB_HINTS v ∧ Reg.VB_SLOT v i ≠ Reg.VB_EVT := by
  simp only [Reg.VB_SLOT, Reg.VB_STAT, Reg.VB_ERR, Reg.VB_JCNT, Reg.VB_HINTS, Reg.VB_EVT]
  omega

theorem vbCounter_ne_slot : Reg.VB_ERR v ≠ Reg.VB_SLOT v i ∧ Reg.VB_JCNT v ≠ Reg.VB_SLOT v i ∧
    Reg.VB_HINTS v ≠ Reg.VB_SLOT v i := by
  obtain ⟨-, herr, hjcnt, hhints, -⟩ := vbSlot_ne (v := v) (i := i)
  exact ⟨herr.symm, hjcnt.symm, hhints.symm⟩

theorem vbErr_ne : Reg.VB_ERR v ≠ Reg.VB_STAT v ∧ Reg.VB_ERR v ≠ Reg.VB_JCNT v ∧ Reg.VB_ERR v ≠ Reg.VB_EVT := by
  simp only [Reg.VB_STAT, Reg.VB_ERR, Reg.VB_JCNT, Reg.VB_EVT]
  omega

theorem vbJcnt_ne : Reg.VB_JCNT v ≠ Reg.VB_STAT v ∧ Reg.VB_JCNT v ≠ Reg.VB_ERR v ∧
    Reg.VB_JCNT v ≠ Reg.VB_EVT := by
  simp only [Reg.VB_STAT, Reg.VB_ERR, Reg.VB_JCNT, Reg.VB_EVT]
  omega

theorem vbHints_ne : Reg.VB_HINTS v ≠ Reg.VB_STAT v ∧ Reg.VB_HINTS v ≠ Reg.VB_JCNT v ∧
    Reg.VB_HINTS v ≠ Reg.VB_EVT := by
  simp only [Reg.VB_STAT, Reg.VB_HINTS, Reg.VB_JCNT, Reg.VB_EVT]
  omega

end

/-! ## Cycles (R174, R183) -/

theorem cycleNumber_lt (ns phase : Nat) : cycleNumber ns phase < 256 := by
  unfold cycleNumber
  omega

/-- A cycle shows its number last. -/
theorem varipCycle_shows (v : Nat) (s : State) : ∃ f u, varipCycle v s =
    updVarip v f (setFld (Reg.VB_STAT v) Fld.VB_STAT_CYC (cycleNumber (now s) (varipPhase s v)) u) := by
  unfold varipCycle
  dsimp only
  split <;> exact ⟨_, _, rfl⟩

theorem fld_varipCycle (v : Nat) (s : State) :
    fld (varipCycle v s) (Reg.VB_STAT v) Fld.VB_STAT_CYC = cycleNumber (now s) (varipPhase s v) := by
  obtain ⟨f, u, hcycle⟩ := varipCycle_shows v s
  rw [hcycle, fld_updVarip, fld_setFld_self _ _ _ _ (by decide) (by decide)]
  exact Nat.mod_eq_of_lt (cycleNumber_lt _ _)

/-- A waiting revoke goes out with the beacon, and the cycle grants no slot. -/
theorem varipCycle_revoke_effect {v i : Nat} {rest : List Nat} {s : State}
    (h : (varipOf s v).revokes = i :: rest) :
    KeepsRegs [Reg.VB_STAT v] s (varipCycle v s) ∧ (varipOf (varipCycle v s) v).revokes = rest := by
  simp only [varipCycle, h]
  exact ⟨keepsRegs_updVarip _ _ (keepsRegs_setFld _ _ _ (keepsRegs_refl _ s) (by simp)),
    by rw [varipOf_updVarip_self]⟩

/-! ## Slot states (R181, R183, R184) -/

theorem onlyRegs_slotEnter (v i st : Nat) (s : State) :
    OnlyRegs [Reg.VB_SLOT v i, Reg.VB_STAT v] s (slotEnter v i st s) :=
  onlyRegs_setFld _ _ _ (onlyRegs_setFld _ _ _ (onlyRegs_refl _ s) (by simp)) (by simp)

/-- A join or a drop raises its bit of VB_EVT and is counted in VB_JCNT. -/
theorem onlyRegs_slotEvent (v m : Nat) (f : Bits) (s : State) :
    OnlyRegs [Reg.VB_JCNT v, Reg.VB_EVT] s (incFld (Reg.VB_JCNT v) f (raiseWord Reg.VB_EVT m s)) :=
  onlyRegs_incFld _ _ (onlyRegs_raiseWord _ _ (onlyRegs_refl _ s) (by simp)) (by simp)

/-- A drop shows in its bit of VB_EVT and in its count. -/
theorem slotGone_effect (v : Fin 16) (s : State) :
    let jc := Reg.VB_JCNT v
    let t := slotGone v s
    bitAt (rd t Reg.VB_EVT) (16 + v.val) = true ∧
      fld t jc Fld.VB_JCNT_DROPS = min (fld s jc Fld.VB_JCNT_DROPS + 1) 255 ∧ OnlyRegs [jc, Reg.VB_EVT] s t := by
  intro jc t
  obtain ⟨-, -, hne⟩ := vbJcnt_ne (v := v)
  have hraise := onlyRegs_raiseWord Reg.VB_EVT (2 ^ (16 + v.val)) (onlyRegs_refl [Reg.VB_EVT] s) (by simp)
  refine ⟨?_, ?_, onlyRegs_slotEvent v _ _ s⟩
  · exact (congrArg (bitAt · _) (rd_setFld_ne _ _ _ _ _ hne.symm)).trans (bitAt_rd_raiseWord _ _ (by omega))
  · refine (fld_incFld_self jc _ _ (by decide) (by decide)).trans ?_
    rw [fld_of_keepsRegs _ hraise.1 (by simpa using hne)]
    rfl

/-- A slot that is revoked and CLOSED, the drop counted: the eighth miss of a MEMBER, and EVICT. -/
def slotClose (v i : Nat) (s : State) : State := slotGone v (slotEnter v i 3 (slotRevoke v i s))

section
variable {v : Fin 16} {i : Fin 8}

/-- Beside its state, a slot keeps its fields when it enters another. -/
theorem fld_slotEnter {st : Nat} (s : State) (g : Bits) :
    fld (slotEnter v i st s) (Reg.VB_SLOT v i) g =
      fld (setFld (Reg.VB_SLOT v i) Fld.VB_SLOT_STATE st s) (Reg.VB_SLOT v i) g :=
  fld_setFld_ne _ _ _ _ _ _ (by simp [vbSlot_ne])

theorem slotState_slotEnter {st : Nat} (s : State) (hst : st < 8) : slotState (slotEnter v i st s) v i = st :=
  (fld_slotEnter s _).trans ((fld_setFld_self _ _ _ _ (by decide) (by decide)).trans (Nat.mod_eq_of_lt hst))

theorem missrun_slotEnter {st : Nat} (s : State) : fld (slotEnter v i st s) (Reg.VB_SLOT v i) Fld.VB_SLOT_MISSRUN =
    fld s (Reg.VB_SLOT v i) Fld.VB_SLOT_MISSRUN :=
  (fld_slotEnter s _).trans (fld_setFld_other _ _ _ _ _ (by decide) (by decide) (by decide) (by decide))

/-- A slot with a revoke ordered enters another state. -/
theorem slotRevoked_effect (v : Fin 16) (i : Fin 8) {st : Nat} (s : State) (hst : st < 8) :
    let t := slotEnter v i st (slotRevoke v i s)
    slotState t v i = st ∧ (varipOf t v).revokes = (varipOf s v).revokes ++ [i.val] ∧
      KeepsRegs [Reg.VB_SLOT v i, Reg.VB_STAT v] s t := by
  intro t
  have henter := onlyRegs_slotEnter v i st (slotRevoke v i s)
  refine ⟨slotState_slotEnter _ hst, ?_,
    keepsRegs_trans (keepsRegs_updVarip _ _ (keepsRegs_refl _ s)) henter.1⟩
  rw [varipOf_of_onlyRegs henter, slotRevoke, varipOf_updVarip_self]

theorem slotClose_effect (v : Fin 16) (i : Fin 8) (s : State) :
    let jc := Reg.VB_JCNT v
    let t := slotClose v i s
    slotState t v i = 3 ∧ (varipOf t v).revokes = (varipOf s v).revokes ++ [i.val] ∧
      bitAt (rd t Reg.VB_EVT) (16 + v.val) = true ∧
      fld t jc Fld.VB_JCNT_DROPS = min (fld s jc Fld.VB_JCNT_DROPS + 1) 255 ∧
      KeepsRegs [Reg.VB_SLOT v i, jc, Reg.VB_EVT, Reg.VB_STAT v] s t := by
  intro jc t
  obtain ⟨hstate, hrevokes, hkeeps⟩ := slotRevoked_effect v i (st := 3) s (by decide)
  obtain ⟨hevt, hdrops, hgone⟩ := slotGone_effect v (slotEnter v i 3 (slotRevoke v i s))
  refine ⟨(fld_of_keepsRegs _ hgone.1 (by simp [vbSlot_ne])).trans hstate,
    (congrArg Varip.revokes (varipOf_of_onlyRegs hgone v)).trans hrevokes, hevt, hdrops.trans ?_,
    keepsRegs_trans (keepsRegs_mono (by simp) hkeeps) (keepsRegs_mono (by simp [jc]) hgone.1)⟩
  rw [fld_of_keepsRegs _ hkeeps (by simp [vbJcnt_ne, vbCounter_ne_slot])]

theorem setMissrun_effect (v : Fin 16) (i : Fin 8) {n : Nat} (s : State) (hn : n < 16) :
    let a := Reg.VB_SLOT v i
    let t := setFld a Fld.VB_SLOT_MISSRUN n s
    fld t a Fld.VB_SLOT_MISSRUN = n ∧ slotState t v i = slotState s v i ∧ OnlyRegs [a] s t :=
  ⟨(fld_setFld_self _ _ _ _ (by decide) (by decide)).trans (Nat.mod_eq_of_lt hn),
    fld_setFld_other _ _ _ _ _ (by decide) (by decide) (by decide) (by decide),
    onlyRegs_setFld _ _ _ (onlyRegs_refl _ s) (by simp)⟩

/-! ## Misses (R180, R181, R183, R184) -/

section
variable {s : State}

/-- A miss is counted in field e of VB_ERR, if its class has one: an empty slot has none. -/
def countMiss (v : Nat) (e : Option Bits) (s : State) : State := e.elim s fun f => incFld (Reg.VB_ERR v) f s

theorem onlyRegs_countMiss (v : Nat) (e : Option Bits) (s : State) : OnlyRegs [Reg.VB_ERR v] s (countMiss v e s) := by
  cases e with
  | none => exact onlyRegs_refl _ s
  | some f => exact onlyRegs_incFld _ _ (onlyRegs_refl _ s) (by simp)

/-- Slot i of port v is classed. -/
def slotSeen (v i : Nat) (s : State) : State := updVarip v (fun x => { x with seen := i :: x.seen }) s

theorem rd_countMiss_slotSeen (v i : Nat) (e : Option Bits) (s : State) (a : Nat) :
    rd (countMiss v e (slotSeen v i s)) a = rd (countMiss v e s) a := by cases e <;> rfl

/-- The slot's own register is still as it was when the miss has been counted in VB_ERR. -/
theorem slot_of_countedMiss (v : Fin 16) (i : Fin 8) (e : Option Bits) (s : State) :
    let u := countMiss v e (slotSeen v i s)
    fld u (Reg.VB_SLOT v i) Fld.VB_SLOT_MISSRUN = fld s (Reg.VB_SLOT v i) Fld.VB_SLOT_MISSRUN ∧
      slotState u v i = slotState s v i := by
  have hcount := (onlyRegs_countMiss v e (slotSeen v i s)).1
  have hslot : Reg.VB_SLOT v i ∉ [Reg.VB_ERR v] := by simp [vbSlot_ne]
  exact ⟨fld_of_keepsRegs _ hcount hslot, fld_of_keepsRegs _ hcount hslot⟩

theorem hintSlot_of_miss {v i w : Nat} {c : SlotClass} {e : Option Bits}
    (hc : (c, e) ∈ [(SlotClass.empty, none), (.badCrc, some Fld.VB_ERR_CRC), (.badTag, some Fld.VB_ERR_TAG)])
    (hclass : classifyHint s v i w = c) : hintSlot v i w s = slotMiss v i (countMiss v e (slotSeen v i s)) := by
  simp only [List.mem_cons, List.not_mem_nil, or_false, Prod.mk.injEq] at hc
  obtain ⟨rfl, rfl⟩ | ⟨rfl, rfl⟩ | ⟨rfl, rfl⟩ := hc <;> simp only [hintSlot, hclass] <;> rfl

end

/-- Slot i is classed and its miss counted; n is the run of misses that stands then. -/
def slotMissed (v i : Nat) (e : Option Bits) (n : Nat) (s : State) : State :=
  setFld (Reg.VB_SLOT v i) Fld.VB_SLOT_MISSRUN n (countMiss v e (slotSeen v i s))

section
variable {e : Option Bits} {s : State}

/-- A counted miss shows in the slot's run and in VB_ERR. -/
theorem slotMissed_effect (v : Fin 16) (i : Fin 8) (e : Option Bits) (s : State) {n : Nat} (hn : n < 16) :
    let a := Reg.VB_SLOT v i
    let err := Reg.VB_ERR v
    let t := slotMissed v i e n s
    fld t a Fld.VB_SLOT_MISSRUN = n ∧ rd t err = rd (countMiss v e s) err ∧ slotState t v i = slotState s v i ∧
      KeepsRegs [a, err] s t ∧ (varipOf t v).revokes = (varipOf s v).revokes := by
  intro a err t
  have hcount := onlyRegs_countMiss v e (slotSeen v i s)
  have hseen : KeepsRegs [err] s (slotSeen v i s) := keepsRegs_updVarip _ _ (keepsRegs_refl _ s)
  obtain ⟨hrun, hstate, honly⟩ := setMissrun_effect v i (countMiss v e (slotSeen v i s)) hn
  refine ⟨hrun, ?_, hstate.trans (fld_of_keepsRegs _ (keepsRegs_trans hseen hcount.1) (by simp [err, vbSlot_ne])),
    keepsRegs_trans (keepsRegs_mono (by simp) (keepsRegs_trans hseen hcount.1)) (keepsRegs_mono (by simp [a]) honly.1),
    ?_⟩
  · exact (honly.1 _ (by simp [err, vbCounter_ne_slot])).trans (rd_countMiss_slotSeen _ _ _ _ _)
  · rw [show varipOf t v = _ from varipOf_of_onlyRegs honly v, varipOf_of_onlyRegs hcount, slotSeen,
      varipOf_updVarip_self]

variable {w : Nat} {c : SlotClass}
  (hc : (c, e) ∈ [(SlotClass.empty, none), (.badCrc, some Fld.VB_ERR_CRC), (.badTag, some Fld.VB_ERR_TAG)])
  (hclass : classifyHint s v i w = c)
include hc hclass

/-- A miss short of the eighth is counted, and that is all. -/
theorem hintSlot_of_few (hfew : fld s (Reg.VB_SLOT v i) Fld.VB_SLOT_MISSRUN < 7) :
    hintSlot v i w s = slotMissed v i e (fld s (Reg.VB_SLOT v i) Fld.VB_SLOT_MISSRUN + 1) s := by
  have hmin : min 8 (fld s (Reg.VB_SLOT v i) Fld.VB_SLOT_MISSRUN + 1) =
      fld s (Reg.VB_SLOT v i) Fld.VB_SLOT_MISSRUN + 1 := by omega
  have hlt : fld s (Reg.VB_SLOT v i) Fld.VB_SLOT_MISSRUN + 1 < 8 := by omega
  obtain ⟨hrun, -⟩ := slot_of_countedMiss v i e s
  simp only [hintSlot_of_miss hc hclass, slotMiss, hrun, hmin, if_pos hlt]
  rfl

/-- The eighth miss is counted, and then ends what the slot was. -/
theorem hintSlot_of_eighth (heighth : 7 ≤ fld s (Reg.VB_SLOT v i) Fld.VB_SLOT_MISSRUN) :
    hintSlot v i w s = if slotState s v i = 2 then slotClose v i (slotMissed v i e 8 s)
      else if slotState s v i = 1 then slotEnter v i 0 (slotRevoke v i (slotMissed v i e 8 s))
      else slotMissed v i e 8 s := by
  have hmin : min 8 (fld s (Reg.VB_SLOT v i) Fld.VB_SLOT_MISSRUN + 1) = 8 := by omega
  obtain ⟨hrun, hstate⟩ := slot_of_countedMiss v i e s
  simp only [hintSlot_of_miss hc hclass, slotMiss, hrun, hstate, hmin]
  rfl

end

/-- A MEMBER is closed on top of its eighth miss. -/
theorem slotClose_missed_effect (v : Fin 16) (i : Fin 8) (e : Option Bits) (s : State) :
    let err := Reg.VB_ERR v
    let jc := Reg.VB_JCNT v
    let t := slotClose v i (slotMissed v i e 8 s)
    slotState t v i = 3 ∧ (varipOf t v).revokes = (varipOf s v).revokes ++ [i.val] ∧
      bitAt (rd t Reg.VB_EVT) (16 + v.val) = true ∧ rd t err = rd (countMiss v e s) err ∧
      fld t jc Fld.VB_JCNT_DROPS = min (fld s jc Fld.VB_JCNT_DROPS + 1) 255 ∧
      KeepsRegs [Reg.VB_SLOT v i, err, jc, Reg.VB_EVT, Reg.VB_STAT v] s t := by
  intro err jc t
  obtain ⟨-, hcounted, -, hkept, hrevokes⟩ := slotMissed_effect v i e s (n := 8) (by decide)
  obtain ⟨hstate, hrevoked, hevt, hdrops, hclosed⟩ := slotClose_effect v i (slotMissed v i e 8 s)
  rw [hrevokes] at hrevoked
  rw [fld_of_keepsRegs _ hkept (by simp [vbJcnt_ne, vbCounter_ne_slot])] at hdrops
  exact ⟨hstate, hrevoked, hevt, (hclosed _ (by simp [err, vbErr_ne, vbCounter_ne_slot])).trans hcounted, hdrops,
    keepsRegs_trans (keepsRegs_mono (by simp [err]) hkept) (keepsRegs_mono (by simp [err, jc]) hclosed)⟩

/-- A GRANTED slot is revoked and FREE on top of its eighth miss (log 53). -/
theorem slotFreed_missed_effect (v : Fin 16) (i : Fin 8) (e : Option Bits) (s : State) :
    let err := Reg.VB_ERR v
    let t := slotEnter v i 0 (slotRevoke v i (slotMissed v i e 8 s))
    slotState t v i = 0 ∧ (varipOf t v).revokes = (varipOf s v).revokes ++ [i.val] ∧
      rd t err = rd (countMiss v e s) err ∧ KeepsRegs [Reg.VB_SLOT v i, err, Reg.VB_STAT v] s t := by
  intro err t
  obtain ⟨-, hcounted, -, hkept, hrevokes⟩ := slotMissed_effect v i e s (n := 8) (by decide)
  obtain ⟨hstate, hrevoked, hfreed⟩ := slotRevoked_effect v i (slotMissed v i e 8 s) (st := 0) (by decide)
  rw [hrevokes] at hrevoked
  exact ⟨hstate, hrevoked, (hfreed _ (by simp [err, vbErr_ne, vbCounter_ne_slot])).trans hcounted,
    keepsRegs_trans (keepsRegs_mono (by simp [err]) hkept) (keepsRegs_mono (by simp [err]) hfreed)⟩

/-! ## Hints heard (R180, R181) -/

/-- A good or refused hint ends the run of misses and makes a GRANTED slot MEMBER. -/
theorem slotHeard_effect (v : Fin 16) (i : Fin 8) (s : State) :
    let a := Reg.VB_SLOT v i
    let t := slotHeard v i s
    fld t a Fld.VB_SLOT_MISSRUN = 0 ∧ slotState t v i = (if slotState s v i = 1 then 2 else slotState s v i) ∧
      OnlyRegs [a, Reg.VB_STAT v, Reg.VB_JCNT v, Reg.VB_EVT] s t := by
  intro a t
  obtain ⟨hrun, hstate, honly⟩ := setMissrun_effect v i (n := 0) s (by decide)
  by_cases hgranted : slotState s v i = 1
  · have ht : t = incFld (Reg.VB_JCNT v) Fld.VB_JCNT_JOINS (raiseWord Reg.VB_EVT (2 ^ v.val)
        (slotEnter v i 2 (setFld a Fld.VB_SLOT_MISSRUN 0 s))) := if_pos hgranted
    have hjoined : OnlyRegs [Reg.VB_JCNT v, Reg.VB_EVT] _ t := ht ▸ onlyRegs_slotEvent v _ _ _
    have ha : a ∉ [Reg.VB_JCNT v, Reg.VB_EVT] := by simp [a, vbSlot_ne]
    rw [if_pos hgranted]
    exact ⟨(fld_of_keepsRegs _ hjoined.1 ha).trans ((missrun_slotEnter _).trans hrun),
      (fld_of_keepsRegs _ hjoined.1 ha).trans (slotState_slotEnter _ (by decide)),
      onlyRegs_trans (onlyRegs_trans (onlyRegs_mono (by simp [a]) honly)
        (onlyRegs_mono (by simp [a]) (onlyRegs_slotEnter v i 2 _))) (onlyRegs_mono (by simp [a]) hjoined)⟩
  · rw [if_neg hgranted, show t = _ from if_neg hgranted]
    exact ⟨hrun, hstate, onlyRegs_mono (by simp [a]) honly⟩

section
variable {w : Nat} {s : State}

theorem hintSlot_of_good (h : classifyHint s v i w = .good) : hintSlot v i w s =
    updVarip v (fun x => { x with flight := x.flight ++ [hintOf (varipOf s v) v i w] })
      (incFld (Reg.VB_HINTS v) wordBits (setFld (Reg.VB_SLOT v i) Fld.VB_SLOT_RAIL (hintOf (varipOf s v) v i w).rail
        (slotHeard v i (slotSeen v i s)))) := by
  simp only [hintSlot, h]
  rfl

/-- A good hint is queued for its rail and counted. -/
theorem hintSlot_good_effect (h : classifyHint s v i w = .good) :
    let a := Reg.VB_SLOT v i
    let t := hintSlot v i w s
    (varipOf t v).flight = (varipOf s v).flight ++ [hintOf (varipOf s v) v i w] ∧
      fld t a Fld.VB_SLOT_MISSRUN = 0 ∧
      slotState t v i = (if slotState s v i = 1 then 2 else slotState s v i) ∧
      fld t a Fld.VB_SLOT_RAIL = (hintOf (varipOf s v) v i w).rail ∧
      rd t (Reg.VB_HINTS v) = min (rd s (Reg.VB_HINTS v) + 1) 4294967295 := by
  intro a t
  obtain ⟨hrun, hstate, honly⟩ := slotHeard_effect v i (slotSeen v i s)
  have hcount := onlyRegs_incFld (Reg.VB_HINTS v) wordBits (onlyRegs_refl [Reg.VB_HINTS v]
    (setFld a Fld.VB_SLOT_RAIL (hintOf (varipOf s v) v i w).rail (slotHeard v i (slotSeen v i s)))) (by simp)
  have hrail := onlyRegs_setFld a Fld.VB_SLOT_RAIL (hintOf (varipOf s v) v i w).rail
    (onlyRegs_refl [a] (slotHeard v i (slotSeen v i s))) (by simp)
  have ha : a ∉ [Reg.VB_HINTS v] := by simp [a, vbSlot_ne]
  rw [show t = _ from hintSlot_of_good h]
  refine ⟨?_, (fld_of_keepsRegs _ hcount.1 ha).trans ((fld_setFld_other _ _ _ _ _ (by decide) (by decide) (by decide)
    (by decide)).trans hrun), (fld_of_keepsRegs _ hcount.1 ha).trans ((fld_setFld_other _ _ _ _ _ (by decide)
    (by decide) (by decide) (by decide)).trans hstate), ?_, ?_⟩
  · rw [varipOf_updVarip_self, varipOf_of_onlyRegs hcount, varipOf_of_onlyRegs hrail, varipOf_of_onlyRegs honly,
      slotSeen, varipOf_updVarip_self]
  · rw [fld_updVarip, fld_of_keepsRegs _ hcount.1 ha, fld_setFld_self _ _ _ _ (by decide) (by decide)]
    exact Nat.mod_mod _ _
  · rw [rd_updVarip, rd_incFld_wordBits, hrail.1 _ (by simp [a, vbCounter_ne_slot]),
      honly.1 _ (by simp [vbHints_ne, vbCounter_ne_slot])]
    rfl

theorem hintSlot_of_refused (h : classifyHint s v i w = .refused) :
    hintSlot v i w s = incFld (Reg.VB_ERR v) Fld.VB_ERR_TAG (slotHeard v i (slotSeen v i s)) := by
  simp only [hintSlot, h]
  rfl

/-- A refused hint is counted in TAG and not queued. -/
theorem hintSlot_refused_effect (h : classifyHint s v i w = .refused) :
    let a := Reg.VB_SLOT v i
    let err := Reg.VB_ERR v
    let t := hintSlot v i w s
    (varipOf t v).flight = (varipOf s v).flight ∧ fld t a Fld.VB_SLOT_MISSRUN = 0 ∧
      slotState t v i = (if slotState s v i = 1 then 2 else slotState s v i) ∧
      fld t err Fld.VB_ERR_TAG = min (fld s err Fld.VB_ERR_TAG + 1) 65535 := by
  intro a err t
  obtain ⟨hrun, hstate, honly⟩ := slotHeard_effect v i (slotSeen v i s)
  obtain ⟨htag, hcount⟩ := incFld_effect (a := err) (f := Fld.VB_ERR_TAG) (slotHeard v i (slotSeen v i s)) (by decide)
    (by decide)
  rw [show t = _ from hintSlot_of_refused h]
  have ha : a ∉ [err] := by simp [a, err, vbSlot_ne]
  refine ⟨?_, (fld_of_keepsRegs _ hcount.1 ha).trans hrun, (fld_of_keepsRegs _ hcount.1 ha).trans hstate, htag.trans ?_⟩
  · rw [varipOf_of_onlyRegs hcount, varipOf_of_onlyRegs honly, slotSeen, varipOf_updVarip_self]
  · rw [fld_of_keepsRegs _ honly.1 (by simp [err, vbErr_ne, vbCounter_ne_slot])]
    rfl

end

/-! ## Joins (R182) -/

section
variable {s : State} {j : BitVec 16}

theorem joinTicket_mod (j : BitVec 16) : j.toNat / 256 % 256 = j.toNat / 256 := by
  have hj := j.isLt
  omega

/-- A bad join word is counted, and none waits for it. -/
theorem joinWord_bad_effect (h : crc8 0xFF [j.toNat / 256] ≠ j.toNat % 256) :
    let jc := Reg.VB_JCNT v
    let t := joinWord v j.toNat s
    fld t jc Fld.VB_JCNT_JBAD = min (fld s jc Fld.VB_JCNT_JBAD + 1) 65535 ∧ KeepsRegs [jc] s t ∧
      (varipOf t v).joins = (varipOf s v).joins := by
  intro jc t
  have ht : t = incFld jc Fld.VB_JCNT_JBAD (updVarip v (fun x => { x with open_ := false }) s) := by
    simp only [t, joinWord, joinTicket_mod, if_pos h, jc]
  obtain ⟨hbad, honly⟩ := incFld_effect (a := jc) (f := Fld.VB_JCNT_JBAD)
    (updVarip v (fun x => { x with open_ := false }) s) (by decide) (by decide)
  rw [ht]
  refine ⟨hbad, keepsRegs_trans (keepsRegs_updVarip _ _ (keepsRegs_refl _ s)) honly.1, ?_⟩
  rw [varipOf_of_onlyRegs honly, varipOf_updVarip_self]

/-- A good join word with a ticket waits for its beacon. -/
theorem joinWord_good_effect (h : crc8 0xFF [j.toNat / 256] = j.toNat % 256) (hticket : 256 ≤ j.toNat) :
    (varipOf (joinWord v j.toNat s) v).joins =
        (varipOf s v).joins ++ [(j.toNat / 256, (varipOf s v).start - 1)] ∧
      (joinWord v j.toNat s).regs = s.regs := by
  have hcrc : ¬crc8 0xFF [j.toNat / 256] ≠ j.toNat % 256 := not_not_intro h
  have hsome : ¬j.toNat / 256 = 0 := by omega
  simp only [joinWord, joinTicket_mod, if_neg hcrc, if_neg hsome, varipOf_updVarip_self]
  exact ⟨trivial, rfl⟩

end

/-! ## VB_CMD (R181, R184 to R186) -/

/-- A refused command only sets CMDREF. -/
theorem vbRefuse_effect (v : Nat) (s : State) :
    flag (vbRefuse v s) (Reg.VB_STAT v) Fld.VB_STAT_CMDREF = true ∧ OnlyRegs [Reg.VB_STAT v] s (vbRefuse v s) :=
  ⟨flag_raiseFlag_self _ 30 s (by decide), onlyRegs_raiseFlag _ _ (onlyRegs_refl _ s) (by simp)⟩

theorem vbReopen_of_closed {s : State} (h : slotState s v i = 3) : vbReopen v i s = slotEnter v i 0 s := if_pos h

theorem vbEvict_of_held {s : State} (h : slotState s v i = 1 ∨ slotState s v i = 2) :
    vbEvict v i s = slotClose v i s := if_pos h

/-- REOPEN of a slot that is not CLOSED and EVICT of one that no partner holds are refused. -/
theorem exec_vbCmd_refused {s : State} {m : Master} {c : Instr} (hw : CanWrite s m (Reg.VB_CMD v))
    (hc : (c = .vbReopen m v i ∧ slotState s v i ≠ 3) ∨
      (c = .vbEvict m v i ∧ slotState s v i ≠ 1 ∧ slotState s v i ≠ 2)) : exec c s = .next (vbRefuse v s) := by
  obtain ⟨rfl, hopen⟩ | ⟨rfl, hgranted, hmember⟩ := hc
  · exact (regWriteBy_eq hw).trans (congrArg _ (if_neg hopen))
  · exact (regWriteBy_eq hw).trans (congrArg _ (if_neg (not_or.mpr ⟨hgranted, hmember⟩)))

end

/-- Settles O27, a command at a time; a hint slot, by the class of its word and the run of misses. -/
theorem varipCommandsRun : Obligations.VaripCommandsRun := by
  unfold Obligations.VaripCommandsRun
  intro s m v i w j x k y a err jc run heard
  refine ⟨fun ha hdue => ?_, fun ha hdue => ⟨fun hgood => ?_, fun hrefused => ?_, fun c e hc hclass => ?_⟩,
    fun ha hwin => ⟨fun hbad => ?_, fun hgood hticket => ?_⟩,
    fun hw => ⟨fun hclosed => ?_, fun hheld => ?_, fun c hc => ?_⟩, fun hw => ?_, fun hw => ?_⟩
  -- VARIP_CYCLE
  · exact runs_of_eq (live_eq ha hdue) ⟨rfl, fld_varipCycle v s, fun _ _ => varipCycle_revoke_effect⟩
  -- HINT_SLOT: a good word, a refused one, and a miss
  · exact runs_of_eq (live_eq ha hdue) (hintSlot_good_effect hgood)
  · exact runs_of_eq (live_eq ha hdue) (hintSlot_refused_effect hrefused)
  · refine ⟨fun hfew => ?_, fun heighth hmember => ?_, fun heighth hgranted => ?_, fun heighth hng hnm => ?_⟩ <;>
      refine runs_of_eq (live_eq ha hdue) ?_
    · obtain ⟨hrun, hcounted, hstate, hkept, -⟩ := slotMissed_effect v i e s (n := run + 1) (by omega)
      rw [hintSlot_of_few hc hclass hfew]
      exact ⟨hrun, hcounted, hstate, hkept⟩
    · rw [hintSlot_of_eighth hc hclass heighth, if_pos hmember]
      exact slotClose_missed_effect v i e s
    · rw [hintSlot_of_eighth hc hclass heighth, if_neg (by omega), if_pos hgranted]
      exact slotFreed_missed_effect v i e s
    · obtain ⟨hrun, hcounted, hstate, hkept, -⟩ := slotMissed_effect v i e s (n := 8) (by decide)
      rw [hintSlot_of_eighth hc hclass heighth, if_neg hnm, if_neg hng]
      exact ⟨hrun, hcounted, hstate, hkept⟩
  -- JOIN_WORD
  · exact runs_of_eq (live_eq ha hwin) (joinWord_bad_effect hbad)
  · exact runs_of_eq (live_eq ha hwin) (joinWord_good_effect hgood hticket)
  -- VB_REOPEN, VB_EVICT
  · refine runs_of_eq (regWriteBy_eq hw) ?_
    rw [vbReopen_of_closed hclosed]
    exact ⟨slotState_slotEnter s (by decide), (onlyRegs_slotEnter v i 0 s).1⟩
  · refine runs_of_eq (regWriteBy_eq hw) ?_
    rw [vbEvict_of_held hheld]
    obtain ⟨hstate, hrevokes, -, hdrops, hkept⟩ := slotClose_effect v i s
    exact ⟨hstate, hrevokes, hdrops, hkept⟩
  · exact runs_of_eq (exec_vbCmd_refused hw hc) (vbRefuse_effect v s)
  -- VB_CFG_WRITE, VB_COUNTER_CLEAR
  · exact runs_of_eq (regWriteBy_eq hw) rfl
  · exact runs_of_eq (regWriteBy_eq hw) (wr_zero_effect _ s)

end Sys2Proof.Machine
end

section
/-! The words of the engines' operations: what the fields of a composed word read, and that encoding and decoding undo
each other (R187 to R190, R207, R208). -/

namespace Sys2Proof.Machine

/-! ## The fields of a word (R188, R189) -/

theorem slice_eq (w hi lo : Nat) : slice w hi lo = w / 2 ^ lo % 2 ^ (hi - lo + 1) := rfl

theorem longWord_eq_some {op d a i w : Nat} : longWord op d a i = some w ↔
    w < 2 ^ 31 ∧ slice w 30 25 = op ∧ slice w 24 21 = d ∧ slice w 20 17 = a ∧ slice w 16 0 = i := by
  simp only [longWord, slice_eq, Option.ite_none_right_eq_some, Option.some.injEq]
  omega

theorem rrrWord_eq_some {op d a b fn w : Nat} : rrrWord op d a b fn = some w ↔
    w < 2 ^ 31 ∧ slice w 30 25 = op ∧ slice w 24 21 = d ∧ slice w 20 17 = a ∧ slice w 16 13 = b ∧
      slice w 12 0 = fn := by
  simp only [rrrWord, longWord, slice_eq, Option.ite_none_right_eq_some, Option.some.injEq]
  omega

theorem ri21Word_eq_some {op d i w : Nat} : ri21Word op d i = some w ↔
    w < 2 ^ 31 ∧ slice w 30 25 = op ∧ slice w 24 21 = d ∧ slice w 20 0 = i := by
  simp only [ri21Word, longWord, slice_eq, Option.ite_none_right_eq_some, Option.some.injEq]
  omega

theorem jWord_eq_some {op i w : Nat} : jWord op i = some w ↔
    w < 2 ^ 31 ∧ slice w 30 25 = op ∧ slice w 24 0 = i := by
  simp only [jWord, slice_eq, Option.ite_none_right_eq_some, Option.some.injEq]
  omega

theorem srWord_eq_some {op d s x w : Nat} (hop : op < 32) : srWord op d s x = some w ↔
    w < 2 ^ 15 ∧ slice w 14 10 = op ∧ slice w 9 6 = d ∧ slice w 5 2 = s ∧ slice w 1 0 = x := by
  simp only [srWord, slice_eq, Option.ite_none_right_eq_some, Option.some.injEq]
  omega

theorem siWord_eq_some {op d i w : Nat} (hop : op < 32) : siWord op d i = some w ↔
    w < 2 ^ 15 ∧ slice w 14 10 = op ∧ slice w 9 6 = d ∧ slice w 5 0 = i := by
  simp only [siWord, slice_eq, Option.ite_none_right_eq_some, Option.some.injEq]
  omega

/-! ## Signed fields -/

theorem pat32_mod {n : Nat} (hn : n ≤ 32) (x : Int) : pat 32 x % 2 ^ n = pat n x := by
  have hdvd : (2 : Int) ^ n ∣ 2 ^ 32 := mod_cast Nat.pow_dvd_pow 2 hn
  have hpos : 0 ≤ x % 2 ^ 32 := Int.emod_nonneg x (by decide)
  apply Int.natCast_inj.mp
  rw [Int.natCast_emod]
  unfold pat
  rw [Int.toNat_of_nonneg hpos, Int.toNat_of_nonneg (Int.emod_nonneg x (Int.ne_of_gt (Int.pow_pos (by decide)))), Int.natCast_pow]
  exact Int.emod_emod_of_dvd x hdvd

theorem pat_sx (n w : Nat) : pat n (sx n w) = w % 2 ^ n := by
  have hcast : (2 : Int) ^ n = (2 ^ n : Nat) := by simp
  have hlt : w % 2 ^ n < 2 ^ n := Nat.mod_lt _ (Nat.two_pow_pos n)
  have hmod : sx n w % 2 ^ n = (w % 2 ^ n : Nat) := by
    unfold sx
    dsimp only
    rw [hcast]
    split
    · exact Int.emod_eq_of_lt (by omega) (by omega)
    · rw [Int.sub_emod_right]
      exact Int.emod_eq_of_lt (by omega) (by omega)
  rw [pat, hmod, Int.toNat_natCast]

theorem immField_eq_some {n v i : Nat} (hn : n ≤ 32) : immField n v = some i ↔ i < 2 ^ n ∧ simm n i = v := by
  simp only [immField, Option.ite_none_right_eq_some, Option.some.injEq]
  constructor
  · rintro ⟨hv, rfl⟩
    exact ⟨Nat.mod_lt _ (Nat.two_pow_pos n), hv⟩
  · rintro ⟨hi, rfl⟩
    have hback : simm n i % 2 ^ n = i := by rw [simm, pat32_mod hn, pat_sx, Nat.mod_eq_of_lt hi]
    rw [hback]
    exact ⟨rfl, rfl⟩

theorem ofsField_eq_some {n i : Nat} {x : Int} : ofsField n x = some i ↔ i < 2 ^ n ∧ sx n i = x := by
  simp only [ofsField, Option.ite_none_right_eq_some, Option.some.injEq]
  constructor
  · rintro ⟨hx, rfl⟩
    exact ⟨pat_lt n x, hx⟩
  · rintro ⟨hi, rfl⟩
    rw [pat_sx, Nat.mod_eq_of_lt hi]
    exact ⟨rfl, rfl⟩

theorem slice_lt (w hi lo : Nat) : slice w hi lo < 2 ^ (hi - lo + 1) := Nat.mod_lt _ (Nat.two_pow_pos _)

/-! ## Three-register operations, immediates and shifts (R208) -/

section
variable {r : Row} {f : AluOp} {k d a b : Nat} {o : Op}

theorem decodeRrr_of_rrrFn (h : rrrFn r f = some k) : decodeRrr k d a b = some (.alu r f d (.reg a) (.reg b)) := by
  unfold rrrFn at h
  split at h
  case h_20 => cases h
  all_goals
    obtain rfl := Option.some.inj h
    rfl

theorem eq_of_decodeRrr (h : decodeRrr k d a b = some o) :
    (∃ r f, rrrFn r f = some k ∧ o = .alu r f d (.reg a) (.reg b)) ∨ (k = 0x13 ∧ d = 0 ∧ o = .cmp .cmp a (.reg b)) := by
  unfold decodeRrr at h
  dsimp only at h
  split at h
  case h_20 =>
    obtain ⟨hd, ho⟩ := Option.ite_none_right_eq_some.mp h
    exact .inr ⟨rfl, hd, (Option.some.inj ho).symm⟩
  case h_21 => cases h
  all_goals exact .inl ⟨_, _, rfl, (Option.some.inj h).symm⟩

theorem decodeShift_of_shiftKind {n : Nat} (h : shiftKind r f = some k) :
    decodeShift k d a n = some (.alu r f d (.reg a) (.imm n)) := by
  unfold shiftKind at h
  split at h
  case h_6 => cases h
  all_goals
    obtain rfl := Option.some.inj h
    rfl

theorem eq_of_decodeShift {n : Nat} (h : decodeShift k d a n = some o) :
    ∃ r f, riOp r f = none ∧ shiftKind r f = some k ∧ o = .alu r f d (.reg a) (.imm n) := by
  unfold decodeShift at h
  split at h
  case h_6 => cases h
  all_goals exact ⟨_, _, rfl, rfl, (Option.some.inj h).symm⟩

end

/-! ## Long words (R188, R208) -/

/-- The parameters of MFP and MTP in their 17-bit field (R208). -/
theorem accFields {x sh i : Nat} {r t : Bool} (hx : x < 4) (hsh : sh < 64)
    (hi : i = x + 4 * sh + 256 * b2n r + 512 * b2n t) :
    i < 1024 ∧ i % 4 = x ∧ slice i 7 2 = sh ∧ bitAt i 8 = r ∧ bitAt i 9 = t := by
  subst hi
  rw [slice_eq]
  cases r <;> cases t <;> simp [b2n, bitAt] <;> omega

section
variable {w : Nat} {o : Op}

theorem decodeLong_of_alu {r : Row} {f : AluOp} {d : Nat} {x y : Src} (h : encodeLong (.alu r f d x y) = some w) :
    w < 2 ^ 31 ∧ decodeLong w = some (.alu r f d x y) := by
  cases x with
  | reg a =>
    cases y with
    | reg b =>
      simp only [encodeLong, Option.bind_eq_some_iff, rrrWord_eq_some] at h
      obtain ⟨k, hk, hw, hop, hd, ha, hb, hfn⟩ := h
      exact ⟨hw, by simp [decodeLong, hop, hd, ha, hb, hfn, decodeRrr_of_rrrFn hk]⟩
    | imm v =>
      simp only [encodeLong] at h
      split at h
      · next op _ hri =>
        simp only [Option.bind_eq_some_iff, immField_eq_some (n := 17) (by decide), longWord_eq_some] at h
        obtain ⟨i, ⟨-, rfl⟩, hw, hop, hd, ha, hi⟩ := h
        refine ⟨hw, ?_⟩
        unfold riOp at hri
        split at hri <;> cases hri <;> simp [decodeLong, hop, hd, ha, hi]
      · next k _ hkind =>
        simp only [Option.ite_none_right_eq_some, longWord_eq_some] at h
        obtain ⟨hv, hw, hop, hd, ha, hi⟩ := h
        have hk : k < 5 := by
          unfold shiftKind at hkind
          split at hkind <;> cases hkind <;> decide
        have hlt : slice w 16 0 < 256 := by omega
        have hdiv : slice w 16 0 / 32 = k := by omega
        have hmod : slice w 16 0 % 32 = v := by omega
        exact ⟨hw, by simp [decodeLong, hop, hd, ha, hlt, hdiv, hmod, decodeShift_of_shiftKind hkind]⟩
      · cases h
  | imm v =>
    generalize ho : Op.alu r f d (.imm v) y = o at h ⊢
    unfold encodeLong at h
    split at h <;> cases ho
    · simp only [Option.bind_eq_some_iff, immField_eq_some (n := 21) (by decide), ri21Word_eq_some] at h
      obtain ⟨i, ⟨-, rfl⟩, hw, hop, hd, hi⟩ := h
      exact ⟨hw, by simp [decodeLong, hop, hd, hi]⟩
    · cases h

theorem decodeLong_of_cmp {r : Row} {a : Nat} {y : Src} (h : encodeLong (.cmp r a y) = some w) :
    w < 2 ^ 31 ∧ decodeLong w = some (.cmp r a y) := by
  generalize ho : Op.cmp r a y = o at h ⊢
  unfold encodeLong at h
  split at h <;> cases ho
  · obtain ⟨hw, hop, hd, ha, hb, hfn⟩ := rrrWord_eq_some.mp h
    exact ⟨hw, by simp [decodeLong, decodeRrr, hop, hd, ha, hb, hfn]⟩
  · simp only [Option.bind_eq_some_iff, immField_eq_some (n := 17) (by decide), longWord_eq_some] at h
    obtain ⟨i, ⟨-, rfl⟩, hw, hop, hd, ha, hi⟩ := h
    exact ⟨hw, by simp [decodeLong, hop, hd, ha, hi]⟩
  · cases h

theorem decodeLong_of_sysWord {op par a : Nat} (hop : op < 64) (h : sysWord op par a = some w) :
    w < 2 ^ 31 ∧ decodeLong w = decodeSys op par 0 a 0 := by
  obtain ⟨hw, h38, hd, ha, hb, hfn⟩ := rrrWord_eq_some.mp h
  have hmod : slice w 12 0 % 64 = op := by omega
  have hdiv : slice w 12 0 / 64 = par := by omega
  exact ⟨hw, by simp [decodeLong, h38, hd, ha, hb, hmod, hdiv]⟩

theorem decodeLong_of_encodeLong (h : encodeLong o = some w) : w < 2 ^ 31 ∧ decodeLong w = some o := by
  cases o with
  | nop =>
    obtain rfl := Option.some.inj h
    decide
  | alu r f d x y => exact decodeLong_of_alu h
  | cmp r a y => exact decodeLong_of_cmp h
  | tst => cases h
  | movh d i =>
    simp only [encodeLong, Option.ite_none_right_eq_some, ri21Word_eq_some] at h
    obtain ⟨hi16, hw, hop, hd, hi⟩ := h
    exact ⟨hw, by simp [decodeLong, hop, hd, hi]; exact hi16⟩
  | load wd d a ofs post =>
    simp only [encodeLong, Option.ite_none_right_eq_some, Option.bind_eq_some_iff, ofsField_eq_some, longWord_eq_some] at h
    obtain ⟨rfl, i, ⟨-, rfl⟩, hw, hop, hd, ha, hi⟩ := h
    refine ⟨hw, ?_⟩
    cases wd <;> simp [decodeLong, hop, hd, ha, hi, loadCode]
  | store wd d a ofs post =>
    simp only [encodeLong, Option.ite_none_right_eq_some, Option.bind_eq_some_iff, ofsField_eq_some, longWord_eq_some] at h
    obtain ⟨rfl, op, hcode, i, ⟨-, rfl⟩, hw, hop, hd, ha, hi⟩ := h
    refine ⟨hw, ?_⟩
    cases wd <;> cases hcode <;> simp [decodeLong, hop, hd, ha, hi]
  | mul k x a b =>
    simp only [encodeLong, Option.ite_none_right_eq_some, rrrWord_eq_some] at h
    obtain ⟨⟨hk, hx⟩, hw, hop, hd, ha, hb, hfn⟩ := h
    refine ⟨hw, ?_⟩
    simp [decodeLong, hop, hd, ha, hb, hfn]
    omega
  | mfp d x sh r t =>
    simp only [encodeLong, Option.ite_none_right_eq_some, longWord_eq_some] at h
    obtain ⟨⟨hx, hsh⟩, hw, hop, hd, ha, hi⟩ := h
    obtain ⟨hlt, hx', hsh', hr, ht⟩ := accFields hx hsh hi
    exact ⟨hw, by simp [decodeLong, hop, hd, ha, hlt, hx', hsh', hr, ht]⟩
  | mtp x a sh c =>
    simp only [encodeLong, Option.ite_none_right_eq_some, longWord_eq_some] at h
    obtain ⟨⟨hx, hsh⟩, hw, hop, hd, ha, hi⟩ := h
    obtain ⟨-, hx', hsh', hc, -⟩ := accFields (t := false) hx hsh hi
    have hlt : slice w 16 0 < 512 := by cases c <;> simp [b2n] at hi <;> omega
    exact ⟨hw, by simp [decodeLong, hop, hd, ha, hlt, hx', hsh', hc]⟩
  | div k d a b | sqrt k d a =>
    simp only [encodeLong, Option.ite_none_right_eq_some, rrrWord_eq_some] at h
    obtain ⟨hk, hw, hop, hd, ha, hb, hfn⟩ := h
    exact ⟨hw, by simp [decodeLong, hop, hd, ha, hb, hfn, hk]⟩
  | br c ofs =>
    simp only [encodeLong, Option.ite_none_left_eq_some, Option.bind_eq_some_iff, ofsField_eq_some, ri21Word_eq_some] at h
    obtain ⟨hc, i, ⟨-, rfl⟩, hw, hop, hd, hi⟩ := h
    exact ⟨hw, by simp [decodeLong, hop, hd, hi, hc]⟩
  | call ofs | callw ofs =>
    simp only [encodeLong, Option.bind_eq_some_iff, ofsField_eq_some, jWord_eq_some] at h
    obtain ⟨i, ⟨-, rfl⟩, hw, hop, hi⟩ := h
    exact ⟨hw, by simp [decodeLong, hop, hi]⟩
  | jr a | callr a | ret | retw =>
    obtain ⟨hw, hop, hd, ha, hb, hfn⟩ := rrrWord_eq_some.mp h
    exact ⟨hw, by simp [decodeLong, hop, hd, ha, hb, hfn]⟩
  | rep b n =>
    simp only [encodeLong, Option.ite_none_right_eq_some, longWord_eq_some] at h
    obtain ⟨⟨hlo, hhi⟩, hw, hop, hd, ha, hi⟩ := h
    refine ⟨hw, ?_⟩
    cases b <;> simp [decodeLong, hop, hd, ha, hi, b2n, bitAt] <;> omega
  | sats d a n | mfs d n | mts n a =>
    simp only [encodeLong, Option.ite_none_right_eq_some, longWord_eq_some] at h
    obtain ⟨hn, hw, hop, hd, ha, hi⟩ := h
    exact ⟨hw, by simp [decodeLong, hop, hd, ha, hi, hn]⟩
  | fence | flushI | wait | halt | retx => exact decodeLong_of_sysWord (by decide) h
  | savectx a | loadctx a =>
    obtain ⟨hw, hdec⟩ := decodeLong_of_sysWord (by decide) h
    exact ⟨hw, by simp [hdec, decodeSys]⟩
  | trap n =>
    obtain ⟨hn, h⟩ := Option.ite_none_right_eq_some.mp h
    obtain ⟨hw, hdec⟩ := decodeLong_of_sysWord (by decide) h
    exact ⟨hw, by simp [hdec, decodeSys, hn]⟩
  | switch k =>
    obtain ⟨hk, h⟩ := Option.ite_none_right_eq_some.mp h
    obtain ⟨hw, hdec⟩ := decodeLong_of_sysWord (by decide) h
    exact ⟨hw, by simp [hdec, decodeSys, hk]⟩

end

/-- The 17-bit field of the parameters of MFP and MTP is made of them (R208). -/
theorem accFields_sum (i : Nat) (hi : i < 1024) :
    i = i % 4 + 4 * slice i 7 2 + 256 * b2n (bitAt i 8) + 512 * b2n (bitAt i 9) ∧ slice i 7 2 < 64 := by
  have h8 : b2n (bitAt i 8) = i / 256 % 2 := by
    unfold bitAt b2n
    split <;> simp_all
  have h9 : b2n (bitAt i 9) = i / 512 % 2 := by
    unfold bitAt b2n
    split <;> simp_all
  rw [h8, h9, slice_eq]
  omega

theorem immField_simm {n i : Nat} (hn : n ≤ 32) (hi : i < 2 ^ n) : immField n (simm n i) = some i :=
  (immField_eq_some hn).mpr ⟨hi, rfl⟩

theorem ofsField_sx {n i : Nat} (hi : i < 2 ^ n) : ofsField n (sx n i) = some i := ofsField_eq_some.mpr ⟨hi, rfl⟩

section
variable {w : Nat} {o : Op} (hw : w < 2 ^ 31)
include hw

theorem encodeLong_of_decodeSys (hop : slice w 30 25 = 0x38)
    (h : decodeSys (slice w 12 0 % 64) (slice w 12 0 / 64) (slice w 24 21) (slice w 20 17) (slice w 16 13) = some o) :
    encodeLong o = some w := by
  have hfn := Nat.mod_add_div (slice w 12 0) 64
  unfold decodeSys at h
  obtain ⟨hused, h⟩ := Option.ite_none_left_eq_some.mp h
  simp only [not_or, not_and, Decidable.not_not] at hused
  obtain ⟨hd, hb, ha, hpar⟩ := hused
  have hsys {op par a : Nat} (hop6 : slice w 12 0 % 64 = op) (hpar7 : slice w 12 0 / 64 = par)
      (ha : slice w 20 17 = a) : sysWord op par a = some w :=
    rrrWord_eq_some.mpr ⟨hw, hop, hd, ha, hb, by omega⟩
  split at h
  case h_10 => cases h
  case h_5 h4 | h_7 h4 =>
    obtain ⟨hlt, h⟩ := Option.ite_none_right_eq_some.mp h
    cases h
    exact (if_pos hlt).trans (hsys h4 rfl (by omega))
  case h_8 h4 | h_9 h4 =>
    cases h
    exact hsys h4 (by omega) rfl
  all_goals
    next h4 =>
    cases h
    exact hsys h4 (by omega) (by omega)

/-- The jumps share OP 0x23 and are told apart by FN (R208). -/
theorem encodeLong_of_jump (hop : slice w 30 25 = 0x23) (hd : slice w 24 21 = 0) (hb : slice w 16 13 = 0)
    (h : (if slice w 12 0 = 0 then some (Op.jr (slice w 20 17))
      else if slice w 12 0 = 1 then some (.callr (slice w 20 17))
      else if slice w 12 0 = 2 ∧ slice w 20 17 = 0 then some .ret
      else if slice w 12 0 = 3 ∧ slice w 20 17 = 0 then some .retw else none) = some o) : encodeLong o = some w := by
  split at h
  next hjr =>
    cases h
    exact rrrWord_eq_some.mpr ⟨hw, hop, hd, rfl, hb, hjr⟩
  split at h
  next hcallr =>
    cases h
    exact rrrWord_eq_some.mpr ⟨hw, hop, hd, rfl, hb, hcallr⟩
  split at h
  next hret =>
    cases h
    exact rrrWord_eq_some.mpr ⟨hw, hop, hd, hret.2, hb, hret.1⟩
  obtain ⟨hretw, h⟩ := Option.ite_none_right_eq_some.mp h
  cases h
  exact rrrWord_eq_some.mpr ⟨hw, hop, hd, hretw.2, hb, hretw.1⟩

theorem encodeLong_of_decodeLong (h : decodeLong w = some o) : encodeLong o = some w := by
  have hi17 := immField_simm (n := 17) (by decide) (slice_lt w 16 0)
  have hi21 := immField_simm (n := 21) (by decide) (slice_lt w 20 0)
  have ho17 := ofsField_sx (n := 17) (slice_lt w 16 0)
  have ho21 := ofsField_sx (n := 21) (slice_lt w 20 0)
  have ho25 := ofsField_sx (n := 25) (slice_lt w 24 0)
  unfold decodeLong at h
  dsimp only at h
  split at h
  all_goals try simp only [Option.ite_none_right_eq_some, Option.ite_none_left_eq_some, Option.some.injEq] at h
  case h_1 =>
    obtain ⟨rfl, rfl⟩ := h
    rfl
  -- Three registers, a shift by an immediate
  case h_2 hop =>
    obtain ⟨r, f, hrrr, rfl⟩ | ⟨h13, hd, rfl⟩ := eq_of_decodeRrr h
    · simp only [encodeLong, hrrr, Option.bind_some]
      exact rrrWord_eq_some.mpr ⟨hw, hop, rfl, rfl, rfl, rfl⟩
    · exact rrrWord_eq_some.mpr ⟨hw, hop, hd, rfl, rfl, h13⟩
  case h_7 hop =>
    obtain ⟨hi, h⟩ := h
    obtain ⟨r, f, hri, hkind, rfl⟩ := eq_of_decodeShift h
    simp only [encodeLong, hri, hkind, if_pos (Nat.mod_lt _ (by decide : 0 < 32))]
    exact longWord_eq_some.mpr ⟨hw, hop, rfl, rfl, (Nat.div_add_mod _ 32).symm⟩
  -- Immediates of 17 and of 21 bits
  case h_3 hop | h_4 hop | h_5 hop | h_6 hop =>
    subst h
    simp only [encodeLong, riOp, hi17, Option.bind_some]
    exact longWord_eq_some.mpr ⟨hw, hop, rfl, rfl, rfl⟩
  case h_8 hop =>
    obtain ⟨hd, rfl⟩ := h
    simp only [encodeLong, hi17, Option.bind_some]
    exact longWord_eq_some.mpr ⟨hw, hop, hd, rfl, rfl⟩
  case h_9 hop =>
    subst h
    simp only [encodeLong, hi21, Option.bind_some]
    exact ri21Word_eq_some.mpr ⟨hw, hop, rfl, rfl⟩
  case h_10 hop =>
    obtain ⟨hi, rfl⟩ := h
    exact (if_pos hi).trans (ri21Word_eq_some.mpr ⟨hw, hop, rfl, rfl⟩)
  case h_11 hop =>
    obtain ⟨hi, rfl⟩ := h
    exact (if_pos hi).trans (longWord_eq_some.mpr ⟨hw, hop, rfl, rfl, rfl⟩)
  -- Loads and stores
  case h_12 hop | h_13 hop | h_14 hop | h_15 hop | h_16 hop | h_17 hop | h_18 hop | h_19 hop =>
    subst h
    simp only [encodeLong, loadCode, storeCode, ho17, Option.bind_some]
    exact longWord_eq_some.mpr ⟨hw, hop, rfl, rfl, rfl⟩
  -- The multiplier, the accumulators, the long operations
  case h_20 hop =>
    obtain ⟨⟨hd, hfn⟩, rfl⟩ := h
    exact (if_pos (by omega)).trans (rrrWord_eq_some.mpr ⟨hw, hop, hd, rfl, rfl, by omega⟩)
  case h_21 hop =>
    obtain ⟨⟨ha, hi⟩, rfl⟩ := h
    obtain ⟨hsum, hsh⟩ := accFields_sum _ hi
    exact (if_pos ⟨Nat.mod_lt _ (by decide), hsh⟩).trans (longWord_eq_some.mpr ⟨hw, hop, rfl, ha, hsum⟩)
  case h_22 hop =>
    obtain ⟨⟨hd, hi⟩, rfl⟩ := h
    obtain ⟨hsum, hsh⟩ := accFields_sum _ (Nat.lt_trans hi (by decide))
    have h9 : bitAt (slice w 16 0) 9 = false := by
      rw [bitAt, Nat.div_eq_of_lt (show slice w 16 0 < 2 ^ 9 from hi)]
      rfl
    rw [h9] at hsum
    exact (if_pos ⟨Nat.mod_lt _ (by decide), hsh⟩).trans (longWord_eq_some.mpr ⟨hw, hop, hd, rfl, hsum⟩)
  case h_23 hop =>
    obtain ⟨hfn, rfl⟩ := h
    exact (if_pos hfn).trans (rrrWord_eq_some.mpr ⟨hw, hop, rfl, rfl, rfl, rfl⟩)
  case h_24 hop =>
    obtain ⟨⟨hb, hfn⟩, rfl⟩ := h
    exact (if_pos hfn).trans (rrrWord_eq_some.mpr ⟨hw, hop, rfl, rfl, hb, rfl⟩)
  -- Control transfers
  case h_25 hop =>
    obtain ⟨hc, rfl⟩ := h
    simp only [encodeLong, if_neg hc, ho21, Option.bind_some]
    exact ri21Word_eq_some.mpr ⟨hw, hop, rfl, rfl⟩
  case h_26 hop | h_27 hop =>
    subst h
    simp only [encodeLong, ho25, Option.bind_some]
    exact jWord_eq_some.mpr ⟨hw, hop, rfl⟩
  case h_28 hop =>
    obtain ⟨hdb, h⟩ := h
    obtain ⟨hd, hb⟩ := not_or.mp hdb
    exact encodeLong_of_jump hw hop (Decidable.not_not.mp hd) (Decidable.not_not.mp hb) h
  case h_29 hop =>
    obtain ⟨⟨hd, ha, hi⟩, rfl⟩ := h
    have h12 : b2n (bitAt (slice w 16 0) 12) = slice w 16 0 / 4096 := by
      unfold bitAt b2n
      split <;> simp_all <;> omega
    exact (if_pos (by omega)).trans (longWord_eq_some.mpr ⟨hw, hop, hd, ha, by omega⟩)
  -- Special registers and SYS
  case h_30 hop =>
    obtain ⟨⟨ha, hi⟩, rfl⟩ := h
    exact (if_pos hi).trans (longWord_eq_some.mpr ⟨hw, hop, rfl, ha, rfl⟩)
  case h_31 hop =>
    obtain ⟨⟨hd, hi⟩, rfl⟩ := h
    exact (if_pos hi).trans (longWord_eq_some.mpr ⟨hw, hop, hd, rfl, rfl⟩)
  case h_32 hop => exact encodeLong_of_decodeSys hw hop h
  case h_33 => cases h

end

/-! ## Short words (R189, R207) -/

theorem pick_cases {α : Type} {P : α → Prop} {x : Nat} {a b c d : α} (hx : x < 4) (h0 : x = 0 → P a) (h1 : x = 1 → P b)
    (h2 : x = 2 → P c) (h3 : x = 3 → P d) : P (pick x a b c d) := by
  unfold pick
  split
  next hx0 => exact h0 hx0
  split
  next hx1 => exact h1 hx1
  split
  next hx2 => exact h2 hx2
  exact h3 (by omega)

theorem memCode_memOfs_memPost {x : Nat} (hx : x < 4) : memCode (memOfs x) (memPost x) = some x := by
  revert x
  decide

theorem eq_of_memCode {ofs post : Int} {x : Nat} (h : memCode ofs post = some x) :
    x < 4 ∧ ofs = memOfs x ∧ post = memPost x := by
  unfold memCode at h
  split at h
  next hofs =>
    subst hofs
    split at h
    next hpost => cases h; exact ⟨by decide, rfl, hpost⟩
    split at h
    next hpost => cases h; exact ⟨by decide, rfl, hpost⟩
    obtain ⟨hpost, h⟩ := Option.ite_none_right_eq_some.mp h
    cases h
    exact ⟨by decide, rfl, hpost⟩
  obtain ⟨⟨hofs, hpost⟩, h⟩ := Option.ite_none_right_eq_some.mp h
  cases h
  exact ⟨by decide, hofs, hpost⟩

section
variable {w : Nat} {o : Op}

theorem decodeShort_of_shortCode {r : Row} {f : AluOp} {op x d s : Nat} (hcode : shortCode r f = some (op, x))
    (h : srWord op d s x = some w) :
    w < 2 ^ 15 ∧ decodeShort w = some (if op = 0x01 then ds r f d s else dds r f d s) := by
  unfold shortCode at hcode
  split at hcode
  case h_21 => cases hcode
  all_goals
    cases hcode
    obtain ⟨hw, hop, hd, hs, hx⟩ := (srWord_eq_some (by decide)).mp h
    exact ⟨hw, by simp [decodeShort, hop, hd, hs, hx, pick]⟩

theorem decodeShort_of_alu_imm {r : Row} {f : AluOp} {d a v : Nat}
    (h : encodeShort (.alu r f d (.reg a) (.imm v)) = some w) :
    w < 2 ^ 15 ∧ decodeShort w = some (.alu r f d (.reg a) (.imm v)) := by
  simp only [encodeShort] at h
  split at h
  -- A move
  · next op i _ hcode =>
    obtain ⟨⟨rfl, hop⟩, hword⟩ := Option.ite_none_right_eq_some.mp h
    obtain ⟨hw, hdec⟩ := decodeShort_of_shortCode hcode hword
    exact ⟨hw, by rw [hdec, if_pos hop]; rfl⟩
  -- A shift
  · next op _ hshift =>
    obtain ⟨⟨rfl, hv⟩, hword⟩ := Option.ite_none_right_eq_some.mp h
    unfold shortShift at hshift
    split at hshift
    case h_4 => cases hshift
    all_goals
      cases hshift
      obtain ⟨hw, hop, hd, hi⟩ := (siWord_eq_some (by decide)).mp hword
      exact ⟨hw, by simp [decodeShort, hop, hd, hi, hv]⟩
  -- ADDI
  · obtain ⟨⟨rfl, rfl, rfl⟩, hword⟩ := Option.ite_none_right_eq_some.mp h
    obtain ⟨i, himm, hbits⟩ := Option.bind_eq_some_iff.mp hword
    obtain ⟨-, rfl⟩ := (immField_eq_some (by decide)).mp himm
    obtain ⟨hw, hop, hd, hi⟩ := (siWord_eq_some (by decide)).mp hbits
    exact ⟨hw, by simp [decodeShort, hop, hd, hi]⟩

theorem decodeShort_of_encodeShort (h : encodeShort o = some w) : w < 2 ^ 15 ∧ decodeShort w = some o := by
  unfold encodeShort at h
  split at h
  case h_1 =>
    cases h
    decide
  -- d <- d f s
  case h_2 =>
    split at h
    · next op i hcode =>
      obtain ⟨⟨rfl, hop⟩, hword⟩ := Option.ite_none_right_eq_some.mp h
      obtain ⟨hw, hdec⟩ := decodeShort_of_shortCode hcode hword
      exact ⟨hw, by rw [hdec, if_neg hop]; rfl⟩
    · cases h
  case h_3 => exact decodeShort_of_alu_imm h
  -- MOVI and CMPI, CMP and TST
  case h_4 | h_6 =>
    obtain ⟨i, himm, hword⟩ := Option.bind_eq_some_iff.mp h
    obtain ⟨-, rfl⟩ := (immField_eq_some (by decide)).mp himm
    obtain ⟨hw, hop, hd, hi⟩ := (siWord_eq_some (by decide)).mp hword
    exact ⟨hw, by simp [decodeShort, hop, hd, hi]⟩
  case h_5 | h_7 =>
    obtain ⟨hw, hop, hd, hs, hx⟩ := (srWord_eq_some (by decide)).mp h
    exact ⟨hw, by simp [decodeShort, hop, hd, hs, hx]⟩
  -- LDW, STW
  case h_8 =>
    obtain ⟨x, hcode, hword⟩ := Option.bind_eq_some_iff.mp h
    obtain ⟨-, rfl, rfl⟩ := eq_of_memCode hcode
    obtain ⟨hda, hbits⟩ := Option.ite_none_left_eq_some.mp hword
    obtain ⟨hw, hop, hd, hs, hx⟩ := (srWord_eq_some (by decide)).mp hbits
    exact ⟨hw, by simp only [decodeShort, hop, hd, hs, hx, if_neg hda]⟩
  case h_9 =>
    obtain ⟨x, hcode, hword⟩ := Option.bind_eq_some_iff.mp h
    obtain ⟨-, rfl, rfl⟩ := eq_of_memCode hcode
    obtain ⟨hw, hop, hd, hs, hx⟩ := (srWord_eq_some (by decide)).mp hword
    exact ⟨hw, by simp only [decodeShort, hop, hd, hs, hx]⟩
  -- MUL, MAC, MSU, MFP
  case h_10 k _ _ _ =>
    obtain ⟨hk, hword⟩ := Option.ite_none_right_eq_some.mp h
    obtain ⟨hw, hop, hd, hs, hx⟩ := (srWord_eq_some (by omega)).mp hword
    obtain rfl | rfl | rfl : k = 0 ∨ k = 1 ∨ k = 2 := by omega
    all_goals exact ⟨hw, by simp [decodeShort, hop, hd, hs, hx]⟩
  case h_11 =>
    obtain ⟨hw, hop, hd, hs, hx⟩ := (srWord_eq_some (by decide)).mp h
    exact ⟨hw, by simp [decodeShort, hop, hd, hs, hx]⟩
  -- B
  case h_12 =>
    obtain ⟨hc, hword⟩ := Option.ite_none_left_eq_some.mp h
    obtain ⟨i, hofs, hbits⟩ := Option.bind_eq_some_iff.mp hword
    obtain ⟨-, rfl⟩ := ofsField_eq_some.mp hofs
    obtain ⟨hw, hop, hd, hi⟩ := (siWord_eq_some (by decide)).mp hbits
    exact ⟨hw, by simp [decodeShort, hop, hd, hi, hc]⟩
  case h_13 => cases h

section
variable {r : Row} {f : AluOp} {op x d s : Nat}

theorem encodeShort_ds (hcode : shortCode r f = some (0x01, x)) : encodeShort (ds r f d s) = srWord 0x01 d s x := by
  simp [ds, encodeShort, hcode]

theorem encodeShort_dds (hcode : shortCode r f = some (op, x)) (hop : op ≠ 0x01) :
    encodeShort (dds r f d s) = srWord op d s x := by
  simp [dds, encodeShort, hcode, hop]

end

theorem encodeShort_of_decodeShort (hw : w < 2 ^ 15) (h : decodeShort w = some o) : encodeShort o = some w := by
  have hi6 := immField_simm (n := 6) (by decide) (slice_lt w 5 0)
  have ho6 := ofsField_sx (n := 6) (slice_lt w 5 0)
  have hx4 : slice w 1 0 < 4 := slice_lt w 1 0
  unfold decodeShort at h
  dsimp only at h
  split at h
  all_goals try simp only [Option.ite_none_right_eq_some, Option.ite_none_left_eq_some, Option.some.injEq] at h
  case h_1 =>
    obtain ⟨rfl, rfl⟩ := h
    rfl
  -- Moves, and operations d <- d f s
  case h_2 hop =>
    subst h
    refine pick_cases (P := (encodeShort · = some w)) hx4 ?_ ?_ ?_ ?_ <;> intro hx <;>
      exact (encodeShort_ds rfl).trans ((srWord_eq_some (by decide)).mpr ⟨hw, hop, rfl, rfl, hx⟩)
  case h_3 hop | h_4 hop | h_5 hop | h_6 hop =>
    subst h
    refine pick_cases (P := (encodeShort · = some w)) hx4 ?_ ?_ ?_ ?_ <;> intro hx <;>
      exact (encodeShort_dds rfl (by decide)).trans ((srWord_eq_some (by decide)).mpr ⟨hw, hop, rfl, rfl, hx⟩)
  -- CMP and TST
  case h_7 hop =>
    split at h
    next hx0 =>
      cases h
      exact (srWord_eq_some (by decide)).mpr ⟨hw, hop, rfl, rfl, hx0⟩
    obtain ⟨hx1, h⟩ := Option.ite_none_right_eq_some.mp h
    cases h
    exact (srWord_eq_some (by decide)).mpr ⟨hw, hop, rfl, rfl, hx1⟩
  -- Immediates
  case h_8 hop | h_9 hop | h_13 hop =>
    subst h
    simp only [encodeShort, shortCode, shortShift, hi6, and_self, if_true, Option.bind_some]
    exact (siWord_eq_some (by decide)).mpr ⟨hw, hop, rfl, rfl⟩
  case h_10 hop | h_11 hop | h_12 hop =>
    obtain ⟨hi, rfl⟩ := h
    exact (if_pos ⟨rfl, hi⟩).trans ((siWord_eq_some (by decide)).mpr ⟨hw, hop, rfl, rfl⟩)
  -- LDW, STW
  case h_14 hop =>
    obtain ⟨hda, rfl⟩ := h
    simp only [encodeShort, memCode_memOfs_memPost hx4, Option.bind_some, if_neg hda]
    exact (srWord_eq_some (by decide)).mpr ⟨hw, hop, rfl, rfl, rfl⟩
  case h_15 hop =>
    subst h
    simp only [encodeShort, memCode_memOfs_memPost hx4, Option.bind_some]
    exact (srWord_eq_some (by decide)).mpr ⟨hw, hop, rfl, rfl, rfl⟩
  -- MUL, MAC, MSU, MFP
  case h_16 hop | h_17 hop | h_18 hop =>
    subst h
    exact (srWord_eq_some (by decide)).mpr ⟨hw, hop, rfl, rfl, rfl⟩
  case h_19 hop =>
    obtain ⟨hs, rfl⟩ := h
    exact (srWord_eq_some (by decide)).mpr ⟨hw, hop, rfl, hs, rfl⟩
  -- B
  case h_20 hop =>
    obtain ⟨hc, rfl⟩ := h
    simp only [encodeShort, if_neg hc, ho6, Option.bind_some]
    exact (siWord_eq_some (by decide)).mpr ⟨hw, hop, rfl, rfl⟩
  case h_21 => cases h

end

/-! ## Bundles (R187, R190) -/

theorem bitAt_31_of_lt {w : Nat} (hw : w < 2 ^ 31) : bitAt w 31 = false := by
  rw [bitAt, Nat.div_eq_of_lt hw]
  rfl

theorem decodeBundle_of_lt {w : Nat} (hw : w < 2 ^ 31) :
    decodeBundle w = (decodeLong w).elim .undef fun x => .ops [x] := by
  simp only [decodeBundle, bitAt_31_of_lt hw, Bool.false_eq_true, if_false]
  cases decodeLong w <;> rfl

theorem decodeBundle_pairWord {x y : Op} {a b c : Nat} (hx : encodeShort x = some a) (hy : encodeShort y = some b)
    (hc : c < 2) : pairWord a b < 2 ^ 32 ∧
      decodeBundle (pairWord a b + c) = if legalPair c x y then .ops [x, y] else .illegal := by
  obtain ⟨ha, hdx⟩ := decodeShort_of_encodeShort hx
  obtain ⟨hb, hdy⟩ := decodeShort_of_encodeShort hy
  have h31 : bitAt (pairWord a b + c) 31 = true := by
    rw [bitAt, beq_iff_eq, pairWord]
    omega
  have hslotA : slice (pairWord a b + c) 30 16 = a := by rw [slice_eq, pairWord]; omega
  have hslotB : slice (pairWord a b + c) 15 1 = b := by rw [slice_eq, pairWord]; omega
  have hbit0 : (pairWord a b + c) % 2 = c := by rw [pairWord]; omega
  refine ⟨by rw [pairWord]; omega, ?_⟩
  simp only [decodeBundle, h31, hslotA, hslotB, hdx, hdy, hbit0, if_true]

/-- Bit 0 of a paired bundle is 0 (R187). -/
theorem legalPair_one (x y : Op) : legalPair 1 x y = false := rfl

/-- Settles O37: a composed word's fields read what it was made of, format by format. -/
theorem engineWordsRoundTrip : Obligations.EngineWordsRoundTrip := by
  unfold Obligations.EngineWordsRoundTrip
  refine ⟨fun o w h => ?_, fun o w hw h => ?_, fun o h e => decodeShort_of_encodeShort e,
    fun o h hlt e => encodeShort_of_decodeShort hlt e, fun x y a b hx hy => ?_⟩
  · obtain ⟨hw, hdec⟩ := decodeLong_of_encodeLong h
    exact ⟨hw, by rw [decodeBundle_of_lt hw, hdec]; rfl⟩
  · rw [decodeBundle_of_lt hw] at h
    cases hdec : decodeLong w with
    | none =>
      rw [hdec] at h
      cases h
    | some x =>
      rw [hdec] at h
      cases h
      exact encodeLong_of_decodeLong hw hdec
  · obtain ⟨hlt, hlegal⟩ := decodeBundle_pairWord hx hy (c := 0) (by decide)
    obtain ⟨-, hodd⟩ := decodeBundle_pairWord hx hy (c := 1) (by decide)
    exact ⟨hlt, hlegal, hodd.trans (if_neg (by simp [legalPair_one]))⟩

/-- Settles O38: each word, decoded. -/
theorem engineWordsOfTheSpec : Obligations.EngineWordsOfTheSpec := by
  unfold Obligations.EngineWordsOfTheSpec
  decide

end Sys2Proof.Machine
end

section
/-! The arithmetic of the engines' operations: the integer that a result is, held to the signed range where it
saturates, the quotients and roots, and the accumulators (R198 to R201). -/

namespace Sys2Proof.Machine

/-! ## Registers as integers -/

theorem s32_toNat (a : BitVec 32) : s32 a.toNat = a.toInt := by
  have hlt := a.isLt
  rw [BitVec.toInt_eq_toNat_cond]
  unfold s32 sx
  dsimp only
  rw [Nat.mod_eq_of_lt hlt]
  split <;> split <;> omega

theorem ofNat_pat (x : Int) : BitVec.ofNat 32 (pat 32 x) = BitVec.ofInt 32 x := by
  apply BitVec.eq_of_toNat_eq
  rw [BitVec.toNat_ofNat, BitVec.toNat_ofInt, Nat.mod_eq_of_lt (pat_lt 32 x)]
  rfl

/-- The word of an integer in the signed range reads back as that integer. -/
theorem toInt_ofNat_pat {x : Int} (hlo : -(2 ^ 31) ≤ x) (hhi : x < 2 ^ 31) : (BitVec.ofNat 32 (pat 32 x)).toInt = x := by
  rw [ofNat_pat, BitVec.toInt_ofInt]
  exact Int.bmod_eq_of_le (by omega) (by omega)

theorem two_pow_pos_int (n : Nat) : (0 : Int) < 2 ^ n := Int.pow_pos (by decide)

theorem two_pow_le_int {m n : Nat} (h : m ≤ n) : (2 : Int) ^ m ≤ 2 ^ n := mod_cast Nat.pow_le_pow_right (by decide) h

/-! ## Results held to a range -/

theorem clampI_eq_max_min {lo hi : Int} (x : Int) (h : lo ≤ hi) : clampI lo hi x = max lo (min hi x) := by
  unfold clampI
  split
  · omega
  · split <;> omega

/-- x held to the signed range of a register. -/
abbrev held32 (x : Int) : Int := max (-(2 ^ 31)) (min (2 ^ 31 - 1) x)

theorem satS32_eq (x : Int) : satS 32 x = held32 x := clampI_eq_max_min x (by decide)

/-- Result r is integer x held to the signed range, with SAT exactly where that changes it. -/
def IsHeld (r : Nat × Bool) (x : Int) : Prop :=
  (BitVec.ofNat 32 r.1).toInt = held32 x ∧ (r.2 = true ↔ x ≠ held32 x)

theorem isHeld_sat32 (x : Int) : IsHeld (sat32 x) x := by
  obtain ⟨hlo, hhi⟩ := satS32_range x
  refine ⟨(toInt_ofNat_pat hlo hhi).trans (satS32_eq x), ?_⟩
  rw [sat32, satS32_eq, bne_iff_ne, ne_comm]

theorem isHeld_sat32_of_eq {x y : Int} (h : x = y) : IsHeld (sat32 x) y := h ▸ isHeld_sat32 x

/-- A shift out of the range saturates to the end on its side. -/
theorem isHeld_shlSat (a : BitVec 32) (n : Nat) : IsHeld (shlSat a.toNat n) (a.toInt * 2 ^ n) := by
  by_cases hzero : a = 0
  · have hint : a.toInt = 0 := by
      rw [hzero]
      rfl
    rw [hint, Int.zero_mul, hzero]
    change IsHeld (0, false) 0
    exact ⟨by decide, by decide⟩
  have hne : a.toNat ≠ 0 := fun h => hzero (BitVec.eq_of_toNat_eq h)
  have hint : a.toInt ≠ 0 := fun h => hzero (BitVec.toInt_inj.mp h)
  simp only [shlSat, if_neg hne, s32_toNat]
  by_cases hn : 32 ≤ n
  · have hpow : (2 : Int) ^ 32 ≤ 2 ^ n := two_pow_le_int hn
    rw [if_pos hn]
    by_cases hneg : a.toInt < 0
    · have hlow : a.toInt * 2 ^ n ≤ -1 * 2 ^ n := Int.mul_le_mul_of_nonneg_right (by omega) (by omega)
      rw [if_pos hneg]
      simp only [IsHeld, held32]
      constructor
      · rw [show (BitVec.ofNat 32 (2 ^ 31)).toInt = -(2 ^ 31) by decide]; omega
      · simp only [true_iff]; omega
    · have hhigh : 1 * 2 ^ n ≤ a.toInt * 2 ^ n := Int.mul_le_mul_of_nonneg_right (by omega) (by omega)
      rw [if_neg hneg]
      simp only [IsHeld, held32]
      constructor
      · rw [show (BitVec.ofNat 32 (2 ^ 31 - 1)).toInt = 2 ^ 31 - 1 by decide]; omega
      · simp only [true_iff]; omega
  · rw [if_neg hn]
    exact isHeld_sat32 _

theorem isHeld_abs (a : BitVec 32) : IsHeld (alu .abs a.toNat 0) a.toInt.natAbs := by
  refine isHeld_sat32_of_eq ?_
  rw [s32_toNat]
  split <;> omega

/-! ## Shifts -/

theorem ofNat_shl (a : BitVec 32) (n : Nat) : BitVec.ofNat 32 (alu .shl a.toNat n).1 = a <<< n := by
  apply BitVec.eq_of_toNat_eq
  rw [alu]
  by_cases hn : 32 ≤ n
  · simp [if_pos hn, BitVec.shiftLeft_eq_zero hn]
  · simp [if_neg hn, Nat.shiftLeft_eq]

theorem ofNat_shr (a : BitVec 32) (n : Nat) : BitVec.ofNat 32 (alu .shr a.toNat n).1 = a >>> n := by
  apply BitVec.eq_of_toNat_eq
  have hlt := a.isLt
  rw [alu]
  by_cases hn : 32 ≤ n
  · have hpow : 2 ^ 32 ≤ 2 ^ n := Nat.pow_le_pow_right (by decide) hn
    simp [hn, Nat.shiftRight_eq_div_pow, Nat.div_eq_of_lt (Nat.lt_of_lt_of_le hlt hpow)]
  · have hle : a.toNat / 2 ^ n < 2 ^ 32 := Nat.lt_of_le_of_lt (Nat.div_le_self _ _) hlt
    rw [if_neg hn, BitVec.toNat_ofNat, BitVec.toNat_ushiftRight, Nat.shiftRight_eq_div_pow, Nat.mod_eq_of_lt hle]

/-- A count above 31 leaves the sign alone, as 31 does. -/
theorem ofNat_sar (a : BitVec 32) (n : Nat) : BitVec.ofNat 32 (alu .sar a.toNat n).1 = a.sshiftRight n := by
  rw [alu, s32_toNat, ofNat_pat, BitVec.sshiftRight]
  congr 1
  rw [Int.shiftRight_eq_div_pow, floorDiv, Int.fdiv_eq_ediv_of_nonneg _ (Int.le_of_lt (two_pow_pos_int _))]
  by_cases hn : n ≤ 31
  · rw [Nat.min_eq_left hn]; simp
  · have hlo := BitVec.le_toInt a
    have hhi := BitVec.toInt_lt (x := a)
    rw [Nat.min_eq_right (by omega)]
    have hpow : (2 : Int) ^ 31 ≤ 2 ^ n := two_pow_le_int (by omega)
    push_cast
    by_cases hneg : a.toInt < 0
    · rw [Int.ediv_eq_neg_one_of_neg_of_le hneg (by omega), Int.ediv_eq_neg_one_of_neg_of_le hneg (by omega)]
    · rw [Int.ediv_eq_zero_of_lt (by omega) (by omega), Int.ediv_eq_zero_of_lt (by omega) (by omega)]

/-- The bits that leave at the bottom come in at the top. -/
theorem ofNat_ror (a : BitVec 32) (n : Nat) : BitVec.ofNat 32 (alu .ror a.toNat n).1 = a.rotateRight (n % 32) := by
  apply BitVec.eq_of_toNat_eq
  have hlt := a.isLt
  have hk : n % 32 < 32 := Nat.mod_lt _ (by decide)
  generalize hkn : n % 32 = k at hk
  have hwhole : 2 ^ 32 = 2 ^ k * 2 ^ (32 - k) := by rw [← Nat.pow_add]; congr 1; omega
  have hlow : a.toNat / 2 ^ k < 2 ^ (32 - k) := Nat.div_lt_of_lt_mul (hwhole ▸ hlt)
  have hhigh : a.toNat * 2 ^ (32 - k) % 2 ^ 32 = a.toNat % 2 ^ k * 2 ^ (32 - k) := by
    rw [hwhole, Nat.mul_mod_mul_right]
  rw [alu, hkn, BitVec.toNat_ofNat, BitVec.toNat_rotateRight, Nat.mod_eq_of_lt hk, Nat.mod_mod, Nat.add_mod, hhigh,
    Nat.shiftLeft_eq, hhigh, Nat.shiftRight_eq_div_pow, Nat.or_comm, ← Nat.shiftLeft_eq,
    ← Nat.shiftLeft_add_eq_or_of_lt hlow, Nat.shiftLeft_eq,
    Nat.mod_eq_of_lt (a := a.toNat / 2 ^ k) (Nat.lt_of_le_of_lt (Nat.div_le_self _ _) hlt)]
  refine Nat.mod_eq_of_lt ?_
  have hmod : a.toNat % 2 ^ k + 1 ≤ 2 ^ k := Nat.mod_lt _ (Nat.two_pow_pos k)
  calc a.toNat % 2 ^ k * 2 ^ (32 - k) + a.toNat / 2 ^ k
      < (a.toNat % 2 ^ k + 1) * 2 ^ (32 - k) := by rw [Nat.add_mul, Nat.one_mul]; omega
    _ ≤ 2 ^ k * 2 ^ (32 - k) := Nat.mul_le_mul_right _ hmod
    _ = 2 ^ 32 := hwhole.symm

/-! ## SATS -/

theorem satsTo_spec (a : BitVec 32) {n : Nat} (hn : n < 32) :
    (BitVec.ofNat 32 (satsTo a.toNat n).1).toInt = max (-(2 ^ n)) (min (2 ^ n - 1) a.toInt) ∧
      ((satsTo a.toNat n).2 = true ↔ a.toInt ≠ max (-(2 ^ n)) (min (2 ^ n - 1) a.toInt)) := by
  have hpos := two_pow_pos_int n
  have hpow : (2 : Int) ^ n ≤ 2 ^ 31 := two_pow_le_int (by omega)
  have hclamp := clampI_eq_max_min (lo := -(2 ^ n)) (hi := 2 ^ n - 1) a.toInt (by omega)
  obtain ⟨hlo, hhi⟩ := clampI_range (lo := -(2 ^ n)) (hi := 2 ^ n - 1) a.toInt (by omega)
  simp only [satsTo, s32_toNat]
  constructor
  · rw [toInt_ofNat_pat (by omega) (by omega), hclamp]
  · rw [hclamp, bne_iff_ne, ne_comm]

theorem ofNat_satsTo_31 (a : BitVec 32) : BitVec.ofNat 32 (satsTo a.toNat 31).1 = a := by
  have hlo := BitVec.le_toInt a
  have hhi := BitVec.toInt_lt (x := a)
  apply BitVec.eq_of_toInt_eq
  rw [(satsTo_spec a (by decide)).1]
  omega

/-! ## ADDI -/

theorem decodeLong_addi {d g v : Nat} (hd : d < 16) (hg : g < 16) (hv : v < 2 ^ 17) :
    decodeLong (0x02 * 2 ^ 25 + d * 2 ^ 21 + g * 2 ^ 17 + v) =
      some (.alu .addi .add d (.reg g) (.imm (simm 17 v))) := by
  refine (decodeLong_of_encodeLong ?_).2
  simp only [encodeLong, riOp, immField_simm (by decide) hv, Option.bind_some]
  exact if_pos ⟨by decide, hd, hg, hv⟩

/-- Settles O34. -/
theorem arithmeticWrapsAndSaturates : Obligations.ArithmeticWrapsAndSaturates := by
  unfold Obligations.ArithmeticWrapsAndSaturates
  intro a b
  have hadd : BitVec.ofNat 32 (alu .add a.toNat b.toNat).1 = a + b := by
    apply BitVec.eq_of_toNat_eq
    simp [alu]
  have hsub : BitVec.ofNat 32 (alu .sub a.toNat b.toNat).1 = a - b := by
    have := b.isLt
    apply BitVec.eq_of_toNat_eq
    rw [BitVec.toNat_sub]
    simp only [alu, BitVec.toNat_ofNat]
    omega
  refine ⟨⟨hadd, rfl⟩, ⟨hsub, rfl⟩, fun f x hfx => ?_,
    ⟨ofNat_shl a _, ofNat_shr a _, ofNat_sar a _, ofNat_ror a _⟩,
    fun n hn => ⟨(satsTo_spec a hn).1, (satsTo_spec a hn).2, ofNat_satsTo_31 a⟩, fun d g v => ?_⟩
  -- ADDS, SUBS, NEG, ABS, SHLS
  · simp only [List.mem_cons, List.not_mem_nil, or_false, Prod.mk.injEq] at hfx
    rcases hfx with ⟨rfl, rfl⟩ | ⟨rfl, rfl⟩ | ⟨rfl, rfl⟩ | ⟨rfl, rfl⟩ | ⟨rfl, rfl⟩
    · exact isHeld_sat32_of_eq (by rw [s32_toNat, s32_toNat])
    · exact isHeld_sat32_of_eq (by rw [s32_toNat, s32_toNat])
    · exact isHeld_sat32_of_eq (by rw [s32_toNat])
    · exact isHeld_abs a
    · exact isHeld_shlSat a _
  -- ADDI
  · by_cases hd : d < 16
    · by_cases hg : g < 16
      · by_cases hv : v < 2 ^ 17
        · exact .inl (decodeLong_addi hd hg hv)
        · exact .inr (.inr (.inr (Nat.le_of_not_lt hv)))
      · exact .inr (.inr (.inl (Nat.le_of_not_lt hg)))
    · exact .inr (.inl (Nat.le_of_not_lt hd))

end Sys2Proof.Machine
end

section
/-! The registers of an engine: what reading a place gives after a write, what a write leaves alone, and the sticky
flag SAT (R193, R196, R200, R238). -/

namespace Sys2Proof.Machine
namespace Arch

variable (x : Arch)

/-- A write of a place changes the registers and the dirty bits alone. -/
@[simp] theorem setAt_keeps (p v : Nat) : (x.setAt p v).pc = x.pc ∧ (x.setAt p v).acc = x.acc ∧
    (x.setAt p v).flags = x.flags ∧ (x.setAt p v).rpc = x.rpc ∧ (x.setAt p v).rkind = x.rkind := by
  unfold setAt
  dsimp only
  repeat' split
  all_goals exact ⟨rfl, rfl, rfl, rfl, rfl⟩

/-- SAT changes FLAGS and its dirty bit alone. -/
@[simp] theorem satIf_keeps (b : Bool) : (x.satIf b).pc = x.pc ∧ (x.satIf b).acc = x.acc ∧
    (x.satIf b).regs = x.regs ∧ (x.satIf b).rpc = x.rpc ∧ (x.satIf b).rkind = x.rkind := by
  cases b <;> exact ⟨rfl, rfl, rfl, rfl, rfl⟩

theorem getAt_setAt (p v q : Nat) : (x.setAt p v).getAt q = if q = p then v % 2 ^ 32 else x.getAt q := by
  have hregs : (x.setAt p v).regs = tset (fun _ => 0#32) x.regs p (BitVec.ofNat 32 v) := by
    unfold setAt
    dsimp only
    repeat' split
    all_goals rfl
  rw [getAt, hregs, tget_tset]
  split
  · exact BitVec.toNat_ofNat v 32
  · rfl

@[simp] theorem getAt_setAt_self (p v : Nat) : (x.setAt p v).getAt p = v % 2 ^ 32 := by rw [getAt_setAt, if_pos rfl]

@[simp] theorem getAt_satIf (b : Bool) (p : Nat) : (x.satIf b).getAt p = x.getAt p := by cases b <;> rfl

/-- SAT is sticky. -/
@[simp] theorem bitAt_flags_satIf (b : Bool) : bitAt (x.satIf b).flags 4 = (bitAt x.flags 4 || b) := by
  have htest (w : Nat) : bitAt w 4 = w.testBit 4 := by
    rw [bitAt, Nat.testBit_eq_decide_div_mod_eq]
    rfl
  cases b
  · exact (Bool.or_false _).symm
  · simp only [satIf, setFlags, soilWide, if_true, htest]
    rw [show 32 = 2 ^ 5 from rfl, Nat.testBit_mod_two_pow, Nat.testBit_or]
    simp [show Nat.testBit 16 4 = true from rfl]

@[simp] theorem accOf_setAcc_self (k : Nat) (v : Int) : (x.setAcc k v).accOf k = v := tget_tset_self _ _ _ _

end Arch
end Sys2Proof.Machine
end

section
/-! Quotients, roots and accumulators: the roundings, the root found bit by bit, and the 72 bits of an accumulator
(R199 to R201). -/

namespace Sys2Proof.Machine

/-! ## Roundings -/

/-- Integer x is n / d to the nearest, a tie away from zero. -/
def IsNearest (n d x : Int) : Prop :=
  2 * (x * d - n).natAbs ≤ d.natAbs ∧ (2 * (x * d - n).natAbs = d.natAbs → n.natAbs < (x * d).natAbs)

section
variable {n d : Int}

theorem floorDiv_spec (n : Int) (hd : 0 < d) : floorDiv n d * d ≤ n ∧ n < (floorDiv n d + 1) * d := by
  rw [floorDiv, Int.fdiv_eq_ediv_of_nonneg _ (Int.le_of_lt hd)]
  exact ⟨Int.ediv_mul_le n (Int.ne_of_gt hd), Int.lt_ediv_add_one_mul_self n hd⟩

theorem isNearest_roundUpDiv (hn : 0 ≤ n) (hd : 0 < d) : IsNearest n d (roundUpDiv n d) := by
  obtain ⟨hlo, hhi⟩ := floorDiv_spec (2 * n + d) (show 0 < 2 * d by omega)
  rw [floorDiv] at hlo hhi
  rw [roundUpDiv, IsNearest]
  generalize Int.fdiv (2 * n + d) (2 * d) = x at hlo hhi
  rw [Int.add_mul, Int.one_mul] at hhi
  rw [Int.mul_left_comm] at hlo hhi
  generalize x * d = p at hlo hhi
  omega

theorem IsNearest.neg {x : Int} (h : IsNearest n d x) : IsNearest (-n) d (-x) := by
  unfold IsNearest at h ⊢
  rw [Int.neg_mul]
  generalize x * d = p at h
  omega

theorem isNearest_roundAwayDiv (n : Int) (hd : 0 < d) : IsNearest n d (roundAwayDiv n d) := by
  unfold roundAwayDiv
  split
  · next hn =>
    have h := (isNearest_roundUpDiv (n := -n) (by omega) hd).neg
    rwa [Int.neg_neg] at h
  · next hn => exact isNearest_roundUpDiv (Int.not_lt.mp hn) hd

theorem isNearest_roundQuot (n : Int) (hd : d ≠ 0) : IsNearest n d (roundQuot n d) := by
  unfold roundQuot
  split
  · next hneg =>
    have h := isNearest_roundAwayDiv (-n) (d := -d) (by omega)
    unfold IsNearest at h ⊢
    generalize roundAwayDiv (-n) (-d) = x at h
    rw [Int.mul_neg] at h
    generalize x * d = p at h
    omega
  · exact isNearest_roundAwayDiv n (by omega)

end

/-! ## Division (R199) -/

section
variable (a b : BitVec 32)

theorem toInt_range : -(2 ^ 31) ≤ a.toInt ∧ a.toInt < 2 ^ 31 := ⟨BitVec.le_toInt a, BitVec.toInt_lt⟩

theorem byZero_toNat : byZero a.toNat = (if a.toInt < 0 then 0x80000000 else 0x7FFFFFFF, true) :=
  congrArg (fun i : Int => ((if i < 0 then 0x80000000 else 0x7FFFFFFF : Nat), true)) (s32_toNat a)

variable {b} (hb : b ≠ 0)
include hb

theorem toNat_ne_zero : b.toNat ≠ 0 := fun h => hb (BitVec.eq_of_toNat_eq h)

theorem toInt_ne_zero : b.toInt ≠ 0 := fun h => hb (BitVec.toInt_inj.mp h)

/-- The one quotient out of range is -2^31 / -1. -/
theorem tdiv_range : -(2 ^ 31) ≤ Int.tdiv a.toInt b.toInt ∧ Int.tdiv a.toInt b.toInt ≤ 2 ^ 31 ∧
    (Int.tdiv a.toInt b.toInt = 2 ^ 31 ↔ a.toInt = -(2 ^ 31) ∧ b.toInt = -1) := by
  have hn := toInt_range a
  have hm := toInt_ne_zero hb
  generalize b.toInt = m at hm
  generalize a.toInt = n at hn
  by_cases h1 : m = 1
  · rw [h1, Int.tdiv_one]
    omega
  by_cases h2 : m = -1
  · rw [h2, Int.tdiv_neg, Int.tdiv_one]
    omega
  have habs : (Int.tdiv n m).natAbs = n.natAbs / m.natAbs := Int.natAbs_tdiv n m
  have hhalf : n.natAbs / m.natAbs ≤ n.natAbs / 2 := Nat.div_le_div_left (by omega) (by decide)
  omega

theorem divide_divs : IsHeld (divide 0 a.toNat b.toNat) (Int.tdiv a.toInt b.toInt) := by
  refine Eq.mpr (congrArg (IsHeld · _) (if_neg (toNat_ne_zero hb))) ?_
  exact isHeld_sat32_of_eq (by rw [s32_toNat, s32_toNat])

theorem divide_divq :
    IsHeld (divide 2 a.toNat b.toNat) (roundQuot (a.toInt * 2 ^ 31) b.toInt) := by
  refine Eq.mpr (congrArg (IsHeld · _) (if_neg (toNat_ne_zero hb))) ?_
  exact isHeld_sat32_of_eq (by rw [s32_toNat, s32_toNat])

theorem divide_rems : (BitVec.ofNat 32 (divide 3 a.toNat b.toNat).1).toInt =
    a.toInt - b.toInt * Int.tdiv a.toInt b.toInt ∧ (divide 3 a.toNat b.toNat).2 = false := by
  have hne := toNat_ne_zero hb
  have hm := toInt_range b
  have hm0 := toInt_ne_zero hb
  have habs : (Int.tmod a.toInt b.toInt).natAbs = a.toInt.natAbs % b.toInt.natAbs := Int.natAbs_tmod _ _
  have hlt : a.toInt.natAbs % b.toInt.natAbs < b.toInt.natAbs := Nat.mod_lt _ (by omega)
  simp only [divide, if_neg hne, s32_toNat]
  refine ⟨?_, trivial⟩
  rw [toInt_ofNat_pat (by omega) (by omega), Int.tmod_def]

end

/-! ## Roots (R199) -/

/-- A bit of the root stands where the square still fits. -/
theorem rootFrom_spec (x : Nat) : ∀ n r, r * r ≤ x → x < (r + 2 ^ n) * (r + 2 ^ n) →
    rootFrom n x r * rootFrom n x r ≤ x ∧ x < (rootFrom n x r + 1) * (rootFrom n x r + 1) := by
  intro n
  induction n with
  | zero => exact fun r hlo hhi => ⟨hlo, hhi⟩
  | succ n ih =>
    intro r hlo hhi
    rw [rootFrom]
    split
    · next hfits =>
      refine ih _ hfits ?_
      rwa [Nat.add_assoc, ← Nat.two_mul, ← Nat.pow_succ']
    · next hover => exact ih _ hlo (Nat.lt_of_not_le hover)

theorem squareRoot_floor (a : BitVec 32) :
    let r := (squareRoot 0 a.toNat).1
    r * r ≤ a.toNat ∧ a.toNat < (r + 1) * (r + 1) := by
  have hlt := a.isLt
  exact rootFrom_spec a.toNat 16 0 (Nat.zero_le _) hlt

theorem succ_mul_self (k : Nat) : (k + 1) * (k + 1) = k * k + 2 * k + 1 := by
  rw [Nat.add_mul, Nat.mul_add]
  omega

theorem odd_mul_self (k : Nat) : (2 * k + 1) * (2 * k + 1) = 4 * (k * k) + 4 * k + 1 := by
  rw [succ_mul_self, Nat.mul_mul_mul_comm]
  omega

/-- A root to the nearest: r + 1 where the square of r + 1/2 still fits. -/
theorem squareRoot_nearest {a : BitVec 32} (ha : 0 ≤ a.toInt) :
    let r := (squareRoot 1 a.toNat).1
    4 * a.toNat * 2 ^ 31 < (2 * r + 1) * (2 * r + 1) ∧ (0 < r → (2 * r - 1) * (2 * r - 1) ≤ 4 * a.toNat * 2 ^ 31) ∧
      (squareRoot 1 a.toNat).2 = false := by
  have hlt := a.isLt
  obtain ⟨hlo, hhi⟩ := rootFrom_spec (a.toNat * 2 ^ 31) 32 0 (Nat.zero_le _) (by omega)
  simp only [squareRoot, Nat.one_ne_zero, if_false, s32_toNat, if_neg (Int.not_lt.mpr ha)]
  generalize rootFrom 32 (a.toNat * 2 ^ 31) 0 = q at hlo hhi
  rw [Nat.mul_assoc]
  generalize a.toNat * 2 ^ 31 = x at hlo hhi
  rw [succ_mul_self] at hhi
  refine ⟨?_, ?_, trivial⟩
  · rw [odd_mul_self]
    split
    · rw [succ_mul_self]
      omega
    · omega
  · split
    · intro _
      rw [show 2 * (q + 1) - 1 = 2 * q + 1 by omega, odd_mul_self]
      omega
    · intro hq
      obtain ⟨k, rfl⟩ := Nat.exists_eq_succ_of_ne_zero (Nat.ne_of_gt hq)
      rw [show 2 * (k + 1) - 1 = 2 * k + 1 by omega, odd_mul_self]
      rw [succ_mul_self] at hlo
      omega

/-- Settles O35, an operation at a time. -/
theorem divisionAndRootsAreExact : Obligations.DivisionAndRootsAreExact := by
  unfold Obligations.DivisionAndRootsAreExact
  intro a b
  refine ⟨fun _ => ⟨fun k hk => ?_, rfl, fun k hk => ?_⟩, fun hb => ⟨⟨?_, ?_⟩, ?_, divide_rems a hb, ?_, ?_⟩,
    ⟨(squareRoot_floor a).1, (squareRoot_floor a).2, rfl⟩, fun hneg => ?_, fun hpos => squareRoot_nearest hpos, ?_⟩
  -- Division by 0
  · simp only [List.mem_cons, List.not_mem_nil, or_false] at hk
    rcases hk with rfl | rfl <;> exact byZero_toNat a
  · simp only [List.mem_cons, List.not_mem_nil, or_false] at hk
    rcases hk with rfl | rfl <;> rfl
  -- DIVS, DIVU, REMU, DIVQ
  · exact (divide_divs a hb).1
  · refine (divide_divs a hb).2.trans ?_
    obtain ⟨hlo, hhi, hout⟩ := tdiv_range a hb
    rw [← hout]
    unfold held32
    omega
  · exact if_neg (toNat_ne_zero hb)
  · rw [← Nat.mod_eq_sub_mul_div]
    exact if_neg (toNat_ne_zero hb)
  · obtain ⟨hnear, htie⟩ := isNearest_roundQuot (a.toInt * 2 ^ 31) (toInt_ne_zero hb)
    exact ⟨_, hnear, htie, divide_divq a hb⟩
  -- SQRTQ of a negative number
  · simp only [squareRoot, Nat.one_ne_zero, if_false, s32_toNat, if_pos hneg]
  -- No operation raises an exception
  · intro w y u row f k d g h x sh p q r t s z o ho
    simp only [List.mem_cons, List.not_mem_nil, or_false] at ho
    rcases ho with rfl | rfl | rfl | rfl | rfl | rfl | rfl | rfl | rfl | rfl <;> exact ⟨_, rfl⟩

/-! ## Accumulators (R200) -/

theorem acc72_range (x : Int) : -(2 ^ 71) ≤ acc72 x ∧ acc72 x < 2 ^ 71 := sx_range (n := 72) (by decide) _

theorem acc72_of_range {x : Int} (hlo : -(2 ^ 71) ≤ x) (hhi : x < 2 ^ 71) : acc72 x = x :=
  sx_pat (n := 72) (by decide) hlo hhi

theorem acc72_congr (x : Int) : (acc72 x - x) % 2 ^ 72 = 0 := by
  unfold acc72 sx pat
  dsimp only
  split <;> omega

theorem ofNat_mullo (a b : BitVec 32) : BitVec.ofNat 32 (alu .mullo a.toNat b.toNat).1 = a * b := by
  rw [alu, ofNat_pat, s32_toNat, s32_toNat, BitVec.ofInt_mul, BitVec.ofInt_toInt, BitVec.ofInt_toInt]

/-- MAC, MSU and MACU add or subtract the exact product modulo 2^72. -/
theorem multiply_accumulates {a b : BitVec 32} {acc x : Int} {k : Nat}
    (h : (k, x) ∈ [(1, acc + a.toInt * b.toInt), (2, acc - a.toInt * b.toInt), (4, acc + a.toNat * b.toNat)]) :
    multiply k acc a.toNat b.toNat = acc72 x := by
  simp only [List.mem_cons, List.not_mem_nil, or_false, Prod.mk.injEq] at h
  rcases h with ⟨rfl, rfl⟩ | ⟨rfl, rfl⟩ | ⟨rfl, rfl⟩
  · rw [multiply, s32_toNat, s32_toNat]
  · rw [multiply, s32_toNat, s32_toNat]
  · rw [← Int.natCast_mul]
    rfl

/-! ## MFP (R201) -/

theorem toInt_ofNat_pat_congr (x : Int) : ((BitVec.ofNat 32 (pat 32 x)).toInt - x) % 2 ^ 32 = 0 := by
  rw [ofNat_pat, BitVec.toInt_ofInt, Int.bmod]
  split <;> omega

/-- The value that MFP moves, before it is held to the range. -/
def mfpValue (acc : Int) (sh : Nat) (rnd : Bool) : Int :=
  if rnd then roundAwayDiv acc (2 ^ sh) else floorDiv acc (2 ^ sh)

theorem moveFrom_sat (acc : Int) (sh : Nat) (rnd : Bool) :
    IsHeld (moveFrom acc sh rnd true) (mfpValue acc sh rnd) := isHeld_sat32 _

theorem moveFrom_wrap (acc : Int) (sh : Nat) (rnd : Bool) :
    ((BitVec.ofNat 32 (moveFrom acc sh rnd false).1).toInt - mfpValue acc sh rnd) % 2 ^ 32 = 0 :=
  toInt_ofNat_pat_congr _

/-- Settles O36, an operation at a time. -/
theorem accumulatorsAndMfpAreExact : Obligations.AccumulatorsAndMfpAreExact := by
  unfold Obligations.AccumulatorsAndMfpAreExact
  refine ⟨fun a b acc _ _ => ⟨fun w y u s z x g sh d h => ?_, ?_, ?_, fun k x hkx => ?_, ofNat_mullo a b,
    fun n hn hacc hfull => ?_⟩, fun acc sh sat => ?_, fun w y u s z d x sh r t => ?_, fun d x hd hx => ?_⟩
  -- MTP and MULLO
  · refine ⟨_, _, _, rfl, rfl, rfl, ?_, ?_, ?_, Arch.accOf_setAcc_self _ _ _, ?_⟩
    · exact (congrArg (fun v => (v - _) % 2 ^ 72) (Arch.accOf_setAcc_self _ _ _)).trans (acc72_congr _)
    · exact (Arch.accOf_setAcc_self _ _ _).symm ▸ (acc72_range _).1
    · exact (Arch.accOf_setAcc_self _ _ _).symm ▸ (acc72_range _).2
    · simp [Eff.result, Eff.put, Eff.sat]
  -- MUL, MULU, and the accumulating products
  · rw [multiply, s32_toNat, s32_toNat]
  · exact Int.natCast_mul _ _
  · rw [multiply_accumulates hkx]
    exact ⟨(acc72_range x).1, (acc72_range x).2, acc72_congr x⟩
  · rw [multiply_accumulates (k := 1) (List.mem_cons_self ..), hacc, hfull,
      acc72_of_range (by omega) (by omega)]
    omega
  -- MFP
  · have hpos := two_pow_pos_int sh
    have hnear := isNearest_roundAwayDiv acc hpos
    rw [IsNearest, Int.natAbs_pow] at hnear
    refine ⟨mfpValue acc sh true, mfpValue acc sh false, hnear, floorDiv_spec acc hpos, fun rnd v hv => ?_⟩
    have hval : v = mfpValue acc sh rnd := by
      simp only [List.mem_cons, List.not_mem_nil, or_false, Prod.mk.injEq] at hv
      rcases hv with ⟨rfl, rfl⟩ | ⟨rfl, rfl⟩ <;> rfl
    subst hval
    refine ⟨?_, ?_⟩
    · rintro rfl
      exact moveFrom_sat acc sh rnd
    · rintro rfl
      exact ⟨moveFrom_wrap acc sh rnd, rfl⟩
  · exact ⟨_, rfl, by simp [Eff.result, Eff.put, Eff.sat]⟩
  -- The short MFP
  · exact (decodeShort_of_encodeShort (o := .mfp d x 31 true true) (if_pos ⟨hd, by decide, hx⟩)).2

end Sys2Proof.Machine
end

section
/-! Bundles of register operations: a bundle whose effect is a new architected state retires with that state and leaves
the rest of the device alone; single operations, pairs and repeated bundles (R187, R190, R195 to R206, R234). -/

namespace Sys2Proof.Machine

/-! ## The bundle of a single engine (R187, R205, R212) -/

/-- State a after the operations of a bundle of state x, as it stands when the bundle retires: on to the next bundle,
or the repeated bundle again (R205). -/
def Arch.advance (x a : Arch) : Arch :=
  if x.rkind = 0 then a
  else if 2 ≤ x.rpc then { a.setRep (x.rpc - 1) (if x.rkind = 1 then 1 else 2) with pc := x.pc }
  else { a.setRep 0 0 with pc := x.pc + 4 }

theorem advance_at (x a : Arch) : advance x (Eff.at a) = Eff.at (x.advance a) := by
  unfold advance Arch.advance
  repeat' split
  all_goals rfl

theorem Arch.advance_of_no_repeat {x : Arch} (a : Arch) (h : x.rkind = 0) : x.advance a = a := if_pos h

@[simp] theorem Arch.getAt_advance (x a : Arch) (p : Nat) : (x.advance a).getAt p = a.getAt p := by
  unfold advance
  repeat' split
  all_goals rfl

theorem Arch.advance_of_more {x : Arch} (a : Arch) (h : x.rkind ≠ 0) (hmore : 2 ≤ x.rpc) :
    (x.advance a).pc = x.pc ∧ (x.advance a).rpc = x.rpc - 1 ∧
      (x.advance a).rkind = if x.rkind = 1 then 1 else 2 := by
  rw [advance, if_neg h, if_pos hmore]
  exact ⟨rfl, rfl, rfl⟩

theorem Arch.advance_of_last {x : Arch} (a : Arch) (h : x.rkind ≠ 0) (hlast : x.rpc = 1) :
    (x.advance a).pc = x.pc + 4 ∧ (x.advance a).rpc = 0 ∧ (x.advance a).rkind = 0 := by
  rw [advance, if_neg h, if_neg (by omega)]
  exact ⟨rfl, rfl, rfl⟩

/-- A bundle whose operations complete has their effect, advanced. -/
theorem bundleEffect_of_runOps {w : Who} {x : Arch} {u : Upset} {xs : List Op} {s t : State} {y : Eff}
    (h : runOps w x u xs s (Eff.at x.next) = done t y) : bundleEffect w x u xs s = done t (advance x y) := by
  rw [bundleEffect, h]
  rfl

section
variable {s : State} {e : Fin 128} {u : Upset} {r : Row} {xs : List Op}

/-- Where a single engine issues a bundle of row r that has effect y, and the writes of y are performed, the command of
the row retires the bundle. -/
theorem exec_of_issues_bundle {t s1 : State} {y : Eff} {n : Nat} (h : Issues s e xs) (hspells : spells r xs = true)
    (heff : bundleEffect (Who.single e) (engOf s e).arch (rowUpset r u) xs s = done t y)
    (hrefused : y.refused = []) (hops : performOps e y.upset y.ops (takeEff e y t) = (s1, n, false)) :
    exec (rowCommand r e u) s = .next (settleEff e (engOf s e).arch.pc y s1) := by
  obtain ⟨halive, hslot, hmay, hevent, hexc, hfetch, htouch, hwaits⟩ := h
  rw [whoOf_of_single hslot] at hmay hevent hexc hfetch htouch hwaits
  have hrun : runBundle (Who.single e) (rowUpset r u) xs s s = some (settleEff e (engOf s e).arch.pc y s1) := by
    have hretire := retireSingle_of_performed (w := Who.single e) (pc := (engOf s e).arch.pc) rfl hrefused hops
    simp only [runBundle, finishSingle, Who.single] at hwaits hretire heff ⊢
    simp [hwaits, heff, done, hretire]
  rw [exec_rowCommand, live_eq halive rfl, engineStep, whoOf_of_single hslot]
  simp [hmay, hevent, hexc, nextBundle, hfetch, htouch, hspells, hrun]

/-- A bundle whose operations take the engine's state to a retires with a, advanced, and with nothing else changed. -/
theorem runs_of_runOps {a : Arch} (h : Issues s e xs) (hspells : spells r xs = true)
    (hops : runOps (Who.single e) (engOf s e).arch (rowUpset r u) xs s (Eff.at (engOf s e).arch.next) =
      done s (Eff.at a)) :
    Runs (rowCommand r e u) s (Retired e { engOf s e with
      arch := (engOf s e).arch.advance a, base := (engOf s e).arch.advance a } s) := by
  have heff := bundleEffect_of_runOps hops
  rw [advance_at] at heff
  exact runs_of_eq (exec_of_issues_bundle (n := 0) h hspells heff rfl rfl)
    (retired_settleEff_of_idle s rfl rfl rfl rfl (.inl rfl))

/-- Outside a repeat it retires with a itself. -/
theorem runs_once_of_runOps {a : Arch} (h : Issues s e xs) (hspells : spells r xs = true)
    (hrep : (engOf s e).arch.rkind = 0)
    (hops : runOps (Who.single e) (engOf s e).arch (rowUpset r u) xs s (Eff.at (engOf s e).arch.next) =
      done s (Eff.at a)) :
    Runs (rowCommand r e u) s (Retired e { engOf s e with arch := a, base := a } s) := by
  have hrun := runs_of_runOps h hspells hops
  rwa [Arch.advance_of_no_repeat a hrep] at hrun

/-- The same of a bundle of one operation. -/
theorem runs_once_of_runOp {o : Op} {a : Arch} (h : Issues s e [o]) (hrep : (engOf s e).arch.rkind = 0)
    (hop : runOp (Who.single e) (engOf s e).arch (rowUpset o.row u) o s (Eff.at (engOf s e).arch.next) =
      done s (Eff.at a)) :
    Runs (rowCommand o.row e u) s (Retired e { engOf s e with arch := a, base := a } s) :=
  runs_once_of_runOps h (spells_row o) hrep (by rw [runOps, hop]; rfl)

end

/-! ## Branches and special registers (R195, R197, R204) -/

theorem runOp_br {w : Who} {x a : Arch} {u : Upset} {k : Nat} {s : State} (ofs : Int) :
    runOp w x u (.br k ofs) s (Eff.at a) =
      done s (Eff.at (if condHolds x.flags k then { a with pc := branchTo x.pc ofs } else a)) := by
  rw [runOp]
  split <;> rfl

theorem moveFromSpecial_of_level {w : Who} {n d l : Nat} {x : Arch} {s : State} (y : Eff)
    (hl : sregLevel n false = some l) (hpriv : l ≤ x.priv) (hlo : n ≠ 0x0C) (hhi : n ≠ 0x0D) :
    moveFromSpecial w x d n s y = done s (y.put x d (sregRead w.home x n)) := by
  simp [moveFromSpecial, hl, Nat.not_lt.mpr hpriv, hlo, hhi]

theorem moveToSpecial_of_level {n g l : Nat} {x : Arch} {s : State} (y : Eff)
    (hl : sregLevel n true = some l) (hpriv : l ≤ x.priv) :
    moveToSpecial x n g s y = done s { y with x := sregWrite n (x.getReg g) y.x } := by
  simp [moveToSpecial, hl, Nat.not_lt.mpr hpriv]

/-! ## Windows and banks (R193, R194, R234) -/

section
variable {x : Arch} {s : State} (y : Eff) (hbank : x.bank ≠ 4)
include hbank

theorem runOp_switch {w : Who} {u : Upset} {k : Nat} (hpriv : 1 ≤ x.priv) :
    runOp w x u (.switch k) s y = done s { y with x := { y.x with bank := k } } := by
  simp [runOp, Op.row, hbank, sysLevel, Nat.not_lt.mpr hpriv, sysOp]

theorem callWindow_of_room {ofs : Int} (hlive : x.liveOf x.bank ≠ 7) :
    callWindow x ofs s y = done s (({ y with
      x := (y.x.setWix x.bank (x.wixOf x.bank + 1)).setLive x.bank (x.liveOf x.bank + 1) }.put x 15
        (x.pc + 4)).jump (branchTo x.pc ofs)) := by
  rw [callWindow, if_neg hbank, if_neg hlive]

theorem returnWindow_of_live (hlive : x.liveOf x.bank ≠ 1) :
    returnWindow x s y = done s ({ y with
      x := (y.x.setWix x.bank (x.wixOf x.bank + 7)).setLive x.bank (x.liveOf x.bank - 1) }.jump
        (x.getReg 15 / 4 * 4)) := by
  rw [returnWindow, if_neg hbank, if_neg hlive]

end

/-- Settles O29, an operation at a time. -/
theorem engineRegisterBundlesRun : Obligations.EngineRegisterBundlesRun := by
  unfold Obligations.EngineRegisterBundlesRun
  intro s e u o a row f d g h k x sh n i p r b c ofs y next put link hrep hissues ho
  refine runs_once_of_runOp hissues hrep ?_
  obtain ho | ⟨l, hl, hpriv, hlo, hhi, rfl, rfl⟩ | ⟨l, hl, hpriv, rfl, rfl⟩ | ⟨rfl, hpriv, hbank, rfl⟩ |
    ⟨rfl, hbank, hlive, rfl⟩ | ⟨rfl, hbank, hlive, rfl⟩ := ho
  · simp only [List.mem_cons, List.not_mem_nil, or_false, Prod.mk.injEq] at ho
    rcases ho with ⟨rfl, rfl⟩ | ⟨rfl, rfl⟩ | ⟨rfl, rfl⟩ | ⟨rfl, rfl⟩ | ⟨rfl, rfl⟩ | ⟨rfl, rfl⟩ | ⟨rfl, rfl⟩ |
      ⟨rfl, rfl⟩ | ⟨rfl, rfl⟩ | ⟨rfl, rfl⟩ | ⟨rfl, rfl⟩ | ⟨rfl, rfl⟩ | ⟨rfl, rfl⟩ | ⟨rfl, rfl⟩ | ⟨rfl, rfl⟩ |
      ⟨rfl, rfl⟩ | ⟨rfl, rfl⟩ | ⟨rfl, rfl⟩ | ⟨rfl, rfl⟩
    iterate 10 · rfl
    · exact runOp_br ofs
    iterate 8 · rfl
  -- MFS, MTS, SWITCH, CALLW, RETW
  · exact moveFromSpecial_of_level _ hl hpriv hlo hhi
  · exact moveToSpecial_of_level _ hl hpriv
  · exact runOp_switch _ hbank hpriv
  · exact callWindow_of_room _ hbank hlive
  · exact returnWindow_of_live _ hbank hlive

/-! ## Pairs (R187, R190, R191) -/

/-- State z with result r in the register that state x names d, and SAT set where r saturates (R196). -/
def Arch.withResult (z x : Arch) (d : Nat) (r : Nat × Bool) : Arch := (z.setAt (x.place d) r.1).satIf r.2

/-- Settles O33: both results are those of the state before the bundle, and slot B's is written last. -/
theorem pairedSlotsReadBeforeEither : Obligations.PairedSlotsReadBeforeEither := by
  unfold Obligations.PairedSlotsReadBeforeEither
  intro s e u ra rb f g d h p q v w y x1 x2 hrep hra hrb _ hissues r hr
  have hspells : spells r [x1, x2] = true := by
    simp only [List.mem_cons, List.not_mem_nil, or_false] at hr
    rcases hr with rfl | rfl <;> simp [spells, hra, hrb, x1, x2, Op.row]
  obtain ⟨t, hexec, heng, hkeeps, hmem, -⟩ := runs_once_of_runOps (u := u)
    (a := (y.next.withResult y d (alu f (y.src p) (y.src q))).withResult y h (alu g (y.src v) (y.src w)))
    hissues hspells hrep rfl
  refine ⟨t, hexec, ?_⟩
  simp only [heng, Arch.withResult]
  exact ⟨fun hne => by simp [Arch.getAt_setAt, hne], by simp, by simp, by simp, hkeeps, hmem⟩

/-! ## Repeats (R205, R206) -/

/-- No interrupt is taken inside REP, or before the first repetition of REPI. -/
theorem takeInterrupt_of_repeat {s : State} {e : Nat} (h : (engOf s e).arch.rkind = 1 ∨ (engOf s e).arch.rkind = 3) :
    takeInterrupt (Who.single e) s = none := by
  unfold takeInterrupt
  exact if_pos (h.elim .inl fun h => .inr (.inl h))

/-- Settles O39: the result is that of the operation, and the repeat state is that of Arch.advance. -/
theorem repeatedBundleRunsItsCount : Obligations.RepeatedBundleRunsItsCount := by
  unfold Obligations.RepeatedBundleRunsItsCount
  intro s e u row f d p q y hkind hissues
  have hrep : y.rkind ≠ 0 := by omega
  refine ⟨?_, fun hnot => ?_⟩
  · obtain ⟨t, hexec, heng, hkeeps, hmem, -⟩ := runs_of_runOps (u := u)
      (a := y.next.withResult y d (alu f (y.src p) (y.src q))) hissues (spells_row (.alu row f d p q)) rfl
    refine ⟨t, hexec, ?_⟩
    simp only [heng]
    exact ⟨by simp [y, Arch.withResult], hmem, hkeeps, Arch.advance_of_more _ hrep, Arch.advance_of_last _ hrep⟩
  · obtain ⟨-, hslot, -⟩ := hissues
    rw [whoOf_of_single hslot]
    exact takeInterrupt_of_repeat (show y.rkind = 1 ∨ y.rkind = 3 by omega)

end Sys2Proof.Machine
end

section
/-! Memory under the stores of an engine: what a write of one 64-bit word leaves of memory, and that an engine's write
to SRAM is one (R9, R37, R297 to R299). -/

namespace Sys2Proof.Machine

/-! ## Values in memory (R9) -/

theorem setValue_succ (a n v : Nat) (s : State) :
    setValue a (n + 1) v s = setValue (a + 1) n (v / 256) (setByte a v s) := by
  have hbyte : setByte (a + 0) (v % 256) s = setByte a v s := by
    simp only [setByte, Nat.add_zero]
    rw [show BitVec.ofNat 8 (v % 256) = BitVec.ofNat 8 v from BitVec.eq_of_toNat_eq (by simp)]
  simp only [setValue, toBytes, List.range_succ_eq_map, List.zip_cons_cons, List.zip_map_left, forAll, List.foldl_cons,
    List.foldl_map, hbyte]
  congr 1
  funext s x
  exact congrArg (setByte · _ s) (by simp only [Prod.map_fst]; omega)

theorem memValue_succ (s : State) (a n : Nat) : memValue s a (n + 1) = memByte s a + 256 * memValue s (a + 1) n := by
  have hlt : memByte s a < 256 := (tget (fun _ => 0#8) s.mem a).isLt
  simp only [memValue, List.range_succ_eq_map, List.map_cons, List.map_map, fromBytes, List.foldr_cons]
  have hnext : (fun i => memByte s (a + i)) ∘ Nat.succ = fun i => memByte s (a + 1 + i) :=
    funext fun i => congrArg (memByte s) (by simp only [Nat.succ_eq_add_one]; omega)
  rw [Nat.add_zero, Nat.mod_eq_of_lt hlt, hnext]

/-- A value reads back, cut to its bytes. -/
theorem memValue_setValue_self (n : Nat) : ∀ (a v : Nat) (s : State),
    memValue (setValue a n v s) a n = v % 2 ^ (8 * n) := by
  induction n with
  | zero =>
    intro a v s
    simp [memValue, fromBytes, Nat.mod_one]
  | succ n ih =>
    intro a v s
    rw [setValue_succ, memValue_succ, ih, memByte_setValue_ne _ _ _ _ _ (.inl (Nat.lt_succ_self a)), memByte_setByte,
      if_pos rfl, show 8 * (n + 1) = 8 + 8 * n by omega, Nat.pow_add, Nat.mod_mul]

/-! ## What a read of a word leaves (R297, R300) -/

theorem mem_report (x : Rep) (s : State) : (report x s).mem = s.mem := mem_eq_of_besideFaults (besideFaults_report x s)

theorem mem_correctWord (k a : Nat) (scrub : Bool) (s : State) : (correctWord k a scrub s).mem = s.mem := by
  unfold correctWord
  dsimp only
  split <;> simp only [mem_report] <;> rfl

theorem mem_strikeWord (a : Nat) (u : Upset) (s : State) : (strikeWord a u s).1.mem = s.mem := by
  cases u <;> rfl

theorem mem_report_ite (b : Bool) (x : Rep) (s : State) : (if b then report x s else s).mem = s.mem := by
  split
  · exact mem_report x s
  · rfl

/-- A read of a word changes no byte of memory. -/
theorem mem_touchWord (m k a type size : Nat) (scrub : Bool) (u : Upset) (s : State) :
    (touchWord m k a type size scrub u s).1.mem = s.mem := by
  unfold touchWord
  dsimp only
  split
  · split
    · rfl
    · exact mem_report _ _
  · split
    · exact (mem_report_ite _ _ _).trans (mem_strikeWord a u s)
    · exact (mem_correctWord k a scrub _).trans ((mem_report_ite _ _ _).trans (mem_strikeWord a u s))
    · exact (mem_report _ _).trans ((mem_report_ite _ _ _).trans (mem_strikeWord a u s))

theorem memByte_of_mem {s t : State} (h : t.mem = s.mem) (b : Nat) : memByte t b = memByte s b := by
  rw [memByte, h]
  rfl

theorem memValue_of_mem {s t : State} (h : t.mem = s.mem) (a n : Nat) : memValue t a n = memValue s a n := by
  simp only [memValue, memByte_of_mem h]

/-! ## Writes of one word (R298, R299) -/

@[simp] theorem memByte_setUpset (a v b : Nat) (s : State) : memByte (setUpset a v s) b = memByte s b := (rfl)
@[simp] theorem memByte_setWritten (k a b : Nat) (f : Bool) (s : State) :
    memByte (setWritten k a f s) b = memByte s b := (rfl)

section
variable {m k a n v size : Nat} {u : Upset} {s t : State}

/-- A write within a 64-bit word leaves the bytes of the others. -/
theorem memByte_storeWord_ne {b : Nat} (hfit : a % 8 + n ≤ 8) (hb : b / 8 ≠ a / 8) :
    memByte (storeWord m k a n v size u s).1 b = memByte s b := by
  have hout : b < a ∨ a + n ≤ b := by omega
  have hword : b < a / 8 * 8 ∨ a / 8 * 8 + 8 ≤ b := by omega
  unfold storeWord
  dsimp only
  split
  · next hn =>
    subst hn
    rw [memByte_setUpset, memByte_setWritten, memByte_setValue_ne a 8 v b s hout]
  · split
    · split
      · exact (memByte_setValue_ne a n v b _ hout).trans (memByte_of_mem (mem_touchWord ..) b)
      · exact memByte_of_mem (mem_touchWord ..) b
    · rw [memByte_setWritten, memByte_setValue_ne a n v b _ hout, memByte_setUpset, memByte_setValue_ne _ 8 0 b s hword]

/-- A read-modify-write of a written word that is not aborted writes its bytes and no others. -/
theorem storeWord_of_written (hn : n ≠ 8) (hwritten : wordWritten s k a = true)
    (h : storeWord m k a n v size u s = (t, .good)) :
    memValue t a n = v % 2 ^ (8 * n) ∧ ∀ b, (b < a ∨ a + n ≤ b) → memByte t b = memByte s b := by
  simp only [storeWord, if_neg hn, hwritten, if_true] at h
  split at h
  · cases h
    exact ⟨memValue_setValue_self n a v _, fun b hb =>
      (memByte_setValue_ne a n v b _ hb).trans (memByte_of_mem (mem_touchWord ..) b)⟩
  · cases h

end

/-! ## The writes of an engine (R34, R36, R37, R290) -/

section
variable {a k : Nat}

theorem isRegister_of_bankOf (h : bankOf a = some k) : isRegister a = false := by
  refine Bool.eq_false_iff.mpr fun hreg => ?_
  simp only [isRegister, Bool.or_eq_true, Bool.and_eq_true, decide_eq_true_eq] at hreg
  have hnone : bankOf a = none := by
    unfold bankOf
    dsimp only
    rcases hreg with hsystem | hengine
    · rw [if_neg (by omega), if_neg (by omega), if_neg (by omega), if_neg (by omega)]
    · rw [if_pos (by omega), if_neg (by omega), if_neg (by omega)]
  rw [hnone] at h
  cases h

theorem bankOf_of_unlistedWord (h : unlistedWord a = true) : bankOf a = some 168 := by
  simp only [unlistedWord, Bool.and_eq_true, decide_eq_true_eq] at h
  unfold bankOf
  dsimp only
  rw [if_neg (by omega), if_neg (by omega), if_neg (by omega), if_pos (by omega)]

/-- An engine may not write the recorder memory. -/
theorem spineAllows_engine_recorder {s : State} {e : Fin 128} {p : Priv} {size : Nat} (h : bankOf a = some 168) :
    spineAllows s (.engine e p) a size true = false := by
  simp [spineAllows, isRegister_of_bankOf h, h]

end

/-- A write of an engine to SRAM, but to its own code, stores one word of the bank. -/
theorem storeWord_of_spineWrite {e : Fin 128} {p : Priv} {a k size v r : Nat} {u : Upset} {s t : State}
    (hbank : bankOf a = some k) (hown : ownCode (.engine e p) a = none)
    (h : spineWrite (.engine e p) a size v u s = (t, .data r)) :
    storeWord (masterOf s (.engine e p)) k a size v (Nat.log2 size) u s = (t, .good) := by
  simp only [spineWrite, isRegister_of_bankOf hbank, hown, hbank, Bool.false_eq_true, if_false] at h
  split at h
  · cases h
  next hrefused =>
    split at h
    next hunlisted =>
      rw [spineAllows_engine_recorder (bankOf_of_unlistedWord hunlisted)] at hrefused
      exact absurd rfl hrefused
    obtain ⟨rfl, hdone⟩ := Prod.mk.inj h
    split at hdone
    next hgood => exact Prod.ext rfl hgood
    cases hdone

/-! ## The writes of a store (R214, R217) -/

section
variable {w : Who} {o : MemOp}

theorem mem_of_placeOps {os os' : List MemOp} {cwb cwb' : List CodeWrite} (h : placeOps w os cwb = some (cwb', os')) :
    ∀ o ∈ os', o ∈ os ∧ w.isCode o.addr = false := by
  induction os generalizing cwb cwb' os' with
  | nil =>
    cases h
    simp
  | cons x os ih =>
    rw [placeOps] at h
    split at h
    · split at h
      · exact fun o ho => ⟨List.mem_cons_of_mem x (ih h o ho).1, (ih h o ho).2⟩
      · cases h
    · next hcode =>
      obtain ⟨⟨c, rest⟩, hrest, hr⟩ := Option.map_eq_some_iff.mp h
      cases hr
      intro o ho
      rcases List.mem_cons.mp ho with rfl | ho
      · exact ⟨List.mem_cons_self, Bool.eq_false_iff.mpr hcode⟩
      · exact ⟨List.mem_cons_of_mem x (ih hrest o ho).1, (ih hrest o ho).2⟩

theorem bankBase_mod (k : Nat) : bankBase k % 8 = 0 := by
  unfold bankBase
  repeat' split
  all_goals omega

theorem spineAddr_mod (e a : Nat) : spineAddr e a % 8 = a % 8 := by
  have hbase := bankBase_mod e
  unfold spineAddr
  split <;> omega

/-- Each write of a store lies within a 64-bit word. -/
theorem fits_of_mem_storeOps {a n v : Nat} (hn : n = 1 ∨ n = 2 ∨ n = 4) (ho : o ∈ storeOps w a n v) :
    o.code = false ∧ o.addr % 8 + o.size ≤ 8 := by
  have hlo := spineAddr_mod w.home a
  have hhi := spineAddr_mod w.home ((a / 4 * 4 + 4) % 2 ^ 32)
  unfold storeOps at ho
  split at ho
  · next hsplit =>
    simp only [splits, Bool.or_eq_true, Bool.and_eq_true, beq_iff_eq, bne_iff_ne] at hsplit
    simp only [List.mem_cons, List.not_mem_nil, or_false] at ho
    rcases ho with rfl | rfl
    · exact ⟨rfl, by dsimp only; omega⟩
    · exact ⟨rfl, by dsimp only; omega⟩
  · next hwhole =>
    simp only [splits, Bool.or_eq_true, Bool.and_eq_true, beq_iff_eq, bne_iff_ne, not_or, not_and, Decidable.not_not] at hwhole
    obtain rfl := List.mem_singleton.mp ho
    exact ⟨rfl, by dsimp only; omega⟩

theorem Width.bytes_cases (wd : Width) : wd.bytes = 1 ∨ wd.bytes = 2 ∨ wd.bytes = 4 := by
  cases wd <;> decide

end

/-! ## The writes of a single engine to SRAM -/

section
variable {e : Fin 128} {o : MemOp} {k : Nat} {u : Upset} {s t : State}

/-- A write of a single engine that is performed, to SRAM but not to its own code, stores one word. -/
theorem storeWord_of_performOp (hcode : o.code = false) (hbank : bankOf o.addr = some k)
    (hown : (Who.single e).isCode o.addr = false) (h : performOp e o u s = (t, true)) :
    ∃ m, storeWord m k o.addr o.size o.data (Nat.log2 o.size) u s = (t, .good) := by
  have he : Fin.ofNat 128 e.val = e := Fin.ofNat_val_eq_self e
  have hnone : ownCode (.engine e .monitor) o.addr = none := by
    simp only [Who.isCode, Who.owns, Who.single, Bool.and_eq_false_iff, beq_eq_false_iff_ne] at hown
    exact if_neg fun ⟨hbank, hlow⟩ => hown.elim (· hbank) (of_decide_eq_false · hlow)
  simp only [performOp, hcode, he] at h
  split at h
  · cases ‹_ = true›
  · split at h
    · next hwrite =>
      cases h
      exact ⟨_, storeWord_of_spineWrite hbank hnone hwrite⟩
    · cases h

theorem memByte_of_performOp {b : Nat} (hcode : o.code = false) (hbank : (bankOf o.addr).isSome = true)
    (hown : (Who.single e).isCode o.addr = false) (hfit : o.addr % 8 + o.size ≤ 8) (hb : b / 8 ≠ o.addr / 8)
    (h : performOp e o u s = (t, true)) : memByte t b = memByte s b := by
  obtain ⟨k, hk⟩ := Option.isSome_iff_exists.mp hbank
  obtain ⟨m, hstore⟩ := storeWord_of_performOp hcode hk hown h
  have hkeep := memByte_storeWord_ne (m := m) (k := k) (v := o.data) (size := Nat.log2 o.size) (u := u) (s := s) hfit hb
  rwa [hstore] at hkeep

end

/-- Writes of a single engine to SRAM leave every 64-bit word that none of them names. -/
theorem memByte_of_performOps {e : Fin 128} {b n : Nat} {os : List MemOp} : ∀ {u : Upset} {s t : State},
    (∀ o ∈ os, o.code = false ∧ (bankOf o.addr).isSome = true ∧ (Who.single e).isCode o.addr = false ∧
      o.addr % 8 + o.size ≤ 8 ∧ b / 8 ≠ o.addr / 8) →
    performOps e u os s = (t, n, false) → memByte t b = memByte s b := by
  induction os generalizing n with
  | nil =>
    intro u s t _ h
    cases h
    rfl
  | cons o os ih =>
    intro u s t hos h
    obtain ⟨hcode, hbank, hown, hfit, hb⟩ := hos o List.mem_cons_self
    rw [performOps] at h
    split at h
    · next s1 hop =>
      rcases hrest : performOps e .none os s1 with ⟨t1, n1, f⟩
      rw [hrest] at h
      cases h
      rw [ih (fun x hx => hos x (List.mem_cons_of_mem o hx)) hrest, memByte_of_performOp hcode hbank hown hfit hb hop]
    · cases h

end Sys2Proof.Machine
end

section
/-! Loads, stores and context moves of a single engine (R202, R207, R208, R214, R217, R239, R240). -/

namespace Sys2Proof.Machine

/-! ## The state an effect leaves -/

/-- An effect that shows no cause and does not stop the engine for good leaves the engine as the effect made it, with
its stores counted. -/
theorem engOf_settleEff {e pc : Nat} {y : Eff} (s : State) (hcause : y.cause = 0) (hstop : y.stop = 0 ∨ y.stop = 1) :
    engOf (settleEff e pc y s) e = { engOf s e with stores := (engOf s e).stores + acked e y.ops } := by
  rw [engOf_of_onlyRegs (onlyRegs_settleEff s hcause hstop), engOf_countStores]

/-- State z with register g, as state x names it, moved on by n, where n is not 0 (R207). -/
def Arch.moved (z x : Arch) (g : Nat) (n : Int) : Arch :=
  if n = 0 then z else z.setAt (x.place g) (pat 32 ((x.getReg g : Int) + n))

theorem post_at (z x : Arch) (g : Nat) (n : Int) : (Eff.at z).post x g n = Eff.at (z.moved x g n) := by
  unfold Eff.post Arch.moved
  split <;> rfl

theorem mem_takeEff (e : Nat) (y : Eff) (s : State) : (takeEff e y s).mem = s.mem := rfl

section
variable {s s1 : State} {e : Fin 128} {u : Upset} {o : Op} {y : Eff} (hissues : Issues s e [o])
  (hrep : (engOf s e).arch.rkind = 0)
  (hop : runOp (Who.single e) (engOf s e).arch (rowUpset o.row u) o s (Eff.at (engOf s e).arch.next) = done s1 y)
  (hrefused : y.refused = []) (hcause : y.cause = 0) (hstop : y.stop = 0)
include hissues hrep hop hrefused hcause hstop

/-- An operation whose writes leave t1 leaves the memory and the engine of t1, with its stores counted. -/
theorem runs_of_writes {n : Nat} {t1 : State} (hops : performOps e y.upset y.ops (takeEff e y s1) = (t1, n, false)) :
    Runs (rowCommand o.row e u) s fun t => t.mem = t1.mem ∧
      engOf t e = { engOf t1 e with stores := (engOf t1 e).stores + acked e y.ops } :=
  runs_of_eq (exec_of_issues hissues hrep hop hrefused hops)
    ⟨(settleEff_keeps t1 hcause (.inl hstop)).2, engOf_settleEff t1 hcause (.inl hstop)⟩

/-- An operation that writes nothing leaves the memory it found and the engine as its effect makes it. -/
theorem runs_of_no_writes (hops : y.ops = []) :
    Runs (rowCommand o.row e u) s fun t => t.mem = s1.mem ∧ engOf t e = (engOf s1 e).take y := by
  have hnone : performOps e y.upset y.ops (takeEff e y s1) = (takeEff e y s1, 0, false) := by rw [hops]; rfl
  obtain ⟨t, hexec, hmem, heng⟩ := runs_of_writes hissues hrep hop hrefused hcause hstop hnone
  refine ⟨t, hexec, hmem, ?_⟩
  rw [heng, takeEff_eq, engOf_updEng_self, hops]
  rfl

end

/-! ## Loads (R202, R208) -/

theorem rowUpset_load (wd : Width) (d g : Nat) (ofs post : Int) (u : Upset) :
    rowUpset (Op.load wd d g ofs post).row u = u := by cases wd <;> rfl

theorem rowUpset_store (wd : Width) (d g : Nat) (ofs post : Int) (u : Upset) :
    rowUpset (Op.store wd d g ofs post).row u = u := by cases wd <;> rfl

section
variable {s s1 : State} {e : Fin 128} {u : Upset} {wd : Width} {d g v : Nat} {ofs post : Int}

/-- The home engine's own memories hold every part of an access of n bytes at address a (R203). -/
def Who.ownsParts (w : Who) (a n : Nat) : Bool := (accessParts a n).all fun p => w.owns (spineAddr w.home p.addr)

/-- A load that its access gives v writes it at once from the engine's own memories, -/
theorem runOp_load_own {x z : Arch} (h : engineLoad (Who.single e) x (memAddr x g ofs) wd.bytes u s = some (s1, .inr v))
    (hown : (Who.single e).ownsParts (memAddr x g ofs) wd.bytes = true) :
    runOp (Who.single e) x (rowUpset (Op.load wd d g ofs post).row u) (.load wd d g ofs post) s (Eff.at z) =
      done s1 (Eff.at ((z.moved x g post).setAt (x.place d) (wd.extend v))) := by
  simp only [rowUpset_load, runOp, loadOp, h, post_at]
  unfold Who.ownsParts at hown
  rw [hown]
  rfl

/-- and leaves it on its way from elsewhere. -/
theorem runOp_load_spine {x z : Arch}
    (h : engineLoad (Who.single e) x (memAddr x g ofs) wd.bytes u s = some (s1, .inr v))
    (hown : (Who.single e).ownsParts (memAddr x g ofs) wd.bytes = false) :
    runOp (Who.single e) x (rowUpset (Op.load wd d g ofs post).row u) (.load wd d g ofs post) s (Eff.at z) =
      done s1 { Eff.at (z.moved x g post) with loads := [(x.place d, wd.extend v)] } := by
  simp only [rowUpset_load, runOp, loadOp, h, post_at]
  unfold Who.ownsParts at hown
  rw [hown]
  rfl

theorem runs_load (hrep : (engOf s e).arch.rkind = 0) (hissues : Issues s e [.load wd d g ofs post])
    (h : engineLoad (Who.single e) (engOf s e).arch (memAddr (engOf s e).arch g ofs) wd.bytes u s =
      some (s1, .inr v)) :
    let y := (engOf s e).arch
    let z := y.next.moved y g post
    let own := (Who.single e).ownsParts (memAddr y g ofs) wd.bytes
    Runs (rowCommand (Op.load wd d g ofs post).row e u) s fun t => t.mem = s1.mem ∧
      (own = true → (engOf t e).arch = z.setAt (y.place d) (wd.extend v)) ∧
      (own = false → (engOf t e).arch = z ∧
        (engOf t e).loads = (engOf s1 e).loads ++ [(y.place d, wd.extend v)]) := by
  intro y z own
  cases hown : own
  · obtain ⟨t, hexec, hmem, heng⟩ := runs_of_no_writes hissues hrep (runOp_load_spine h hown) rfl rfl rfl rfl
    refine ⟨t, hexec, hmem, nofun, fun _ => ?_⟩
    rw [heng]
    exact ⟨rfl, rfl⟩
  · obtain ⟨t, hexec, hmem, heng⟩ := runs_of_no_writes hissues hrep (runOp_load_own h hown) rfl rfl rfl rfl
    refine ⟨t, hexec, hmem, fun _ => ?_, nofun⟩
    rw [heng]
    rfl

end

/-! ## Stores (R214, R217, R299) -/

section
variable {s s1 : State} {e : Fin 128} {u : Upset} {wd : Width} {d g : Nat} {ofs post : Int} {cwb : List CodeWrite}
  {os : List MemOp}

theorem runOp_store {x z : Arch} (hfault : accessFault s (Who.single e) x.priv true (memAddr x g ofs) wd.bytes = none)
    (hheld : partsHeld s (Who.single e) (memAddr x g ofs) wd.bytes = false)
    (hplace : placeOps (Who.single e) (storeOps (Who.single e) (memAddr x g ofs) wd.bytes (x.getReg d)) z.cwb =
      some (cwb, os)) :
    runOp (Who.single e) x (rowUpset (Op.store wd d g ofs post).row u) (.store wd d g ofs post) s (Eff.at z) =
      done s { Eff.at { z.moved x g post with cwb := cwb } with ops := os, upset := u } := by
  simp only [rowUpset_store, runOp, storeOp, hfault, hheld, post_at]
  rw [show (Eff.at z).x.cwb = z.cwb from rfl, hplace]
  rfl

/-- The writes that placeOps leaves of a store lie in one 64-bit word each, outside the engine's own code. -/
theorem fits_of_placeOps {a v : Nat} {c : List CodeWrite} {o : MemOp}
    (hplace : placeOps (Who.single e) (storeOps (Who.single e) a wd.bytes v) c = some (cwb, os)) (ho : o ∈ os) :
    o.code = false ∧ (Who.single e).isCode o.addr = false ∧ o.addr % 8 + o.size ≤ 8 := by
  obtain ⟨hmem, hown⟩ := mem_of_placeOps hplace o ho
  obtain ⟨hcode, hfit⟩ := fits_of_mem_storeOps wd.bytes_cases hmem
  exact ⟨hcode, hown, hfit⟩

/-- A store that is not split, in a written word of SRAM that is not the engine's own code, leaves its bytes at its
address and every other byte as it was. -/
theorem mem_of_whole_store {a v k n : Nat} {c : List CodeWrite}
    (hplace : placeOps (Who.single e) (storeOps (Who.single e) a wd.bytes v) c = some (cwb, os))
    (hops : performOps e u os s = (s1, n, false)) (hwhole : splits a wd.bytes = false)
    (hbank : bankOf (spineAddr e a) = some k) (hown : (Who.single e).isCode (spineAddr e a) = false)
    (hwritten : wordWritten s k (spineAddr e a) = true) :
    memValue s1 (spineAddr e a) wd.bytes = v % 2 ^ (8 * wd.bytes) ∧
      ∀ b, (b < spineAddr e a ∨ spineAddr e a + wd.bytes ≤ b) → memByte s1 b = memByte s b := by
  have hos : os = [⟨spineAddr e a, v % 2 ^ (8 * wd.bytes), wd.bytes, false⟩] := by
    rw [storeOps, hwhole] at hplace
    simp only [Bool.false_eq_true, if_false, placeOps, show (Who.single e).home = e from rfl, hown,
      Option.map_some, Option.some.injEq, Prod.mk.injEq] at hplace
    exact hplace.2.symm
  rw [hos, performOps] at hops
  split at hops
  · next t hop =>
    cases hops
    obtain ⟨m, hstore⟩ := storeWord_of_performOp rfl hbank hown hop
    have hsize : wd.bytes ≠ 8 := by
      have := wd.bytes_cases
      omega
    obtain ⟨hvalue, hothers⟩ := storeWord_of_written hsize hwritten hstore
    exact ⟨hvalue.trans (Nat.mod_mod _ _), hothers⟩
  · cases hops

end

/-! ## SAVECTX and LOADCTX (R239, R240) -/

/-- SAVECTX that completes has found no refused write and shows no cause. -/
theorem saveGroups_done {w : Who} {x0 : Arch} {a : Nat} {s t : State} {gs : List Nat} : ∀ {y z : Eff},
    saveGroups w x0 a gs s y = some (t, z, none) → z.refused = y.refused ∧ z.cause = y.cause := by
  induction gs with
  | nil =>
    intro y z h
    cases h
    exact ⟨rfl, rfl⟩
  | cons g gs ih =>
    intro y z h
    rw [saveGroups] at h
    dsimp only at h
    split at h
    · cases h
    · cases h
    · have hrest := ih h
      exact hrest

theorem saveContext_done {w : Who} {x : Arch} {a : Nat} {s t : State} {y z : Eff}
    (h : saveContext w x a s y = some (t, z, none)) : z.refused = y.refused ∧ z.cause = y.cause := by
  unfold saveContext at h
  split at h
  · cases h
  · split at h
    · cases h
    · exact saveGroups_done h

theorem loadContext_done {w : Who} {x : Arch} {a : Nat} {s t : State} {y z : Eff}
    (h : loadContext w x a s y = some (t, z, none)) : z.refused = y.refused ∧ z.cause = y.cause := by
  unfold loadContext at h
  dsimp only at h
  split at h
  · cases h
  · split at h
    · cases h
      exact ⟨rfl, rfl⟩
    · split at h
      · cases h
      · split at h
        · cases h
          exact ⟨rfl, rfl⟩
        · cases h
        · cases h

theorem runOp_savectx {w : Who} {x : Arch} {u : Upset} {g : Nat} (s : State) (y : Eff) (hpriv : 1 ≤ x.priv) :
    runOp w x u (.savectx g) s y = saveContext w x (x.getReg g / 8 * 8) s y := by
  simp [runOp, Op.row, sysLevel, Nat.not_lt.mpr hpriv, sysOp]

theorem runOp_loadctx {w : Who} {x : Arch} {u : Upset} {g : Nat} (s : State) (y : Eff) (hpriv : 1 ≤ x.priv) :
    runOp w x u (.loadctx g) s y = loadContext w x (x.getReg g / 8 * 8) s y := by
  simp [runOp, Op.row, sysLevel, Nat.not_lt.mpr hpriv, sysOp]

/-- Settles O31, a clause at a time. -/
theorem engineMemoryBundlesRun : Obligations.EngineMemoryBundlesRun := by
  unfold Obligations.EngineMemoryBundlesRun
  intro s s1 e u wd d g v n ofs post cwb os eff w z y next at_ moved
  have hw {o : Op} (hissues : Issues s e [o]) : w = Who.single e := whoOf_of_single hissues.2.1
  refine ⟨fun hrep hissues hload => ?_, fun hrep hissues hfault hheld hplace hops => ?_,
    fun hrep hissues hpriv hsave hstop hops => ?_, fun hrep hissues hpriv hload hnone hstop => ?_⟩
  -- Loads
  · rw [hw hissues] at hload ⊢
    exact runs_load hrep hissues hload
  -- Stores
  · rw [hw hissues] at hfault hheld hplace ⊢
    obtain ⟨t, hexec, hmem, heng⟩ := runs_of_writes hissues hrep
      (runOp_store (post := post) hfault hheld hplace) rfl rfl rfl hops
    refine ⟨t, hexec, hmem, by rw [heng], by rw [heng], fun hsram b hb => ?_, fun k hwhole hbank hown _ hwritten => ?_⟩
    · rw [memByte_of_mem hmem]
      refine (memByte_of_performOps (fun o ho => ?_) hops).trans (memByte_of_mem (mem_takeEff ..) b)
      obtain ⟨hcode, hown, hfit⟩ := fits_of_placeOps hplace ho
      exact ⟨hcode, hsram o ho, hown, hfit, hb o ho⟩
    · obtain ⟨hvalue, hothers⟩ := mem_of_whole_store hplace hops hwhole hbank hown hwritten
      refine ⟨(memValue_of_mem hmem _ _).trans hvalue, fun b hb => ?_⟩
      rw [memByte_of_mem hmem, hothers b hb, memByte_of_mem (mem_takeEff ..)]
  -- SAVECTX, LOADCTX
  · rw [hw hissues] at hsave
    obtain ⟨hrefused, hcause⟩ := saveContext_done hsave
    obtain ⟨t, hexec, hmem, -⟩ := runs_of_writes (u := .none) hissues hrep
      ((runOp_savectx s _ hpriv).trans hsave) hrefused hcause hstop (Prod.ext rfl (Prod.ext rfl hops))
    exact ⟨t, hexec, hmem⟩
  · rw [hw hissues] at hload
    obtain ⟨hrefused, hcause⟩ := loadContext_done hload
    obtain ⟨t, hexec, hmem, heng⟩ := runs_of_no_writes (u := .none) hissues hrep
      ((runOp_loadctx s _ hpriv).trans hload) hrefused hcause hstop hnone
    exact ⟨t, hexec, congrArg Engine.arch heng, hmem⟩

end Sys2Proof.Machine
end

section
/-! The registers that command the bindings of a quire: BD_CMD, BD_CFG and BD_EVQ, and the control registers of its
engines (R221, R235, R236, R244, R245, R264 to R269, R274). -/

namespace Sys2Proof.Machine

/-! ## BD_CMD (R264 to R269, R274) -/

theorem bdCheck_le (s : State) (q op b i arg : Nat) : bdCheck s q op b i arg ≤ 6 := by
  unfold bdCheck
  (repeat' split) <;> decide

/-- What BD_CMDST shows of a command is none of a slot's state. -/
theorem bindState_bdResult (s : State) (q b r : Nat) :
    bindState (setFld (Reg.BD_CMDST q) Fld.BD_CMDST_RESULT r s) q b = bindState s q b :=
  fld_setFld_ne _ _ _ _ _ _ (by simp only [Reg.BD_BSTAT, Reg.BD_CMDST]; omega)

/-- Command op of slot b, allowed by the checks, is pending with its argument, and BD_CMDST shows it (R264). -/
def bdPend (q op b arg : Nat) (s : State) : State :=
  s |> setFld (Reg.BD_CMDST q) Fld.BD_CMDST_RESULT 0 |> updBind q b (fun y => { y with cmd := op, arg := arg })
    |> setFlag (Reg.BD_CMDST q) Fld.BD_CMDST_BUSY true

section
variable {s : State} {q op b i arg : Nat}

theorem bdCommand_of_refused (h : bdCheck s q op b i arg ≠ 0) : bdCommand q op b i arg s =
    setFld (Reg.BD_CMDST q) Fld.BD_CMDST_RESULT (bdCheck s q op b i arg) s := by
  simp [bdCommand, h]

theorem bdCommand_form (h : bdCheck s q 1 b i arg = 0) :
    bdCommand q 1 b i arg s = bindForm q b (setFld (Reg.BD_CMDST q) Fld.BD_CMDST_RESULT 0 s) := by
  simp [bdCommand, h]

theorem bdCommand_clrcnt (h : bdCheck s q 6 b i arg = 0) :
    bdCommand q 6 b i arg s = wr (Reg.BD_BCNT q b) 0 (setFld (Reg.BD_CMDST q) Fld.BD_CMDST_RESULT 0 s) := by
  simp [bdCommand, h]

theorem bdCommand_release_of_spare (h : bdCheck s q 5 b i arg = 0) (hspare : bindState s q b = 1) :
    bdCommand q 5 b i arg s = bindRelease q b (setFld (Reg.BD_CMDST q) Fld.BD_CMDST_RESULT 0 s) := by
  simp [bdCommand, h, bindState_bdResult, hspare]

theorem bdCommand_join (h : bdCheck s q 3 b i arg = 0) :
    bdCommand q 3 b i arg s = bindJoin q b i (bdPend q 3 b i s) := by
  simp [bdCommand, h, bdPend]

/-- The commands that take place at a commit boundary are pending until then (R265, R266, R269). -/
theorem bdCommand_pends (h : bdCheck s q op b i arg = 0) (hop : op = 2 ∨ op = 4 ∨ op = 5 ∧ bindState s q b ≠ 1) :
    bdCommand q op b i arg s = bdPend q op b arg s := by
  obtain rfl | rfl | ⟨rfl, hrun⟩ := hop
  · simp [bdCommand, h, bdPend]
  · simp [bdCommand, h, bdPend]
  · simp [bdCommand, h, bdPend, bindState_bdResult, hrun]

theorem bdCommand_refused_effect (h : bdCheck s q op b i arg ≠ 0) :
    let t := bdCommand q op b i arg s
    fld t (Reg.BD_CMDST q) Fld.BD_CMDST_RESULT = bdCheck s q op b i arg ∧ OnlyRegs [Reg.BD_CMDST q] s t := by
  have hlt : bdCheck s q op b i arg < 2 ^ 4 := Nat.lt_of_le_of_lt (bdCheck_le s q op b i arg) (by decide)
  rw [bdCommand_of_refused h]
  exact ⟨(fld_setFld_self _ _ _ _ (by decide) (by decide)).trans (Nat.mod_eq_of_lt hlt),
    onlyRegs_setFld _ _ _ (onlyRegs_refl _ s) (by simp)⟩

theorem bdCommand_clrcnt_effect (h : bdCheck s q 6 b i arg = 0) :
    let t := bdCommand q 6 b i arg s
    rd t (Reg.BD_BCNT q b) = 0 ∧ OnlyRegs [Reg.BD_CMDST q, Reg.BD_BCNT q b] s t := by
  rw [bdCommand_clrcnt h]
  exact ⟨rd_wr_self _ 0 _, onlyRegs_wr _ _ (onlyRegs_setFld _ _ _ (onlyRegs_refl _ s) (by simp)) (by simp)⟩

end

theorem bindOf_of_onlyRegs {as : List Nat} {s t : State} (h : OnlyRegs as s t) (q b : Nat) :
    bindOf t q b = bindOf s q b := by
  obtain ⟨-, -, hrest⟩ := h
  rw [hrest]
  rfl

/-- A pending command is kept with its slot, and no register but BD_CMDST shows it. -/
theorem bdPend_effect (q op b arg : Nat) (s : State) :
    let t := bdPend q op b arg s
    (bindOf t q b).cmd = op ∧ (bindOf t q b).arg = arg ∧ flag t (Reg.BD_CMDST q) Fld.BD_CMDST_BUSY = true ∧
      KeepsRegs [Reg.BD_CMDST q] s t ∧ t.mem = s.mem := by
  intro t
  have hresult := onlyRegs_setFld (Reg.BD_CMDST q) Fld.BD_CMDST_RESULT 0 (onlyRegs_refl _ s) (List.mem_singleton_self _)
  have hbusy := onlyRegs_setFlag (Reg.BD_CMDST q) Fld.BD_CMDST_BUSY true
    (onlyRegs_refl _ (updBind q b (fun y => { y with cmd := op, arg := arg })
      (setFld (Reg.BD_CMDST q) Fld.BD_CMDST_RESULT 0 s))) (List.mem_singleton_self _)
  have hbind : bindOf t q b = { bindOf s q b with cmd := op, arg := arg } := by
    rw [← bindOf_of_onlyRegs hresult]
    exact (bindOf_of_onlyRegs hbusy q b).trans (bindOf_updBind ..)
  exact ⟨by rw [hbind], by rw [hbind], flag_setFlag_self _ _ true _ (by decide) (by decide),
    keepsRegs_trans hresult.1 (keepsRegs_trans (fun a _ => rd_updBind ..) hbusy.1),
    (mem_of_onlyRegs hbusy).trans rfl⟩

/-- The commands of BD_CMD that a master may give: OP, ENG and ARG of each. -/
theorem exec_bdCmd {s : State} {m : Master} {q : Fin 16} {b i arg : Fin 8} {c : Instr} {op j y : Nat}
    (hc : (c, op, j, y) ∈ [(Instr.form m q b, 1, 0, 0), (.split m q b, 2, 0, 0), (.join m q b i, 3, i.val, 0),
      (.handover m q b arg, 4, 0, arg.val), (.release m q b, 5, 0, 0), (.bdClrcnt m q b, 6, 0, 0)])
    (hw : CanWrite s m (Reg.BD_CMD q)) : exec c s = .next (bdCommand q op b j y s) := by
  refine Eq.trans ?_ (regWriteBy_eq hw)
  simp only [List.mem_cons, List.not_mem_nil, or_false, Prod.mk.injEq] at hc
  obtain ⟨rfl, rfl, rfl, rfl⟩ | ⟨rfl, rfl, rfl, rfl⟩ | ⟨rfl, rfl, rfl, rfl⟩ | ⟨rfl, rfl, rfl, rfl⟩ |
    ⟨rfl, rfl, rfl, rfl⟩ | ⟨rfl, rfl, rfl, rfl⟩ := hc <;> rfl

/-! ## BD_CFG (R244, R245) -/

/-- Clearing bit k of a register leaves the fields that do not hold it. -/
theorem fld_clrWord_other (a k : Nat) (s : State) (g : Bits) (hg : g.lo ≤ g.hi) (hn : g.hi < 32)
    (d : g.hi < k ∨ k < g.lo) : fld (clrWord a (2 ^ k) s) a g = fld s a g := by
  refine (fld_wr_self a _ _ g hg hn).trans (getBits_congr fun j hj => ?_)
  rw [Nat.testBit_and, Nat.testBit_xor, testBit_ones _ (by omega), Nat.testBit_two_pow_of_ne (by omega)]
  simp

/-- A bit of a register is a field of one bit. -/
theorem bitAt_rd_of_fld {s t : State} {a i : Nat} (h : fld t a ⟨i, i⟩ = fld s a ⟨i, i⟩) :
    bitAt (rd t a) i = bitAt (rd s a) i := by
  simpa [fld, getBits, bitAt] using congrArg (· == 1) h

theorem onlyRegs_ite {as : List Nat} {c : Prop} [Decidable c] {s t u : State} (ht : OnlyRegs as s t)
    (hu : OnlyRegs as s u) : OnlyRegs as s (if c then t else u) := by
  split <;> assumption

theorem onlyRegs_bdCfgWrite (q v : Nat) (s : State) : OnlyRegs [Reg.BD_CFG q] s (bdCfgWrite q v s) := by
  have hself := List.mem_singleton_self (Reg.BD_CFG q)
  have hclear : OnlyRegs [Reg.BD_CFG q] s (if bitAt v 31 then clrWord (Reg.BD_CFG q) (2 ^ 31) s else s) :=
    onlyRegs_ite (onlyRegs_wr _ _ (onlyRegs_refl _ s) hself) (onlyRegs_refl _ s)
  have hset (x : Nat) (s0 s1 : Bool) := onlyRegs_setFlag _ Fld.BD_CFG_S1 s1
    (onlyRegs_setFlag _ Fld.BD_CFG_S0 s0 (onlyRegs_setFld _ ⟨1, 0⟩ x hclear hself) hself) hself
  exact onlyRegs_ite (onlyRegs_raiseFlag _ _ hclear hself)
    (onlyRegs_ite (onlyRegs_raiseFlag _ _ (hset _ _ _) hself) (hset _ _ _))

/-- A write that would configure anew a half that holds a member or a spare is ignored, and sets WREF (R244). -/
theorem bdCfgWrite_of_held {q v h j : Nat} {s : State} (hh : h < 2) (hj : j < 4)
    (hnew : bitAt v h ≠ bitAt (rd s (Reg.BD_CFG q)) h)
    (hheld : bound s q (4 * h + j) = true ∨ reserved s q (4 * h + j) = true) :
    bdCfgWrite q v s = raiseFlag (Reg.BD_CFG q) Fld.BD_CFG_WREF
      (if bitAt v 31 then clrWord (Reg.BD_CFG q) (2 ^ 31) s else s) := by
  refine if_pos ?_
  simp only [List.any_eq_true, List.mem_range, Bool.and_eq_true, Bool.or_eq_true, bne_iff_ne]
  exact ⟨h, hh, hnew, j, hj, hheld⟩

theorem bdCfgWrite_held_effect {q v h j : Nat} {s : State} (hh : h < 2) (hj : j < 4)
    (hnew : bitAt v h ≠ bitAt (rd s (Reg.BD_CFG q)) h)
    (hheld : bound s q (4 * h + j) = true ∨ reserved s q (4 * h + j) = true) :
    let t := bdCfgWrite q v s
    bitAt (rd t (Reg.BD_CFG q)) h = bitAt (rd s (Reg.BD_CFG q)) h ∧
      flag t (Reg.BD_CFG q) Fld.BD_CFG_WREF = true := by
  rw [bdCfgWrite_of_held hh hj hnew hheld]
  have hlow : h < 31 := by omega
  refine ⟨bitAt_rd_of_fld ?_, flag_raiseFlag_self _ 31 _ (by decide)⟩
  refine (fld_raiseFlag_other _ 31 _ ⟨h, h⟩ (Nat.le_refl h) (Nat.lt_succ_of_lt hlow) (.inl hlow)).trans ?_
  split
  · exact fld_clrWord_other _ 31 s ⟨h, h⟩ (Nat.le_refl h) (Nat.lt_succ_of_lt hlow) (.inl hlow)
  · rfl

/-! ## BD_EVQ (R274) -/

theorem evqRead_of_cons {q w : Nat} {rest : List Nat} {s : State}
    (h : (tget (fun _ => EventQueue.init) s.evqs q).entries = w :: rest) :
    evqRead q s = wr (Reg.BD_EVQ q) (2 ^ 31 + w + (tget (fun _ => EventQueue.init) s.evqs q).drop)
      { s with evqs := tset (fun _ => EventQueue.init) s.evqs q { entries := rest, drop := 0 } } := by
  simp [evqRead, h]

theorem evqRead_effect {q w : Nat} {rest : List Nat} {s : State}
    (h : (tget (fun _ => EventQueue.init) s.evqs q).entries = w :: rest) :
    let t := evqRead q s
    tget (fun _ => EventQueue.init) t.evqs q = { entries := rest, drop := 0 } ∧ KeepsRegs [Reg.BD_EVQ q] s t ∧
      t.mem = s.mem := by
  rw [evqRead_of_cons h]
  exact ⟨tget_tset_self _ _ _ _, keepsRegs_wr _ _ (fun _ _ => rfl) (by simp), rfl⟩

/-! ## The control registers of an engine (R221, R235, R236) -/

theorem ectlBy_eq {m : Master} {a : Nat} {s t : State} (h : CanWrite s m a ∧ ectlAllows m a = true) :
    ectlBy m a s t = .next t := by
  obtain ⟨⟨halive, hreach⟩, hallows⟩ := h
  simp [ectlBy, live, act, halive, hreach, hallows]

/-- Engine i takes interrupt level n, and BD_ESTAT shows it (R236). -/
def takeIpl (n i : Nat) (s : State) : State := showEngine i (updEng i (setIpl n) s)

theorem ectlWrite_eq (e v : Nat) (s : State) : ectlWrite e v s =
    forAll (sharers s e) (takeIpl (v % 4)) (plainWrite (Reg.BD_ECTL (e / 8) (e % 8)) v s) := rfl

theorem ipl_takeIpl (n i k : Nat) (s : State) :
    (engOf (takeIpl n i s) k).arch.ipl = if k = i then n else (engOf s k).arch.ipl := by
  have hshow := onlyRegs_showEngine (onlyRegs_refl (statRegs i) (updEng i (setIpl n) s)) (bdEstat_mem_statRegs i)
  rw [takeIpl, engOf_of_onlyRegs hshow, engOf_updEng]
  split <;> rfl

theorem mem_takeIpl (n i : Nat) (s : State) : (takeIpl n i s).mem = s.mem := rfl

/-- Every engine of the list has the level, and so has one that had it before. -/
theorem ipl_forAll_takeIpl {n k : Nat} (xs : List Nat) {s : State} (h : k ∈ xs ∨ (engOf s k).arch.ipl = n) :
    (engOf (forAll xs (takeIpl n) s) k).arch.ipl = n := by
  induction xs generalizing s with
  | nil => exact h.resolve_left List.not_mem_nil
  | cons x xs ih =>
    rw [forAll_cons]
    refine ih (or_iff_not_imp_left.mpr fun hk => ?_)
    rw [ipl_takeIpl]
    split
    · rfl
    · next hx => exact h.resolve_left (by simp [hx, hk])

theorem ectlWrite_effect (e v : Nat) (s : State) :
    (ectlWrite e v s).mem = s.mem ∧ ∀ k ∈ sharers s e, (engOf (ectlWrite e v s) k).arch.ipl = v % 4 := by
  have hplain := onlyRegs_plainWrite (Reg.BD_ECTL (e / 8) (e % 8)) v (onlyRegs_refl [_] s) (List.mem_singleton_self _)
  rw [ectlWrite_eq]
  exact ⟨(forAll_keeps State.mem _ (mem_takeIpl (v % 4)) _).trans (mem_of_onlyRegs hplain),
    fun k hk => ipl_forAll_takeIpl _ (.inl hk)⟩

theorem sigWrite_foreman {c : Fin 3} {e v : Nat} {s : State} (hhome : isFollower s (e / 8) (e % 8) = false)
    (hv : v % 2 = 1) : sigWrite (.foreman c) e v s = setLineOf (e / 8) (e % 8) 23 s := by
  simp [sigWrite, hhome, hv]

/-- A write with bit 0 clear signals nothing, whatever the line (R236). -/
theorem sigWrite_of_even (m : Master) (e : Nat) {v : Nat} (s : State) (hv : v % 2 = 0) : sigWrite m e v s = s := by
  unfold sigWrite
  dsimp only
  split
  · exact if_neg (by simp [hv])
  · rfl

/-- Settles O40, a register at a time; the commands of BD_CMD as one. -/
theorem bindingCommandsRun : Obligations.BindingCommandsRun := by
  unfold Obligations.BindingCommandsRun
  intro s m q b i arg e r x v st sel ctl
  refine ⟨fun c op j y hc hw => ⟨fun hrefused => ?_, fun hok => ?_⟩, fun hw => ?_, fun w rest hr hqueue => ?_,
    fun a ha hctl => ?_, fun hctl => ?_, fun hctl => ?_⟩
  -- BD_CMD
  · exact runs_of_eq (exec_bdCmd hc hw) (bdCommand_refused_effect hrefused)
  · refine runs_of_eq (exec_bdCmd hc hw) ⟨?_, ?_, ?_, fun hop => ?_, ?_⟩
    · rintro rfl
      exact bdCommand_form hok
    · rintro rfl
      exact bdCommand_clrcnt_effect hok
    · rintro rfl hspare
      exact bdCommand_release_of_spare hok hspare
    · rw [bdCommand_pends hok hop]
      exact bdPend_effect q op b y s
    · rintro rfl
      obtain ⟨-, rfl, -⟩ : c = .join m q b i ∧ j = i.val ∧ y = 0 := by simpa using hc
      exact bdCommand_join hok
  -- BD_CFG
  · refine runs_of_eq (regWriteBy_eq hw) ⟨onlyRegs_bdCfgWrite q v.toNat s, fun h hnew hheld => ?_⟩
    obtain ⟨j, hj, hheld⟩ := hheld
    exact bdCfgWrite_held_effect h.isLt hj hnew hheld
  -- BD_EVQ
  · exact runs_of_eq (regReadBy_eq hr) (evqRead_effect hqueue)
  -- BD_RGN, BD_ECTL, BD_SIG
  · subst ha
    exact runs_of_eq (ectlBy_eq hctl) rfl
  · exact runs_of_eq (ectlBy_eq hctl) (ectlWrite_effect e v.toNat s)
  · refine runs_of_eq (ectlBy_eq hctl) ⟨?_, sigWrite_of_even m e s⟩
    rintro c rfl hhome hv
    exact sigWrite_foreman hhome hv

end Sys2Proof.Machine
end

section
/-! The comparison of commit records: what a report leaves of the bindings' registers, what a mismatch leaves
committed, and the state in which it leaves the binding (R251 to R258). -/

namespace Sys2Proof.Machine

/-! ## What a report shows, and where (R235, R369 to R378) -/

section
variable {a : Nat} (ha : a < 0x30000000)
include ha

/-- A write in a system block leaves the registers of the quires. -/
theorem rd_wr_system {b : Nat} (hb : 0x30000000 ≤ b) (v : Nat) (s : State) : rd (wr b v s) a = rd s a :=
  rd_wr_ne b v s a (by omega)

theorem rd_setFld_system {b : Nat} (hb : 0x30000000 ≤ b) (f : Bits) (v : Nat) (s : State) :
    rd (setFld b f v s) a = rd s a := rd_wr_system ha hb _ s

theorem rd_countClass (cls : Nat) (s : State) : rd (countClass cls s) a = rd s a := by
  unfold countClass
  split
  case h_4 => rfl
  all_goals exact rd_setFld_system ha (by decide) _ _ s

theorem rd_fileRecord (x : FaultRec) (s : State) : rd (fileRecord x s) a = rd s a := by
  have hdrop (n : Nat) (t : State) : rd (addFld Reg.FM_QDROP wordBits n t) a = rd t a :=
    rd_setFld_system ha (by decide) _ _ t
  have hlog (t : State) : rd (incFld Reg.FM_LOGDROP wordBits t) a = rd t a :=
    rd_setFld_system ha (by decide) _ _ t
  unfold fileRecord
  dsimp only
  split
  · simp [hdrop]
  · split <;> simp [hdrop, hlog]

theorem rd_capture (x : Rep) (f : FecInfo) (s : State) : rd (capture x f s) a = rd s a := by
  unfold capture
  split
  · exact rd_setFld_system ha (by decide) _ _ s
  · simp (disch := decide) only [rd_wr_system ha]

theorem rd_setFlag_system {b : Nat} (hb : 0x30000000 ≤ b) (f : Bits) (v : Bool) (s : State) :
    rd (setFlag b f v s) a = rd s a := rd_setFld_system ha hb f _ s

theorem rd_raiseAlert (s : State) : rd (raiseAlert s) a = rd s a := by
  unfold raiseAlert
  rw [rd_setFlag_system ha (by decide), rd_updFm]

theorem rd_enterMode (m : Nat) (s : State) : rd (enterMode m s) a = rd s a := by
  unfold enterMode
  simp (disch := decide) only [rd_setFld_system ha]

theorem rd_settleMode (s : State) : rd (settleMode s) a = rd s a := by
  unfold settleMode
  (repeat' split) <;> simp only [rd_enterMode ha]

theorem rd_setCond (i : Nat) (v : Bool) (s : State) : rd (setCond i v s) a = rd s a := by
  unfold setCond
  rw [rd_settleMode ha]
  split <;> exact rd_wr_system ha (by decide) _ s

/-- A report shows in the system blocks and in BD_IPEND alone. -/
theorem rd_report (hline : ∀ q, a ∉ (List.range 8).map (Reg.BD_IPEND q)) (x : Rep) (s : State) :
    rd (report x s) a = rd s a := by
  have hlines (t : State) : rd (forAll (noticeQuires x) (fun q s => setLine q 19 s) t) a = rd t a :=
    forAll_keeps (rd · a) _ (fun q t => keepsRegs_setLine q 19 t a (hline q)) t
  have hfpend (t : State) : rd (setFlag Reg.FM_STAT Fld.FM_STAT_FPEND true t) a = rd t a :=
    rd_setFlag_system ha (by decide) _ _ t
  unfold report
  cases x.fec <;> dsimp only <;> split
  case none.isTrue | some.isTrue => simp only [rd_capture ha, rd_countClass ha, rd_fileRecord ha]
  case none.isFalse | some.isFalse =>
    split <;>
      simp only [hfpend, hlines, rd_raiseAlert ha, rd_capture ha, rd_countClass ha, rd_fileRecord ha]

end

/-! ## What stands committed of a slot (R251, R253) -/

/-- What stands committed of slot b, memory and the count of its bundles, beside the slot's STATE (R253, R274). -/
def standing (q : Fin 16) (b : Fin 6) (s : State) : (List Host.Cell × Nat) × Nat :=
  ((s.mem, (bindOf s q b).done), bindState s q b)

section
variable (q : Fin 16) (b : Fin 6)

/-- What changes the registers and the fault manager alone leaves what stands, where it leaves BD_BSTAT. -/
theorem standing_of_besideFaults {s t : State} (h : besideFaults t = besideFaults s)
    (hrd : rd t (Reg.BD_BSTAT q b) = rd s (Reg.BD_BSTAT q b)) : standing q b t = standing q b s := by
  have hbinds : t.binds = s.binds := by
    have := congrArg State.binds h
    exact this
  simp only [standing, bindState, bindOf, fld, hrd, hbinds, mem_eq_of_besideFaults h]

theorem bdBstat_lt_system : Reg.BD_BSTAT q b < 0x30000000 := by
  unfold Reg.BD_BSTAT quireBlock
  omega

theorem bdBstat_not_line (g : Nat) : Reg.BD_BSTAT q b ∉ (List.range 8).map (Reg.BD_IPEND g) := by
  simp only [List.mem_map, List.mem_range, Reg.BD_BSTAT, Reg.BD_IPEND, quireBlock]
  rintro ⟨i, hi, h⟩
  omega

@[simp] theorem standing_report (x : Rep) (s : State) : standing q b (report x s) = standing q b s :=
  standing_of_besideFaults q b (besideFaults_report x s)
    (rd_report (bdBstat_lt_system q b) (bdBstat_not_line q b) x s)

@[simp] theorem standing_setLine (g m : Nat) (s : State) : standing q b (setLine g m s) = standing q b s :=
  standing_of_besideFaults q b (besideFaults_setLine g m s) (keepsRegs_setLine g m s _ (bdBstat_not_line q b g))

@[simp] theorem standing_setCond (i : Nat) (v : Bool) (s : State) : standing q b (setCond i v s) = standing q b s :=
  standing_of_besideFaults q b (besideFaults_setCond i v s) (rd_setCond (bdBstat_lt_system q b) i v s)

/-- A write of another register, or of other fields of BD_BSTAT, leaves what stands. -/
theorem standing_setFld (a : Nat) (f : Bits) (v : Nat) (s : State)
    (h : a ≠ Reg.BD_BSTAT q b ∨ 2 < f.lo ∧ f.lo ≤ f.hi ∧ f.hi < 32) :
    standing q b (setFld a f v s) = standing q b s := by
  have hstate : bindState (setFld a f v s) q b = bindState s q b := by
    by_cases ha : a = Reg.BD_BSTAT q b
    · obtain ⟨hlo, hle, hhi⟩ := h.resolve_left (fun hne => hne ha)
      subst ha
      exact fld_setFld_other _ _ _ _ _ hle hhi (by decide) (.inl hlo)
    · exact fld_setFld_ne _ _ _ _ _ _ (Ne.symm ha)
  exact congrArg (Prod.mk _) hstate

theorem standing_wr {a : Nat} (h : a ≠ Reg.BD_BSTAT q b) (v : Nat) (s : State) :
    standing q b (wr a v s) = standing q b s :=
  standing_of_besideFaults q b (besideFaults_wr a v s) (rd_wr_ne _ _ _ _ h.symm)


@[simp] theorem standing_updEng (e : Nat) (f : Engine → Engine) (s : State) :
    standing q b (updEng e f s) = standing q b s := rfl

@[simp] theorem standing_evqs (x : Tab EventQueue) (s : State) :
    standing q b { s with evqs := x } = standing q b s := rfl

/-- A change of a slot that is no commit leaves what stands. -/
@[simp] theorem standing_updBind (g k : Nat) {f : Binding → Binding} (hf : ∀ y, (f y).done = y.done) (s : State) :
    standing q b (updBind g k f s) = standing q b s := by
  have hdone : (bindOf (updBind g k f s) q b).done = (bindOf s q b).done := by
    simp only [bindOf, updBind, tget_tset]
    split
    · next h => rw [hf, h]
    · rfl
  exact congrArg (fun n => ((s.mem, n), bindState s q b)) hdone

@[simp] theorem standing_forAll {α : Type} (xs : List α) {f : α → State → State}
    (hf : ∀ x s, standing q b (f x s) = standing q b s) (s : State) :
    standing q b (forAll xs f s) = standing q b s := forAll_keeps _ xs hf s

@[simp] theorem standing_setEngState (e st : Nat) (s : State) :
    standing q b (setEngState e st s) = standing q b s :=
  standing_setFld q b _ _ _ s (.inl (by unfold Reg.BD_ESTAT Reg.BD_BSTAT quireBlock; omega))

@[simp] theorem standing_showEngine (e : Nat) (s : State) : standing q b (showEngine e s) = standing q b s := by
  have hfld (f : Bits) (v : Nat) (t : State) :
      standing q b (setFld (Reg.BD_ESTAT (e / 8) (e % 8)) f v t) = standing q b t :=
    standing_setFld q b _ f v t (.inl (by unfold Reg.BD_ESTAT Reg.BD_BSTAT quireBlock; omega))
  simp only [showEngine, setFlag, hfld]

@[simp] theorem standing_stopEngine (e st : Nat) (s : State) :
    standing q b (stopEngine e st s) = standing q b s := by
  simp [stopEngine]

/-! ## The operations of the binding controller (R254 to R273) -/

@[simp] theorem standing_settleBindings (s : State) : standing q b (settleBindings s) = standing q b s := by
  simp [settleBindings]

@[simp] theorem standing_bindEvent (g k code i : Nat) (s : State) :
    standing q b (bindEvent g k code i s) = standing q b s := by
  simp [bindEvent, apply_ite (standing q b)]

@[simp] theorem standing_showLast (g k kind member pc : Nat) (s : State) :
    standing q b (showLast g k kind member pc s) = standing q b s :=
  standing_wr q b (by unfold Reg.BD_BLAST Reg.BD_BSTAT quireBlock; omega) _ s

@[simp] theorem standing_catchUp (g k : Nat) (s : State) : standing q b (catchUp g k s) = standing q b s := by
  unfold catchUp
  split <;> simp

@[simp] theorem standing_replayBinding (g k : Nat) (s : State) :
    standing q b (replayBinding g k s) = standing q b s := by
  rw [replayBinding, standing_forAll q b _ fun _ _ => standing_updEng .., standing_catchUp]

@[simp] theorem standing_bindCmdEnd (g k : Nat) (s : State) :
    standing q b (bindCmdEnd g k s) = standing q b s := by
  have hbusy (t : State) : standing q b (setFlag (Reg.BD_CMDST g) Fld.BD_CMDST_BUSY false t) = standing q b t :=
    standing_setFld q b _ _ _ t (.inl (by unfold Reg.BD_CMDST Reg.BD_BSTAT quireBlock; omega))
  simp [bindCmdEnd, apply_ite (standing q b), hbusy]

@[simp] theorem standing_haltMembers (g : Nat) (ms : List Nat) (s : State) :
    standing q b (haltMembers g ms s) = standing q b s := by
  simp [haltMembers]

@[simp] theorem standing_dropCopy (g k : Nat) (s : State) : standing q b (dropCopy g k s) = standing q b s := by
  simp [dropCopy, apply_ite (standing q b)]

@[simp] theorem standing_dropHandover (g k : Nat) (s : State) :
    standing q b (dropHandover g k s) = standing q b s := by
  simp [dropHandover, apply_ite (standing q b)]

@[simp] theorem standing_dropUnit (g k : Nat) (s : State) : standing q b (dropUnit g k s) = standing q b s := by
  have hck (t : State) : standing q b (setFld (Reg.BD_BSTAT g k) Fld.BD_BSTAT_CK 7 t) = standing q b t :=
    standing_setFld q b _ _ _ t (.inr (by decide))
  unfold dropUnit
  split
  · next u _ =>
    exact (hck _).trans (standing_wr q b (by unfold Reg.BD_CK Reg.BD_BSTAT quireBlock; omega) _ s)
  · exact hck s

@[simp] theorem standing_setMembers (g k : Nat) (ms : List Nat) (s : State) :
    standing q b (setMembers g k ms s) = standing q b s := by
  have hfld (f : Bits) (v : Nat) (t : State) (hf : 2 < f.lo ∧ f.lo ≤ f.hi ∧ f.hi < 32) :
      standing q b (setFld (Reg.BD_BSTAT g k) f v t) = standing q b t := standing_setFld q b _ f v t (.inr hf)
  simp (disch := decide) only [setMembers, hfld]

/-- Only STATE changes with a slot's STATE. -/
@[simp] theorem committed_setBindState (g k st : Nat) (s : State) :
    (standing q b (setBindState g k st s)).1 = (standing q b s).1 := rfl

theorem standing_setBindState (st : Nat) (s : State) :
    standing q b (setBindState q b st s) = ((standing q b s).1, st % 8) :=
  congrArg (Prod.mk _) (fld_setFld_self _ _ _ _ (by decide) (by decide))

/-! ## Mismatches (R254 to R258) -/

/-- A binding that is out has committed nothing more. -/
theorem standing_bindOut (s : State) : standing q b (bindOut q b s) = ((standing q b s).1, 6) := by
  simp [bindOut, standing_setBindState]

/-- A lasting mismatch commits nothing: the binding runs with the engines of its spare, or is out (R255). -/
theorem standing_lastingMismatch (s : State) :
    ∃ st, (st = 2 ∨ st = 6) ∧ standing q b (lastingMismatch q b s) = ((standing q b s).1, st) := by
  unfold lastingMismatch
  split
  · exact ⟨6, .inr rfl, standing_bindOut q b s⟩
  · exact ⟨2, .inl rfl, by simp [standing_setBindState]⟩

/-- A mismatch commits nothing: the pair retries, and in a retry the mismatch is lasting (R254). -/
theorem standing_pairMismatch (s : State) :
    ∃ st, (st = 3 ∨ st = 2 ∨ st = 6) ∧ standing q b (pairMismatch q b s) = ((standing q b s).1, st) := by
  unfold pairMismatch
  dsimp only
  split
  · obtain ⟨st, hst, h⟩ := standing_lastingMismatch q b s
    exact ⟨st, .inr hst, h⟩
  · exact ⟨3, .inl rfl, by simp [standing_setBindState]⟩

theorem committed_lastingMismatch (s : State) :
    (standing q b (lastingMismatch q b s)).1 = (standing q b s).1 := by
  obtain ⟨st, -, h⟩ := standing_lastingMismatch q b s
  rw [h]

theorem committed_pairMismatch (s : State) : (standing q b (pairMismatch q b s)).1 = (standing q b s).1 := by
  obtain ⟨st, -, h⟩ := standing_pairMismatch q b s
  rw [h]

@[simp] theorem committed_startCopy (g k i code : Nat) (s : State) :
    (standing q b (startCopy g k i code s)).1 = (standing q b s).1 := by
  simp [startCopy]

/-- A member that is odd leaves memory and the count as they are (R256, R257). -/
theorem committed_oddMember (g k i : Nat) (s : State) :
    (standing q b (oddMember g k i s)).1 = (standing q b s).1 := by
  have hspare (m : Nat) (t : State) : standing q b (clrWord (Reg.BD_CFG g) m t) = standing q b t :=
    standing_wr q b (by unfold Reg.BD_CFG Reg.BD_BSTAT quireBlock; omega) _ t
  unfold oddMember
  dsimp only
  (repeat' split) <;> simp [hspare]

end

/-! ## The comparison (R252 to R258)

Which comparison takes place turns on the members, the records they hold, and those that two of three have committed
already. -/

theorem Vote.same_iff (x y : Vote) :
    x.same y = true ↔ x.altered = false ∧ y.altered = false ∧ x.record = y.record := by
  simp [Vote.same, and_assoc]

section
variable {q : Fin 16} {b : Fin 6} {s : State} {d : Nat → Bool} {x y z : Vote} {kind : Nat} {u : Upset}

theorem compareRecords_pair (hn : (slotMembers s q b).length = 2) (hx : voteAt s q b d 0 = some x)
    (hy : voteAt s q b d 1 = some y) : compareRecords q b d kind u s = comparePair q b x y kind u s := by
  simp [compareRecords, hn, hx, hy]

theorem compareRecords_three (hn : (slotMembers s q b).length = 3) (hpast : (bindOf s q b).past = [])
    (hx : voteAt s q b d 0 = some x) (hy : voteAt s q b d 1 = some y) (hz : voteAt s q b d 2 = some z) :
    compareRecords q b d kind u s = compareThree q b x y z kind u s := by
  simp [compareRecords, hn, hpast, hx, hy, hz]

theorem compareRecords_two (hn : (slotMembers s q b).length = 3) (hpast : (bindOf s q b).past = [])
    (hx : voteAt s q b d 0 = some x) (hy : voteAt s q b d 1 = some y) (hz : voteAt s q b d 2 = none) :
    compareRecords q b d kind u s = compareTwo q b x y u s := by
  simp [compareRecords, hn, hpast, hx, hy, hz]

theorem compareRecords_late {r : Rec} {rest : List Rec} (hn : (slotMembers s q b).length = 3)
    (hpast : (bindOf s q b).past = r :: rest) (hz : voteAt s q b d 2 = some z) :
    compareRecords q b d kind u s = compareLate q b z r kind s := by
  simp [compareRecords, hn, hpast, hz]

/-- Two records that differ commit nothing (R252, R254, R258). -/
theorem standing_comparePair (hxy : x.same y = false) :
    ∃ st, (st = 3 ∨ st = 2 ∨ st = 6) ∧ standing q b (comparePair q b x y kind u s) = ((standing q b s).1, st) := by
  unfold comparePair
  rw [if_neg (by simp [hxy])]
  refine (standing_pairMismatch q b _).imp fun st ⟨hst, h⟩ => ⟨hst, h.trans ?_⟩
  rw [standing_showLast, apply_ite (standing q b), standing_bindEvent, ite_self]

/-- No member is odd where no two records are equal. -/
theorem oddOf_eq_none_iff :
    oddOf x y z = none ↔ x.same y = false ∧ x.same z = false ∧ y.same z = false := by
  unfold oddOf
  cases x.same y <;> cases x.same z <;> cases y.same z <;> simp

/-- Two equal votes among those cast are two unaltered members that hold the record of the first. -/
theorem two_hold_of_same {vs : List Vote} (hvs : [x, y].Sublist vs) (hxy : x.same y = true) :
    2 ≤ (vs.filter fun v => !v.altered && v.record == x.record).length := by
  obtain ⟨hx, hy, heq⟩ := (x.same_iff y).mp hxy
  have hlen := (hvs.filter fun v => !v.altered && v.record == x.record).length_le
  simpa [hx, hy, heq] using hlen

/-- Of three records, the one that the odd member's differs from stands in two unaltered members (R253, R256). -/
theorem two_hold_of_oddOf {o m : Vote} (h : oddOf x y z = some (o, m)) :
    2 ≤ ([x, y, z].filter fun v => !v.altered && v.record == m.record).length := by
  unfold oddOf at h
  split at h
  · next hxy =>
    obtain ⟨-, rfl⟩ := Prod.mk.inj (Option.some.inj h)
    exact two_hold_of_same (by simp) hxy
  · split at h
    · next hxz =>
      obtain ⟨-, rfl⟩ := Prod.mk.inj (Option.some.inj h)
      exact two_hold_of_same (by simp) hxz
    · split at h
      · next hyz =>
        obtain ⟨-, rfl⟩ := Prod.mk.inj (Option.some.inj h)
        exact two_hold_of_same (by simp) hyz
      · cases h

theorem compareThree_of_all (hall : (x.same y && x.same z) = true) :
    compareThree q b x y z kind u s = commitRecord q b (slotMembers s q b) false x.record u s := if_pos hall

theorem bindOf_wr (a v : Nat) (s : State) (g k : Nat) : bindOf (wr a v s) g k = bindOf s g k := rfl

theorem bindOf_showLast (g k kind member pc : Nat) (s : State) :
    bindOf (showLast g k kind member pc s) q b = bindOf s q b := bindOf_wr _ _ s _ _

/-- Where one of three records differs: in a retry that is lasting, else the member is odd and the majority commits. -/
theorem compareThree_of_odd {o m : Vote} (hall : (x.same y && x.same z) = false) (hodd : oddOf x y z = some (o, m)) :
    compareThree q b x y z kind u s =
      let s0 := showLast q b (differingField o.record m.record kind) o.member m.record.pc s
      let s1 := oddMember q b o.member s0
      if (bindOf s q b).retryTo ≠ 0 then lastingMismatch q b s0
      else commitRecord q b (slotMembers s1 q b) false m.record u s1 := by
  unfold compareThree
  simp only [hall, hodd, bindOf_showLast, Bool.false_eq_true, if_false]

/-- Where all three differ, the pair rules apply (R258). -/
theorem compareThree_of_none (h : oddOf x y z = none) :
    compareThree q b x y z kind u s = pairMismatch q b (bindEvent q b 7 (nthD 0 (slotMembers s q b) 0)
      (showLast q b (differingField x.record y.record kind) 7 x.record.pc s)) := by
  obtain ⟨hxy, -, -⟩ := oddOf_eq_none_iff.mp h
  unfold compareThree
  simp only [hxy, h, Bool.false_and, Bool.false_eq_true, if_false]

/-- Three records that all differ commit nothing, -/
theorem committed_compareThree_of_none (h : oddOf x y z = none) :
    (standing q b (compareThree q b x y z kind u s)).1 = (standing q b s).1 := by
  rw [compareThree_of_none h, committed_pairMismatch, standing_bindEvent, standing_showLast]

/-- and neither does any difference in a retry (R254, R258). -/
theorem committed_compareThree_of_retry (hall : (x.same y && x.same z) = false) (hretry : (bindOf s q b).retryTo ≠ 0) :
    (standing q b (compareThree q b x y z kind u s)).1 = (standing q b s).1 := by
  cases hodd : oddOf x y z with
  | none => exact committed_compareThree_of_none hodd
  | some om =>
    obtain ⟨o, m⟩ := om
    refine (congrArg (fun t => (standing q b t).1) ((compareThree_of_odd hall hodd).trans (if_pos hretry))).trans ?_
    rw [committed_lastingMismatch, standing_showLast]

/-- Where three records commit one, it is a record that two unaltered members hold (R253). -/
theorem compareThree_commits (hmaj : oddOf x y z ≠ none)
    (h : (bindOf s q b).retryTo = 0 ∨ (x.same y && x.same z) = true) :
    ∃ (r : Rec) (s1 : State), compareThree q b x y z kind u s = commitRecord q b (slotMembers s1 q b) false r u s1 ∧
      (standing q b s1).1 = (standing q b s).1 ∧
      2 ≤ ([x, y, z].filter fun v => !v.altered && v.record == r).length := by
  cases hall : x.same y && x.same z with
  | true =>
    obtain ⟨hxy, -⟩ := Bool.and_eq_true_iff.mp hall
    exact ⟨x.record, s, compareThree_of_all hall, rfl, two_hold_of_same (by simp) hxy⟩
  | false =>
    obtain ⟨⟨o, m⟩, hodd⟩ := Option.ne_none_iff_exists'.mp hmaj
    have hretry : ¬ (bindOf s q b).retryTo ≠ 0 := not_not_intro (h.resolve_right (by simp [hall]))
    refine ⟨m.record, _, (compareThree_of_odd hall hodd).trans (if_neg hretry), ?_, two_hold_of_oddOf hodd⟩
    rw [committed_oddMember, standing_showLast]

/-- Before the third member has retired the bundle, the first two commit what both hold, and not in a retry (R253,
R254). -/
theorem compareTwo_cases : compareTwo q b x y u s = s ∨ x.same y = true ∧ (bindOf s q b).retryTo = 0 ∧
    compareTwo q b x y u s = commitRecord q b ((slotMembers s q b).take 2) true x.record u s := by
  unfold compareTwo
  split
  · next h =>
    simp only [Bool.and_eq_true, beq_iff_eq] at h
    exact .inr ⟨h.1.1, h.1.2, rfl⟩
  · exact .inl rfl

/-- A third record that differs from the one committed makes its member odd, and commits nothing (R256). -/
theorem committed_compareLate {r : Rec} (h : (z.altered || z.record != r) = true) :
    (standing q b (compareLate q b z r kind s)).1 = (standing q b s).1 := by
  unfold compareLate
  rw [if_neg (by simpa [or_iff_not_imp_left] using h), committed_oddMember, standing_showLast]

end

/-- Settles O42: what stands committed is followed through every branch of the comparison that is no commit. -/
theorem aDifferenceNeverCommits : Obligations.ADifferenceNeverCommits := by
  unfold Obligations.ADifferenceNeverCommits
  intro s q b d kind u x y z ms t kept two held three
  have kept_of {t' : State} (ht : t = t') (h : (standing q b t').1 = (standing q b s).1) : kept := by
    rw [← ht] at h
    exact Prod.mk.inj h
  refine ⟨fun hn ⟨hx, hy⟩ hxy => ?_, fun ⟨⟨hn, hpast, hx, hy⟩, hz⟩ hxy hxz hyz => ?_,
    fun ⟨⟨hn, hpast, hx, hy⟩, hz⟩ hretry hall => ?_, fun ⟨⟨hn, hpast, hx, hy⟩, hz⟩ hsome hcommits => ?_,
    fun ⟨hn, hpast, hx, hy⟩ hz => ?_, fun r rest hn hpast hz hodd => ?_⟩
  -- A pair whose records differ
  · have ht : t = comparePair q b x y kind u s := compareRecords_pair hn hx hy
    obtain ⟨st, hst, h⟩ := standing_comparePair (q := q) (b := b) (s := s) (kind := kind) (u := u) hxy
    have hstate : bindState t q b = st := ht ▸ congrArg Prod.snd h
    exact ⟨kept_of ht (by rw [h]), hstate ▸ hst⟩
  -- Three records: all differ, one differs in a retry, one commits
  · exact kept_of (compareRecords_three hn hpast hx hy hz)
      (committed_compareThree_of_none (oddOf_eq_none_iff.mpr ⟨hxy, hxz, hyz⟩))
  · exact kept_of (compareRecords_three hn hpast hx hy hz) (committed_compareThree_of_retry hall hretry)
  · have hmaj : oddOf x y z ≠ none := by
      rw [Ne, oddOf_eq_none_iff]
      rintro ⟨hxy, hxz, hyz⟩
      simp [hxy, hxz, hyz] at hsome
    obtain ⟨r, s1, hcommit, hs1, htwo⟩ := compareThree_commits (kind := kind) (u := u) hmaj hcommits
    exact ⟨r, s1, (compareRecords_three hn hpast hx hy hz).trans hcommit, (Prod.mk.inj hs1).1, htwo⟩
  -- The third record is still to come, or comes after the commit
  · have ht : t = compareTwo q b x y u s := compareRecords_two hn hpast hx hy hz
    rw [ht]
    exact compareTwo_cases
  · exact kept_of (compareRecords_late hn hpast hz) (committed_compareLate hodd)

end Sys2Proof.Machine
end

section
/-! The events of the bindings: commit boundaries, equal records, state copies, alarms, parity errors and freed checker
units (R253, R259 to R263). -/

namespace Sys2Proof.Machine

/-! ## Equal records (R253) -/

/-- What committing record r makes of a member's engine (R253). -/
def Engine.commit (r : Rec) (z : Engine) : Engine := { z with base := r.post, buf := z.buf.drop 1, stuck := false }

/-- Beside the member's engine, a commit changes what BD_ESTAT and BD_EPC show of it alone. -/
theorem onlyRegs_commitMember (q : Nat) (r : Rec) (i : Nat) (s : State) :
    OnlyRegs (statRegs (eng q i)) (updEng (eng q i) (Engine.commit r) s) (commitMember q r i s) := by
  have hstat := bdEstat_mem_statRegs (eng q i)
  have hepc : OnlyRegs (statRegs (eng q i)) (updEng (eng q i) (Engine.commit r) s)
      (if retires r.exc then showEpc (eng q i) r.pc (updEng (eng q i) (Engine.commit r) s)
        else updEng (eng q i) (Engine.commit r) s) :=
    onlyRegs_ite (onlyRegs_showEpc (onlyRegs_refl _ _) _ (bdEpc_mem_statRegs _)) (onlyRegs_refl _ _)
  have harch := onlyRegs_setFld _ Fld.BD_ESTAT_PRIV r.post.priv (onlyRegs_setFld _ Fld.BD_ESTAT_BANK r.post.bank
    (onlyRegs_setFld _ Fld.BD_ESTAT_IPL r.post.ipl (onlyRegs_setFlag _ Fld.BD_ESTAT_DF r.post.df hepc hstat) hstat)
    hstat) hstat
  exact onlyRegs_ite harch (onlyRegs_setFld _ _ _ harch hstat)

theorem mem_commitMember (q : Nat) (r : Rec) (i : Nat) (s : State) : (commitMember q r i s).mem = s.mem :=
  (mem_of_onlyRegs (onlyRegs_commitMember q r i s)).trans rfl

theorem bindOf_commitMember (q : Nat) (r : Rec) (i : Nat) (s : State) (g k : Nat) :
    bindOf (commitMember q r i s) g k = bindOf s g k := bindOf_of_onlyRegs (onlyRegs_commitMember q r i s) g k

theorem engOf_commitMember (q : Nat) (r : Rec) (i : Nat) (s : State) (e : Nat) : engOf (commitMember q r i s) e =
    if e = eng q i then (engOf s e).commit r else engOf s e := by
  rw [engOf_of_onlyRegs (onlyRegs_commitMember q r i s), engOf_updEng]
  split
  · next h => rw [h]
  · rfl

/-- Each member that commits the record takes its state. -/
theorem base_forAll_commitMember {q : Nat} {r : Rec} {e : Nat} (ms : List Nat) {s : State}
    (h : (∃ i ∈ ms, e = eng q i) ∨ (engOf s e).base = r.post) :
    (engOf (forAll ms (commitMember q r) s) e).base = r.post := by
  induction ms generalizing s with
  | nil => simpa [forAll] using h
  | cons k ms ih =>
    rw [forAll_cons]
    refine ih ?_
    by_cases hk : e = eng q k
    · right
      rw [engOf_commitMember, if_pos hk]
      rfl
    · rw [engOf_commitMember, if_neg hk]
      simpa [hk] using h

theorem bindOf_forAll_commitMember (q : Nat) (r : Rec) (ms : List Nat) (s : State) (g k : Nat) :
    bindOf (forAll ms (commitMember q r) s) g k = bindOf s g k :=
  forAll_keeps (bindOf · g k) ms (fun i t => bindOf_commitMember q r i t g k) s

section
variable {q b : Nat} {s : State} {r : Rec} (ms : List Nat) (u : Upset) (hops : r.ops = []) (hrefused : r.refused = [])
  (hstop : r.stop = 0) (hretry : (bindOf s q b).retryTo = 0)
include hops hrefused hstop hretry

/-- A record with no write, no refused access and no stop, outside a retry, is committed by its members alone. -/
theorem commitRecord_of_quiet : commitRecord q b ms false r u s =
    updBind q b (fun y => { y with done := y.done + 1, log := y.log.filter fun v => decide (y.done < v.1) })
      (forAll ms (commitMember q r) s) := by
  have hstops (t : State) : forAll ms (fun i => makeStop (eng q i) 0 r.cause r.pc) t = t :=
    forAll_keeps id ms (fun _ _ => rfl) t
  unfold commitRecord
  rw [hops, hrefused, hstop]
  dsimp only [commitOps]
  rw [hstops, settleRetry]
  refine if_neg ?_
  rw [bindOf_updBind, bindOf_forAll_commitMember]
  exact fun h => h.1 hretry

/-- Such a commit: the count grows, the members take the record's state, and memory stays (R253). -/
theorem commitRecord_quiet_effect :
    let t := commitRecord q b ms false r u s
    (bindOf t q b).done = (bindOf s q b).done + 1 ∧ (∀ i ∈ ms, (engOf t (eng q i)).base = r.post) ∧ t.mem = s.mem := by
  rw [commitRecord_of_quiet ms u hops hrefused hstop hretry]
  refine ⟨?_, fun i hi => base_forAll_commitMember ms (.inl ⟨i, hi, rfl⟩),
    forAll_keeps State.mem ms (mem_commitMember q r) s⟩
  rw [bindOf_updBind, bindOf_forAll_commitMember]

end

/-- A pair whose oldest records are the same record commits it (R252, R253). -/
theorem compareRecords_of_equal {s : State} {q : Fin 16} {b : Fin 6} {i j kind : Nat} {d : Nat → Bool} {r : Rec}
    (u : Upset)
    (hms : slotMembers s q b = [i, j]) (hd0 : d 0 = false) (hd1 : d 1 = false)
    (hi : (engOf s (eng q i)).buf.head? = some r) (hj : (engOf s (eng q j)).buf.head? = some r) :
    compareRecords q b d kind u s = commitRecord q b (slotMembers s q b) false r u s := by
  have hx : voteAt s q b d 0 = some ⟨i, r, false⟩ := by simp [voteAt, hms, nthD, hi, hd0]
  have hy : voteAt s q b d 1 = some ⟨j, r, false⟩ := by simp [voteAt, hms, nthD, hj, hd1]
  rw [compareRecords_pair (by simp [hms]) hx hy]
  exact if_pos ((Vote.same_iff _ _).mpr ⟨rfl, rfl, rfl⟩)

/-! ## Alarms (R260, R261) -/

/-- An alarm of a unit that no slot of its quire holds marks the unit failed, and does no more. -/
theorem checkerAlarm_of_unformed {s : State} {q u : Nat} (h : ∀ c, c < 6 → slotFormed s q c = false) :
    checkerAlarm q u s = orWord (Reg.BD_CK q) (2 ^ (8 + u)) s := by
  have hformed (c : Nat) (hc : c < 6) : slotFormed (orWord (Reg.BD_CK q) (2 ^ (8 + u)) s) q c = false := by
    have hstate := fld_wr_ne (Reg.BD_CK q) (rd s (Reg.BD_CK q) ||| 2 ^ (8 + u)) s (Reg.BD_BSTAT q c)
      Fld.BD_BSTAT_STATE (by unfold Reg.BD_BSTAT Reg.BD_CK; omega)
    rw [← h c hc]
    simp only [slotFormed, orWord, hstate]
  have hnone : (List.range 6).find? (fun c => slotFormed (orWord (Reg.BD_CK q) (2 ^ (8 + u)) s) q c &&
      unitOf (orWord (Reg.BD_CK q) (2 ^ (8 + u)) s) q c == some u) = none := by
    rw [List.find?_eq_none]
    intro c hc
    simp [hformed c (List.mem_range.mp hc)]
  simp only [checkerAlarm, hnone]

theorem checkerAlarm_unformed_effect {s : State} {q u : Nat} (hu : u < 6)
    (h : ∀ c, c < 6 → slotFormed s q c = false) :
    let t := checkerAlarm q u s
    bitAt (rd t (Reg.BD_CK q)) (8 + u) = true ∧ OnlyRegs [Reg.BD_CK q] s t := by
  rw [checkerAlarm_of_unformed h]
  exact ⟨bitAt_rd_raiseWord (Reg.BD_CK q) s (by omega), onlyRegs_wr _ _ (onlyRegs_refl _ s) (by simp)⟩

/-- Settles O41, a command at a time. -/
theorem bindingEventsRun : Obligations.BindingEventsRun := by
  unfold Obligations.BindingEventsRun
  intro s q b u cmp both ms y
  refine ⟨fun ha hbound => ?_, fun i j r ha hmay hms hi hj => ?_, fun ha hcopy hpass => ?_,
    fun ha hcopy hpass hhold => ?_, fun ha => ?_, fun ha hformed hunit hheld => ?_, fun ha hstate hcmd hcopy => ?_⟩
  -- COMMIT_BOUNDARY
  · exact runs_of_eq (live_eq ha hbound) rfl
  -- RECORD_COMPARE
  · have hcommit := compareRecords_of_equal (kind := cmp.kind.val + 1)
      (d := fun i => if i = 0 then false else if i = 1 then false else false) cmp.u hms rfl rfl hi hj
    refine runs_of_eq (live_eq ha hmay) ⟨hcommit, fun hops hrefused hstop hretry => ?_⟩
    rw [hcommit]
    obtain ⟨hdone, hbase, hmem⟩ := commitRecord_quiet_effect ms cmp.u hops hrefused hstop hretry
    exact ⟨hdone, hbase i (by simp [hms]), hbase j (by simp [hms]), hmem⟩
  -- STATE_COPY_PASS1_DONE, PASS2_COMPLETE
  · refine runs_of_eq (live_eq ha (by simp [y, hcopy, hpass])) ⟨?_, rfl, rfl⟩
    rw [bindOf_updBind]
  · exact runs_of_eq (live_eq ha (by simp [y, hcopy, hpass, hhold])) rfl
  -- CHECKER_ALARM
  · exact runs_of_eq (live_eq ha rfl) ⟨rfl, checkerAlarm_unformed_effect u.isLt⟩
  -- REPLAY_PARITY_ERROR
  · refine runs_of_eq (live_eq ha (by simp [hformed, hunit, hheld])) ?_
    simp [y]
  -- CHECKER_UNIT_FREED
  · exact runs_of_eq (live_eq ha (by simp [y, hstate, hcmd, hcopy])) rfl

end Sys2Proof.Machine
end

section
/-! The fuses under a step. -/

namespace Sys2Proof.Machine

/-- Settles O58: that no fuse is restored is one of the things that every command and every idle tick keep of a sound
state. -/
theorem fusesAreOnlyBlown : Obligations.FusesAreOnlyBlown := by
  unfold Obligations.FusesAreOnlyBlown
  intro s t e
  obtain ⟨-, -, hblown, -⟩ := step_sound (sound_of_fuses s) e
  exact hblown

end Sys2Proof.Machine
end

section
/-! The counters of the timers and their compare values, as integers modulo RLD + 1. -/

namespace Sys2Proof.Machine

/-! ## Counters and compares (R276, R277) -/

theorem stepCompare_cast (c n rld : Nat) : (stepCompare c n rld : Int) = ((c : Int) - n) % (rld + 1) :=
  Int.toNat_of_nonneg (Int.emod_nonneg _ (by omega))

theorem stepCompare_le (c n rld : Nat) : stepCompare c n rld ≤ rld := by
  have hlt := Int.emod_lt_of_pos ((c : Int) - n) (show (0 : Int) < rld + 1 by omega)
  rw [← stepCompare_cast] at hlt
  omega

section
variable {rld v : Nat} (h : v ≤ rld)
include h

/-- A periodic counter runs through the residues modulo RLD + 1, as the compare steps do. -/
theorem countDown_periodic (n : Nat) : countDown false rld v n = stepCompare v n rld := by
  have hcast : (countDown false rld v n : Int) = ((v : Int) - n) % (rld + 1) := by
    unfold countDown
    split
    case isTrue hn =>
      rw [Int.emod_eq_of_lt (by omega) (by omega)]
      omega
    case isFalse hn =>
      obtain ⟨x, rfl⟩ : ∃ x, n = v + 1 + x := ⟨n - v - 1, by omega⟩
      rw [show v + 1 + x - v - 1 = x by omega]
      have hlt : x % (rld + 1) < rld + 1 := Nat.mod_lt x (by omega)
      have hsplit : (v : Int) - (v + 1 + x : Nat) = (rld - x % (rld + 1) : Nat) + (rld + 1 : Nat) *
          -((x / (rld + 1) : Nat) + 1 : Int) := by
        have hdiv : ((rld + 1 : Nat) : Int) * (x / (rld + 1) : Nat) + (x % (rld + 1) : Nat) = x := by
          exact_mod_cast Nat.div_add_mod x (rld + 1)
        rw [mul_neg, mul_add]
        omega
      rw [hsplit, if_neg (by decide), show (rld : Int) + 1 = (rld + 1 : Nat) by simp, Int.add_mul_emod_self_left, Int.emod_eq_of_lt (by omega) (by omega)]
  exact_mod_cast hcast.trans (stepCompare_cast v n rld).symm

theorem stepCompare_zero : stepCompare v 0 rld = v := by
  have hcast : (stepCompare v 0 rld : Int) = v := by
    rw [stepCompare_cast, Int.emod_eq_of_lt (by omega) (by omega)]
    simp
  exact_mod_cast hcast

end

/-- Steps add up. -/
theorem stepCompare_add (v n k rld : Nat) :
    stepCompare v (n + k) rld = stepCompare (stepCompare v n rld) k rld := by
  have hcast : (stepCompare v (n + k) rld : Int) = stepCompare (stepCompare v n rld) k rld := by
    rw [stepCompare_cast, stepCompare_cast, stepCompare_cast, Int.emod_sub_emod]
    congr 1
    push_cast
    ring
  exact_mod_cast hcast

/-- RLD + 1 steps lead back, -/
theorem stepCompare_period {rld v : Nat} (h : v ≤ rld) : stepCompare v (rld + 1) rld = v := by
  have hcast : (stepCompare v (rld + 1) rld : Int) = v := by
    rw [stepCompare_cast, Int.natCast_succ, Int.sub_emod_right, Int.emod_eq_of_lt (by omega) (by omega)]
  exact_mod_cast hcast

/-- and fewer, but for none, do not. -/
theorem stepCompare_ne {rld v j : Nat} (h : v ≤ rld) (hpos : 0 < j) (hj : j ≤ rld) : stepCompare v j rld ≠ v := by
  intro e
  have hcast : ((v : Int) - j) % (rld + 1) = v := by rw [← stepCompare_cast, e]
  have hsame : ((v : Int) - j) % (rld + 1) = (v : Int) % (rld + 1) := by
    rw [hcast, Int.emod_eq_of_lt (by omega) (by omega)]
  have hdvd : (rld : Int) + 1 ∣ j := by simpa using (show (v : Int) - j ≡ v [ZMOD rld + 1] from hsame).dvd
  have hmin := Int.le_of_dvd (by omega) hdvd
  omega

/-- Settles O44: every clause speaks of steps modulo RLD + 1. -/
theorem compareStepsKeepTheirDistance : Obligations.CompareStepsKeepTheirDistance := by
  unfold Obligations.CompareStepsKeepTheirDistance
  intro rld v n k h
  have hle := stepCompare_le v n rld
  rw [countDown_periodic h, countDown_periodic h, countDown_periodic hle, countDown_periodic h]
  refine ⟨hle, stepCompare_add v n k rld, stepCompare_period h, fun j hpos hj => ?_, hle, rfl, stepCompare_zero h,
    fun hn => ?_⟩
  · rw [countDown_periodic h]
    exact stepCompare_ne h hpos hj
  · unfold countDown
    split
    · omega
    · rfl

end Sys2Proof.Machine
end

section
/-! Reads and writes of one 64-bit word of SRAM: what they find, and what they leave of bytes, written flags and errors
(R297 to R300). -/

namespace Sys2Proof.Machine

/-! ## Values in memory (R9) -/

/-- A byte of a value that has been written, -/
theorem memByte_setValue_add {n i : Nat} (hi : i < n) : ∀ (a v : Nat) (s : State),
    memByte (setValue a n v s) (a + i) = v / 256 ^ i % 256 := by
  induction n generalizing i with
  | zero => omega
  | succ n ih =>
    intro a v s
    rw [setValue_succ]
    cases i with
    | zero =>
      rw [memByte_setValue_ne _ _ _ _ _ (.inl (by omega)), memByte_setByte, if_pos (Nat.add_zero a), Nat.pow_zero,
        Nat.div_one]
    | succ i => rw [show a + (i + 1) = a + 1 + i by omega, ih (by omega), Nat.div_div_eq_div_mul, Nat.pow_succ']

/-- and a byte of a word that has been zeroed. -/
theorem memByte_setValue_zero {a n x : Nat} (s : State) (h : a ≤ x ∧ x < a + n) : memByte (setValue a n 0 s) x = 0 := by
  obtain ⟨i, rfl⟩ := Nat.exists_eq_add_of_le h.1
  rw [memByte_setValue_add (by omega), Nat.zero_div, Nat.zero_mod]

/-! ## Written flags and errors (R297, R298) -/

/-- Written flags are the same where the two parts that hold them are. -/
theorem wordWritten_of_ras {s t : State} (hfilled : t.ras.filled = s.ras.filled) (hflips : t.ras.flips = s.ras.flips)
    (k a : Nat) : wordWritten t k a = wordWritten s k a := by
  unfold wordWritten
  rw [hfilled, hflips]

theorem ras_of_besideFaults {s t : State} (h : besideFaults t = besideFaults s) : t.ras = s.ras := by
  have := congrArg State.ras h
  exact this

@[simp] theorem ras_report (x : Rep) (s : State) : (report x s).ras = s.ras :=
  ras_of_besideFaults (besideFaults_report x s)

@[simp] theorem ras_setValue (a n v : Nat) (s : State) : (setValue a n v s).ras = s.ras := by
  unfold setValue
  exact forAll_keeps State.ras _ (f := fun (x : Nat × Nat) s => setByte (a + x.1) x.2 s) (fun _ _ => rfl) s

theorem wordUpset_of_ras {s t : State} (h : t.ras = s.ras) (a : Nat) : wordUpset t a = wordUpset s a := by
  rw [wordUpset, h]
  rfl

@[simp] theorem wordWritten_report (x : Rep) (s : State) (k a : Nat) :
    wordWritten (report x s) k a = wordWritten s k a := wordWritten_of_ras (by rw [ras_report]) (by rw [ras_report]) k a

@[simp] theorem wordWritten_setValue (a n v : Nat) (s : State) (k x : Nat) :
    wordWritten (setValue a n v s) k x = wordWritten s k x :=
  wordWritten_of_ras (by rw [ras_setValue]) (by rw [ras_setValue]) k x

@[simp] theorem wordWritten_setUpset (a v : Nat) (s : State) (k x : Nat) :
    wordWritten (setUpset a v s) k x = wordWritten s k x := (rfl)

@[simp] theorem wordWritten_logError (e : ElogEntry) (s : State) (k x : Nat) :
    wordWritten (logError e s) k x = wordWritten s k x := by
  refine wordWritten_of_ras ?_ ?_ k x <;> simp only [logError, updRas] <;> split <;> rfl

@[simp] theorem wordWritten_incFld (a : Nat) (f : Bits) (s : State) (k x : Nat) :
    wordWritten (incFld a f s) k x = wordWritten s k x := (rfl)

@[simp] theorem wordWritten_spend (s : State) (k x : Nat) : wordWritten (spend s) k x = wordWritten s k x := (rfl)

@[simp] theorem wordWritten_setWritten_self (k a : Nat) (b : Bool) (s : State) :
    wordWritten (setWritten k a b s) k a = b := by
  simp only [wordWritten, setWritten, updRas, tget_tset_self]
  cases b <;> cases tget (fun _ => false) s.ras.filled (granuleOf k a) <;> rfl

theorem wordWritten_setWritten_ne {k a x : Nat} (b : Bool) (s : State) (h : x / 8 ≠ a / 8) (j : Nat) :
    wordWritten (setWritten k a b s) j x = wordWritten s j x := by
  simp only [wordWritten, setWritten, updRas, tget_tset, if_neg h]

@[simp] theorem wordUpset_setUpset_self (a v : Nat) (s : State) : wordUpset (setUpset a v s) a = v :=
  tget_tset_self _ _ _ _

@[simp] theorem wordUpset_setWritten (k a x : Nat) (b : Bool) (s : State) :
    wordUpset (setWritten k a b s) x = wordUpset s x := (rfl)

@[simp] theorem wordUpset_setValue (a n v x : Nat) (s : State) : wordUpset (setValue a n v s) x = wordUpset s x :=
  wordUpset_of_ras (ras_setValue a n v s) x

@[simp] theorem wordUpset_report (x : Rep) (s : State) (a : Nat) : wordUpset (report x s) a = wordUpset s a :=
  wordUpset_of_ras (ras_report x s) a

@[simp] theorem wordUpset_logError (e : ElogEntry) (s : State) (x : Nat) :
    wordUpset (logError e s) x = wordUpset s x := by
  simp only [wordUpset, logError, updRas]
  split <;> rfl

/-! ## Reads of a word (R297, R300) -/

section
variable (k a : Nat) (scrub : Bool) (u : Upset) (s : State)

@[simp] theorem wordWritten_strikeWord (j x : Nat) :
    wordWritten (strikeWord a u s).1 j x = wordWritten s j x := by cases u <;> rfl

/-- A correction sets no written flag and clears none, -/
@[simp] theorem wordWritten_correctWord (j x : Nat) :
    wordWritten (correctWord k a scrub s) j x = wordWritten s j x := by
  have hcount (n : Nat) (s : State) : wordWritten
      (updRas (fun y => { y with ce := tset (fun _ => 0) y.ce (pageOf k a) n }) s) j x = wordWritten s j x := rfl
  unfold correctWord
  dsimp only
  split <;> simp [hcount]

/-- and leaves no error. -/
theorem wordUpset_correctWord : wordUpset (correctWord k a scrub s) a = 0 := by
  have hcount (n : Nat) (s : State) : wordUpset (incFld (Reg.MR_BSTAT k) Fld.MR_BSTAT_CE
      (updRas (fun x => { x with ce := tset (fun _ => 0) x.ce (pageOf k a) n }) s)) a = wordUpset s a := rfl
  unfold correctWord
  dsimp only
  split <;> simp [hcount]

end

section
variable {m k a type size : Nat} {scrub : Bool} {u : Upset} {s : State}

theorem touchWord_of_unwritten (h : wordWritten s k a = false) : (touchWord m k a type size scrub u s).2 = .unwritten := by
  unfold touchWord
  simp only [h, Bool.not_false, if_true]
  split <;> rfl

/-- A written word with no error or one flipped bit reads good, and holds no error then. -/
theorem touchWord_of_good (h : wordWritten s k a = true) (hu : wordUpset (strikeWord a u s).1 a < 2) :
    (touchWord m k a type size scrub u s).2 = .good ∧ wordUpset (touchWord m k a type size scrub u s).1 a = 0 := by
  have hseen (x : Rep) (b : Bool) (s : State) : wordUpset (if b then report x s else s) a = wordUpset s a := by
    split <;> simp
  unfold touchWord
  simp only [h, Bool.not_true, Bool.false_eq_true, if_false, hseen]
  split
  case h_1 h0 => exact ⟨rfl, (hseen ..).trans h0⟩
  case h_2 => exact ⟨rfl, wordUpset_correctWord ..⟩
  case h_3 h0 h1 => exact absurd hu (not_lt.mpr ((Nat.two_le_iff _).mpr ⟨h0, h1⟩))

/-- One with two flipped bits does not. -/
theorem touchWord_of_bad (h : wordWritten s k a = true) (hu : 2 ≤ wordUpset (strikeWord a u s).1 a) :
    (touchWord m k a type size scrub u s).2 = .bad := by
  have hseen (x : Rep) (b : Bool) (s : State) : wordUpset (if b then report x s else s) a = wordUpset s a := by
    split <;> simp
  unfold touchWord
  simp only [h, Bool.not_true, Bool.false_eq_true, if_false, hseen]
  split
  case h_1 h0 => omega
  case h_2 h1 => omega
  case h_3 => rfl

/-- A read changes no written flag. -/
theorem wordWritten_touchWord (j x : Nat) :
    wordWritten (touchWord m k a type size scrub u s).1 j x = wordWritten s j x := by
  have hseen (y : Rep) (b : Bool) (s : State) : wordWritten (if b then report y s else s) j x = wordWritten s j x := by
    split <;> simp
  unfold touchWord
  dsimp only
  split
  · split <;> simp
  · split <;> simp [hseen]

/-- A word is found good exactly where it is written and shows fewer than two flipped bits. -/
theorem touchWord_good_iff : (touchWord m k a type size scrub u s).2 = .good ↔
    wordWritten s k a = true ∧ wordUpset (strikeWord a u s).1 a < 2 := by
  cases h : wordWritten s k a with
  | false => simp [touchWord_of_unwritten h]
  | true =>
    by_cases hu : wordUpset (strikeWord a u s).1 a < 2
    · simp [touchWord_of_good h hu, hu]
    · simp [touchWord_of_bad h (Nat.le_of_not_lt hu), hu]

theorem touchWord_unwritten_iff : (touchWord m k a type size scrub u s).2 = .unwritten ↔ wordWritten s k a = false := by
  cases h : wordWritten s k a with
  | false => simp [touchWord_of_unwritten h]
  | true =>
    by_cases hu : wordUpset (strikeWord a u s).1 a < 2
    · simp [touchWord_of_good h hu]
    · simp [touchWord_of_bad h (Nat.le_of_not_lt hu)]

end

/-! ## Writes of a word (R298, R299) -/

/-- What a write that is not aborted leaves of its word and of the others: the value, the other bytes of its word, which
read 0 where the word was unwritten, the bytes of the others, and the flags. -/
structure Stored (k a n v : Nat) (s t : State) : Prop where
  value : memValue t a n = v % 2 ^ (8 * n)
  written : wordWritten t k a = true
  clean : wordUpset t a = 0
  others : ∀ x, x / 8 ≠ a / 8 → memByte t x = memByte s x
  flags : ∀ x j, x / 8 ≠ a / 8 → wordWritten t j x = wordWritten s j x
  rest : ∀ x, x / 8 = a / 8 → ¬(a ≤ x ∧ x < a + n) → memByte t x = if wordWritten s k a then memByte s x else 0

section
variable {m k a n v size : Nat} {u : Upset} {s : State}

/-- A write of a whole word. -/
theorem storeWord_whole (ha : a % 8 = 0) :
    (storeWord m k a 8 v size u s).2 = .good ∧ Stored k a 8 v s (storeWord m k a 8 v size u s).1 := by
  have heq : storeWord m k a 8 v size u s = (s |> setValue a 8 v |> setWritten k a true |> setUpset a 0, .good) := rfl
  rw [heq]
  refine ⟨rfl, ?_, by simp, by simp, fun x hx => ?_, fun x j hx => ?_, fun x hx hout => by omega⟩
  · exact (memValue_of_mem rfl a 8).trans (memValue_setValue_self 8 a v s)
  · exact memByte_setValue_ne a 8 v x s (by omega)
  · rw [wordWritten_setUpset, wordWritten_setWritten_ne _ _ hx, wordWritten_setValue]

/-- A read-modify-write of a written word that reads good. -/
theorem storeWord_merged (hn : n ≠ 8) (hfit : a % 8 + n ≤ 8) (hw : wordWritten s k a = true)
    (hu : wordUpset (strikeWord a u s).1 a < 2) :
    (storeWord m k a n v size u s).2 = .good ∧ Stored k a n v s (storeWord m k a n v size u s).1 := by
  obtain ⟨hgood, hclean⟩ := touchWord_of_good (m := m) (type := 3) (size := size) (scrub := false) hw hu
  have heq : storeWord m k a n v size u s = (setValue a n v (touchWord m k a 3 size false u s).1, .good) := by
    simp [storeWord, hn, hw, hgood]
  have hmem (x : Nat) : memByte (touchWord m k a 3 size false u s).1 x = memByte s x :=
    memByte_of_mem (mem_touchWord ..) x
  rw [heq]
  refine ⟨rfl, memValue_setValue_self n a v _, ?_, ?_, fun x hx => ?_, fun x j hx => ?_, fun x hx hout => ?_⟩
  · rw [wordWritten_setValue, wordWritten_touchWord, hw]
  · rw [wordUpset_setValue, hclean]
  · rw [memByte_setValue_ne _ _ _ _ _ (by omega), hmem]
  · rw [wordWritten_setValue, wordWritten_touchWord]
  · rw [memByte_setValue_ne _ _ _ _ _ (by omega), hmem, hw, if_pos rfl]

/-- One of a word that reads uncorrectable is aborted: only the read half takes place. -/
theorem storeWord_aborted (hn : n ≠ 8) (hw : wordWritten s k a = true) (hu : 2 ≤ wordUpset (strikeWord a u s).1 a) :
    storeWord m k a n v size u s = ((touchWord m k a 3 size false u s).1, .bad) := by
  simp [storeWord, hn, hw, touchWord_of_bad (m := m) (type := 3) (size := size) (scrub := false) hw hu]

/-- The first write of a word zeroes its other bytes. -/
theorem storeWord_first (hn : n ≠ 8) (hfit : a % 8 + n ≤ 8) (hw : wordWritten s k a = false) :
    (storeWord m k a n v size u s).2 = .good ∧ Stored k a n v s (storeWord m k a n v size u s).1 := by
  have heq : storeWord m k a n v size u s = (s |> setValue (a / 8 * 8) 8 0 |> setUpset a 0 |> setValue a n v
      |> setWritten k a true, .good) := by simp [storeWord, hn, hw]
  rw [heq]
  refine ⟨rfl, ?_, by simp, by simp, fun x hx => ?_, fun x j hx => ?_, fun x hx hout => ?_⟩
  · exact (memValue_of_mem rfl a n).trans (memValue_setValue_self n a v _)
  · rw [memByte_setWritten, memByte_setValue_ne _ _ _ _ _ (by omega), memByte_setUpset,
      memByte_setValue_ne _ _ _ _ _ (by omega)]
  · rw [wordWritten_setWritten_ne _ _ hx, wordWritten_setValue, wordWritten_setUpset, wordWritten_setValue]
  · rw [memByte_setWritten, memByte_setValue_ne _ _ _ _ _ (by omega), memByte_setUpset,
      memByte_setValue_zero _ (by omega), hw]
    rfl

/-- A write is not aborted where it is whole, where its word is unwritten, and where that reads good. -/
theorem storeWord_stored (hfit : a % 8 + n ≤ 8)
    (h : n = 8 ∨ wordWritten s k a = false ∨ wordUpset (strikeWord a u s).1 a < 2) :
    (storeWord m k a n v size u s).2 = .good ∧ Stored k a n v s (storeWord m k a n v size u s).1 := by
  by_cases hn : n = 8
  · subst hn
    exact storeWord_whole (by omega)
  · cases hw : wordWritten s k a with
    | false => exact storeWord_first hn hfit hw
    | true => exact storeWord_merged hn hfit hw (by simpa [hn, hw] using h)

end

/-- Settles O48: a write is aborted, or leaves what Stored says; a read leaves memory and the flags. -/
theorem writesMergeIntoTheirWord : Obligations.WritesMergeIntoTheirWord := by
  unfold Obligations.WritesMergeIntoTheirWord
  intro s m k a n v size type scrub u _ hn halign t inWord flags
  have hfit : a % 8 + n ≤ 8 := by
    simp only [List.mem_cons, List.not_mem_nil, or_false] at hn
    rcases hn with rfl | rfl | rfl | rfl <;> omega
  have hread : KeepsMemory s (touchWord m k a type size scrub u s).1 ∧
      flags (fun _ => True) (touchWord m k a type size scrub u s).1 ∧
      ((touchWord m k a type size scrub u s).2 = .unwritten ↔ wordWritten s k a = false) ∧
      ((touchWord m k a type size scrub u s).2 = .good ↔
        wordWritten s k a = true ∧ wordUpset (strikeWord a u s).1 a < 2) :=
    ⟨fun b => memByte_of_mem (mem_touchWord ..) b, fun x j _ _ => wordWritten_touchWord j x, touchWord_unwritten_iff,
      touchWord_good_iff⟩
  by_cases hbad : n ≠ 8 ∧ wordWritten s k a = true ∧ 2 ≤ wordUpset (strikeWord a u s).1 a
  · obtain ⟨hne, hw, hu⟩ := hbad
    have heq : storeWord m k a n v size u s = ((touchWord m k a 3 size false u s).1, .bad) := storeWord_aborted hne hw hu
    have hres : (storeWord m k a n v size u s).2 ≠ .good := by simp [heq]
    refine ⟨iff_of_true hres ⟨hne, hw, hu⟩, fun _ => ?_, fun hgood => absurd hgood hres, hread⟩
    simp only [t, heq]
    exact ⟨fun b => memByte_of_mem (mem_touchWord ..) b, fun x j _ _ => wordWritten_touchWord j x⟩
  · obtain ⟨hgood, hstored⟩ : (storeWord m k a n v size u s).2 = .good ∧ Stored k a n v s t := by
      refine storeWord_stored hfit ?_
      by_contra hnot
      simp only [not_or, Bool.not_eq_false, not_lt] at hnot
      exact hbad hnot
    exact ⟨iff_of_false (not_not_intro hgood) hbad, fun hnot => absurd hgood hnot,
      fun _ => ⟨hstored.value, hstored.written, hstored.clean, hstored.others, fun x j hx _ => hstored.flags x j hx,
        hstored.rest⟩, hread⟩

end Sys2Proof.Machine
end

section
/-! The sectors of the NVM: what programming a run of codewords leaves of the cells, what a switch of a logical sector
leaves of the others, and what a cut-short command leaves of all (R308 to R311). -/

namespace Sys2Proof.Machine

/-! ## Cells (R309, R310) -/

/-- What physical address a of the NVM holds. -/
def nvCell (n : Nvm) (a : Nat) : Byte := tget (fun _ => 255#8) n.cells a

/-- A table whose entries from base on are set to a list's elements, one after the other. -/
theorem tget_foldl_tset (d : Nat → Byte) (t : Tab Byte) (base a : Nat) (bs : List Nat) :
    tget d (((List.range bs.length).zip bs).foldl (fun t x => tset d t (base + x.1) (BitVec.ofNat 8 x.2)) t) a =
      if base ≤ a ∧ a < base + bs.length then BitVec.ofNat 8 (bs.getD (a - base) 0) else tget d t a := by
  induction bs using List.reverseRecOn with
  | nil => simp
  | append_singleton bs b ih =>
    rw [List.length_append, List.length_singleton, List.range_succ, List.zip_append (by simp), List.foldl_append]
    simp only [List.zip_cons_cons, List.zip_nil_right, List.foldl_cons, List.foldl_nil, tget_tset, ih]
    rcases lt_trichotomy a (base + bs.length) with hlt | heq | hgt
    · rw [if_neg (by omega)]
      by_cases hb : base ≤ a
      · rw [if_pos ⟨hb, hlt⟩, if_pos (by omega), List.getD_append _ _ _ _ (by omega)]
      · rw [if_neg (by omega), if_neg (by omega)]
    · rw [if_pos heq, if_pos (by omega), List.getD_append_right _ _ _ _ (by omega)]
      simp [heq]
    · rw [if_neg (by omega), if_neg (by omega), if_neg (by omega)]

theorem length_padTo {α : Type} (d : α) (n : Nat) (xs : List α) : (padTo d n xs).length = n := by
  simp only [padTo, List.length_append, List.length_take, List.length_replicate]
  omega

theorem getD_padTo {α : Type} (d e : α) {n i : Nat} (xs : List α) (hi : i < n) :
    (padTo d n xs).getD i e = xs.getD i d := by
  unfold padTo
  by_cases hx : i < xs.length
  · rw [List.getD_append _ _ _ _ (by simp; omega), List.getD_eq_getElem _ _ (by simp; omega), List.getElem_take,
      List.getD_eq_getElem _ _ hx]
  · rw [List.getD_append_right _ _ _ _ (by simp; omega), List.getD_eq_getElem _ _ (by simp; omega),
      List.getElem_replicate, List.getD_eq_default _ _ (by omega)]

theorem cells_programCw (p c : Nat) (bytes : List Nat) (s : State) (a : Nat) :
    nvCell (programCw p c bytes s).nv a = if p * 4096 + c * 32 ≤ a ∧ a < p * 4096 + c * 32 + 32 then
      BitVec.ofNat 8 (bytes.getD (a - (p * 4096 + c * 32)) 255) else nvCell s.nv a := by
  have hcells := tget_foldl_tset (fun _ => 255#8) s.nv.cells (p * 4096 + c * 32) a (padTo 255 32 bytes)
  rw [length_padTo] at hcells
  refine hcells.trans ?_
  split
  · rw [getD_padTo _ _ _ (by omega)]
  · rfl

/-- The part of a list that one codeword takes. -/
theorem getD_take_drop {d : Nat} (xs : List Nat) {i j n : Nat} (h : i < n) :
    ((xs.drop j).take n).getD i d = xs.getD (j + i) d := by
  rw [List.getD_eq_getElem?_getD, List.getD_eq_getElem?_getD, List.getElem?_take_of_lt h, List.getElem?_drop]

/-- Codewords programmed one after the other hold the bytes, filled up with 0xFF, and no other cell changes. -/
theorem cells_programCws (p c : Nat) (bytes : List Nat) (s : State) (a k : Nat) :
    nvCell (forAll (List.range k) (fun i s => programCw p (c + i) ((bytes.drop (32 * i)).take 32) s) s).nv a =
      if p * 4096 + c * 32 ≤ a ∧ a < p * 4096 + c * 32 + 32 * k then
        BitVec.ofNat 8 (bytes.getD (a - (p * 4096 + c * 32)) 255) else nvCell s.nv a := by
  induction k with
  | zero =>
    rw [if_neg (by omega)]
    rfl
  | succ k ih =>
    rw [forAll_range_succ, cells_programCw, ih]
    by_cases hlast : p * 4096 + (c + k) * 32 ≤ a ∧ a < p * 4096 + (c + k) * 32 + 32
    · rw [if_pos hlast, if_pos (by omega), getD_take_drop _ (by omega)]
      congr 2
      omega
    · rw [if_neg hlast]
      simp only [show (p * 4096 + c * 32 ≤ a ∧ a < p * 4096 + c * 32 + 32 * (k + 1)) ↔
        (p * 4096 + c * 32 ≤ a ∧ a < p * 4096 + c * 32 + 32 * k) by omega]

theorem cells_programFrom (p c : Nat) (bytes : List Nat) (s : State) (a : Nat) :
    nvCell (programFrom p c bytes s).nv a =
      if p * 4096 + c * 32 ≤ a ∧ a < p * 4096 + c * 32 + 32 * ceilDiv bytes.length 32 then
        BitVec.ofNat 8 (bytes.getD (a - (p * 4096 + c * 32)) 255) else nvCell s.nv a :=
  cells_programCws p c bytes s a _

/-- Programming maps no sector and counts no erase. -/
theorem programFrom_keeps (p c : Nat) (bytes : List Nat) (s : State) :
    let t := programFrom p c bytes s
    t.nv.map = s.nv.map ∧ t.nv.wear = s.nv.wear ∧ t.nv.dirty = s.nv.dirty ∧ t.nv.gone = s.nv.gone ∧
      t.nv.refresh = s.nv.refresh ∧ t.nv.op = s.nv.op ∧ t.regs = s.regs ∧ t.mem = s.mem := by
  have hkeep := forAll_keeps (fun s => (s.nv.map, s.nv.wear, s.nv.dirty, s.nv.gone, s.nv.refresh, s.nv.op, s.regs, s.mem))
    (List.range (ceilDiv bytes.length 32)) (f := fun i s => programCw p (c + i) ((bytes.drop (32 * i)).take 32) s)
    (fun _ _ => rfl) s
  simpa [programFrom] using hkeep

/-! ## Mapping (R308) -/

/-- No logical sector maps to an unmapped physical one. -/
theorem nvPhys_ne_of_unmapped {s : State} {x j : Nat} (h : nvMapped s x = false) (hj : j < 1984) :
    nvPhys s j ≠ x := by
  intro e
  have hfind : ∀ t : Tab Nat, tget id t j = x → t.any (fun e => e.2 == x) = true ∨ (j = x ∧ t.all (fun e => e.1 != x)) := by
    intro t
    induction t with
    | nil => exact fun e => .inr ⟨e, rfl⟩
    | cons y t ih =>
      obtain ⟨i, v⟩ := y
      intro e
      by_cases hi : i = j
      · rw [tget, if_pos hi] at e
        exact .inl (by simp [e])
      · rw [tget, if_neg hi] at e
        rcases ih e with hany | ⟨rfl, hall⟩
        · exact .inl (by simp [hany])
        · exact .inr ⟨rfl, by simpa [hi] using hall⟩
  unfold nvMapped at h
  rw [Bool.or_eq_false_iff] at h
  obtain ⟨hany, hlow⟩ := h
  rcases hfind s.nv.map e with hsome | ⟨rfl, hall⟩
  · rw [hany] at hsome
    cases hsome
  · simp [hj, hall] at hlow

theorem nvPhys_remap (l x j : Nat) (s : State) : nvPhys (remap l x s) j = if j = l then x else nvPhys s j :=
  tget_tset _ _ _ _ _

/-! ## Logical sectors (R308, R310) -/

/-- A byte of a logical sector that manufacture did not write, -/
theorem nvByte_of_cell {s : State} {j : Nat} (o : Nat) (h : factoryFresh s (nvPhys s j) = false) :
    nvByte s j o = (nvCell s.nv (nvPhys s j * 4096 + o)).toNat := by
  unfold nvByte
  rw [h]
  rfl

/-- and one of a sector that keeps its mapping, its erase count and its cells. -/
theorem nvByte_congr {s t : State} {j o : Nat} (hphys : nvPhys t j = nvPhys s j)
    (hwear : nvWear t (nvPhys s j) = nvWear s (nvPhys s j))
    (hcell : nvCell t.nv (nvPhys s j * 4096 + o) = nvCell s.nv (nvPhys s j * 4096 + o)) : nvByte t j o = nvByte s j o := by
  have hcell' : tget (fun _ => 255#8) t.nv.cells (nvPhys s j * 4096 + o) =
      tget (fun _ => 255#8) s.nv.cells (nvPhys s j * 4096 + o) := hcell
  unfold nvByte factoryFresh
  simp only [hphys, hwear, hcell']

theorem nv_of_besideFaults {s t : State} (h : besideFaults t = besideFaults s) : t.nv = s.nv := by
  have := congrArg State.nv h
  exact this

/-- Retiring a sector changes which sectors are gone and which await an erase, and nothing else of the NVM. -/
theorem retireSector_nv (p l : Nat) (s : State) : ∃ gone dirty, (retireSector p l s).nv = { s.nv with
    gone := gone, dirty := dirty } := by
  refine ⟨tset (fun _ => false) s.nv.gone p true, tset (fun _ => false) s.nv.dirty p false, ?_⟩
  unfold retireSector
  dsimp only
  split
  · exact nv_of_besideFaults (besideFaults_report _ _)
  · rfl

/-- A SECTOR or an ERASE that fails leaves every byte of every sector. -/
theorem nvByte_sectorDone_failed (l x : Nat) (d : List Nat) (s : State) (j o : Nat) :
    nvByte (sectorDone l x d false s) j o = nvByte s j o := by
  obtain ⟨gone, dirty, hnv⟩ := retireSector_nv x l (nvEnd false s)
  refine nvByte_congr ?_ ?_ ?_ <;> simp only [nvPhys, nvWear, sectorDone, Bool.false_eq_true, if_false, hnv] <;> rfl

/-- The sector of SECTOR and ERASE that ended well: its own bytes, or 0xFF. -/
theorem nvByte_sectorDone_same {l x : Nat} {d : List Nat} {s : State} {o : Nat} (hfresh : factoryFresh s x = false)
    (hblank : nvCell s.nv (x * 4096 + o) = 255#8) (hd : d = [] ∨ d.length = 4096) (hbyte : ∀ y ∈ d, y < 256)
    (ho : o < 4096) : nvByte (sectorDone l x d true s) l o = if d = [] then 255 else d.getD o 0 := by
  obtain ⟨-, hwear, -, -, -, -, -, -⟩ := programFrom_keeps x 0 d (nvEnd true s)
  have hphys : nvPhys (sectorDone l x d true s) l = x := (nvPhys_remap l x l _).trans (if_pos rfl)
  have hnew : factoryFresh (sectorDone l x d true s) x = factoryFresh s x := by
    simp only [factoryFresh, nvWear, sectorDone, if_true, remap, updNv, hwear]
    rfl
  have hcell : nvCell (sectorDone l x d true s).nv (x * 4096 + o) = nvCell (programFrom x 0 d (nvEnd true s)).nv
      (x * 4096 + o) := rfl
  rw [nvByte_of_cell _ (by rw [hphys, hnew, hfresh]), hphys, hcell, cells_programFrom]
  rcases hd with rfl | hd
  · rw [if_neg (by simp [ceilDiv]), if_pos rfl]
    exact congrArg BitVec.toNat hblank
  · have hlen : ceilDiv d.length 32 = 128 := by rw [hd]; rfl
    have hget (e : Nat) : d.getD o e = d[o] := List.getD_eq_getElem _ _ _
    rw [hlen, if_pos (by omega), if_neg (by rintro rfl; simp at hd), show x * 4096 + o - (x * 4096 + 0 * 32) = o by omega,
      hget, hget, BitVec.toNat_ofNat, Nat.mod_eq_of_lt (hbyte _ (List.getElem_mem _))]

/-- The other logical sectors, none of which maps to the fresh one. -/
theorem nvByte_sectorDone_other {l x : Nat} {d : List Nat} {s : State} {j o : Nat} (hne : nvPhys s j ≠ x) (hj : j ≠ l)
    (hd : d = [] ∨ d.length = 4096) (ho : o < 4096) : nvByte (sectorDone l x d true s) j o = nvByte s j o := by
  obtain ⟨hmap, hwear, -, -, -, -, -, -⟩ := programFrom_keeps x 0 d (nvEnd true s)
  refine nvByte_congr ?_ ?_ ?_
  · refine (nvPhys_remap l x j _).trans ((if_neg hj).trans ?_)
    unfold nvPhys
    rw [hmap]
    rfl
  · simp only [nvWear, sectorDone, if_true, remap, updNv, hwear]
    rfl
  · have hcell : nvCell (sectorDone l x d true s).nv (nvPhys s j * 4096 + o) =
        nvCell (programFrom x 0 d (nvEnd true s)).nv (nvPhys s j * 4096 + o) := rfl
    have hlen : ceilDiv d.length 32 ≤ 128 := by rcases hd with rfl | hd <;> simp [ceilDiv, *]
    rw [hcell, cells_programFrom, if_neg (by omega)]
    rfl

/-- A SECTOR or an ERASE cut short leaves every byte of every sector (R310). -/
theorem nvByte_heldIn {s : State} {l x : Nat} {d : List Nat} (hop : s.nv.op = .sector l x d ∨ s.nv.op = .erase l x)
    (h : Hold) (j o : Nat) : nvByte (heldIn h s) j o = nvByte s j o := by
  have hcut : ∃ dirty, (cutNvm s).nv = { s.nv with op := .none, dirty := dirty } := by
    refine ⟨tset (fun _ => false) s.nv.dirty x true, ?_⟩
    unfold cutNvm
    rcases hop with hop | hop <;> rw [hop] <;> rfl
  obtain ⟨dirty, hcut⟩ := hcut
  have hfuse : (heldIn h s).nv = (cutNvm s).nv := (congrArg State.nv (besideFuses_cutFuses (cutNvm s)) :)
  have hnv : (heldIn h s).nv = { s.nv with op := .none, dirty := dirty } := hfuse.trans hcut
  refine nvByte_congr ?_ ?_ ?_
  all_goals simp only [nvPhys, nvWear, hnv]
  rfl

theorem exec_nvSectorDone {s : State} {l x : Nat} {d : List Nat} {ok : Bool} (ha : alive s = true)
    (hop : s.nv.op = .sector l x d ∨ s.nv.op = .erase l x ∧ d = []) :
    exec (.nvSectorDone ok) s = .next (sectorDone l x d ok s) := by
  have heq : execNvSectorDone ok s = live true s (sectorDone l x d ok s) := by
    rcases hop with hop | ⟨hop, rfl⟩ <;> simp only [execNvSectorDone, hop]
  exact heq.trans (live_eq ha rfl)

/-- Settles O50: the bytes of the sector itself, of the others, and of all where the command fails or is cut short. -/
theorem aSectorChangesWholeOrNotAtAll : Obligations.ASectorChangesWholeOrNotAtAll := by
  unfold Obligations.ASectorChangesWholeOrNotAtAll
  intro s l x d ok ha hmap hfresh _ hblank hop
  have hd : d = [] ∨ d.length = 4096 := hop.elim (fun h => .inr h.2.1) fun h => .inl h.2
  have hbyte : ∀ y ∈ d, y < 256 := hop.elim (fun h => h.2.2) fun h => by simp [h.2]
  refine ⟨runs_of_eq (exec_nvSectorDone ha (hop.imp_left And.left)) fun j o hj ho => ?_,
    nvByte_heldIn (hop.imp And.left And.left)⟩
  cases ok with
  | false => rw [if_neg (by simp), nvByte_sectorDone_failed]
  | true =>
    by_cases hjl : j = l
    · subst hjl
      rw [if_pos ⟨rfl, rfl⟩]
      exact nvByte_sectorDone_same hfresh (hblank o ho) hd hbyte ho
    · rw [if_neg (by simp [hjl])]
      exact nvByte_sectorDone_other (nvPhys_ne_of_unmapped hmap hj) hjl hd ho

end Sys2Proof.Machine
end

section
/-! What a read and a write of a word leave beside the memory controller and the fault manager, and a sample of the
recorder whose bin holds an error mark that no read corrects. -/

namespace Sys2Proof.Machine

/-! ## Beside the memory controller (R297 to R300) -/

/-- The state beside the registers and their marks, the fault manager, the memory controller and the count of the free
values taken. -/
def besideRead (s : State) : State :=
  { s with regs := [], raised := [], fm := FaultMgr.init, ras := Ras.init, fresh := 0 }

theorem besideRead_of_besideFaults {s t : State} (h : besideFaults t = besideFaults s) :
    besideRead t = besideRead s := (congrArg besideRead h :)

@[simp] theorem besideRead_wr (a v : Nat) (s : State) : besideRead (wr a v s) = besideRead s := (rfl)
@[simp] theorem besideRead_setFld (a : Nat) (f : Bits) (v : Nat) (s : State) :
    besideRead (setFld a f v s) = besideRead s := (rfl)
@[simp] theorem besideRead_setFlag (a : Nat) (f : Bits) (v : Bool) (s : State) :
    besideRead (setFlag a f v s) = besideRead s := (rfl)
@[simp] theorem besideRead_incFld (a : Nat) (f : Bits) (s : State) : besideRead (incFld a f s) = besideRead s := (rfl)
@[simp] theorem besideRead_updRas (f : Ras → Ras) (s : State) : besideRead (updRas f s) = besideRead s := (rfl)
@[simp] theorem besideRead_logError (x : ElogEntry) (s : State) : besideRead (logError x s) = besideRead s := (rfl)
@[simp] theorem besideRead_setUpset (a v : Nat) (s : State) : besideRead (setUpset a v s) = besideRead s := (rfl)
@[simp] theorem besideRead_spend (s : State) : besideRead (spend s) = besideRead s := (rfl)
@[simp] theorem besideRead_report (x : Rep) (s : State) : besideRead (report x s) = besideRead s :=
  besideRead_of_besideFaults (besideFaults_report x s)

@[simp] theorem besideRead_correctWord (k a : Nat) (scrub : Bool) (s : State) :
    besideRead (correctWord k a scrub s) = besideRead s := by
  unfold correctWord
  dsimp only
  split <;> simp

@[simp] theorem besideRead_strikeWord (a : Nat) (u : Upset) (s : State) :
    besideRead (strikeWord a u s).1 = besideRead s := by cases u <;> rfl

/-- A read of a word changes the memory controller, what it reports, and nothing else. -/
@[simp] theorem besideRead_touchWord (m k a type size : Nat) (scrub : Bool) (u : Upset) (s : State) :
    besideRead (touchWord m k a type size scrub u s).1 = besideRead s := by
  have hseen (x : Rep) (b : Bool) (s : State) : besideRead (if b then report x s else s) = besideRead s := by
    split <;> simp
  unfold touchWord
  dsimp only
  split
  · split <;> simp
  · split <;> simp [hseen]

/-- The same state with its memory left out. -/
def besideMemory (s : State) : State := { besideRead s with mem := [] }

theorem besideMemory_of_besideRead {s t : State} (h : besideRead t = besideRead s) : besideMemory t = besideMemory s :=
  (congrArg (fun x => { x with mem := [] }) h :)

@[simp] theorem besideMemory_setUpset (a v : Nat) (s : State) : besideMemory (setUpset a v s) = besideMemory s := (rfl)
@[simp] theorem besideMemory_setWritten (k a : Nat) (b : Bool) (s : State) :
    besideMemory (setWritten k a b s) = besideMemory s := (rfl)

@[simp] theorem besideMemory_setValue (a n v : Nat) (s : State) : besideMemory (setValue a n v s) = besideMemory s := by
  unfold setValue
  exact forAll_keeps besideMemory _ (f := fun (x : Nat × Nat) s => setByte (a + x.1) x.2 s) (fun _ _ => rfl) s

@[simp] theorem besideMemory_touchWord (m k a type size : Nat) (scrub : Bool) (u : Upset) (s : State) :
    besideMemory (touchWord m k a type size scrub u s).1 = besideMemory s :=
  besideMemory_of_besideRead (besideRead_touchWord ..)

/-- A write of a word changes the memory and the memory controller, what it reports, and nothing else. -/
@[simp] theorem besideMemory_storeWord (m k a n v size : Nat) (u : Upset) (s : State) :
    besideMemory (storeWord m k a n v size u s).1 = besideMemory s := by
  unfold storeWord
  dsimp only
  split
  · simp
  · split
    · split <;> simp
    · simp

theorem er_of_besideMemory {s t : State} (h : besideMemory t = besideMemory s) : t.er = s.er := by
  have := congrArg State.er h
  exact this

/-! ## Words of recorder memory that do not read good (R297, R299) -/

theorem erRead_eq (a : Nat) (s : State) : erRead a s =
    let t := touchWord 137 168 a 0 2 false .none s
    (t.1, if t.2 = .good then memValue t.1 a 4 else 0) := by
  unfold erRead
  rfl

theorem mem_erRead (a : Nat) (s : State) : (erRead a s).1.mem = s.mem := by
  rw [erRead_eq]
  exact mem_touchWord ..

theorem besideMemory_erRead (a : Nat) (s : State) : besideMemory (erRead a s).1 = besideMemory s := by
  rw [erRead_eq]
  exact besideMemory_touchWord ..

theorem besideMemory_erPut (a v : Nat) (s : State) : besideMemory (erPut a v s) = besideMemory s :=
  besideMemory_storeWord 137 168 a 4 v 2 .none s

/-- A word of an empty memory reads 0, good or not. -/
theorem erRead_of_empty {s : State} (a : Nat) (h : s.mem = []) : (erRead a s).2 = 0 := by
  have hzero : memValue (touchWord 137 168 a 0 2 false .none s).1 a 4 = 0 := by
    have hmem : (touchWord 137 168 a 0 2 false .none s).1.mem = [] := (mem_touchWord ..).trans h
    simp [memValue, memByte, hmem, tget, fromBytes, List.range, List.range.loop]
  rw [erRead_eq]
  dsimp only
  rw [hzero, ite_self]

/-- A read that finds a word uncorrectable leaves its written flag and its error, -/
theorem erRead_of_bad {a : Nat} {s : State} (hw : wordWritten s 168 a = true) (hu : 2 ≤ wordUpset s a) :
    wordWritten (erRead a s).1 168 a = true ∧ 2 ≤ wordUpset (erRead a s).1 a := by
  rw [erRead_eq]
  refine ⟨(wordWritten_touchWord 168 a).trans hw, ?_⟩
  unfold touchWord strikeWord
  simp only [hw, Bool.not_true, Bool.false_eq_true, if_false]
  split
  case h_1 h0 => omega
  case h_2 h1 => omega
  case h_3 =>
    rw [wordUpset_report, wordUpset_logError]
    exact hu

/-- and a write of a part of it changes no byte. -/
theorem mem_erPut_of_bad {a : Nat} (v : Nat) {s : State} (hw : wordWritten s 168 a = true) (hu : 2 ≤ wordUpset s a) :
    (erPut a v s).mem = s.mem := by
  have habort : storeWord 137 168 a 4 v 2 .none s = ((touchWord 137 168 a 3 2 false .none s).1, .bad) :=
    storeWord_aborted (by decide) hw hu
  unfold erPut
  rw [habort]
  exact mem_touchWord ..

theorem besideMemory_countSample (c a : Nat) (v : Int) (pcc hrs : Nat) (s : State) :
    besideMemory (countSample c a v pcc hrs s) = besideMemory s := by
  have hputs (b : Nat) (ws : List Nat) (s : State) : besideMemory (erPuts b ws s) = besideMemory s := by
    unfold erPuts
    exact forAll_keeps besideMemory _ (f := fun (x : Nat × Nat) s => erPut (b + 4 * x.1) x.2 s)
      (fun x s => besideMemory_erPut _ _ s) s
  unfold countSample putExtreme
  dsimp only
  split <;> split <;> simp only [hputs, besideMemory_erRead, besideMemory_erPut]

/-- A sample of 0 whose bin is such a word changes no byte of an empty memory. -/
theorem mem_countSample_of_bad {c a pcc hrs : Nat} {s : State} (hmem : s.mem = []) (hw : wordWritten s 168 a = true)
    (hu : 2 ≤ wordUpset s a) : (countSample c a 0 pcc hrs s).mem = [] := by
  obtain ⟨hw1, hu1⟩ := erRead_of_bad hw hu
  have hbin : (erPut a (min 0xFFFFFFFF ((erRead a s).2 + 1)) (erRead a s).1).mem = [] := by
    rw [mem_erPut_of_bad _ hw1 hu1, mem_erRead, hmem]
  have hzero : ¬ ((0 : Int) < sx 32 0) ∧ ¬ (sx 32 0 < 0) := by decide
  obtain ⟨hmin, hmax⟩ := hzero
  unfold countSample
  dsimp only
  rw [erRead_of_empty (minAddr c) hbin, if_neg hmin, erRead_of_empty _ ((mem_erRead ..).trans hbin), if_neg hmax,
    mem_erRead, mem_erRead, hbin]

/-! ## A sample of such a bin (R287) -/

/-- A powered device whose recorder samples the junction temperature on channel 0 each 16 ns, its words written, and
the word of bin 0 holding an error mark above 2. -/
def markedBin : State :=
  { State.reset with
    tb := { TimeBase.init with hold := .none }
    regs := [(Reg.ER_CTRL, BitVec.ofNat 32 (putBits 0 Fld.ER_CTRL_EN 1)),
      (Reg.ER_CH 0, BitVec.ofNat 32 (putBits (putBits 0 Fld.ER_CH_EN 1) Fld.ER_CH_SRC 7))]
    ras := { Ras.init with
      flips := [0x50000000, 0x50008000, 0x50008008, 0x50008010, 0x50008018].map fun a => (a / 8, true)
      upset := [(0x50000000 / 8, 3)] } }

theorem recorderSample_markedBin : exec (.recorderSample 0 0) markedBin = .next (takeSample 0 0 markedBin) :=
  live_eq (by decide +kernel) (by decide +kernel)

/-- A sample of a channel with no excursion running starts one or none, and logs nothing. -/
theorem mem_trackExcursion_of_idle {c : Nat} (v : Int) {s : State} (h : (excOf s c).run = false) :
    (trackExcursion c v s).mem = s.mem := by
  have hend : endExcursion c false s = setExc c Excursion.init s := by simp [endExcursion, h]
  unfold trackExcursion
  simp only [h, Bool.false_and, Bool.false_eq_true, if_false, hend]
  split <;> rfl

/-- markedBin once it has noted the instant of its sample. -/
def markedSampled : State :=
  updEr (fun r => { r with taken := tset (fun _ => 0) r.taken 0 (markedBin.tb.ns + 1) }) markedBin

theorem recordSample_markedSampled : recordSample 0 0 markedSampled = countSample 0 (histAddr 0 0) 0 0 0 markedSampled := by
  have hbin : binOf 0 (sx 32 (rd markedSampled (Reg.ER_BASE 0))) (fld markedSampled (Reg.ER_CH 0) Fld.ER_CH_SHIFT) = 0 := by
    decide +kernel
  have hfree : (markedSampled.er.todo.isEmpty && !erHeld markedSampled (.sample 0 (histAddr 0 0) 0 0 0)) = true := by
    decide +kernel
  unfold recordSample
  dsimp only
  rw [hbin]
  exact if_pos hfree

/-- The sample changes no byte. -/
theorem mem_takeSample_markedBin : (takeSample 0 0 markedBin).mem = [] := by
  have htake : takeSample 0 0 markedBin = trackExcursion 0 0 (recordSample 0 0 markedSampled) := by
    have hsrc : sourceValue markedSampled (fld markedSampled (Reg.ER_CH 0) Fld.ER_CH_SRC)
        (fld markedSampled (Reg.ER_CH 0) Fld.ER_CH_IDX) 0 = some 0 := by decide +kernel
    have hfrozen : erFrozen markedSampled = false := by decide +kernel
    unfold takeSample
    simp only [← markedSampled.eq_def, hsrc, hfrozen, Bool.false_eq_true, if_false]
  have hidle : (excOf (countSample 0 (histAddr 0 0) 0 0 0 markedSampled) 0).run = false := by
    unfold excOf
    rw [er_of_besideMemory (besideMemory_countSample ..)]
    rfl
  rw [htake, recordSample_markedSampled, mem_trackExcursion_of_idle 0 hidle]
  exact mem_countSample_of_bad rfl (by decide +kernel) (by decide +kernel)

/-- Refutes O45: erGood takes a word for good unless its error mark is 2, while a read finds it uncorrectable from 2 on,
so that a bin whose mark is 3 keeps its count. -/
theorem not_samplesCountOnceAndKeepExtremes : ¬ Obligations.SamplesCountOnceAndKeepExtremes := by
  unfold Obligations.SamplesCountOnceAndKeepExtremes
  intro h
  have hfrozen : erFrozen markedBin = false := by decide +kernel
  obtain ⟨hsample, -⟩ := h markedBin (.foreman 0) 0 0 hfrozen rfl rfl
  have halive : alive markedBin = true := by decide +kernel
  have hdue : recorderDue markedBin (0 : Fin 128) = true := by decide +kernel
  have hbin : binOf 0 (sx 32 (rd markedBin (Reg.ER_BASE 0))) (fld markedBin (Reg.ER_CH 0) Fld.ER_CH_SHIFT) = 0 := by
    decide +kernel
  have hgood : ∀ a ∈ [histAddr 0 0, minAddr 0, minAddr 0 + 8, maxAddr 0, maxAddr 0 + 8],
      erGood markedBin a = true := by decide +kernel
  have hsrc : sourceValue markedBin (fld markedBin (Reg.ER_CH 0) Fld.ER_CH_SRC)
      (fld markedBin (Reg.ER_CH 0) Fld.ER_CH_IDX) (0#32).toInt = some 0 := by decide +kernel
  have hzero : ((0 : Fin 128) : Nat) = 0 := rfl
  obtain ⟨t, ht, -, hcount, -⟩ := hsample 0 halive hdue (by rwa [hzero, hbin]) hsrc (by decide) (by decide)
  rw [recorderSample_markedBin] at ht
  obtain rfl : takeSample 0 0 markedBin = t := Host.Outcome.next.inj ht
  have hold : memValue markedBin (histAddr 0 0) 4 = 0 := by decide +kernel
  have hnew : memValue (takeSample 0 0 markedBin) (histAddr 0 0) 4 = memValue markedBin (histAddr 0 0) 4 :=
    memValue_of_mem mem_takeSample_markedBin _ _
  simp only [hzero, hbin, hnew, hold] at hcount
  exact absurd hcount (by decide)

end Sys2Proof.Machine
end

section
/-! The commands of the recorder: ER_CMD, the samples that find recording frozen, and the commits (R286 to R295). -/

namespace Sys2Proof.Machine

/-! ## Commits (R291) -/

/-- A commit with its copy taken: the set holds some cells, and nothing else of the recorder has changed. -/
theorem copySet_er {s : State} {x : RecSet} (h : s.er.commit = some x) :
    ∃ cells, (copySet s).er = { s.er with commit := some { x with cells := cells } } := by
  have hread (ws : List Nat) (s : State) :
      (forAll ws (fun w s => (touchWord 137 168 (8 * w) 0 3 false .none s).1) s).er = s.er :=
    er_of_besideMemory (forAll_keeps besideMemory ws (fun _ _ => besideMemory_touchWord ..) s)
  unfold copySet
  simp only [h, updEr, hread]
  exact ⟨_, rfl⟩

/-- Where no word of memory is marked the copy reads none, and changes only its set. -/
theorem copySet_keeps {s : State} (h : s.ras.flips = [] ∧ s.ras.upset = []) :
    (copySet s).regs = s.regs ∧ (copySet s).mem = s.mem := by
  obtain ⟨hflips, hupset⟩ := h
  unfold copySet
  split
  · exact ⟨rfl, rfl⟩
  · simp only [hflips, hupset, List.map_nil, List.append_nil, List.filter_nil]
    exact ⟨rfl, rfl⟩

/-- The copy of a commit is taken at once, or waits its turn. -/
theorem erDo_copy_er {s : State} {x : RecSet} (h : s.er.commit = some x) :
    ∃ cells todo, (erDo .copy s).er = { s.er with commit := some { x with cells := cells }, todo := todo } := by
  unfold erDo
  split
  · obtain ⟨cells, hcells⟩ := copySet_er h
    exact ⟨cells, s.er.todo, hcells⟩
  · refine ⟨x.cells, s.er.todo ++ [.copy], ?_⟩
    rw [show { x with cells := x.cells } = x from rfl, ← h]
    rfl

theorem erDo_copy_keeps {s : State} (h : s.er.todo ≠ [] ∨ s.ras.flips = [] ∧ s.ras.upset = []) :
    (erDo .copy s).regs = s.regs ∧ (erDo .copy s).mem = s.mem := by
  unfold erDo
  split
  case isTrue hfree =>
    have htodo : s.er.todo = [] := by simpa using (Bool.and_eq_true_iff.mp hfree).1
    exact copySet_keeps (h.resolve_left (not_not_intro htodo))
  case isFalse => exact ⟨rfl, rfl⟩

/-- The set that a commit from state s begins with. -/
def newSet (s : State) : RecSet :=
  { place := oldestPlace s, seq := (rd s Reg.ER_CSEQ + 1) % 2 ^ 32, cells := [],
    next := fld s Reg.ER_LOG Fld.ER_LOG_NEXT }

/-- The state in which a commit's copy is asked for. -/
def commitBegun (s : State) : State :=
  setFlag Reg.ER_STAT Fld.ER_STAT_BUSY true (updEr (fun r => { r with
    commit := some (newSet s), waiting := false, sets := r.sets.filter (·.place != oldestPlace s),
    exc := r.exc.map fun x => (x.1, { Excursion.init with side := x.2.side }) }) s)

theorem startCommit_eq (s : State) : startCommit s = erDo .copy (commitBegun s) := by
  unfold startCommit commitBegun newSet
  rfl

theorem er_commitBegun (s : State) : (commitBegun s).er = { s.er with
    commit := some (newSet s), waiting := false, sets := s.er.sets.filter (·.place != oldestPlace s),
    exc := s.er.exc.map fun x => (x.1, { Excursion.init with side := x.2.side }) } := by
  unfold commitBegun setFlag setFld updEr
  rfl

theorem keepsRegs_commitBegun (s : State) : KeepsRegs [Reg.ER_STAT] s (commitBegun s) := by
  have hquiet (f : Recorder → Recorder) : KeepsRegs [Reg.ER_STAT] s (updEr f s) := fun _ _ => rfl
  exact keepsRegs_setFlag _ _ _ (hquiet _) (by simp)

theorem busy_commitBegun (s : State) : flag (commitBegun s) Reg.ER_STAT Fld.ER_STAT_BUSY = true :=
  flag_setFlag_self _ _ _ _ (by decide) (by decide)

theorem commitBegun_beside (s : State) :
    (commitBegun s).mem = s.mem ∧ (commitBegun s).ras = s.ras ∧ (commitBegun s).er.todo = s.er.todo := by
  rw [er_commitBegun]
  unfold commitBegun setFlag setFld wr updEr
  exact ⟨rfl, rfl, rfl⟩

/-- The recorder when a commit has begun: its set, the freeze, and the place given up. -/
theorem startCommit_er (s : State) :
    let t := startCommit s
    (t.er.commit.map (·.seq)) = some ((rd s Reg.ER_CSEQ + 1) % 2 ^ 32) ∧ erFrozen t = true ∧
      t.er.sets = s.er.sets.filter (·.place != oldestPlace s) ∧ t.er.autoAt = s.er.autoAt := by
  have hset : (commitBegun s).er.commit = some (newSet s) := by rw [er_commitBegun]
  obtain ⟨cells, todo, her⟩ := erDo_copy_er hset
  rw [er_commitBegun] at her
  simp only [startCommit_eq, erFrozen, her, Option.map_some, Option.isSome_some, Bool.or_true, newSet, and_self]

/-- Where the copy of a commit reads no word, a commit that begins shows BUSY and changes no other register. -/
theorem startCommit_keeps {s : State} (h : s.er.todo ≠ [] ∨ s.ras.flips = [] ∧ s.ras.upset = []) :
    let t := startCommit s
    flag t Reg.ER_STAT Fld.ER_STAT_BUSY = true ∧ KeepsRegs [Reg.ER_STAT] s t ∧ t.mem = s.mem := by
  obtain ⟨hmem, hras, htodo⟩ := commitBegun_beside s
  rw [← hras, ← htodo] at h
  obtain ⟨hregs, hkept⟩ := erDo_copy_keeps h
  have hrd (a : Nat) : rd (startCommit s) a = rd (commitBegun s) a := by
    rw [startCommit_eq, rd, hregs, rd]
  refine ⟨?_, fun a ha => (hrd a).trans (keepsRegs_commitBegun s a ha), ?_⟩
  · rw [← busy_commitBegun s]
    exact flag_of_fld_eq (congrArg (getBits · Fld.ER_STAT_BUSY) (hrd Reg.ER_STAT))
  · rw [startCommit_eq, hkept, hmem]

/-- At shed level 3 and above a commit waits. -/
theorem dueCommit_of_shed {s : State} (h : 3 ≤ shed s) :
    let t := dueCommit s
    t.er.waiting = true ∧ t.er.commit = s.er.commit ∧ flag t Reg.ER_STAT Fld.ER_STAT_NVSKIP = true ∧
      KeepsRegs [Reg.ER_STAT] s t ∧ t.mem = s.mem ∧ t.er.autoAt = s.er.autoAt := by
  have heq : dueCommit s =
      raiseFlag Reg.ER_STAT Fld.ER_STAT_NVSKIP (updEr (fun r => { r with waiting := true }) s) := if_pos h
  simp only [heq]
  refine ⟨rfl, rfl, flag_raiseFlag_self _ _ _ (by decide), ?_, rfl, rfl⟩
  exact keepsRegs_trans (fun _ _ => rfl) (onlyRegs_raiseFlag _ _ (onlyRegs_refl _ _) (by simp)).1

theorem dueCommit_of_low {s : State} (h : shed s < 3) : dueCommit s = startCommit s := if_neg (by omega)

/-- A commit of state s has begun in t. -/
def CommitStarts (s t : State) : Prop :=
  (t.er.commit.map (·.seq)) = some ((rd s Reg.ER_CSEQ + 1) % 2 ^ 32) ∧ erFrozen t = true ∧
    t.er.sets = s.er.sets.filter (·.place != oldestPlace s) ∧
    ((s.er.todo ≠ [] ∨ s.ras.flips = [] ∧ s.ras.upset = []) →
      flag t Reg.ER_STAT Fld.ER_STAT_BUSY = true ∧ KeepsRegs [Reg.ER_STAT] s t ∧ t.mem = s.mem)

/-- A commit of state s waits in t. -/
def CommitWaits (s t : State) : Prop :=
  t.er.waiting = true ∧ t.er.commit = s.er.commit ∧ flag t Reg.ER_STAT Fld.ER_STAT_NVSKIP = true ∧
    KeepsRegs [Reg.ER_STAT] s t ∧ t.mem = s.mem

theorem dueCommit_effect (s : State) :
    (shed s < 3 → CommitStarts s (dueCommit s)) ∧ (3 ≤ shed s → CommitWaits s (dueCommit s)) ∧
      (dueCommit s).er.autoAt = s.er.autoAt := by
  by_cases h : shed s < 3
  · obtain ⟨hseq, hfreeze, hsets, hauto⟩ := startCommit_er s
    rw [dueCommit_of_low h]
    exact ⟨fun _ => ⟨hseq, hfreeze, hsets, startCommit_keeps⟩, fun h' => absurd h (by omega), hauto⟩
  · obtain ⟨hwait, hcommit, hskip, hregs, hmem, hauto⟩ := dueCommit_of_shed (s := s) (by omega)
    exact ⟨fun h' => absurd h' h, fun _ => ⟨hwait, hcommit, hskip, hregs, hmem⟩, hauto⟩

/-- An erase shows in NV_WMAX and NV_WMIN alone. -/
theorem keepsRegs_eraseSector (p : Nat) (s : State) :
    KeepsRegs [Reg.NV_WMAX, Reg.NV_WMIN] s (eraseSector p s) :=
  keepsRegs_wr _ _ (keepsRegs_wr _ _ (fun _ _ => rfl) (by simp)) (by simp)

/-- Writing sectors keeps every register but the erase counts that NV_WMAX and NV_WMIN show. -/
theorem writeSlot_keeps (ds : List (List Nat)) : ∀ {sect : Nat} {s t : State},
    writeSlot sect ds s = some t → besideNvm t = besideNvm s ∧ KeepsRegs [Reg.NV_WMAX, Reg.NV_WMIN] s t := by
  have hput (l p : Nat) (d : List Nat) (s : State) :
      KeepsRegs [Reg.NV_WMAX, Reg.NV_WMIN] s (remap l p (programFrom p 0 d s)) := fun a _ => by
    obtain ⟨-, -, -, -, -, -, hregs, -⟩ := programFrom_keeps p 0 d s
    simp only [rd, remap, updNv, hregs]
  induction ds with
  | nil =>
    intro _ s t h
    obtain rfl : s = t := Option.some.inj h
    exact ⟨rfl, keepsRegs_refl _ _⟩
  | cons d ds ih =>
    intro sect s t h
    rw [writeSlot] at h
    split at h
    case h_2 => cases h
    case h_1 p dirty _ =>
      obtain ⟨hbeside, hregs⟩ := ih h
      rw [besideNvm_remap, besideNvm_programFrom] at hbeside
      cases dirty with
      | false => exact ⟨hbeside, keepsRegs_trans (hput sect p d s) hregs⟩
      | true => exact ⟨hbeside.trans (besideNvm_eraseSector p s),
          keepsRegs_trans (keepsRegs_eraseSector p s) (keepsRegs_trans (hput sect p d _) hregs)⟩

/-- The state in which a commit's set goes to its sectors. -/
def commitEnding (s : State) : State :=
  s |> updEr (fun r => { r with commit := none }) |> setFlag Reg.ER_STAT Fld.ER_STAT_BUSY false

theorem finishCommit_of_some {x : RecSet} {s u : State}
    (h : writeSlot (placeSector x.place) (setSectors x) (commitEnding s) = some u) :
    finishCommit x s = wr Reg.ER_CSEQ x.seq (updEr (fun r => { r with sets := (x :: r.sets).take 8 }) u) := by
  unfold commitEnding at h
  simp only [finishCommit, h]

theorem finishCommit_of_none {x : RecSet} {s : State}
    (h : writeSlot (placeSector x.place) (setSectors x) (commitEnding s) = none) :
    finishCommit x s = commitEnding s := by
  unfold commitEnding at h
  simp only [finishCommit, h]
  rfl

/-- A commit that ends lets recording go on, whether its sectors took the set or not. -/
theorem finishCommit_effect (x : RecSet) (s : State) :
    let t := finishCommit x s
    t.er.commit = none ∧ flag t Reg.ER_STAT Fld.ER_STAT_BUSY = false ∧ t.mem = s.mem := by
  have hbusy : flag (commitEnding s) Reg.ER_STAT Fld.ER_STAT_BUSY = false :=
    flag_setFlag_self _ _ _ _ (by decide) (by decide)
  cases hslot : writeSlot (placeSector x.place) (setSectors x) (commitEnding s) with
  | none =>
    simp only [finishCommit_of_none hslot]
    exact ⟨rfl, hbusy, rfl⟩
  | some u =>
    obtain ⟨hbeside, hregs⟩ := writeSlot_keeps _ hslot
    have her : u.er = (commitEnding s).er := (congrArg State.er hbeside :)
    have hmem : u.mem = (commitEnding s).mem := (congrArg State.mem hbeside :)
    simp only [finishCommit_of_some hslot]
    refine ⟨(congrArg Recorder.commit her).trans rfl, ?_, hmem⟩
    have hstat : fld (wr Reg.ER_CSEQ x.seq (updEr (fun r => { r with sets := (x :: r.sets).take 8 }) u)) Reg.ER_STAT
        Fld.ER_STAT_BUSY = fld u Reg.ER_STAT Fld.ER_STAT_BUSY := fld_wr_ne _ _ _ _ _ (by decide)
    exact (flag_of_fld_eq (hstat.trans (fld_of_keepsRegs _ hregs (by decide)))).trans hbusy

/-- The set that its sectors took is the newest of at most 8, and ER_CSEQ shows its number. -/
theorem finishCommit_taken {x : RecSet} {s u : State}
    (h : writeSlot (placeSector x.place) (setSectors x) (commitEnding s) = some u) :
    let t := finishCommit x s
    t.nv = u.nv ∧ t.er.sets = (x :: s.er.sets).take 8 ∧ rd t Reg.ER_CSEQ = x.seq % 2 ^ 32 ∧
      KeepsRegs [Reg.ER_CSEQ] u t := by
  obtain ⟨hbeside, -⟩ := writeSlot_keeps _ h
  have her : u.er = (commitEnding s).er := (congrArg State.er hbeside :)
  have hsets : u.er.sets = s.er.sets := by
    rw [her]
    rfl
  simp only [finishCommit_of_some h]
  refine ⟨rfl, ?_, rd_wr_self _ _ _, keepsRegs_wr _ _ (fun _ _ => rfl) (by simp)⟩
  rw [← hsets]
  rfl

/-! ## HCLR (R295) -/

/-- A table without the entries at some indices. -/
theorem tget_filter {α : Type} (d : Nat → α) (t : Tab α) (keep : Nat → Bool) (a : Nat) :
    tget d (t.filter fun e => keep e.1) a = if keep a then tget d t a else d a := by
  induction t with
  | nil => simp [tget]
  | cons e t ih =>
    obtain ⟨i, v⟩ := e
    rw [List.filter_cons]
    by_cases hi : i = a
    · subst hi
      by_cases hk : keep i = true
      · simp [hk, tget]
      · rw [if_neg hk, ih, if_neg hk, if_neg hk]
    · by_cases hk : keep i = true
      · rw [if_pos hk, tget, if_neg hi, ih, tget, if_neg hi]
      · rw [if_neg hk, ih, tget, if_neg hi]

theorem memByte_clearHistograms (s : State) (a : Nat) :
    memByte (clearHistograms s) a = if 0x50000000 ≤ a ∧ a < 0x50008000 then 0 else memByte s a := by
  have hmem := tget_filter (fun _ => 0#8) s.mem (fun a => !(decide (0x50000000 ≤ a) && decide (a < 0x50008000))) a
  unfold memByte clearHistograms updRas
  rw [hmem]
  by_cases h : 0x50000000 ≤ a ∧ a < 0x50008000
  · simp [h]
  · rw [if_neg h, if_pos (by simpa only [Bool.not_eq_true', Bool.and_eq_false_iff, decide_eq_false_iff_not, not_and_or] using h)]

/-! ## ER_CMD (R288, R295) -/

/-- The commands of ER_CMD by their codes. -/
theorem exec_erCmd {s : State} {m : Master} {c : Instr} {op : Nat} (hw : CanWrite s m Reg.ER_CMD)
    (hc : (c, op) ∈ [(Instr.erCommit m, 1), (.erHclr m, 2), (.erXtclr m, 3), (.erLclr m, 4), (.erClrcnt m, 5)]) :
    exec c s = .next (erCommand op s) := by
  simp only [List.mem_cons, List.not_mem_nil, or_false, Prod.mk.injEq] at hc
  rcases hc with ⟨rfl, rfl⟩ | ⟨rfl, rfl⟩ | ⟨rfl, rfl⟩ | ⟨rfl, rfl⟩ | ⟨rfl, rfl⟩
  all_goals exact regWriteBy_eq hw

theorem erCommand_of_busy {op : Nat} {s : State} (h : flag s Reg.ER_STAT Fld.ER_STAT_BUSY = true) :
    erCommand op s = s := if_pos h

section
variable {s : State} (hfree : flag s Reg.ER_STAT Fld.ER_STAT_BUSY = false)
include hfree

theorem erCommand_commit : erCommand 1 s = dueCommit s := by simp [erCommand, hfree]

theorem erCommand_of_frozen {op : Nat} (hop : op = 2 ∨ op = 3) (h : erFrozen s = true) : erCommand op s = s := by
  rcases hop with rfl | rfl <;> simp [erCommand, hfree, h]

theorem erCommand_hclr (h : erFrozen s = false) : erCommand 2 s = erDo .clearHist s := by
  simp [erCommand, hfree, h]

theorem erCommand_lclr : erCommand 4 s = setFld Reg.ER_LOG Fld.ER_LOG_NEXT 0 s := by simp [erCommand, hfree]

theorem erCommand_clrcnt : erCommand 5 s = wr Reg.ER_FRZMISS 0 (setFld Reg.ER_LOG Fld.ER_LOG_XDROP 0 s) := by
  simp [erCommand, hfree]

end

theorem lclr_effect (s : State) :
    let t := setFld Reg.ER_LOG Fld.ER_LOG_NEXT 0 s
    fld t Reg.ER_LOG Fld.ER_LOG_NEXT = 0 ∧ fld t Reg.ER_LOG Fld.ER_LOG_XDROP = fld s Reg.ER_LOG Fld.ER_LOG_XDROP ∧
      OnlyRegs [Reg.ER_LOG] s t :=
  ⟨fld_setFld_self _ _ _ _ (by decide) (by decide),
    fld_setFld_other _ _ _ _ _ (by decide) (by decide) (by decide) (by decide),
    onlyRegs_setFld _ _ _ (onlyRegs_refl _ s) (by simp)⟩

theorem clrcnt_effect (s : State) :
    let t := wr Reg.ER_FRZMISS 0 (setFld Reg.ER_LOG Fld.ER_LOG_XDROP 0 s)
    fld t Reg.ER_LOG Fld.ER_LOG_XDROP = 0 ∧ rd t Reg.ER_FRZMISS = 0 ∧
      fld t Reg.ER_LOG Fld.ER_LOG_NEXT = fld s Reg.ER_LOG Fld.ER_LOG_NEXT ∧
      OnlyRegs [Reg.ER_LOG, Reg.ER_FRZMISS] s t := by
  have hlog (g : Bits) : fld (wr Reg.ER_FRZMISS 0 (setFld Reg.ER_LOG Fld.ER_LOG_XDROP 0 s)) Reg.ER_LOG g =
      fld (setFld Reg.ER_LOG Fld.ER_LOG_XDROP 0 s) Reg.ER_LOG g := fld_wr_ne _ _ _ _ _ (by decide)
  refine ⟨?_, rd_wr_self _ _ _, ?_, onlyRegs_wr _ _ (onlyRegs_setFld _ _ _ (onlyRegs_refl _ s) (by simp)) (by simp)⟩
  · rw [hlog, fld_setFld_self _ _ _ _ (by decide) (by decide), Nat.zero_mod]
  · rw [hlog, fld_setFld_other _ _ _ _ _ (by decide) (by decide) (by decide) (by decide)]

/-- HCLR zeroes the histograms at once where their memory is free and no work waits, -/
theorem erDo_clearHist_of_free {s : State} (htodo : s.er.todo = []) (hheld : rangeHeld s 0x50000000 0x8000 = false) :
    erDo .clearHist s = clearHistograms s := if_pos (by simp [htodo, erHeld, hheld])

/-- and waits behind that work else. -/
theorem erDo_clearHist_of_waiting {s : State} (h : s.er.todo ≠ [] ∨ rangeHeld s 0x50000000 0x8000 = true) :
    erDo .clearHist s = updEr (fun r => { r with todo := r.todo ++ [.clearHist] }) s :=
  if_neg (by rcases h with h | h <;> simp [erHeld, h])

theorem erDo_clearHist_regs (s : State) : (erDo .clearHist s).regs = s.regs := by
  unfold erDo
  split <;> rfl

/-! ## Samples while recording is frozen (R286, R290) -/

/-- The state once channel c has noted the instant of its sample. -/
def sampleNoted (c : Nat) (s : State) : State :=
  updEr (fun r => { r with taken := tset (fun _ => 0) r.taken c (s.tb.ns + 1) }) s

theorem missSample_effect (c : Nat) (v : Int) (s : State) :
    let t := missSample c v s
    t.mem = s.mem ∧ KeepsRegs [Reg.ER_FRZMISS] s t ∧
      fld t Reg.ER_FRZMISS Fld.ER_FRZMISS_SAMP = min (fld s Reg.ER_FRZMISS Fld.ER_FRZMISS_SAMP + 1) 65535 := by
  have hsamp : fld (incFld Reg.ER_FRZMISS Fld.ER_FRZMISS_SAMP s) Reg.ER_FRZMISS Fld.ER_FRZMISS_SAMP =
      min (fld s Reg.ER_FRZMISS Fld.ER_FRZMISS_SAMP + 1) 65535 := fld_incFld_self _ _ _ (by decide) (by decide)
  have hregs : KeepsRegs [Reg.ER_FRZMISS] s (incFld Reg.ER_FRZMISS Fld.ER_FRZMISS_SAMP s) :=
    keepsRegs_setFld _ _ _ (keepsRegs_refl _ s) (by simp)
  unfold missSample
  dsimp only
  split
  · refine ⟨rfl, keepsRegs_setFld _ _ _ hregs (by simp), Eq.trans ?_ hsamp⟩
    exact fld_setFld_other _ _ _ _ _ (by decide) (by decide) (by decide) (by decide)
  · exact ⟨rfl, hregs, hsamp⟩

/-- A sample that finds recording frozen is counted where its source has a value, and changes nothing in memory. -/
theorem takeSample_frozen_effect {c : Nat} {tj : Int} {s : State} (h : erFrozen s = true) :
    let t := takeSample c tj s
    t.mem = s.mem ∧ KeepsRegs [Reg.ER_FRZMISS] s t ∧
      ((sourceValue s (fld s (Reg.ER_CH c) Fld.ER_CH_SRC) (fld s (Reg.ER_CH c) Fld.ER_CH_IDX) tj).isSome = true →
        fld t Reg.ER_FRZMISS Fld.ER_FRZMISS_SAMP = min (fld s Reg.ER_FRZMISS Fld.ER_FRZMISS_SAMP + 1) 65535) := by
  have hfrozen : erFrozen (sampleNoted c s) = true := h
  cases hsrc : sourceValue s (fld s (Reg.ER_CH c) Fld.ER_CH_SRC) (fld s (Reg.ER_CH c) Fld.ER_CH_IDX) tj with
  | none =>
    have heq : takeSample c tj s = setExc c Excursion.init (sampleNoted c s) := by
      have hsrc' : sourceValue (sampleNoted c s) (fld (sampleNoted c s) (Reg.ER_CH c) Fld.ER_CH_SRC)
        (fld (sampleNoted c s) (Reg.ER_CH c) Fld.ER_CH_IDX) tj = none := hsrc
      unfold takeSample
      simp only [← sampleNoted.eq_def, hsrc', hfrozen, if_true]
    simp only [heq]
    exact ⟨rfl, keepsRegs_refl _ s, fun hsome => by simp at hsome⟩
  | some v =>
    have heq : takeSample c tj s = missSample c v (sampleNoted c s) := by
      have hsrc' : sourceValue (sampleNoted c s) (fld (sampleNoted c s) (Reg.ER_CH c) Fld.ER_CH_SRC)
        (fld (sampleNoted c s) (Reg.ER_CH c) Fld.ER_CH_IDX) tj = some v := hsrc
      unfold takeSample
      simp only [← sampleNoted.eq_def, hsrc', hfrozen, if_true]
    obtain ⟨hmem, hregs, hcount⟩ := missSample_effect c v (sampleNoted c s)
    simp only [heq]
    exact ⟨hmem, hregs, fun _ => hcount⟩

/-- The state once the instant of an automatic commit is noted. -/
def autoNoted (s : State) : State := updEr (fun r => { r with autoAt := s.tb.ns }) s

/-- Settles O46, a command at a time. -/
theorem recorderCommandsRun : Obligations.RecorderCommandsRun := by
  unfold Obligations.RecorderCommandsRun
  intro s m c w busy starts waits
  have hdue : (shed s < 3 → starts (dueCommit s)) ∧ (3 ≤ shed s → waits (dueCommit s)) := by
    obtain ⟨hstarts, hwaits, -⟩ := dueCommit_effect s
    exact ⟨hstarts, hwaits⟩
  refine ⟨fun hw => ⟨fun hbusy i hi => ?_, fun hfree => ⟨?_, fun hfrozen => ?_, fun hfrozen i hi => ?_, ?_, ?_⟩⟩,
    fun ha hnow hfrozen => ?_, fun ha hnow hserves => ?_, fun x ha hx htodo hopen => ?_⟩
  -- ER_CMD while BUSY
  · simp only [List.mem_cons, List.not_mem_nil, or_false] at hi
    rcases hi with rfl | rfl | rfl | rfl | rfl
    all_goals exact runs_of_eq (regWriteBy_eq hw) (erCommand_of_busy hbusy)
  -- ER_COMMIT
  · refine runs_of_eq (regWriteBy_eq hw) ?_
    rw [erCommand_commit hfree]
    exact hdue
  -- ER_HCLR, and what is frozen
  · refine runs_of_eq (regWriteBy_eq hw) ?_
    rw [erCommand_hclr hfree hfrozen]
    refine ⟨erDo_clearHist_regs s, fun htodo hheld a => ?_, fun hwait => ?_⟩
    · rw [erDo_clearHist_of_free htodo hheld]
      exact memByte_clearHistograms s a
    · rw [erDo_clearHist_of_waiting hwait]
      exact ⟨rfl, rfl⟩
  · simp only [List.mem_cons, List.not_mem_nil, or_false] at hi
    rcases hi with rfl | rfl
    · exact runs_of_eq (regWriteBy_eq hw) (erCommand_of_frozen hfree (.inl rfl) hfrozen)
    · exact runs_of_eq (regWriteBy_eq hw) (erCommand_of_frozen hfree (.inr rfl) hfrozen)
  -- ER_LCLR, ER_CLRCNT
  · refine runs_of_eq (regWriteBy_eq hw) ?_
    rw [erCommand_lclr hfree]
    exact lclr_effect s
  · refine runs_of_eq (regWriteBy_eq hw) ?_
    rw [erCommand_clrcnt hfree]
    exact clrcnt_effect s
  -- RECORDER_SAMPLE
  · exact runs_of_eq (live_eq ha hnow) (takeSample_frozen_effect hfrozen)
  -- RECORDER_AUTO_COMMIT
  · exact runs_of_eq (live_eq ha (by simp [hnow, hserves])) (dueCommit_effect (autoNoted s))
  -- RECORDER_COMMIT_DONE
  · have heq : exec .recorderCommitDone s = live (s.er.todo.isEmpty && !nvClosed s) s (finishCommit x s) := by
      show execRecorderCommitDone s = _
      unfold execRecorderCommitDone
      rw [hx]
    obtain ⟨hcommit, hbusy, hmem⟩ := finishCommit_effect x s
    refine runs_of_eq (heq.trans (live_eq ha (by simp [htodo, hopen]))) ⟨hcommit, hbusy, hmem, fun u hu => ?_⟩
    exact finishCommit_taken hu

end Sys2Proof.Machine
end

section
/-! What a report changes: the registers of the fault manager, and BD_IPEND of the quires it concerns (R366 to R378). -/

namespace Sys2Proof.Machine

/-- Registers and fields are read from regs alone. -/
theorem rd_of_regs {s t : State} (h : t.regs = s.regs) (a : Nat) : rd t a = rd s a := by rw [rd, h, rd]

theorem fld_of_regs {s t : State} (h : t.regs = s.regs) (a : Nat) (f : Bits) : fld t a f = fld s a f := by
  rw [fld, rd_of_regs h, fld]

theorem keepsRegs_of_regs {as : List Nat} {s t u : State} (h : KeepsRegs as s t) (hregs : u.regs = t.regs) :
    KeepsRegs as s u := fun a ha => (rd_of_regs hregs a).trans (h a ha)

/-- The registers of the fault manager that a report may change. -/
def faultRegs : List Nat :=
  [Reg.FM_QDROP, Reg.FM_LOGDROP, Reg.FM_CCNT, Reg.FM_UCNT, Reg.FM_FCNT, Reg.FM_STAT, Reg.FM_FEC_MORE,
   Reg.FM_FEC_ADDR_LO, Reg.FM_FEC_ADDR_HI, Reg.FM_FEC_TB_LO, Reg.FM_FEC_TB_HI, Reg.FM_FEC_HRS_LO, Reg.FM_FEC_HRS_HI,
   Reg.FM_FEC_PCC, Reg.FM_FEC_INFO]

/-- BD_IPEND of the engines of quire q. -/
def lineRegs (q : Nat) : List Nat := (List.range 8).map (Reg.BD_IPEND q)

section
variable {as : List Nat} {s t : State} (h : KeepsRegs as s t)
include h

/-- Updates of a unit's own state show in no register. -/
theorem keepsRegs_updFm (f : FaultMgr → FaultMgr) : KeepsRegs as s (updFm f t) :=
  fun a ha => (rd_updFm f t a).trans (h a ha)
theorem keepsRegs_updRas (f : Ras → Ras) : KeepsRegs as s (updRas f t) := fun a ha => (rd_updRas f t a).trans (h a ha)
theorem keepsRegs_updNv (f : Nvm → Nvm) : KeepsRegs as s (updNv f t) := fun a ha => (rd_updNv f t a).trans (h a ha)
theorem keepsRegs_updEr (f : Recorder → Recorder) : KeepsRegs as s (updEr f t) :=
  fun a ha => (rd_updEr f t a).trans (h a ha)
theorem keepsRegs_updTb (f : TimeBase → TimeBase) : KeepsRegs as s (updTb f t) :=
  fun a ha => (rd_updTb f t a).trans (h a ha)
theorem keepsRegs_updSup (f : Supply → Supply) : KeepsRegs as s (updSup f t) :=
  fun a ha => (rd_updSup f t a).trans (h a ha)
theorem keepsRegs_updHost (f : HostSide → HostSide) : KeepsRegs as s (updHost f t) :=
  fun a ha => (rd_updHost f t a).trans (h a ha)
theorem keepsRegs_updFrm (f : Foreman → Foreman) : KeepsRegs as s (updFrm f t) :=
  fun a ha => (rd_updFrm f t a).trans (h a ha)
theorem keepsRegs_updOtp (f : Otp → Otp) : KeepsRegs as s (updOtp f t) := fun a ha => (rd_updOtp f t a).trans (h a ha)
theorem keepsRegs_updSess (x : Nat) (f : Session → Session) : KeepsRegs as s (updSess x f t) :=
  fun a ha => (rd_updSess x f t a).trans (h a ha)
theorem keepsRegs_updTimer (q m : Nat) (f : Timer → Timer) : KeepsRegs as s (updTimer q m f t) :=
  fun a ha => (rd_updTimer q m f t a).trans (h a ha)
theorem keepsRegs_updEvtIn (q x : Nat) (f : EvtIn → EvtIn) : KeepsRegs as s (updEvtIn q x f t) :=
  fun a ha => (rd_updEvtIn q x f t a).trans (h a ha)
theorem keepsRegs_updEvtOut (q o : Nat) (f : EvtOut → EvtOut) : KeepsRegs as s (updEvtOut q o f t) :=
  fun a ha => (rd_updEvtOut q o f t a).trans (h a ha)

end

theorem keepsRegs_countClass (cls : Nat) (s : State) : KeepsRegs faultRegs s (countClass cls s) := by
  unfold countClass
  split
  case h_4 => exact keepsRegs_refl _ s
  all_goals exact keepsRegs_setFld _ _ _ (keepsRegs_refl _ s) (by decide)

theorem keepsRegs_fileRecord (x : FaultRec) (s : State) : KeepsRegs faultRegs s (fileRecord x s) := by
  have hdrop (n : Nat) (f : FaultMgr → FaultMgr) :
      KeepsRegs faultRegs s (addFld Reg.FM_QDROP wordBits n (updFm f s)) :=
    keepsRegs_setFld _ _ _ (keepsRegs_updFm (keepsRegs_refl _ s) f) (by decide)
  unfold fileRecord
  dsimp only
  split
  · exact hdrop _ _
  · split
    · exact keepsRegs_trans (hdrop _ _) (keepsRegs_updFm (keepsRegs_refl _ _) _)
    · exact keepsRegs_setFld _ _ _ (hdrop _ _) (by decide)

theorem keepsRegs_capture (x : Rep) (f : FecInfo) (s : State) : KeepsRegs faultRegs s (capture x f s) := by
  unfold capture
  split
  · exact keepsRegs_setFld _ _ _ (keepsRegs_refl _ s) (by decide)
  · iterate 8 refine keepsRegs_wr _ _ ?_ (by decide)
    exact keepsRegs_refl _ s

theorem keepsRegs_raiseAlert (s : State) : KeepsRegs faultRegs s (raiseAlert s) :=
  keepsRegs_setFlag _ _ _ (keepsRegs_updFm (keepsRegs_refl _ s) _) (by decide)

theorem keepsRegs_setLines (qs : List Nat) (s : State) :
    KeepsRegs (qs.flatMap lineRegs) s (forAll qs (fun q s => setLine q 19 s) s) :=
  keepsRegs_forAll qs (fun q hq s => keepsRegs_mono (fun _ ha => List.mem_flatMap.mpr ⟨q, hq, ha⟩)
    (keepsRegs_setLine q 19 s)) s

/-- A report shows in the fault manager's registers and in BD_IPEND of the quires it concerns. -/
theorem keepsRegs_report (x : Rep) (s : State) :
    KeepsRegs (faultRegs ++ (noticeQuires x).flatMap lineRegs) s (report x s) := by
  have hfault {t u : State} (h : KeepsRegs faultRegs t u) :
      KeepsRegs (faultRegs ++ (noticeQuires x).flatMap lineRegs) t u :=
    keepsRegs_mono (fun _ => List.mem_append_left _) h
  have hlines (t : State) := keepsRegs_mono (fun _ => List.mem_append_right faultRegs)
    (keepsRegs_setLines (noticeQuires x) t)
  have hfiled : KeepsRegs (faultRegs ++ (noticeQuires x).flatMap lineRegs) s
      (countClass x.cls (fileRecord (recordOf s x) s)) :=
    hfault (keepsRegs_trans (keepsRegs_fileRecord _ s) (keepsRegs_countClass _ _))
  have hraised (t : State) : KeepsRegs (faultRegs ++ (noticeQuires x).flatMap lineRegs) t
      (if x.cls < 2 then t else
        let s := forAll (noticeQuires x) (fun q s => setLine q 19 s) (raiseAlert t)
        if x.cls = 3 then setFlag Reg.FM_STAT Fld.FM_STAT_FPEND true s else s) := by
    have hshown := keepsRegs_trans (hfault (keepsRegs_raiseAlert t)) (hlines _)
    dsimp only
    split
    · exact keepsRegs_refl _ t
    · split
      · exact keepsRegs_setFlag _ _ _ hshown (List.mem_append_left _ (by decide))
      · exact hshown
  unfold report
  cases x.fec with
  | none => exact keepsRegs_trans hfiled (hraised _)
  | some f => exact keepsRegs_trans (keepsRegs_trans hfiled (hfault (keepsRegs_capture x f _))) (hraised _)

theorem lineRegs_lt_system {q a : Nat} (hq : q < 16) (h : a ∈ lineRegs q) : a < 0x30000000 := by
  obtain ⟨i, hi, rfl⟩ := List.mem_map.mp h
  have := List.mem_range.mp hi
  unfold Reg.BD_IPEND quireBlock
  omega

/-- A system register that is none of the fault manager's reads as before a report about a unit of the device. -/
theorem rd_report_system {x : Rep} {a : Nat} (hq : ∀ q ∈ noticeQuires x, q < 16) (hsys : 0x30000000 ≤ a)
    (ha : a ∉ faultRegs) (s : State) : rd (report x s) a = rd s a := by
  refine keepsRegs_report x s a ?_
  rw [List.mem_append, not_or]
  refine ⟨ha, fun hline => ?_⟩
  obtain ⟨q, hmem, hreg⟩ := List.mem_flatMap.mp hline
  have := lineRegs_lt_system (hq q hmem) hreg
  omega

end Sys2Proof.Machine
end

section
/-! The commands of the NVM controller and its background work: what NV_CMD takes and refuses, what its ends program,
what a read of the window corrects and counts (R309 to R315). -/

namespace Sys2Proof.Machine

/-! ## What the operations of the NVM change -/

@[simp] theorem nv_updNv (f : Nvm → Nvm) (s : State) : (updNv f s).nv = f s.nv := (rfl)

@[simp] theorem flag_updNv (f : Nvm → Nvm) (s : State) (a : Nat) (g : Bits) : flag (updNv f s) a g = flag s a g :=
  (rfl)

/-- An erase blanks its sector and counts it. -/
@[simp] theorem nv_eraseSector (p : Nat) (s : State) : (eraseSector p s).nv = { (blankSector p s).nv with
    wear := tset (fun _ => 0) s.nv.wear p (nvWear s p + 1), dirty := tset (fun _ => false) s.nv.dirty p false } := (rfl)

@[simp] theorem mem_eraseSector (p : Nat) (s : State) : (eraseSector p s).mem = s.mem :=
  (congrArg State.mem (besideNvm_eraseSector p s) :)

@[simp] theorem nv_blankSector_map (p : Nat) (s : State) : (blankSector p s).nv.map = s.nv.map := (rfl)

@[simp] theorem regs_remap (l p : Nat) (s : State) : (remap l p s).regs = s.regs := (rfl)
@[simp] theorem mem_remap (l p : Nat) (s : State) : (remap l p s).mem = s.mem := (rfl)
@[simp] theorem nv_remap (l p : Nat) (s : State) : (remap l p s).nv = { s.nv with
    map := tset id s.nv.map l p, dirty := tset (fun _ => false) s.nv.dirty (nvPhys s l) true } := (rfl)

/-! ## NV_CMD (R310, R315) -/

theorem exec_nvCmd {s : State} {m : Master} {sect : BitVec 11} {c : Instr} {op : Nat} (hw : CanWrite s m Reg.NV_CMD)
    (hc : (c, op) ∈ [(Instr.nvAppend m sect, 1), (.nvSector m sect, 2), (.nvErase m sect, 3)]) :
    exec c s = .next (nvCommand op sect.toNat s) := by
  simp only [List.mem_cons, List.not_mem_nil, or_false, Prod.mk.injEq] at hc
  rcases hc with ⟨rfl, rfl⟩ | ⟨rfl, rfl⟩ | ⟨rfl, rfl⟩
  all_goals exact regWriteBy_eq hw

theorem nvClosed_of_keepsRegs {as : List Nat} {s t : State} (h : KeepsRegs as s t) (hmode : Reg.SM_MODE ∉ as)
    (hcause : Reg.FM_SHUTCAUSE ∉ as) : nvClosed t = nvClosed s := by
  unfold nvClosed mode
  rw [fld_of_keepsRegs _ h hmode, h _ hcause]

/-- What NV_CMDST shows has no bearing on what the controller may do, -/
theorem nvClosed_showResult (r : Nat) (s : State) :
    nvClosed (setFld Reg.NV_CMDST Fld.NV_CMDST_RESULT r s) = nvClosed s :=
  nvClosed_of_keepsRegs (keepsRegs_setFld (as := [Reg.NV_CMDST]) _ _ _ (keepsRegs_refl _ s) (by simp)) (by decide)
    (by decide)

/-- nor on what it holds. -/
theorem sourceHeld_showResult (r n : Nat) (s : State) :
    sourceHeld (setFld Reg.NV_CMDST Fld.NV_CMDST_RESULT r s) n = sourceHeld s n := by
  unfold sourceHeld
  rw [rd_setFld_ne _ _ _ _ _ (by decide)]
  rfl

/-- The bytes of its source that a command reads. -/
def nvCount (s : State) (op : Nat) : Nat :=
  if op = 1 then 32 * (fld s Reg.NV_SPAN Fld.NV_SPAN_NM1 + 1) else if op = 2 then 4096 else 0

theorem nvCommand_of_closed {op sect : Nat} {s : State} (h : nvClosed s = true) : nvCommand op sect s = s := by
  simp [nvCommand, h]

theorem nvCommand_of_refused {op sect : Nat} {s : State} (h : nvClosed s = false) (hr : nvCheck s op sect ≠ 0) :
    nvCommand op sect s = setFld Reg.NV_CMDST Fld.NV_CMDST_RESULT (nvCheck s op sect) s := by
  simp [nvCommand, h, hr]

/-- The state in which an accepted command goes on. -/
def nvTaken (s : State) : State := setFld Reg.NV_CMDST Fld.NV_CMDST_RESULT 0 s

theorem nvCommand_of_accepted {op sect : Nat} {s : State} (h : nvClosed s = false) (hr : nvCheck s op sect = 0) :
    nvCommand op sect s = if sourceHeld s (nvCount s op) then
      updNv (fun x => { x with op := .fetch op sect (fld s Reg.NV_SPAN Fld.NV_SPAN_FIRST) (nvCount s op) })
        (setFlag Reg.NV_CMDST Fld.NV_CMDST_BUSY true (nvTaken s))
      else nvBegin op sect (fld s Reg.NV_SPAN Fld.NV_SPAN_FIRST) (nvCount s op) (nvTaken s) := by
  have hspan (g : Bits) : fld (nvTaken s) Reg.NV_SPAN g = fld s Reg.NV_SPAN g := fld_setFld_ne _ _ _ _ _ _ (by decide)
  have hclosed : nvClosed (nvTaken s) = false := (nvClosed_showResult 0 s).trans h
  have hheld (n : Nat) : sourceHeld (nvTaken s) n = sourceHeld s n := sourceHeld_showResult 0 n s
  unfold nvCommand
  simp only [h, hr, Bool.false_eq_true, if_false, ← nvTaken.eq_def, hclosed, bne_self_eq_false, Bool.or_false, hspan,
    ← nvCount.eq_def, hheld]

/-- A command whose source is held shows BUSY and waits. -/
theorem commandHeld_effect (op : NvOp) (s : State) :
    let t := updNv (fun x => { x with op := op }) (setFlag Reg.NV_CMDST Fld.NV_CMDST_BUSY true (nvTaken s))
    flag t Reg.NV_CMDST Fld.NV_CMDST_BUSY = true ∧ KeepsRegs [Reg.NV_CMDST] s t ∧ t.mem = s.mem ∧
      t.nv = { s.nv with op := op } := by
  refine ⟨?_, ?_, by simp [nvTaken], by simp [nvTaken]⟩
  · rw [flag_updNv]
    exact flag_setFlag_self _ _ _ _ (by decide) (by decide)
  · have htaken : KeepsRegs [Reg.NV_CMDST] s (nvTaken s) := keepsRegs_setFld _ _ _ (keepsRegs_refl _ s) (by simp)
    have hbusy := keepsRegs_setFlag Reg.NV_CMDST Fld.NV_CMDST_BUSY true htaken (by simp)
    exact keepsRegs_updNv hbusy _

theorem nvCheck_le (s : State) (op sect : Nat) : nvCheck s op sect ≤ 5 := by
  unfold nvCheck
  dsimp only
  (repeat' split) <;> omega

theorem showResult_effect {r : Nat} (hr : r < 16) (s : State) :
    fld (setFld Reg.NV_CMDST Fld.NV_CMDST_RESULT r s) Reg.NV_CMDST Fld.NV_CMDST_RESULT = r ∧
      OnlyRegs [Reg.NV_CMDST] s (setFld Reg.NV_CMDST Fld.NV_CMDST_RESULT r s) :=
  ⟨(fld_setFld_self _ _ _ _ (by decide) (by decide)).trans (Nat.mod_eq_of_lt hr),
    onlyRegs_setFld _ _ _ (onlyRegs_refl _ s) (by simp)⟩

/-- Reading the source changes nothing but what the memory controller and the fault manager show of it. -/
theorem besideRead_nvSource (n : Nat) (s : State) : besideRead (nvSource n s).1 = besideRead s := by
  have hread (a : Nat) (is : List Nat) : ∀ x : State × Bool, besideRead (is.foldl (fun (x : State × Bool) i =>
      match bankOf (a + 8 * i) with
      | some k =>
        let (s, f) := touchWord 132 k (a + 8 * i) 0 3 false .none x.1
        (s, x.2 && f == .good)
      | none => x) x).1 = besideRead x.1 := by
    induction is with
    | nil => exact fun _ => rfl
    | cons i is ih =>
      intro x
      rw [List.foldl_cons, ih]
      split
      · exact besideRead_touchWord ..
      · rfl
  unfold nvSource
  dsimp only
  split
  · exact besideRead_report _ s
  · exact hread _ _ _

theorem nv_of_besideRead {s t : State} (h : besideRead t = besideRead s) : t.nv = s.nv := by
  have := congrArg State.nv h
  exact this

theorem mem_of_besideRead {s t : State} (h : besideRead t = besideRead s) : t.mem = s.mem := by
  have := congrArg State.mem h
  exact this

theorem freshSector_of_nv {s t : State} (h : t.nv = s.nv) : freshSector t = freshSector s := by
  have hwear : nvWear t = nvWear s := by
    funext p
    rw [nvWear, h, nvWear]
  unfold freshSector nvFree nvMapped nvGone nvDirty
  rw [hwear, h]

/-- An accepted SECTOR or ERASE has a fresh sector. -/
theorem freshSector_of_nvCheck {s : State} {op sect : Nat} (hop : op ≠ 1) (h : nvCheck s op sect = 0) :
    ∃ x, freshSector s = some x := by
  unfold nvCheck at h
  dsimp only at h
  rw [if_neg hop] at h
  (repeat' split at h) <;> try cases h
  next hspare => exact Option.ne_none_iff_exists'.mp (by simpa using (not_or.mp hspare).2)

/-- A command whose source reads good is in progress, with its data taken. -/
theorem nvBegin_effect {op sect first n : Nat} {s s' : State} {d : List Nat}
    (hread : (if op = 3 then (s, some []) else nvSource n s) = (s', some d))
    (hfresh : op ≠ 1 → ∃ x, freshSector s = some x) :
    let t := nvBegin op sect first n s
    flag t Reg.NV_CMDST Fld.NV_CMDST_BUSY = true ∧ t.mem = s.mem ∧ t.nv.map = s.nv.map ∧
      (op = 1 → t.nv = { s.nv with op := .append sect first d }) ∧
      (∀ x, op ≠ 1 → freshSector s = some (x, false) →
        t.nv = { s.nv with op := if op = 2 then .sector sect x d else .erase sect x }) := by
  have hbeside : besideRead s' = besideRead s := by
    have hs : (if op = 3 then (s, some []) else nvSource n s).1 = s' := by rw [hread]
    rw [← hs]
    split
    · rfl
    · exact besideRead_nvSource n s
  have hnv := nv_of_besideRead hbeside
  have hmem := mem_of_besideRead hbeside
  have hbusy : flag (setFlag Reg.NV_CMDST Fld.NV_CMDST_BUSY true s') Reg.NV_CMDST Fld.NV_CMDST_BUSY = true :=
    flag_setFlag_self _ _ _ _ (by decide) (by decide)
  have hsector : freshSector (setFlag Reg.NV_CMDST Fld.NV_CMDST_BUSY true s') = freshSector s :=
    freshSector_of_nv (by simp [hnv])
  by_cases hop : op = 1
  · have heq : nvBegin op sect first n s = updNv (fun x => { x with op := .append sect first d })
        (setFlag Reg.NV_CMDST Fld.NV_CMDST_BUSY true s') := by simp only [nvBegin, hread, if_pos hop]
    simp only [heq]
    exact ⟨by rw [flag_updNv, hbusy], by simp [hmem], by simp [hnv], fun _ => by simp [hnv], fun _ h => absurd hop h⟩
  · obtain ⟨⟨x, dirty⟩, hx⟩ := hfresh hop
    have heq : nvBegin op sect first n s = updNv (fun y => { y with op := if op = 2 then .sector sect x d else .erase sect x })
        (if dirty then eraseSector x (setFlag Reg.NV_CMDST Fld.NV_CMDST_BUSY true s')
          else setFlag Reg.NV_CMDST Fld.NV_CMDST_BUSY true s') := by
      simp only [nvBegin, hread, if_neg hop, hsector, hx]
    simp only [heq]
    refine ⟨?_, ?_, ?_, fun h => absurd h hop, fun y _ hy => ?_⟩
    · rw [flag_updNv]
      cases dirty with
      | false => exact hbusy
      | true => exact (flag_of_fld_eq (fld_of_keepsRegs _ (keepsRegs_eraseSector x _) (by decide))).trans hbusy
    · cases dirty <;> simp [hmem]
    · cases dirty <;> simp [hnv]
    · obtain ⟨rfl, rfl⟩ : x = y ∧ dirty = false := by simpa [hx] using hy
      simp [hnv]

/-! ## Ends of APPEND, SECTOR and ERASE (R310, R311) -/

theorem used_programCw (p c : Nat) (bytes : List Nat) (s : State) :
    (programCw p c bytes s).nv.used = tset (fun _ => false) s.nv.used (p * 128 + c) true := (rfl)

/-- The codewords programmed one after the other are used. -/
theorem used_programCws (p c : Nat) (bytes : List Nat) (s : State) (key k : Nat) :
    tget (fun _ => false) (forAll (List.range k) (fun i s =>
      programCw p (c + i) ((bytes.drop (32 * i)).take 32) s) s).nv.used key =
        if p * 128 + c ≤ key ∧ key < p * 128 + c + k then true else tget (fun _ => false) s.nv.used key := by
  induction k with
  | zero =>
    rw [if_neg (by omega)]
    rfl
  | succ k ih =>
    rw [forAll_range_succ, used_programCw, tget_tset, ih]
    by_cases hlast : key = p * 128 + (c + k)
    · rw [if_pos hlast, if_pos (by omega)]
    · rw [if_neg hlast]
      simp only [show (p * 128 + c ≤ key ∧ key < p * 128 + c + (k + 1)) ↔
        (p * 128 + c ≤ key ∧ key < p * 128 + c + k) by omega]

theorem nvErased_of_used {s : State} {l i : Nat} (h : tget (fun _ => false) s.nv.used (nvPhys s l * 128 + i) = true) :
    nvErased s l i = false := by
  unfold nvErased nvCw
  rw [h, Bool.not_true, Bool.and_false]

@[simp] theorem regs_programFrom (p c : Nat) (bytes : List Nat) (s : State) : (programFrom p c bytes s).regs = s.regs := by
  obtain ⟨-, -, -, -, -, -, hregs, -⟩ := programFrom_keeps p c bytes s
  exact hregs

@[simp] theorem mem_programFrom (p c : Nat) (bytes : List Nat) (s : State) : (programFrom p c bytes s).mem = s.mem := by
  obtain ⟨-, -, -, -, -, -, -, hmem⟩ := programFrom_keeps p c bytes s
  exact hmem

@[simp] theorem mem_nvEnd (ok : Bool) (s : State) : (nvEnd ok s).mem = s.mem := by simp [nvEnd]

theorem nv_nvEnd (ok : Bool) (s : State) : (nvEnd ok s).nv = { s.nv with op := .none } := by simp [nvEnd]

theorem keepsRegs_nvEnd (ok : Bool) (s : State) : KeepsRegs [Reg.NV_CMDST] s (nvEnd ok s) :=
  keepsRegs_setFld _ _ _ (keepsRegs_setFlag _ _ _ (fun _ _ => rfl) (by simp)) (by simp)

theorem result_nvEnd (ok : Bool) (s : State) :
    fld (nvEnd ok s) Reg.NV_CMDST Fld.NV_CMDST_RESULT = if ok then 0 else 6 := by
  refine (fld_setFld_self _ _ _ _ (by decide) (by decide)).trans ?_
  cases ok <;> rfl

/-- What the end of an APPEND shows, and its codewords. -/
theorem appendDone_effect (ok : Bool) (l c : Nat) (d : List Nat) (s : State) :
    let t := nvEnd ok (programFrom (nvPhys s l) c d s)
    KeepsRegs [Reg.NV_CMDST] s t ∧ t.mem = s.mem ∧
      ∀ i, c ≤ i → i < c + ceilDiv d.length 32 → nvErased t l i = false := by
  obtain ⟨hmap, -⟩ := programFrom_keeps (nvPhys s l) c d s
  refine ⟨fun a ha => (keepsRegs_nvEnd ok _ a ha).trans (by rw [rd, regs_programFrom, rd]), by simp,
    fun i hc hi => nvErased_of_used ?_⟩
  have hphys : nvPhys (nvEnd ok (programFrom (nvPhys s l) c d s)) l = nvPhys s l := by
    rw [nvPhys, nv_nvEnd, hmap, nvPhys]
  rw [hphys, nv_nvEnd]
  exact (used_programCws _ _ _ _ _ _).trans (if_pos (by omega))

/-- Sector p retired and a spare gone, before the fault of the last spares is reported. -/
def sectorRetired (p : Nat) (s : State) : State :=
  s |> updNv (fun n => { n with gone := tset (fun _ => false) n.gone p true,
                                dirty := tset (fun _ => false) n.dirty p false })
    |> incFld Reg.NV_STAT Fld.NV_STAT_RETIRED
    |> setFld Reg.NV_STAT Fld.NV_STAT_SPARES (fld s Reg.NV_STAT Fld.NV_STAT_SPARES - 1) |> showWear

theorem retireSector_eq (p l : Nat) (s : State) : retireSector p l s =
    if fld s Reg.NV_STAT Fld.NV_STAT_SPARES < 8 then
      report { src := 6, event := 2, cls := 2, unit := l } (sectorRetired p s) else sectorRetired p s := by
  unfold retireSector sectorRetired
  rfl

theorem mem_retireSector (p l : Nat) (s : State) : (retireSector p l s).mem = s.mem := by
  rw [retireSector_eq]
  split <;> simp [sectorRetired, showWear, mem_report]

/-- The report of a sector retired leaves every register but the fault manager's and BD_IPEND. -/
theorem rd_retireSector {a : Nat} (hsys : 0x30000000 ≤ a) (hfault : a ∉ faultRegs) (p l : Nat) (s : State) :
    rd (retireSector p l s) a = rd (sectorRetired p s) a := by
  rw [retireSector_eq]
  split
  · exact rd_report_system (fun _ => List.mem_range.mp) hsys hfault _
  · rfl

theorem keepsRegs_sectorRetired (p : Nat) (s : State) :
    KeepsRegs [Reg.NV_STAT, Reg.NV_WMAX, Reg.NV_WMIN] s (sectorRetired p s) :=
  keepsRegs_wr _ _ (keepsRegs_wr _ _ (keepsRegs_setFld _ _ _ (keepsRegs_setFld _ _ _ (fun _ _ => rfl) (by simp))
    (by simp)) (by simp)) (by simp)

theorem spares_sectorRetired (p : Nat) (s : State) : fld (sectorRetired p s) Reg.NV_STAT Fld.NV_STAT_SPARES =
    fld s Reg.NV_STAT Fld.NV_STAT_SPARES - 1 := by
  have hlt : fld s Reg.NV_STAT Fld.NV_STAT_SPARES < 256 := fld_lt s Reg.NV_STAT Fld.NV_STAT_SPARES
  unfold sectorRetired showWear
  rw [fld_wr_ne _ _ _ _ _ (by decide), fld_wr_ne _ _ _ _ _ (by decide), fld_setFld_self _ _ _ _ (by decide) (by decide)]
  exact Nat.mod_eq_of_lt (Nat.lt_of_le_of_lt (Nat.sub_le _ _) hlt)

theorem sectorDone_of_good (l x : Nat) (d : List Nat) (s : State) :
    sectorDone l x d true s = remap l x (programFrom x 0 d (nvEnd true s)) := by simp only [sectorDone, if_true]

theorem sectorDone_of_failed (l x : Nat) (d : List Nat) (s : State) :
    sectorDone l x d false s = retireSector x l (nvEnd false s) := by
  simp only [sectorDone, Bool.false_eq_true, if_false]

theorem nv_sectorRetired (p : Nat) (s : State) : (sectorRetired p s).nv = { s.nv with
    gone := tset (fun _ => false) s.nv.gone p true, dirty := tset (fun _ => false) s.nv.dirty p false } := by
  simp [sectorRetired, showWear]

theorem nv_retireSector (p l : Nat) (s : State) : (retireSector p l s).nv = { s.nv with
    gone := tset (fun _ => false) s.nv.gone p true, dirty := tset (fun _ => false) s.nv.dirty p false } := by
  rw [retireSector_eq]
  split
  · rw [nv_of_besideFaults (besideFaults_report _ _), nv_sectorRetired]
  · exact nv_sectorRetired p s

/-- What the end of a SECTOR or an ERASE shows. -/
theorem sectorDone_effect (l x : Nat) (d : List Nat) (ok : Bool) (s : State) :
    let t := sectorDone l x d ok s
    t.nv.op = .none ∧ fld t Reg.NV_CMDST Fld.NV_CMDST_RESULT = (if ok then 0 else 6) ∧ t.mem = s.mem := by
  cases ok with
  | true =>
    obtain ⟨-, -, -, -, -, hop, -⟩ := programFrom_keeps x 0 d (nvEnd true s)
    rw [sectorDone_of_good]
    refine ⟨by rw [nv_remap, hop, nv_nvEnd], ?_, by simp⟩
    rw [fld_of_regs (s := nvEnd true s) (by simp), result_nvEnd]
  | false =>
    have hstat : fld (retireSector x l (nvEnd false s)) Reg.NV_CMDST Fld.NV_CMDST_RESULT =
        fld (nvEnd false s) Reg.NV_CMDST Fld.NV_CMDST_RESULT := by
      rw [fld, rd_retireSector (by decide) (by decide), ← fld]
      exact fld_of_keepsRegs _ (keepsRegs_sectorRetired x _) (by decide)
    rw [sectorDone_of_failed]
    exact ⟨by rw [nv_retireSector, nv_nvEnd], by rw [hstat, result_nvEnd], by rw [mem_retireSector, mem_nvEnd]⟩

/-! ## Background work (R309 to R311) -/

theorem tget_filter_out {α : Type} (d : Nat → α) (t : Tab α) {w p a : Nat} (h : a / w = p) :
    tget d (t.filter fun e => e.1 / w != p) a = d a := by
  rw [tget_filter d t (fun i => i / w != p)]
  simp [h]

/-- An erase leaves its sector blank, clean and counted. -/
theorem eraseSector_effect (p : Nat) (s : State) :
    let t := eraseSector p s
    nvDirty t p = false ∧ t.nv.map = s.nv.map ∧ nvWear t p = nvWear s p + 1 ∧
      ∀ o, o < 4096 → tget (fun _ => 255#8) t.nv.cells (p * 4096 + o) = 255#8 := by
  simp only [nvDirty, nvWear, nv_eraseSector, tget_tset_self]
  refine ⟨trivial, nv_blankSector_map p s, trivial, fun o ho => ?_⟩
  exact tget_filter_out _ _ (by omega)

/-- An erase that fails retires its sector, and a spare goes. -/
theorem retireSector_effect (p l : Nat) (s : State) :
    let t := retireSector p l s
    nvDirty t p = false ∧ t.nv.map = s.nv.map ∧ nvGone t p = true ∧
      fld t Reg.NV_STAT Fld.NV_STAT_SPARES = fld s Reg.NV_STAT Fld.NV_STAT_SPARES - 1 := by
  refine ⟨by simp [nvDirty, nv_retireSector], by simp [nv_retireSector], by simp [nvGone, nv_retireSector], ?_⟩
  rw [← spares_sectorRetired p s, fld, rd_retireSector (by decide) (by decide), fld]

@[simp] theorem copySector_keeps (o p : Nat) (s : State) : (copySector o p s).regs = s.regs ∧
    (copySector o p s).nv.map = s.nv.map ∧ (copySector o p s).mem = s.mem := by
  obtain ⟨hmap, -, -, -, -, -, hregs, hmem⟩ := programFrom_keeps p 0
    ((List.range 4096).map fun i => (Config.factoryByte (o * 4096 + i)).toNat) (blankSector p s)
  unfold copySector
  dsimp only
  split
  · simp only [updNv_keeps, nv_updNv, hregs, hmem, hmap]
    exact ⟨rfl, rfl, rfl⟩
  · exact ⟨rfl, rfl, rfl⟩

/-- Levelling moves a logical sector to another physical one; the one it leaves awaits its erasure. -/
theorem remap_copySector_effect (l x : Nat) (s : State) :
    let t := remap l x (copySector (nvPhys s l) x s)
    nvPhys t l = x ∧ nvDirty t (nvPhys s l) = true ∧ t.regs = s.regs := by
  obtain ⟨hregs, hmap, -⟩ := copySector_keeps (nvPhys s l) x s
  have hphys : nvPhys (copySector (nvPhys s l) x s) l = nvPhys s l := by rw [nvPhys, hmap, nvPhys]
  exact ⟨by simp [nvPhys], by simp [nvDirty, hphys], by simp⟩

/-- A refresh moves its sector and is counted. -/
theorem nvRefresh_effect (l x : Nat) (d : Bool) (s : State) :
    let t := nvRefresh l x d s
    nvPhys t l = x ∧
      fld t Reg.NV_STAT Fld.NV_STAT_REFRESH = min (fld s Reg.NV_STAT Fld.NV_STAT_REFRESH + 1) 65535 := by
  have herased : fld (if d then eraseSector x s else s) Reg.NV_STAT Fld.NV_STAT_REFRESH =
      fld s Reg.NV_STAT Fld.NV_STAT_REFRESH := by
    cases d with
    | false => rfl
    | true => exact fld_of_keepsRegs _ (keepsRegs_eraseSector x s) (by decide)
  have hmoved (u : State) : fld (remap l x (copySector (nvPhys u l) x u)) Reg.NV_STAT Fld.NV_STAT_REFRESH =
      fld u Reg.NV_STAT Fld.NV_STAT_REFRESH := fld_of_regs (by simp) _ _
  unfold nvRefresh
  refine ⟨by simp [nvPhys], ?_⟩
  rw [fld_updNv, fld_incFld_self _ _ _ (by decide) (by decide), hmoved, herased]
  rfl

/-! ## The read window (R309) -/

/-- A codeword that stands with n flipped bits. -/
def cwFlipped (key n : Nat) (s : State) : State := updNv (fun x => { x with flips := tset (fun _ => 0) x.flips key n }) s

/-- A codeword with two flipped bits is corrected, counted, and its sector asks for a rewrite. -/
def cwCorrected (key sect : Nat) (s : State) : State :=
  cwFlipped key 2 s |> incFld Reg.NV_ECC Fld.NV_ECC_CORR
    |> updNv (fun x => { x with refresh := tset (fun _ => false) x.refresh sect true })

/-- A codeword with three is counted, and the fault manager has its report. -/
def cwLost (m a key sect : Nat) (s : State) : State :=
  cwFlipped key 3 s |> incFld Reg.NV_ECC Fld.NV_ECC_UNCORR
    |> report { src := 6, event := 1, cls := 2, unit := sect, detail := a,
                fec := some { addr := nvPhys s sect * 2 ^ 32 + a, master := m, type := 5, size := 2, kind := 2 } }

theorem nvReadCw_eq (m a sect c flips : Nat) (s : State) :
    let key := nvCw s sect c
    let n := min 3 (tget (fun _ => 0) s.nv.flips key + flips)
    nvReadCw m a sect c flips s = if n = 2 then (cwCorrected key sect s, true)
      else if n = 3 then (cwLost m a key sect s, false) else (cwFlipped key n s, true) := by
  dsimp only
  unfold nvReadCw cwCorrected cwLost
  dsimp only
  split
  next h => rw [h]; rfl
  next =>
    split
    next h => rw [h]; rfl
    next => rfl

section
variable {s : State} {m : Master} {a : BitVec 32} {f : Fin 4} (ha : alive s = true) (hlo : 0x60000000 ≤ a.toNat)
  (hhi : a.toNat < 0x60800000) (halign : a.toNat % 4 = 0) (hmay : mayReadNvm m = true)
include ha hlo hhi halign hmay

/-- A read of the window that finds data, -/
theorem exec_nvmWindowRead_of_data {t : State} (h : nvWindowRead (masterOf s m) a.toNat f.val s = (t, true)) :
    exec (.nvmWindowRead m a f) s = .next t := by
  show execNvmWindowRead m a f s = _
  unfold execNvmWindowRead
  rw [live_eq ha (by simp [hlo, hhi, halign]), if_pos hmay, h]

/-- and one that finds none. -/
theorem exec_nvmWindowRead_of_lost {t : State} (h : nvWindowRead (masterOf s m) a.toNat f.val s = (t, false)) :
    exec (.nvmWindowRead m a f) s = .next (busError m a.toNat false 2 t) := by
  show execNvmWindowRead m a f s = _
  unfold execNvmWindowRead
  rw [live_eq ha (by simp [hlo, hhi, halign]), if_pos hmay, h]

end

theorem busError_keeps (m : Master) (a : Nat) (w : Bool) (cause : Nat) (s : State) :
    (busError m a w cause s).regs = s.regs ∧ (busError m a w cause s).nv = s.nv ∧
      (busError m a w cause s).mem = s.mem := by
  cases m <;> exact ⟨rfl, rfl, rfl⟩

theorem cwCorrected_effect (key sect : Nat) (s : State) :
    let t := cwCorrected key sect s
    tget (fun _ => false) t.nv.refresh sect = true ∧ KeepsRegs [Reg.NV_ECC] s t ∧
      fld t Reg.NV_ECC Fld.NV_ECC_CORR = min (fld s Reg.NV_ECC Fld.NV_ECC_CORR + 1) 65535 := by
  unfold cwCorrected cwFlipped
  refine ⟨by simp, keepsRegs_setFld _ _ _ (fun _ _ => rfl) (by simp), ?_⟩
  rw [fld_updNv, fld_incFld_self _ _ _ (by decide) (by decide), fld_updNv]
  rfl

theorem cwLost_effect (m a key sect : Nat) (s : State) :
    fld (cwLost m a key sect s) Reg.NV_ECC Fld.NV_ECC_UNCORR = min (fld s Reg.NV_ECC Fld.NV_ECC_UNCORR + 1) 65535 := by
  unfold cwLost cwFlipped
  rw [fld, rd_report_system (fun _ => List.mem_range.mp) (by decide) (by decide), ← fld,
    fld_incFld_self _ _ _ (by decide) (by decide), fld_updNv]
  rfl

/-- Reading a codeword changes how many of its bits are flipped and which sectors ask for a rewrite, and nothing else
of the NVM. -/
theorem nv_cwLost (m a key sect : Nat) (s : State) :
    (cwLost m a key sect s).nv = (cwFlipped key 3 s).nv ∧ (cwLost m a key sect s).mem = s.mem := by
  unfold cwLost
  exact ⟨(nv_of_besideFaults (besideFaults_report _ _)).trans (by simp),
    (mem_report _ _).trans (by simp [cwFlipped])⟩

/-- What a read of the window shows. -/
theorem nvmWindowRead_effect {s : State} {m : Master} {a : BitVec 32} {f : Fin 4} (ha : alive s = true)
    (hlo : 0x60000000 ≤ a.toNat) (hhi : a.toNat < 0x607C0000) (halign : a.toNat % 4 = 0) (hmay : mayReadNvm m = true) :
    let q := (a.toNat - 0x60000000) / 4096
    let bad := min 3 (tget (fun _ => 0) s.nv.flips (nvCw s q (a.toNat % 4096 / 32)) + f.val)
    Runs (.nvmWindowRead m a f) s fun t =>
      (t.nv.cells, t.nv.used, t.nv.map, t.nv.gone) = (s.nv.cells, s.nv.used, s.nv.map, s.nv.gone) ∧ t.mem = s.mem ∧
      (bad < 2 → t.regs = s.regs) ∧
      (bad = 2 → tget (fun _ => false) t.nv.refresh q = true ∧ KeepsRegs [Reg.NV_ECC] s t ∧
        fld t Reg.NV_ECC Fld.NV_ECC_CORR = min (fld s Reg.NV_ECC Fld.NV_ECC_CORR + 1) 65535) ∧
      (bad = 3 → fld t Reg.NV_ECC Fld.NV_ECC_UNCORR = min (fld s Reg.NV_ECC Fld.NV_ECC_UNCORR + 1) 65535) := by
  intro q
  have hq : a.toNat % 0x800000 / 4096 = q := by omega
  have hread : nvWindowRead (masterOf s m) a.toNat f.val s =
      nvReadCw (masterOf s m) a.toNat q (a.toNat % 4096 / 32) f.val s := by
    rw [nvWindowRead, if_neg (by omega), hq]
  have heq := nvReadCw_eq (masterOf s m) a.toNat q (a.toNat % 4096 / 32) f.val s
  generalize nvCw s q (a.toNat % 4096 / 32) = key at heq ⊢
  dsimp only at heq ⊢
  generalize min 3 (tget (fun _ => 0) s.nv.flips key + f.val) = bad at heq ⊢
  have hdata {t : State} := exec_nvmWindowRead_of_data (t := t) (f := f) ha hlo (by omega) halign hmay
  have hlost {t : State} := exec_nvmWindowRead_of_lost (t := t) (f := f) ha hlo (by omega) halign hmay
  rw [hread] at hdata hlost
  by_cases h2 : bad = 2
  · rw [if_pos h2] at heq
    obtain ⟨hrefresh, hregs, hcorr⟩ := cwCorrected_effect key q s
    refine runs_of_eq (hdata heq) ⟨?_, ?_, fun h => absurd h2 (by omega), fun _ => ⟨hrefresh, hregs, hcorr⟩,
      fun h => absurd h2 (by omega)⟩ <;> simp [cwCorrected, cwFlipped]
  by_cases h3 : bad = 3
  · rw [if_neg h2, if_pos h3] at heq
    obtain ⟨hregs, hnv, hmem⟩ := busError_keeps m a.toNat false 2 (cwLost (masterOf s m) a.toNat key q s)
    obtain ⟨hnv', hmem'⟩ := nv_cwLost (masterOf s m) a.toNat key q s
    refine runs_of_eq (hlost heq) ⟨?_, hmem.trans hmem', fun h => absurd h3 (by omega), fun h => absurd h h2, fun _ => ?_⟩
    · simp [hnv, hnv', cwFlipped]
    · rw [fld_of_regs hregs, cwLost_effect]
  · rw [if_neg h2, if_neg h3] at heq
    refine runs_of_eq (hdata heq) ⟨?_, ?_, fun _ => ?_, fun h => absurd h h2, fun h => absurd h h3⟩ <;> simp [cwFlipped]

theorem exec_staticWearLevel_of_closed {s : State} (h : nvClosed s = true) : exec .staticWearLevel s = .next s := by
  show execStaticWearLevel s = _
  unfold execStaticWearLevel
  split
  · exact live_of_not (by simp [h])
  · rfl

theorem exec_nvmRefresh_of_closed {s : State} (sect : BitVec 11) (h : nvClosed s = true) :
    exec (.nvmRefresh sect) s = .next s := by
  show execNvmRefresh sect s = _
  unfold execNvmRefresh
  split
  · exact live_of_not (by simp [h])
  · rfl

/-- Settles O49, a command at a time. -/
theorem nvmCommandsRun : Obligations.NvmCommandsRun := by
  unfold Obligations.NvmCommandsRun
  intro s m sect p a f ok st sectors n closed sel
  refine ⟨fun hw c op hc => ⟨fun h => ?_, fun h => ⟨fun hr => ?_, fun hr hheld => ?_, fun d s' hr hheld hread => ?_⟩⟩,
    fun l c d ha hop => ?_, fun l x d ha hop => ?_, fun ha hdirty hmapped hopen => ?_, fun l x ha hpair hopen => ?_,
    fun h i hi => ?_, fun ha hlo hhi halign hmay => ?_, fun x d ha hfresh hask hidle hopen => ?_, fun hw => ?_⟩
  -- NV_CMD
  · exact runs_of_eq (exec_nvCmd hw hc) (nvCommand_of_closed h)
  · refine runs_of_eq (exec_nvCmd hw hc) ?_
    rw [nvCommand_of_refused (Bool.eq_false_iff.mpr h) hr]
    exact showResult_effect (Nat.lt_of_le_of_lt (nvCheck_le _ _ _) (by decide)) s
  · change sourceHeld s (nvCount s op) = true at hheld
    refine runs_of_eq (exec_nvCmd hw hc) ?_
    rw [nvCommand_of_accepted (Bool.eq_false_iff.mpr h) hr, if_pos hheld]
    exact commandHeld_effect _ s
  · change sourceHeld s (nvCount s op) = false at hheld
    have htaken : freshSector (nvTaken s) = freshSector s := freshSector_of_nv (by simp [nvTaken])
    obtain ⟨hbusy, hmem, hmap, happend, hsector⟩ := nvBegin_effect (s := nvTaken s) (n := nvCount s op)
      (sect := sect.toNat) (first := fld s Reg.NV_SPAN Fld.NV_SPAN_FIRST) hread fun hop => by
        rw [htaken]
        exact freshSector_of_nvCheck hop hr
    rw [htaken] at hsector
    have hnv : (nvTaken s).nv = s.nv := by simp [nvTaken]
    rw [hnv] at hmap happend hsector
    refine runs_of_eq (exec_nvCmd hw hc) ?_
    rw [nvCommand_of_accepted (Bool.eq_false_iff.mpr h) hr, if_neg (by simp [hheld])]
    exact ⟨hbusy, hmem.trans (by simp [nvTaken]), hmap, happend, hsector⟩
  -- NV_APPEND_DONE, NV_SECTOR_DONE
  · have heq : execNvAppendDone ok s = .next (nvEnd ok (programFrom (nvPhys s l) c d s)) := by
      simp only [execNvAppendDone, hop, live_eq ha]
    exact runs_of_eq heq ⟨rfl, appendDone_effect ok l c d s⟩
  · exact runs_of_eq (exec_nvSectorDone ha hop) ⟨rfl, sectorDone_effect l x d ok s⟩
  -- BACKGROUND_ERASE_DONE
  · refine runs_of_eq (live_eq ha (by simp [hdirty, hmapped, closed] at hopen ⊢; exact hopen)) ?_
    cases ok with
    | true =>
      obtain ⟨hclean, hmap, hwear, hblank⟩ := eraseSector_effect p.toNat s
      exact ⟨hclean, hmap, fun _ => ⟨hwear, keepsRegs_eraseSector _ s, hblank⟩, fun h => absurd h (by decide)⟩
    | false =>
      obtain ⟨hclean, hmap, hgone, hspares⟩ := retireSector_effect p.toNat p.toNat s
      exact ⟨hclean, hmap, fun h => absurd h (by decide), fun _ => ⟨hgone, hspares⟩⟩
  -- STATIC_WEAR_LEVEL
  · have heq : execStaticWearLevel s = .next (remap l x (copySector (nvPhys s l) x s)) := by
      simp only [execStaticWearLevel, hpair]
      exact live_eq ha (by simpa [closed] using hopen)
    exact runs_of_eq heq ⟨rfl, remap_copySector_effect l x s⟩
  -- Background work in a SHUTDOWN with cause 4
  · simp only [List.mem_cons, List.not_mem_nil, or_false] at hi
    rcases hi with rfl | rfl | rfl
    · exact runs_of_eq (live_of_not (by simp [show nvClosed s = true from h])) rfl
    · exact runs_of_eq (exec_staticWearLevel_of_closed h) rfl
    · exact runs_of_eq (exec_nvmRefresh_of_closed sect h) rfl
  -- NVM_WINDOW_READ
  · by_cases hlast : 0x607C0000 ≤ a.toNat
    · have hread : nvWindowRead (masterOf s m) a.toNat f.val s = (s, true) := if_pos (by omega)
      exact runs_of_eq (exec_nvmWindowRead_of_data ha hlo hhi halign hmay hread)
        ⟨rfl, rfl, fun _ => rfl, fun h => absurd h (by omega)⟩
    · obtain ⟨t, ht, hsectors, hmem, hread⟩ := nvmWindowRead_effect (f := f) ha hlo (by omega) halign hmay
      exact runs_of_eq ht ⟨hsectors, hmem, fun h => absurd h hlast, fun _ => hread⟩
  -- NVM_REFRESH, NV_ECC_CLEAR
  · have heq : execNvmRefresh sect s = .next (nvRefresh sect.toNat x d s) := by
      simp only [execNvmRefresh, hfresh]
      exact live_eq ha (by simp [hask, hidle]; simpa [closed] using hopen)
    exact runs_of_eq heq ⟨rfl, nvRefresh_effect sect.toNat x d s⟩
  · exact runs_of_eq (regWriteBy_eq hw) (wr_zero_effect _ _)

end Sys2Proof.Machine
end

section
/-! The commands of the memory RAS controller: what MR_CMD refuses and begins, what a page retired and a bank reset
leave, the scrubber and the error log (R298 to R307). -/

namespace Sys2Proof.Machine

@[simp] theorem ras_updRas (f : Ras → Ras) (s : State) : (updRas f s).ras = f s.ras := (rfl)

/-! ## MR_CMD (R304 to R307) -/

theorem mrCheck_le (s : State) (op k unit : Nat) (g : Bool) : mrCheck s op k unit g ≤ 6 := by
  unfold mrCheck
  dsimp only
  (repeat' split) <;> omega

theorem exec_mrCmd {s : State} {m : Master} {k : BitVec 8} {u : BitVec 10} {mig g : Bool} {c : Instr} {op unit : Nat}
    (hw : CanWrite s m Reg.MR_CMD) (hc : (c, op, unit, g) ∈ [(Instr.mrRetire m k u, 1, u.toNat, false),
      (.mrRowadd m k u, 2, u.toNat, false), (.mrBrst m k mig, 3, 0, mig)]) :
    exec c s = .next (mrCommand op k.toNat unit g s) := by
  simp only [List.mem_cons, List.not_mem_nil, or_false, Prod.mk.injEq] at hc
  rcases hc with ⟨rfl, rfl, rfl, rfl⟩ | ⟨rfl, rfl, rfl, rfl⟩ | ⟨rfl, rfl, rfl, rfl⟩
  all_goals exact regWriteBy_eq hw

/-- The state with the result of a command shown. -/
def mrShown (r : Nat) (s : State) : State := setFld Reg.MR_CMDST Fld.MR_CMDST_RESULT r s

theorem mrCommand_of_refused {op k unit : Nat} {g : Bool} {s : State} (h : mrCheck s op k unit g ≠ 0) :
    mrCommand op k unit g s = mrShown (mrCheck s op k unit g) s := by
  unfold mrCommand
  dsimp only
  rw [if_pos (by simpa using h), mrShown]

section
variable {k unit : Nat} {g : Bool} {s : State}

theorem mrCommand_retire (h : mrCheck s 1 k unit false = 0) :
    mrCommand 1 k unit false s = mrBegin k (.retire k unit) (mrShown 0 s) := by
  simp [mrCommand, h, mrShown]

theorem mrCommand_rowadd (h : mrCheck s 2 k unit false = 0) : mrCommand 2 k unit false s =
    recordRas true k unit (incFld (Reg.MR_BSTAT k) Fld.MR_BSTAT_PEND
      (updRas (fun x => { x with softRows := x.softRows ++ [(k, unit)] }) (mrShown 0 s))) := by
  simp [mrCommand, h, mrShown]

theorem mrCommand_brst (h : mrCheck s 3 k 0 g = 0) : mrCommand 3 k 0 g s =
    mrBegin k (.brst k (if g then some (rd s Reg.MR_MIGADDR) else none)) (mrShown 0 s) := by
  have haddr : rd (mrShown 0 s) Reg.MR_MIGADDR = rd s Reg.MR_MIGADDR := rd_setFld_ne _ _ _ _ _ (by decide)
  rw [← haddr]
  simp [mrCommand, h, mrShown]

end

theorem mrBstat_ne_cmdst (k : Nat) : Reg.MR_BSTAT k ≠ Reg.MR_CMDST := by
  unfold Reg.MR_BSTAT Reg.MR_CMDST
  omega

theorem mrShown_effect {r : Nat} (hr : r < 16) (s : State) :
    fld (mrShown r s) Reg.MR_CMDST Fld.MR_CMDST_RESULT = r ∧ OnlyRegs [Reg.MR_CMDST] s (mrShown r s) :=
  ⟨(fld_setFld_self _ _ _ _ (by decide) (by decide)).trans (Nat.mod_eq_of_lt hr),
    onlyRegs_setFld _ _ _ (onlyRegs_refl _ s) (by simp)⟩

/-- A command that begins shows BUSY and holds its bank. -/
theorem mrBegin_effect (k : Nat) (op : RasOp) (s : State) :
    let t := mrBegin k op (mrShown 0 s)
    t.ras.op = op ∧ flag t Reg.MR_CMDST Fld.MR_CMDST_BUSY = true ∧ fld t Reg.MR_CMDST Fld.MR_CMDST_RESULT = 0 ∧
      flag t (Reg.MR_BSTAT k) Fld.MR_BSTAT_HOLD = true ∧ KeepsRegs [Reg.MR_CMDST, Reg.MR_BSTAT k] s t ∧
      t.mem = s.mem := by
  have hne := (mrBstat_ne_cmdst k).symm
  have hshown : KeepsRegs [Reg.MR_CMDST, Reg.MR_BSTAT k] s (updRas (fun x => { x with op := op }) (mrShown 0 s)) :=
    keepsRegs_updRas (keepsRegs_setFld _ _ _ (keepsRegs_refl _ s) (by simp)) _
  unfold mrBegin
  refine ⟨by simp, ?_, ?_, flag_setFlag_self _ _ _ _ (by decide) (by decide),
    keepsRegs_setFlag _ _ _ (keepsRegs_setFlag _ _ _ hshown (by simp)) (by simp), by simp [mrShown]⟩
  · rw [flag, setFlag, fld_setFld_ne _ _ _ _ _ _ hne, ← flag]
    exact flag_setFlag_self _ _ _ _ (by decide) (by decide)
  · rw [setFlag, fld_setFld_ne _ _ _ _ _ _ hne, setFlag,
      fld_setFld_other _ _ _ _ _ (by decide) (by decide) (by decide) (by decide), fld_updRas]
    exact (mrShown_effect (by decide) s).1

/-! ## The RAS table (R304, R305, R312) -/

theorem keepsRegs_clearSector (sect : Nat) (s : State) :
    KeepsRegs [Reg.NV_WMAX, Reg.NV_WMIN] s (clearSector sect s) := by
  unfold clearSector
  split
  next p dirty _ =>
    cases dirty with
    | false => exact keepsRegs_of_regs (keepsRegs_refl _ s) (by simp)
    | true => exact keepsRegs_of_regs (keepsRegs_eraseSector p s) (by simp)
  · exact keepsRegs_eraseSector _ s

theorem keepsRegs_ringAppend (base pos : Nat) (bytes : List Nat) (s : State) :
    KeepsRegs [Reg.NV_WMAX, Reg.NV_WMIN] s (ringAppend base pos bytes s) := by
  unfold ringAppend
  dsimp only
  unfold programCw
  refine keepsRegs_updNv ?_ _
  split
  · exact keepsRegs_clearSector _ s
  · exact keepsRegs_refl _ s

theorem ras_ringAppend (base pos : Nat) (bytes : List Nat) (s : State) : (ringAppend base pos bytes s).ras = s.ras :=
  (congrArg State.ras (besideNvm_ringAppend base pos bytes s) :)

theorem mem_ringAppend (base pos : Nat) (bytes : List Nat) (s : State) : (ringAppend base pos bytes s).mem = s.mem :=
  (congrArg State.mem (besideNvm_ringAppend base pos bytes s) :)

/-- An entry of the RAS table is recorded where the NVM takes it. -/
theorem recordRas_effect (row : Bool) (k u : Nat) (s : State) :
    let t := recordRas row k u s
    t.ras = { s.ras with table := if nvClosed s then s.ras.table else s.ras.table ++ [(row, k, u)] } ∧
      KeepsRegs [Reg.NV_WMAX, Reg.NV_WMIN] s t ∧ t.mem = s.mem := by
  unfold recordRas
  split
  next h => exact ⟨rfl, keepsRegs_refl _ s, rfl⟩
  next h =>
    refine ⟨by simp [ras_ringAppend], ?_, by simp [mem_ringAppend]⟩
    exact keepsRegs_updRas (keepsRegs_ringAppend _ _ _ s) _

/-- A soft row that is added counts as pending and is recorded. -/
theorem rowadd_effect (k unit : Nat) (s : State) :
    let b := Reg.MR_BSTAT k
    let t := recordRas true k unit (incFld b Fld.MR_BSTAT_PEND
      (updRas (fun x => { x with softRows := x.softRows ++ [(k, unit)] }) (mrShown 0 s)))
    fld t b Fld.MR_BSTAT_PEND = min (fld s b Fld.MR_BSTAT_PEND + 1) 15 ∧
      t.ras.softRows = s.ras.softRows ++ [(k, unit)] ∧
      t.ras.table = (if nvClosed s then s.ras.table else s.ras.table ++ [(true, k, unit)]) ∧
      KeepsRegs [Reg.MR_CMDST, b, Reg.NV_WMAX, Reg.NV_WMIN] s t ∧ t.mem = s.mem := by
  intro b
  set v := incFld b Fld.MR_BSTAT_PEND
    (updRas (fun x => { x with softRows := x.softRows ++ [(k, unit)] }) (mrShown 0 s)) with hv
  have hshown : KeepsRegs [Reg.MR_CMDST, b] s (updRas (fun x => { x with softRows := x.softRows ++ [(k, unit)] })
      (mrShown 0 s)) := keepsRegs_updRas (keepsRegs_setFld _ _ _ (keepsRegs_refl _ s) (by simp)) _
  have hregs : KeepsRegs [Reg.MR_CMDST, b] s v := keepsRegs_setFld _ _ _ hshown (by simp)
  have hras : v.ras = { s.ras with softRows := s.ras.softRows ++ [(k, unit)] } := by simp [hv, mrShown]
  have hpend : fld v b Fld.MR_BSTAT_PEND = min (fld s b Fld.MR_BSTAT_PEND + 1) 15 := by
    rw [hv, fld_incFld_self _ _ _ (by decide) (by decide), fld_updRas, mrShown,
      fld_setFld_ne _ _ _ _ _ _ (mrBstat_ne_cmdst k)]
    rfl
  have hclosed : nvClosed v = nvClosed s := nvClosed_of_keepsRegs hregs
    (by simp only [b, List.mem_cons, List.not_mem_nil, or_false, Reg.MR_BSTAT, Reg.SM_MODE, Reg.MR_CMDST]; omega)
    (by simp only [b, List.mem_cons, List.not_mem_nil, or_false, Reg.MR_BSTAT, Reg.FM_SHUTCAUSE, Reg.MR_CMDST]; omega)
  obtain ⟨htable, hkept, hmem⟩ := recordRas_effect true k unit v
  have hb : b ∉ [Reg.NV_WMAX, Reg.NV_WMIN] := by
    simp only [b, List.mem_cons, List.not_mem_nil, or_false, Reg.MR_BSTAT, Reg.NV_WMAX, Reg.NV_WMIN]
    omega
  dsimp only
  refine ⟨(fld_of_keepsRegs _ hkept hb).trans hpend, by rw [htable, hras], by rw [htable, hras, hclosed], ?_,
    hmem.trans (by simp [hv, mrShown])⟩
  exact keepsRegs_trans (keepsRegs_mono (by simp) hregs) (keepsRegs_mono (by simp) hkept)

/-! ## Copies of a bank's words (R304, R306) -/

/-- A correction shows in the count of its bank and in what it reports. -/
theorem rd_correctWord {x : Nat} (hsys : 0x30000000 ≤ x) (hfault : x ∉ faultRegs) {k : Nat} (hx : x ≠ Reg.MR_BSTAT k)
    (a : Nat) (scrub : Bool) (s : State) : rd (correctWord k a scrub s) x = rd s x := by
  have hcount (f : Ras → Ras) (s : State) : rd (incFld (Reg.MR_BSTAT k) Fld.MR_BSTAT_CE (updRas f s)) x = rd s x :=
    (rd_setFld_ne _ _ _ _ _ hx).trans (rd_updRas f s x)
  unfold correctWord logError setUpset
  dsimp only
  split
  · rw [rd_report_system (fun _ => List.mem_range.mp) hsys hfault, rd_report_system (fun _ => List.mem_range.mp) hsys
      hfault, hcount, rd_updRas, rd_updRas, rd_spend]
  · rw [rd_report_system (fun _ => List.mem_range.mp) hsys hfault, hcount, rd_updRas, rd_updRas, rd_spend]

theorem rd_copyWords {x : Nat} (hsys : 0x30000000 ≤ x) (hfault : x ∉ faultRegs) {k : Nat} (hx : x ≠ Reg.MR_BSTAT k)
    (a n : Nat) (s : State) : rd (copyWords k a n s) x = rd s x := by
  refine forAll_keeps (rd · x) _ (fun e s => ?_) s
  dsimp only
  split
  · exact rd_correctWord hsys hfault hx _ _ s
  · rfl

/-- The part of the memory controller that says what is retired. -/
def rasBooks (s : State) : List (Bool × Nat × Nat) × List (Nat × Nat) := (s.ras.table, s.ras.softRows)

theorem rasBooks_logError (e : ElogEntry) (s : State) : rasBooks (logError e s) = rasBooks s := by
  unfold rasBooks logError
  rw [ras_updRas]
  split <;> rfl

theorem rasBooks_correctWord (k a : Nat) (scrub : Bool) (s : State) : rasBooks (correctWord k a scrub s) = rasBooks s := by
  have hreport (r : Rep) (s : State) : rasBooks (report r s) = rasBooks s := by rw [rasBooks, ras_report, rasBooks]
  have hcount (n : Nat) (s : State) : rasBooks (incFld (Reg.MR_BSTAT k) Fld.MR_BSTAT_CE
      (updRas (fun x => { x with ce := tset (fun _ => 0) x.ce (pageOf k a) n }) s)) = rasBooks s := by
    simp [rasBooks]
  have hupset (v : Nat) (s : State) : rasBooks (setUpset a v (spend s)) = rasBooks s := rfl
  unfold correctWord
  dsimp only
  split <;> simp only [hreport, hcount, rasBooks_logError, hupset]

/-- A copy changes no byte and nothing of what is retired. -/
theorem copyWords_keeps (k a n : Nat) (s : State) :
    rasBooks (copyWords k a n s) = rasBooks s ∧ (copyWords k a n s).mem = s.mem := by
  have hkept : (fun s => (rasBooks s, s.mem)) (copyWords k a n s) = (fun s => (rasBooks s, s.mem)) s := by
    refine forAll_keeps (fun s => (rasBooks s, s.mem)) _ (fun e s => ?_) s
    dsimp only
    split
    · rw [rasBooks_correctWord, mem_correctWord]
    · exact Prod.ext (rasBooks_logError _ s) rfl
  exact Prod.ext_iff.mp hkept

/-! ## Page retirement (R304) -/

theorem mrEnd_effect (k : Nat) (s : State) :
    let t := mrEnd k s
    t.ras.op = .none ∧ flag t Reg.MR_CMDST Fld.MR_CMDST_BUSY = false ∧
      flag t (Reg.MR_BSTAT k) Fld.MR_BSTAT_HOLD = false ∧ KeepsRegs [Reg.MR_CMDST, Reg.MR_BSTAT k] s t ∧
      t.mem = s.mem ∧ t.ras = { s.ras with op := .none } := by
  unfold mrEnd
  refine ⟨by simp, ?_, flag_setFlag_self _ _ _ _ (by decide) (by decide), ?_, by simp, by simp⟩
  · rw [flag, setFlag, fld_setFld_ne _ _ _ _ _ _ (mrBstat_ne_cmdst k).symm, ← flag]
    exact flag_setFlag_self _ _ _ _ (by decide) (by decide)
  · exact keepsRegs_setFlag _ _ _ (keepsRegs_setFlag _ _ _ (keepsRegs_updRas (keepsRegs_refl _ s) _) (by simp)) (by simp)

/-- Page u of bank k copied, its mapping switched and its count begun again. -/
def pageCopied (k u : Nat) (s : State) : State :=
  s |> copyWords k (bankBase k + u * 1024) 1024
    |> updRas (fun x => { x with ce := tdel x.ce (k * 1024 + u) })
    |> incFld (Reg.MR_BSTAT k) Fld.MR_BSTAT_SPAGE

theorem retireDone_eq (k u : Nat) (s : State) : retireDone k u s = mrEnd k (recordRas false k u (pageCopied k u s)) := by
  unfold retireDone pageCopied
  rfl

theorem pageCopied_effect (k u : Nat) (s : State) :
    let t := pageCopied k u s
    t.ras.table = s.ras.table ∧ t.mem = s.mem ∧ nvClosed t = nvClosed s := by
  obtain ⟨hbooks, hmem⟩ := copyWords_keeps k (bankBase k + u * 1024) 1024 s
  have htable : (copyWords k (bankBase k + u * 1024) 1024 s).ras.table = s.ras.table := congrArg Prod.fst hbooks
  have hrd {x : Nat} (hsys : 0x30000000 ≤ x) (hfault : x ∉ faultRegs) (hx : x ≠ Reg.MR_BSTAT k) :
      rd (pageCopied k u s) x = rd s x := by
    unfold pageCopied
    rw [incFld, addFld, rd_setFld_ne _ _ _ _ _ hx, rd_updRas, rd_copyWords hsys hfault hx]
  have hmode := hrd (x := Reg.SM_MODE) (by decide) (by decide) (by unfold Reg.SM_MODE Reg.MR_BSTAT; omega)
  have hcause := hrd (x := Reg.FM_SHUTCAUSE) (by decide) (by decide) (by unfold Reg.FM_SHUTCAUSE Reg.MR_BSTAT; omega)
  refine ⟨by simp [pageCopied, htable], by simp [pageCopied, hmem], ?_⟩
  rw [nvClosed, mode, fld, hmode, hcause, ← fld, ← mode, ← nvClosed]

/-- A page retired: its bank is released, its bytes stand, and it is recorded. -/
theorem retireDone_effect (k u : Nat) (s : State) :
    let t := retireDone k u s
    (t.ras.op = .none ∧ flag t Reg.MR_CMDST Fld.MR_CMDST_BUSY = false ∧
      flag t (Reg.MR_BSTAT k) Fld.MR_BSTAT_HOLD = false) ∧ t.mem = s.mem ∧
      t.ras.table = if nvClosed s then s.ras.table else s.ras.table ++ [(false, k, u)] := by
  obtain ⟨htable, hmem, hclosed⟩ := pageCopied_effect k u s
  obtain ⟨hrecord, -, hmem'⟩ := recordRas_effect false k u (pageCopied k u s)
  obtain ⟨hop, hbusy, hhold, -, hmem'', hras⟩ := mrEnd_effect k (recordRas false k u (pageCopied k u s))
  rw [retireDone_eq]
  exact ⟨⟨hop, hbusy, hhold⟩, hmem''.trans (hmem'.trans hmem), by rw [hras, hrecord, hclosed, htable]⟩

/-! ## Bank reset (R298, R301, R306) -/

theorem bitAt_eq_testBit (w i : Nat) : bitAt w i = w.testBit i := by
  unfold bitAt
  rw [Nat.testBit_eq_decide_div_mod_eq]
  rfl

/-- A mark that is cleared, and the others. -/
theorem marked_setMark_false (g h : Nat) (s : State) :
    marked (setMark g false s) h = (marked s h && decide (h ≠ g)) := by
  have hword : setMark g false s = wr (Reg.MR_GRAN (g / 32))
      (rd s (Reg.MR_GRAN (g / 32)) &&& (0xFFFFFFFF ^^^ 2 ^ (g % 32))) s := rfl
  rw [marked, hword, rd_wr, marked]
  by_cases hw : h / 32 = g / 32
  · rw [if_pos (by rw [hw]), hw]
    have h32 : h % 32 < 32 := Nat.mod_lt _ (by decide)
    simp only [bitAt_eq_testBit, Nat.testBit_mod_two_pow, h32, decide_true, Bool.true_and, Nat.testBit_and,
      Nat.testBit_xor, testBit_ones _ h32, Nat.testBit_two_pow, Bool.true_xor]
    congr 1
    rw [← decide_not]
    exact decide_eq_decide.mpr (by omega)
  · have hne : Reg.MR_GRAN (h / 32) ≠ Reg.MR_GRAN (g / 32) := by
      unfold Reg.MR_GRAN
      omega
    have hgh : h ≠ g := by
      rintro rfl
      exact hw rfl
    rw [if_neg hne, decide_eq_true hgh, Bool.and_true]

theorem marked_clearMarks (gs : List Nat) (h : Nat) (s : State) :
    marked (forAll gs (fun g s => setMark g false s) s) h = (marked s h && decide (h ∉ gs)) := by
  induction gs generalizing s with
  | nil => simp [forAll]
  | cons g gs ih =>
    rw [forAll_cons, ih, marked_setMark_false]
    by_cases hg : h = g <;> simp [hg]

/-- A table whose entries at some places are given one value. -/
theorem tget_foldl_tset_const {α : Type} [DecidableEq α] (d : Nat → α) (gs : List Nat) (v : α) (t : Tab α) (g : Nat) :
    tget d (gs.foldl (fun t g => tset d t g v) t) g = if g ∈ gs then v else tget d t g := by
  induction gs generalizing t with
  | nil => simp
  | cons h gs ih =>
    rw [List.foldl_cons, ih, tget_tset]
    by_cases hg : g = h <;> simp [hg]

/-- Bank k emptied, before its marks are cleared. -/
def bankEmptied (k : Nat) (s : State) : State :=
  let out := fun (x : Nat) => !(decide (bankBase k ≤ x) && decide (x < bankBase k + bankSize k))
  updRas (fun x => { x with
    filled := (granulesOf k).foldl (fun t g => tset (fun _ => false) t g false) x.filled,
    flips := x.flips.filter (fun e => out (e.1 * 8)),
    upset := x.upset.filter (fun e => out (e.1 * 8)) }) { s with mem := s.mem.filter fun c => out c.1 }

theorem discardBank_eq (k : Nat) (s : State) :
    discardBank k s = forAll (granulesOf k) (fun g s => setMark g false s) (bankEmptied k s) := by
  unfold discardBank bankEmptied
  rfl

theorem memByte_bankEmptied (k a : Nat) (s : State) : memByte (bankEmptied k s) a =
    if bankBase k ≤ a ∧ a < bankBase k + bankSize k then 0 else memByte s a := by
  have hmem := tget_filter (fun _ => 0#8) s.mem
    (fun x => !(decide (bankBase k ≤ x) && decide (x < bankBase k + bankSize k))) a
  have hpart : (bankEmptied k s).mem = s.mem.filter fun c =>
    !(decide (bankBase k ≤ c.1) && decide (c.1 < bankBase k + bankSize k)) := rfl
  rw [memByte, hpart, hmem]
  by_cases h : bankBase k ≤ a ∧ a < bankBase k + bankSize k
  · simp [h]
  · rw [if_neg h, if_pos (by simp; omega), memByte]

theorem granuleOf_mem {k a : Nat} (hlo : bankBase k ≤ a) (hhi : a < bankBase k + bankSize k) :
    granuleOf k a ∈ granulesOf k := by
  have hsize : bankSize k / 0x4000 * 0x4000 = bankSize k := by
    unfold bankSize
    split <;> rfl
  exact List.mem_map.mpr ⟨(a - bankBase k) / 0x4000, List.mem_range.mpr (by omega), rfl⟩

theorem wordWritten_bankEmptied {k a : Nat} (hlo : bankBase k ≤ a) (hhi : a < bankBase k + bankSize k) (s : State) :
    wordWritten (bankEmptied k s) k a = false := by
  have hbase := bankBase_mod k
  have hfilled : tget (fun _ => false) (bankEmptied k s).ras.filled (granuleOf k a) = false :=
    (tget_foldl_tset_const _ _ _ _ _).trans (if_pos (granuleOf_mem hlo hhi))
  have hflips : tget (fun _ => false) (bankEmptied k s).ras.flips (a / 8) = false := by
    refine (tget_filter _ s.ras.flips
      (fun x => !(decide (bankBase k ≤ x * 8) && decide (x * 8 < bankBase k + bankSize k))) _).trans (if_neg ?_)
    simp
    omega
  rw [wordWritten, hfilled, hflips]
  rfl

/-- A bank's counts and soft rows begun again, and its command ended. -/
def bankEnded (k : Nat) (s : State) : State := mrEnd k (clearPageCounts k (applySoftRows k s))

theorem bankResetDone_discard (k : Nat) (s : State) : bankResetDone k none s = bankEnded k (discardBank k s) := rfl

theorem bankResetDone_migrate (k b : Nat) (s : State) :
    bankResetDone k (some b) s = bankEnded k (fillBuffer k b (copyWords k (bankBase k) (bankSize k) s)) := rfl

theorem bankEnded_effect (k : Nat) (s : State) :
    let t := bankEnded k s
    (t.ras.op = .none ∧ flag t Reg.MR_CMDST Fld.MR_CMDST_BUSY = false ∧
      flag t (Reg.MR_BSTAT k) Fld.MR_BSTAT_HOLD = false) ∧ KeepsRegs [Reg.MR_CMDST, Reg.MR_BSTAT k] s t ∧
      t.mem = s.mem ∧ t.ras.filled = s.ras.filled ∧ t.ras.flips = s.ras.flips ∧
      t.ras.softRows = s.ras.softRows.filter (·.1 ≠ k) := by
  obtain ⟨hop, hbusy, hhold, hregs, hmem, hras⟩ := mrEnd_effect k (clearPageCounts k (applySoftRows k s))
  have hrows : KeepsRegs [Reg.MR_CMDST, Reg.MR_BSTAT k] s (clearPageCounts k (applySoftRows k s)) :=
    keepsRegs_updRas (keepsRegs_setFld _ _ _ (keepsRegs_setFld _ _ _ (keepsRegs_updRas (keepsRegs_refl _ s) _)
      (by simp)) (by simp)) _
  refine ⟨⟨hop, hbusy, hhold⟩, keepsRegs_trans hrows hregs, hmem.trans (by simp [clearPageCounts, applySoftRows]), ?_⟩
  rw [bankEnded, hras]
  simp [clearPageCounts, applySoftRows]
  rfl

theorem mrGran_kept {k : Nat} (hk : k ≤ 168) (g : Nat) : Reg.MR_GRAN g ∉ [Reg.MR_CMDST, Reg.MR_BSTAT k] := by
  simp only [List.mem_cons, List.not_mem_nil, or_false, Reg.MR_GRAN, Reg.MR_CMDST, Reg.MR_BSTAT]
  omega

theorem marked_bankEnded {k : Nat} (hk : k ≤ 168) (g : Nat) (s : State) :
    marked (bankEnded k s) g = marked s g := by
  obtain ⟨-, hregs, -⟩ := bankEnded_effect k s
  rw [marked, hregs _ (mrGran_kept hk _), marked]

/-- A bank reset without migration. -/
theorem bankDiscarded_effect {k : Nat} (hk : k ≤ 168) (s : State) :
    let v := bankResetDone k none s
    (v.ras.op = .none ∧ flag v Reg.MR_CMDST Fld.MR_CMDST_BUSY = false ∧
      flag v (Reg.MR_BSTAT k) Fld.MR_BSTAT_HOLD = false) ∧
      (∀ a, memByte v a = if bankBase k ≤ a ∧ a < bankBase k + bankSize k then 0 else memByte s a) ∧
      (∀ a, bankBase k ≤ a ∧ a < bankBase k + bankSize k → wordWritten v k a = false) ∧
      (∀ g, g ∈ granulesOf k → marked v g = false) ∧ v.ras.softRows = s.ras.softRows.filter (·.1 ≠ k) := by
  obtain ⟨hfreed, -, hmem, hfilled, hflips, hrows⟩ := bankEnded_effect k (discardBank k s)
  have hclear : (fun s => (s.mem, s.ras)) (discardBank k s) = (fun s => (s.mem, s.ras)) (bankEmptied k s) := by
    rw [discardBank_eq]
    exact forAll_keeps (fun s => (s.mem, s.ras)) _ (fun g s => by simp [setMark]) _
  obtain ⟨hcmem, hcras⟩ := Prod.ext_iff.mp hclear
  rw [bankResetDone_discard]
  refine ⟨hfreed, fun a => ?_, fun a ha => ?_, fun g hg => ?_, ?_⟩
  · rw [memByte_of_mem (hmem.trans hcmem), memByte_bankEmptied]
  · rw [wordWritten_of_ras (s := bankEmptied k s) (hfilled.trans (congrArg Ras.filled hcras))
      (hflips.trans (congrArg Ras.flips hcras))]
    exact wordWritten_bankEmptied ha.1 ha.2 s
  · rw [marked_bankEnded hk, discardBank_eq, marked_clearMarks, decide_eq_false (not_not_intro hg), Bool.and_false]
  · rw [hrows, show (discardBank k s).ras = _ from hcras]
    rfl

theorem regs_setValue (a n v : Nat) (s : State) : (setValue a n v s).regs = s.regs := by
  unfold setValue
  exact forAll_keeps State.regs _ (f := fun (x : Nat × Nat) s => setByte (a + x.1) x.2 s) (fun _ _ => rfl) s

theorem regs_fillBuffer (k b : Nat) (s : State) : (fillBuffer k b s).regs = s.regs := by
  refine forAll_keeps State.regs _ (fun i s => ?_) s
  dsimp only
  split
  · split
    · simp only [setUpset, setWritten, updRas_keeps, regs_setValue]
    · rfl
  · rfl

theorem faultRegs_lt : ∀ a ∈ faultRegs, a < 0x30020000 := by decide

/-- A migration changes no mark. -/
theorem bankMigrated_effect {k : Nat} (hk : k ≤ 168) (b : Nat) (s : State) :
    let v := bankResetDone k (some b) s
    (v.ras.op = .none ∧ flag v Reg.MR_CMDST Fld.MR_CMDST_BUSY = false ∧
      flag v (Reg.MR_BSTAT k) Fld.MR_BSTAT_HOLD = false) ∧ ∀ g, g < 1168 → marked v g = marked s g := by
  obtain ⟨hfreed, -⟩ := bankEnded_effect k (fillBuffer k b (copyWords k (bankBase k) (bankSize k) s))
  rw [bankResetDone_migrate]
  refine ⟨hfreed, fun g hg => ?_⟩
  rw [marked_bankEnded hk, marked, rd_of_regs (regs_fillBuffer k b _), rd_copyWords, marked]
  · unfold Reg.MR_GRAN
    omega
  · intro h
    have := faultRegs_lt _ h
    unfold Reg.MR_GRAN at this
    omega
  · unfold Reg.MR_GRAN Reg.MR_BSTAT
    omega

/-! ## The scrubber (R302) and the error log (R303) -/

@[simp] theorem mem_scrubRead (u : Upset) (s : State) : (scrubRead u s).mem = s.mem := by
  unfold scrubRead
  split
  · dsimp only
    split
    · rw [mem_touchWord]
      split <;> simp
    · split <;> simp
  · rfl

/-- The state once the scrubber has moved on from the word at a. -/
def scrubMoved (a : Nat) (wrapped : Bool) (s : State) : State :=
  let s := if wrapped then incFld Reg.MR_SCSTAT Fld.MR_SCSTAT_PASSES s else s
  updRas (fun x => { x with
    scrub := a + 8, scrubAt := s.tb.ns + (fld s Reg.MR_CTRL Fld.MR_CTRL_RATE + 1) * 16 }) s

theorem touchWord_of_clean {m k a type size : Nat} {scrub : Bool} {s : State} (hw : wordWritten s k a = true)
    (hu : wordUpset s a = 0) : touchWord m k a type size scrub .none s = (s, .good) := by
  simp [touchWord, hw, strikeWord, hu]

/-- A read of a good word by the scrubber only moves it on. -/
theorem scrubRead_of_clean {s : State} {a j : Nat} {w : Bool} (ht : scrubTarget s = some (a, w))
    (hb : bankOf a = some j) (hw : wordWritten s j a = true) (hu : wordUpset s a = 0) :
    scrubRead .none s = scrubMoved a w s := by
  have hras : (scrubMoved a w s).ras.filled = s.ras.filled ∧ (scrubMoved a w s).ras.flips = s.ras.flips ∧
      (scrubMoved a w s).ras.upset = s.ras.upset := by
    unfold scrubMoved
    dsimp only
    split <;> simp
  obtain ⟨hfilled, hflips, hupset⟩ := hras
  have hclean : touchWord 131 j a 4 3 true .none (scrubMoved a w s) = (scrubMoved a w s, .good) :=
    touchWord_of_clean ((wordWritten_of_ras hfilled hflips j a).trans hw)
      (by rw [← hu, wordUpset, hupset, wordUpset])
  unfold scrubRead
  simp only [ht, hb, ← scrubMoved.eq_def, hclean]

theorem scrubMoved_effect (a : Nat) (w : Bool) (s : State) :
    let t := scrubMoved a w s
    KeepsRegs [Reg.MR_SCSTAT] s t ∧ t.ras.scrub = a + 8 ∧ t.ras.elog = s.ras.elog := by
  unfold scrubMoved
  dsimp only
  refine ⟨keepsRegs_updRas ?_ _, by simp, by split <;> simp⟩
  split
  · exact keepsRegs_setFld _ _ _ (keepsRegs_refl _ s) (by simp)
  · exact keepsRegs_refl _ s

theorem flagBit_eq_bitAt (w : Nat) : (getBits w ⟨31, 31⟩ != 0) = bitAt w 31 := by
  have hbit : getBits w ⟨31, 31⟩ = w / 2 ^ 31 % 2 := rfl
  rw [hbit, bitAt]
  rcases Nat.mod_two_eq_zero_or_one (w / 2 ^ 31) with h | h <;> rw [h] <;> rfl

/-- A read of MR_ELOG. -/
theorem elogRead_effect (s : State) :
    let t := elogRead s
    t.ras.elog = s.ras.elog.tail ∧ t.ras.elogDrop = 0 ∧ KeepsRegs [Reg.MR_ELOG, Reg.MR_ELOGA] s t ∧ t.mem = s.mem ∧
      (∀ x rest, s.ras.elog = x :: rest → rd t Reg.MR_ELOGA = x.addr % 2 ^ 32 ∧
        rd t Reg.MR_ELOG = elogWord x s.ras.elogDrop % 2 ^ 32) ∧
      (s.ras.elog = [] → rd t Reg.MR_ELOGA = rd s Reg.MR_ELOGA ∧ flag t Reg.MR_ELOG Fld.MR_ELOG_VALID =
        bitAt s.ras.elogDrop 31) := by
  have hne : Reg.MR_ELOG ≠ Reg.MR_ELOGA := by decide
  unfold elogRead
  cases hlog : s.ras.elog with
  | nil =>
    dsimp only
    refine ⟨by simp [hlog], by simp, keepsRegs_updRas (keepsRegs_wr _ _ (keepsRegs_refl _ s) (by simp)) _, by simp,
      fun x rest h => by simp at h, fun _ => ⟨?_, ?_⟩⟩
    · rw [rd_updRas, rd_wr_ne _ _ _ _ hne.symm]
    · rw [flag, fld_updRas, fld_wr_self _ _ _ _ (by decide) (by decide)]
      exact flagBit_eq_bitAt _
  | cons x rest =>
    dsimp only
    refine ⟨by simp, by simp, keepsRegs_updRas (keepsRegs_wr _ _ (keepsRegs_wr _ _ (keepsRegs_refl _ s) (by simp))
      (by simp)) _, by simp, fun y ys h => ?_, fun h => by simp at h⟩
    obtain ⟨rfl, rfl⟩ := List.cons.inj h
    rw [rd_updRas, rd_updRas, rd_wr_self, rd_wr_ne _ _ _ _ hne, rd_wr_self]
    exact ⟨rfl, rfl⟩

/-- Settles O47, a command at a time. -/
theorem memoryCommandsRun : Obligations.MemoryCommandsRun := by
  unfold Obligations.MemoryCommandsRun
  intro s m k u mig up st b held freed inBank
  refine ⟨fun hw => ⟨fun c op unit g hc hr => ?_, fun hr => ?_, fun hr => ?_, fun hr => ?_⟩,
    fun j p ha hj hop => ?_, fun j ha hj hop => ?_, fun j a ha hj hop => ?_, fun ha hdue => ?_, fun hr => ?_⟩
  -- MR_CMD
  · refine runs_of_eq (exec_mrCmd hw hc) ?_
    rw [mrCommand_of_refused hr]
    exact mrShown_effect (Nat.lt_of_le_of_lt (mrCheck_le _ _ _ _ _) (by decide)) s
  · refine runs_of_eq (regWriteBy_eq hw) ?_
    rw [mrCommand_retire hr]
    exact mrBegin_effect k.toNat _ s
  · refine runs_of_eq (regWriteBy_eq hw) ?_
    rw [mrCommand_brst hr]
    exact mrBegin_effect k.toNat _ s
  · refine runs_of_eq (regWriteBy_eq hw) ?_
    rw [mrCommand_rowadd hr]
    exact rowadd_effect k.toNat u.toNat s
  -- PAGE_RETIRE_DONE, BANK_RESET_DONE
  · have heq : execPageRetireDone s = .next (resume (retireDone j p s)) := by
      simp only [execPageRetireDone, hop, live_eq ha]
    obtain ⟨hfreed, hmem, htable⟩ := retireDone_effect j p s
    exact runs_of_eq heq ⟨rfl, hfreed, hmem, htable⟩
  · have heq : execBankResetDone s = .next (resume (bankResetDone j none s)) := by
      simp only [execBankResetDone, hop, live_eq ha]
    exact runs_of_eq heq ⟨rfl, bankDiscarded_effect hj s⟩
  · have heq : execBankResetDone s = .next (resume (bankResetDone j (some a) s)) := by
      simp only [execBankResetDone, hop, live_eq ha]
    exact runs_of_eq heq ⟨rfl, bankMigrated_effect hj a s⟩
  -- SCRUB_READ, MR_ELOG_READ
  · refine runs_of_eq (live_eq ha hdue) ⟨rfl, mem_scrubRead up s, fun a w j hup htarget hbank hwritten hclean => ?_⟩
    rw [hup, scrubRead_of_clean htarget hbank hwritten hclean]
    exact scrubMoved_effect a w s
  · exact runs_of_eq (regReadBy_eq hr) (elogRead_effect s)

end Sys2Proof.Machine
end

section
/-! Lyheuf messages: the fields of a frame, the checks that find them, and a repeat (R324 to R327). -/

namespace Sys2Proof.Machine

/-! ## Bytes and numbers (R9) -/

theorem length_toBytes (n w : Nat) : (toBytes n w).length = n := by
  induction n generalizing w with
  | zero => rfl
  | succ n ih => rw [toBytes, List.length_cons, ih]

theorem fromBytes_toBytes (n w : Nat) : fromBytes (toBytes n w) = w % 256 ^ n := by
  induction n generalizing w with
  | zero => rw [Nat.pow_zero, Nat.mod_one]; rfl
  | succ n ih =>
    have hstep : fromBytes (toBytes (n + 1) w) = w % 256 % 256 + 256 * fromBytes (toBytes n (w / 256)) := rfl
    rw [hstep, ih, Nat.pow_succ', Nat.mod_mul, Nat.mod_mod]

theorem fromBytes_toBytes_two {w : Nat} (h : w < 65536) : fromBytes (toBytes 2 w) = w :=
  (fromBytes_toBytes 2 w).trans (Nat.mod_eq_of_lt h)

/-! ## The CRC-32 (R324) -/

theorem crc32Bit_lt {c : Nat} (h : c < 2 ^ 32) : crc32Bit c < 2 ^ 32 := by
  unfold crc32Bit
  split
  · exact Nat.xor_lt_two_pow (by omega) (by decide)
  · omega

theorem crc32Byte_lt {c : Nat} (h : c < 2 ^ 32) (b : Nat) : crc32Byte c b < 2 ^ 32 := by
  have hbits (xs : List Nat) : ∀ c < 2 ^ 32, xs.foldl (fun c _ => crc32Bit c) c < 2 ^ 32 := by
    induction xs with
    | nil => exact fun _ h => h
    | cons x xs ih => exact fun c h => ih _ (crc32Bit_lt h)
  exact hbits _ _ (Nat.xor_lt_two_pow h (by omega))

theorem crc32_lt (bs : List Nat) : crc32 bs < 2 ^ 32 := by
  have hbytes : ∀ c < 2 ^ 32, bs.foldl crc32Byte c < 2 ^ 32 := by
    induction bs with
    | nil => exact fun _ h => h
    | cons b bs ih => exact fun c h => ih _ (crc32Byte_lt h b)
  exact Nat.xor_lt_two_pow (hbytes _ (by decide)) (by decide)

/-! ## The fields of a frame (R324) -/

/-- A frame with its header, its payload and any four bytes where its CRC stands. -/
def frame (x seq op flags st : Nat) (payload : List Nat) (c : Nat) : List Nat :=
  header x seq op flags payload.length st ++ (payload ++ toBytes 4 c)

theorem message_eq (x seq op flags st : Nat) (payload : List Nat) : message x seq op flags st payload =
    frame x seq op flags st payload (crc32 (header x seq op flags payload.length st ++ payload)) :=
  List.append_assoc ..

section
variable {x seq op flags st c : Nat} {payload : List Nat}

theorem length_frame : (frame x seq op flags st payload c).length = 20 + payload.length := by
  rw [frame, List.length_append, List.length_append, length_toBytes]
  show 16 + _ = _
  omega

theorem frame_version : le (frame x seq op flags st payload c) 0 1 = 1 := rfl

theorem frame_session (hx : x < 256) : le (frame x seq op flags st payload c) 1 1 = x := by
  have h : le (frame x seq op flags st payload c) 1 1 = x % 256 + 256 * 0 := rfl
  omega

theorem frame_seq (h : seq < 65536) : le (frame x seq op flags st payload c) 2 2 = seq :=
  fromBytes_toBytes_two h

theorem frame_op (h : op < 65536) : le (frame x seq op flags st payload c) 4 2 = op :=
  fromBytes_toBytes_two h

theorem frame_flags (h : flags < 65536) : le (frame x seq op flags st payload c) 6 2 = flags :=
  fromBytes_toBytes_two h

theorem frame_length (h : payload.length < 65536) : le (frame x seq op flags st payload c) 8 2 = payload.length :=
  fromBytes_toBytes_two h

theorem frame_status (h : st < 65536) : le (frame x seq op flags st payload c) 0x0A 2 = st :=
  fromBytes_toBytes_two h

theorem frame_reserved : le (frame x seq op flags st payload c) 0x0C 4 = 0 ∧
    blank (frame x seq op flags st payload c) 0x0C 4 = true := ⟨rfl, rfl⟩

theorem frame_drop : (frame x seq op flags st payload c).drop 16 = payload ++ toBytes 4 c := rfl

theorem frame_payload : cut (frame x seq op flags st payload c) 16 payload.length = payload := by
  rw [cut, frame_drop, List.take_left]

theorem frame_take : (frame x seq op flags st payload c).take (16 + payload.length) =
    header x seq op flags payload.length st ++ payload := by
  rw [frame, ← List.append_assoc]
  exact List.take_left' (by rw [List.length_append]; rfl)

theorem frame_crc (h : c < 2 ^ 32) : le (frame x seq op flags st payload c) (16 + payload.length) 4 = c := by
  rw [le, ← List.drop_drop, frame_drop, List.drop_left, List.take_of_length_le (by rw [length_toBytes]),
    fromBytes_toBytes]
  exact Nat.mod_eq_of_lt h

end

/-! ## The checks of a request (R325) -/

/-- The STATUS that the checks give a request. -/
def checkCode (s : State) (x : Nat) (bs : List Nat) : Option Nat := (checkRequest s x bs).map (·.1)

/-- A STATUS that says that a frame is not well formed. -/
def IsFrameFault (c : Option Nat) : Prop := c = some stBADVER ∨ c = some stBADLEN ∨ c = some stBADCRC

theorem checkCode_of_badver {s : State} {x : Nat} {bs : List Nat} (h : le bs 0 1 ≠ 1) :
    checkCode s x bs = some stBADVER := by
  unfold checkCode checkRequest
  dsimp only
  rw [if_pos h]
  rfl

section
variable {s : State} {x y seq op flags st c : Nat} {payload : List Nat}

theorem checkCode_of_flags (hflags : flags < 65536) (h : 4 ≤ flags) :
    checkCode s y (frame x seq op flags st payload c) = some stBADLEN := by
  unfold checkCode checkRequest
  dsimp only
  rw [if_neg (not_not_intro frame_version), if_pos (by simp [frame_flags hflags, h])]
  rfl

variable (hlen : payload.length ≤ 4064) (hflags : flags < 4)
include hlen hflags

/-- No length, flag or reserved byte of such a frame is refused. -/
theorem frame_lengths_pass : ¬(4064 < le (frame x seq op flags st payload c) 8 2 ∨
    4 ≤ le (frame x seq op flags st payload c) 6 2 ∨ ¬blank (frame x seq op flags st payload c) 0x0C 4 = true) := by
  rw [frame_length (by omega), frame_flags (by omega), frame_reserved.2]
  simp
  omega

theorem checkCode_of_badcrc (hc : c < 2 ^ 32) (h : c ≠ crc32 (header x seq op flags payload.length st ++ payload)) :
    checkCode s y (frame x seq op flags st payload c) = some stBADCRC := by
  unfold checkCode checkRequest
  dsimp only
  rw [if_neg (not_not_intro frame_version), if_neg (frame_lengths_pass hlen hflags), frame_length (by omega),
    frame_take, frame_crc hc, if_pos h.symm]
  rfl

/-- A message is well framed in the window of its own session, and in no other. -/
theorem checkRequest_message (hx : x < 256) :
    (x ≠ y → checkRequest s y (message x seq op flags st payload) = some (stBADLEN, false)) ∧
    (x = y → ¬IsFrameFault (checkCode s y (message x seq op flags st payload))) := by
  rw [message_eq]
  unfold checkCode checkRequest
  dsimp only
  rw [if_neg (not_not_intro frame_version), if_neg (frame_lengths_pass hlen hflags), frame_length (by omega),
    frame_take, frame_crc (crc32_lt _), if_neg (not_not_intro rfl), frame_session hx]
  refine ⟨fun h => if_pos h, fun h => ?_⟩
  rw [if_neg (not_not_intro h)]
  unfold IsFrameFault
  split
  · decide
  · split
    · decide
    · (repeat' split) <;> decide

end

/-! ## Requests taken (R323, R327) -/

/-- The state in which session x's request is looked at. -/
def requestSeen (x : Nat) (s : State) : State :=
  s |> setPhase x 2 |> updSess x (fun y => { y with reqAt := s.tb.ns, ready := none })

/-- A request refused in another session's window is answered with its own SESSION. -/
theorem takeRequest_of_refused {y x seq op flags st : Nat} {payload : List Nat} {s : State}
    (hx : x < 256) (hseq : seq < 65536) (hop : op < 65536)
    (h : ∀ s, checkRequest s y (message x seq op flags st payload) = some (stBADLEN, false)) :
    (sessOf (takeRequest y (message x seq op flags st payload) s) y).ready.map
      (fun z => (z.session, z.seq, z.op, z.status)) = some (x, seq, op, stBADLEN) := by
  have hsession : le (message x seq op flags st payload) 1 1 = x := by rw [message_eq, frame_session hx]
  have hseq' : le (message x seq op flags st payload) 2 2 = seq := by rw [message_eq, frame_seq hseq]
  have hop' : le (message x seq op flags st payload) 4 2 = op := by rw [message_eq, frame_op hop]
  unfold takeRequest
  simp only [h, hsession, hseq', hop']
  simp [stBADLEN, sessOf_updSess]

/-- A repeat is answered by the stored message. -/
theorem takeRequest_of_repeat {x : Nat} {bs : List Nat} {s : State}
    (hframed : ¬IsFrameFault (checkCode (requestSeen x s) x bs)) (hrep : repeats (requestSeen x s) x bs = true) :
    takeRequest x bs s = updSess x (fun y => { y with
      req := some { session := le bs 1 1, seq := le bs 2 2, op := le bs 4 2, payload := [] },
      ready := some { session := le bs 1 1, seq := le bs 2 2, op := le bs 4 2, flags := le y.stored 6 2,
                      status := le y.stored 0x0A 2, payload := cut y.stored 16 (le y.stored 8 2), done := true,
                      rail := 0 } }) (requestSeen x s) := by
  have hok : ((checkRequest (requestSeen x s) x bs).isNone || ((checkRequest (requestSeen x s) x bs).elim false
      fun c => c.1 != stBADVER && c.1 != stBADLEN && c.1 != stBADCRC)) = true := by
    cases hc : checkRequest (requestSeen x s) x bs with
    | none => rfl
    | some c =>
      have hcode : checkCode (requestSeen x s) x bs = some c.1 := by rw [checkCode, hc, Option.map_some]
      rw [hcode] at hframed
      simpa [IsFrameFault, and_assoc] using hframed
  unfold takeRequest
  simp only [← requestSeen.eq_def, hok, hrep, Bool.and_self, if_true]

theorem sessOf_requestSeen (x : Nat) (s : State) :
    sessOf (requestSeen x s) x = { sessOf s x with reqAt := s.tb.ns, ready := none } := by
  have hphase : sessOf (setPhase x 2 s) x = sessOf s x := rfl
  rw [requestSeen, sessOf_updSess, if_pos rfl, hphase]

theorem fld_requestSeen {x : Nat} {s : State} {f : Bits} (hf : f.lo ≤ f.hi) (d : f.hi < 4 ∨ 5 < f.lo) :
    fld (requestSeen x s) (Reg.MB_SESS x) f = fld s (Reg.MB_SESS x) f := by
  rw [requestSeen, fld_updSess]
  exact fld_setFld_other _ _ _ _ _ (by decide) (by decide) hf d

/-- A request that names the last completed one repeats it. -/
theorem repeats_requestSeen {x : Nat} {bs : List Nat} {s : State} (hstate : sessState s x ≠ 0)
    (hstored : (sessOf s x).stored ≠ []) (hseq : le bs 2 2 = fld s (Reg.MB_SESS x) Fld.MB_SESS_SEQ)
    (hop : le bs 4 2 = (sessOf s x).lastOp) : repeats (requestSeen x s) x bs = true := by
  have hstate' : sessState (requestSeen x s) x = sessState s x := fld_requestSeen (by decide) (by decide)
  unfold repeats
  simp only [hstate', sessOf_requestSeen, fld_requestSeen (f := Fld.MB_SESS_SEQ) (by decide) (by decide)]
  simp [hstate, hstored, hseq, hop]

/-- The repeat shows in the session's phase alone, and its answer is the stored message's. -/
theorem takeRequest_repeat_effect {x : Nat} {bs : List Nat} {s : State}
    (hframed : ¬IsFrameFault (checkCode (requestSeen x s) x bs)) (hrep : repeats (requestSeen x s) x bs = true) :
    let t := takeRequest x bs s
    KeepsRegs [Reg.MB_SESS x] s t ∧ t.mem = s.mem ∧ (sessOf t x).nonce = (sessOf s x).nonce ∧
      (sessOf t x).ready.map (fun y => (y.session, y.seq, y.op, y.status, y.payload)) = some (le bs 1 1, le bs 2 2,
        le bs 4 2, le (sessOf s x).stored 0x0A 2, cut (sessOf s x).stored 16 (le (sessOf s x).stored 8 2)) := by
  have hseen : KeepsRegs [Reg.MB_SESS x] s (requestSeen x s) :=
    keepsRegs_updSess (keepsRegs_setFld _ _ _ (keepsRegs_refl _ s) (by simp)) x _
  rw [takeRequest_of_repeat hframed hrep]
  refine ⟨keepsRegs_updSess hseen x _, by simp [requestSeen, setPhase], ?_, ?_⟩
  · rw [sessOf_updSess, if_pos rfl, sessOf_requestSeen]
  · rw [sessOf_updSess, if_pos rfl, sessOf_requestSeen]
    rfl

/-- Settles O53: the fields, the checks, and a repeat. -/
theorem lyheufFramesAreChecked : Obligations.LyheufFramesAreChecked := by
  unfold Obligations.LyheufFramesAreChecked
  refine ⟨fun s x seq op flags st payload hx hseq hop hflags hst hlen hbytes => ?_, by decide +kernel⟩
  intro bs n code
  have hbs : bs = frame x seq op flags st payload (crc32 (header x seq op flags payload.length st ++ payload)) :=
    message_eq ..
  have htake : bs.take (16 + n) = header x seq op flags payload.length st ++ payload := by rw [hbs, frame_take]
  have hcode (y : Nat) (ws : List Nat) : code y ws = checkCode s y ws := rfl
  have hcheck (s : State) (y : Nat) (h : flags < 4) := checkRequest_message (s := s) (y := y) (x := x) (seq := seq)
    (op := op) (st := st) hlen h (by omega)
  refine ⟨by rw [hbs, length_frame], by rw [hbs, frame_version], by rw [hbs, frame_session (by omega)],
    by rw [hbs, frame_seq hseq], by rw [hbs, frame_op hop], by rw [hbs, frame_flags hflags],
    by rw [hbs, frame_length (by omega)], by rw [hbs, frame_status hst], by rw [hbs, frame_reserved.1],
    by rw [hbs, frame_payload], by rw [htake, hbs, frame_crc (crc32_lt _)], fun h => ?_, fun h => ?_,
    fun y hy h => ⟨?_, ?_⟩, fun v hv hv256 => ?_, fun c hc hc32 h => ?_, fun h hstate hstored hlast hlastOp => ?_⟩
  · have hframed := (hcheck s x h).2 rfl
    rw [IsFrameFault, not_or, not_or] at hframed
    exact hframed
  · rw [hcode, hbs]
    exact checkCode_of_flags hflags h
  · rw [hcode, checkCode, (hcheck s y h).1 hy.symm, Option.map_some]
  · exact takeRequest_of_refused (by omega) hseq hop fun s => (hcheck s y h).1 hy.symm
  · have hversion : le (v :: bs.drop 1) 0 1 = v % 256 + 256 * 0 := rfl
    exact checkCode_of_badver (by omega)
  · rw [htake] at hc ⊢
    rw [hcode, List.append_assoc]
    exact checkCode_of_badcrc hlen h hc32 hc
  · have hrep := repeats_requestSeen (bs := bs) hstate hstored (by rw [hbs, frame_seq hseq, hlast])
      (by rw [hbs, frame_op hop, hlastOp])
    have heffect := takeRequest_repeat_effect ((hcheck _ x h).2 rfl) hrep
    rwa [message_eq, frame_session (by omega), frame_seq hseq, frame_op hop, ← message_eq] at heffect

end Sys2Proof.Machine
end

section
/-! A read of TM_CAPPOP with no capture and a count of drops that no register holds (R278). -/

namespace Sys2Proof.Machine

/-- A device out of reset whose timer 0 of quire 0 has an empty capture queue and counts 2^32 drops, which the register
that shows the count cannot hold. -/
def overfullDrops : State :=
  updTimer 0 0 (fun x => { x with drop := 2 ^ 32 }) { State.reset with tb := { TimeBase.init with hold := .none } }

theorem canRead_overfullDrops : CanRead overfullDrops (.foreman 0) (Reg.TM_CAPPOP 0 0) :=
  ⟨by decide +kernel, by decide +kernel⟩

theorem drop_overfullDrops : (timerOf overfullDrops 0 0).drop = 2 ^ 32 := by decide +kernel

theorem queue_overfullDrops : (timerOf overfullDrops 0 0).queue = [] := by decide +kernel

/-- Refutes O43: a read of an empty TM_CAPPOP is to show the count of drops whatever it is, and a register of 32 bits
shows no count of 2^32. -/
theorem not_timerCommandsRun : ¬ Obligations.TimerCommandsRun := by
  unfold Obligations.TimerCommandsRun
  intro h
  obtain ⟨-, -, -, -, hcappop, -⟩ := h overfullDrops (.foreman 0) 0 0 0 0 0 true
  obtain ⟨t, -, -, -, hempty⟩ := hcappop canRead_overfullDrops
  have hold : (timerOf overfullDrops 0 0).queue.take
      ((timerOf overfullDrops 0 0).queue.length - (freshCapture overfullDrops 0 0).length) = [] := by
    rw [queue_overfullDrops, List.take_nil]
  obtain ⟨-, hshown, -⟩ := hempty hold
  have hshown' : rd t (Reg.TM_CAPPOP 0 0) = 2 ^ 32 := hshown.trans drop_overfullDrops
  have hlt := rd_lt t (Reg.TM_CAPPOP 0 0)
  omega

end Sys2Proof.Machine
end

section
/-! The security block: fuse commands, jobs and the lock (R348, R351, R365). -/

namespace Sys2Proof.Machine

@[simp] theorem otp_updOtp (f : Otp → Otp) (s : State) : (updOtp f s).otp = f s.otp := (rfl)
@[simp] theorem frm_updFrm (f : Foreman → Foreman) (s : State) : (updFrm f s).frm = f s.frm := (rfl)

/-! ## The registers that show the fuses -/

/-- The registers that show the fuses. -/
def otpRegs : List Nat :=
  Reg.SC_OTP :: ((List.range 16).map Reg.SC_OWNER ++ (List.range 4).flatMap fun i => (List.range 16).map (Reg.SC_ROOT i))

theorem keepsRegs_showDigest {as : List Nat} {a : Nat} (h : ∀ w, w < 16 → a + 4 * w ∈ as) (d : List Nat) (s : State) :
    KeepsRegs as s (showDigest a d s) :=
  keepsRegs_forAll _ (fun w hw s => keepsRegs_wr _ _ (keepsRegs_refl _ s) (h w (by simpa using hw))) s

theorem keepsRegs_showOtp (s : State) : KeepsRegs otpRegs s (showOtp s) := by
  unfold showOtp
  dsimp only
  have hroots : ∀ i ∈ List.range 4, ∀ s : State,
      KeepsRegs otpRegs s (showDigest (Reg.SC_ROOT i 0) (slotDigest s i) s) := fun i hi s =>
    keepsRegs_showDigest (fun w hw => List.mem_cons_of_mem _ (List.mem_append_right _
      (List.mem_flatMap.mpr ⟨i, hi, List.mem_map.mpr ⟨w, by simpa using hw, by simp [Reg.SC_ROOT]⟩⟩))) _ s
  refine keepsRegs_trans ?_ (keepsRegs_showDigest (fun w hw => List.mem_cons_of_mem _ (List.mem_append_left _
    (List.mem_map.mpr ⟨w, by simpa using hw, by simp [Reg.SC_OWNER]⟩))) _ _)
  refine keepsRegs_trans ?_ (keepsRegs_forAll _ hroots _)
  have hotp : Reg.SC_OTP ∈ otpRegs := List.mem_cons_self
  exact keepsRegs_setFlag _ _ _ (keepsRegs_setFlag _ _ _ (keepsRegs_setFld _ _ _ (keepsRegs_setFld _ _ _
    (keepsRegs_refl _ s) hotp) hotp) hotp) hotp

theorem showDigest_keeps (a : Nat) (d : List Nat) (s : State) :
    (showDigest a d s).otp = s.otp ∧ (showDigest a d s).mem = s.mem :=
  ⟨forAll_keeps State.otp _ (fun _ _ => by simp) s, forAll_keeps State.mem _ (fun _ _ => by simp) s⟩

@[simp] theorem showOtp_otp (s : State) : (showOtp s).otp = s.otp := by
  unfold showOtp
  dsimp only
  rw [(showDigest_keeps _ _ _).1, forAll_keeps State.otp _ (fun _ _ => (showDigest_keeps _ _ _).1)]
  simp

@[simp] theorem showOtp_mem (s : State) : (showOtp s).mem = s.mem := by
  unfold showOtp
  dsimp only
  rw [(showDigest_keeps _ _ _).2, forAll_keeps State.mem _ (fun _ _ => (showDigest_keeps _ _ _).2)]
  simp

/-! ## SC_CMD (R348, R365) -/

theorem scCheck_le (s : State) (op a : Nat) : scCheck s op a ≤ 4 := by
  unfold scCheck
  (repeat' split) <;> omega

theorem exec_scCmd {s : State} {m : Master} {arg : BitVec 8} {c : Instr} {op a : Nat} (hw : CanWrite s m Reg.SC_CMD)
    (hc : (c, op, a) ∈ [(Instr.scArbset m arg, 1, arg.toNat % 128), (.scRevoke m arg, 2, arg.toNat % 128),
      (.scOwnerprog m, 3, 0)]) : exec c s = .next (scCommand op a s) := by
  simp only [List.mem_cons, List.not_mem_nil, or_false, Prod.mk.injEq] at hc
  rcases hc with ⟨rfl, rfl, rfl⟩ | ⟨rfl, rfl, rfl⟩ | ⟨rfl, rfl, rfl⟩
  all_goals exact regWriteBy_eq hw

/-- The state with the result of a fuse command shown. -/
def scShown (r : Nat) (s : State) : State := setFld Reg.SC_CMDST Fld.SC_CMDST_RESULT r s

theorem scShown_effect {r : Nat} (hr : r < 16) (s : State) :
    fld (scShown r s) Reg.SC_CMDST Fld.SC_CMDST_RESULT = r ∧ OnlyRegs [Reg.SC_CMDST] s (scShown r s) :=
  ⟨(fld_setFld_self _ _ _ _ (by decide) (by decide)).trans (Nat.mod_eq_of_lt hr),
    onlyRegs_setFld _ _ _ (onlyRegs_refl _ s) (by simp)⟩

theorem scCommand_of_refused {s : State} {op a : Nat} (h : scCheck s op a ≠ 0) :
    scCommand op a s = scShown (scCheck s op a) s := by
  simp [scCommand, h, scShown]

theorem scCommand_of_accepted {s : State} {op a : Nat} (h : scCheck s op a = 0) :
    scCommand op a s =
      updOtp (fun o => { o with op := op, arg := a }) (setFlag Reg.SC_CMDST Fld.SC_CMDST_BUSY true (scShown 0 s)) := by
  simp [scCommand, h, scShown]

/-- A fuse command that is accepted is BUSY, and no fuse has blown. -/
theorem scCommand_accepted_effect {s : State} {op a : Nat} (h : scCheck s op a = 0) :
    let t := scCommand op a s
    flag t Reg.SC_CMDST Fld.SC_CMDST_BUSY = true ∧ fld t Reg.SC_CMDST Fld.SC_CMDST_RESULT = 0 ∧
      t.otp = { s.otp with op := op, arg := a } ∧ KeepsRegs [Reg.SC_CMDST] s t ∧ t.mem = s.mem := by
  rw [scCommand_of_accepted h]
  refine ⟨?_, ?_, by simp [scShown], ?_, by simp [scShown]⟩
  · rw [flag, fld_updOtp, ← flag]
    exact flag_setFlag_self _ _ _ _ (by decide) (by decide)
  · rw [fld_updOtp, setFlag, fld_setFld_other _ _ _ _ _ (by decide) (by decide) (by decide) (by decide)]
    exact (scShown_effect (by decide) s).1
  · exact keepsRegs_updOtp (keepsRegs_setFlag _ _ _ (scShown_effect (by decide) s).2.1 (by simp)) _

/-! ## The end of a fuse command (R348, R365) -/

theorem bitAt_or_pow (w k : Nat) : bitAt (w ||| 2 ^ k) k = true := by
  rw [bitAt_eq_testBit, Nat.testBit_or, Nat.testBit_two_pow_self, Bool.or_true]

theorem blowFuses_keeps (s : State) : (blowFuses s).regs = s.regs ∧ (blowFuses s).mem = s.mem := by
  unfold blowFuses
  split <;> simp

/-- What a good end blows. -/
theorem blowFuses_effect (s : State) : (s.otp.op = 1 → (blowFuses s).otp.arb = max s.otp.arb s.otp.arg) ∧
    (s.otp.op = 2 → bitAt (blowFuses s).otp.rev s.otp.arg = true) ∧
    (s.otp.op = 3 → s.otp.owner = false →
      (blowFuses s).otp.owner = true ∧ (blowFuses s).otp.ownerDigest = scData s) := by
  refine ⟨fun h => by simp [blowFuses, h], fun h => by simp [blowFuses, h, bitAt_or_pow], fun h howner => ?_⟩
  simp [blowFuses, h, howner]

theorem failFuses_keeps (s : State) : (failFuses s).regs = s.regs ∧ (failFuses s).mem = s.mem := by
  unfold failFuses
  split <;> simp

/-- A failed blow leaves the other fuses, and ARB between what it was and what was asked for. -/
theorem failFuses_effect (s : State) : (failFuses s).otp.rev = s.otp.rev ∧ (failFuses s).otp.owner = s.otp.owner ∧
    s.otp.arb ≤ (failFuses s).otp.arb ∧ (failFuses s).otp.arb ≤ max s.otp.arb s.otp.arg := by
  unfold failFuses
  split
  next h =>
    have hlt := Nat.mod_lt (Config.freeWord s.fresh).toNat (show 0 < s.otp.arg - s.otp.arb by omega)
    simp only [otp_updOtp, spend_keeps]
    refine ⟨trivial, trivial, by omega, by omega⟩
  · simp

/-- The fuses as the end of a fuse command leaves them. -/
def fuseEnd (ok : Bool) (s : State) : State := if ok then blowFuses s else failFuses s

theorem fuseEnd_keeps (ok : Bool) (s : State) : (fuseEnd ok s).regs = s.regs ∧ (fuseEnd ok s).mem = s.mem := by
  cases ok
  · exact failFuses_keeps s
  · exact blowFuses_keeps s

theorem fuseDone_eq (ok : Bool) (s : State) : fuseDone ok s =
    setFld Reg.SC_CMDST Fld.SC_CMDST_RESULT (if ok then 0 else 5) (setFlag Reg.SC_CMDST Fld.SC_CMDST_BUSY false
      (showOtp (updOtp (fun o => { o with op := 0, arg := 0 }) (fuseEnd ok s)))) := by
  unfold fuseDone fuseEnd
  rfl

/-- The end of a fuse command shows its fuses and its RESULT. -/
theorem fuseDone_effect (ok : Bool) (s : State) :
    let t := fuseDone ok s
    t.otp = { (fuseEnd ok s).otp with op := 0, arg := 0 } ∧ KeepsRegs (Reg.SC_CMDST :: otpRegs) s t ∧
      flag t Reg.SC_CMDST Fld.SC_CMDST_BUSY = false ∧
      fld t Reg.SC_CMDST Fld.SC_CMDST_RESULT = (if ok then 0 else 5) ∧ t.mem = s.mem := by
  rw [fuseDone_eq]
  obtain ⟨hregs, hmem⟩ := fuseEnd_keeps ok s
  refine ⟨by simp, ?_, ?_, ?_, by simp [hmem]⟩
  · have hshown : KeepsRegs otpRegs s (showOtp (updOtp (fun o => { o with op := 0, arg := 0 }) (fuseEnd ok s))) :=
      keepsRegs_trans (keepsRegs_of_regs (keepsRegs_refl _ s) (by simp [hregs])) (keepsRegs_showOtp _)
    exact keepsRegs_setFld _ _ _ (keepsRegs_setFlag _ _ _ (keepsRegs_mono (fun _ => List.mem_cons_of_mem _) hshown)
      List.mem_cons_self) List.mem_cons_self
  · exact (flag_of_fld_eq (fld_setFld_other _ _ _ _ _ (by decide) (by decide) (by decide) (by decide))).trans
      (flag_setFlag_self _ _ _ _ (by decide) (by decide))
  · rw [fld_setFld_self _ _ _ _ (by decide) (by decide)]
    cases ok <;> rfl

/-! ## SC_JOB (R351, R365) -/

/-- A run of bytes that is read keeps every byte of memory. -/
theorem mem_loadBytes (m a n : Nat) (s : State) : (loadBytes m a n s).1.mem = s.mem := by
  unfold loadBytes
  generalize List.range ((a % 8 + n + 7) / 8) = is
  have hstep : ∀ x : State × List Nat × Bool, x.1.mem = s.mem → ∀ (f : State × List Nat × Bool → Nat → State × List Nat × Bool),
      (∀ y i, (f y i).1.mem = y.1.mem) → (is.foldl f x).1.mem = s.mem := by
    intro x hx f hf
    induction is generalizing x with
    | nil => exact hx
    | cons i is ih => exact ih (f x i) ((hf x i).trans hx)
  refine hstep (s, [], true) rfl _ fun y i => ?_
  dsimp only
  split
  · exact mem_touchWord _ _ _ _ _ _ _ _
  · rfl

theorem mem_jobRead (a n : Nat) (s : State) : (jobRead a n s).1.mem = s.mem := by
  unfold jobRead
  split
  · exact mem_report _ s
  · exact mem_loadBytes _ _ _ s

theorem mem_jobMessage (s : State) : (jobMessage s).1.mem = s.mem := by
  unfold jobMessage
  dsimp only
  split
  · rfl
  · exact mem_jobRead _ _ s

theorem jobStart_effect (op dst : Nat) (bs : List Nat) (r : Nat) (s : State) :
    let t := jobStart op dst bs r s
    flag t Reg.SC_JOB Fld.SC_JOB_BUSY = true ∧ t.frm.job = op ∧ t.mem = s.mem := by
  unfold jobStart
  refine ⟨?_, by simp, by simp⟩
  rw [flag, fld_updFrm, ← flag]
  exact flag_setFlag_self _ _ _ _ (by decide) (by decide)

/-- A job starts on what it has read, and reading changed no byte. -/
theorem jobRun_starts {op : Nat} (hop : op = 1 ∨ op = 2 ∨ op = 3) (s : State) :
    ∃ dst bs r u, jobRun op s = jobStart op dst bs r u ∧ u.mem = s.mem := by
  have hmsg := mem_jobMessage s
  rcases hop with rfl | rfl | rfl
  · simp only [jobRun, jobSha3]
    generalize jobMessage s = x at hmsg ⊢
    exact ⟨_, _, _, x.1, rfl, hmsg⟩
  · simp only [jobRun, jobVerify]
    generalize jobMessage s = x at hmsg ⊢
    have hkey := mem_jobRead (rd x.1 Reg.SC_JKEY) 2592 x.1
    generalize jobRead (rd x.1 Reg.SC_JKEY) 2592 x.1 = k at hkey ⊢
    have hsig := mem_jobRead (rd k.1 Reg.SC_JSIG) 4627 k.1
    generalize jobRead (rd k.1 Reg.SC_JSIG) 4627 k.1 = g at hsig ⊢
    exact ⟨_, _, _, g.1, rfl, hsig.trans (hkey.trans hmsg)⟩
  · simp only [jobRun, jobSign]
    generalize jobMessage s = x at hmsg ⊢
    exact ⟨_, _, _, spend x.1, rfl, by simpa using hmsg⟩

/-- A job that has read what it works on is BUSY, and changed no byte. -/
theorem jobRun_effect {op : Nat} (hop : op = 1 ∨ op = 2 ∨ op = 3) (s : State) :
    let t := jobRun op s
    flag t Reg.SC_JOB Fld.SC_JOB_BUSY = true ∧ t.frm.job = op ∧ t.mem = s.mem := by
  obtain ⟨dst, bs, r, u, hrun, hmem⟩ := jobRun_starts hop s
  obtain ⟨hbusy, hjob, hstart⟩ := jobStart_effect op dst bs r u
  rw [hrun]
  exact ⟨hbusy, hjob, hstart.trans hmem⟩

theorem scJob_of_busy {s : State} (op : Nat) (h : flag s Reg.SC_JOB Fld.SC_JOB_BUSY = true) :
    scJob op s = setFld Reg.SC_JOB Fld.SC_JOB_RESULT 3 s := by
  simp [scJob, h]

theorem scJob_of_held {s : State} {op : Nat} (hop : op = 1 ∨ op = 2 ∨ op = 3)
    (h : flag s Reg.SC_JOB Fld.SC_JOB_BUSY = false) (hheld : jobHeld s op = true) :
    scJob op s =
      updFrm (fun f => { f with job := op, jobWait := true }) (setFlag Reg.SC_JOB Fld.SC_JOB_BUSY true s) := by
  rcases hop with rfl | rfl | rfl <;> simp [scJob, h, hheld]

theorem scJob_of_free {s : State} {op : Nat} (h : flag s Reg.SC_JOB Fld.SC_JOB_BUSY = false)
    (hheld : jobHeld s op = false) : scJob op s = jobRun op s := by
  simp [scJob, h, hheld]

/-- A job that waits for memory is BUSY. -/
theorem jobWait_effect (op : Nat) (s : State) :
    let t := updFrm (fun f => { f with job := op, jobWait := true }) (setFlag Reg.SC_JOB Fld.SC_JOB_BUSY true s)
    flag t Reg.SC_JOB Fld.SC_JOB_BUSY = true ∧ t.frm.job = op ∧ t.frm.jobWait = true ∧
      KeepsRegs [Reg.SC_JOB] s t ∧ t.mem = s.mem := by
  refine ⟨?_, by simp, by simp, ?_, by simp⟩
  · rw [flag, fld_updFrm, ← flag]
    exact flag_setFlag_self _ _ _ _ (by decide) (by decide)
  · exact keepsRegs_updFrm (keepsRegs_setFlag _ _ _ (keepsRegs_refl _ s) (by simp)) _

theorem exec_scJob {s : State} {m : Master} {c : Instr} {op : Nat} {t : State} (hw : CanWrite s m Reg.SC_JOB)
    (hc : (c, op, t) ∈ [(Instr.scSha3 m, 1, jobSha3 s), (.scVerify m, 2, jobVerify s), (.scSign m, 3, jobSign s)]) :
    exec c s = .next (scJob op s) ∧ (op = 1 ∨ op = 2 ∨ op = 3) ∧ jobRun op s = t := by
  simp only [List.mem_cons, List.not_mem_nil, or_false, Prod.mk.injEq] at hc
  rcases hc with ⟨hc, hop, ht⟩ | ⟨hc, hop, ht⟩ | ⟨hc, hop, ht⟩
  all_goals
    subst hc hop
    rw [ht]
    exact ⟨regWriteBy_eq hw, by simp, by rw [jobRun]⟩

theorem jobDone_eq (s : State) : jobDone s =
    updFrm (fun f => { f with job := 0, jobDst := 0, jobOut := [], jobResult := 0 })
      (setFld Reg.SC_JOB Fld.SC_JOB_RESULT (if (jobWrite s).2 then s.frm.jobResult else 2)
        (setFlag Reg.SC_JOB Fld.SC_JOB_BUSY false (jobWrite s).1)) := by
  unfold jobDone
  rfl

/-- The end of a job shows its RESULT where what it made could be written. -/
theorem jobDone_effect {s : State} (h : s.frm.jobResult < 16) :
    let t := jobDone s
    flag t Reg.SC_JOB Fld.SC_JOB_BUSY = false ∧ t.frm.job = 0 ∧
      fld t Reg.SC_JOB Fld.SC_JOB_RESULT = (if (jobWrite s).2 then s.frm.jobResult else 2) ∧
      t.mem = (jobWrite s).1.mem := by
  rw [jobDone_eq]
  refine ⟨?_, by simp, ?_, by simp⟩
  · rw [flag, fld_updFrm, ← flag]
    exact (flag_of_fld_eq (fld_setFld_other _ _ _ _ _ (by decide) (by decide) (by decide) (by decide))).trans
      (flag_setFlag_self _ _ _ _ (by decide) (by decide))
  · rw [fld_updFrm, fld_setFld_self _ _ _ _ (by decide) (by decide)]
    refine Nat.mod_eq_of_lt (lt_of_lt_of_le (b := 16) ?_ (by decide))
    split <;> omega

theorem jobWrite_of_empty {s : State} (h : s.frm.jobOut = []) : (jobWrite s).1 = s := by
  simp [jobWrite, h]

/-! ## The obligation -/

/-- Settles O57: a command of the security block is checked, begins and ends by the lemmas above. -/
theorem securityCommandsRun : Obligations.SecurityCommandsRun := by
  unfold Obligations.SecurityCommandsRun
  intro s m arg ok
  refine ⟨fun hw c op a hc => ⟨fun hrefused => ?_, fun hgood => ?_⟩, fun ha hop => ?_, fun hw c op t' hc => ?_,
    fun ha hbusy hresult hwait hheld => ?_, fun hw => ?_⟩
  · have hle := scCheck_le s op a
    exact runs_of_eq ((exec_scCmd hw hc).trans (congrArg _ (scCommand_of_refused hrefused)))
      (scShown_effect (by omega) s)
  · exact runs_of_eq (exec_scCmd hw hc) (scCommand_accepted_effect hgood)
  · obtain ⟨hotp, hregs, hbusy, hresult, hmem⟩ := fuseDone_effect ok s
    refine runs_of_eq (live_eq ha (by simpa using hop)) ⟨by rw [hotp], hregs, hbusy, hresult, hmem, ?_, ?_⟩
    · rintro rfl
      rw [hotp]
      exact blowFuses_effect s
    · rintro rfl
      rw [hotp]
      exact failFuses_effect s
  · obtain ⟨heq, hop, hrun⟩ := exec_scJob hw hc
    refine ⟨fun hbusy => ?_, fun hbusy hheld => ?_, fun hbusy hheld => ?_⟩
    · exact runs_of_eq (heq.trans (congrArg _ (scJob_of_busy op hbusy)))
        ⟨fld_setFld_self _ _ _ _ (by decide) (by decide), onlyRegs_setFld _ _ _ (onlyRegs_refl _ s) (by simp)⟩
    · exact runs_of_eq (heq.trans (congrArg _ (scJob_of_held hop hbusy hheld))) (jobWait_effect op s)
    · refine runs_of_eq (heq.trans (congrArg _ ((scJob_of_free hbusy hheld).trans hrun))) ⟨rfl, ?_⟩
      rw [← hrun]
      exact jobRun_effect hop s
  · obtain ⟨hdone, hjob, hres, hmem⟩ := jobDone_effect hresult
    refine runs_of_eq (live_eq ha (by simp [hbusy, hwait, hheld])) ⟨hdone, hjob, hres, hmem, fun hempty => ?_⟩
    rw [hmem, jobWrite_of_empty hempty]
  · exact runs_of_eq (regWriteBy_eq hw)
      ⟨flag_setFlag_self _ _ _ _ (by decide) (by decide), onlyRegs_setFlag _ _ _ (onlyRegs_refl _ s) (by simp)⟩

end Sys2Proof.Machine
end

section
/-! The host transports: what the I3C target, SMBus, SPI and MCTP answer, and the host address space (R316 to R323). -/

namespace Sys2Proof.Machine

@[simp] theorem host_updHost (f : HostSide → HostSide) (s : State) : (updHost f s).host = f s.host := (rfl)

/-! ## Answers -/

/-- The target gave the answer r, and no register and no byte of memory changed. -/
def Answered (r : Answer) (s t : State) : Prop := t.host.answer = r ∧ t.regs = s.regs ∧ t.mem = s.mem

theorem answered_answer {s t : State} (ds : List Nat) (hregs : t.regs = s.regs) (hmem : t.mem = s.mem) :
    Answered { ack := true, data := ds, pec := none } s (answer ds t) := by
  simp [Answered, answer, hregs, hmem]

theorem answered_nack {s t : State} (hregs : t.regs = s.regs) (hmem : t.mem = s.mem) :
    Answered { ack := false, data := [], pec := none } s (nack t) := by
  simp [Answered, nack, hregs, hmem]

/-! ## I3C (R317) -/

theorem i3c_eq {s t : State} (hup : viaUp s .i3c = true) (g : Bool) : i3c g s t = .next (if g then t else nack s) :=
  act_eq hup

/-- The state after a common command code that leaves t: the bus is out of HDR-DDR. -/
def outOfDdr (t : State) : State := updHost (fun h => { h with ddr := false }) t

theorem ccc_eq {s t : State} (hup : viaUp s .i3c = true) (g : Bool) :
    ccc g s t = .next (outOfDdr (if g then t else nack s)) := act_eq hup

theorem answered_outOfDdr {r : Answer} {s t : State} (h : Answered r s t) : Answered r s (outOfDdr t) := by
  simpa [Answered, outOfDdr] using h

/-- A code that names an address the target does not have is not acknowledged. -/
theorem answered_ccc_refused (s : State) :
    Answered { ack := false, data := [], pec := none } s (outOfDdr (nack s)) :=
  answered_outOfDdr (answered_nack rfl rfl)

/-- The dynamic address that a code assigns. -/
theorem setDa_effect {da : Nat} (h : da < 128) (s : State) :
    let t := outOfDdr (setDa da s)
    i3cDa t = da ∧ t.host.answer.ack = true ∧ KeepsRegs [Reg.MB_I3CCFG] s t ∧ t.mem = s.mem := by
  unfold setDa outOfDdr answer
  refine ⟨?_, by simp, ?_, by simp⟩
  · rw [i3cDa, fld_updHost, fld_updHost, fld_setFld_self _ _ _ _ (by decide) (by decide)]
    exact Nat.mod_eq_of_lt h
  · exact keepsRegs_updHost (keepsRegs_updHost (keepsRegs_setFld _ _ _ (keepsRegs_refl _ s) (by simp)) _) _

theorem setEvents_effect (on : Bool) (bits : Nat) (s : State) :
    let t := outOfDdr (setEvents on bits s)
    Answered { ack := true, data := [], pec := none } s t ∧
      t.host.events = if bits % 2 = 1 then on else s.host.events := by
  unfold setEvents
  by_cases h : bits % 2 = 1
  · rw [if_pos h, if_pos h]
    exact ⟨answered_outOfDdr (answered_answer [] (by simp) (by simp)), by simp [outOfDdr, answer]⟩
  · rw [if_neg h, if_neg h]
    exact ⟨answered_outOfDdr (answered_answer [] rfl rfl), by simp [outOfDdr, answer]⟩

/-- The queries that the target answers with bytes of its own. -/
noncomputable def cccQueries (s : State) : List (Instr × List Nat) :=
  [(.cccGetpid, (toBytes 6 Config.i3cPid.toNat).reverse), (.cccGetbcr, [Config.i3cBcr.toNat]),
    (.cccGetdcr, [Config.i3cDcr.toNat]), (.cccGetmxds, [(Config.i3cMxds 0).toNat, (Config.i3cMxds 1).toNat]),
    (.cccGetstatus, toBytes 2 (Config.freeWord s.fresh).toNat), (.cccGetmwl, (toBytes 2 s.host.mwl).reverse),
    (.cccGetmrl, (toBytes 2 s.host.mrl).reverse ++ [1])]

/-- A query is answered with its bytes where the target has an address. -/
theorem exec_cccQuery {s : State} {c : Instr} {ds : List Nat} (hup : viaUp s .i3c = true)
    (hc : (c, ds) ∈ cccQueries s) : ∃ u : State, u.regs = s.regs ∧ u.mem = s.mem ∧
      exec c s = .next (outOfDdr (if i3cDa s != 0 then answer ds u else nack s)) := by
  simp only [cccQueries, List.mem_cons, List.not_mem_nil, or_false, Prod.mk.injEq] at hc
  rcases hc with ⟨hc, hds⟩ | ⟨hc, hds⟩ | ⟨hc, hds⟩ | ⟨hc, hds⟩ | ⟨hc, hds⟩ | ⟨hc, hds⟩ | ⟨hc, hds⟩
  case inr.inr.inr.inr.inl =>
    subst hc hds
    exact ⟨spend s, by simp, by simp, ccc_eq hup _⟩
  all_goals
    subst hc hds
    exact ⟨s, rfl, rfl, ccc_eq hup _⟩

theorem runs_cccQuery {s : State} {c : Instr} {ds : List Nat} (hup : viaUp s .i3c = true)
    (hc : (c, ds) ∈ cccQueries s) :
    (i3cDa s ≠ 0 → Runs c s (Answered { ack := true, data := ds, pec := none } s)) ∧
      (¬i3cDa s ≠ 0 → Runs c s (Answered { ack := false, data := [], pec := none } s)) := by
  obtain ⟨u, hregs, hmem, heq⟩ := exec_cccQuery hup hc
  refine ⟨fun h => runs_of_eq heq ?_, fun h => runs_of_eq heq ?_⟩
  · rw [if_pos (by simpa using h)]
    exact answered_outOfDdr (answered_answer ds hregs hmem)
  · rw [if_neg (by simpa using h)]
    exact answered_ccc_refused s

/-! ## SMBus (R318, R323) -/

theorem smbWrite_eq {s t : State} (hup : viaUp s .smbus = true) (g : Bool) (pec : Pec) :
    smbWrite g pec s t = .next (if g && pecHolds s pec then t else nack s) := act_eq hup

theorem smbWrite_taken {s t : State} {pec : Pec} (hup : viaUp s .smbus = true) (hpec : pecHolds s pec = true) :
    smbWrite true pec s t = .next t := by
  rw [smbWrite_eq hup, hpec]
  rfl

theorem smbWrite_refused {s : State} {pec : Pec} (hup : viaUp s .smbus = true) (hpec : pecHolds s pec = false)
    (g : Bool) (t : State) : smbWrite g pec s t = .next (nack s) := by
  rw [smbWrite_eq hup, hpec, Bool.and_false]
  rfl

@[simp] theorem hostAddr_answer (k : Nat) (ds : List Nat) (s : State) : hostAddr (answer ds s) k = hostAddr s k := by
  simp [hostAddr, answer]

theorem hostAddr_setHostAddr (k a : Nat) (s : State) : hostAddr (setHostAddr k a s) k = a % 2 ^ 24 := by
  simp [hostAddr, setHostAddr]

theorem fromBytes_lt (bs : List Nat) : fromBytes bs < 256 ^ bs.length := by
  induction bs with
  | nil => decide
  | cons b bs ih =>
    have hcons : fromBytes (b :: bs) = b % 256 + 256 * fromBytes bs := rfl
    rw [hcons, List.length_cons, Nat.pow_succ]
    omega

theorem le_three_lt (ws : List Nat) (o : Nat) : le ws o 3 < 2 ^ 24 :=
  calc le ws o 3 < 256 ^ ((ws.drop o).take 3).length := fromBytes_lt _
    _ ≤ 256 ^ 3 := Nat.pow_le_pow_right (by decide) (List.length_take_le _ _)
    _ = 2 ^ 24 := by decide

/-- MBX_ADDR sets the host address. -/
theorem mbxAddr_effect (ws : List Nat) (s : State) :
    let t := answer [] (setHostAddr 2 (le ws 0 3) s)
    Answered { ack := true, data := [], pec := none } s t ∧ hostAddr t 2 = le ws 0 3 := by
  refine ⟨answered_answer [] (by simp [setHostAddr]) (by simp [setHostAddr]), ?_⟩
  rw [hostAddr_answer, hostAddr_setHostAddr, Nat.mod_eq_of_lt (le_three_lt ws 0)]

theorem smbAlert_alertResponse (s : State) (ds : List Nat) :
    smbAlert (answer ds (updHost (fun h => { h with released := true, pmbAlert := false }) s)) = false := by
  simp [smbAlert, answer]

theorem mbxRead_effect (n : Nat) (s : State) :
    (mbxRead n s).host.answer.data.head? = some n ∧ (mbxRead n s).host.answer.pec.isSome = true := by
  simp [mbxRead, answerSmb]

/-! ## MCTP (R320) -/

/-- A message of a transport that is up, with its address on I3C and a PEC that holds on SMBus, takes its effect. -/
theorem mctp_eq {bus : MctpBus} {s t : State} (hup : viaUp s (mctpVia bus) = true) (hda : bus = .i3c → i3cDa s ≠ 0)
    (hpec : ∀ y, bus = .smbus y → pecHolds s y = true) : mctp bus s t = .next t := by
  cases bus with
  | i3c => exact act_eq (Bool.and_eq_true_iff.mpr ⟨hup, by simpa using hda rfl⟩)
  | smbus y => exact smbWrite_taken hup (hpec y rfl)

theorem eidField_effect (bus : MctpBus) {v : Nat} (h : v < 256) (s : State) :
    fld (setFld Reg.MB_MCTPEID (eidField bus) v s) Reg.MB_MCTPEID (eidField bus) = v := by
  cases bus with
  | i3c => exact (fld_setFld_self _ _ _ _ (by decide) (by decide)).trans (Nat.mod_eq_of_lt h)
  | smbus _ =>
    exact (fld_setFld_self _ Fld.MB_MCTPEID_EIDS _ _ (by decide) (by decide)).trans (Nat.mod_eq_of_lt h)

/-- The messages of the MCTP control protocol that only ask. -/
noncomputable def mctpQueries (bus : MctpBus) (s : State) : List (Instr × List Nat) :=
  [(.getEndpointId bus, [0, fld s Reg.MB_MCTPEID (eidField bus), 0, 0]),
    (.getMctpVersionSupport bus, [0, 1] ++ (List.range 4).map fun i => (Config.mctpVersion i).toNat),
    (.getMessageTypeSupport bus, [0, 1, 0x7F]),
    (.getVendorDefinedMessageSupport bus,
      [0, 0xFF, 1] ++ ianaBytes s ++ [(Config.mctpVendorSet 0).toNat, (Config.mctpVendorSet 1).toNat])]

theorem exec_mctpQuery {bus : MctpBus} {s : State} {c : Instr} {ds : List Nat} (hc : (c, ds) ∈ mctpQueries bus s) :
    exec c s = mctp bus s (answer ds s) := by
  simp only [mctpQueries, List.mem_cons, List.not_mem_nil, or_false, Prod.mk.injEq] at hc
  rcases hc with ⟨hc, hds⟩ | ⟨hc, hds⟩ | ⟨hc, hds⟩ | ⟨hc, hds⟩
  all_goals
    subst hc hds
    rfl

/-- Every message over SMBus is a write that needs its PEC. -/
theorem exec_mctp_smbus {s : State} {pec : Pec} {e : BitVec 8} {bs : List (BitVec 8)} {c : Instr}
    (hc : c ∈ [Instr.setEndpointId (.smbus pec) e, .getEndpointId (.smbus pec), .getMctpVersionSupport (.smbus pec),
      .getMessageTypeSupport (.smbus pec), .getVendorDefinedMessageSupport (.smbus pec),
      .mctpLyheufMessage (.smbus pec) e bs]) : ∃ t, exec c s = smbWrite true pec s t := by
  simp only [List.mem_cons, List.not_mem_nil, or_false] at hc
  rcases hc with rfl | rfl | rfl | rfl | rfl | rfl
  all_goals exact ⟨_, rfl⟩

/-! ## The host address space (R316, R321) -/

theorem hostPut_of_busy {v : Via} {a : Nat} {bs : List Nat} {s : State} (hlow : a < 0x20000) (hreq : a % 0x2000 < 0x1000)
    (hbusy : sessPhase s (a / 0x2000) ≠ 0) : hostPut v a bs s = raiseFlag Reg.MB_HSTAT Fld.MB_HSTAT_WINREF s := by
  simp [hostPut, hlow, hreq, hbusy]

theorem hostPut_of_odd {v : Via} {a : Nat} {bs : List Nat} {s : State} (hreg : hostReg a = true)
    (hodd : bs.length ≠ 4 ∨ a % 4 ≠ 0) : hostPut v a bs s = raiseFlag Reg.MB_HSTAT Fld.MB_HSTAT_ACCERR s := by
  have hhigh : ¬a < 0x20000 := by
    simp only [hostReg, Bool.or_eq_true, Bool.and_eq_true, decide_eq_true_eq] at hreg
    omega
  rw [hostPut, if_neg hhigh, if_pos hreg, if_neg (by omega)]

/-! ## The obligation -/

theorem length_bytesOf (bs : List (BitVec 8)) : (bytesOf bs).length = bs.length := List.length_map _

section
variable {s : State}

/-- What the I3C target does with transfers addressed to it. -/
theorem exec_i3cPrivateWrite {bs : List (BitVec 8)} (hup : viaUp s .i3c = true)
    (hheld : hostHeld s (le (bytesOf bs) 0 3) ((bytesOf bs).drop 3) = false) : exec (.i3cPrivateWrite bs) s =
      .next (if i3cDa s != 0 then privateWrite (bytesOf bs) s else nack s) := by
  show execI3cPrivateWrite bs s = _
  rw [execI3cPrivateWrite, if_neg (by simp [hheld]), i3c_eq hup]

theorem exec_i3cPrivateRead {n : BitVec 16} (hup : viaUp s .i3c = true)
    (hheld : windowHeld s (hostAddr s 1) n.toNat = false) : exec (.i3cPrivateRead n) s =
      .next (if i3cDa s != 0 then privateRead n.toNat s else nack s) := by
  show execI3cPrivateRead n s = _
  rw [execI3cPrivateRead, if_neg (by simp [hheld]), i3c_eq hup]

theorem exec_i3cPrivateWrite_held {bs : List (BitVec 8)}
    (hheld : hostHeld s (le (bytesOf bs) 0 3) ((bytesOf bs).drop 3) = true) : exec (.i3cPrivateWrite bs) s = .next s := by
  show execI3cPrivateWrite bs s = _
  rw [execI3cPrivateWrite, if_pos hheld]

theorem exec_i3cPrivateRead_held {n : BitVec 16} (hheld : windowHeld s (hostAddr s 1) n.toNat = true) :
    exec (.i3cPrivateRead n) s = .next s := by
  show execI3cPrivateRead n s = _
  rw [execI3cPrivateRead, if_pos hheld]

theorem exec_mbxDataWrite {bs : List (BitVec 8)} {pec : Pec} (hheld : hostHeld s (hostAddr s 2) (bytesOf bs) = false) :
    exec (.mbxDataWrite bs pec) s =
      smbWrite (decide (1 ≤ bs.length) && decide (bs.length ≤ 32)) pec s (mbxWrite (bytesOf bs) s) := by
  show execMbxDataWrite bs pec s = _
  rw [execMbxDataWrite, if_neg (by simp [hheld])]

theorem exec_mbxDataWrite_held {bs : List (BitVec 8)} {pec : Pec}
    (hheld : hostHeld s (hostAddr s 2) (bytesOf bs) = true) : exec (.mbxDataWrite bs pec) s = .next s := by
  show execMbxDataWrite bs pec s = _
  rw [execMbxDataWrite, if_pos hheld]

theorem exec_mbxDataRead {k : BitVec 6} (hup : viaUp s .smbus = true) (h1 : 1 ≤ k.toNat) (h2 : k.toNat ≤ 32) :
    exec (.mbxDataRead k) s =
      .next (if windowHeld s (hostAddr s 2) k.toNat = true then s else mbxRead k.toNat s) := by
  show execMbxDataRead k s = _
  unfold execMbxDataRead
  split
  · rfl
  · rw [act_eq hup, if_pos ⟨h1, h2⟩]

theorem exec_spiWrites {a : BitVec 24} {bs : List (BitVec 8)} {c : Instr}
    (hc : c ∈ [Instr.spiWrite a bs, .spiQuadWrite a bs]) : exec c s = spiWrite a.toNat (bytesOf bs) s := by
  simp only [List.mem_cons, List.not_mem_nil, or_false] at hc
  rcases hc with rfl | rfl <;> rfl

theorem exec_spiReads {a : BitVec 24} {n : BitVec 16} {c : Instr}
    (hc : c ∈ [Instr.spiRead a n, .spiQuadRead a n]) : exec c s = spiRead a.toNat n.toNat s := by
  simp only [List.mem_cons, List.not_mem_nil, or_false] at hc
  rcases hc with rfl | rfl <;> rfl

theorem spiWrite_eq (hup : viaUp s .spi = true) (a : Nat) (ds : List Nat) : spiWrite a ds s =
    .next (if ds = [] ∨ hostHeld s a ds = true then s else answer [] (hostWrite .spi a ds s)) := by
  unfold spiWrite act
  rcases ds with _ | ⟨d, ds⟩
  · simp
  · simp only [hup, List.isEmpty_cons, Bool.not_false, Bool.and_self, Bool.true_and, reduceCtorEq, false_or]
    cases hostHeld s a (d :: ds) <;> rfl

theorem spiRead_eq (hup : viaUp s .spi = true) (a n : Nat) : spiRead a n s =
    .next (if n = 0 ∨ windowHeld s a n = true then s else answer (hostRead .spi a n s).2 (hostRead .spi a n s).1) := by
  unfold spiRead act
  by_cases hn : n = 0
  · simp [hn]
  · simp only [hup, bne_iff_ne.mpr hn, Bool.and_self, Bool.true_and, hn, false_or]
    cases windowHeld s a n <;> rfl

end

/-- Settles O54: each transport's commands are answered by the lemmas above. -/
theorem hostTransportCommandsRun : Obligations.HostTransportCommandsRun := by
  unfold Obligations.HostTransportCommandsRun
  intro s bus bs n k da sa new e a pec
  have hda := da.isLt
  have hnew := new.isLt
  have hbyte := e.isLt
  refine ⟨fun hup => ⟨fun has => ⟨fun hheld => ?_, fun hheld => ?_, ?_⟩, fun hno => ⟨?_, ?_⟩, ?_,
    fun c ds hc => runs_cccQuery hup hc, fun hheld => runs_of_eq (exec_i3cPrivateWrite_held hheld) rfl,
    fun hheld => runs_of_eq (exec_i3cPrivateRead_held hheld) rfl, fun hno hheldW hheldR c hc => ?_, ?_, ?_, ?_, ?_, ?_,
    fun hcode => ?_⟩, fun hup => ⟨fun hpec => ⟨fun hlen => ?_, fun h1 h32 hheld => ?_⟩,
      fun hheld => runs_of_eq (exec_mbxDataWrite_held hheld) rfl, fun hpec hheld c hc => ?_, fun h1 h32 => ?_, ?_⟩,
    fun hup => ⟨fun c hc => ?_, fun c hc => ?_, ?_⟩, fun hup hda hpec => ⟨?_, fun c ds hc => ?_, ?_⟩,
    fun hup hpec c hc => ?_, fun v h => ⟨fun hlow hreq hbusy => ?_, fun hreg hodd => ?_⟩⟩
  -- I3C with a dynamic address
  · exact runs_of_eq (exec_i3cPrivateWrite hup hheld) (if_pos (by simpa using has))
  · exact runs_of_eq (exec_i3cPrivateRead hup hheld) (if_pos (by simpa using has))
  · refine runs_of_eq (ccc_eq hup _) ⟨fun hown => ?_, fun hother => ?_⟩
    · rw [if_pos (by simpa [hown] using has)]
      exact setDa_effect hnew s
    · rw [if_neg (by simp [hother])]
      exact answered_ccc_refused s
  -- I3C without one
  · refine runs_of_eq (ccc_eq hup _) ?_
    rw [if_pos (by simpa using hno)]
    exact setDa_effect hda s
  · refine runs_of_eq (ccc_eq hup _) ⟨fun hown => ?_, fun hother => ?_⟩
    · rw [if_pos (by simpa [hown] using hno)]
      exact setDa_effect hda s
    · rw [if_neg (by simp [hother])]
      exact answered_ccc_refused s
  · exact runs_of_eq (ccc_eq hup true) (setDa_effect (by decide) s)
  · have hoff : ¬(i3cDa s != 0) = true := by simpa using hno
    simp only [List.mem_cons, List.not_mem_nil, or_false] at hc
    rcases hc with rfl | rfl | rfl
    · refine runs_of_eq (exec_i3cPrivateWrite hup hheldW) ?_
      rw [if_neg hoff]
      exact answered_nack rfl rfl
    · refine runs_of_eq (exec_i3cPrivateRead hup hheldR) ?_
      rw [if_neg hoff]
      exact answered_nack rfl rfl
    · refine runs_of_eq (ccc_eq hup _) ?_
      rw [if_neg (by simp [show i3cDa s = 0 by simpa using hno])]
      exact answered_ccc_refused s
  -- ENEC, DISEC, SETMWL, SETMRL, ENTHDR0 and the other codes
  · obtain ⟨hans, hev⟩ := setEvents_effect true e.toNat s
    refine runs_of_eq (ccc_eq hup true) ⟨hans, hev.trans ?_⟩
    split <;> simp [*]
  · obtain ⟨hans, hev⟩ := setEvents_effect false e.toNat s
    refine runs_of_eq (ccc_eq hup true) ⟨hans, hev.trans ?_⟩
    rcases Nat.mod_two_eq_zero_or_one e.toNat with h | h <;> simp [h]
  · exact runs_of_eq (ccc_eq hup true)
      ⟨answered_outOfDdr (answered_answer [] (by simp) (by simp)), by simp [outOfDdr, answer]⟩
  · exact runs_of_eq (ccc_eq hup true)
      ⟨answered_outOfDdr (answered_answer [] (by simp) (by simp)), by simp [outOfDdr, answer]⟩
  · exact runs_of_eq (i3c_eq hup true) ⟨answered_answer [] (by simp) (by simp), by simp [answer]⟩
  · exact runs_of_eq (act_eq (by simpa [hup] using hcode)) (answered_nack rfl rfl)
  -- SMBus
  · refine runs_of_eq (smbWrite_eq hup _ pec) ?_
    rw [if_pos (by simp [hlen, hpec])]
    exact mbxAddr_effect (bytesOf bs) s
  · refine runs_of_eq ((exec_mbxDataWrite hheld).trans (smbWrite_eq hup _ pec)) (if_pos (by simp [h1, h32, hpec]))
  · simp only [List.mem_cons, List.not_mem_nil, or_false] at hc
    rcases hc with rfl | rfl
    · exact runs_of_eq (smbWrite_refused hup hpec _ _) ⟨answered_nack rfl rfl, by simp [nack]⟩
    · exact runs_of_eq ((exec_mbxDataWrite hheld).trans (smbWrite_refused hup hpec _ _))
        ⟨answered_nack rfl rfl, by simp [nack]⟩
  · refine runs_of_eq (exec_mbxDataRead hup h1 h32) ?_
    split
    next h => rfl
    next h => exact ⟨rfl, mbxRead_effect _ s⟩
  · refine runs_of_eq (act_eq hup) ⟨fun halert => ?_, fun hquiet => ?_⟩
    · rw [if_pos halert]
      exact ⟨answered_answer _ (by simp) (by simp), smbAlert_alertResponse s _⟩
    · rw [if_neg (by simp [hquiet])]
      exact answered_nack rfl rfl
  -- SPI
  · have hnil : bytesOf bs = [] ↔ bs = [] := List.map_eq_nil_iff
    refine runs_of_eq ((exec_spiWrites hc).trans (spiWrite_eq hup _ _)) ?_
    split
    next h => exact if_pos (h.imp_left hnil.mpr)
    next h => exact if_neg fun g => h (g.imp_left hnil.mp)
  · have hzero : n.toNat = 0 ↔ n = 0 := by rw [← BitVec.toNat_inj]; rfl
    refine runs_of_eq ((exec_spiReads hc).trans (spiRead_eq hup _ _)) ?_
    split
    next h => exact if_pos (h.imp_left hzero.mpr)
    next h => exact if_neg fun g => h (g.imp_left hzero.mp)
  · exact runs_of_eq (act_eq hup) (answered_answer _ rfl rfl)
  -- MCTP
  · refine runs_of_eq (mctp_eq hup hda hpec) ⟨fun hnull => ?_, fun h0 h255 => ?_⟩
    · rw [if_pos hnull]
      exact answered_answer _ rfl rfl
    · rw [if_neg (by omega)]
      refine ⟨?_, by simp [answer], keepsRegs_updHost (keepsRegs_setFld _ _ _ (keepsRegs_refl _ s) (by simp)) _⟩
      rw [answer, fld_updHost]
      exact eidField_effect bus hbyte s
  · exact runs_of_eq ((exec_mctpQuery hc).trans (mctp_eq hup hda hpec)) (answered_answer _ rfl rfl)
  · refine runs_of_eq (mctp_eq hup hda hpec) ?_
    cases bus <;> rfl
  · obtain ⟨t, ht⟩ := exec_mctp_smbus hc
    exact runs_of_eq (ht.trans (smbWrite_refused hup hpec _ t)) (answered_nack rfl rfl)
  -- the host address space
  · rw [hostPut_of_busy hlow hreq hbusy]
    exact ⟨flag_raiseFlag_self _ 28 _ (by decide), onlyRegs_raiseFlag _ _ (onlyRegs_refl _ s) (by simp)⟩
  · rw [hostPut_of_odd hreg (by simpa [length_bytesOf] using hodd)]
    exact ⟨flag_raiseFlag_self _ 27 _ (by decide), onlyRegs_raiseFlag _ _ (onlyRegs_refl _ s) (by simp)⟩

end Sys2Proof.Machine
end

section
/-! What the commands of the rail table, the trips of the channels and the way into SHUTDOWN leave alone: everything
beside the registers, the fault manager, the supply monitor, the rails, the channels and the ports (R43 to R47, R115 to
R119, R396). -/

namespace Sys2Proof.Machine

/-- The state beside the registers, the marks of their flags, the fault manager, the supply monitor, the rails, the
channels, the ports and the count of free values spent. -/
def besideRails (s : State) : State :=
  { besideFaults s with sup := Supply.init, rails := [], chans := [], ports := [], fresh := 0 }

section
variable (s : State)

theorem besideRails_of_besideFaults {s t : State} (h : besideFaults t = besideFaults s) :
    besideRails t = besideRails s :=
  congrArg (fun x => { x with sup := Supply.init, rails := [], chans := [], ports := [], fresh := 0 }) h

theorem host_of_besideRails {s t : State} (h : besideRails t = besideRails s) : t.host = s.host := by
  have := congrArg State.host h
  exact this

theorem mem_of_besideRails {s t : State} (h : besideRails t = besideRails s) : t.mem = s.mem := by
  have := congrArg State.mem h
  exact this

@[simp] theorem besideRails_wr (a v : Nat) : besideRails (wr a v s) = besideRails s := (rfl)
@[simp] theorem besideRails_setFld (a : Nat) (f : Bits) (v : Nat) : besideRails (setFld a f v s) = besideRails s :=
  besideRails_wr _ a _
@[simp] theorem besideRails_setFlag (a : Nat) (f : Bits) (b : Bool) : besideRails (setFlag a f b s) = besideRails s :=
  besideRails_setFld _ a f _
@[simp] theorem besideRails_incFld (a : Nat) (f : Bits) : besideRails (incFld a f s) = besideRails s :=
  besideRails_setFld _ a f _
@[simp] theorem besideRails_raiseFlag (a : Nat) (f : Bits) : besideRails (raiseFlag a f s) = besideRails s :=
  besideRails_of_besideFaults (besideFaults_raiseWord a _ s)
@[simp] theorem besideRails_report (x : Rep) : besideRails (report x s) = besideRails s :=
  besideRails_of_besideFaults (besideFaults_report x s)
@[simp] theorem besideRails_setCond (i : Nat) (b : Bool) : besideRails (setCond i b s) = besideRails s :=
  besideRails_of_besideFaults (besideFaults_setCond i b s)
@[simp] theorem besideRails_setLine (q m : Nat) : besideRails (setLine q m s) = besideRails s :=
  besideRails_of_besideFaults (besideFaults_setLine q m s)
@[simp] theorem besideRails_enterMode (m : Nat) : besideRails (enterMode m s) = besideRails s :=
  besideRails_of_besideFaults (besideFaults_enterMode m s)
@[simp] theorem besideRails_updFm (f : FaultMgr → FaultMgr) : besideRails (updFm f s) = besideRails s := (rfl)
@[simp] theorem besideRails_updSup (f : Supply → Supply) : besideRails (updSup f s) = besideRails s := (rfl)
@[simp] theorem besideRails_updRail (r : Nat) (f : Rail → Rail) : besideRails (updRail r f s) = besideRails s := (rfl)
@[simp] theorem besideRails_updChan (n : Nat) (f : Chan → Chan) : besideRails (updChan n f s) = besideRails s := (rfl)
@[simp] theorem besideRails_updPort (n : Nat) (f : Port → Port) : besideRails (updPort n f s) = besideRails s := (rfl)
@[simp] theorem besideRails_spend : besideRails (spend s) = besideRails s := (rfl)

/-! ## Ports and channels (R102 to R119, R165) -/

@[simp] theorem besideRails_disagree (d : Disagree) : besideRails (disagree d s) = besideRails s := by
  unfold disagree
  split <;> simp

@[simp] theorem besideRails_blockPins (n : Nat) : besideRails (blockPins n s) = besideRails s := by
  unfold blockPins
  split <;> simp

theorem besideRails_withPort (n : Nat) (f : State → State) (hf : ∀ s, besideRails (f s) = besideRails s) :
    besideRails (withPort n f s) = besideRails s := by
  simp only [withPort, portReport]
  split <;> simp [apply_ite besideRails, noCurrent, sendIdent, hf]

@[simp] theorem besideRails_settlePort (n : Nat) : besideRails (settlePort n s) = besideRails s :=
  besideRails_withPort s n id fun _ => rfl

@[simp] theorem besideRails_loadBuffer (n per on ofs : Nat) : besideRails (loadBuffer n per on ofs s) = besideRails s := by
  simp [loadBuffer, pwmWref, armFirst, apply_ite besideRails]

@[simp] theorem besideRails_latchTrip (n src : Nat) : besideRails (latchTrip n src s) = besideRails s := by
  simp [latchTrip, forcePins]

/-! ## Rails (R43 to R47) -/

@[simp] theorem besideRails_cutLane (r j : Nat) : besideRails (cutLane r j s) = besideRails s := by
  unfold cutLane
  dsimp only
  split <;> simp [putCut, showLanes, putOutcome]

@[simp] theorem besideRails_stopRail (r st : Nat) : besideRails (stopRail r st s) = besideRails s := by
  have hmember : ∀ (x : Nat × Nat) (s : State),
      besideRails (setActive r x.1 x.2 false (parkPort r x.2 s)) = besideRails s :=
    fun x s => by simp [setActive, parkPort, loopLoad, apply_ite besideRails]
  simp only [stopRail, cutLanes]
  rw [forAll_keeps besideRails _ (fun _ _ => besideRails_cutLane _ _ _)]
  simp only [besideRails_updRail, besideRails_setFlag, besideRails_setFld]
  exact forAll_keeps besideRails _ hmember s

@[simp] theorem besideRails_seqMark : besideRails (seqMark s) = besideRails s := by
  unfold seqMark
  dsimp only
  split <;> simp

@[simp] theorem besideRails_latchRail (r : Nat) : besideRails (latchRail r s) = besideRails s := by
  simp [latchRail, settleConverter, settleUnderfloor, apply_ite besideRails]

@[simp] theorem besideRails_railOff (r : Nat) : besideRails (railOff r s) = besideRails s := by
  have hport : ∀ (x : Nat × Nat) (s : State), besideRails (setOwned x.2 r false s) = besideRails s :=
    fun x s => by simp [setOwned]
  simp only [railOff, settleConverter, settleUnderfloor, besideRails_seqMark, besideRails_setCond]
  rw [forAll_keeps besideRails _ hport, besideRails_stopRail]

@[simp] theorem besideRails_rtClear (r : Nat) : besideRails (rtClear r s) = besideRails s := by
  simp only [rtClear, besideRails_railOff]
  exact forAll_keeps besideRails _ (fun n s => by simp [clearLatchOff, unlatch, apply_ite besideRails]) s

/-- A command of the rail table. -/
@[simp] theorem besideRails_rtCommand (op r : Nat) (bySeq : Bool) :
    besideRails (rtCommand op r bySeq s) = besideRails s := by
  simp [rtCommand, rtResult, rtClrcnt, apply_ite besideRails]

/-! ## SHUTDOWN (R32, R382, R396) -/

@[simp] theorem besideRails_seqIssue (op r : Nat) : besideRails (seqIssue op r s) = besideRails s := by
  unfold seqIssue
  split <;> simp

theorem besideRails_startShutdown (cause : Nat) : besideRails (startShutdown cause s) = besideRails s := by
  have hramps : ∀ s : State, besideRails (forAll (List.range 32) stopRamp s) = besideRails s :=
    forAll_keeps besideRails _ fun r s => by simp [stopRamp, apply_ite besideRails]
  unfold startShutdown
  dsimp only
  split
  · rw [besideRails_seqMark, forAll_keeps besideRails _ (fun _ _ => besideRails_seqIssue _ _ _)]
    split <;> simp [hramps]
  · rfl

/-! ## Trips (R115 to R119, R368) -/

/-- The state beside the rails and the host side, where STATUS_IOUT of a rail that is latched off stands. -/
def besideTrips (s : State) : State := { besideRails s with host := HostSide.init }

theorem besideTrips_of_besideRails {s t : State} (h : besideRails t = besideRails s) : besideTrips t = besideTrips s :=
  congrArg (fun x => { x with host := HostSide.init }) h

theorem mem_of_besideTrips {s t : State} (h : besideTrips t = besideTrips s) : t.mem = s.mem := by
  have := congrArg State.mem h
  exact this

theorem besideTrips_updHost (f : HostSide → HostSide) : besideTrips (updHost f s) = besideTrips s := (rfl)

theorem besideTrips_latchRail_ite (b : Bool) (r : Nat) :
    besideTrips (if b then latchRail r s else s) = besideTrips s :=
  besideTrips_of_besideRails (by cases b <;> simp)

/-- STATUS_IOUT of rail r shows a latch-off of channel n, and with SCOPE = 1 the rail enters LATCHED (R119, R332). -/
def showTrip (n r : Nat) (s : State) : State :=
  let s := updHost (fun h => { h with iout := tset (fun _ => 0) h.iout r 0x80 }) s
  if flag s (Reg.PW_TRIP (quireOf n) (localOf n)) Fld.PW_TRIP_SCOPE then latchRail r s else s

/-- The latch-off of channel n and its record (R119). -/
def reportTrip (n : Nat) (s : State) : State :=
  s |> setFlag (Reg.PW_TSTAT (quireOf n) (localOf n)) Fld.PW_TSTAT_LOFF true
    |> report { src := 0x11, event := 2, cls := 2, unit := n, persist := 2 }

theorem tripChan_of_latch {n src : Nat} {s : State} (h : overRetry (latchTrip n src s) n = false) :
    tripChan n src s = settlePort n (latchTrip n src s) := by
  unfold tripChan
  exact congrArg (settlePort n) (if_neg (by simp [h]))

theorem tripChan_of_none {n src : Nat} {s : State} (h : overRetry (latchTrip n src s) n = true)
    (hrail : portRail (reportTrip n (latchTrip n src s)) n = none) :
    tripChan n src s = settlePort n (reportTrip n (latchTrip n src s)) := by
  unfold tripChan
  refine congrArg (settlePort n) ((if_pos h).trans ?_)
  unfold reportTrip at hrail ⊢
  generalize report _ _ = t at hrail ⊢
  simp only [hrail]

theorem tripChan_of_some {n src r : Nat} {s : State} (h : overRetry (latchTrip n src s) n = true)
    (hrail : portRail (reportTrip n (latchTrip n src s)) n = some r) :
    tripChan n src s = settlePort n (showTrip n r (reportTrip n (latchTrip n src s))) := by
  unfold tripChan
  refine congrArg (settlePort n) ((if_pos h).trans ?_)
  unfold reportTrip at hrail ⊢
  generalize report _ _ = t at hrail ⊢
  simp only [hrail]
  rfl

theorem besideTrips_showTrip (n r : Nat) : besideTrips (showTrip n r s) = besideTrips s :=
  (besideTrips_latchRail_ite _ _ r).trans (besideTrips_updHost s _)

theorem besideTrips_reportTrip (n : Nat) : besideTrips (reportTrip n s) = besideTrips s :=
  besideTrips_of_besideRails (by simp [reportTrip])

theorem besideTrips_settlePort (n : Nat) : besideTrips (settlePort n s) = besideTrips s :=
  besideTrips_of_besideRails (besideRails_settlePort s n)

theorem besideTrips_tripChan (n src : Nat) : besideTrips (tripChan n src s) = besideTrips s := by
  have hlatch : besideTrips (latchTrip n src s) = besideTrips s :=
    besideTrips_of_besideRails (besideRails_latchTrip s n src)
  cases h : overRetry (latchTrip n src s) n with
  | false => rw [tripChan_of_latch h, besideTrips_settlePort, hlatch]
  | true =>
    cases hrail : portRail (reportTrip n (latchTrip n src s)) n with
    | none => rw [tripChan_of_none h hrail, besideTrips_settlePort, besideTrips_reportTrip, hlatch]
    | some r =>
      rw [tripChan_of_some h hrail, besideTrips_settlePort, besideTrips_showTrip, besideTrips_reportTrip, hlatch]

theorem besideTrips_pulseRail (r : Nat) : besideTrips (pulseRail r s) = besideTrips s := by
  unfold pulseRail
  refine (besideTrips_of_besideRails (besideRails_latchRail _ _)).trans ?_
  refine (forAll_keeps besideTrips _ (fun n s => ?_) _).trans (besideTrips_of_besideRails (besideRails_updFm _ _))
  split
  · rfl
  · exact besideTrips_tripChan _ _ _

/-- A rail that is latched off for want of a safe stream changes no byte of memory (R368). -/
theorem mem_unsafeLatch (r : Nat) : (unsafeLatch r s).mem = s.mem := by
  have hpulse := mem_of_besideTrips (besideTrips_pulseRail s r)
  unfold unsafeLatch
  dsimp only
  split
  · exact (mem_report _ _).trans hpulse
  · exact (mem_of_besideRails (besideRails_startShutdown _ _)).trans ((mem_report _ _).trans hpulse)

end

end Sys2Proof.Machine
end

section
/-! PMBus: what a read answers, which writes are refused, and what CLEAR_FAULTS leaves (R331, R332). -/

namespace Sys2Proof.Machine

/-! ## STATUS_CML (R331, R332) -/

@[simp] theorem pageRail_answer (ds : List Nat) (s : State) : pageRail (answer ds s) = pageRail s := by
  simp [pageRail, answer]

theorem statusCml_of_host {s t : State} (h : t.host.cml = s.host.cml) (hpage : t.host.page = s.host.page) :
    statusCml t = statusCml s := by
  simp [statusCml, pageRail, h, hpage]

/-- A refusal sets its bit of STATUS_CML, and changes no register and no byte. -/
theorem cmlFault_effect (b : Nat) (s : State) : bitAt (statusCml (cmlFault b s)) b = true ∧
    (cmlFault b s).regs = s.regs ∧ (cmlFault b s).mem = s.mem ∧ (cmlFault b s).host.page = s.host.page := by
  refine ⟨?_, by simp [cmlFault, cmlFaultAt], by simp [cmlFault, cmlFaultAt], by simp [cmlFault, cmlFaultAt]⟩
  have hbit : statusCml (cmlFault b s) = statusCml s ||| 2 ^ b := by
    simp [cmlFault, cmlFaultAt, statusCml, pageRail]
  rw [hbit]
  exact bitAt_or_pow _ b

/-- Bit b of STATUS_CML is set in t, and neither a register nor a byte has changed. -/
def CmlSet (b : Nat) (s t : State) : Prop := bitAt (statusCml t) b = true ∧ t.regs = s.regs ∧ t.mem = s.mem

theorem cmlSet_answer (b : Nat) (s : State) : CmlSet b s (answer [] (cmlFault b s)) := by
  obtain ⟨hbit, hregs, hmem, hpage⟩ := cmlFault_effect b s
  refine ⟨?_, by simp [answer, hregs], by simp [answer, hmem]⟩
  rw [statusCml_of_host (s := cmlFault b s) (by simp [answer]) (by simp [answer])]
  exact hbit

theorem cmlSet_nack (b : Nat) (s : State) : CmlSet b s (nack (cmlFault b s)) := by
  obtain ⟨hbit, hregs, hmem, hpage⟩ := cmlFault_effect b s
  refine ⟨?_, by simp [nack, hregs], by simp [nack, hmem]⟩
  rw [statusCml_of_host (s := cmlFault b s) (by simp [nack]) (by simp [nack])]
  exact hbit

/-! ## Reads -/

/-- The reads of PMBus and what they return. -/
noncomputable def pmbReads (s : State) (pec : Pec) : List (Instr × List Nat) :=
  let r := pageRail s
  [(.page none pec, [s.host.page]), (.operation none pec, [if regulating s r then 0x80 else 0]),
    (.onOffConfig, [0x18]), (.capability, [0xD0]), (.voutMode, [0x12]), (.voutCommand none pec,
      pmbWord (roundAwayDiv ((fld s (Reg.RT_VREF r) Fld.RT_VREF_TARGET : Int) * 512) 625).toNat),
    (.statusByte, [statusByte s]), (.statusWord, pmbWord (statusWord s)), (.statusVout, [statusVout s]),
    (.statusIout, [statusIout s]), (.statusTemperature, [statusTemperature s]), (.statusCml, [statusCml s]),
    (.readVin, pmbWord (linear11 (fld s (Reg.LU_VIN (homeOf r)) Fld.LU_VIN_VIN) 1000)),
    (.readVout, pmbWord (satU 16 (roundAwayDiv (railOf s r).vout 2500)).toNat),
    (.readIout, pmbWord (linear11 (railOf s r).ifNum (400 * 2 ^ (railOf s r).ifSh))), (.pmbusRevision, [0x33]),
    (.mfrId, [6, 0x4B, 0x49, 0x4C, 0x4B, 0x4F, 0x52]), (.mfrModel, [7, 0x45, 0x4C, 0x4E, 0x39, 0x32, 0x35, 0x36]),
    (.mfrRevision, [2, 0x42, 0x31])]

/-- Each read answers under its command code. -/
theorem exec_pmbRead {s : State} {pec : Pec} {c : Instr} {ds : List Nat} (hc : (c, ds) ∈ pmbReads s pec) :
    ∃ code, exec c s = pmbRead code ds s := by
  simp only [pmbReads, List.mem_cons, List.not_mem_nil, or_false, Prod.mk.injEq] at hc
  rcases hc with ⟨hc, hds⟩ | ⟨hc, hds⟩ | ⟨hc, hds⟩ | ⟨hc, hds⟩ | ⟨hc, hds⟩ | ⟨hc, hds⟩ | ⟨hc, hds⟩ | ⟨hc, hds⟩ |
    ⟨hc, hds⟩ | ⟨hc, hds⟩ | ⟨hc, hds⟩ | ⟨hc, hds⟩ | ⟨hc, hds⟩ | ⟨hc, hds⟩ | ⟨hc, hds⟩ | ⟨hc, hds⟩ | ⟨hc, hds⟩ |
    ⟨hc, hds⟩ | ⟨hc, hds⟩
  all_goals
    subst hc hds
    exact ⟨_, rfl⟩

/-- A read answered with the bytes ds and a PEC, with neither a register nor a byte changed. -/
def ReadAnswered (ds : List Nat) (s t : State) : Prop :=
  (t.host.answer.ack = true ∧ t.host.answer.data = ds ∧ t.regs = s.regs ∧ t.mem = s.mem) ∧
    t.host.answer.pec.isSome = true

theorem readAnswered_answerSmb {s t : State} (code : Nat) (ds : List Nat) (hregs : t.regs = s.regs)
    (hmem : t.mem = s.mem) : ReadAnswered ds s (answerSmb code ds t) := by
  simp [ReadAnswered, answerSmb, hregs, hmem]

theorem exec_readTemperature1 {s : State} (hup : viaUp s .smbus = true) : Runs .readTemperature1 s
    (ReadAnswered (if members s (pageRail s) = [] then toBytes 2 (Config.freeWord s.fresh).toNat
      else pmbWord (linear11 (hottest s) 128)) s) := by
  have heq : exec .readTemperature1 s = execReadTemperature1 s := rfl
  by_cases h : members s (pageRail s) = []
  · rw [if_pos h]
    refine runs_of_eq (heq.trans ?_) (readAnswered_answerSmb 0x8D _ (spend_keeps s).1 (by simp))
    rw [execReadTemperature1, if_pos (by simp [h]), act_eq hup]
  · rw [if_neg h]
    refine runs_of_eq (heq.trans ?_) (readAnswered_answerSmb 0x8D _ rfl rfl)
    rw [execReadTemperature1, if_neg (by simpa using h), pmbRead, act_eq hup]

/-! ## Writes -/

section
variable {s : State} {pec : Pec} {r : Nat}

theorem pmbWrite_eq (hup : viaUp s .smbus = true) (hpec : pecHolds s pec = true) (t : State) :
    pmbWrite pec s t = .next
      (if !flag s Reg.MB_SMBCFG Fld.MB_SMBCFG_PMBW then answer [] (cmlFault 7 s)
       else if foremanServes s then answer [] t
       else nack s) := smbWrite_taken hup hpec

/-- A write that PMBW refuses sets bit 7. -/
theorem runs_pmbWrite_closed {c : Instr} (hup : viaUp s .smbus = true) (hpec : pecHolds s pec = true)
    (hpmbw : flag s Reg.MB_SMBCFG Fld.MB_SMBCFG_PMBW = false) {t : State} (hc : exec c s = pmbWrite pec s t) :
    Runs c s (CmlSet 7 s) := by
  refine runs_of_eq (hc.trans (pmbWrite_eq hup hpec t)) ?_
  rw [if_pos (by simp [hpmbw])]
  exact cmlSet_answer 7 s

/-- A write that no Foreman takes is not acknowledged. -/
theorem runs_pmbWrite_unserved {c : Instr} (hup : viaUp s .smbus = true) (hpec : pecHolds s pec = true)
    (hpmbw : flag s Reg.MB_SMBCFG Fld.MB_SMBCFG_PMBW = true) (hserves : foremanServes s = false) {t : State}
    (hc : exec c s = pmbWrite pec s t) : Runs c s fun t =>
      t.host.answer.ack = false ∧ t.regs = s.regs ∧ t.mem = s.mem ∧ statusCml t = statusCml s := by
  refine runs_of_eq (hc.trans (pmbWrite_eq hup hpec t)) ?_
  rw [if_neg (by simp [hpmbw]), if_neg (by simp [hserves])]
  exact ⟨by simp [nack], by simp [nack], by simp [nack], statusCml_of_host (by simp [nack]) (by simp [nack])⟩

theorem exec_pmbWrite_taken {c : Instr} (hup : viaUp s .smbus = true) (hpec : pecHolds s pec = true)
    (hpmbw : flag s Reg.MB_SMBCFG Fld.MB_SMBCFG_PMBW = true) (hserves : foremanServes s = true) {t : State}
    (hc : exec c s = pmbWrite pec s t) : exec c s = .next (answer [] t) := by
  rw [hc, pmbWrite_eq hup hpec t, if_neg (by simp [hpmbw]), if_pos hserves]

/-- The rail table is free for the Foreman and no PMBus write waits. -/
def PmbFree (s : State) : Prop := s.host.pmb = [] ∧ tableFree s = true

theorem pmbAsk_of_free {j : PmbJob} (h : PmbFree s) : pmbAsk j s = pmbPerform j s := by
  simp [pmbAsk, h.1, h.2]

theorem pmbAsk_of_busy {j : PmbJob} (h : ¬PmbFree s) :
    pmbAsk j s = updHost (fun h => { h with pmb := h.pmb ++ [j] }) s := by
  rw [pmbAsk, if_neg]
  simpa [PmbFree] using h

/-- A write that waits stands behind those before it, and changes neither a register nor a byte. -/
theorem pmbAsk_queued {j : PmbJob} (h : ¬PmbFree s) :
    let t := answer [] (pmbAsk j s)
    t.host.pmb = s.host.pmb ++ [j] ∧ t.host.answer.ack = true ∧ t.regs = s.regs ∧ t.mem = s.mem := by
  rw [pmbAsk_of_busy h]
  simp [answer]

theorem rtState_ne_vref (r x : Nat) : Reg.RT_STATE r ≠ Reg.RT_VREF x := by
  unfold Reg.RT_STATE Reg.RT_VREF
  omega

/-- TARGET of a rail that does not run just changes. -/
theorem voutWrite_of_stopped {v : Nat} (h : railRuns s r = false) :
    voutWrite r v s = setFld (Reg.RT_VREF r) Fld.RT_VREF_TARGET v s := by
  have hstate : railState (setFld (Reg.RT_VREF r) Fld.RT_VREF_TARGET v s) r = railState s r :=
    fld_setFld_ne _ _ _ _ _ _ (rtState_ne_vref r r)
  have hruns : railRuns (setFld (Reg.RT_VREF r) Fld.RT_VREF_TARGET v s) r = false := by
    simpa only [railRuns, hstate] using h
  simp [voutWrite, commitIfRuns, hruns]

theorem vout_stopped_effect {v : Nat} (hv : v < 65536) (h : railRuns s r = false) :
    let t := answer [] (voutWrite r v s)
    fld t (Reg.RT_VREF r) Fld.RT_VREF_TARGET = v ∧ KeepsRegs [Reg.RT_VREF r] s t := by
  rw [voutWrite_of_stopped h]
  refine ⟨?_, keepsRegs_updHost (keepsRegs_setFld _ _ _ (keepsRegs_refl _ s) (by simp)) _⟩
  rw [answer, fld_updHost, fld_setFld_self _ _ _ _ (by decide) (by decide)]
  exact Nat.mod_eq_of_lt hv

/-! ## CLEAR_FAULTS (R331, R332) -/

theorem clearStatus_effect (s : State) : statusCml (clearStatus s) = 0 ∧ statusIout (clearStatus s) = 0 ∧
    (clearStatus s).host.pmbAlert = false ∧ (clearStatus s).regs = s.regs ∧ (clearStatus s).host.pmb = s.host.pmb := by
  simp [clearStatus, statusCml, statusIout, pageRail]

/-- The status of the page's rail is clear, and SMBALERT_N is not held for it. -/
def StatusClear (t : State) : Prop := statusCml t = 0 ∧ statusIout t = 0 ∧ t.host.pmbAlert = false

theorem statusClear_of_host {t u : State} (h : StatusClear t)
    (hhost : ∃ ans pmb, u.host = { t.host with answer := ans, pmb := pmb }) : StatusClear u := by
  obtain ⟨ans, pmb, hhost⟩ := hhost
  obtain ⟨hcml, hiout, halert⟩ := h
  exact ⟨by simpa [statusCml, pageRail, hhost] using hcml, by simpa [statusIout, pageRail, hhost] using hiout,
    by simpa [hhost] using halert⟩

/-- CLEAR_FAULTS asks the Foreman to clear a LATCHED rail. -/
def ClearsRail (s : State) : Prop :=
  railState s (pageRail s) = 4 ∧ flag s Reg.MB_SMBCFG Fld.MB_SMBCFG_PMBW = true ∧ foremanServes s = true

theorem exec_clearFaults (hup : viaUp s .smbus = true) (hpec : pecHolds s pec = true) : exec (.clearFaults pec) s =
    .next (answer [] (if railState s (pageRail s) == 4 && flag s Reg.MB_SMBCFG Fld.MB_SMBCFG_PMBW && foremanServes s
      then pmbAsk (.clear (pageRail s)) (clearStatus s) else clearStatus s)) := smbWrite_taken hup hpec

theorem exec_clearFaults_quiet (hup : viaUp s .smbus = true) (hpec : pecHolds s pec = true) (h : ¬ClearsRail s) :
    exec (.clearFaults pec) s = .next (answer [] (clearStatus s)) := by
  rw [exec_clearFaults hup hpec, if_neg]
  simpa [ClearsRail, and_assoc] using h

theorem exec_clearFaults_clears (hup : viaUp s .smbus = true) (hpec : pecHolds s pec = true) (h : ClearsRail s) :
    exec (.clearFaults pec) s = .next (answer [] (pmbAsk (.clear (pageRail s)) (clearStatus s))) := by
  obtain ⟨hlatched, hpmbw, hserves⟩ := h
  rw [exec_clearFaults hup hpec, if_pos (by simp [hlatched, hpmbw, hserves])]

theorem pmbFree_clearStatus : PmbFree (clearStatus s) ↔ PmbFree s := by
  have hbusy : tableFree (clearStatus s) = tableFree s := by
    simp [tableFree, rtBusy, clearStatus, flag]
  rw [PmbFree, hbusy, (clearStatus_effect s).2.2.2.2, PmbFree]

theorem pmbPerform_clear {x : Nat} (h : railState s x = 4) : pmbPerform (.clear x) s = rtCommand 4 x false s := by
  rw [pmbPerform, if_pos h]

theorem railState_clearStatus (x : Nat) : railState (clearStatus s) x = railState s x := by
  simp [railState, clearStatus]

/-- What CLEAR_FAULTS leaves. -/
theorem runs_clearFaults (hup : viaUp s .smbus = true) (hpec : pecHolds s pec = true) :
    Runs (.clearFaults pec) s fun t => StatusClear t ∧ (¬ClearsRail s ∨ ¬PmbFree s → t.regs = s.regs) ∧
      (ClearsRail s → PmbFree s → t = answer [] (rtCommand 4 (pageRail s) false (clearStatus s))) ∧
      (ClearsRail s → ¬PmbFree s → t.host.pmb = s.host.pmb ++ [.clear (pageRail s)]) := by
  obtain ⟨hcml, hiout, halert, hregs, hpmb⟩ := clearStatus_effect s
  have hclear : StatusClear (clearStatus s) := ⟨hcml, hiout, halert⟩
  by_cases hclears : ClearsRail s
  · have heq := exec_clearFaults_clears hup hpec hclears
    by_cases hfree : PmbFree s
    · rw [pmbAsk_of_free (pmbFree_clearStatus.mpr hfree), pmbPerform_clear
        ((railState_clearStatus _).trans hclears.1)] at heq
      refine runs_of_eq heq ⟨statusClear_of_host hclear ?_, fun h => absurd h (by simp [hclears, hfree]),
        fun _ _ => rfl, fun _ h => absurd hfree h⟩
      exact ⟨_, _, by rw [answer, host_updHost, host_of_besideRails (besideRails_rtCommand _ _ _ _)]⟩
    · have hbusy := mt pmbFree_clearStatus.mp hfree
      obtain ⟨hqueue, -, hkept, -⟩ := pmbAsk_queued (j := .clear (pageRail s)) hbusy
      refine runs_of_eq heq ⟨statusClear_of_host hclear ?_, fun _ => hkept.trans hregs, fun _ h => absurd h hfree,
        fun _ _ => hqueue.trans (by rw [hpmb])⟩
      exact ⟨_, _, by rw [pmbAsk_of_busy hbusy, answer, host_updHost, host_updHost]⟩
  · refine runs_of_eq (exec_clearFaults_quiet hup hpec hclears) ⟨statusClear_of_host hclear ?_, fun _ => ?_,
      fun h => absurd h hclears, fun h => absurd h hclears⟩
    · exact ⟨_, _, by rw [answer, host_updHost]⟩
    · simpa [answer] using hregs

/-! ## Refusals -/

theorem runs_invalidWrite {e : BitVec 8} (hup : viaUp s .smbus = true) (hpec : pecHolds s pec = true)
    (h : e.toNat ∉ writeCodes) : Runs (.pmbusInvalidCommand e true pec) s (CmlSet 7 s) := by
  have heq : exec (.pmbusInvalidCommand e true pec) s = execPmbusInvalidCommand e true pec s := rfl
  refine runs_of_eq (heq.trans ?_) (cmlSet_answer 7 s)
  rw [execPmbusInvalidCommand, if_neg (by simpa using h), if_pos rfl, smbWrite_taken hup hpec]

theorem runs_invalidRead {e : BitVec 8} (hup : viaUp s .smbus = true) (h : e.toNat ∉ readCodes) :
    Runs (.pmbusInvalidCommand e false pec) s fun t => CmlSet 7 s t ∧ t.host.answer.ack = false := by
  have heq : exec (.pmbusInvalidCommand e false pec) s = execPmbusInvalidCommand e false pec s := rfl
  refine runs_of_eq (heq.trans ?_) ⟨cmlSet_nack 7 s, by simp [nack]⟩
  rw [execPmbusInvalidCommand, if_neg (by simpa using h), if_neg (by simp), act_eq hup]

/-- Every write needs its PEC. -/
theorem exec_pmbWrites {v : BitVec 8} {w : BitVec 16} {c : Instr} (hup : viaUp s .smbus = true)
    (hpec : pecHolds s pec = false) (hc : c ∈ [Instr.page (some v) pec, .operation (some v) pec,
      .voutCommand (some w) pec, .clearFaults pec]) : exec c s = .next (nack s) := by
  simp only [List.mem_cons, List.not_mem_nil, or_false] at hc
  rcases hc with rfl | rfl | rfl | rfl
  all_goals exact smbWrite_refused hup hpec _ _

end

/-- OPERATION's write, by its value. -/
theorem exec_operation (v : BitVec 8) (pec : Pec) (s : State) : exec (.operation (some v) pec) s = pmbWrite pec s
    (if v = 0x80#8 then pmbAsk (.enable (pageRail s)) s
     else if v = 0x40#8 ∨ v = 0#8 then pmbAsk (.disable (pageRail s)) s
     else cmlFault 6 s) := rfl

/-- VOUT_COMMAND's write. -/
theorem exec_voutCommand (w : BitVec 16) (pec : Pec) (s : State) : exec (.voutCommand (some w) pec) s = pmbWrite pec s
    (if roundAwayDiv ((w.toNat : Int) * 625) 512 < 4000 ∨ 65534 < roundAwayDiv ((w.toNat : Int) * 625) 512
      then cmlFault 6 s else pmbAsk (.vout (pageRail s) (roundAwayDiv ((w.toNat : Int) * 625) 512).toNat) s) := rfl

/-- Settles O55: each read answers with its bytes and its PEC, and each write acts or is refused as above. -/
theorem pmbusCommandsRun : Obligations.PmbusCommandsRun := by
  unfold Obligations.PmbusCommandsRun
  intro s v e w pec hup
  refine ⟨fun c ds hc => ?_, exec_readTemperature1 hup, fun hpec => ⟨?_, fun hpmbw => ⟨?_, ?_⟩,
    fun hpmbw hserves c hc => ?_, fun hpmbw hserves => ⟨fun hv => ?_, ?_, fun y hy => ?_, ?_⟩, ?_,
    runs_invalidWrite hup hpec⟩, runs_invalidRead hup, fun hpec c hc => ?_⟩
  · obtain ⟨code, hcode⟩ := exec_pmbRead hc
    exact runs_of_eq (hcode.trans (act_eq hup)) (readAnswered_answerSmb code ds rfl rfl)
  -- PAGE
  · refine runs_of_eq (smbWrite_taken hup hpec) ⟨fun hv => ?_, fun hv => ?_⟩
    · rw [if_pos hv]
      simp [answer]
    · rw [if_neg (by omega)]
      exact ⟨by simpa [answer] using (cmlFault_effect 6 s).2.2.2, cmlSet_answer 6 s⟩
  -- PMBW = 0, and no Foreman
  · exact runs_pmbWrite_closed hup hpec hpmbw (exec_operation v pec s)
  · exact runs_pmbWrite_closed hup hpec hpmbw (exec_voutCommand w pec s)
  · simp only [List.mem_cons, List.not_mem_nil, or_false] at hc
    rcases hc with rfl | rfl
    · exact runs_pmbWrite_unserved hup hpec hpmbw hserves (exec_operation v pec s)
    · exact runs_pmbWrite_unserved hup hpec hpmbw hserves (exec_voutCommand w pec s)
  -- OPERATION
  · simp only [List.mem_cons, List.not_mem_nil, or_false, not_or] at hv
    refine runs_of_eq (exec_pmbWrite_taken hup hpec hpmbw hserves (exec_operation v pec s)) ?_
    rw [if_neg hv.1, if_neg (by simpa using hv.2)]
    exact cmlSet_answer 6 s
  · refine runs_of_eq (exec_pmbWrite_taken hup hpec hpmbw hserves (exec_operation _ pec s)) ?_
    rw [if_pos rfl]
    exact ⟨fun hfree => by rw [pmbAsk_of_free hfree, pmbPerform], fun hbusy => pmbAsk_queued hbusy⟩
  · have hoff : y ≠ 0x80#8 ∧ (y = 0x40#8 ∨ y = 0#8) := by
      simp only [List.mem_cons, List.not_mem_nil, or_false] at hy
      rcases hy with rfl | rfl <;> decide
    refine runs_of_eq (exec_pmbWrite_taken hup hpec hpmbw hserves (exec_operation y pec s)) ?_
    rw [if_neg hoff.1, if_pos hoff.2]
    exact ⟨fun hfree => by rw [pmbAsk_of_free hfree, pmbPerform], fun hbusy => pmbAsk_queued hbusy⟩
  -- VOUT_COMMAND
  · refine runs_of_eq (exec_pmbWrite_taken hup hpec hpmbw hserves (exec_voutCommand w pec s))
      ⟨fun hout => ?_, fun hlow hhigh => ?_⟩
    · rw [if_pos hout]
      exact cmlSet_answer 6 s
    · rw [if_neg (by omega)]
      refine ⟨fun hbusy => pmbAsk_queued hbusy, fun hfree hstopped => ?_, fun hfree hruns => ?_⟩
      · rw [pmbAsk_of_free hfree, pmbPerform]
        exact vout_stopped_effect (by omega) hstopped
      · rw [pmbAsk_of_free hfree, pmbPerform]
  · obtain ⟨t, ht, ⟨hcml, hiout, halert⟩, hkept, hclears, hwaits⟩ := runs_clearFaults hup hpec
    exact ⟨t, ht, hcml, hiout, halert, hkept, hclears, hwaits⟩
  · exact runs_of_eq (exec_pmbWrites hup hpec hc) ⟨by simp [nack], by simp [nack], by simp [nack],
      statusCml_of_host (by simp [nack]) (by simp [nack])⟩

end Sys2Proof.Machine
end

section
/-! The registers that a read or a write of memory, or of the NVM, leaves as they are: those of the recorder, the
supply monitor and the mailbox among them (R297 to R300, R309, R369 to R377). -/

namespace Sys2Proof.Machine

/-- A register of the recorder, the supply monitor, the stream ports or the mailbox: no report changes it, nor any
access to memory or to the NVM. -/
def Upstream (a : Nat) : Prop := 0x30020000 ≤ a ∧ a < 0x30060000

theorem upstream_sess {x : Nat} (h : x < 16) : Upstream (Reg.MB_SESS x) := by
  unfold Upstream Reg.MB_SESS
  omega

theorem upstream_mode : Upstream Reg.SM_MODE := by
  unfold Upstream
  decide

theorem upstream_hstat : Upstream Reg.MB_HSTAT := by
  unfold Upstream
  decide

theorem Upstream.not_fault {x : Nat} (h : Upstream x) : x ∉ faultRegs := fun hx =>
  absurd (faultRegs_lt x hx) (Nat.not_lt.mpr h.1)

theorem Upstream.system {x : Nat} (h : Upstream x) : 0x30000000 ≤ x := le_trans (by decide) h.1

section
variable {x : Nat} (h : Upstream x)
include h

theorem rd_report_upstream {y : Rep} (hq : ∀ q ∈ noticeQuires y, q < 16) (s : State) : rd (report y s) x = rd s x :=
  rd_report_system hq h.system h.not_fault s

theorem upstream_ne_bstat (k : Nat) : x ≠ Reg.MR_BSTAT k := by
  have := h.2
  unfold Reg.MR_BSTAT
  omega

theorem upstream_ne_scstat : x ≠ Reg.MR_SCSTAT := by
  have := h.2
  unfold Reg.MR_SCSTAT
  omega

theorem upstream_ne_ecc : x ≠ Reg.NV_ECC := by
  have := h.2
  unfold Reg.NV_ECC
  omega

/-! ## SRAM (R297 to R300) -/

omit h in
theorem rd_strikeWord (a : Nat) (u : Upset) (s : State) : rd (strikeWord a u s).1 x = rd s x := by
  cases u <;> simp [strikeWord, setUpset]

theorem rd_touchWord (m k a type size : Nat) (scrub : Bool) (u : Upset) (s : State) :
    rd (touchWord m k a type size scrub u s).1 x = rd s x := by
  have hreport {y : Rep} (hy : y.src = 8) (t : State) : rd (report y t) x = rd t x :=
    rd_report_upstream h (by rw [noticeQuires, hy]; exact fun _ => List.mem_range.mp) t
  have hagain (b : Bool) (y : Rep) (hy : y.src = 8) (t : State) : rd (if b then report y t else t) x = rd t x := by
    cases b
    · rfl
    · exact hreport hy t
  have hstruck := rd_strikeWord (x := x) a u s
  unfold touchWord
  dsimp only
  split
  · split
    · exact (rd_setFld_ne _ _ _ _ _ (upstream_ne_scstat h)).trans (rd_updRas _ _ _)
    · exact (hreport rfl _).trans (rd_updRas _ _ _)
  · split
    · exact (hagain _ _ rfl _).trans hstruck
    · exact (rd_correctWord h.system h.not_fault (upstream_ne_bstat h k) _ _ _).trans ((hagain _ _ rfl _).trans hstruck)
    · refine (hreport rfl _).trans ((rd_updRas _ _ _).trans ((rd_spend _ _).trans ?_))
      exact (hagain _ _ rfl _).trans hstruck

theorem rd_storeWord (m k a n v size : Nat) (u : Upset) (s : State) :
    rd (storeWord m k a n v size u s).1 x = rd s x := by
  unfold storeWord
  split
  · simp [setUpset, setWritten, rd_of_regs (regs_setValue _ _ _ s)]
  · split
    · dsimp only
      split
      · exact (rd_of_regs (regs_setValue _ _ _ _) x).trans (rd_touchWord h m k a 3 size false u s)
      · exact rd_touchWord h m k a 3 size false u s
    · simp [setUpset, setWritten, rd_of_regs (regs_setValue _ _ _ _)]

theorem rd_storeBytes (m a : Nat) (bs : List Nat) (s : State) : rd (storeBytes m a bs s) x = rd s x := by
  refine forAll_keeps (rd · x) _ (fun i s => ?_) s
  dsimp only
  split
  · exact rd_storeWord h _ _ _ _ _ _ _ _
  · rfl

/-! ## The NVM (R309) -/

theorem rd_nvReadCw (m a sect c flips : Nat) (s : State) : rd (nvReadCw m a sect c flips s).1 x = rd s x := by
  unfold nvReadCw
  dsimp only
  split
  · exact (rd_updNv _ _ _).trans ((rd_setFld_ne _ _ _ _ _ (upstream_ne_ecc h)).trans (rd_updNv _ _ _))
  · split
    · exact (rd_report_upstream h (fun _ => List.mem_range.mp) _).trans
        ((rd_setFld_ne _ _ _ _ _ (upstream_ne_ecc h)).trans (rd_updNv _ _ _))
    · exact rd_updNv _ _ _

theorem rd_readFolio (sect count : Nat) (s : State) : rd (readFolio sect count s) x = rd s x := by
  refine forAll_keeps (rd · x) _ (fun key s => ?_) s
  split
  · exact rd_nvReadCw h _ _ _ _ _ _
  · rfl

end

end Sys2Proof.Machine
end

section
/-! The fault manager: reports, its queue and log, its clears, the quiet period, the watchdog and the Foreman's cores
(R366 to R389). -/

namespace Sys2Proof.Machine

@[simp] theorem fm_updFm (f : FaultMgr → FaultMgr) (s : State) : (updFm f s).fm = f s.fm := (rfl)

/-! ## Reports (R366 to R377) -/

/-- BD_IPEND of no quire, of the device or not, is a register of the fault manager. -/
theorem faultManager_not_line {a q : Nat} (h : 0x30010000 ≤ a ∧ a < 0x30020000) : a ∉ lineRegs q := fun hline => by
  obtain ⟨i, hi, hreg⟩ := List.mem_map.mp hline
  have := List.mem_range.mp hi
  unfold Reg.BD_IPEND quireBlock at hreg
  omega

/-- The registers that the queue and the log show their drops in. -/
def dropRegs : List Nat := [Reg.FM_QDROP, Reg.FM_LOGDROP]

/-- The registers of first-error capture. -/
def fecRegs : List Nat :=
  [Reg.FM_FEC_MORE, Reg.FM_FEC_ADDR_LO, Reg.FM_FEC_ADDR_HI, Reg.FM_FEC_TB_LO, Reg.FM_FEC_TB_HI, Reg.FM_FEC_HRS_LO,
    Reg.FM_FEC_HRS_HI, Reg.FM_FEC_PCC, Reg.FM_FEC_INFO]

theorem fileRecord_effect (rc : FaultRec) (s : State) :
    let t := fileRecord rc s
    t.fm.q = (queueRecord s.fm.q rc).1 ∧ t.fm.seq = rc.seq ∧ KeepsRegs dropRegs s t := by
  have hdrop (n : Nat) (f : FaultMgr → FaultMgr) :
      KeepsRegs dropRegs s (addFld Reg.FM_QDROP wordBits n (updFm f s)) :=
    keepsRegs_setFld _ _ _ (keepsRegs_updFm (keepsRegs_refl _ s) f) (by decide)
  unfold fileRecord
  dsimp only
  split
  · exact ⟨by simp [addFld], by simp [addFld], hdrop _ _⟩
  · split
    · exact ⟨by simp [addFld], by simp [addFld], keepsRegs_updFm (hdrop _ _) _⟩
    · exact ⟨by simp [addFld, incFld], by simp [addFld, incFld], keepsRegs_setFld _ _ _ (hdrop _ _) (by decide)⟩

/-- The class of a record counts it, and no other count moves. -/
theorem countClass_effect (cls : Nat) (s : State) :
    let t := countClass cls s
    rd t Reg.FM_CCNT = (if cls = 1 then min (rd s Reg.FM_CCNT + 1) 4294967295 else rd s Reg.FM_CCNT) ∧
      rd t Reg.FM_UCNT = (if cls = 2 then min (rd s Reg.FM_UCNT + 1) 4294967295 else rd s Reg.FM_UCNT) ∧
      rd t Reg.FM_FCNT = (if cls = 3 then min (rd s Reg.FM_FCNT + 1) 4294967295 else rd s Reg.FM_FCNT) ∧
      rd t Reg.FM_STAT = rd s Reg.FM_STAT ∧ t.fm = s.fm := by
  have hother {a b : Nat} (h : a ≠ b) : rd (incFld b wordBits s) a = rd s a := rd_setFld_ne _ _ _ _ _ h
  have hfm (a : Nat) : (incFld a wordBits s).fm = s.fm := by simp [incFld, addFld]
  unfold countClass
  split
  · exact ⟨rd_incFld_wordBits _ s, hother (by decide), hother (by decide), hother (by decide), hfm _⟩
  · exact ⟨hother (by decide), rd_incFld_wordBits _ s, hother (by decide), hother (by decide), hfm _⟩
  · exact ⟨hother (by decide), hother (by decide), rd_incFld_wordBits _ s, hother (by decide), hfm _⟩
  next h1 h2 h3 => exact ⟨(if_neg h1).symm, (if_neg h2).symm, (if_neg h3).symm, rfl, rfl⟩

theorem capture_effect (x : Rep) (f : FecInfo) (s : State) :
    KeepsRegs fecRegs s (capture x f s) ∧ (capture x f s).fm = s.fm := by
  unfold capture
  split
  · exact ⟨keepsRegs_setFld _ _ _ (keepsRegs_refl _ s) (by decide), by simp [incFld, addFld]⟩
  · refine ⟨?_, by simp⟩
    iterate 8 refine keepsRegs_wr _ _ ?_ (by decide)
    exact keepsRegs_refl _ s

/-- The queue of FM_Q and the count that numbers its records. -/
def faultQueue (s : State) : List FaultRec × Nat := (s.fm.q, s.fm.seq)

theorem faultQueue_setLine (q m : Nat) (s : State) : faultQueue (setLine q m s) = faultQueue s := by
  refine forAll_keeps faultQueue _ (fun i s => ?_) s
  split
  · rfl
  · simp [faultQueue, setLineOf, raiseWord, orWord]

/-- ALERT, and line 19 of the quires that a record of class U or F concerns (R373, R377). -/
def alarm (x : Rep) (s : State) : State := forAll (noticeQuires x) (fun q s => setLine q 19 s) (raiseAlert s)

theorem alarm_effect (x : Rep) (s : State) : let t := alarm x s
    faultQueue t = faultQueue s ∧
      (∀ a, 0x30010000 ≤ a → a < 0x30020000 → a ≠ Reg.FM_STAT → rd t a = rd s a) ∧
      flag t Reg.FM_STAT Fld.FM_STAT_ALERT = true ∧
      flag t Reg.FM_STAT Fld.FM_STAT_FPEND = flag s Reg.FM_STAT Fld.FM_STAT_FPEND := by
  have hlines {a : Nat} (hlow : 0x30010000 ≤ a) (hhigh : a < 0x30020000) (t : State) :
      rd (forAll (noticeQuires x) (fun q s => setLine q 19 s) t) a = rd t a := by
    refine keepsRegs_setLines (noticeQuires x) t a fun hline => ?_
    obtain ⟨q, -, hreg⟩ := List.mem_flatMap.mp hline
    exact faultManager_not_line ⟨hlow, hhigh⟩ hreg
  have hstat (t : State) (f : Bits) :
      flag (forAll (noticeQuires x) (fun q s => setLine q 19 s) t) Reg.FM_STAT f = flag t Reg.FM_STAT f :=
    flag_of_fld_eq (by rw [fld, hlines (by decide) (by decide), fld])
  unfold alarm
  refine ⟨(forAll_keeps faultQueue _ (fun q s => faultQueue_setLine q 19 s) _).trans ?_, fun a hlow hhigh hne => ?_,
    (hstat _ _).trans ?_, (hstat _ _).trans ?_⟩
  · simp [faultQueue, raiseAlert]
  · exact (hlines hlow hhigh _).trans ((rd_setFld_ne _ _ _ _ _ hne).trans (rd_updFm _ _ _))
  · exact flag_setFlag_self _ _ _ _ (by decide) (by decide)
  · exact (flag_setFlag_other _ 31 30 _ _ (by decide) (by decide)).trans (flag_of_fld_eq (fld_updFm _ _ _ _))

/-- What a class raises once its record is filed: the alarm, and FPEND for class F. -/
def escalate (x : Rep) (s : State) : State :=
  if x.cls < 2 then s else if x.cls = 3 then setFlag Reg.FM_STAT Fld.FM_STAT_FPEND true (alarm x s) else alarm x s

theorem escalate_effect {x : Rep} (hcls : x.cls < 4) (s : State) : let t := escalate x s
    faultQueue t = faultQueue s ∧
      (∀ a, 0x30010000 ≤ a → a < 0x30020000 → a ≠ Reg.FM_STAT → rd t a = rd s a) ∧
      flag t Reg.FM_STAT Fld.FM_STAT_ALERT = (flag s Reg.FM_STAT Fld.FM_STAT_ALERT || decide (2 ≤ x.cls)) ∧
      flag t Reg.FM_STAT Fld.FM_STAT_FPEND = (flag s Reg.FM_STAT Fld.FM_STAT_FPEND || decide (x.cls = 3)) := by
  obtain ⟨hqueue, hregs, halert, hpend⟩ := alarm_effect x s
  unfold escalate
  by_cases hlow : x.cls < 2
  · rw [if_pos hlow, decide_eq_false (by omega), decide_eq_false (by omega)]
    simp
  rw [if_neg hlow, decide_eq_true (show 2 ≤ x.cls by omega), Bool.or_true]
  by_cases hfatal : x.cls = 3
  · rw [if_pos hfatal, decide_eq_true hfatal, Bool.or_true]
    refine ⟨Eq.trans (by simp [faultQueue]) hqueue, fun a hl hh hne => (rd_setFld_ne _ _ _ _ _ hne).trans (hregs a hl hh hne),
      (flag_setFlag_other _ 30 31 _ _ (by decide) (by decide)).trans halert,
      flag_setFlag_self _ _ _ _ (by decide) (by decide)⟩
  · rw [if_neg hfatal, decide_eq_false hfatal, Bool.or_false]
    exact ⟨hqueue, hregs, halert, hpend⟩

/-- A report files its record, counts it, captures it where R374 says so, and escalates it. -/
theorem report_stages (x : Rep) (s : State) : ∃ u, report x s = escalate x u ∧
    KeepsRegs fecRegs (countClass x.cls (fileRecord (recordOf s x) s)) u ∧
    u.fm = (countClass x.cls (fileRecord (recordOf s x) s)).fm := by
  unfold report
  cases x.fec with
  | none => exact ⟨_, by rw [escalate, alarm], keepsRegs_refl _ _, rfl⟩
  | some f => exact ⟨_, by rw [escalate, alarm], (capture_effect x f _).1, (capture_effect x f _).2⟩

/-- A report is counted in its class, queued with the next number, and raises ALERT and FPEND by its class. -/
theorem report_effect {x : Rep} (hcls : x.cls < 4) (s : State) : let t := report x s
    t.fm.seq = s.fm.seq + 1 ∧ t.fm.q = (queueRecord s.fm.q (recordOf s x)).1 ∧
      rd t Reg.FM_CCNT = (if x.cls = 1 then min (rd s Reg.FM_CCNT + 1) 4294967295 else rd s Reg.FM_CCNT) ∧
      rd t Reg.FM_UCNT = (if x.cls = 2 then min (rd s Reg.FM_UCNT + 1) 4294967295 else rd s Reg.FM_UCNT) ∧
      rd t Reg.FM_FCNT = (if x.cls = 3 then min (rd s Reg.FM_FCNT + 1) 4294967295 else rd s Reg.FM_FCNT) ∧
      flag t Reg.FM_STAT Fld.FM_STAT_ALERT = (flag s Reg.FM_STAT Fld.FM_STAT_ALERT || decide (2 ≤ x.cls)) ∧
      flag t Reg.FM_STAT Fld.FM_STAT_FPEND = (flag s Reg.FM_STAT Fld.FM_STAT_FPEND || decide (x.cls = 3)) := by
  obtain ⟨u, heq, hcaptured, hfm⟩ := report_stages x s
  obtain ⟨hq, hseq, hfiled⟩ := fileRecord_effect (recordOf s x) s
  obtain ⟨hc, hu, hf, hstat, hcount⟩ := countClass_effect x.cls (fileRecord (recordOf s x) s)
  obtain ⟨hqueue, hregs, halert, hpend⟩ := escalate_effect hcls u
  have hflag (f : Bits) : flag u Reg.FM_STAT f = flag s Reg.FM_STAT f := flag_of_fld_eq (by
    rw [fld, hcaptured _ (by decide), hstat, hfiled _ (by decide), fld])
  rw [heq]
  refine ⟨(congrArg Prod.snd hqueue).trans ?_, (congrArg Prod.fst hqueue).trans ?_, ?_, ?_, ?_, ?_, ?_⟩
  · show u.fm.seq = _
    rw [hfm, hcount, hseq, recordOf]
  · show u.fm.q = _
    rw [hfm, hcount, hq]
  · rw [hregs _ (by decide) (by decide) (by decide), hcaptured _ (by decide), hc, hfiled _ (by decide)]
  · rw [hregs _ (by decide) (by decide) (by decide), hcaptured _ (by decide), hu, hfiled _ (by decide)]
  · rw [hregs _ (by decide) (by decide) (by decide), hcaptured _ (by decide), hf, hfiled _ (by decide)]
  · rw [halert, hflag]
  · rw [hpend, hflag]

theorem mem_takeReport (x : Report) (s : State) : (takeReport x s).mem = s.mem := by
  unfold takeReport
  split
  · split
    · unfold unsafeConverter
      split
      · exact mem_of_besideRails (by simp [settleConverter])
      · exact mem_unsafeLatch s _
    · exact mem_unsafeLatch s _
  · exact mem_report _ s

theorem takeReport_of_safe {x : Report} {s : State} (h : ¬(x.src = 1 ∧ x.event = 2)) :
    takeReport x s = report (repOf x) s := by
  unfold takeReport
  rw [if_neg fun g => h ⟨g.1, g.2.1⟩]

/-! ## The queue, the log and the list of disagreements (R371, R372, R389) -/

/-- Words that go to registers of their own each stand in theirs. -/
theorem rd_forAll_wr {g : Nat → Nat} (hg : ∀ i j, g i = g j → i = j) (v : Nat → Nat) (n : Nat) (s : State) :
    ∀ {i : Nat}, i < n → rd (forAll (List.range n) (fun w s => wr (g w) (v w) s) s) (g i) = v i % 2 ^ 32 := by
  induction n with
  | zero => exact fun h => absurd h (Nat.not_lt_zero _)
  | succ n ih =>
    intro i hi
    rw [forAll_range_succ]
    by_cases heq : i = n
    · rw [heq, rd_wr_self]
    · rw [rd_wr_ne _ _ _ _ fun h => heq (hg _ _ h)]
      exact ih (by omega)

theorem keepsRegs_forAll_wr (g v : Nat → Nat) (n : Nat) (s : State) :
    KeepsRegs ((List.range n).map g) s (forAll (List.range n) (fun w s => wr (g w) (v w) s) s) :=
  keepsRegs_forAll _ (fun _ hw s => keepsRegs_wr _ _ (keepsRegs_refl _ s) (List.mem_map_of_mem hw)) s

theorem queueRead_of_nil {s : State} (h : s.fm.q = []) : queueRead s = wr Reg.FM_Q 0 s := by
  simp only [queueRead, h]

theorem queueRead_of_cons {s : State} {y : FaultRec} {rest : List FaultRec} (h : s.fm.q = y :: rest) :
    queueRead s = forAll (List.range 8) (fun w s => wr (Reg.FM_QREC w) (nthD 0 (recordWords y) w) s)
      (wr Reg.FM_Q (nthD 0 (recordWords y) 0) (updFm (fun f => { f with q := rest }) s)) := by
  simp only [queueRead, h]

theorem qrec_injective (i j : Nat) (h : Reg.FM_QREC i = Reg.FM_QREC j) : i = j := by
  unfold Reg.FM_QREC at h
  omega

/-- A read of FM_Q shows the oldest record and removes it. -/
theorem queueRead_effect (s : State) : let t := queueRead s
    t.fm.q = s.fm.q.tail ∧ t.fm.logbuf = s.fm.logbuf ∧ KeepsRegs (Reg.FM_Q :: (List.range 8).map Reg.FM_QREC) s t ∧
      t.mem = s.mem ∧ (s.fm.q = [] → rd t Reg.FM_Q = 0) ∧
      (∀ y rest, s.fm.q = y :: rest → ∀ w, w < 8 → rd t (Reg.FM_QREC w) = nthD 0 (recordWords y) w % 2 ^ 32) := by
  cases hq : s.fm.q with
  | nil =>
    rw [queueRead_of_nil hq]
    exact ⟨by simp [hq], by simp, keepsRegs_wr _ _ (keepsRegs_refl _ s) (by simp), by simp,
      fun _ => rd_wr_self _ _ _, fun _ _ h => absurd h (by simp)⟩
  | cons y rest =>
    rw [queueRead_of_cons hq]
    have hfm := forAll_keeps State.fm (List.range 8)
      (f := fun w s => wr (Reg.FM_QREC w) (nthD 0 (recordWords y) w) s) (fun w s => by simp)
    refine ⟨by rw [hfm]; simp, by rw [hfm]; simp, ?_, ?_, fun h => absurd h (by simp), fun z r h w hw => ?_⟩
    · exact keepsRegs_trans (keepsRegs_wr _ _ (keepsRegs_updFm (keepsRegs_refl _ s) _) (by simp))
        (keepsRegs_mono (fun _ => List.mem_cons_of_mem _) (keepsRegs_forAll_wr Reg.FM_QREC _ 8 _))
    · exact (forAll_keeps State.mem _ (fun w s => by simp) _).trans (by simp)
    · obtain ⟨rfl, -⟩ := List.cons.inj h
      exact rd_forAll_wr qrec_injective _ 8 _ hw

theorem disqRead_of_nil {s : State} (h : s.fm.disq = []) : disqRead s = wr Reg.FM_DISQ 0 s := by
  simp only [disqRead, h]

theorem disqRead_of_cons {s : State} {d : Disagree} {rest : List Disagree} (h : s.fm.disq = d :: rest) :
    disqRead s = wr Reg.FM_DISQ (disqWord d) (updFm (fun f => { f with disq := rest }) s) := by
  simp only [disqRead, h]

theorem disqRead_effect (s : State) : let t := disqRead s
    t.fm.disq = s.fm.disq.tail ∧ t.fm.dlist = s.fm.dlist ∧ KeepsRegs [Reg.FM_DISQ] s t ∧ t.mem = s.mem ∧
      (s.fm.disq = [] → rd t Reg.FM_DISQ = 0) ∧
      (∀ d rest, s.fm.disq = d :: rest → rd t Reg.FM_DISQ = disqWord d % 2 ^ 32) := by
  cases hq : s.fm.disq with
  | nil =>
    rw [disqRead_of_nil hq]
    exact ⟨by simp [hq], by simp, keepsRegs_wr _ _ (keepsRegs_refl _ s) (by simp), by simp,
      fun _ => rd_wr_self _ _ _, fun _ _ h => absurd h (by simp)⟩
  | cons d rest =>
    rw [disqRead_of_cons hq]
    refine ⟨by simp, by simp, keepsRegs_wr _ _ (keepsRegs_updFm (keepsRegs_refl _ s) _) (by simp), by simp,
      fun h => absurd h (by simp), fun e r h => ?_⟩
    obtain ⟨rfl, -⟩ := List.cons.inj h
    exact rd_wr_self _ _ _

theorem logAppend_effect (x : FaultRec) (s : State) :
    (logAppend x s).fm.logbuf = s.fm.logbuf ∧ x ∈ (logAppend x s).fm.log ∧ (logAppend x s).mem = s.mem := by
  have hfm (base pos : Nat) (bs : List Nat) : (ringAppend base pos bs s).fm = s.fm :=
    (congrArg State.fm (besideNvm_ringAppend base pos bs s) :)
  unfold logAppend
  refine ⟨by simp [hfm], by simp, by simp [mem_ringAppend]⟩

/-- A record that is appended leaves the log buffer for the log. -/
theorem appendRecord_effect (y : FaultRec) (s : State) : let t := appendRecord y s
    y ∉ t.fm.logbuf ∧ y ∈ t.fm.log ∧ t.mem = s.mem := by
  obtain ⟨hbuf, hlog, hmem⟩ := logAppend_effect y (updFm (fun f => { f with logbuf := f.logbuf.filter (· != y) }) s)
  have hgone : y ∉ (logAppend y (updFm (fun f => { f with logbuf := f.logbuf.filter (· != y) }) s)).fm.logbuf := by
    rw [hbuf]
    simp
  unfold appendRecord
  dsimp only
  split
  · exact ⟨by simpa using hgone, by simpa using hlog, by simpa using hmem⟩
  · exact ⟨hgone, hlog, hmem⟩

/-! ## Clears (R373, R374, R389) -/

theorem rd_forAll_wr_zero {a : Nat} : ∀ (as : List Nat) (s : State), a ∈ as ∨ rd s a = 0 →
    rd (forAll as (fun a s => wr a 0 s) s) a = 0
  | [], _, h => h.resolve_left (by simp)
  | b :: as, s, h => by
    rw [forAll_cons]
    refine rd_forAll_wr_zero as _ ?_
    by_cases hb : a = b
    · exact .inr (hb ▸ rd_wr_self _ _ _)
    · rw [rd_wr_ne _ _ _ _ hb]
      exact h.imp_left fun hmem => (List.mem_cons.mp hmem).resolve_left hb

theorem onlyRegs_forAll_wr_zero {bs : List Nat} {s : State} : ∀ (as : List Nat) {t : State}, as ⊆ bs →
    OnlyRegs bs s t → OnlyRegs bs s (forAll as (fun a s => wr a 0 s) t)
  | [], _, _, h => h
  | a :: as, t, hsub, h => by
    rw [forAll_cons]
    exact onlyRegs_forAll_wr_zero as (fun x hx => hsub (List.mem_cons_of_mem _ hx))
      (onlyRegs_wr a 0 h (hsub List.mem_cons_self))

theorem one_wr_zero (a : Nat) (s : State) : rd (wr a 0 s) a = 0 ∧ OnlyRegs [a] s (wr a 0 s) :=
  ⟨rd_wr_self _ _ _, onlyRegs_wr a 0 (onlyRegs_refl _ s) (by simp)⟩

theorem avun_injective (i j : Nat) (h : Reg.FM_AVUN i = Reg.FM_AVUN j) : i = j := by
  unfold Reg.FM_AVUN at h
  omega

theorem availClear_effect (s : State) : let t := availClear s
    rd t Reg.FM_AVCOND = 0xFFFFFFFF ∧ (∀ j, j < 32 → rd t (Reg.FM_AVUN j) = 0) ∧ t.mem = s.mem ∧
      KeepsRegs (Reg.FM_AVCOND :: (List.range 32).map Reg.FM_AVUN) s t := by
  unfold availClear
  have hunits := keepsRegs_forAll_wr Reg.FM_AVUN (fun _ => 0) 32
    (wr Reg.FM_AVCOND 0xFFFFFFFF (updFm (fun f => { f with unavail := [] }) s))
  refine ⟨(hunits _ (by decide)).trans (rd_wr_self _ _ _), fun j hj => rd_forAll_wr avun_injective (fun _ => 0) 32 _ hj,
    (forAll_keeps State.mem _ (fun w s => by simp) _).trans (by simp), ?_⟩
  exact keepsRegs_trans (keepsRegs_wr _ _ (keepsRegs_updFm (keepsRegs_refl _ s) _) (by simp))
    (keepsRegs_mono (fun _ => List.mem_cons_of_mem _) hunits)

/-! ## The end of the quiet period (R377, R378) -/

/-- ALERT clears and FM_RECOVERIES counts, before the mode settles. -/
def alertOver (s : State) : State := incFld Reg.FM_RECOVERIES wordBits (setFlag Reg.FM_STAT Fld.FM_STAT_ALERT false s)

theorem rd_settleMode_of_ne {a : Nat} (hmode : a ≠ Reg.SM_MODE) (hstat : a ≠ Reg.MB_HSTAT) (s : State) :
    rd (settleMode s) a = rd s a := by
  have henter (m : Nat) : rd (enterMode m s) a = rd s a :=
    (rd_setFld_ne _ _ _ _ _ hstat).trans (rd_setFld_ne _ _ _ _ _ hmode)
  unfold settleMode
  split
  · exact henter 5
  · split
    · exact henter 4
    · rfl

theorem mem_settleMode (s : State) : (settleMode s).mem = s.mem := by
  unfold settleMode
  (repeat' split) <;> simp

theorem quietEnd_effect (s : State) : let t := settleMode (alertOver s)
    flag t Reg.FM_STAT Fld.FM_STAT_ALERT = false ∧
      rd t Reg.FM_RECOVERIES = min (rd s Reg.FM_RECOVERIES + 1) 4294967295 ∧ t.mem = s.mem ∧
      (mode s = 5 → rd s Reg.FM_DEGR = 0 → mode t = 4) := by
  have hkept {a : Nat} (h1 : a ≠ Reg.FM_RECOVERIES) (h2 : a ≠ Reg.FM_STAT) : rd (alertOver s) a = rd s a :=
    (rd_setFld_ne _ _ _ _ _ h1).trans (rd_setFld_ne _ _ _ _ _ h2)
  have halert : flag (alertOver s) Reg.FM_STAT Fld.FM_STAT_ALERT = false :=
    (flag_of_fld_eq (fld_setFld_ne _ _ _ _ _ _ (by decide))).trans
      (flag_setFlag_self _ _ _ _ (by decide) (by decide))
  refine ⟨(flag_of_fld_eq (by rw [fld, rd_settleMode_of_ne (by decide) (by decide), fld])).trans halert, ?_,
    (mem_settleMode _).trans (by simp [alertOver, incFld, addFld]), fun hmode hdegr => ?_⟩
  · rw [rd_settleMode_of_ne (by decide) (by decide), alertOver, rd_incFld_wordBits, setFlag,
      rd_setFld_ne _ _ _ _ _ (by decide)]
  · have hmode' : mode (alertOver s) = 5 := by
      rw [mode, fld, hkept (by decide) (by decide)]
      exact hmode
    have hdegr' : rd (alertOver s) Reg.FM_DEGR = 0 := (hkept (by decide) (by decide)).trans hdegr
    rw [settleMode, if_neg (by simp [hmode']), if_pos ⟨hmode', hdegr', halert⟩]
    exact mode_enterMode 4 _ (by decide)

/-! ## The watchdog and the Foreman (R334, R381) -/

/-- No session is open. -/
def SessionsFree (s : State) : Prop := ∀ y, y < 16 → sessState s y = 0

theorem sessState_of_rd {s t : State} {y : Nat} (h : rd t (Reg.MB_SESS y) = rd s (Reg.MB_SESS y)) :
    sessState t y = sessState s y := by rw [sessState, fld, h, sessState, fld]

/-- What keeps the registers upstream of the memories keeps the sessions. -/
theorem sessionsFree_of_upstream {s t : State} (h : SessionsFree s) (hkept : ∀ a, Upstream a → rd t a = rd s a) :
    SessionsFree t := fun y hy => (sessState_of_rd (hkept _ (upstream_sess hy))).trans (h y hy)

theorem freeSession_regs (x : Nat) (s : State) : (freeSession x s).regs =
    (setFld (Reg.MB_SESS x) Fld.MB_SESS_XPORT 0 (setFld (Reg.MB_SESS x) Fld.MB_SESS_STATE 0 s)).regs := by
  unfold freeSession
  dsimp only
  split <;> split <;> simp

theorem sessState_freeSession (x : Nat) (s : State) : sessState (freeSession x s) x = 0 := by
  rw [sessState, fld_of_regs (freeSession_regs x s),
    fld_setFld_other _ _ _ _ _ (by decide) (by decide) (by decide) (by decide),
    fld_setFld_self _ _ _ _ (by decide) (by decide)]
  rfl

theorem keepsRegs_freeSession (x : Nat) (s : State) : KeepsRegs [Reg.MB_SESS x] s (freeSession x s) :=
  keepsRegs_of_regs (keepsRegs_setFld _ _ _ (keepsRegs_setFld _ _ _ (keepsRegs_refl _ s) (by simp)) (by simp))
    (freeSession_regs x s)

theorem mbSess_injective {x y : Nat} (h : Reg.MB_SESS x = Reg.MB_SESS y) : x = y := by
  unfold Reg.MB_SESS at h
  omega

/-- Session x is closed and its request dropped, as the Foreman restarts (R334, R337). -/
def dropSession (x : Nat) (s : State) : State :=
  let s := freeSession x s
  let s := updSess x (fun y => { y with req := none, ready := none, stored := [], late := false }) s
  if sessPhase s x = 1 ∨ sessPhase s x = 2 then setPhase x 0 s else s

theorem sessState_setPhase (x p : Nat) (s : State) : sessState (setPhase x p s) x = sessState s x :=
  fld_setFld_other _ _ _ _ _ (by decide) (by decide) (by decide) (by decide)

theorem dropSession_effect (x : Nat) (s : State) :
    sessState (dropSession x s) x = 0 ∧ KeepsRegs [Reg.MB_SESS x] s (dropSession x s) := by
  have hfree : ∀ f : Session → Session, sessState (updSess x f (freeSession x s)) x = 0 := fun f =>
    (sessState_of_rd (rd_updSess _ _ _ _)).trans (sessState_freeSession x s)
  have hkept : ∀ f : Session → Session, KeepsRegs [Reg.MB_SESS x] s (updSess x f (freeSession x s)) := fun f =>
    keepsRegs_updSess (keepsRegs_freeSession x s) x f
  unfold dropSession
  dsimp only
  split
  · exact ⟨(sessState_setPhase _ _ _).trans (hfree _), keepsRegs_setFld _ _ _ (hkept _) (by simp)⟩
  · exact ⟨hfree _, hkept _⟩

theorem sessState_dropSession_ne {x y : Nat} (h : y ≠ x) (s : State) : sessState (dropSession x s) y = sessState s y :=
  sessState_of_rd ((dropSession_effect x s).2 _ fun hmem => h (mbSess_injective (List.mem_singleton.mp hmem)))

theorem sessState_forAll_dropSession (n : Nat) (s : State) :
    ∀ y, y < n → sessState (forAll (List.range n) dropSession s) y = 0 := by
  induction n with
  | zero => exact fun y h => absurd h (Nat.not_lt_zero _)
  | succ n ih =>
    intro y hy
    rw [forAll_range_succ]
    by_cases heq : y = n
    · rw [heq]
      exact (dropSession_effect n _).1
    · exact (sessState_dropSession_ne heq _).trans (ih y (by omega))

/-- The Foreman's restart closes every session. -/
theorem sessionsFree_restartForeman (s : State) : SessionsFree (restartForeman s) := fun y hy => by
  have hall := sessState_forAll_dropSession 16 s y hy
  have heq : (restartForeman s).regs = (setFlag Reg.MB_HSTAT Fld.MB_HSTAT_FBUSY true
      (wr Reg.MB_FREQ 0 (forAll (List.range 16) dropSession s))).regs := by
    unfold restartForeman dropSession
    simp
  have hother {a : Nat} (ha : a < 0x30050100) : Reg.MB_SESS y ≠ a := by
    unfold Reg.MB_SESS
    omega
  rw [sessState, fld_of_regs heq, setFlag, fld_setFld_ne _ _ _ _ _ _ (hother (by decide)),
    fld_wr_ne _ _ _ _ _ (hother (by decide))]
  exact hall

/-! ### What the watchdog does after it -/

section
variable {x : Nat} (h : Upstream x)
include h

theorem rd_showDigest_upstream (d : List Nat) (s : State) : rd (showDigest (Reg.SC_FMMEAS 0) d s) x = rd s x := by
  refine forAll_keeps (rd · x) _ (fun w s => rd_wr_ne _ _ _ _ ?_) s
  have := h.2
  unfold Reg.SC_FMMEAS
  omega

theorem rd_readImage (k : Nat) (s : State) : rd (readImage k s) x = rd s x := by
  unfold readImage
  split
  · exact rd_readFolio h _ _ s
  · exact rd_readFolio h _ _ s

theorem rd_foremanEvent (event cls unit : Nat) (s : State) : rd (foremanEvent event cls unit s) x = rd s x :=
  rd_report_upstream h (fun _ => List.mem_range.mp) s

end

theorem sessionsFree_of_regs {s t : State} (h : SessionsFree s) (hregs : t.regs = s.regs) : SessionsFree t :=
  sessionsFree_of_upstream h fun a _ => rd_of_regs hregs a

theorem sessionsFree_wr {s : State} (h : SessionsFree s) {a : Nat} (ha : ∀ y, y < 16 → Reg.MB_SESS y ≠ a) (v : Nat) :
    SessionsFree (wr a v s) := fun y hy => (sessState_of_rd (rd_wr_ne _ _ _ _ (ha y hy))).trans (h y hy)

theorem sessionsFree_runForeman (k : Nat) (f : List Nat) {s : State} (h : SessionsFree s) :
    SessionsFree (runForeman k f s) := by
  unfold runForeman
  refine sessionsFree_of_regs (sessionsFree_wr (s := showDigest (Reg.SC_FMMEAS 0) (fDigest f) (storeBytes 128 0x20000000 (fBody f) s)) (sessionsFree_of_upstream h fun a ha =>
    (rd_showDigest_upstream ha _ _).trans (rd_storeBytes ha _ _ _ s)) (a := Reg.MB_MCTPCFG) (fun y hy => ?_)
    (Config.ianaOf (fDigest f)).toNat) (by simp)
  unfold Reg.MB_SESS Reg.MB_MCTPCFG
  omega

theorem sessionsFree_loadFirst : ∀ (l : List (Nat × Option (List Nat))) {s : State}, SessionsFree s →
    SessionsFree (loadFirst l s)
  | [], _, h => sessionsFree_of_regs h (by simp [loadFirst])
  | (k, some f) :: _, _, h =>
    sessionsFree_runForeman k f (sessionsFree_of_upstream h fun _ ha => rd_readImage ha k _)
  | (k, none) :: rest, _, h =>
    sessionsFree_loadFirst rest (sessionsFree_of_upstream h fun _ ha => rd_readImage ha k _)

/-- After the watchdog no session is open. -/
theorem sessionsFree_watchdog (s : State) : SessionsFree (watchdog s) := by
  have hevent {t : State} (h : SessionsFree t) (event : Nat) : SessionsFree (foremanEvent event 2 0 t) :=
    sessionsFree_of_upstream h fun _ ha => rd_foremanEvent ha event 2 0 t
  have hcount : SessionsFree (setFld Reg.FM_WDCFG Fld.FM_WDCFG_RST (min 127 ((recentRestarts s).length + 1))
      (updFm (fun f => { f with wdogTimes := (restartForeman s).tb.ns :: recentRestarts s }) (restartForeman s))) := by
    refine sessionsFree_of_upstream (sessionsFree_restartForeman s) fun a ha => ?_
    refine (rd_setFld_ne _ _ _ _ _ fun h => ?_).trans (rd_updFm _ _ _)
    exact absurd (h ▸ ha.1) (by decide)
  unfold watchdog
  dsimp only
  split
  · exact sessionsFree_loadFirst _ (hevent hcount 3)
  · exact hevent (sessionsFree_loadFirst _ (hevent hcount 3)) 4

/-- The Foreman serves again. -/
def servesAgain (s : State) : State :=
  updFm (fun f => { f with wdogAt := s.tb.ns })
    (updFrm (fun f => { f with restarting := false }) (setFlag Reg.MB_HSTAT Fld.MB_HSTAT_FBUSY (mode s == 1) s))

theorem servesAgain_effect (s : State) : let t := servesAgain s
    t.frm.restarting = false ∧ flag t Reg.MB_HSTAT Fld.MB_HSTAT_FBUSY = (mode s == 1) ∧
      OnlyRegs [Reg.MB_HSTAT] s { t with frm := s.frm, fm := s.fm } := by
  refine ⟨by simp [servesAgain], ?_, ?_⟩
  · exact (flag_of_fld_eq (by rw [servesAgain, fld_updFm, fld_updFrm])).trans
      (flag_setFlag_self _ _ _ _ (by decide) (by decide))
  · obtain ⟨hregs, hraised, hrest⟩ : OnlyRegs [Reg.MB_HSTAT] s (setFlag Reg.MB_HSTAT Fld.MB_HSTAT_FBUSY (mode s == 1) s) :=
      onlyRegs_setFlag _ _ _ (onlyRegs_refl _ s) (by simp)
    exact ⟨hregs, hraised, rfl⟩

/-! ## The queue of FM_Q when it is full (R371) -/

section
variable {q : List FaultRec} {x : FaultRec}

theorem queueRecord_of_room (h : q.length < 64) : queueRecord q x = (q ++ [x], 0) := if_pos h

theorem queueRecord_of_dropped (hfull : q.length = 64) (h : x.cls = 1 ∨ ∀ y ∈ q, y.cls ≠ 1) :
    queueRecord q x = (q, 1) := by
  unfold queueRecord
  rw [if_neg (by omega)]
  split
  · rfl
  next hcls =>
    have hnone : q.reverse.findIdx? (fun y => y.cls = 1) = none := by
      rw [List.findIdx?_eq_none_iff]
      intro y hy
      simpa using h.resolve_left hcls y (List.mem_reverse.mp hy)
    rw [hnone]

/-- The newest C record gives way. -/
theorem queueRecord_of_replaced {a b : List FaultRec} {y : FaultRec} (hq : q = a ++ y :: b) (hfull : q.length = 64)
    (hx : x.cls ≠ 1) (hy : y.cls = 1) (hb : ∀ z ∈ b, z.cls ≠ 1) : queueRecord q x = (a ++ b ++ [x], 1) := by
  have hrev : q.reverse = b.reverse ++ y :: a.reverse := by simp [hq]
  have hfind : q.reverse.findIdx? (fun y => y.cls = 1) = some b.length := by
    have hnone : b.reverse.findIdx? (fun y => decide (y.cls = 1)) = none := by
      rw [List.findIdx?_eq_none_iff]
      intro z hz
      simpa using hb z (List.mem_reverse.mp hz)
    rw [hrev, List.findIdx?_append, hnone, List.findIdx?_cons, if_pos (by simpa using hy)]
    simp
  have herase : (q.reverse.eraseIdx b.length).reverse = a ++ b := by
    rw [hrev, List.eraseIdx_append_of_length_le (by simp)]
    simp
  unfold queueRecord
  rw [if_neg (by omega), if_neg hx, hfind]
  simp only [herase]

end

/-- Settles O59: reports, reads, clears and the Foreman's events act by the lemmas above. -/
theorem faultManagerCommandsRun : Obligations.FaultManagerCommandsRun := by
  unfold Obligations.FaultManagerCommandsRun
  refine ⟨fun s m x r c => ⟨fun ha hknown => ?_, fun hr => runs_of_eq (regReadBy_eq hr) (queueRead_effect s),
    fun y ha hserves hidle hnext => ?_, fun hw => ?_, fun hw => ?_,
    fun hw => runs_of_eq (regWriteBy_eq hw) (one_wr_zero _ s), fun hw => runs_of_eq (regWriteBy_eq hw) (one_wr_zero _ s),
    fun hw => runs_of_eq (regWriteBy_eq hw) (one_wr_zero _ s),
    fun hw => runs_of_eq (regWriteBy_eq hw) (availClear_effect s),
    fun hr => runs_of_eq (regReadBy_eq hr) (disqRead_effect s), fun hw => runs_of_eq (regWriteBy_eq hw) rfl,
    fun ha hover => ?_, fun ha halert hquiet => ?_, fun ha hserves hdue => ?_, fun hw => ?_,
    fun ha hen hserves hover hheld => ?_, fun ha hrestart hload => ?_, fun ha hcore => ?_⟩,
    fun q x => ⟨queueRecord_of_room, queueRecord_of_dropped,
      fun a b y hq hfull hx hy hb => queueRecord_of_replaced hq hfull hx hy hb⟩⟩
  · refine runs_of_eq (live_eq ha hknown) ⟨rfl, mem_takeReport x s, fun hsafe => ?_⟩
    rw [takeReport_of_safe hsafe]
    exact report_effect (x := repOf x) x.cls.isLt s
  · have heq : exec .faultLogAppend s = .next (appendRecord y s) := by
      show execFaultLogAppend s = _
      simp only [execFaultLogAppend, hnext]
      exact live_eq ha (by simp [hserves, hidle])
    exact runs_of_eq heq ⟨rfl, appendRecord_effect y s⟩
  · exact runs_of_eq (regWriteBy_eq hw) ⟨flag_setFlag_self _ _ _ _ (by decide) (by decide),
      flag_setFlag_other _ 30 31 _ _ (by decide) (by decide), onlyRegs_setFlag _ _ _ (onlyRegs_refl _ s) (by simp)⟩
  · refine runs_of_eq (regWriteBy_eq hw) ⟨fun a ha => rd_forAll_wr_zero _ s (.inl ?_),
      onlyRegs_forAll_wr_zero _ ?_ (onlyRegs_refl _ s)⟩
    · revert a
      decide
    · intro a
      revert a
      decide
  · exact runs_of_eq (live_eq ha hover) ⟨by simp [endPulse], by simp [endPulse], by simp [endPulse]⟩
  · exact runs_of_eq (live_eq ha (by simp [halert, hquiet])) (quietEnd_effect s)
  · exact runs_of_eq (live_eq ha (by simp [hserves, hdue])) rfl
  · exact runs_of_eq (regWriteBy_eq hw) ⟨by simp [wdogRestart], by simp [wdogRestart], by simp [wdogRestart]⟩
  · exact runs_of_eq (live_eq ha (by simp [hen, hserves, wdogOver, hover, hheld])) ⟨rfl, sessionsFree_watchdog s⟩
  · exact runs_of_eq (live_eq ha (by simp [hrestart, hload])) (servesAgain_effect s)
  · refine runs_of_eq (live_eq ha (by simp [hcore])) ⟨fun h => if_pos h, fun h => if_neg h⟩

end Sys2Proof.Machine
end

section
/-! The supply monitor: the ways up and down, PWRGD_IN, the speed monitors and the cleared registers (R392 to R405). -/

namespace Sys2Proof.Machine

@[simp] theorem sup_updSup (f : Supply → Supply) (s : State) : (updSup f s).sup = f s.sup := (rfl)

/-! ## START (R395) -/

/-- SEQUENCE has begun, and no group of it is open. -/
def seqBegun (s : State) : State :=
  enterMode 3 (updSup (fun y => { y with run := { SeqRun.init with
    groups := upGroups s (rd s Reg.SM_SEQMASK), done := true, doneAt := s.tb.ns } })
    (setFlag Reg.SM_SEQSTAT Fld.SM_SEQSTAT_DOWN false (setFlag Reg.SM_SEQSTAT Fld.SM_SEQSTAT_BUSY true
      (setFld Reg.SM_SEQSTAT Fld.SM_SEQSTAT_RESULT 0 s))))

/-- A result of START that shows alone. -/
theorem seqResult_effect {r : Nat} (hr : r < 16) (s : State) :
    let t := setFld Reg.SM_SEQSTAT Fld.SM_SEQSTAT_RESULT r s
    fld t Reg.SM_SEQSTAT Fld.SM_SEQSTAT_RESULT = r ∧ mode t = mode s ∧ OnlyRegs [Reg.SM_SEQSTAT] s t :=
  ⟨(fld_setFld_self _ _ _ _ (by decide) (by decide)).trans (Nat.mod_eq_of_lt hr),
    fld_setFld_ne _ _ _ _ _ _ (by decide), onlyRegs_setFld _ _ _ (onlyRegs_refl _ s) (by simp)⟩

theorem seqStart_of_running {s : State} (h : mode s ≠ 2 ∨ flag s Reg.SM_SEQSTAT Fld.SM_SEQSTAT_BUSY = true) :
    seqStart s = setFld Reg.SM_SEQSTAT Fld.SM_SEQSTAT_RESULT 2 s := if_pos h

section
variable {s : State} (hmode : mode s = 2) (hbusy : flag s Reg.SM_SEQSTAT Fld.SM_SEQSTAT_BUSY = false)
include hmode hbusy

theorem seqStart_of_invalid (h : tableInvalid s = true) :
    seqStart s = setFld Reg.SM_SEQSTAT Fld.SM_SEQSTAT_RESULT 3 s :=
  (if_neg (by simp [hmode, hbusy])).trans (if_pos h)

theorem seqStart_of_valid (h : tableInvalid s = false) : seqStart s = seqAdvance (seqBegun s) :=
  (if_neg (by simp [hmode, hbusy])).trans (if_neg (by simp [h]))

end

theorem seqBegun_effect (s : State) : let a := seqBegun s
    mode a = 3 ∧ flag a Reg.SM_SEQSTAT Fld.SM_SEQSTAT_BUSY = true ∧
      flag a Reg.SM_SEQSTAT Fld.SM_SEQSTAT_DOWN = false ∧ fld a Reg.SM_SEQSTAT Fld.SM_SEQSTAT_RESULT = 0 ∧
      a.sup.run.groups = upGroups s (rd s Reg.SM_SEQMASK) := by
  have hstat (m : Nat) (f : Bits) (t : State) : fld (enterMode m t) Reg.SM_SEQSTAT f = fld t Reg.SM_SEQSTAT f :=
    (fld_setFld_ne _ _ _ _ _ _ (by decide)).trans (fld_setFld_ne _ _ _ _ _ _ (by decide))
  unfold seqBegun
  refine ⟨mode_enterMode 3 _ (by decide), flag_of_fld_eq (hstat _ _ _) |>.trans ?_,
    flag_of_fld_eq (hstat _ _ _) |>.trans ?_, (hstat _ _ _).trans ?_, by simp [enterMode]⟩
  · rw [flag, fld_updSup, ← flag]
    exact (flag_setFlag_other _ 30 31 _ _ (by decide) (by decide)).trans (flag_setFlag_self _ _ _ _ (by decide) (by decide))
  · rw [flag, fld_updSup, ← flag]
    exact flag_setFlag_self _ _ _ _ (by decide) (by decide)
  · rw [fld_updSup, setFlag, fld_setFld_other _ _ _ _ _ (by decide) (by decide) (by decide) (by decide), setFlag,
      fld_setFld_other _ _ _ _ _ (by decide) (by decide) (by decide) (by decide),
      fld_setFld_self _ _ _ _ (by decide) (by decide)]
    rfl

/-! ## The ends of SEQUENCE and SHUTDOWN (R395, R396) -/

theorem onlyRegs_enterMode {as : List Nat} {s t : State} (m : Nat) (h : OnlyRegs as s t) (hmode : Reg.SM_MODE ∈ as)
    (hstat : Reg.MB_HSTAT ∈ as) : OnlyRegs as s (enterMode m t) :=
  onlyRegs_setFld _ _ _ (onlyRegs_setFld _ _ _ h hmode) hstat

theorem seqEnd_effect (s : State) : let t := seqEnd s
    flag t Reg.SM_SEQSTAT Fld.SM_SEQSTAT_BUSY = false ∧ mode t = (if rd s Reg.FM_DEGR = 0 then 4 else 5) ∧
      OnlyRegs [Reg.SM_SEQSTAT, Reg.SM_MODE, Reg.MB_HSTAT] s t := by
  have hdegr : rd (setFlag Reg.SM_SEQSTAT Fld.SM_SEQSTAT_BUSY false s) Reg.FM_DEGR = rd s Reg.FM_DEGR :=
    rd_setFld_ne _ _ _ _ _ (by decide)
  unfold seqEnd
  refine ⟨(flag_of_fld_eq ((fld_setFld_ne _ _ _ _ _ _ (by decide)).trans (fld_setFld_ne _ _ _ _ _ _ (by decide)))).trans
    (flag_setFlag_self _ _ _ _ (by decide) (by decide)), ?_, onlyRegs_enterMode _
    (onlyRegs_setFlag _ _ _ (onlyRegs_refl _ s) (by simp)) (by simp) (by simp)⟩
  rw [mode_enterMode _ _ (by split <;> decide)]
  by_cases hzero : rd s Reg.FM_DEGR = 0 <;> simp [hzero]

section
variable {x : Nat} (h : Upstream x)
include h

theorem rd_wr_quire {a v : Nat} (ha : a < 0x30000000) (s : State) : rd (wr a v s) x = rd s x :=
  rd_wr_ne _ _ _ _ (by have := h.1; omega)

theorem rd_setFld_quire {a v : Nat} (f : Bits) (ha : a < 0x30000000) (s : State) : rd (setFld a f v s) x = rd s x :=
  rd_setFld_ne _ _ _ _ _ (by have := h.1; omega)

theorem rd_setLine_upstream {q : Nat} (hq : q < 16) (m : Nat) (s : State) : rd (setLine q m s) x = rd s x :=
  keepsRegs_setLine q m s x fun hline => by
    have := lineRegs_lt_system hq hline
    have := h.1
    omega

omit h in
theorem portReg_lt {n : Nat} (hn : n < 256) : Reg.PP_STAT (quireOf n) (localOf n) < 0x30000000 ∧
    Reg.PP_CUR (quireOf n) (localOf n) < 0x30000000 ∧ quireOf n < 16 := by
  unfold Reg.PP_STAT Reg.PP_CUR quireBlock quireOf localOf
  omega

/-- A port that settles changes registers of its quire and the fault manager's alone. -/
theorem rd_settlePort_upstream {n : Nat} (hn : n < 256) (s : State) : rd (settlePort n s) x = rd s x := by
  obtain ⟨hstat, hcur, hq⟩ := portReg_lt hn
  have hfld (f : Bits) (v : Nat) (t : State) :
      rd (setFld (Reg.PP_STAT (quireOf n) (localOf n)) f v t) x = rd t x := rd_setFld_quire h f hstat t
  have hflag (f : Bits) (v : Bool) (t : State) :
      rd (setFlag (Reg.PP_STAT (quireOf n) (localOf n)) f v t) x = rd t x := rd_setFld_quire h f hstat t
  have hraise (f : Bits) (t : State) : rd (raiseFlag (Reg.PP_STAT (quireOf n) (localOf n)) f t) x = rd t x :=
    rd_wr_quire h hstat _
  have hident (t : State) : rd (sendIdent n t) x = rd t x := rfl
  have hcurrent (t : State) : rd (noCurrent n t) x = rd t x := rd_wr_quire h hcur t
  have hline (t : State) : rd (setLine (quireOf n) 18 t) x = rd t x := rd_setLine_upstream h hq 18 t
  have hpins (t : State) : rd (blockPins n t) x = rd t x := by
    unfold blockPins
    split <;> simp
  have hreport (e c p : Nat) (t : State) : rd (portReport n e c p t) x = rd t x :=
    rd_report_upstream h (fun q hmem => by
      rw [List.mem_singleton.mp hmem]
      exact Nat.div_lt_of_lt_mul hn) t
  have hdiffer (d : Disagree) (t : State) : rd (disagree d t) x = rd t x := by
    unfold disagree
    split <;> simp
  simp only [settlePort, withPort, id]
  split <;> simp [apply_ite (rd · x), hfld, hflag, hraise, hident, hcurrent, hline, hpins, hreport, hdiffer]

/-- So do all of them. -/
theorem rd_forAll_settlePort (s : State) : rd (forAll (List.range 256) settlePort s) x = rd s x := by
  have hall : ∀ m, m ≤ 256 → rd (forAll (List.range m) settlePort s) x = rd s x := fun m => by
    induction m with
    | zero => exact fun _ => rfl
    | succ m ih =>
      intro hm
      rw [forAll_range_succ, rd_settlePort_upstream h (by omega)]
      exact ih (by omega)
  exact hall 256 (Nat.le_refl _)

end

theorem mode_forAll_settlePort (s : State) : mode (forAll (List.range 256) settlePort s) = mode s := by
  rw [mode, fld, rd_forAll_settlePort upstream_mode, ← fld, ← mode]

/-- SHUTDOWN ends in STANDBY or in DORMANT. -/
theorem mode_shutdownEnd (s : State) : let cause := rd s Reg.FM_SHUTCAUSE
    (cause = 1 ∨ cause = 3 ∨ cause = 5 ∨ cause = 7 → mode (shutdownEnd s) = 2) ∧
      (cause = 2 ∨ cause = 4 → mode (shutdownEnd s) = 0) := by
  unfold shutdownEnd
  refine ⟨fun h => ?_, fun h => ?_⟩
  · rw [if_neg (by omega), if_neg (by omega), mode_forAll_settlePort]
    exact mode_enterMode 2 _ (by decide)
  · rw [if_pos h, goDormant]
    exact mode_enterMode 0 _ (by decide)

theorem mode_dueCommit {s : State} (h : 3 ≤ shed s) : mode (dueCommit s) = mode s := by
  unfold dueCommit
  rw [if_pos h]
  exact fld_wr_ne _ _ _ _ _ (by decide)

/-! ## PWRGD_IN (R395, R397) -/

theorem pgLevel_effect (s : State) : let t := setFlag Reg.SM_PGIN Fld.SM_PGIN_LEVEL true s
    flag t Reg.SM_PGIN Fld.SM_PGIN_LEVEL = true ∧
      fld t Reg.SM_PGIN Fld.SM_PGIN_FALLS = fld s Reg.SM_PGIN Fld.SM_PGIN_FALLS ∧ OnlyRegs [Reg.SM_PGIN] s t :=
  ⟨flag_setFlag_self _ _ _ _ (by decide) (by decide),
    fld_setFld_other _ _ _ _ _ (by decide) (by decide) (by decide) (by decide),
    onlyRegs_setFlag _ _ _ (onlyRegs_refl _ s) (by simp)⟩

theorem mode_setFlag_pgin (b : Bool) (s : State) : mode (setFlag Reg.SM_PGIN Fld.SM_PGIN_LEVEL b s) = mode s :=
  fld_setFld_ne _ _ _ _ _ _ (by decide)

theorem seqhdr_setFlag_pgin (f : Bits) (b : Bool) (s : State) :
    flag (setFlag Reg.SM_PGIN Fld.SM_PGIN_LEVEL b s) Reg.SM_SEQHDR f = flag s Reg.SM_SEQHDR f :=
  flag_of_fld_eq (fld_setFld_ne _ _ _ _ _ _ (by decide))

/-- A rise starts the sequence where AUTOSTART asks for it. -/
theorem exec_pwrgdInRise {s : State} (ha : alive s = true) (hlevel : flag s Reg.SM_PGIN Fld.SM_PGIN_LEVEL = false) :
    exec .pwrgdInRise s = .next (if mode s = 2 ∧ flag s Reg.SM_SEQHDR Fld.SM_SEQHDR_AUTOSTART = true then
      autoStart (setFlag Reg.SM_PGIN Fld.SM_PGIN_LEVEL true s) else setFlag Reg.SM_PGIN Fld.SM_PGIN_LEVEL true s) := by
  have heq : exec .pwrgdInRise s = .next (if mode (setFlag Reg.SM_PGIN Fld.SM_PGIN_LEVEL true s) = 2 ∧
      flag (setFlag Reg.SM_PGIN Fld.SM_PGIN_LEVEL true s) Reg.SM_SEQHDR Fld.SM_SEQHDR_AUTOSTART = true then
      autoStart (setFlag Reg.SM_PGIN Fld.SM_PGIN_LEVEL true s) else setFlag Reg.SM_PGIN Fld.SM_PGIN_LEVEL true s) :=
    live_eq ha (by simp [hlevel])
  rw [heq, mode_setFlag_pgin, seqhdr_setFlag_pgin]

/-- PWRGD_IN is low, and its fall counts. -/
def pgFallen (s : State) : State :=
  incFld Reg.SM_PGIN Fld.SM_PGIN_FALLS (setFlag Reg.SM_PGIN Fld.SM_PGIN_LEVEL false s)

theorem pgFallen_effect (s : State) : let a := pgFallen s
    flag a Reg.SM_PGIN Fld.SM_PGIN_LEVEL = false ∧
      fld a Reg.SM_PGIN Fld.SM_PGIN_FALLS = min (fld s Reg.SM_PGIN Fld.SM_PGIN_FALLS + 1) 65535 ∧
      OnlyRegs [Reg.SM_PGIN] s a := by
  unfold pgFallen
  refine ⟨(flag_of_fld_eq (fld_setFld_other _ _ _ _ _ (by decide) (by decide) (by decide) (by decide))).trans
    (flag_setFlag_self _ _ _ _ (by decide) (by decide)), ?_,
    onlyRegs_incFld _ _ (onlyRegs_setFlag _ _ _ (onlyRegs_refl _ s) (by simp)) (by simp)⟩
  rw [fld_incFld_self _ _ _ (by decide) (by decide), setFlag,
    fld_setFld_other _ _ _ _ _ (by decide) (by decide) (by decide) (by decide)]
  rfl

/-- A fall starts SHUTDOWN where SHUTLOSS asks for it. -/
theorem exec_pwrgdInFall {s : State} (ha : alive s = true) (hlevel : flag s Reg.SM_PGIN Fld.SM_PGIN_LEVEL = true) :
    exec .pwrgdInFall s = .next (if flag s Reg.SM_SEQHDR Fld.SM_SEQHDR_SHUTLOSS = true ∧
      (mode s = 3 ∨ mode s = 4 ∨ mode s = 5) then startShutdown 5 (pgFallen s) else pgFallen s) := by
  have hkept {b : Nat} (f : Bits) (hb : b ≠ Reg.SM_PGIN) : fld (pgFallen s) b f = fld s b f :=
    (fld_setFld_ne _ _ _ _ _ _ hb).trans (fld_setFld_ne _ _ _ _ _ _ hb)
  have hmode : mode (pgFallen s) = mode s := hkept _ (by decide)
  have hloss : flag (pgFallen s) Reg.SM_SEQHDR Fld.SM_SEQHDR_SHUTLOSS = flag s Reg.SM_SEQHDR Fld.SM_SEQHDR_SHUTLOSS :=
    flag_of_fld_eq (hkept _ (by decide))
  have heq : exec .pwrgdInFall s = .next (if flag (pgFallen s) Reg.SM_SEQHDR Fld.SM_SEQHDR_SHUTLOSS &&
      (mode (pgFallen s) == 3 || mode (pgFallen s) == 4 || mode (pgFallen s) == 5) then startShutdown 5 (pgFallen s)
      else pgFallen s) := live_eq ha hlevel
  rw [heq, hmode, hloss]
  simp [or_assoc]

/-! ## Speed monitors and supplies (R403, R405) -/

/-- A measurement that is no new low. -/
def speedShown (u v least : Nat) (s : State) : State :=
  updSup (fun y => { y with measured := tset (fun _ => false) y.measured u true })
    (setFld (Reg.SM_SPD u) Fld.SM_SPD_MIN least (setFld (Reg.SM_SPD u) Fld.SM_SPD_NOW v s))

theorem speedShown_effect {u v least : Nat} (hv : v < 4096) (hleast : least < 4096) (s : State) :
    let t := speedShown u v least s
    fld t (Reg.SM_SPD u) Fld.SM_SPD_NOW = v ∧ fld t (Reg.SM_SPD u) Fld.SM_SPD_MIN = least ∧
      flag t (Reg.SM_SPD u) Fld.SM_SPD_LOW = flag s (Reg.SM_SPD u) Fld.SM_SPD_LOW ∧
      KeepsRegs [Reg.SM_SPD u] s t ∧ t.mem = s.mem := by
  unfold speedShown
  refine ⟨?_, ?_, flag_of_fld_eq ?_, keepsRegs_updSup (keepsRegs_setFld _ _ _ (keepsRegs_setFld _ _ _
    (keepsRegs_refl _ s) (by simp)) (by simp)) _, by simp⟩
  · rw [fld_updSup, fld_setFld_other _ _ _ _ _ (by decide) (by decide) (by decide) (by decide),
      fld_setFld_self _ _ _ _ (by decide) (by decide)]
    exact Nat.mod_eq_of_lt hv
  · rw [fld_updSup, fld_setFld_self _ _ _ _ (by decide) (by decide)]
    exact Nat.mod_eq_of_lt hleast
  · rw [fld_updSup, fld_setFld_other _ _ _ _ _ (by decide) (by decide) (by decide) (by decide),
      fld_setFld_other _ _ _ _ _ (by decide) (by decide) (by decide) (by decide)]

/-- LOW sets where a measurement is one. -/
def speedLow (u : Nat) (low : Bool) (s : State) : State := if low then raiseFlag (Reg.SM_SPD u) Fld.SM_SPD_LOW s else s

theorem speedLow_effect (u : Nat) (low : Bool) (s : State) : let t := speedLow u low s
    fld t (Reg.SM_SPD u) Fld.SM_SPD_NOW = fld s (Reg.SM_SPD u) Fld.SM_SPD_NOW ∧
      fld t (Reg.SM_SPD u) Fld.SM_SPD_MIN = fld s (Reg.SM_SPD u) Fld.SM_SPD_MIN ∧
      flag t (Reg.SM_SPD u) Fld.SM_SPD_LOW = (flag s (Reg.SM_SPD u) Fld.SM_SPD_LOW || low) ∧
      KeepsRegs [Reg.SM_SPD u] s t ∧ t.mem = s.mem := by
  cases low with
  | false => simp [speedLow, keepsRegs_refl]
  | true =>
    have honly : OnlyRegs [Reg.SM_SPD u] s (raiseFlag (Reg.SM_SPD u) Fld.SM_SPD_LOW s) :=
      onlyRegs_raiseFlag _ _ (onlyRegs_refl _ s) (by simp)
    exact ⟨fld_raiseFlag_other _ 31 _ _ (by decide) (by decide) (by decide),
      fld_raiseFlag_other _ 31 _ _ (by decide) (by decide) (by decide),
      (flag_raiseFlag_self _ 31 _ (by decide)).trans (Bool.or_true _).symm, honly.1, mem_of_onlyRegs honly⟩

/-- The least value that a measurement leaves in MIN, and whether it sets LOW (R403). -/
def speedLeast (u v : Nat) (s : State) : Nat :=
  if tget (fun _ => false) s.sup.measured u then min v (fld s (Reg.SM_SPD u) Fld.SM_SPD_MIN) else v

/-- A measurement sets LOW: the first one below THR, or one that falls below it. -/
def speedFalls (u v : Nat) (s : State) : Bool :=
  decide (v < fld s Reg.SM_SPDCFG Fld.SM_SPDCFG_THR) && (!tget (fun _ => false) s.sup.measured u ||
    decide (fld s Reg.SM_SPDCFG Fld.SM_SPDCFG_THR ≤ fld s (Reg.SM_SPD u) Fld.SM_SPD_NOW))

theorem speedMeasure_eq (u v : Nat) (s : State) :
    speedMeasure u v s = speedLow u (speedFalls u v s) (speedShown u v (speedLeast u v s) s) := by
  unfold speedMeasure speedLow speedFalls speedShown speedLeast
  cases tget (fun _ => false) s.sup.measured u <;> rfl

theorem speedMeasure_effect {u v : Nat} (hv : v < 4096) (s : State) :
    let t := speedMeasure u v s
    let a := Reg.SM_SPD u
    let thr := fld s Reg.SM_SPDCFG Fld.SM_SPDCFG_THR
    fld t a Fld.SM_SPD_NOW = v ∧
      (tget (fun _ => false) s.sup.measured u = false → fld t a Fld.SM_SPD_MIN = v ∧
        flag t a Fld.SM_SPD_LOW = (flag s a Fld.SM_SPD_LOW || decide (v < thr))) ∧
      (tget (fun _ => false) s.sup.measured u = true →
        fld t a Fld.SM_SPD_MIN = min v (fld s a Fld.SM_SPD_MIN) ∧
        flag t a Fld.SM_SPD_LOW =
          (flag s a Fld.SM_SPD_LOW || (decide (v < thr) && decide (thr ≤ fld s a Fld.SM_SPD_NOW)))) ∧
      KeepsRegs [a] s t ∧ t.mem = s.mem := by
  have hleast : speedLeast u v s < 4096 := by
    unfold speedLeast
    split <;> omega
  obtain ⟨hnow, hmin, hlow, hregs, hmem⟩ := speedShown_effect (u := u) hv hleast s
  obtain ⟨hnow', hmin', hlow', hregs', hmem'⟩ := speedLow_effect u (speedFalls u v s) (speedShown u v (speedLeast u v s) s)
  rw [speedMeasure_eq]
  refine ⟨hnow'.trans hnow, fun hfirst => ⟨(hmin'.trans hmin).trans ?_, hlow'.trans ?_⟩,
    fun hlater => ⟨(hmin'.trans hmin).trans ?_, hlow'.trans ?_⟩, keepsRegs_trans hregs hregs', hmem'.trans hmem⟩
  · simp [speedLeast, hfirst]
  · rw [hlow, speedFalls, hfirst]
    simp
  · simp [speedLeast, hlater]
  · rw [hlow, speedFalls, hlater]
    simp

theorem minReset_effect (a : Nat) (s : State) : let t := minReset a s
    fld t a Fld.SM_VCORE_MIN = fld s a Fld.SM_VCORE_NOW ∧ fld t a Fld.SM_VCORE_NOW = fld s a Fld.SM_VCORE_NOW ∧
      OnlyRegs [a] s t := by
  have hlt : fld s a Fld.SM_VCORE_NOW < 2 ^ 16 := fld_lt _ _ _
  exact ⟨(fld_setFld_self _ _ _ _ (by decide) (by decide)).trans (Nat.mod_eq_of_lt hlt),
    fld_setFld_other _ _ _ _ _ (by decide) (by decide) (by decide) (by decide),
    onlyRegs_setFld _ _ _ (onlyRegs_refl _ s) (by simp)⟩

theorem shedChange_of_nil (crossed : Bool) (vcore vio vaux : Nat) (s : State) :
    shedChange [] crossed vcore vio vaux s = setSupplies vcore vio vaux s := by
  simp [shedChange]

/-- Settles O60: the supply monitor's commands act by the lemmas above. -/
theorem powerCommandsRun : Obligations.PowerCommandsRun := by
  unfold Obligations.PowerCommandsRun
  intro s m ths crossed vcore io r u v pin
  refine ⟨fun ha hmoves => ?_, fun hw hno => ?_, fun hw hmode hbusy hbad => ?_, fun hw hmode hbusy hgood => ?_,
    fun ha hdue => runs_of_eq (live_eq ha hdue) rfl, fun ha hmissed => runs_of_eq (live_eq ha hmissed) rfl,
    fun ha hover => runs_of_eq (live_eq ha hover) (seqEnd_effect s), fun ha hdue => runs_of_eq (live_eq ha hdue) rfl,
    fun ha hmode hdown hover hidle => ?_, fun ha hmode hdown hcause hlate => ?_, fun ha hlevel => ?_,
    fun ha hlevel => ?_, fun ha htime => ?_, fun hw => runs_of_eq (regWriteBy_eq hw) (minReset_effect _ s),
    fun hw => ?_⟩
  · refine runs_of_eq (live_eq ha (List.all_eq_true.mpr hmoves)) ⟨rfl, ?_⟩
    rintro rfl
    rw [shedChange_of_nil]
    simp [setSupplies]
  · exact runs_of_eq ((regWriteBy_eq hw).trans (congrArg _ (seqStart_of_running hno))) (seqResult_effect (by decide) s)
  · exact runs_of_eq ((regWriteBy_eq hw).trans (congrArg _ (seqStart_of_invalid hmode hbusy hbad)))
      (seqResult_effect (by decide) s)
  · obtain ⟨hmode', hbusy', hdown, hresult, hgroups⟩ := seqBegun_effect s
    exact runs_of_eq ((regWriteBy_eq hw).trans (congrArg _ (seqStart_of_valid hmode hbusy hgood)))
      ⟨seqBegun s, rfl, hmode', hbusy', hdown, hresult, hgroups⟩
  · refine runs_of_eq (live_eq ha (by simp [hmode, hdown, hover, hidle])) ⟨fun hgo => ?_, fun hwait => ?_⟩
    · rw [if_neg (by simp [hgo])]
      exact ⟨rfl, mode_shutdownEnd s⟩
    · rw [if_pos hwait]
      refine ⟨?_, rfl⟩
      split
      next hshed => exact (mode_dueCommit hshed).trans hmode
      · exact hmode
  · exact runs_of_eq (live_eq ha (by simp [hmode, hdown, hcause, hlate])) ⟨rfl, (mode_shutdownEnd s).2 (.inr hcause)⟩
  · refine runs_of_eq (exec_pwrgdInRise ha hlevel) ⟨fun hauto => if_pos hauto, fun hno => ?_⟩
    rw [if_neg hno]
    exact pgLevel_effect s
  · obtain ⟨hlow, hfalls, honly⟩ := pgFallen_effect s
    exact runs_of_eq (exec_pwrgdInFall ha hlevel)
      ⟨pgFallen s, hlow, hfalls, honly, fun h => if_pos h, fun h => if_neg h⟩
  · exact runs_of_eq (live_eq ha (by simpa [now] using htime)) (speedMeasure_effect v.isLt s)
  · exact runs_of_eq (regWriteBy_eq hw) ⟨fld_setFld_self _ _ _ _ (by decide) (by decide),
      flag_of_fld_eq (fld_setFld_other _ _ _ _ _ (by decide) (by decide) (by decide) (by decide)),
      onlyRegs_setFld _ _ _ (onlyRegs_refl _ s) (by simp)⟩

end Sys2Proof.Machine
end

section
/-! The answers of the sessions, and what a run of bytes that is read or written leaves of them (R298, R323, R325). -/

namespace Sys2Proof.Machine

/-! ## Answers (R325) -/

/-- The answer to request r with STATUS st and payload pl. -/
def answerTo (r : Request) (st : Nat) (pl : List Nat) : Response :=
  { session := r.session, seq := r.seq, op := r.op, flags := 1, status := st, payload := pl, done := true, rail := 0 }

/-- The state beside the sessions. -/
def besideSess (s : State) : State := { s with sess := [] }

@[simp] theorem besideSess_updSess (x : Nat) (f : Session → Session) (s : State) :
    besideSess (updSess x f s) = besideSess s := (rfl)

@[simp] theorem besideSess_respond (x st : Nat) (pl : List Nat) (s : State) :
    besideSess (respond x st pl s) = besideSess s := by
  unfold respond
  split
  · exact besideSess_updSess _ _ s
  · rfl

section
variable (x st : Nat) (pl : List Nat) (s : State)

@[simp] theorem regs_respond : (respond x st pl s).regs = s.regs := (congrArg State.regs (besideSess_respond x st pl s) :)
@[simp] theorem mem_respond : (respond x st pl s).mem = s.mem := (congrArg State.mem (besideSess_respond x st pl s) :)
@[simp] theorem nv_respond : (respond x st pl s).nv = s.nv := (congrArg State.nv (besideSess_respond x st pl s) :)
@[simp] theorem frm_respond : (respond x st pl s).frm = s.frm := (congrArg State.frm (besideSess_respond x st pl s) :)
@[simp] theorem otp_respond : (respond x st pl s).otp = s.otp := (congrArg State.otp (besideSess_respond x st pl s) :)
@[simp] theorem host_respond : (respond x st pl s).host = s.host := (congrArg State.host (besideSess_respond x st pl s) :)
@[simp] theorem dirOf_respond (t i : Nat) : dirOf (respond x st pl s) t i = dirOf s t i := by simp [dirOf]

end

theorem respond_of_req {x : Nat} {r : Request} {s : State} (h : (sessOf s x).req = some r) (st : Nat) (pl : List Nat) :
    respond x st pl s = updSess x (fun y => { y with ready := some (answerTo r st pl) }) s := by
  simp only [respond, h, answerTo]

theorem sessOf_respond {x : Nat} {r : Request} {s : State} (h : (sessOf s x).req = some r) (st : Nat) (pl : List Nat) :
    sessOf (respond x st pl s) x = { sessOf s x with ready := some (answerTo r st pl) } := by
  rw [respond_of_req h, sessOf_updSess, if_pos rfl]

theorem ready_respond {x : Nat} {r : Request} {s : State} (h : (sessOf s x).req = some r) (st : Nat) (pl : List Nat) :
    (sessOf (respond x st pl s) x).ready = some (answerTo r st pl) := by
  rw [sessOf_respond h]

theorem payloadOf_of_req {x : Nat} {r : Request} {s : State} (h : (sessOf s x).req = some r) :
    payloadOf s x = r.payload := by
  simp [payloadOf, h]

theorem sessOf_of_sess {s t : State} (h : t.sess = s.sess) (x : Nat) : sessOf t x = sessOf s x := by
  rw [sessOf, h, sessOf]

/-- A request whose payload has not its opcode's length is answered with ARG. -/
theorem lyheufSized_of_length {x op n : Nat} {r : Request} {s : State} (hreq : (sessOf s x).req = some r)
    (hon : serving s x op = true) (h : r.payload.length ≠ n) (f : List Nat → State → State) :
    lyheufSized x op n s f = .next (respond x stARG [] s) := by
  unfold lyheufSized
  rw [act_eq hon, payloadOf_of_req hreq, if_neg h]

theorem lyheufSized_eq {x op n : Nat} {r : Request} {s : State} (hreq : (sessOf s x).req = some r)
    (hon : serving s x op = true) (h : r.payload.length = n) (f : List Nat → State → State) :
    lyheufSized x op n s f = .next (f r.payload s) := by
  unfold lyheufSized
  rw [act_eq hon, payloadOf_of_req hreq, if_pos h]

theorem lyheuf_eq {x op : Nat} {s t : State} (hon : serving s x op = true) : lyheuf x op s t = .next t := act_eq hon

/-! ## Runs of bytes (R298) -/

/-- What every read of a word keeps, a run of bytes that is read keeps. -/
theorem loadBytes_keeps {α : Type} (g : State → α)
    (hg : ∀ m k a type size scrub u s, g (touchWord m k a type size scrub u s).1 = g s) (m a n : Nat) (s : State) :
    g (loadBytes m a n s).1 = g s := by
  unfold loadBytes
  generalize List.range ((a % 8 + n + 7) / 8) = is
  have hfold : ∀ (f : State × List Nat × Bool → Nat → State × List Nat × Bool), (∀ y i, g (f y i).1 = g y.1) →
      ∀ x : State × List Nat × Bool, g (is.foldl f x).1 = g x.1 := by
    intro f hf
    induction is with
    | nil => exact fun _ => rfl
    | cons i is ih => exact fun x => (ih (f x i)).trans (hf x i)
  refine hfold _ (fun y i => ?_) (s, [], true)
  dsimp only
  split
  · exact hg _ _ _ _ _ _ _ _
  · rfl

theorem besideRead_loadBytes (m a n : Nat) (s : State) : besideRead (loadBytes m a n s).1 = besideRead s :=
  loadBytes_keeps besideRead (fun _ _ _ _ _ _ _ _ => besideRead_touchWord _ _ _ _ _ _ _ _) m a n s

theorem rd_loadBytes {x : Nat} (h : Upstream x) (m a n : Nat) (s : State) : rd (loadBytes m a n s).1 x = rd s x :=
  loadBytes_keeps (rd · x) (fun _ _ _ _ _ _ _ _ => rd_touchWord h _ _ _ _ _ _ _ _) m a n s

theorem besideMemory_storeBytes (m a : Nat) (bs : List Nat) (s : State) :
    besideMemory (storeBytes m a bs s) = besideMemory s := by
  refine forAll_keeps besideMemory _ (fun i s => ?_) s
  dsimp only
  split
  · exact besideMemory_storeWord _ _ _ _ _ _ _ _
  · rfl

theorem sess_of_besideMemory {s t : State} (h : besideMemory t = besideMemory s) : t.sess = s.sess :=
  (congrArg State.sess h :)

theorem frm_of_besideMemory {s t : State} (h : besideMemory t = besideMemory s) : t.frm = s.frm :=
  (congrArg State.frm h :)

theorem host_of_besideMemory {s t : State} (h : besideMemory t = besideMemory s) : t.host = s.host :=
  (congrArg State.host h :)

theorem sess_of_besideRead {s t : State} (h : besideRead t = besideRead s) : t.sess = s.sess :=
  sess_of_besideMemory (besideMemory_of_besideRead h)

theorem frm_of_besideRead {s t : State} (h : besideRead t = besideRead s) : t.frm = s.frm :=
  frm_of_besideMemory (besideMemory_of_besideRead h)

theorem host_of_besideRead {s t : State} (h : besideRead t = besideRead s) : t.host = s.host :=
  host_of_besideMemory (besideMemory_of_besideRead h)

end Sys2Proof.Machine
end

section
/-! What a change of the folio directory leaves (R344), and the promise of availability it breaches (R386). -/

namespace Sys2Proof.Machine

/-! ## The directory (R310, R344) -/

/-- The state beside the NVM, its registers, the free values and the directory. -/
def besideDir (s : State) : State :=
  { besideNvm s with frm := { s.frm with dir := [], dirDue := [], dirLog := [], dirPos := 0 } }

theorem besideDir_of_besideNvm {s t : State} (h : besideNvm t = besideNvm s) : besideDir t = besideDir s :=
  (congrArg besideDir h :)

theorem frm_ringAppend (base pos : Nat) (bytes : List Nat) (s : State) : (ringAppend base pos bytes s).frm = s.frm :=
  (congrArg State.frm (besideNvm_ringAppend base pos bytes s) :)

@[simp] theorem besideDir_dirAppend (key : Nat) (x : DirRec) (s : State) : besideDir (dirAppend key x s) = besideDir s :=
  Eq.trans (b := besideDir (ringAppend 528 s.frm.dirPos (dirBytes key x) s)) rfl
    (besideDir_of_besideNvm (besideNvm_ringAppend _ _ _ s))

theorem dir_dirAppend (key : Nat) (x : DirRec) (s : State) : (dirAppend key x s).frm.dir = s.frm.dir := by
  simp [dirAppend, frm_ringAppend]

theorem keepsRegs_dirAppend (key : Nat) (x : DirRec) (s : State) :
    KeepsRegs [Reg.NV_WMAX, Reg.NV_WMIN] s (dirAppend key x s) :=
  keepsRegs_updFrm (keepsRegs_ringAppend _ _ _ s) _

/-- What every change that is appended keeps, the change of a record keeps. -/
theorem recordDir_keeps {α : Type} (g : State → α) (hg : ∀ key x s, g (dirAppend key x s) = g s) (key : Nat) (s : State) :
    g (recordDir key s) = g s := by
  unfold recordDir
  dsimp only
  generalize List.filter _ _ = moved
  rw [forAll_keeps g moved (f := fun e s => dirAppend e.1 e.2 s) fun e s => hg e.1 e.2 s]
  exact hg _ _ s

@[simp] theorem besideDir_recordDir (key : Nat) (s : State) : besideDir (recordDir key s) = besideDir s :=
  recordDir_keeps besideDir besideDir_dirAppend key s

theorem dir_recordDir (key : Nat) (s : State) : (recordDir key s).frm.dir = s.frm.dir :=
  recordDir_keeps (·.frm.dir) dir_dirAppend key s

theorem keepsRegs_recordDir (key : Nat) (s : State) : KeepsRegs [Reg.NV_WMAX, Reg.NV_WMIN] s (recordDir key s) :=
  fun a ha => recordDir_keeps (rd · a) (fun key x s => keepsRegs_dirAppend key x s a ha) key s

/-- The state with a record in the directory, before it goes to the sectors. -/
def dirEntered (key : Nat) (x : DirRec) (s : State) : State :=
  updFrm (fun f => { f with dir := tset (fun _ => DirRec.init) f.dir key x }) s

/-- A record is entered; whether it goes to the sectors at once or is due, the rest is the same. -/
theorem setDir_effect (t i : Nat) (x : DirRec) (s : State) :
    let u := setDir t i x s
    besideDir u = besideDir s ∧ dirOf u t i = x ∧ KeepsRegs [Reg.NV_WMAX, Reg.NV_WMIN] s u := by
  have hentered : dirOf (dirEntered (64 * t + i) x s) t i = x := by simp [dirOf, dirEntered]
  unfold setDir
  dsimp only
  rw [← dirEntered.eq_def]
  split
  · exact ⟨rfl, hentered, keepsRegs_updFrm (keepsRegs_updFrm (keepsRegs_refl _ s) _) _⟩
  · refine ⟨(besideDir_recordDir _ _).trans rfl, ?_, keepsRegs_trans (keepsRegs_updFrm (keepsRegs_refl _ s) _)
      (keepsRegs_recordDir _ _)⟩
    rw [dirOf, dir_recordDir]
    exact hentered

section
variable {s t : State} (h : besideDir t = besideDir s)
include h

theorem sess_of_besideDir : t.sess = s.sess := (congrArg State.sess h :)
theorem otp_of_besideDir : t.otp = s.otp := (congrArg State.otp h :)
theorem mem_of_besideDir : t.mem = s.mem := (congrArg State.mem h :)

end

/-! ## The promise of availability (R386) -/

/-- The state beside the registers. -/
def besideRegs (s : State) : State := { s with regs := [] }

/-- A breach clears a bit of FM_AVCOND, and does nothing else. -/
theorem breachAll_effect (s : State) :
    besideRegs (breachAll s) = besideRegs s ∧ KeepsRegs [Reg.FM_AVCOND] s (breachAll s) :=
  ⟨forAll_keeps besideRegs (f := breach) _ (fun _ _ => rfl) s,
    keepsRegs_forAll (f := breach) _ (fun _ _ s => keepsRegs_wr _ _ (keepsRegs_refl _ s) (by simp)) s⟩

end Sys2Proof.Machine
end

section
/-! Folios: the FOLIO_ commands of a session, and the ends of shadows, trials, Foreman updates and lockouts (R356 to
R363). -/

namespace Sys2Proof.Machine

section
variable {s : State} {x : Fin 16} {r : Request} (hreq : (sessOf s x).req = some r)
include hreq

/-- A refusal answers the session and leaves the registers, the memories and the Foreman as they were. -/
theorem refusal_effect (st : Nat) :
    (sessOf (respond x st [] s) x).ready = some (answerTo r st []) ∧ (respond x st [] s).regs = s.regs ∧
      (respond x st [] s).mem = s.mem ∧ (respond x st [] s).nv = s.nv ∧ (respond x st [] s).frm = s.frm :=
  ⟨ready_respond hreq st [], regs_respond _ _ _ _, mem_respond _ _ _ _, nv_respond _ _ _ _, frm_respond _ _ _ _⟩

/-! ## FOLIO_LOAD (R357) -/

theorem exec_folioLoad (hon : serving s x 0x0501 = true)
    (hheld : rangeHeld s (bufferBase + le r.payload 0 4) (r.payload.length - 8) = false) :
    exec (.folioLoad x) s = .next (folioLoad x r.payload s) := by
  rw [← payloadOf_of_req hreq] at hheld ⊢
  show execFolioLoad x s = _
  unfold execFolioLoad
  dsimp only
  rw [if_neg (by rw [hheld]; decide)]
  exact lyheuf_eq hon

end

/-- The lengths of FOLIO_LOAD's payload that do not fit its fields or the buffer. -/
def LoadMisfits (p : List Nat) : Prop :=
  p.length < 8 ∨ 4000 < le p 4 4 ∨ p.length ≠ 8 + le p 4 4 ∨ 512 * 1024 < le p 0 4 + le p 4 4

theorem folioLoad_of_misfit {p : List Nat} (h : LoadMisfits p) (x : Nat) (s : State) :
    folioLoad x p s = respond x stARG [] s := if_pos h

theorem folioLoad_of_refused {x : Nat} {p : List Nat} {s : State} (hfit : ¬LoadMisfits p)
    (h : (updateTaken s x || (s.frm.update.phase == 0 && le p 0 4 != 0)) = true) :
    folioLoad x p s = respond x stSTATE [] s := (if_neg hfit).trans (if_pos h)

/-- The update that bytes at offset off begin or go on with. -/
def updateLoading (x off : Nat) (s : State) : Update :=
  { (if off = 0 then Update.init else s.frm.update) with phase := 1, session := x }

theorem folioLoad_of_taken {x : Nat} {p : List Nat} {s : State} (hfit : ¬LoadMisfits p)
    (h : ¬(updateTaken s x || (s.frm.update.phase == 0 && le p 0 4 != 0)) = true) :
    folioLoad x p s = respond x stOK [] (updFrm (fun f => { f with update := updateLoading x (le p 0 4) s })
      (storeBytes 128 (bufferBase + le p 0 4) (p.drop 8) s)) := (if_neg hfit).trans (if_neg h)

theorem folioLoad_taken_effect {x : Nat} {p : List Nat} {s : State} {r : Request} (hreq : (sessOf s x).req = some r)
    (hfit : ¬LoadMisfits p) (h : ¬(updateTaken s x || (s.frm.update.phase == 0 && le p 0 4 != 0)) = true) :
    let t := folioLoad x p s
    (sessOf t x).ready = some (answerTo r stOK []) ∧ t.frm.update.phase = 1 ∧ t.frm.update.session = x := by
  have hstored := besideMemory_storeBytes 128 (bufferBase + le p 0 4) (p.drop 8) s
  rw [folioLoad_of_taken hfit h]
  generalize storeBytes 128 (bufferBase + le p 0 4) (p.drop 8) s = t at hstored ⊢
  refine ⟨ready_respond (s := updFrm _ t) (Eq.trans ?_ hreq) _ _, by simp [updateLoading], by simp [updateLoading]⟩
  exact congrArg _ (sessOf_of_sess (sess_of_besideMemory hstored) x)

/-! ## FOLIO_VERIFY (R350, R357) -/

/-- What FOLIO_VERIFY answers of folio f, with the result of its checks. -/
def verifyAnswer (res : Nat) (f : List Nat) : List Nat :=
  [res, fTarget f, fInst f, fKeyslot f] ++ toBytes 4 (fVersion f) ++ toBytes 2 (fSvn f) ++ [0, 0] ++
    padTo 0 64 (fDigest f)

/-- The update after the folio f of n bytes was verified with result res. -/
def updateVerified (res n : Nat) (f : List Nat) (u : Update) : Update :=
  { u with phase := if res = 0 then 2 else 1, target := fTarget f, inst := fInst f, len := n, recd := recOf f }

theorem folioVerify_of_refused {x : Nat} {p : List Nat} {s : State} (hlen : le p 0 4 ≤ 512 * 1024)
    (h : (updateTaken s x || s.frm.update.phase == 0) = true) : folioVerify x p s = respond x stSTATE [] s :=
  (if_neg (Nat.not_lt.mpr hlen)).trans (if_pos h)

theorem folioVerify_of_taken {x : Nat} {p : List Nat} {s s' : State} {f : List Nat} {good : Bool}
    (hlen : le p 0 4 ≤ 512 * 1024) (h : ¬(updateTaken s x || s.frm.update.phase == 0) = true)
    (hload : loadBytes 128 bufferBase (le p 0 4) s = (s', f, good)) :
    let res := verifyFolio s' f (le p 0 4) s'.frm.version good
    folioVerify x p s = respond x stOK (verifyAnswer res f)
      (updFrm (fun g => { g with update := updateVerified res (le p 0 4) f s'.frm.update }) s') := by
  refine (if_neg (Nat.not_lt.mpr hlen)).trans ((if_neg h).trans ?_)
  rw [hload]
  rfl

/-- FOLIO_VERIFY answers with the result of its checks and the fields of the folio in the buffer. -/
theorem folioVerify_taken_effect {x : Nat} {p : List Nat} {s s' : State} {f : List Nat} {good : Bool} {r : Request}
    (hreq : (sessOf s x).req = some r) (hlen : le p 0 4 ≤ 512 * 1024)
    (h : ¬(updateTaken s x || s.frm.update.phase == 0) = true)
    (hload : loadBytes 128 bufferBase (le p 0 4) s = (s', f, good)) :
    let t := folioVerify x p s
    let res := verifyFolio s' f (le p 0 4) s'.frm.version good
    t.mem = s.mem ∧ t.frm.update.phase = (if res = 0 then 2 else 1) ∧
      (sessOf t x).ready = some (answerTo r stOK (verifyAnswer res f)) := by
  have hread := besideRead_loadBytes 128 bufferBase (le p 0 4) s
  rw [hload] at hread
  dsimp only
  rw [folioVerify_of_taken hlen h hload]
  generalize verifyFolio s' f (le p 0 4) s'.frm.version good = res
  refine ⟨by simpa using mem_of_besideRead hread, by simp [updateVerified], ready_respond (s := updFrm _ s') ?_ _ _⟩
  exact (congrArg _ (sessOf_of_sess (sess_of_besideRead hread) x)).trans hreq

/-! ## FOLIO_ACTIVATE at the next boot (R357, R358) -/

/-- The directory record of the update, in which its slot is PENDING. -/
def pendingRecord (secs : Nat) (s : State) : DirRec :=
  { dirOf s s.frm.update.target s.frm.update.inst with active := s.frm.update.slot, state := 3, secs := secs }

theorem folioActivate_of_refused {x : Nat} {p : List Nat} {s : State} (hmode : nthD 0 p 0 = 1 ∨ nthD 0 p 0 = 2)
    (hzero : nthD 0 p 1 = 0) (h : updateTaken s x = true ∨ s.frm.update.phase ≠ 3) :
    folioActivate x p s = respond x stSTATE [] s :=
  (if_neg (by omega)).trans (if_pos h)

/-- What NEXTBOOT answers: LU_CSIDX of a coefficient set's rail. -/
def pendingAnswer (s : State) : List Nat :=
  toBytes 4 (if s.frm.update.target = 3 then
    rd s (Reg.LU_CSIDX (homeOf s.frm.update.inst) (slotOf s.frm.update.inst)) else 0)

theorem folioActivate_of_nextBoot {x : Nat} {p : List Nat} {s : State} (hmode : nthD 0 p 0 = 2)
    (hzero : nthD 0 p 1 = 0) (htaken : updateTaken s x = false) (hphase : s.frm.update.phase = 3) :
    folioActivate x p s = respond x stOK (pendingAnswer s) (breachAll (updateIdle
      (setDir s.frm.update.target s.frm.update.inst (pendingRecord (le p 2 2) s) s))) :=
  (if_neg (by omega)).trans ((if_neg (by simp [htaken, hphase])).trans (if_pos hmode))

/-- A folio that waits for the next boot is PENDING in the directory, and the promise of every rail is breached. -/
theorem folioActivate_nextBoot_effect {x : Nat} {p : List Nat} {s : State} {r : Request}
    (hreq : (sessOf s x).req = some r) (hmode : nthD 0 p 0 = 2)
    (hzero : nthD 0 p 1 = 0) (htaken : updateTaken s x = false) (hphase : s.frm.update.phase = 3) :
    let t := folioActivate x p s
    (sessOf t x).ready = some (answerTo r stOK (pendingAnswer s)) ∧
      KeepsRegs [Reg.FM_AVCOND, Reg.NV_WMAX, Reg.NV_WMIN] s t ∧ t.mem = s.mem ∧
      dirOf t s.frm.update.target s.frm.update.inst = pendingRecord (le p 2 2) s ∧ t.frm.update.phase = 0 := by
  obtain ⟨hbeside, hdir, hregs⟩ := setDir_effect s.frm.update.target s.frm.update.inst (pendingRecord (le p 2 2) s) s
  rw [folioActivate_of_nextBoot hmode hzero htaken hphase]
  generalize setDir s.frm.update.target s.frm.update.inst (pendingRecord (le p 2 2) s) s = u at hbeside hdir hregs ⊢
  obtain ⟨hbreach, havcond⟩ := breachAll_effect (updateIdle u)
  generalize breachAll (updateIdle u) = v at hbreach havcond ⊢
  have hsess : v.sess = u.sess := (congrArg State.sess hbreach :)
  have hmem : v.mem = u.mem := (congrArg State.mem hbreach :)
  have hfrm : v.frm = (updateIdle u).frm := (congrArg State.frm hbreach :)
  have hready := sessOf_of_sess (hsess.trans (sess_of_besideDir hbeside)) x
  refine ⟨ready_respond ((congrArg _ hready).trans hreq) _ _, ?_,
    (mem_respond _ _ _ _).trans (hmem.trans (mem_of_besideDir hbeside)), ?_, ?_⟩
  · refine keepsRegs_of_regs (keepsRegs_trans (keepsRegs_mono (by simp) hregs) ?_) (regs_respond _ _ _ _)
    exact keepsRegs_trans (keepsRegs_updFrm (keepsRegs_refl _ u) _) (keepsRegs_mono (by simp) havcond)
  · rw [dirOf_respond, dirOf, hfrm]
    exact hdir
  · rw [frm_respond, hfrm]
    rfl

/-! ## FOLIO_CONFIRM (R358) -/

theorem folioConfirm_of_refused {x : Nat} {p : List Nat} {s : State} (hinst : nthD 0 p 1 < instances (nthD 0 p 0))
    (hadv : nthD 0 p 2 ≤ 1) (hzero : nthD 0 p 3 = 0)
    (h : updateTaken s x = true ∨ (nthD 0 p 2 = 1 ∧ someTrial s = true)) :
    folioConfirm x p s = respond x stSTATE [] s := by
  unfold folioConfirm
  dsimp only
  rw [if_neg (by omega), if_pos h]

/-- Record i of a target is confirmed: a slot in TRIAL is ACTIVE, and its trial is over. -/
def confirmed (t i : Nat) (s : State) : State :=
  if (dirOf s t i).state = 2 then
    updFrm (fun f => { f with trials := tset (fun _ => 0) f.trials (64 * t + i) 0 })
      (setDir t i { dirOf s t i with state := 1 } s)
  else s

theorem folioConfirm_of_confirmed {x : Nat} {p : List Nat} {s : State}
    (hinst : nthD 0 p 1 < instances (nthD 0 p 0)) (hadv : nthD 0 p 2 = 0) (hzero : nthD 0 p 3 = 0)
    (htaken : updateTaken s x = false) : folioConfirm x p s =
      respond x stOK [(confirmed (nthD 0 p 0) (nthD 0 p 1) s).otp.arb] (confirmed (nthD 0 p 0) (nthD 0 p 1) s) := by
  unfold folioConfirm
  dsimp only
  rw [if_neg (by omega), if_neg (by simp [htaken, hadv]), ← confirmed.eq_def, if_neg (by omega)]

theorem confirmed_effect (t i : Nat) (s : State) : let u := confirmed t i s
    u.sess = s.sess ∧ u.otp = s.otp ∧ u.mem = s.mem ∧
      ((dirOf s t i).state = 2 →
        dirOf u t i = { dirOf s t i with state := 1 } ∧ KeepsRegs [Reg.NV_WMAX, Reg.NV_WMIN] s u) ∧
      ((dirOf s t i).state ≠ 2 → u = s) := by
  obtain ⟨hbeside, hdir, hregs⟩ := setDir_effect t i { dirOf s t i with state := 1 } s
  have hsess := sess_of_besideDir hbeside
  have hotp := otp_of_besideDir hbeside
  have hmem := mem_of_besideDir hbeside
  unfold confirmed
  split
  next h =>
    exact ⟨hsess, hotp, hmem, fun _ => ⟨hdir, keepsRegs_updFrm hregs _⟩, fun hne => absurd h hne⟩
  next h => exact ⟨rfl, rfl, rfl, fun h2 => absurd h2 h, fun _ => rfl⟩

/-! ## FOLIO_DIR (R357) -/

/-- What FOLIO_DIR answers of a directory record. -/
def dirAnswer (d : DirRec) : List Nat := [d.active, d.state, 0, 0] ++ slotBytes d.a ++ slotBytes d.b

/-- FOLIO_DIR's effect. -/
def folioDir (x : Nat) (p : List Nat) (s : State) : State :=
  if s.frm.update.phase ≠ 0 ∧ s.frm.update.session ≠ x then respond x stSTATE [] s
  else if instances (nthD 0 p 0) ≤ nthD 0 p 1 then respond x stARG [] s
  else respond x stOK (dirAnswer (dirOf s (nthD 0 p 0) (nthD 0 p 1))) s

theorem execFolioDir_eq (x : Fin 16) (s : State) : execFolioDir x s = lyheufSized x 0x0506 2 s (folioDir x) := rfl

/-! ## Ends of activations (R359 to R361) -/

/-- An activation that has ended is none. -/
theorem act_endActivation {answer : Nat → State → State} (hfrm : ∀ y s, (answer y s).frm = s.frm) (s : State) :
    (endActivation answer s).frm.act = Activation.init := by
  unfold endActivation
  dsimp only
  generalize s.frm.act.stop = stopped
  generalize s.frm.act.session = y
  cases s.frm.act.revert
  · cases stopped
    · exact congrArg Foreman.act (hfrm y _)
    · rfl
  · rfl

theorem dropShadow_effect (s : State) : (dropShadow s).frm.act.kind = 0 :=
  congrArg Activation.kind (act_endActivation (fun y s => frm_respond y _ _ s) (releaseShadow s))

/-- The state with the new Foreman image in force and its activation at an end. -/
def imageInForce (s : State) : State :=
  let a := s.frm.act
  let y := bufferImage (writeSnapshot s)
  endActivation (fun _ s => s)
    (makeActive 2 0 a.slot (if a.revert then 0 else a.trial) (runForeman a.slot y.2.1 y.1))

theorem foremanUpdated_eq (s : State) :
    foremanUpdated s = wdogRestart (setFlag Reg.MB_HSTAT Fld.MB_HSTAT_FBUSY false (imageInForce s)) := by
  unfold foremanUpdated imageInForce
  generalize bufferImage (writeSnapshot s) = y
  rfl

theorem foremanUpdated_effect (s : State) : (foremanUpdated s).frm.act.kind = 0 ∧
    flag (foremanUpdated s) Reg.MB_HSTAT Fld.MB_HSTAT_FBUSY = false := by
  have hact : (imageInForce s).frm.act = Activation.init := act_endActivation (fun _ _ => rfl) _
  rw [foremanUpdated_eq]
  generalize imageInForce s = t at hact ⊢
  refine ⟨congrArg Activation.kind hact, ?_⟩
  rw [wdogRestart, flag, fld_updFm, ← flag]
  exact flag_setFlag_self _ _ _ _ (by decide) (by decide)

theorem frm_showDigest (a : Nat) (d : List Nat) (s : State) : (showDigest a d s).frm = s.frm := by
  unfold showDigest
  exact forAll_keeps State.frm _ (fun _ _ => by simp) s

theorem act_runForeman (k : Nat) (f : List Nat) (s : State) : (runForeman k f s).frm.act = s.frm.act := by
  have hstored := frm_of_besideMemory (besideMemory_storeBytes 128 0x20000000 (fBody f) s)
  unfold runForeman
  generalize storeBytes 128 0x20000000 (fBody f) s = t at hstored ⊢
  simp [frm_showDigest, hstored]

theorem frm_report (y : Rep) (s : State) : (report y s).frm = s.frm := (congrArg State.frm (besideFaults_report y s) :)

theorem frm_foremanEvent (event cls unit : Nat) (s : State) : (foremanEvent event cls unit s).frm = s.frm := by
  rw [foremanEvent, frm_report]

/-- The previous image is in force after an update that timed out, and its activation is none. -/
theorem foremanReverted_effect (s : State) : (foremanReverted s).frm.act.kind = 0 := by
  unfold foremanReverted
  dsimp only
  generalize writeSnapshot _ = u
  rw [act_runForeman]
  have hended := act_endActivation (answer := fun _ s => s) (fun _ _ => rfl) u
  generalize endActivation (fun _ s => s) u = v at hended ⊢
  rw [frm_updFrm, frm_foremanEvent]
  exact congrArg Activation.kind hended

/-! ## The obligation -/

/-- A FOLIO_ command whose payload has not its length answers ARG. -/
theorem exec_folioSized {s : State} {x : Fin 16} {r : Request} {ok : Bool} {c : Instr} {op n : Nat}
    (hreq : (sessOf s x).req = some r)
    (hc : (c, op, n) ∈ [(Instr.folioVerify x, 0x0502, 4), (.folioInstall x ok, 0x0503, 0),
      (.folioActivate x, 0x0504, 4), (.folioConfirm x, 0x0505, 4), (.folioDir x, 0x0506, 2)])
    (hon : serving s x op = true) (hverify : rangeHeld s bufferBase (le r.payload 0 4) = false)
    (hinstall : s.nv.op = .none ∧ rangeHeld s bufferBase s.frm.update.len = false ∧ nvClosed s = false)
    (hactivate : activationWaits s s.frm.update.target s.frm.update.inst = false) (hlen : r.payload.length ≠ n) :
    exec c s = .next (respond x stARG [] s) := by
  simp only [List.mem_cons, List.not_mem_nil, or_false, Prod.mk.injEq] at hc
  rcases hc with ⟨rfl, rfl, rfl⟩ | ⟨rfl, rfl, rfl⟩ | ⟨rfl, rfl, rfl⟩ | ⟨rfl, rfl, rfl⟩ | ⟨rfl, rfl, rfl⟩
  · show execFolioVerify x s = _
    rw [execFolioVerify, if_neg (by rw [payloadOf_of_req hreq, hverify]; decide)]
    exact lyheufSized_of_length hreq hon hlen _
  · show execFolioInstall x ok s = _
    rw [execFolioInstall, if_pos hinstall]
    exact lyheufSized_of_length hreq hon hlen _
  · show execFolioActivate x s = _
    rw [execFolioActivate, if_neg (by rw [hactivate]; decide)]
    exact lyheufSized_of_length hreq hon hlen _
  · exact lyheufSized_of_length hreq hon hlen _
  · exact (execFolioDir_eq x s).trans (lyheufSized_of_length hreq hon hlen _)

/-- Settles O56: a request is refused by the first check it fails, a good one acts as R357 and R358 say, and the ends of
activations take their named effects. -/
theorem folioCommandsRun : Obligations.FolioCommandsRun := by
  unfold Obligations.FolioCommandsRun
  intro s x r ok hreq
  dsimp only
  have hrefused (st : Nat) := refusal_effect hreq st
  refine ⟨fun hon hheld => ?_, fun c op n hc hon hverify hinstall hactivate hlen => ?_, fun hon hheld hlen hfit => ?_,
    fun hon hlen hfree => ?_, fun hon hlen hfree => ?_, fun hon hlen => ?_, fun hon hlen => ?_, fun ha => ⟨fun hserves => ?_, fun hup => ?_⟩⟩
  · refine runs_of_eq (exec_folioLoad hreq hon hheld) ⟨rfl, fun hbig => ?_, fun hlen hmax hroom => ⟨fun h => ?_, fun htaken hphase => ?_⟩⟩
    · rw [folioLoad_of_misfit (Or.inr (Or.inr (Or.inr hbig)))]
      exact hrefused stARG
    · rw [folioLoad_of_refused (by unfold LoadMisfits; omega) (by
        simpa only [Bool.or_eq_true, Bool.and_eq_true, beq_iff_eq, bne_iff_ne] using h)]
      exact hrefused stSTATE
    · refine folioLoad_taken_effect hreq (by unfold LoadMisfits; omega) ?_
      rw [htaken, Bool.false_or, Bool.and_eq_true, beq_iff_eq, bne_iff_ne]
      omega
  · exact runs_of_eq (exec_folioSized hreq hc hon hverify hinstall hactivate hlen) (hrefused stARG)
  · have hexec : exec (.folioVerify x) s = .next (folioVerify x r.payload s) := by
      show execFolioVerify x s = _
      rw [execFolioVerify, if_neg (by rw [payloadOf_of_req hreq, hheld]; decide)]
      exact lyheufSized_eq hreq hon hlen _
    rcases hload : loadBytes 128 bufferBase (le r.payload 0 4) s with ⟨s', f, good⟩
    by_cases hstate : (updateTaken s x || s.frm.update.phase == 0) = true
    · refine runs_of_eq hexec ⟨rfl, ?_, fun _ => ?_, fun htaken hphase => ?_⟩
      · rw [folioVerify_of_refused hfit hstate, mem_respond]
      · rw [folioVerify_of_refused hfit hstate]
        exact hrefused stSTATE
      · exact absurd hstate (by simp [htaken, hphase])
    · obtain ⟨hmem, hphase, hans⟩ := folioVerify_taken_effect hreq hfit hstate hload
      refine runs_of_eq hexec ⟨rfl, hmem, fun h => absurd h (by simpa using hstate),
        fun _ _ => ⟨s', f, good, rfl, hphase, hans⟩⟩
  · refine runs_of_eq (t := folioInstall x ok s) ?_ ⟨rfl, fun h => ?_⟩
    · show execFolioInstall x ok s = _
      rw [execFolioInstall, if_pos hfree]
      exact lyheufSized_eq hreq hon (by simp [hlen]) _
    · rw [folioInstall, if_pos (by tauto)]
      exact hrefused stSTATE
  · refine runs_of_eq (t := folioActivate x r.payload s) ?_ ⟨rfl, fun hmode hzero => ⟨fun h => ?_, fun htaken hphase hnext => ?_⟩⟩
    · show execFolioActivate x s = _
      rw [execFolioActivate, if_neg (by rw [hfree]; decide)]
      exact lyheufSized_eq hreq hon hlen _
    · rw [folioActivate_of_refused hmode hzero h]
      exact hrefused stSTATE
    · obtain ⟨hans, hregs, hmem, hdir, hidle⟩ := folioActivate_nextBoot_effect hreq hnext hzero htaken hphase
      exact ⟨hans, hregs, hmem, by rw [hdir]; rfl, by rw [hdir]; rfl, hidle⟩
  · refine runs_of_eq (t := folioConfirm x r.payload s) (lyheufSized_eq hreq hon hlen _)
      ⟨rfl, fun hinst hadv hzero => ⟨fun h => ?_, fun htaken hnone => ?_⟩⟩
    · rw [folioConfirm_of_refused hinst hadv hzero h]
      exact hrefused stSTATE
    · obtain ⟨hsess, hotp, hmem, htrial, hother⟩ := confirmed_effect (nthD 0 r.payload 0) (nthD 0 r.payload 1) s
      rw [folioConfirm_of_confirmed hinst hnone hzero htaken, hotp]
      generalize confirmed (nthD 0 r.payload 0) (nthD 0 r.payload 1) s = u at *
      refine ⟨ready_respond ((congrArg _ (sessOf_of_sess hsess x)).trans hreq) _ _, by simpa using hotp,
        by simpa using hmem, fun h => ?_, fun h => ?_⟩
      · exact ⟨(dirOf_respond _ _ _ _ _ _).trans (htrial h).1, keepsRegs_of_regs (htrial h).2 (regs_respond _ _ _ _)⟩
      · rw [hother h]
        exact ⟨regs_respond _ _ _ _, mem_respond _ _ _ _, nv_respond _ _ _ _, frm_respond _ _ _ _⟩
  · refine runs_of_eq (t := folioDir x r.payload s) ((execFolioDir_eq x s).trans (lyheufSized_eq hreq hon hlen _)) ?_
    unfold folioDir
    split
    · exact ⟨(hrefused stSTATE).2, (hrefused stSTATE).1⟩
    · split
      · exact ⟨(hrefused stARG).2, (hrefused stARG).1⟩
      · exact ⟨⟨regs_respond _ _ _ _, mem_respond _ _ _ _, nv_respond _ _ _ _, frm_respond _ _ _ _⟩,
          ready_respond hreq _ _⟩
  · refine ⟨fun hready hfree => ?_, fun hlate => ?_, fun t' i hover hwait => ?_, fun e hlock hheld hfree himage => ?_⟩
    · exact runs_of_eq (live_eq ha (by simp [hserves, hready, hfree])) rfl
    · exact runs_of_eq (live_eq ha (by simp [hserves, hlate])) ⟨rfl, dropShadow_effect s⟩
    · exact runs_of_eq (live_eq ha (by simp [hserves, hover, hwait])) rfl
    · exact runs_of_eq (live_eq ha (by simp [hserves, hlock, hheld, hfree, himage])) rfl
  · refine ⟨fun hready => ?_, fun hheld hlate => ?_⟩
    · exact runs_of_eq (live_eq ha (by simp [hup, hready])) ⟨rfl, foremanUpdated_effect s⟩
    · exact runs_of_eq (live_eq ha (by simp [hup, hheld, hlate])) ⟨rfl, foremanReverted_effect s⟩

end Sys2Proof.Machine
end

section
/-! The mailbox: doorbells, the clears of MB_FREQ and MB_HRDY, posts, idle sessions, the hardware abort and the stream
(R321 to R342). -/

namespace Sys2Proof.Machine

/-! ## Bits of the mailbox's words (R321) -/

theorem bitAt_two_pow (x y : Nat) : bitAt (2 ^ x) y = decide (x = y) := by
  rw [bitAt_eq_testBit, Nat.testBit_two_pow]

theorem bitAt_rd_clrWord (a : Nat) {i : Nat} (s : State) (hi : i < 32) :
    bitAt (rd (clrWord a (2 ^ i) s) a) i = false := by
  unfold clrWord
  rw [rd_wr_self, bitAt_eq_testBit, Nat.testBit_mod_two_pow, Nat.testBit_and, Nat.testBit_xor,
    show (0xFFFFFFFF : Nat) = 2 ^ 32 - 1 from rfl, Nat.testBit_two_pow_sub_one, Nat.testBit_two_pow_self]
  simp [hi]

/-- Of a write of one session's bit, the bits that the register holds too. -/
theorem ones_two_pow_and {x : Nat} (hx : x < 16) (w : Nat) :
    ones 16 ((BitVec.ofNat 16 (2 ^ x)).toNat &&& w) = if bitAt w x then [x] else [] := by
  have hmask : (BitVec.ofNat 16 (2 ^ x)).toNat = 2 ^ x := by
    rw [BitVec.toNat_ofNat]
    exact Nat.mod_eq_of_lt (Nat.pow_lt_pow_right (by decide) hx)
  rw [bitAt_eq_testBit]
  cases hbit : w.testBit x
  · rw [hmask, Nat.two_pow_and, hbit, Bool.toNat_false, Nat.mul_zero]
    rfl
  · have hones := ones_two_pow x hx
    rw [hmask] at hones ⊢
    rw [Nat.two_pow_and, hbit]
    simpa using hones

theorem keepsRegs_raiseWord {as : List Nat} {s t : State} (a m : Nat) (h : KeepsRegs as s t) (ha : a ∈ as) :
    KeepsRegs as s (raiseWord a m t) := keepsRegs_trans h (onlyRegs_raiseWord a m (onlyRegs_refl _ t) ha).1

theorem regs_settleAlert (s : State) : (settleAlert s).regs = s.regs := by
  unfold settleAlert
  dsimp only
  split <;> simp

theorem mem_settleAlert (s : State) : (settleAlert s).mem = s.mem := by
  unfold settleAlert
  dsimp only
  split <;> simp

theorem sess_settleAlert (s : State) : (settleAlert s).sess = s.sess := by
  unfold settleAlert
  dsimp only
  split <;> simp

theorem sess_ne {x a : Nat} (ha : a < 0x30050100 ∨ 0x30050200 ≤ a) (hx : x < 16) : Reg.MB_SESS x ≠ a := by
  unfold Reg.MB_SESS
  omega

theorem sessPhase_of_rd {s t : State} {x : Nat} (h : rd t (Reg.MB_SESS x) = rd s (Reg.MB_SESS x)) :
    sessPhase t x = sessPhase s x := by rw [sessPhase, fld, h, sessPhase, fld]

theorem sessPhase_setPhase (x p : Nat) (s : State) : sessPhase (setPhase x p s) x = p % 4 :=
  fld_setFld_self _ _ _ _ (by decide) (by decide)

theorem keepsRegs_setPhase {as : List Nat} {s t : State} (x p : Nat) (h : KeepsRegs as s t) (hx : Reg.MB_SESS x ∈ as) :
    KeepsRegs as s (setPhase x p t) := keepsRegs_setFld _ _ _ h hx

/-! ## Doorbells (R323, R334, R341) -/

theorem exec_mbDoorbell {s : State} {v : Via} {x : Nat} (hup : viaUp s v = true) (hx : x < 16) :
    exec (.mbDoorbell v (BitVec.ofNat 16 (2 ^ x))) s = .next (ringDoorbell (viaCode v) x s) := by
  have hring : ringAll (viaCode v) (BitVec.ofNat 16 (2 ^ x)).toNat s = ringDoorbell (viaCode v) x s := by
    rw [ringAll, ones_two_pow x hx]
    rfl
  exact (act_eq hup).trans (congrArg _ hring)

/-- The state in which session x's request is in REQ. -/
def doorbellTaken (v x : Nat) (s : State) : State :=
  s |> setPhase x 1 |> raiseWord Reg.MB_FREQ (2 ^ x)
    |> updSess x (fun y => { y with via := v, viaEnd := 0, reqAt := s.tb.ns })

section
variable {s : State} {v x : Nat} (hmode : mode s ≠ 7)
include hmode

theorem ringDoorbell_of_refused (h : doorbellRefused s x v = true) :
    ringDoorbell v x s = raiseFlag Reg.MB_HSTAT Fld.MB_HSTAT_DBREF s := (if_neg hmode).trans (if_pos h)

theorem ringDoorbell_of_busy (h : doorbellRefused s x v = false) (hboot : ¬(mode s = 1 ∧ x = 0))
    (hbusy : flag s Reg.MB_HSTAT Fld.MB_HSTAT_FBUSY = true) : ringDoorbell v x s = busyResponse x s :=
  (if_neg hmode).trans ((if_neg (by simp [h])).trans (if_pos (by
    simp only [hbusy, Bool.true_and, Bool.not_eq_true', Bool.and_eq_false_iff, beq_eq_false_iff_ne]
    tauto)))

theorem ringDoorbell_of_taken (h : doorbellRefused s x v = false)
    (hfree : flag s Reg.MB_HSTAT Fld.MB_HSTAT_FBUSY = false ∨ (mode s = 1 ∧ x = 0)) :
    ringDoorbell v x s = doorbellTaken v x s :=
  (if_neg hmode).trans ((if_neg (by simp [h])).trans (if_neg (by
    rcases hfree with hfree | hboot
    · simp [hfree]
    · simp [hboot.1, hboot.2])))

end

theorem doorbellTaken_effect {x : Nat} (hx : x < 16) (v : Nat) (s : State) : let t := doorbellTaken v x s
    sessPhase t x = 1 ∧ bitAt (rd t Reg.MB_FREQ) x = true ∧ (sessOf t x).via = v ∧
      KeepsRegs [Reg.MB_SESS x, Reg.MB_FREQ] s t ∧ t.mem = s.mem := by
  have hother (t : State) : rd (raiseWord Reg.MB_FREQ (2 ^ x) t) (Reg.MB_SESS x) = rd t (Reg.MB_SESS x) :=
    keepsRegs_raiseWord _ _ (keepsRegs_refl [Reg.MB_FREQ] t) (by simp) _
      (by simpa using sess_ne (Or.inl (by decide)) hx)
  unfold doorbellTaken
  refine ⟨?_, ?_, by rw [sessOf_updSess, if_pos rfl], keepsRegs_updSess (keepsRegs_raiseWord _ _ (keepsRegs_setPhase _ _
    (keepsRegs_refl _ s) (by simp)) (by simp)) _ _, by simp [raiseWord, orWord, setPhase]⟩
  · exact (sessPhase_of_rd ((rd_updSess _ _ _ _).trans (hother _))).trans (sessPhase_setPhase x 1 s)
  · rw [rd_updSess]
    exact bitAt_rd_raiseWord _ _ (by omega)

/-- A post shows in the session's phase and its bit of MB_HRDY. -/
def postShown (x : Nat) (s : State) : State := s |> setPhase x 3 |> raiseWord Reg.MB_HRDY (2 ^ x) |> settleAlert

theorem postShown_effect {x : Nat} (hx : x < 16) (s : State) : let t := postShown x s
    sessPhase t x = 3 ∧ bitAt (rd t Reg.MB_HRDY) x = true ∧ t.sess = s.sess ∧
      (∀ f : Bits, f.lo ≤ f.hi → f.hi < 4 ∨ 5 < f.lo → fld t (Reg.MB_SESS x) f = fld s (Reg.MB_SESS x) f) := by
  have hsess : rd (postShown x s) (Reg.MB_SESS x) = rd (setPhase x 3 s) (Reg.MB_SESS x) :=
    (rd_of_regs (regs_settleAlert _) _).trans (keepsRegs_raiseWord _ _ (keepsRegs_refl [Reg.MB_HRDY] _) (by simp) _
      (by simpa using sess_ne (Or.inl (by decide)) hx))
  refine ⟨(sessPhase_of_rd hsess).trans (sessPhase_setPhase x 3 s), ?_, (sess_settleAlert _).trans ?_, fun f hf hd => ?_⟩
  · rw [postShown, rd_of_regs (regs_settleAlert _)]
    exact bitAt_rd_raiseWord _ _ (by omega)
  · simp [raiseWord, orWord, setPhase]
  · rw [fld, hsess]
    exact fld_setFld_other _ _ _ _ _ (by decide) (by decide) hf hd

/-- The message that the sequencer answers with, of the header it has read. -/
def busyMessage (h : List Nat) : List Nat :=
  let m := h.take 6 ++ [3, 0, 0, 0] ++ toBytes 2 stBUSY ++ h.drop 12
  m ++ toBytes 4 (crc32 m)

theorem busyPost_eq {x : Nat} {s s' : State} {h : List Nat} {good : Bool}
    (hload : loadBytes 137 (reqWindow x) 16 s = (s', h, good)) :
    busyPost x s = postShown x (storeBytes 137 (respWindow x) (busyMessage h) s') := by
  unfold busyPost
  rw [hload]
  rfl

theorem busyResponse_effect {x : Nat} (hx : x < 16) (s : State) : let t := busyResponse x s
    (windowsHeld s x = false → sessPhase t x = 3 ∧ bitAt (rd t Reg.MB_HRDY) x = true) ∧
      (windowsHeld s x = true → (sessOf t x).busyDue = true ∧ t.regs = s.regs ∧ t.mem = s.mem) := by
  unfold busyResponse
  refine ⟨fun h => ?_, fun h => ?_⟩
  · rcases hload : loadBytes 137 (reqWindow x) 16 s with ⟨s', hd, good⟩
    rw [if_neg (by simp [h]), busyPost_eq hload]
    obtain ⟨hphase, hbit, -, -⟩ := postShown_effect hx (storeBytes 137 (respWindow x) (busyMessage hd) s')
    exact ⟨hphase, hbit⟩
  · rw [if_pos h]
    exact ⟨by rw [sessOf_updSess, if_pos rfl], by simp, by simp⟩

/-! ## The host's clear of MB_HRDY (R321, R323) -/

theorem exec_mbHrdyClear {s : State} {v : Via} {x : Nat} (hup : viaUp s v = true) (hx : x < 16) :
    exec (.mbHrdyClear v (BitVec.ofNat 16 (2 ^ x))) s =
      .next (if bitAt (rd s Reg.MB_HRDY) x then hrdyClear x s else s) := by
  have hclear : forAll (ones 16 ((BitVec.ofNat 16 (2 ^ x)).toNat &&& rd s Reg.MB_HRDY)) hrdyClear s =
      if bitAt (rd s Reg.MB_HRDY) x then hrdyClear x s else s := by
    rw [ones_two_pow_and hx]
    split <;> rfl
  exact (act_eq hup).trans (congrArg _ hclear)

theorem hrdyClear_of_raised {x : Nat} {s : State} (h : bitAt (raisedIn s Reg.MB_HRDY) x = true) : hrdyClear x s = s :=
  if_pos h

/-- MB_HRDY bit x is cleared, and a session in RESP is IDLE, before the alert settles. -/
def hrdyCleared (x : Nat) (s : State) : State :=
  let s := clrWord Reg.MB_HRDY (2 ^ x) s
  if sessPhase s x = 3 then setPhase x 0 s else s

theorem hrdyClear_of_standing {x : Nat} {s : State} (h : bitAt (raisedIn s Reg.MB_HRDY) x = false) :
    hrdyClear x s = settleAlert (hrdyCleared x s) := by
  unfold hrdyClear hrdyCleared
  rw [if_neg (by simp [h])]

theorem hrdyCleared_effect {x : Nat} (hx : x < 16) (s : State) : let t := hrdyCleared x s
    bitAt (rd t Reg.MB_HRDY) x = false ∧ sessPhase t x = (if sessPhase s x = 3 then 0 else sessPhase s x) ∧
      KeepsRegs [Reg.MB_HRDY, Reg.MB_SESS x] s t ∧ t.mem = s.mem := by
  have hne : Reg.MB_SESS x ≠ Reg.MB_HRDY := sess_ne (Or.inl (by decide)) hx
  have hphase : sessPhase (clrWord Reg.MB_HRDY (2 ^ x) s) x = sessPhase s x := sessPhase_of_rd (rd_wr_ne _ _ _ _ hne)
  have hbit := bitAt_rd_clrWord Reg.MB_HRDY s (show x < 32 by omega)
  have hkept : KeepsRegs [Reg.MB_HRDY, Reg.MB_SESS x] s (clrWord Reg.MB_HRDY (2 ^ x) s) :=
    keepsRegs_wr _ _ (keepsRegs_refl _ s) (by simp)
  have hmem : (clrWord Reg.MB_HRDY (2 ^ x) s).mem = s.mem := by simp [clrWord]
  unfold hrdyCleared
  dsimp only
  rw [hphase]
  generalize clrWord Reg.MB_HRDY (2 ^ x) s = t at hphase hbit hkept hmem ⊢
  split
  · refine ⟨?_, sessPhase_setPhase x 0 t, keepsRegs_setPhase x 0 hkept (by simp), by simpa [setPhase] using hmem⟩
    rw [setPhase, rd_setFld_ne _ _ _ _ _ hne.symm]
    exact hbit
  · exact ⟨hbit, hphase, hkept, hmem⟩

/-! ## The Foreman's clear of MB_FREQ (R323, R333) -/

theorem askedOrder_two_pow (s : State) {x : Nat} (hx : x < 16) : askedOrder s (2 ^ x) = [x] := by
  have hrobin : ∀ k : Fin 16, ∀ y : Fin 16,
      ((List.range 16).map fun i => (k.val + i) % 16).filter (bitAt (2 ^ y.val)) = [y.val] := by decide
  have hturn : ((List.range 16).map fun i => (s.host.turn + i) % 16) =
      (List.range 16).map fun i => (s.host.turn % 16 + i) % 16 :=
    List.map_congr_left fun i _ => by omega
  have hxs : ((List.range 16).map fun i => (s.host.turn + i) % 16).filter (bitAt (2 ^ x)) = [x] := by
    rw [hturn]
    exact hrobin ⟨s.host.turn % 16, Nat.mod_lt _ (by decide)⟩ ⟨x, hx⟩
  unfold askedOrder
  dsimp only
  rw [hxs]
  cases hop : windowOp s x == 0x0F01 <;> simp [hop]

/-- An ABORT of another session waits in REQ. -/
def OtherAbort (s : State) (x : Nat) : Prop := ∃ y, y < 16 ∧ y ≠ x ∧ sessPhase s y = 1 ∧ windowOp s y = 0x0F01

theorem abortAsked_iff (s : State) (x : Nat) : abortAsked s (2 ^ x) = true ↔ OtherAbort s x := by
  simp only [abortAsked, OtherAbort, List.any_eq_true, List.mem_range, Bool.and_eq_true, beq_iff_eq, bitAt_two_pow,
    Bool.not_eq_true', decide_eq_false_iff_not]
  exact ⟨fun ⟨y, hy, ⟨hphase, hop⟩, hne⟩ => ⟨y, hy, Ne.symm hne, hphase, hop⟩,
    fun ⟨y, hy, hne, hphase, hop⟩ => ⟨y, hy, ⟨hphase, hop⟩, Ne.symm hne⟩⟩

theorem freqWrite_two_pow (s : State) {x : Nat} (hx : x < 16) (htakes : takesAsked s x = true)
    (hphase : sessPhase s x = 1) : freqWrite (2 ^ x) s =
      if abortAsked s (2 ^ x) && windowOp s x != 0x0F01 then s else takeAsked x s := by
  unfold freqWrite
  dsimp only
  rw [askedOrder_two_pow s hx]
  show (if _ then _ else _) = _
  rw [htakes, hphase]
  cases abortAsked s (2 ^ x) <;> cases windowOp s x != 0x0F01 <;> rfl

theorem exec_mbFreqClear {s : State} {m : Master} {x : Nat} (hw : CanWrite s m Reg.MB_FREQ) (hx : x < 16)
    (htakes : takesAsked s x = true) (hphase : sessPhase s x = 1) :
    exec (.mbFreqClear m (BitVec.ofNat 16 (2 ^ x))) s =
      .next (if abortAsked s (2 ^ x) && windowOp s x != 0x0F01 then s else takeAsked x s) := by
  have hmask : (BitVec.ofNat 16 (2 ^ x)).toNat = 2 ^ x := by
    rw [BitVec.toNat_ofNat]
    exact Nat.mod_eq_of_lt (Nat.pow_lt_pow_right (by decide) hx)
  refine (regWriteBy_eq hw).trans (congrArg _ ?_)
  rw [hmask]
  exact freqWrite_two_pow s hx htakes hphase

theorem takeAsked_of_waiting {x : Nat} {s : State}
    (h : bitAt (raisedIn s Reg.MB_FREQ) x = true ∨ (sessPhase s x = 1 ∧ rangeHeld s (reqWindow x) 4096 = true)) :
    takeAsked x s = s := by
  have hclear : freqClear x s = s := by
    unfold freqClear
    split
    · rfl
    next hraised =>
      obtain hraised' | ⟨hphase, hheld⟩ := h
      · exact absurd hraised' hraised
      · rw [if_pos hphase, if_pos hheld]
  unfold takeAsked
  dsimp only
  rw [hclear, if_neg]
  rcases h with h | h <;> simp [h]

theorem besideSess_breakClaim (x op : Nat) (p : List Nat) (s : State) :
    besideSess (breakClaim x op p s) = besideSess s := by
  unfold breakClaim
  dsimp only
  split
  · rfl
  · exact besideSess_updSess _ _ s

/-- A request that is taken is looked at in EXEC; the rest is the session's own. -/
theorem takeRequest_effect (x : Nat) (bs : List Nat) (s : State) : let t := takeRequest x bs s
    besideSess t = besideSess (setPhase x 2 s) ∧ (sessOf t x).req.isSome = true := by
  have hseen : besideSess (requestSeen x s) = besideSess (setPhase x 2 s) := besideSess_updSess _ _ _
  unfold takeRequest
  dsimp only
  rw [← requestSeen.eq_def]
  generalize requestSeen x s = u at hseen ⊢
  split
  · exact ⟨(besideSess_updSess _ _ u).trans hseen, by rw [sessOf_updSess, if_pos rfl]; rfl⟩
  · split
    · refine ⟨(besideSess_updSess _ _ _).trans ?_, by rw [sessOf_updSess, if_pos rfl]; rfl⟩
      split
      · exact (besideSess_breakClaim _ _ _ u).trans hseen
      · exact hseen
    · exact ⟨(besideSess_updSess _ _ _).trans ((besideSess_breakClaim _ _ _ u).trans hseen),
        by rw [sessOf_updSess, if_pos rfl]; rfl⟩

theorem regs_of_besideSess {s t : State} (h : besideSess t = besideSess s) : t.regs = s.regs := (congrArg State.regs h :)

theorem freqClear_of_taken {x : Nat} {s s' : State} {bs : List Nat} {good : Bool}
    (hraised : bitAt (raisedIn s Reg.MB_FREQ) x = false) (hphase : sessPhase s x = 1)
    (hheld : rangeHeld s (reqWindow x) 4096 = false)
    (hload : loadBytes 128 (reqWindow x) 4096 (clrWord Reg.MB_FREQ (2 ^ x) s) = (s', bs, good)) :
    freqClear x s = takeRequest x bs s' := by
  unfold freqClear
  rw [if_neg (by simp [hraised]), if_pos hphase, if_neg (by simp [hheld]), hload]

theorem takeAsked_effect {x : Nat} {s : State} (hx : x < 16) (hraised : bitAt (raisedIn s Reg.MB_FREQ) x = false)
    (hphase : sessPhase s x = 1) (hheld : rangeHeld s (reqWindow x) 4096 = false) : let t := takeAsked x s
    sessPhase t x = 2 ∧ bitAt (rd t Reg.MB_FREQ) x = false ∧ (sessOf t x).req.isSome = true ∧
      t.host.turn = (x + 1) % 16 := by
  rcases hload : loadBytes 128 (reqWindow x) 4096 (clrWord Reg.MB_FREQ (2 ^ x) s) with ⟨s', bs, good⟩
  have hfreq : rd s' Reg.MB_FREQ = rd (clrWord Reg.MB_FREQ (2 ^ x) s) Reg.MB_FREQ := by
    have h := rd_loadBytes (x := Reg.MB_FREQ) (by unfold Upstream; decide) 128 (reqWindow x) 4096
      (clrWord Reg.MB_FREQ (2 ^ x) s)
    rwa [hload] at h
  obtain ⟨hbeside, hreq⟩ := takeRequest_effect x bs s'
  have hregs := regs_of_besideSess hbeside
  unfold takeAsked
  dsimp only
  rw [if_pos (by simp [hphase, hheld, hraised]), freqClear_of_taken hraised hphase hheld hload]
  refine ⟨?_, ?_, hreq, by simp⟩
  · exact (sessPhase_of_rd ((rd_updHost _ _ _).trans (rd_of_regs hregs _))).trans (sessPhase_setPhase x 2 s')
  · rw [rd_updHost, rd_of_regs hregs, setPhase, rd_setFld_ne _ _ _ _ _ (sess_ne (Or.inl (by decide)) hx).symm, hfreq]
    exact bitAt_rd_clrWord _ _ (by omega)

end Sys2Proof.Machine
end

section
/-! The mailbox: posts, idle sessions, the hardware abort and the stream (R322, R323, R336 to R340). -/

namespace Sys2Proof.Machine

/-! ## Posts (R323, R327, R341) -/

theorem updateOrigin_keeps (s : State) : (updateOrigin s).regs = s.regs ∧ (updateOrigin s).mem = s.mem ∧
    (updateOrigin s).sess = s.sess := by
  unfold updateOrigin
  split <;> simp

/-- The message goes into the window and shows: in RESP for a session of the mailbox, at once for an MCTP endpoint. -/
theorem deliver_effect {x : Nat} (hx : x < 16) (m : Nat) (bs : List Nat) (s : State) : let t := deliver m x bs s
    t.sess = s.sess ∧ sessPhase t x = (if (sessOf s x).via < 4 then 3 else 0) ∧
      (∀ f : Bits, f.lo ≤ f.hi → f.hi < 4 ∨ 5 < f.lo → fld t (Reg.MB_SESS x) f = fld s (Reg.MB_SESS x) f) ∧
      ((sessOf s x).via < 4 → bitAt (rd t Reg.MB_HRDY) x = true) := by
  have hsess := sess_of_besideMemory (besideMemory_storeBytes m (respWindow x) bs s)
  have hreg := rd_storeBytes (upstream_sess hx) m (respWindow x) bs s
  unfold deliver
  dsimp only
  generalize storeBytes m (respWindow x) bs s = u at hsess hreg ⊢
  have hfld (f : Bits) : fld u (Reg.MB_SESS x) f = fld s (Reg.MB_SESS x) f := by rw [fld, hreg, fld]
  rw [sessOf_of_sess hsess]
  split
  next hvia =>
    refine ⟨?_, ?_, fun f hf hd => ?_, fun h => absurd h (by omega)⟩
    · simpa [setPhase] using hsess
    · rw [if_neg (by omega)]
      exact (sessPhase_of_rd (rd_updHost _ _ _)).trans (sessPhase_setPhase x 0 u)
    · rw [fld_updHost]
      exact (fld_setFld_other _ _ _ _ _ (by decide) (by decide) hf hd).trans (hfld f)
  next hvia =>
    obtain ⟨hphase, hbit, hkept, hother⟩ := postShown_effect hx u
    exact ⟨hkept.trans hsess, by rw [if_pos (by omega)]; exact hphase, fun f hf hd => (hother f hf hd).trans (hfld f),
      fun _ => hbit⟩

/-- Response r of session x, with its message bs, is no longer waiting; where it completes, its SEQ does and bs is stored
for a repeat. -/
def responseFiled (x : Nat) (r : Response) (bs : List Nat) (s : State) : State :=
  let s := updSess x (fun y => { y with ready := none, req := none }) s
  if r.done then
    let s := setFld (Reg.MB_SESS x) Fld.MB_SESS_SEQ r.seq s
    let opened := r.op != 0x0110 && sessState s x != 0
    updSess x (fun y => { y with lastOp := r.op, stored := bs, based := y.based || opened }) s
  else s

theorem postResponse_eq (x : Nat) (r : Response) (s : State) : postResponse x r s =
    (let bs := message r.session r.seq r.op r.flags r.status (postedPayload s r)
     let t := responseFiled x r bs (deliver 128 x bs s)
     if (sessOf t x).lapse then freeSession x t else t) := rfl

theorem responseFiled_effect (x : Nat) (r : Response) (bs : List Nat) (s : State) :
    let t := responseFiled x r bs s
    (sessOf t x).ready = none ∧ (sessOf t x).lapse = (sessOf s x).lapse ∧ KeepsRegs [Reg.MB_SESS x] s t ∧
      sessPhase t x = sessPhase s x ∧
      fld t (Reg.MB_SESS x) Fld.MB_SESS_SEQ =
        (if r.done then r.seq % 65536 else fld s (Reg.MB_SESS x) Fld.MB_SESS_SEQ) := by
  have hcleared : sessOf (updSess x (fun y => { y with ready := none, req := none }) s) x =
      { sessOf s x with ready := none, req := none } := by rw [sessOf_updSess, if_pos rfl]
  unfold responseFiled
  dsimp only
  cases r.done
  · rw [if_neg (by decide), if_neg (by decide), hcleared]
    exact ⟨rfl, rfl, keepsRegs_updSess (keepsRegs_refl _ s) _ _, sessPhase_of_rd (rd_updSess _ _ _ _),
      fld_updSess _ _ _ _ _⟩
  · have hseq (v : Nat) : sessOf (setFld (Reg.MB_SESS x) Fld.MB_SESS_SEQ v
        (updSess x (fun y => { y with ready := none, req := none }) s)) x = { sessOf s x with ready := none, req := none } :=
      (sessOf_of_sess rfl x).trans hcleared
    rw [if_pos rfl, if_pos rfl, sessOf_updSess, if_pos rfl, hseq]
    refine ⟨rfl, rfl, keepsRegs_updSess (keepsRegs_setFld _ _ _ (keepsRegs_updSess (keepsRegs_refl _ s) _ _)
      (by simp)) _ _, ?_, ?_⟩
    · rw [sessPhase, fld_updSess, fld_setFld_other _ _ _ _ _ (by decide) (by decide) (by decide) (by decide), fld_updSess]
      rfl
    · rw [fld_updSess, fld_setFld_self _ _ _ _ (by decide) (by decide)]
      rfl

theorem ready_freeSession (x : Nat) (s : State) : (sessOf (freeSession x s) x).ready = (sessOf s x).ready := by
  have hsess : (freeSession x s).sess = (updSess x (fun y => { y with
      endpoint := 0, based := false, nonce := [], frag := [], lapse := false })
      (setFld (Reg.MB_SESS x) Fld.MB_SESS_XPORT 0 (setFld (Reg.MB_SESS x) Fld.MB_SESS_STATE 0 s))).sess := by
    unfold freeSession
    dsimp only
    split <;> split <;> simp
  rw [sessOf_of_sess hsess, sessOf_updSess, if_pos rfl]
  rfl

/-- A session that goes to FREE keeps its phase and its SEQ. -/
theorem fld_freeSession (x : Nat) (s : State) {f : Bits} (hf : f.lo ≤ f.hi) (hstate : 1 < f.lo)
    (hxport : f.hi < 8 ∨ 10 < f.lo) : fld (freeSession x s) (Reg.MB_SESS x) f = fld s (Reg.MB_SESS x) f := by
  rw [fld_of_regs (freeSession_regs x s), fld_setFld_other _ _ _ _ _ (by decide) (by decide) hf hxport]
  exact fld_setFld_other _ _ _ _ _ (by decide) (by decide) hf (Or.inr hstate)

/-- A session in EXEC that posts is in RESP, or IDLE for MCTP, and a lapsed one is FREE. -/
theorem postResponse_effect {x : Nat} (hx : x < 16) (r : Response) (s : State) : let t := postResponse x r s
    (sessOf t x).ready = none ∧ sessPhase t x = (if (sessOf s x).via < 4 then 3 else 0) ∧
      fld t (Reg.MB_SESS x) Fld.MB_SESS_SEQ =
        (if r.done then r.seq % 65536 else fld s (Reg.MB_SESS x) Fld.MB_SESS_SEQ) ∧
      ((sessOf s x).via < 4 → bitAt (rd t Reg.MB_HRDY) x = true) ∧
      ((sessOf s x).lapse = true → sessState t x = 0) := by
  rw [postResponse_eq]
  dsimp only
  generalize message r.session r.seq r.op r.flags r.status (postedPayload s r) = bs
  obtain ⟨hsess, hphase, hfld, hbit⟩ := deliver_effect hx 128 bs s
  generalize deliver 128 x bs s = u at hsess hphase hfld hbit ⊢
  obtain ⟨hready, hlapse, hregs, hphase', hseq⟩ := responseFiled_effect x r bs u
  generalize responseFiled x r bs u = v at hready hlapse hregs hphase' hseq ⊢
  rw [sessOf_of_sess hsess] at hlapse
  rw [hfld _ (by decide) (by decide)] at hseq
  have hrdy : rd v Reg.MB_HRDY = rd u Reg.MB_HRDY :=
    hregs _ (by simpa using (sess_ne (x := x) (a := Reg.MB_HRDY) (Or.inl (by decide)) hx).symm)
  split
  · refine ⟨(ready_freeSession x v).trans hready, ?_, ?_, fun h => ?_, fun _ => sessState_freeSession x v⟩
    · exact (fld_freeSession x v (f := Fld.MB_SESS_PHASE) (by decide) (by decide) (by decide)).trans (hphase'.trans hphase)
    · rw [fld_freeSession x v (by decide) (by decide) (by decide)]
      exact hseq
    · rw [keepsRegs_freeSession x v _ (by simpa using (sess_ne (Or.inl (by decide)) hx).symm), hrdy]
      exact hbit h
  next hnot =>
    exact ⟨hready, hphase'.trans hphase, hseq, fun h => by rw [hrdy]; exact hbit h,
      fun h => absurd (hlapse.trans h) hnot⟩

theorem exec_mbFpost {s : State} {m : Master} {x : Fin 16} (hw : CanWrite s m Reg.MB_FPOST) (hpost : canPost s x = true) :
    exec (.mbFpost m x) s = .next (updateOrigin (postSession x s)) :=
  (regWriteBy_eq hw).trans (congrArg _ (if_pos hpost))

/-- A response that comes late is counted and discarded. -/
theorem postSession_late_effect {x : Nat} {s : State} (h : (sessOf s x).late = true) : let t := postSession x s
    KeepsRegs [Reg.MB_CNT] s t ∧ t.mem = s.mem ∧
      fld t Reg.MB_CNT Fld.MB_CNT_LATEDROP = min (fld s Reg.MB_CNT Fld.MB_CNT_LATEDROP + 1) 65535 := by
  unfold postSession
  rw [if_pos (Or.inl h)]
  refine ⟨keepsRegs_updSess (keepsRegs_setFld _ _ _ (keepsRegs_refl _ s) (by simp)) _ _, by simp [incFld, addFld], ?_⟩
  rw [fld_updSess]
  exact fld_incFld_self _ _ _ (by decide) (by decide)

theorem postSession_of_ready {x : Nat} {s : State} {r : Response} (hlate : (sessOf s x).late = false)
    (hphase : sessPhase s x = 2) (hready : (sessOf s x).ready = some r) : postSession x s = postResponse x r s := by
  unfold postSession
  rw [if_neg (by simp [hlate, hphase]), hready]

/-! ## The hardware abort (R337, R338, R340) -/

/-- The commands that write MB_HWABORT, with the target each names. -/
noncomputable def HwAborts (v : Via) (i arg : BitVec 8) : List (Instr × Nat) :=
  [(.hwabortSession v i arg, 1), (.hwabortSupervision v i arg, 2), (.hwabortEngine v i arg, 3),
    (.hwabortBinding v i arg, 4), (.hwabortStageBus v i arg, 5), (.hwabortFolio v i arg, 6),
    (.hwabortForeman v i arg, 7)]

/-- The abort of a session waits for its windows. -/
def AbortWaits (s : State) (n : Nat) (i : BitVec 8) : Prop := n = 1 ∧ i.toNat < 16 ∧ windowsHeld s i.toNat = true

theorem exec_hwAbort {s : State} {v : Via} {i arg : BitVec 8} {c : Instr} {n : Nat} (hup : viaUp s v = true)
    (hc : (c, n) ∈ HwAborts v i arg) : (AbortWaits s n i → exec c s = .next s) ∧
      (¬AbortWaits s n i → exec c s = .next (hwAbort n i.toNat arg.toNat s)) ∧ 1 ≤ n ∧ n ≤ 7 := by
  simp only [HwAborts, List.mem_cons, List.not_mem_nil, or_false, Prod.mk.injEq] at hc
  rcases hc with ⟨rfl, rfl⟩ | ⟨rfl, rfl⟩ | ⟨rfl, rfl⟩ | ⟨rfl, rfl⟩ | ⟨rfl, rfl⟩ | ⟨rfl, rfl⟩ | ⟨rfl, rfl⟩
  case inl =>
    refine ⟨fun h => ?_, fun h => act_eq ?_, by decide, by decide⟩
    · show execHwabortSession v i arg s = _
      rw [execHwabortSession, hup, h.2.2, decide_eq_true h.2.1]
      rfl
    · rw [hup]
      by_cases hi : i.toNat < 16
      · cases hheld : windowsHeld s i.toNat
        · simp
        · exact absurd ⟨rfl, hi, hheld⟩ h
      · simp [hi]
  all_goals exact ⟨fun h => absurd h.1 (by decide), fun _ => act_eq hup, by decide, by decide⟩

theorem hwAbort_of_busy {n i arg : Nat} {s : State} (h : flag s Reg.MB_HWASTAT Fld.MB_HWASTAT_BUSY = true) :
    hwAbort n i arg s = raiseFlag Reg.MB_HWASTAT Fld.MB_HWASTAT_REF s := if_pos h

/-- An abort in progress of target n, with the state its target is in and the RESULT it will show. -/
def hwAbortShown (n : Nat) (y : State × Nat) : State :=
  y.1 |> setFlag Reg.MB_HWASTAT Fld.MB_HWASTAT_BUSY true |> setFld Reg.MB_HWASTAT Fld.MB_HWASTAT_TARGET n
    |> updHost (fun h => { h with abort := y.2, abortTarget := n })

/-- The state on which the abort acts: a restart of the Foreman breaches the promise of every rail. -/
def abortBegun (n i : Nat) (s : State) : State := if n = 7 ∧ i = 0 then breachAll s else s

theorem hwAbort_of_free {n i arg : Nat} {s : State} (h : flag s Reg.MB_HWASTAT Fld.MB_HWASTAT_BUSY = false) :
    hwAbort n i arg s = hwAbortShown n (hwAbortEffect n i arg (abortBegun n i s)) := by
  unfold hwAbort
  dsimp only
  rw [if_neg (by simp [h]), ← abortBegun.eq_def]
  generalize hwAbortEffect n i arg (abortBegun n i s) = y
  rfl

theorem hwAbortShown_effect {n : Nat} (hn : n < 16) (y : State × Nat) : let t := hwAbortShown n y
    flag t Reg.MB_HWASTAT Fld.MB_HWASTAT_BUSY = true ∧ fld t Reg.MB_HWASTAT Fld.MB_HWASTAT_TARGET = n ∧
      t.host.abortTarget = n ∧ t.host.abort = y.2 ∧ KeepsRegs [Reg.MB_HWASTAT] y.1 t ∧ t.mem = y.1.mem := by
  unfold hwAbortShown
  refine ⟨?_, ?_, by simp, by simp, ?_, by simp⟩
  · rw [flag, fld_updHost, fld_setFld_other _ _ _ _ _ (by decide) (by decide) (by decide) (by decide), ← flag]
    exact flag_setFlag_self _ _ _ _ (by decide) (by decide)
  · rw [fld_updHost, fld_setFld_self _ _ _ _ (by decide) (by decide)]
    exact Nat.mod_eq_of_lt hn
  · exact keepsRegs_updHost (keepsRegs_setFld _ _ _ (keepsRegs_setFlag _ _ _ (keepsRegs_refl _ _) (by simp)) (by simp)) _

theorem hwAbortEffect_of_index {n i : Nat} (h : abortIndexOk n i = false) (arg : Nat) (s : State) :
    hwAbortEffect n i arg s = (s, 3) := if_pos h

/-- The RESULT is that of the abort on the state of the write: the restart of the Foreman always stops it. -/
theorem result_hwAbortEffect (n i arg : Nat) (s : State) :
    (hwAbortEffect n i arg (abortBegun n i s)).2 = (hwAbortEffect n i arg s).2 := by
  unfold abortBegun
  split
  next h =>
    obtain ⟨rfl, rfl⟩ := h
    unfold hwAbortEffect
    rw [if_neg (by decide), if_pos rfl, if_neg (by decide), if_pos rfl]
  · rfl

/-- An index out of range stops nothing. -/
theorem hwAbort_index_effect {n i arg : Nat} {s : State} (hn : n < 16)
    (h : flag s Reg.MB_HWASTAT Fld.MB_HWASTAT_BUSY = false) (hindex : abortIndexOk n i = false) :
    let t := hwAbort n i arg s
    t.host.abort = 3 ∧ KeepsRegs [Reg.MB_HWASTAT] s t ∧ t.mem = s.mem := by
  have hbegun : abortBegun n i s = s := if_neg fun h7 => by
    obtain ⟨rfl, rfl⟩ := h7
    exact absurd hindex (by decide)
  rw [hwAbort_of_free h, hbegun, hwAbortEffect_of_index hindex]
  obtain ⟨-, -, -, habort, hregs, hmem⟩ := hwAbortShown_effect hn (s, 3)
  exact ⟨habort, hregs, hmem⟩

/-- DONE and the RESULT of an abort show, before the alert settles. -/
def abortDoneShown (s : State) : State :=
  s |> setFlag Reg.MB_HWASTAT Fld.MB_HWASTAT_BUSY false |> raiseFlag Reg.MB_HWASTAT Fld.MB_HWASTAT_DONE
    |> setFld Reg.MB_HWASTAT Fld.MB_HWASTAT_RESULT s.host.abort

theorem hwAbortDone_eq (s : State) : hwAbortDone s = report { src := 0x05, event := 1, cls := 2, unit := s.host.abortTarget }
    (settleAlert (abortDoneShown s)) := by
  unfold hwAbortDone abortDoneShown
  rfl

theorem hwAbortDone_effect {s : State} (h : s.host.abort < 16) : let t := hwAbortDone s
    flag t Reg.MB_HWASTAT Fld.MB_HWASTAT_BUSY = false ∧ flag t Reg.MB_HWASTAT Fld.MB_HWASTAT_DONE = true ∧
      fld t Reg.MB_HWASTAT Fld.MB_HWASTAT_RESULT = s.host.abort := by
  have hreg : rd (hwAbortDone s) Reg.MB_HWASTAT = rd (abortDoneShown s) Reg.MB_HWASTAT := by
    rw [hwAbortDone_eq, rd_report_upstream (by unfold Upstream; decide) (fun _ => List.mem_range.mp)]
    exact rd_of_regs (regs_settleAlert _) _
  have hfld (f : Bits) : fld (hwAbortDone s) Reg.MB_HWASTAT f = fld (abortDoneShown s) Reg.MB_HWASTAT f := by
    rw [fld, hreg, fld]
  dsimp only
  rw [hfld, flag_of_fld_eq (hfld _), flag_of_fld_eq (hfld _), abortDoneShown]
  refine ⟨?_, ?_, (fld_setFld_self _ _ _ _ (by decide) (by decide)).trans (Nat.mod_eq_of_lt h)⟩
  · refine (flag_of_fld_eq ((fld_setFld_other _ _ _ _ _ (by decide) (by decide) (by decide) (by decide)).trans
      (fld_raiseFlag_other _ 30 _ _ (by decide) (by decide) (by decide)))).trans ?_
    exact flag_setFlag_self _ _ _ _ (by decide) (by decide)
  · refine (flag_of_fld_eq (fld_setFld_other _ _ _ _ _ (by decide) (by decide) (by decide) (by decide))).trans ?_
    exact flag_raiseFlag_self _ 30 _ (by decide)

/-! ## The stream (R335, R336) -/

theorem putRecord_effect (y : Nat × Nat) (v : Int) (s : State) : let t := putRecord y v s
    KeepsRegs [Reg.MB_STRWP] s t ∧ t.mem = s.mem ∧
      fld t Reg.MB_STRWP Fld.MB_STRWP_WP = (fld s Reg.MB_STRWP Fld.MB_STRWP_WP + 16) % 65536 := by
  unfold putRecord
  refine ⟨keepsRegs_setFld _ _ _ (keepsRegs_updHost (keepsRegs_refl _ s) _) (by simp), by simp, ?_⟩
  rw [fld_setFld_self _ _ _ _ (by decide) (by decide)]
  exact Nat.mod_mod _ _

/-- A stream period writes one record for each quantity. -/
theorem forAll_putRecord_effect {f : Nat × Nat → State → State}
    (hf : ∀ y s, ∃ v, f y s = putRecord y v s) (ys : List (Nat × Nat)) (s : State) : let t := forAll ys f s
    KeepsRegs [Reg.MB_STRWP] s t ∧ t.mem = s.mem ∧
      fld t Reg.MB_STRWP Fld.MB_STRWP_WP = (fld s Reg.MB_STRWP Fld.MB_STRWP_WP + 16 * ys.length) % 65536 := by
  induction ys generalizing s with
  | nil =>
    have hlt := fld_lt s Reg.MB_STRWP Fld.MB_STRWP_WP
    exact ⟨keepsRegs_refl _ s, rfl, (Nat.mod_eq_of_lt hlt).symm⟩
  | cons y ys ih =>
    obtain ⟨v, hv⟩ := hf y s
    obtain ⟨hregs, hmem, hwp⟩ := putRecord_effect y v s
    obtain ⟨hregs', hmem', hwp'⟩ := ih (f y s)
    rw [hv] at hregs' hmem' hwp'
    rw [forAll_cons, hv]
    refine ⟨keepsRegs_trans hregs hregs', hmem'.trans hmem, ?_⟩
    rw [hwp', hwp, List.length_cons]
    omega

theorem streamRecords_effect (tj : List (BitVec 32)) (s : State) : let t := streamRecords tj s
    KeepsRegs [Reg.MB_STRWP] s t ∧ t.mem = s.mem ∧
      fld t Reg.MB_STRWP Fld.MB_STRWP_WP =
        (fld s Reg.MB_STRWP Fld.MB_STRWP_WP + 16 * s.host.stream.length) % 65536 := by
  obtain ⟨hregs, hmem, hwp⟩ := forAll_putRecord_effect
    (f := fun y s => putRecord y ((sourceValue s y.1 y.2 (nthD 0 tj y.2).toInt).getD 0) s)
    (fun _ _ => ⟨_, rfl⟩) s.host.stream (updHost (fun h => { h with streamAt := s.tb.ns + 1 }) s)
  exact ⟨keepsRegs_trans (keepsRegs_updHost (keepsRegs_refl _ s) _) hregs, hmem, hwp⟩

/-! ## The obligation -/

/-- Nothing keeps session x's request waiting: it is an ABORT, or no other session's ABORT is in REQ. -/
theorem abortFirst_iff (s : State) (x : Fin 16) : (abortAsked s (2 ^ x.val) && windowOp s x != 0x0F01) = false ↔
    (windowOp s x = 0x0F01 ∨ ∀ y : Fin 16, y ≠ x → ¬(sessPhase s y = 1 ∧ windowOp s y = 0x0F01)) := by
  rw [Bool.and_eq_false_iff, ← Bool.not_eq_true, abortAsked_iff, bne_eq_false_iff_eq, or_comm]
  refine or_congr Iff.rfl ⟨fun h y hne hy => h ⟨y, y.2, fun heq => hne (Fin.ext heq), hy⟩, ?_⟩
  rintro h ⟨y, hy, hne, hother⟩
  exact h ⟨y, hy⟩ (fun heq => hne (congrArg Fin.val heq)) hother

/-- Settles O51: a doorbell, a clear, a post, an idle session, an abort and the stream act as the lemmas above say. -/
theorem mailboxCommandsRun : Obligations.MailboxCommandsRun := by
  unfold Obligations.MailboxCommandsRun
  intro s m v x i arg tj
  dsimp only
  refine ⟨fun hup => ⟨fun hmode => ?_, fun hmode href => ?_, fun hmode href hfree => ?_, fun hmode hboot href hbusy => ?_,
    fun hraised => ?_, fun hstanding hset => ?_, fun c n hc => ⟨fun hwait => ?_, fun hgo hbusy => ?_, fun hgo hfree => ?_⟩⟩,
    fun hw htakes hphase => ⟨fun hnot => ?_, fun ⟨hheld, hraised, hfirst⟩ => ?_⟩,
    fun hw hpost => ⟨fun hlate => ?_, fun r hlate hphase hready => ?_⟩, fun ha hserves hidle => ?_,
    fun ha hbusy habort => ?_, fun ha hserves hdue => ?_, fun hw => ?_⟩
  · exact runs_of_eq (exec_mbDoorbell hup x.2) (if_pos hmode)
  · refine runs_of_eq ((exec_mbDoorbell hup x.2).trans (congrArg _ (ringDoorbell_of_refused hmode href))) ?_
    exact ⟨flag_raiseFlag_self _ 29 _ (by decide), onlyRegs_raiseFlag _ _ (onlyRegs_refl _ s) (by simp)⟩
  · exact runs_of_eq ((exec_mbDoorbell hup x.2).trans (congrArg _ (ringDoorbell_of_taken hmode href hfree)))
      (doorbellTaken_effect x.2 _ s)
  · exact runs_of_eq ((exec_mbDoorbell hup x.2).trans (congrArg _ (ringDoorbell_of_busy hmode href hboot hbusy)))
      ⟨rfl, busyResponse_effect x.2 s⟩
  · refine runs_of_eq (exec_mbHrdyClear hup x.2) ?_
    rw [hrdyClear_of_raised hraised, ite_self]
  · obtain ⟨hbit, hphase, hregs, hmem⟩ := hrdyCleared_effect x.2 s
    refine runs_of_eq ((exec_mbHrdyClear hup x.2).trans (congrArg _ ((if_pos hset).trans
      (hrdyClear_of_standing hstanding)))) ⟨?_, ?_, ?_, ?_⟩
    · rw [rd_of_regs (regs_settleAlert _)]
      exact hbit
    · exact (sessPhase_of_rd (rd_of_regs (regs_settleAlert _) _)).trans hphase
    · exact keepsRegs_of_regs hregs (regs_settleAlert _)
    · exact (mem_settleAlert _).trans hmem
  · exact runs_of_eq ((exec_hwAbort hup hc).1 hwait) rfl
  · exact runs_of_eq (((exec_hwAbort hup hc).2.1 hgo).trans (congrArg _ (hwAbort_of_busy hbusy)))
      ⟨flag_raiseFlag_self _ 29 _ (by decide), onlyRegs_raiseFlag _ _ (onlyRegs_refl _ s) (by simp)⟩
  · obtain ⟨-, hexec, -, hn⟩ := exec_hwAbort hup hc
    obtain ⟨hbusy, htarget, hown, hresult, -⟩ := hwAbortShown_effect (n := n) (by omega)
      (hwAbortEffect n i.toNat arg.toNat (abortBegun n i.toNat s))
    rw [← hwAbort_of_free hfree] at hbusy htarget hown hresult
    exact runs_of_eq (hexec hgo) ⟨rfl, hbusy, htarget, hown, hresult.trans (result_hwAbortEffect _ _ _ s),
      hwAbort_index_effect (by omega) hfree⟩
  · refine runs_of_eq (exec_mbFreqClear hw x.2 htakes hphase) ?_
    by_cases hwaiting : bitAt (raisedIn s Reg.MB_FREQ) x = true ∨ rangeHeld s (reqWindow x) 4096 = true
    · rw [takeAsked_of_waiting (hwaiting.imp_right fun h => ⟨hphase, h⟩), ite_self]
    · refine if_pos ?_
      rw [not_or, Bool.not_eq_true, Bool.not_eq_true] at hwaiting
      by_contra hmine
      exact hnot ⟨hwaiting.2, hwaiting.1, (abortFirst_iff s x).mp (Bool.not_eq_true _ ▸ hmine)⟩
  · have hmine := (abortFirst_iff s x).mpr hfirst
    refine runs_of_eq ((exec_mbFreqClear hw x.2 htakes hphase).trans (congrArg _ (if_neg (by simp [hmine])))) ⟨rfl, ?_⟩
    exact takeAsked_effect x.2 hraised hphase hheld
  · obtain ⟨hregs, hmem, hcount⟩ := postSession_late_effect hlate
    obtain ⟨horigin, hmem', -⟩ := updateOrigin_keeps (postSession x s)
    exact runs_of_eq (exec_mbFpost hw hpost) ⟨keepsRegs_of_regs hregs horigin, hmem'.trans hmem,
      (fld_of_regs horigin _ _).trans hcount⟩
  · obtain ⟨hdone, hphase', hseq, hbit, hfreed⟩ := postResponse_effect x.2 r s
    obtain ⟨horigin, -, hsess⟩ := updateOrigin_keeps (postResponse x r s)
    have hreg := rd_of_regs horigin
    refine runs_of_eq ((exec_mbFpost hw hpost).trans (congrArg (fun t => Host.Outcome.next (updateOrigin t))
      (postSession_of_ready hlate hphase hready))) ⟨rfl, ?_, ?_, ?_, fun h => ?_, fun h => ?_⟩
    · rw [sessOf_of_sess hsess]
      exact hdone
    · exact (sessPhase_of_rd (hreg _)).trans hphase'
    · exact (fld_of_regs horigin _ _).trans hseq
    · rw [hreg]
      exact hbit h
    · exact (sessState_of_rd (hreg _)).trans (hfreed h)
  · refine runs_of_eq (live_eq ha (by simp [hserves, hidle])) ?_
    split
    · exact ⟨by rw [sessOf_updSess, if_pos rfl], by simp⟩
    · exact ⟨sessState_freeSession x s, keepsRegs_freeSession x s⟩
  · exact runs_of_eq (live_eq ha hbusy) ⟨rfl, hwAbortDone_effect habort⟩
  · exact runs_of_eq (live_eq ha (by simp [hserves, hdue])) ⟨rfl, streamRecords_effect tj s⟩
  · exact runs_of_eq (regWriteBy_eq hw) (one_wr_zero _ s)

end Sys2Proof.Machine
end

section
/-! What a commit of the recorder, an erase and a read of the NVM leave of the sessions and of memory (R291, R295,
R309, R372). -/

namespace Sys2Proof.Machine

/-! ## The recorder (R291, R295) -/

theorem sess_storeWord (m k a n v size : Nat) (u : Upset) (s : State) : (storeWord m k a n v size u s).1.sess = s.sess :=
  sess_of_besideMemory (besideMemory_storeWord m k a n v size u s)

theorem sess_clearExtremes (s : State) : (clearExtremes s).sess = s.sess := by
  have hreset (a v : Nat) (s : State) : (resetExtreme a v s).sess = s.sess :=
    (sess_storeWord _ _ _ _ _ _ _ _).trans (sess_storeWord _ _ _ _ _ _ _ s)
  unfold clearExtremes
  exact forAll_keeps State.sess _ (fun _ _ => (hreset _ _ _).trans (hreset _ _ _)) s

theorem sess_clearHistograms (s : State) : (clearHistograms s).sess = s.sess := by simp [clearHistograms]

theorem sess_copySet (s : State) : (copySet s).sess = s.sess := by
  unfold copySet
  split
  · rfl
  · simp only [updEr]
    exact forAll_keeps State.sess _ (fun _ _ => sess_of_besideRead (besideRead_touchWord _ _ _ _ _ _ _ _)) s

/-- The recorder's work for a command of ER_CMD keeps the sessions. -/
theorem sess_erDo {w : ErWork} (hw : w = .copy ∨ w = .clearHist ∨ w = .clearExt) (s : State) :
    (erDo w s).sess = s.sess := by
  unfold erDo
  split
  · rcases hw with rfl | rfl | rfl
    · exact sess_copySet s
    · exact sess_clearHistograms s
    · exact sess_clearExtremes s
  · simp

theorem sess_dueCommit (s : State) : (dueCommit s).sess = s.sess := by
  unfold dueCommit
  split
  · simp [raiseFlag, raiseWord, orWord]
  · rw [startCommit_eq, sess_erDo (Or.inl rfl)]
    simp [commitBegun]

theorem sess_erCommand (op : Nat) (s : State) : (erCommand op s).sess = s.sess := by
  unfold erCommand
  split
  · rfl
  split
  · exact sess_dueCommit s
  split
  · split
    · rfl
    · exact sess_erDo (Or.inr (Or.inl rfl)) s
  split
  · split
    · rfl
    · exact sess_erDo (Or.inr (Or.inr rfl)) s
  split
  · simp
  split
  · simp
  · rfl

/-! ## Reads of the NVM (R309) -/

/-- The state beside the NVM, the registers and the fault manager. -/
def besideNvRead (s : State) : State := { besideFaults s with nv := Nvm.init }

theorem besideNvRead_of_besideFaults {s t : State} (h : besideFaults t = besideFaults s) :
    besideNvRead t = besideNvRead s := (congrArg besideNvRead h :)

theorem besideNvRead_incFld (a : Nat) (f : Bits) (s : State) : besideNvRead (incFld a f s) = besideNvRead s := (rfl)

theorem besideNvRead_updNv (f : Nvm → Nvm) (s : State) : besideNvRead (updNv f s) = besideNvRead s := (rfl)

theorem besideNvRead_report (y : Rep) (s : State) : besideNvRead (report y s) = besideNvRead s :=
  besideNvRead_of_besideFaults (besideFaults_report y s)

theorem besideNvRead_nvReadCw (m a sect c flips : Nat) (s : State) :
    besideNvRead (nvReadCw m a sect c flips s).1 = besideNvRead s := by
  unfold nvReadCw
  dsimp only
  split
  · exact (besideNvRead_updNv _ _).trans ((besideNvRead_incFld _ _ _).trans (besideNvRead_updNv _ s))
  · split
    · exact (besideNvRead_report _ _).trans ((besideNvRead_incFld _ _ _).trans (besideNvRead_updNv _ s))
    · exact besideNvRead_updNv _ s

theorem besideNvRead_nvTouch (m first n : Nat) (s : State) : besideNvRead (nvTouch m first n s) = besideNvRead s := by
  refine forAll_keeps besideNvRead _ (fun key s => ?_) s
  split
  · exact besideNvRead_nvReadCw _ _ _ _ _ s
  · rfl

theorem sess_nvTouch (m first n : Nat) (s : State) : (nvTouch m first n s).sess = s.sess :=
  (congrArg State.sess (besideNvRead_nvTouch m first n s) :)

theorem mem_nvTouch (m first n : Nat) (s : State) : (nvTouch m first n s).mem = s.mem :=
  (congrArg State.mem (besideNvRead_nvTouch m first n s) :)

/-- Where no bit of the NVM is flipped a read changes nothing. -/
theorem nvTouch_of_clean (m first n : Nat) {s : State} (h : s.nv.flips = []) : nvTouch m first n s = s := by
  rw [nvTouch, h]
  rfl

/-! ## FAULT_CLEAR (R372) -/

/-- The fault log's sectors are erased. -/
def logErased (s : State) : State :=
  forAll ((List.range 32).filter fun i => !nvErased s (32 + i) 0) (fun i s => clearSector (32 + i) s) s

theorem besideNvm_logErased (s : State) : besideNvm (logErased s) = besideNvm s := by
  unfold logErased
  exact forAll_keeps besideNvm _ (fun _ _ => besideNvm_clearSector _ _) s

theorem besideRegs_fecClear (s : State) : besideRegs (fecClear s) = besideRegs s := by
  unfold fecClear
  exact forAll_keeps besideRegs (f := fun a s => wr a 0 s) _ (fun _ _ => rfl) s

theorem faultClear_eq (s : State) : faultClear s = setFlag Reg.FM_STAT Fld.FM_STAT_FPEND false
    (fecClear (updFm (fun f => { f with log := [], logPos := 0 }) (logErased s))) := rfl

theorem faultClear_effect (s : State) : let t := faultClear s
    t.sess = s.sess ∧ t.mem = s.mem ∧ t.fm.log = [] ∧ flag t Reg.FM_STAT Fld.FM_STAT_FPEND = false := by
  have herased := besideNvm_logErased s
  rw [faultClear_eq]
  generalize logErased s = u at herased ⊢
  have hclear := besideRegs_fecClear (updFm (fun f => { f with log := [], logPos := 0 }) u)
  generalize fecClear (updFm (fun f => { f with log := [], logPos := 0 }) u) = v at hclear ⊢
  have hsess : v.sess = u.sess := (congrArg State.sess hclear :)
  have hmem : v.mem = u.mem := (congrArg State.mem hclear :)
  have hfm : v.fm.log = [] := (congrArg (fun t : State => t.fm.log) hclear :)
  refine ⟨?_, ?_, by simpa using hfm, flag_setFlag_self _ _ _ _ (by decide) (by decide)⟩
  · have hsess' : u.sess = s.sess := (congrArg State.sess herased :)
    simpa using hsess.trans hsess'
  · have hmem' : u.mem = s.mem := (congrArg State.mem herased :)
    simpa using hmem.trans hmem'

end Sys2Proof.Machine
end

section
/-! The Lyheuf commands: what the Foreman answers to each opcode, and does (R322 to R338, R354, R355, R372). -/

namespace Sys2Proof.Machine

/-! ## Commands whose payload has one length (R325) -/

theorem execGetStatus_eq (x : Fin 16) (s : State) :
    execGetStatus x s = lyheufSized x 0x0102 0 s fun _ s => respond x stOK (statusPayload s) s := rfl

/-- RAIL_GET's effect. -/
def railGet (x : Nat) (p : List Nat) (s : State) : State :=
  match railArg p with
  | some r =>
    respond x stOK ((List.range 64).flatMap (fun i => toBytes 4 (rd s (Reg.RT_CFG r + 4 * i))) ++
      toBytes 4 (rd s Reg.RT_CMDSTAT)) s
  | none => respond x stARG [] s

theorem execRailGet_eq (x : Fin 16) (s : State) : execRailGet x s = lyheufSized x 0x0201 4 s (railGet x) := rfl

theorem besideSess_railGet (x : Nat) (p : List Nat) (s : State) : besideSess (railGet x p s) = besideSess s := by
  unfold railGet
  split <;> exact besideSess_respond _ _ _ s

/-- GET_CERT's effect. -/
def getCert (x : Nat) (p : List Nat) (s : State) : State :=
  if blank p 2 2 then respondPart x (identityKey ++ certificate s) (le p 0 2) (nvTouch 128 1504 1024 s)
  else respond x stARG [] s

theorem execGetCert_eq (x : Fin 16) (s : State) : execGetCert x s = lyheufSized x 0x0902 4 s (getCert x) := rfl

/-! ## Answers that change nothing else (R325) -/

section
variable {s : State} {x : Fin 16} {r : Request} (hreq : (sessOf s x).req = some r)
include hreq

/-- An answer leaves the registers and memory as they were. -/
theorem answer_only (st : Nat) (pl : List Nat) : (sessOf (respond x st pl s) x).ready = some (answerTo r st pl) ∧
    (respond x st pl s).regs = s.regs ∧ (respond x st pl s).mem = s.mem :=
  ⟨ready_respond hreq st pl, regs_respond _ _ _ _, mem_respond _ _ _ _⟩

/-- The answer to a request that still stands in a state whose sessions are the same. -/
theorem ready_respond_of_sess {t : State} (h : t.sess = s.sess) (st : Nat) (pl : List Nat) :
    (sessOf (respond x st pl t) x).ready = some (answerTo r st pl) :=
  ready_respond ((congrArg _ (sessOf_of_sess h x)).trans hreq) st pl

/-- A command whose payload has not its length answers ARG. -/
theorem exec_lyheufSized {c : Instr} {op n : Nat}
    (hc : (c, op, n) ∈ [(Instr.getStatus x, 0x0102, 0), (.setMode x, 0x0103, 4), (.railGet x, 0x0201, 4),
      (.railEnable x, 0x0203, 4), (.railDisable x, 0x0204, 4), (.railClear x, 0x0205, 4), (.faultLog x, 0x0801, 8),
      (.attest x, 0x0901, 36), (.getCert x, 0x0902, 4)])
    (hon : serving s x op = true) (hfree : tableFree s = true) (hidle : mode s = 2 → s.nv.op = .none)
    (hlen : r.payload.length ≠ n) : exec c s = .next (respond x stARG [] s) := by
  have hsized := fun h f => lyheufSized_of_length (n := n) hreq hon h f
  simp only [List.mem_cons, List.not_mem_nil, or_false, Prod.mk.injEq] at hc
  rcases hc with ⟨rfl, rfl, rfl⟩ | ⟨rfl, rfl, rfl⟩ | ⟨rfl, rfl, rfl⟩ | ⟨rfl, rfl, rfl⟩ | ⟨rfl, rfl, rfl⟩ |
    ⟨rfl, rfl, rfl⟩ | ⟨rfl, rfl, rfl⟩ | ⟨rfl, rfl, rfl⟩ | ⟨rfl, rfl, rfl⟩
  case inl => exact (execGetStatus_eq x s).trans (hsized hlen _)
  case inr.inl =>
    show execSetMode x s = _
    rw [execSetMode, if_neg (by tauto)]
    exact hsized hlen _
  case inr.inr.inl => exact (execRailGet_eq x s).trans (hsized hlen _)
  case inr.inr.inr.inl =>
    show execRailEnable x s = _
    rw [execRailEnable, if_pos hfree]
    exact hsized hlen _
  case inr.inr.inr.inr.inl =>
    show execRailDisable x s = _
    rw [execRailDisable, if_pos hfree]
    exact hsized hlen _
  case inr.inr.inr.inr.inr.inl =>
    show execRailClear x s = _
    rw [execRailClear, if_pos hfree]
    exact hsized hlen _
  case inr.inr.inr.inr.inr.inr.inr.inr => exact (execGetCert_eq x s).trans (hsized hlen _)
  all_goals exact hsized hlen _

end

/-! ## SET_MODE (R30, R330) -/

theorem allOff_keeps (s : State) : (allOff s).regs = s.regs ∧ (allOff s).mem = s.mem ∧ (allOff s).sess = s.sess := by
  unfold allOff
  exact ⟨forAll_keeps State.regs _ (fun _ _ => by simp [expectOff]) s,
    forAll_keeps State.mem _ (fun _ _ => by simp [expectOff]) s,
    forAll_keeps State.sess _ (fun _ _ => by simp [expectOff]) s⟩

/-- The mode named is none, or the other bytes are not 0. -/
def ModeMisnamed (p : List Nat) : Prop := (nthD 0 p 0 ≠ 1 ∧ nthD 0 p 0 ≠ 2) ∨ ¬blank p 1 3

theorem setModeTo_of_misnamed {p : List Nat} (h : ModeMisnamed p) (x : Nat) (s : State) :
    setModeTo x p s = respond x stARG [] s := if_pos h

section
variable {s : State} {x : Nat} {p : List Nat} (hp : ¬ModeMisnamed p)
include hp

theorem setModeTo_of_late (h : mode s = 6 ∨ mode s = 7) : setModeTo x p s = respond x stSTATE [] s :=
  (if_neg hp).trans ((if_neg (by omega)).trans (if_neg (by omega)))

theorem setModeTo_standby (h : mode s = 2) (ht : nthD 0 p 0 = 1) : setModeTo x p s = respond x stOK [] (allOff s) :=
  (if_neg hp).trans ((if_pos h).trans (if_pos ht))

theorem setModeTo_dormant (h : mode s = 2) (ht : nthD 0 p 0 = 2) : setModeTo x p s =
    if commitFree s then dormantFromStandby s else if 3 ≤ shed s then dueCommit s else s :=
  (if_neg hp).trans ((if_pos h).trans (if_neg (by omega)))

end

theorem mode_dormantFromStandby (s : State) : mode (dormantFromStandby s) = 0 := by
  unfold dormantFromStandby goDormant
  exact mode_enterMode 0 _ (by decide)

/-- DORMANT from STANDBY is entered where the recorder can commit; at shed level 3 and above the commit waits. -/
theorem setModeTo_dormant_effect {s : State} {x : Nat} {p : List Nat} (hp : ¬ModeMisnamed p) (h : mode s = 2)
    (ht : nthD 0 p 0 = 2) : let t := setModeTo x p s
    mode t = (if commitFree s then 0 else 2) ∧
      (commitFree s = false → t.er.waiting = (s.er.waiting || decide (3 ≤ shed s)) ∧ t.er.commit = s.er.commit ∧
        (sessOf t x).ready = (sessOf s x).ready) := by
  rw [setModeTo_dormant hp h ht]
  cases hfree : commitFree s
  · simp only [Bool.false_eq_true, if_false]
    by_cases hshed : 3 ≤ shed s
    · obtain ⟨hwait, hcommit, -⟩ := dueCommit_of_shed hshed
      rw [if_pos hshed, decide_eq_true hshed, Bool.or_true, mode_dueCommit hshed,
        sessOf_of_sess (sess_dueCommit s)]
      exact ⟨h, fun _ => ⟨hwait, hcommit, rfl⟩⟩
    · rw [if_neg hshed, decide_eq_false hshed, Bool.or_false]
      exact ⟨h, fun _ => ⟨rfl, rfl, rfl⟩⟩
  · simp only [if_true]
    exact ⟨mode_dormantFromStandby s, fun hno => absurd hno (by decide)⟩

/-! ## Sessions (R322, R326) -/

/-- Session x is OPEN on the transport its request came over. -/
def opened (x : Nat) (s : State) : State :=
  s |> setFld (Reg.MB_SESS x) Fld.MB_SESS_STATE 1 |> setFld (Reg.MB_SESS x) Fld.MB_SESS_XPORT (sessOf s x).via
    |> updSess x (fun y => { y with endpoint := y.viaEnd, based := false, nonce := [], frag := [] })

theorem openSession_of_free {x : Nat} {s : State} (h : sessState s x = 0) :
    openSession x s = respond x stOK [] (opened x s) := if_neg (by omega)

theorem opened_effect {x : Nat} {s : State} (hvia : (sessOf s x).via < 8) : let t := opened x s
    sessState t x = 1 ∧ fld t (Reg.MB_SESS x) Fld.MB_SESS_XPORT = (sessOf s x).via ∧ KeepsRegs [Reg.MB_SESS x] s t ∧
      (sessOf t x).req = (sessOf s x).req := by
  have hsess (t : State) (h : t.sess = s.sess) : (sessOf t x).req = (sessOf s x).req := by rw [sessOf_of_sess h]
  unfold opened
  refine ⟨?_, ?_, keepsRegs_updSess (keepsRegs_setFld _ _ _ (keepsRegs_setFld _ _ _ (keepsRegs_refl _ s) (by simp))
    (by simp)) _ _, ?_⟩
  · rw [sessState, fld_updSess, fld_setFld_other _ _ _ _ _ (by decide) (by decide) (by decide) (by decide),
      fld_setFld_self _ _ _ _ (by decide) (by decide)]
    rfl
  · rw [fld_updSess, fld_setFld_self _ _ _ _ (by decide) (by decide)]
    exact Nat.mod_eq_of_lt hvia
  · rw [sessOf_updSess, if_pos rfl]
    exact hsess _ (by simp)

/-- GET_NONCE gives 32 bytes, valid from now. -/
theorem giveNonce_effect {x : Nat} {s : State} {r : Request} (hreq : (sessOf s x).req = some r) :
    let t := giveNonce x s
    (sessOf t x).ready = some (answerTo r stOK (sessOf t x).nonce) ∧ (sessOf t x).nonce.length = 32 ∧
      (sessOf t x).nonceAt = s.tb.ns ∧ t.regs = s.regs ∧ t.mem = s.mem := by
  have hspent : sessOf (spend s) x = sessOf s x := sessOf_of_sess (by simp) x
  unfold giveNonce
  dsimp only
  generalize hn : (List.range 32).map (fun i => (Config.randomByte s.fresh i).toNat) = n
  have hlen : n.length = 32 := by rw [← hn, List.length_map, List.length_range]
  have hgiven : sessOf (updSess x (fun y => { y with nonce := n, nonceAt := s.tb.ns, frag := [] }) (spend s)) x =
      { sessOf s x with nonce := n, nonceAt := s.tb.ns, frag := [] } := by
    rw [sessOf_updSess, if_pos rfl, hspent]
  rw [sessOf_respond ((congrArg Session.req hgiven).trans hreq), hgiven]
  exact ⟨rfl, hlen, rfl, by simp, by simp⟩

theorem claimOwner_unprogrammed {x : Nat} {s : State} (h : s.otp.owner = false) :
    claimOwner x [0, 0, 0, 0] s = grantOwner x 0 s := by
  unfold claimOwner
  dsimp only
  rw [if_neg (by decide), if_pos (by simp [h]), if_pos (by decide)]
  rfl

/-- With no other owner the session becomes OWNER. -/
theorem grantOwner_effect {x : Nat} {s : State} {r : Request} (hreq : (sessOf s x).req = some r)
    (h : ∀ y, y < 16 → y ≠ x → sessState s y ≠ 2) : let t := grantOwner x 0 s
    (sessOf t x).ready = some (answerTo r stOK []) ∧ sessState t x = 2 ∧ KeepsRegs [Reg.MB_SESS x] s t := by
  have hnone : (List.range 16).find? (fun y => y != x && sessState s y == 2) = none := by
    rw [List.find?_eq_none]
    intro y hy
    have := h y (List.mem_range.mp hy)
    simpa using this
  have heq : grantOwner x 0 s = respond x stOK [] (setFld (Reg.MB_SESS x) Fld.MB_SESS_STATE 2 s) := by
    unfold grantOwner
    rw [hnone]
  rw [heq]
  refine ⟨ready_respond ((congrArg _ (sessOf_of_sess (by simp) x)).trans hreq) _ _, ?_,
    keepsRegs_of_regs (keepsRegs_setFld _ _ _ (keepsRegs_refl _ s) (by simp)) (regs_respond _ _ _ _)⟩
  rw [sessState, fld_of_regs (regs_respond _ _ _ _), fld_setFld_self _ _ _ _ (by decide) (by decide)]
  rfl

theorem hostPolicy_effect (pmbw : Bool) (haen : Nat) (s : State) : let t := hostPolicy pmbw haen s
    t.sess = s.sess ∧ t.mem = s.mem ∧ flag t Reg.MB_SMBCFG Fld.MB_SMBCFG_PMBW = pmbw ∧
      KeepsRegs [Reg.MB_SMBCFG, Reg.MB_HAEN] s t := by
  have hset : OnlyRegs [Reg.MB_SMBCFG, Reg.MB_HAEN] s (setFlag Reg.MB_SMBCFG Fld.MB_SMBCFG_PMBW pmbw s) :=
    onlyRegs_setFlag _ _ _ (onlyRegs_refl _ s) (by simp)
  have hboth := onlyRegs_plainWrite Reg.MB_HAEN haen hset (by simp)
  have hflag : flag (setFlag Reg.MB_SMBCFG Fld.MB_SMBCFG_PMBW pmbw s) Reg.MB_SMBCFG Fld.MB_SMBCFG_PMBW = pmbw :=
    flag_setFlag_self _ _ _ _ (by decide) (by decide)
  have hhaen := onlyRegs_plainWrite (as := [Reg.MB_HAEN]) Reg.MB_HAEN haen
    (onlyRegs_refl _ (setFlag Reg.MB_SMBCFG Fld.MB_SMBCFG_PMBW pmbw s)) (by simp)
  unfold hostPolicy
  generalize plainWrite Reg.MB_HAEN haen (setFlag Reg.MB_SMBCFG Fld.MB_SMBCFG_PMBW pmbw s) = t at hboth hhaen ⊢
  refine ⟨(sess_settleAlert t).trans (by rw [hboth.2.2]), (mem_settleAlert t).trans (mem_of_onlyRegs hboth), ?_,
    keepsRegs_of_regs hboth.1 (regs_settleAlert t)⟩
  rw [flag, fld_of_regs (regs_settleAlert t), fld_of_keepsRegs _ hhaen.1 (by decide)]
  exact hflag

/-! ## Telemetry (R329, R336) -/

/-- A stream that R336 does not allow. -/
def StreamRefused (qs : List (BitVec 8 × BitVec 8)) (us : Nat) : Prop :=
  64 < qs.length ∨ us % 16 ≠ 0 ∨ (us = 0 ∧ qs ≠ []) ∨ quantitiesOk qs = false

/-- The stream of some quantities begins for session x, or with none the stream stops. -/
def streamBegun (x : Nat) (qs : List (BitVec 8 × BitVec 8)) (us : Nat) (s : State) : State :=
  let set := qs.map fun y => (y.1.toNat, y.2.toNat)
  updHost (fun h => { h with stream := set, streamNs := if set.isEmpty then 0 else us * 1000, streamOwner := x }) s

theorem telemStream_of_refused {qs : List (BitVec 8 × BitVec 8)} {us : Nat} (h : StreamRefused qs us) (x : Nat)
    (s : State) : telemStream x qs us s = respond x stARG [] s := if_pos h

theorem telemStream_of_taken {qs : List (BitVec 8 × BitVec 8)} {us : Nat} (h : ¬StreamRefused qs us) (x : Nat)
    (s : State) : telemStream x qs us s = respond x stOK (packed 0x0602 []) (streamBegun x qs us s) := if_neg h

/-! ## The recorder, the log and the NVM (R309, R329, R354, R355, R372) -/

theorem recRead_of_misfit {off n : Nat} (h : 4000 < n ∨ 0x40000 < off + n) (x : Nat) (s : State) :
    recRead x off n s = respond x stARG [] s := if_pos h

theorem mem_recRead (x off n : Nat) (s : State) : (recRead x off n s).mem = s.mem := by
  by_cases h : 4000 < n ∨ 0x40000 < off + n
  · rw [recRead_of_misfit h, mem_respond]
  · have hmem := mem_loadBytes 128 (0x50000000 + off) n s
    rcases hload : loadBytes 128 (0x50000000 + off) n s with ⟨s', bs, good⟩
    rw [hload] at hmem
    rw [recRead, if_neg h, hload]
    exact (mem_respond _ _ _ _).trans hmem

theorem faultLog_eq (x : Nat) (p : List Nat) (s : State) : 126 < le p 4 4 ∧ faultLog x p s = respond x stARG [] s ∨
    ∃ pl, faultLog x p s = respond x stOK pl (nvTouch 128 32 4096 s) := by
  by_cases h : 126 < le p 4 4
  · exact Or.inl ⟨h, if_pos h⟩
  · exact Or.inr ⟨_, if_neg h⟩

theorem faultLog_effect (x : Nat) (p : List Nat) (s : State) : (faultLog x p s).mem = s.mem ∧
    (s.nv.flips = [] ∨ 126 < le p 4 4 → (faultLog x p s).regs = s.regs ∧ (faultLog x p s).mem = s.mem) := by
  obtain ⟨-, heq⟩ | ⟨pl, heq⟩ := faultLog_eq x p s
  · rw [heq]
    simp
  · have hmem : (faultLog x p s).mem = s.mem := by rw [heq, mem_respond, mem_nvTouch]
    refine ⟨hmem, fun h => ⟨?_, hmem⟩⟩
    by_cases hbig : 126 < le p 4 4
    · rw [show faultLog x p s = respond x stARG [] s from if_pos hbig, regs_respond]
    · rw [heq, regs_respond, nvTouch_of_clean _ _ _ (h.resolve_right hbig)]

theorem besideSess_respondPart (x : Nat) (blob : List Nat) (part : Nat) (s : State) :
    besideSess (respondPart x blob part s) = besideSess s := by
  unfold respondPart
  split
  · exact besideSess_respond _ _ _ s
  · exact besideSess_respond _ _ _ s

theorem regs_respondPart (x : Nat) (blob : List Nat) (part : Nat) (s : State) :
    (respondPart x blob part s).regs = s.regs := regs_of_besideSess (besideSess_respondPart x blob part s)

theorem mem_respondPart (x : Nat) (blob : List Nat) (part : Nat) (s : State) :
    (respondPart x blob part s).mem = s.mem := (congrArg State.mem (besideSess_respondPart x blob part s) :)

/-- ATTEST reads the golden image for part 0 alone, and keeps every byte of memory. -/
theorem attest_effect (x : Nat) (p : List Nat) (s : State) : (attest x p s).mem = s.mem ∧
    (s.nv.flips = [] ∨ nthD 0 p 32 ≠ 0 → (attest x p s).regs = s.regs ∧ (attest x p s).mem = s.mem) := by
  unfold attest
  dsimp only
  split
  · simp
  split
  next hpart =>
    have hmem : (readFolio 400 128 s).mem = s.mem := mem_nvTouch _ _ _ s
    have hclean : s.nv.flips = [] → readFolio 400 128 s = s := nvTouch_of_clean _ _ _
    generalize readFolio 400 128 s = u at hmem hclean ⊢
    have hmem' : ∀ blob f, (respondPart x blob 0 (updFrm f (spend u))).mem = s.mem := fun blob f => by
      rw [mem_respondPart]
      simpa using hmem
    refine ⟨hmem' _ _, fun h => ⟨?_, hmem' _ _⟩⟩
    rw [regs_respondPart, hclean (h.resolve_right (not_not_intro hpart))]
    simp
  · split
    · simp
    · simp [regs_respondPart, mem_respondPart]

theorem getCert_effect (x : Nat) (p : List Nat) (s : State) : (getCert x p s).mem = s.mem ∧
    (s.nv.flips = [] → (getCert x p s).regs = s.regs ∧ (getCert x p s).mem = s.mem) := by
  unfold getCert
  split
  · have hmem : ∀ blob part, (respondPart x blob part (nvTouch 128 1504 1024 s)).mem = s.mem := fun blob part => by
      rw [mem_respondPart, mem_nvTouch]
    refine ⟨hmem _ _, fun h => ⟨?_, hmem _ _⟩⟩
    rw [regs_respondPart, nvTouch_of_clean _ _ _ h]
  · simp

/-! ## ABORT (R337) -/

theorem firmwareAbort_of_role {x : Nat} {p : List Nat} {s : State} (h : sessState s x ≠ 2) (ht : nthD 0 p 0 ≠ 1) :
    firmwareAbort x p s = respond x stROLE [] s := if_pos ⟨h, fun h1 => ht h1.1⟩

theorem abortIndexOk_out {t : Nat} (h : t = 0 ∨ 8 ≤ t) (i : Nat) : abortIndexOk t i = false := by
  unfold abortIndexOk
  split
  case h_8 => rfl
  all_goals omega

theorem firmwareAbort_of_arg {x : Nat} {p : List Nat} {s : State} (h : sessState s x = 2)
    (hp : p.length ≠ 4 ∨ nthD 0 p 0 = 0 ∨ 7 ≤ nthD 0 p 0) : firmwareAbort x p s = respond x stARG [] s := by
  refine (if_neg fun hrole => hrole.1 h).trans (if_pos ?_)
  by_cases hseven : nthD 0 p 0 = 7
  · exact Or.inr (Or.inl hseven)
  · rcases hp with hlen | hzero | hbig
    · exact Or.inl hlen
    · exact Or.inr (Or.inr (abortIndexOk_out (Or.inl hzero) _))
    · exact Or.inr (Or.inr (abortIndexOk_out (Or.inr (by omega)) _))

/-! ## The obligation -/

/-- Settles O52: each command of a session leaves its answer, by the lemmas above. -/
theorem lyheufCommandsRun : Obligations.LyheufCommandsRun := by
  unfold Obligations.LyheufCommandsRun
  intro s x r hreq
  dsimp only
  have honly (st : Nat) (pl : List Nat) := answer_only hreq st pl
  have hp : payloadOf s x = r.payload := payloadOf_of_req hreq
  refine ⟨fun c op n hc hon hfree hidle hlen => ?_, fun hon => ?_, fun hon hlen => ?_, fun hon hidle hlen => ?_,
    fun hon => ?_, fun hon => ?_, fun hon => ?_, fun hon => ?_, fun pmbw haen hon => ?_, fun hon hlen => ?_,
    fun hfree => ⟨fun hon => ?_, fun hon hlen => ?_, fun hon hlen => ?_, fun hon hlen => ?_, fun j y hon hpend => ?_⟩,
    fun n hon => ?_, fun op n hon => ?_, fun e hon => ?_, fun q op b i arg hon => ?_, fun qs tj hon => ?_,
    fun qs us hon => ?_, fun o n hon hheld => ?_, fun op hon => ?_, fun hon hlen => ?_, fun hon hclosed => ?_,
    fun hon hlen => ?_, fun hon hlen => ?_, fun hwait => ?_, fun hon hgo => ?_⟩
  · exact runs_of_eq (exec_lyheufSized hreq hc hon hfree hidle hlen) (honly stARG [])
  · exact runs_of_eq (lyheuf_eq hon) ⟨⟨_, (honly stOK _).1⟩, (honly stOK _).2⟩
  · exact runs_of_eq ((execGetStatus_eq x s).trans (lyheufSized_eq hreq hon (by simp [hlen]) _)) (honly stOK _)
  · have hexec : exec (.setMode x) s = .next (setModeTo x r.payload s) := by
      show execSetMode x s = _
      rw [execSetMode, if_neg (by tauto)]
      exact lyheufSized_eq hreq hon hlen _
    have hgood {t : Nat} (ht : t = 1 ∨ t = 2) (h : r.payload = [t, 0, 0, 0]) :
        ¬ModeMisnamed r.payload ∧ nthD 0 r.payload 0 = t := by
      rw [h]
      rcases ht with rfl | rfl <;> exact ⟨by unfold ModeMisnamed; decide, rfl⟩
    refine runs_of_eq hexec ⟨rfl, fun h hmode => ?_, fun h hmode => ?_, fun hmode h => ?_, fun h => ?_⟩
    · obtain ⟨hnamed, ht⟩ := hgood (Or.inl rfl) h
      obtain ⟨hregs, hmem, hsess⟩ := allOff_keeps s
      rw [setModeTo_standby hnamed hmode ht]
      exact ⟨ready_respond_of_sess hreq hsess _ _, (regs_respond _ _ _ _).trans hregs, (mem_respond _ _ _ _).trans hmem⟩
    · obtain ⟨hnamed, ht⟩ := hgood (Or.inr rfl) h
      exact setModeTo_dormant_effect hnamed hmode ht
    · have hnamed : ¬ModeMisnamed r.payload := h.elim (fun h => (hgood (Or.inl rfl) h).1) fun h => (hgood (Or.inr rfl) h).1
      rw [setModeTo_of_late hnamed hmode]
      exact honly stSTATE []
    · rw [setModeTo_of_misnamed (by unfold ModeMisnamed; omega)]
      exact honly stARG []
  · refine runs_of_eq (lyheuf_eq hon) ⟨fun hfree hvia => ?_, fun hopen => ?_⟩
    · obtain ⟨hstate, hxport, hregs, hreq'⟩ := opened_effect hvia
      rw [openSession_of_free hfree]
      refine ⟨ready_respond (hreq'.trans hreq) _ _, ?_, ?_, keepsRegs_of_regs hregs (regs_respond _ _ _ _)⟩
      · exact (sessState_of_rd (rd_of_regs (regs_respond _ _ _ _) _)).trans hstate
      · exact (fld_of_regs (regs_respond _ _ _ _) _ _).trans hxport
    · rw [openSession, if_pos hopen]
      exact honly stSTATE []
  · have hready := ready_respond hreq stOK []
    refine runs_of_eq (lyheuf_eq hon) ⟨?_, ?_, by simp, by simp⟩
    · rw [sessOf_updSess, if_pos rfl]
      exact hready
    · rw [sessOf_updSess, if_pos rfl]
  · exact runs_of_eq (lyheuf_eq hon) (giveNonce_effect hreq)
  · refine runs_of_eq (lyheuf_eq hon) ⟨by rw [hp], fun howner hpl hothers => ?_⟩
    rw [hp, hpl, claimOwner_unprogrammed howner]
    exact grantOwner_effect hreq hothers
  · obtain ⟨hsess, hmem, hflag, hregs⟩ := hostPolicy_effect pmbw haen.toNat s
    refine runs_of_eq (lyheuf_eq hon) ⟨⟨_, ready_respond_of_sess hreq hsess _ _⟩, (mem_respond _ _ _ _).trans hmem, ?_,
      keepsRegs_of_regs hregs (regs_respond _ _ _ _)⟩
    rw [flag, fld_of_regs (regs_respond _ _ _ _)]
    exact hflag
  · have hkept := besideSess_railGet x r.payload s
    refine runs_of_eq ((execRailGet_eq x s).trans (lyheufSized_eq hreq hon hlen _))
      ⟨⟨regs_of_besideSess hkept, (congrArg State.mem hkept :)⟩, fun hnone => ?_, fun j hj => ?_⟩
    · rw [railGet, hnone]
      exact ready_respond hreq _ _
    · rw [railGet, hj]
      exact ready_respond hreq _ _
  · refine runs_of_eq (t := railSet x r.payload s) ?_ ⟨rfl, fun hnone => ?_⟩
    · show execRailSet x s = _
      rw [execRailSet, if_pos hfree, hp]
      exact lyheuf_eq hon
    · rw [railSet, hnone]
      exact honly stARG []
  · refine runs_of_eq ?_ rfl
    show execRailEnable x s = _
    rw [execRailEnable, if_pos hfree]
    exact lyheufSized_eq hreq hon hlen _
  · refine runs_of_eq ?_ rfl
    show execRailDisable x s = _
    rw [execRailDisable, if_pos hfree]
    exact lyheufSized_eq hreq hon hlen _
  · refine runs_of_eq ?_ rfl
    show execRailClear x s = _
    rw [execRailClear, if_pos hfree]
    exact lyheufSized_eq hreq hon hlen _
  · refine runs_of_eq ?_ rfl
    show execRailPolicy x j y s = _
    rw [execRailPolicy, if_pos (by simp [hfree, hpend])]
    exact lyheuf_eq hon
  · exact runs_of_eq (lyheuf_eq hon) ⟨⟨_, (honly stOK _).1⟩, (honly stOK _).2⟩
  · exact runs_of_eq (lyheuf_eq hon) rfl
  · exact runs_of_eq (lyheuf_eq hon) ⟨⟨_, (honly stOK _).1⟩, (honly stOK _).2⟩
  · exact runs_of_eq (lyheuf_eq hon) rfl
  · refine runs_of_eq (lyheuf_eq hon) ⟨?_, fun hok => ?_, fun hbad => ?_⟩
    · split
      · exact (honly stOK _).2
      · exact (honly stARG _).2
    · rw [if_pos hok]
      exact ⟨_, (honly stOK _).1⟩
    · rw [if_neg (by simp [hbad])]
      exact (honly stARG _).1
  · have hkept : (telemStream x qs us.toNat s).regs = s.regs ∧ (telemStream x qs us.toNat s).mem = s.mem := by
      by_cases href : StreamRefused qs us.toNat
      · rw [telemStream_of_refused href]
        exact (honly stARG []).2
      · rw [telemStream_of_taken href, regs_respond, mem_respond]
        simp [streamBegun]
    refine runs_of_eq (lyheuf_eq hon) ⟨hkept, fun h => ?_, fun hok hlen hne hus hmul => ?_⟩
    · rw [telemStream_of_refused (by unfold StreamRefused; tauto)]
      exact ⟨ready_respond hreq _ _, host_respond _ _ _ _⟩
    · have hus' : us.toNat ≠ 0 := fun h => hus (BitVec.eq_of_toNat_eq h)
      have htaken : ¬StreamRefused qs us.toNat := by
        rintro (hlong | hodd | ⟨hzero, -⟩ | hbad)
        · omega
        · exact hodd hmul
        · exact hus' hzero
        · exact absurd (hok.symm.trans hbad) (by decide)
      rw [telemStream_of_taken htaken, host_respond]
      refine ⟨⟨_, ready_respond_of_sess hreq (by simp [streamBegun]) _ _⟩, ?_, by simp [streamBegun], by simp [streamBegun]⟩
      simp [streamBegun, hne]
  · refine runs_of_eq (t := recRead x o.toNat n.toNat s) ?_ ⟨rfl, mem_recRead _ _ _ _, fun hbig => ?_⟩
    · show execRecRead x o n s = _
      rw [execRecRead, if_neg (by simp [hheld])]
      exact lyheuf_eq hon
    · rw [recRead_of_misfit (Or.inl hbig)]
      exact honly stARG []
  · exact runs_of_eq (lyheuf_eq hon) ⟨⟨_, ready_respond_of_sess hreq (sess_erCommand op s) _ _⟩, mem_respond _ _ _ _,
      regs_respond _ _ _ _⟩
  · exact runs_of_eq (lyheufSized_eq hreq hon hlen _) ⟨rfl, faultLog_effect _ _ s⟩
  · obtain ⟨hsess, hmem, hlog, hpend⟩ := faultClear_effect s
    refine runs_of_eq (t := respond x stOK (packed 0x0802 []) (faultClear s)) ?_
      ⟨⟨_, ready_respond_of_sess hreq hsess _ _⟩, ?_, (mem_respond _ _ _ _).trans hmem, ?_⟩
    · show execFaultClear x s = _
      rw [execFaultClear, if_neg (by simp [hclosed])]
      exact lyheuf_eq hon
    · have hfm : (respond x stOK (packed 0x0802 []) (faultClear s)).fm = (faultClear s).fm :=
        (congrArg State.fm (besideSess_respond _ _ _ _) :)
      rw [hfm]
      exact hlog
    · rw [flag, fld_of_regs (regs_respond _ _ _ _)]
      exact hpend
  · exact runs_of_eq (lyheufSized_eq hreq hon hlen _) ⟨rfl, attest_effect _ _ s⟩
  · obtain ⟨hmem, hclean⟩ := getCert_effect x r.payload s
    refine runs_of_eq ((execGetCert_eq x s).trans (lyheufSized_eq hreq hon hlen _)) ⟨hmem, hclean, fun hblank => ?_⟩
    rw [getCert, if_neg (by simp [hblank])]
    exact ready_respond hreq _ _
  · refine runs_of_eq ?_ rfl
    show execAbort x s = _
    rw [execAbort, hp, if_pos hwait]
  · refine runs_of_eq (t := firmwareAbort x r.payload s) ?_ ⟨rfl, fun hstate ht => ?_, fun hstate hbad => ?_⟩
    · show execAbort x s = _
      rw [execAbort, hp, if_neg hgo]
      exact lyheuf_eq hon
    · rw [firmwareAbort_of_role hstate ht]
      exact honly stROLE []
    · rw [firmwareAbort_of_arg hstate hbad]
      exact honly stARG []

end Sys2Proof.Machine
end
